-- ==== Sys2Proof/Word.lean ====
section
/-! DEFINITION. The word types of the device (spec/00 R2: registers are 32 bits; R5: bytes). -/

namespace Sys2Proof

/-- A byte of memory, of a packet or of a record. -/
abbrev Byte := BitVec 8

/-- A register, and TIME_NS (spec/00 R2, R6). -/
abbrev Word := BitVec 32

end Sys2Proof
end

