-- ==== Sys2Proof/Syntax.lean ====
section
/-! DEFINITION. Commands. -/

namespace Sys2Proof

/-- What the active parameter sets of an access unit say (spec/07 R201 to R203): profile_idc, whether an H.264 Baseline profile is
the Constrained one, tier, level_idc, chroma_format_idc, bit depth, coded and cropped size, left and top crop offsets, field
coding, arbitrary slice order or flexible macroblock order, DPB size (DEDUCED, log 27). -/
structure SpsInfo where
  profile : Nat
  constrained : Bool
  tier : Nat
  level : Nat
  chroma : Nat
  depth : Nat
  codedW : Nat
  codedH : Nat
  width : Nat
  height : Nat
  left : Nat
  top : Nat
  field : Bool
  flexible : Bool
  dpb : Nat
  deriving DecidableEq, Repr

/-- What a decoder core finds in an access unit before it decodes it (spec/07; the H.265 and H.264 syntax is outside
the spec, so this is the command's): IRAP kind (0 none, 1 IDR, 2 CRA, 3 BLA), why it cannot be decoded (0 it can, 1 no slice can
be decoded, 7 a parameter set was never received), whether no picture uses it for reference, whether it is a RASL picture, and its
active parameter sets (DEDUCED, log 27). -/
structure AuInfo where
  irap : Nat
  reason : Nat
  nonRef : Bool
  rasl : Bool
  sps : SpsInfo
  deriving DecidableEq, Repr

/-- What decoding a picture gave (spec/07): CTU or macroblock size; the CTUs from a syntax error to the end of its slice, those no
slice covers, and those predicted in any part from a substitute; whether a slice has a syntax error; the pictures it refers to, by
picture order count or frame_num; the blocks of reference buffers read, as (buffer, block column, block row); marks kept by the
reference process (buffer, mark), its own mark, its picture order count and frame_num, the maximum reorder count, whether it is for
output, an end of sequence, a second access unit in the data, the decoded rows of blocks at the coded bit depth, and for H.264 MaxFrameNum and
whether gaps in frame_num are allowed (DEDUCED, log 27). -/
structure PicObs where
  ctu : Nat
  lost : List Nat
  bare : List Nat
  pred : List Nat
  broken : Bool
  refs : List Int
  reads : List (Nat × Nat × Nat)
  keep : List (Nat × Nat)
  mark : Nat
  poc : Int
  num : Int
  reorder : Nat
  output : Bool
  eos : Bool
  multi : Bool
  rows : List (List Byte)
  maxNum : Nat
  gaps : Bool
  deriving DecidableEq, Repr

/-- The end of a strip's read-out (spec/10 R321): the head, and whether the strip's write-back is unfinished then (spec/08 R256). -/
structure SlotEnd where
  head : Nat
  late : Bool
  deriving DecidableEq, Repr

/-- What a witness decodes of one tile at its port's pads (spec/09 R294): TILE32, and the digest and DOUBT of STAMP. -/
structure TileObs where
  t32 : Word
  digest : Word
  fill : Bool
  deriving DecidableEq, Repr

/-- What a witness decodes of one frame at its port's pads (spec/09 R294): its packets; the frame counter and latch time of its STAMP packets, the valid-until of FRAME_END, whether every tile row and FRAME_END
arrived, when FRAME_END did, and whether the compare memory entries used had good parity. -/
structure WitObs where
  pkts : List (List Byte)
  num : Word
  time : Word
  until_ : Word
  whole : Bool
  at_ : Word
  compare : Bool
  deriving DecidableEq, Repr

/-- Where a handshake stage went unacknowledged (spec/01 R13): a tile column (head, column, unit), the writer of a source's picture, a
write-back source, a decoder core, an encoder core, a panel's path, the tandem's data, the receive side of a spoke port, a ring command in step 3 (ring, entry), a journal write; and the
stages of spec/17 R554, code 0x07: the timing core, the journal engine, the memory controller, the tile table, the warden mailbox. -/
inductive Stage where
  | column (h c unit : Nat)
  | fill (n : Nat)
  | writeBack (n : Nat)
  | decoder (c : Nat)
  | encoder (c : Nat)
  | panel (p : Nat)
  | tandem
  | receive (p : Nat)
  | command (r k : Nat)
  | journal
  | timing
  | engine
  | memory
  | tiles
  | mailbox
  deriving DecidableEq, Repr

/-- A test by which a receiver finds a lane lost (spec/12 R376): marker intervals that have passed without a good marker, loss of lock of
its clock recovery, or code errors that it has just counted. -/
inductive LossTest where
  | markers (n : Nat)
  | clock
  | errors (n : Nat)
  deriving DecidableEq, Repr

/-- The commands: one constructor per row of spec/opcode_table.json, each docstring naming its row and its rule. What an
operand means, by its name: `port`, `host` a host port, 0 to 3; `p` a spoke port by its index in the model (for the touch and panel rows
from panelStart to selfTestDue the panel of that index, for pulseEdge a pulse output); `h` a head; `r` a ring by its index and `k` the
FREE-RUNNING index of its entry (`r` is a reference in refInactive to wtrExpiry, a region in regionUpdate); `n` a source, a
stream or a sensor, and a byte count in a memory access; `c` a decoder core, a tile column, an encoder or a capture channel; `m` an access unit's master;
`g` a cadence group; `cap` a function and `i` or `inst` its number; `blk` a register block (0 basic, 1 expert, 2 control words, 3 the control window by its own offset),
`off` an offset in it; `v`, `hi` the word written; `lines` the line bits that arrive on the lanes of the port's map and `skew` how many line
bits late each lane is (spec/12 R362 to R367); `bits` those of one lane, from a marker's guard bit or first one on. An
operand that is none of these is what the outside world supplies with the event, as the row's summary says. -/
inductive Instr where
  /-- POWER_ON_RESET (R532): Every warden rail reaches power good after one was below threshold; the whole module
  resets, the straps are sampled and the start-up order of R537 begins. -/
  | powerOnReset (straps : Nat)
  /-- SYS_RESET_N_ASSERT (R532): SYS_RESET_N is held low for at least 10 µs and the device performs a WARM reset. -/
  | sysResetNAssert
  /-- WARM_RESET (R532): THM_CMD with key 0x7264 and OP WARM_RESET resets the warden logic and the fabric die, after
  R536 on an ACTIVE unit. -/
  | warmReset (port : Nat) (key : Nat)
  /-- FABRIC_RESET (R534): THM_CMD with key 0x7264 and OP FABRIC_RESET resets the fabric die and memory controller
  and reloads from the last slot started. -/
  | fabricReset (port : Nat) (key : Nat)
  /-- SMBUS_RESET (R574): SMBus Write Byte command 0x10 with data 0x72 triggers a WARM reset. -/
  | smbusReset (data : Nat) (pec : Bool)
  /-- LOCKSTEP_MISMATCH (R554): The warden lockstep cores disagree; the device raises fault 0x03 and performs an
  automatic WARM reset. -/
  | lockstepMismatch
  /-- START_HOLD_RELEASE (R541): TEMP_MAX falls below WARN − HYST while the start hold applies, and the warden
  releases the fabric die. -/
  | startHoldRelease
  /-- SUPPLY_WAIT_TIMEOUT (R568): At start step 5 a rail is still outside its window after 1 s; the warden raises
  fault 0x06 and holds the fabric die in reset. -/
  | supplyWaitTimeout (out : List Nat)
  /-- PERST_DEASSERT (R538): A host port's PERST_N deasserts and the port answers configuration requests within 100
  ms. -/
  | perstDeassert (port : Nat)
  /-- STRUCTURE_LOAD (R55): At start-up the warden builds the slot order, then reads and checks each slot in turn and
  loads the first that passes R64. -/
  | structureLoad (out : List Nat)
  /-- ROUTING_COMPUTED (R67): The warden finishes computing the routing for a discarded or absent image, which takes
  up to 20 s. -/
  | routingComputed (out : List Nat)
  /-- WRITE_SLOT (R58): STRUCT_CMD OP 0x01 authenticates the staged container, erases the target slot and starts
  writing it. -/
  | writeSlot (port : Nat) (slot : Nat)
  /-- SLOT_WRITTEN (R54): A slot write completes, reads back equal to the staged container, and the slot becomes
  WRITTEN. -/
  | slotWritten (same : Bool)
  /-- SET_PREFERRED (R54): STRUCT_CMD OP 0x02 makes a WRITTEN or CONFIRMED slot preferred and puts it in TRIAL. -/
  | setPreferred (port : Nat) (slot : Nat)
  /-- CONFIRM (R54): STRUCT_CMD OP 0x03 makes the TRIAL slot the device runs from CONFIRMED. -/
  | confirm (port : Nat)
  /-- CONFIRM_TIMEOUT (R54): A TRIAL slot reaches its confirmation time without CONFIRM and becomes FAILED. -/
  | confirmTimeout
  /-- ZONE_RELOAD (R69): STRUCT_CMD OP 0x04 checks a staged container against the running structure and starts
  replacing one zone. -/
  | zoneReload (port : Nat) (zone : Nat)
  /-- ZONE_DRAIN_END (R70): The drain of R70 step 3 ends after the configured number of frames, and the warden loads
  the zone's routing. -/
  | zoneDrainEnd
  /-- ZONE_ROUTING_LOADED (R70): The zone's routing section is loaded, and its functions go to STARTING with
  MODE_CHANGE and blank frames. -/
  | zoneRoutingLoaded (fail : Nat)
  /-- VERIFY (R64): STRUCT_CMD OP 0x05 makes every load check on the staged container. -/
  | verify (port : Nat)
  /-- REVOKE_KEY (R62): STRUCT_CMD OP 0x06 checks a revocation order and sets the target key slot's revoke bit. -/
  | revokeKey (port : Nat) (key : Nat)
  /-- RAISE_FLOOR (R63): STRUCT_CMD OP 0x07 sets the OTP SEQUENCE floor to the SEQUENCE of the running structure. -/
  | raiseFloor (port : Nat)
  /-- PROVISION_KEY (R61): STRUCT_CMD OP 0x08 programs the staged hash into an empty key slot, in DEVELOPMENT only. -/
  | provisionKey (port : Nat) (key : Nat)
  /-- HANDSHAKE_COMPLETION_TIMEOUT (R13): A handshake stage goes unacknowledged for 50 µs; the items passing through
  it are in doubt. -/
  | handshakeCompletionTimeout (g : Stage)
  /-- VDD_FAB_REQUEST_RAISE (R15): A completion-time monitor falls inside its 3 % guard and the device raises its
  VDD_FAB request. -/
  | vddFabRequestRaise (monitor : Nat)
  /-- VDD_FAB_REQUEST_LOWER (R15): A 100 ms interval elapses and the device lowers its VDD_FAB request by at most 5
  mV. -/
  | vddFabRequestLower
  /-- AVS_READBACK_FAULT (R570): The regulator's readback differs from the request by more than 10 mV for 1 ms, which
  is fault 0x06. -/
  | avsReadbackFault
  /-- FN_ENABLE (R91): A write of FN_CTL.ENABLE 1 takes an OFF instance to STARTING, or sets RESTART_PENDING in
  STOPPING. -/
  | fnEnable (port : Nat) (cap : Nat) (i : Nat)
  /-- FN_DISABLE (R91): A write of FN_CTL.ENABLE 0 takes an ON or STARTING instance to STOPPING, or clears
  RESTART_PENDING. -/
  | fnDisable (port : Nat) (cap : Nat) (i : Nat)
  /-- FN_LEVEL_SET (R89): A write of FN_CTL.LEVEL switches an instance between basic and expert level. -/
  | fnLevelSet (port : Nat) (cap : Nat) (i : Nat) (expert : Bool)
  /-- FUNCTION_STARTED (R91): A STARTING instance whose awaited conditions now hold makes its checks and enters ON,
  or fails the start. -/
  | functionStarted (cap : Nat) (i : Nat)
  /-- SHUTDOWN_COMPLETE (R91): A STOPPING instance completes shut-down and scrub and enters OFF, or STARTING when a
  restart is pending. -/
  | shutdownComplete (cap : Nat) (i : Nat)
  /-- STOP_SLOW (R92): An instance is still STOPPING 100 ms after entering it. -/
  | stopSlow (cap : Nat) (i : Nat)
  /-- HOST_PORT_RESET (R82): A Function Level Reset, hot reset or link-down on a host port takes that port's rings to
  STOPPING and empties its event queue. -/
  | hostPortReset (port : Nat)
  /-- HOST_PORT_RESET_END (R82): A Function Level Reset completes, or the link comes up again, and the port is no
  longer under reset. -/
  | hostPortResetEnd (port : Nat)
  /-- CONTROL_WINDOW_BAD_ACCESS (R80): A control window access that is not an aligned 32-bit word is completed with
  Unsupported Request, or dropped, and counted. -/
  | controlWindowBadAccess (port : Nat) (write : Bool)
  /-- MEMORY_WINDOW_READ (R81): A host read through the memory window is checked by the port's access check unit and
  served, or refused with Completer Abort. -/
  | memoryWindowRead (port : Nat) (off : Nat) (n : Nat)
  /-- MEMORY_WINDOW_WRITE (R81): A host posted write through the memory window is checked by the port's access check
  unit and written, or dropped. -/
  | memoryWindowWrite (port : Nat) (off : Nat) (data : List Byte)
  /-- REGISTER_WRITE (R577): A write to a register that has no row of its own takes effect, or is ignored whole and
  counted when a field is out of range. -/
  | registerWrite (port : Nat) (cap : Nat) (inst : Nat) (blk : Nat) (off : Nat) (v : Word)
  /-- RC_REGISTER_READ (R4): A read of an RC register returns its value and then clears it. -/
  | rcRegisterRead (port : Nat) (cap : Nat) (inst : Nat) (blk : Nat) (off : Nat)
  /-- RING_DOORBELL (R97): A write to RING_PROD of a host-produced ring starts fetching and handling new entries once
  earlier memory window writes have landed. -/
  | ringDoorbell (port : Nat) (r : Nat) (v : Word)
  /-- RING_CONS_WRITE (R95): The host advances RING_CONS of a device-produced ring and frees entries. -/
  | ringConsWrite (port : Nat) (r : Nat) (v : Word)
  /-- RING_WAIT_LIMIT_WRITE (R102): A write to RING_WAIT_LIMIT applies at once to waiting commands, and may time them
  out immediately. -/
  | ringWaitLimitWrite (port : Nat) (r : Nat) (v : Word)
  /-- COMMAND_WAIT_END (R101): The FENCE_BEFORE or WAIT_FENCE wait of a command is met, and the command proceeds to
  be performed. -/
  | commandWaitEnd (r : Nat) (k : Nat)
  /-- FENCE_TIMEOUT (R102): A command's fence wait exceeds RING_WAIT_LIMIT and completes with FENCE_TIMEOUT. -/
  | fenceTimeout (r : Nat) (k : Nat)
  /-- NOP (R102): DEVICE_CORE opcode 0x0100 performs nothing and carries fences. -/
  | nop (r : Nat) (k : Nat)
  /-- BARRIER (R105): A write to CORE_BARRIER starts a barrier on the writing port. -/
  | barrier (port : Nat) (v : Word)
  /-- BARRIER_DONE (R105): Everything in a barrier's scope has taken effect, and CORE_BARRIER_DONE.TOKEN takes its
  token. -/
  | barrierDone (port : Nat)
  /-- FENCE_SIGNAL_WRITE (R106): The owner writes the high half of a FENCE_SIGNAL pair and signals the object. -/
  | fenceSignalWrite (port : Nat) (obj : Nat) (hi : Word)
  /-- FENCE_VALUE_READ (R3): A read of FENCE_VALUE_LO freezes FENCE_VALUE_HI until it is read. -/
  | fenceValueRead (port : Nat) (obj : Nat) (high : Bool)
  /-- HOLDOFF_EXPIRY (R110): A ring's MSI-X holdoff ends, and anything that fell due meanwhile is signalled once. -/
  | holdoffExpiry (r : Nat)
  /-- PTM_DIALOGUE (R111): The PTM period elapses, and the device runs a PTM dialogue and updates CORE_PTM_HOST and
  CORE_PTM_DEV. -/
  | ptmDialogue (port : Nat) (enabled : Bool) (hostTime : Nat) (delay : Nat) (ok : Bool)
  /-- PTM_SNAPSHOT_READ (R111): A read of CORE_PTM_HOST_LO freezes the set until CORE_PTM_DEV is read. -/
  | ptmSnapshotRead (port : Nat) (part : Nat)
  /-- REGION_UPDATE (R121): A REG_CTL write takes the pending BASE and SIZE and the new bits into effect together, or
  is refused. -/
  | regionUpdate (port : Nat) (m : Nat) (r : Nat) (v : Word)
  /-- ACC_SYNC (R127): A write to ACC_SYNC starts a sync on an access check unit. -/
  | accSync (port : Nat) (m : Nat) (token : Nat)
  /-- SYNC_DONE (R127): Every access passed before the sync write has completed at memory, and ACC_SYNC_DONE.TOKEN
  takes the token. -/
  | syncDone (m : Nat)
  /-- NOTICE_WINDOW_CLOSE (R126): A notice window closes and the unit raises READ_REFUSED or WRITE_DROPPED once for
  the window. -/
  | noticeWindowClose (m : Nat) (write : Bool)
  /-- ENTER_SERVICE (R134): DEBUG_CMD OP 0x01 checks the service token and, if it passes, takes the device into
  SERVICE. -/
  | enterService (port : Nat)
  /-- SET_FIELD (R132): DEBUG_CMD OP 0x02 blows the FIELD OTP bit when a qualifying key slot exists. -/
  | setField (port : Nat)
  /-- DEBUG_MASTER_ACCESS (R136): The debug master behind JTAG reads or writes device memory, checked by its unit
  except in SERVICE. -/
  | debugMasterAccess (write : Bool) (a : Nat) (n : Nat) (data : List Byte)
  /-- DEBUG_ACCESS_RECORD (R136): A millisecond in which the debug master wrote ends, and the journal engine writes
  one DEBUG_ACCESS record. -/
  | debugAccessRecord
  /-- MEMORY_READ (R150): A master's read of HBM3 is served, forwarded or strict, with ECC correction or poisoning. -/
  | memoryRead (m : Nat) (a : Nat) (n : Nat) (ce : Nat) (ue : Bool)
  /-- MEMORY_WRITE (R148): A master's write of HBM3 is accepted into the pseudo-channel write queue. -/
  | memoryWrite (m : Nat) (a : Nat) (data : List Byte)
  /-- SCRUB_READ (R154): Patrol scrub reads the next word on its schedule and corrects or poisons it. -/
  | scrubRead (result : Nat)
  /-- SCRUB_PASS (R154): A scrub pass over every partition completes. -/
  | scrubPass
  /-- CE_SUMMARY (R166): A second in which MEM_CE_COUNT rose ends, and its corrections are summarised. -/
  | ceSummary
  /-- MEM_BYTES_READ (R165): A read of a MEM_BYTES low half freezes its high half until it is read. -/
  | memBytesRead (port : Nat) (stack : Nat) (high : Bool)
  /-- STACK_TEMP_READING (R157): The 1 ms stack temperature reading arrives and sets the refresh rate and hot flags. -/
  | stackTempReading (t0 : Int) (t1 : Int)
  /-- WARMING_TIMEOUT (R160): WARMING lasts 120 s without reaching 0 °C, and memory fails. -/
  | warmingTimeout (stack : Nat)
  /-- TRAINING_COMPLETE (R160): Memory training ends; the controller enters ZEROING or FAILED. -/
  | trainingComplete (fullSearch : Bool) (repairs : List (Nat × Nat)) (failed : Option (Nat × Nat))
  /-- ZEROING_COMPLETE (R146): Every ZERO_AT_LOAD partition is zeroed, the controller becomes READY and the structure
  runs. -/
  | zeroingComplete
  /-- EYE_DRIFT_CHECK (R162): The drift measurement period elapses and each pseudo-channel's eye margin is checked. -/
  | eyeDriftCheck (low : List Nat)
  /-- RETRAINED (R162): A pseudo-channel completes an in-place retrain within its 20 µs hold. -/
  | retrained (pc : Nat) (ok : Bool)
  /-- SUBMIT (R188): SOURCES opcode 0x1001 stamps and checks a host surface picture, compressing it first when
  needed. -/
  | submit (r : Nat) (k : Nat)
  /-- FILL_TIMEOUT (R179): A picture's fill exceeds SRC_X_FILL_MS, and it is culled as INCOMPLETE. -/
  | fillTimeout (n : Nat)
  /-- SOURCE_STATE_EVAL (R184): The millisecond re-evaluation of a source's state, including release of a newest
  buffer aged 2,000 ms. -/
  | sourceStateEval (n : Nat)
  /-- SRC_CULL (R196): A 1 ms cull window of a source closes and SRC_CULL is raised for it. -/
  | srcCull (n : Nat)
  /-- TEST_PATTERN_REGEN (R194): A test pattern source reaches its regeneration instant and regenerates the pattern
  into a FREE buffer. -/
  | testPatternRegen (n : Nat)
  /-- COMPRESS (R191): COMPRESS opcode 0x0601 compresses a linear picture into a block store, or completes NO_GAIN. -/
  | compress (r : Nat) (k : Nat)
  /-- DECOMPRESS (R192): COMPRESS opcode 0x0602 expands a block store into a linear picture. -/
  | decompress (r : Nat) (k : Nat)
  /-- DECODE_STREAM_BIND (R198): A STARTING stream whose ring and source are ready binds to a core and goes ON. -/
  | decodeStreamBind (n : Nat)
  /-- DECODE_PICTURE_START (R199): A core becomes free and starts the earliest-captured waiting access unit that has
  a buffer, or skips it as late. -/
  | decodePictureStart (c : Nat) (i : AuInfo)
  /-- DECODE_PICTURE_END (R205): A core finishes decoding an access unit, updates sync state and DPB, outputs
  pictures and completes the entry. -/
  | decodePictureEnd (c : Nat) (o : PicObs)
  /-- HEAD_START_READY (R319): A STARTING head has an active mode and a trained port, makes its lane check and enters
  ON. -/
  | headStartReady (h : Nat)
  /-- CADENCE_FRAME_INSTANT (R489): A cadence group reaches a frame instant and applies any pending GROUP_RATE or
  ALIGN. -/
  | cadenceFrameInstant (g : Nat)
  /-- HEAD_LATCH (R310): A head's latch instant: it takes the frame's state, applies commits and modes, latches
  buffers, samples the cursor and starts the frame. -/
  | headLatch (h : Nat)
  /-- STRIP_START (R223): A strip's slot is free and the previous strip is complete, so the head starts composing the
  strip. -/
  | stripStart (h : Nat)
  /-- TILE_COLUMN_DONE (R222): A layer unit finishes a tile column: layers composed, freshness applied, cursor
  blended, TILE32 and digests formed. -/
  | tileColumnDone (h : Nat) (c : Nat) (unit : Nat) (timeout : Bool) (parity : Bool)
  /-- STRIP_COMPLETE (R257): Every tile column of a strip is written; its margin is recorded and a layer may be shed. -/
  | stripComplete (h : Nat)
  /-- STRIP_READOUT_START (R322): Read-out of a strip starts at its line; incomplete columns are marked underrun and
  composition of the strip stops. -/
  | stripReadoutStart (h : Nat)
  /-- STRIP_SLOT_FREE (R321): Read-out of a strip's last line ends and its scan buffer slot frees. -/
  | stripSlotFree (o : SlotEnd)
  /-- FRAME_READOUT_END (R405): The frame's last active line ends and FRAME_END with valid-until and row checks
  leaves the port. -/
  | frameReadoutEnd (h : Nat)
  /-- LAYER_SET (R242): COMPOSE opcode 0x1201 changes a layer's pending state. -/
  | layerSet (r : Nat) (k : Nat)
  /-- LAYER_FENCE (R250): COMPOSE opcode 0x1202 places or clears a render fence on a layer's next flip. -/
  | layerFence (r : Nat) (k : Nat)
  /-- LOAD_COEFF (R236): COMPOSE opcode 0x1203 copies a coefficient table into a layer's BACK bank. -/
  | loadCoeff (r : Nat) (k : Nat)
  /-- READ_COEFF (R236): COMPOSE opcode 0x1204 writes a layer's FRONT bank to memory. -/
  | readCoeff (r : Nat) (k : Nat)
  /-- CURSOR_LOAD (R252): COMPOSE opcode 0x1205 copies a cursor image into the BACK image. -/
  | cursorLoad (r : Nat) (k : Nat)
  /-- COMMIT (R240): COMPOSE opcode 0x1206 takes the head's pending state to apply at the next latch. -/
  | commit (r : Nat) (k : Nat)
  /-- CURSOR_POS_WRITE (R253): A write to CURSOR_POS sets the position sampled at the next latch and shows a hidden
  cursor again. -/
  | cursorPosWrite (host : Nat) (h : Nat) (v : Word)
  /-- CURSOR_HIDDEN (R253): CURSOR_POS has not been written for HIDE_MS, and the cursor hides from the next latch. -/
  | cursorHidden (h : Nat)
  /-- TILE_DOUBT (R283): A 1 ms tile-doubt window of a head closes and TILE_DOUBT is raised for it. -/
  | tileDoubt (h : Nat)
  /-- TILE_SNAPSHOT_WRITE (R286): A write to FRESH_TILE_INDEX copies a tile table entry into FRESH_TILE_LO and
  FRESH_TILE_HI. -/
  | tileSnapshotWrite (host : Nat) (h : Nat) (v : Word)
  /-- WITNESS_TILE_CHECK (R294): A tile's last pixel leaves the pads and the witness checks its TILE32 and digest
  within 20 µs. -/
  | witnessTileCheck (p : Nat) (tile : Nat) (o : TileObs)
  /-- WITNESS_FRAME_CHECK (R294): The witness completes its checks of a frame after its FRAME_END and records a clean
  or mismatched frame. `rows`: the row checks of FRAME_END, none where it did not arrive. -/
  | witnessFrameCheck (p : Nat) (rows : List Nat) (o : WitObs)
  /-- WITNESS_ISLAND_POWER_LOSS (R299): The witness island's power-good falls and the warden drives every out-port to
  SAFE. -/
  | witnessIslandPowerLoss
  /-- WITNESS_REPORT_TIMEOUT (R299): The warden receives no witness report for 1 ms while frames are sent, and drives
  every out-port to SAFE. -/
  | witnessReportTimeout
  /-- LIMIT_SET (R273): FRESH opcode 0x1301 sets a layer's freshness limit for the next latch. -/
  | limitSet (r : Nat) (k : Nat)
  /-- POLICY_SET (R274): FRESH opcode 0x1302 sets a layer's freeze and degraded policy for the next latch. -/
  | policySet (r : Nat) (k : Nat)
  /-- REARM (R298): FRESH opcode 0x1303 ends a witness SAFE and restarts with MODE_CHANGE and blank frames. -/
  | rearm (r : Nat) (k : Nat)
  /-- MODE_COMMIT (R314): HEADS opcode 0x1401 checks a whole mode and makes it pending, or active at once in OFF and
  STARTING. -/
  | modeCommit (r : Nat) (k : Nat)
  /-- LUT_LOAD (R328): HEADS opcode 0x1402 copies a LUT table into a bank's staging copy, which applies at a latch. -/
  | lutLoad (r : Nat) (k : Nat)
  /-- LUT_READ (R328): HEADS opcode 0x1403 writes the bank in force to memory. -/
  | lutRead (r : Nat) (k : Nat)
  /-- HEAD_FRAME_READ (R313): A read of HEAD_FRAME freezes HEAD_LATCH_TIME until it is read. -/
  | headFrameRead (port : Nat) (h : Nat) (time : Bool)
  /-- AMBIENT_DWELL_MET (R327): Readings stay past a threshold for the dwell time, and the bank steps at the next
  latch. -/
  | ambientDwellMet (h : Nat)
  /-- AMBIENT_TIMEOUT (R327): No ambient reading arrives for 1 s; HEAD_AMBIENT.VALID falls and the bank stays. -/
  | ambientTimeout (h : Nat)
  /-- ENCODE_INSTANT (R336): A core reaches an encode instant and takes its input buffer, codes a repeat, passes over
  or drops the picture. -/
  | encodeInstant (c : Nat)
  /-- ENCODE_PICTURE_END (R354): A core finishes a picture and writes its access unit and STREAM_OUT entry. -/
  | encodePictureEnd (c : Nat)
  /-- ENC_INPUT_RELEASE (R336): A core reads the last input row and releases the buffer. -/
  | encInputRelease (c : Nat)
  /-- ENC_CAP_WRITE (R348): A write to ENC_PIC_CAP or ENC_SEC_CAP takes effect from the next picture, or is refused
  with CAP_REFUSED. -/
  | encCapWrite (host : Nat) (c : Nat) (sec : Bool) (v : Word)
  /-- SELECT (R356): ENCODE opcode 0x1501 changes the input source and crop at the next encode instant and forces an
  IDR. -/
  | select (r : Nat) (k : Nat)
  /-- REQUEST_IDR (R356): ENCODE opcode 0x1502 forces an IDR at the next encode instant. -/
  | requestIdr (r : Nat) (k : Nat)
  /-- TRAINING_START (R375): A port enters STARTING, or retrains, and begins attempt 1 at phase 1. -/
  | trainingStart (p : Nat)
  /-- TRAIN_BLOCK_RX (R369): A training block arrives, is checked, and may pass the current phase. -/
  | trainBlockRx (p : Nat) (lane : Nat) (bits : List Bool) (locked : Nat) (ask : Nat) (sweep : List (Nat × Nat × Nat))
  /-- PHASE_TIMEOUT (R370): A training phase does not pass within PORT_X_PHASE_MS, and the attempt fails. -/
  | phaseTimeout (p : Nat)
  /-- TRAINING_LIMIT (R372): A training reaches 200 ms without success and ends. -/
  | trainingLimit (p : Nat)
  /-- TRAINING_RETRY (R372): The retry interval after a failed training expires, and a new training starts. -/
  | trainingRetry (p : Nat)
  /-- LANE_LOSS (R376): A receiver declares a data lane, CK or BK lost; the port starts a repair or a new training. -/
  | laneLoss (p : Nat) (lane : Nat) (test : LossTest)
  /-- LANE_FAULT_MARKER_RX (R376): A LANE_FAULT marker and block arrive on the back lane, and the port enters REPAIR. -/
  | laneFaultMarkerRx (p : Nat) (bits : List Bool)
  /-- REPAIR_DONE (R378): A repair passes its phases and the port returns to ACTIVE; the head makes its lane check. -/
  | repairDone (p : Nat)
  /-- REPAIR_TIMEOUT (R378): A repair overruns its limit; it fails and the port trains afresh. -/
  | repairTimeout (p : Nat)
  /-- TX_ISLAND_LOSS (R381): A port's transmit island loses its supply or clock, and its transmitters fall to
  electrical idle. -/
  | txIslandLoss (p : Nat)
  /-- RETRAIN (R391): PORTS opcode 0x2001 starts a new training. -/
  | retrain (r : Nat) (k : Nat)
  /-- POWER (R383): PORTS opcode 0x2002 moves a port to IDLE or DEEP, or back to ACTIVE. -/
  | power (r : Nat) (k : Nat)
  /-- POWER_STATE (R382): A port reaches its requested power state, after any short training. -/
  | powerState (p : Nat)
  /-- TEST (R386): PORTS opcode 0x2003 runs a PRBS pattern in LINK or LOOPBACK mode. -/
  | test (r : Nat) (k : Nat)
  /-- TEST_DONE (R386): A lane test's DURATION_MS ends; the test ends and the command completes. -/
  | testDone (p : Nat) (rx : List (List Bool)) (heard : Nat)
  /-- INJECT (R387): PORTS opcode 0x2004 inverts bits on a driven lane. -/
  | inject (r : Nat) (k : Nat)
  /-- RASTER_FRAME_START_RX (R407): A FRAME_START from a raster source opens a picture into a FREE buffer. -/
  | rasterFrameStartRx (p : Nat) (skew : List Nat) (lines : List (List Bool))
  /-- RASTER_LINE_RX (R400): A RASTER_LINE packet from a raster source is checked and written into the filling
  buffer. -/
  | rasterLineRx (p : Nat) (skew : List Nat) (lines : List (List Bool))
  /-- RASTER_FRAME_END_RX (R407): A FRAME_END from a raster source closes the picture, which goes to the checks of
  R179. -/
  | rasterFrameEndRx (p : Nat) (skew : List Nat) (lines : List (List Bool))
  /-- SURFACE_TILE_RX (R408): A SURFACE_TILE packet is checked and written into the filling buffer. -/
  | surfaceTileRx (p : Nat) (skew : List Nat) (lines : List (List Bool))
  /-- DAMAGE_RX (R409): A DAMAGE packet closes a surface update; untouched tiles are copied and the picture is
  checked. -/
  | damageRx (p : Nat) (skew : List Nat) (lines : List (List Bool))
  /-- FENCE_SIGNAL_RX (R419): A FENCE_SIGNAL packet is applied under R106 once earlier packets of the in-port have
  reached memory. -/
  | fenceSignalRx (p : Nat) (skew : List Nat) (lines : List (List Bool))
  /-- STATUS_RX (R416): A STATUS packet from an endpoint updates partner state, ambient light and epoch held. -/
  | statusRx (p : Nat) (skew : List Nat) (lines : List (List Bool))
  /-- PARTNER_SILENT (R416): No STATUS arrives on a port for LINK_X_STATUS_MS. -/
  | partnerSilent (p : Nat)
  /-- TIME_SEND (R413): The TIME period elapses and the device sends TIME to the endpoint. -/
  | timeSend (p : Nat)
  /-- TIME_ECHO_RX (R414): An endpoint's TIME echo arrives and the device updates DELAY_NS. -/
  | timeEchoRx (p : Nat) (skew : List Nat) (lines : List (List Bool))
  /-- CREDIT_SEND (R417): CREDIT is sent to a source endpoint on a change of LIMIT or each 1 ms. -/
  | creditSend (p : Nat)
  /-- SAFE_REPEAT (R412): 10 ms pass in a harmless state and the port sends a further CONTROL SAFE. -/
  | safeRepeat (p : Nat)
  /-- EPOCH_REPEAT (R412): 100 ms pass on an out-port of a unit that is not ACTIVE, and it sends CONTROL EPOCH with
  ACTIVE 0. -/
  | epochRepeat (p : Nat)
  /-- LINK_HOLD_CAP_WRITE (R411): A write to LINK_HOLD_CAP changes the hold cap, which is sent in HOLD_CAP within one
  frame. -/
  | linkHoldCapWrite (host : Nat) (p : Nat) (v : Word)
  /-- CHECK_APPEND (R434): CHECK opcode 0x0701 computes a check value over memory and writes it after the data. -/
  | checkAppend (r : Nat) (k : Nat)
  /-- CHECK_VERIFY (R434): CHECK opcode 0x0702 computes a check value and compares it with the stored one. -/
  | checkVerify (r : Nat) (k : Nat)
  /-- PANEL_START (R464): A STARTING panel whose port is ACTIVE with TIME_VALID loads baselines, chooses a frequency
  and runs a self-test. -/
  | panelStart (p : Nat)
  /-- TOUCH_CYCLE_START (R438): A panel's cycle period begins and the engine schedules its measurements and sends
  TOUCH_CMD. -/
  | touchCycleStart (p : Nat)
  /-- TOUCH_FRAME_RX (R460): A TOUCH_FRAME arrives; once the cycle's frames are accepted the engine tracks contacts
  and keys and posts a report. -/
  | touchFrameRx (port : Nat) (skew : List Nat) (lines : List (List Bool)) (bufOk : Bool)
  /-- TOUCH_AGE_TIMEOUT (R461): The last report's STAMP becomes older than AGE_LIMIT_MS and the stale release is
  posted. -/
  | touchAgeTimeout (p : Nat)
  /-- UNAVAILABLE_REPEAT (R464): A second passes while the panel is UNAVAILABLE and its report is repeated. -/
  | unavailableRepeat (p : Nat)
  /-- BASELINE_ADAPT (R451): ADAPT_MS elapses and each free node moves its baseline one count toward its raw value. -/
  | baselineAdapt (p : Nat)
  /-- BASELINE_SAVED (R453): SAVE_S elapses at a quiet cycle and baselines are saved to the endpoint and the store. -/
  | baselineSaved (p : Nat)
  /-- CONTACT_EXPIRED (R452): A contact or key exceeds MAX_CONTACT_S and is released, making its area SUSPECT. -/
  | contactExpired (p : Nat)
  /-- SELF_TEST_DUE (R457): SELFTEST_S, or 10 s while UNAVAILABLE for cause TEST, elapses and a self-test runs at the
  next quiet cycle. -/
  | selfTestDue (p : Nat)
  /-- KEYS_LOAD (R446): TOUCH opcode 0x2101 loads key areas for the next cycle. -/
  | keysLoad (r : Nat) (k : Nat)
  /-- REBASELINE (R454): TOUCH opcode 0x2102 releases everything, takes a fresh baseline and saves it. -/
  | rebaseline (r : Nat) (k : Nat)
  /-- SELF_TEST (R457): TOUCH opcode 0x2103 runs a self-test at the next quiet cycle. -/
  | selfTest (r : Nat) (k : Nat)
  /-- RAW_READ (R470): TOUCH opcode 0x2104 writes the last raw MUTUAL frame and its deltas to memory. -/
  | rawRead (r : Nat) (k : Nat)
  /-- INCREMENT_SLEW_STEP (R473): Each millisecond the timing core moves the increment toward its target by at most
  MAX_SLEW / 1,000 ppb. -/
  | incrementSlewStep
  /-- WRAP (R475): TIME_NS bit 31 goes from 1 to 0 by counting, and the wrap count rises. -/
  | wrap
  /-- STEP (R474): TIMING opcode 0x3001 adds STEP_NS to TIME_NS and to every stored time at one REFCLK tick. -/
  | step (r : Nat) (k : Nat)
  /-- REF_INACTIVE (R477): A reference misses edges or runs off frequency and is made inactive and disqualified. -/
  | refInactive (r : Nat)
  /-- REF_ACTIVE (R477): An inactive reference shows its first good edge and becomes active. -/
  | refActive (r : Nat)
  /-- REF_MEASUREMENT (R478): A 1 s frequency measurement of a reference completes and its qualification is updated. -/
  | refMeasurement (r : Nat) (edges : Nat) (n : Nat) (phase : Int)
  /-- REF_QUALIFIED (R479): A QUALIFYING reference completes QUAL_S seconds within ACCEPT. -/
  | refQualified (r : Nat)
  /-- REF_CFG_WRITE (R476): A write to REF_CFG KIND or EDGE, or to REF_NOM, disqualifies the reference. -/
  | refCfgWrite (host : Nat) (r : Nat) (nom : Bool) (v : Word)
  /-- TIM_CTL_WRITE (R481): A write to TIM_CTL changes FORCE or REVERTIVE, and selection follows at once. -/
  | timCtlWrite (host : Nat) (v : Word)
  /-- WTR_EXPIRY (R482): A wait-to-restore timer expires and the core switches to the better reference. -/
  | wtrExpiry (r : Nat)
  /-- LOCK_TEST_MET (R484): The increment has stayed within 0.1 ppm of target for 1 s, and the core enters LOCKED. -/
  | lockTestMet
  /-- HOLD_EXPIRED (R486): The holdover timer reaches HOLD_S in FREEWHEEL. -/
  | holdExpired
  /-- TIM_HOST_INCR_WRITE (R480): The high half of TIM_HOST_INCR is written and the HOST reference takes the new
  target. -/
  | timHostIncrWrite (host : Nat) (hi : Word)
  /-- HOST_REF_TIMEOUT (R480): HOST_MS pass without a write to TIM_HOST_INCR_HI, and the HOST reference becomes
  inactive. -/
  | hostRefTimeout
  /-- ALIGN (R491): TIMING opcode 0x3002 sets a new anchor for a cadence group or pulse output. -/
  | align (r : Nat) (k : Nat)
  /-- GROUP_RATE (R490): TIMING opcode 0x3003 sets a cadence group's new rate. -/
  | groupRate (r : Nat) (k : Nat)
  /-- CAPTURE (R492): A capture channel records the TIME_NS of an edge of its input. -/
  | capture (c : Nat) (t : Word) (sub : Nat)
  /-- CAP_TIME_READ (R492): A read of CAP_TIME freezes CAP_SUB until it is read. -/
  | capTimeRead (port : Nat) (c : Nat)
  /-- CAP_SUB_READ (R492): A read of CAP_SUB returns it and clears OVERRUN and STEPPED. -/
  | capSubRead (port : Nat) (c : Nat)
  /-- TIM_NOW_READ (R472): A read of TIM_NOW freezes TIM_NOW_FRAC until it is read. -/
  | timNowRead (port : Nat) (frac : Bool)
  /-- PULSE_EDGE (R493): A pulse output reaches a scheduled edge and drives its pulse. -/
  | pulseEdge (p : Nat)
  /-- JOURNAL_RING_WRITE (R501): The journal buffer drains records into the journal ring, after a GAP record if some
  were overwritten. -/
  | journalRingWrite
  /-- CHECKPOINT_START (R504): CKPT_MS elapses and the engine starts a checkpoint with CKPT_BEGIN. -/
  | checkpointStart
  /-- CHECKPOINT_END (R504): Checkpoint data is written and CKPT_END closes it. -/
  | checkpointEnd
  /-- CKPT_ABANDONED (R505): A checkpoint has not finished within CKPT_MS and is abandoned. -/
  | ckptAbandoned
  /-- FR_TRIGGER (R506): A flight recorder trigger opens the lowest free slot, or adds to the filling slot's count. -/
  | frTrigger
  /-- FR_FROZEN (R506): Copying reaches T + POST_S, or the slot fills, and the slot freezes. -/
  | frFrozen
  /-- FREEZE (R506): JOURNAL opcode 0x3101 triggers the flight recorder. -/
  | freeze (r : Nat) (k : Nat)
  /-- RELEASE (R507): JOURNAL opcode 0x3102 releases a frozen slot. -/
  | release (r : Nat) (k : Nat)
  /-- DUMP (R508): JOURNAL opcode 0x3103 makes the warden copy a frozen slot into a dump slot. -/
  | dump (r : Nat) (k : Nat)
  /-- FR_DUMPED (R508): The warden completes a dump into the configuration store. -/
  | frDumped
  /-- MARK (R530): JOURNAL opcode 0x3104 writes a MARK record with host data. -/
  | mark (r : Nat) (k : Nat)
  /-- RERUN_LOAD (R526): JOURNAL opcode 0x3105 loads a recording's checkpoint into a lab unit and starts the re-run. -/
  | rerunLoad (r : Nat) (k : Nat)
  /-- RERUN_STOP (R528): JOURNAL opcode 0x3106 stops the re-run. -/
  | rerunStop (r : Nat) (k : Nat)
  /-- RERUN_DONE (R528): The re-run reaches its last record and every function stops. -/
  | rerunDone
  /-- HANDOVER (R525): TANDEM opcode 0x3201 starts a handover to an in-sync standby at HANDOVER_TIME. -/
  | handover (r : Nat) (k : Nat)
  /-- RESYNC (R530): TANDEM opcode 0x3202 makes a STANDBY send SYNC_REQ with FULL. -/
  | resync (r : Nat) (k : Nat)
  /-- HEARTBEAT_SEND (R513): The warden sends a heartbeat every 1 ms on every tandem port it drives. -/
  | heartbeatSend
  /-- HEARTBEAT_RX (R513): A partner heartbeat arrives, is checked and may change this unit's tandem role. -/
  | heartbeatRx (p : Nat) (skew : List Nat) (lines : List (List Bool))
  /-- HEARTBEAT_TIMEOUT (R523): TAKEOVER_MS pass without a valid heartbeat; a STANDBY takes over and an ACTIVE raises
  PARTNER_LOST. -/
  | heartbeatTimeout
  /-- JOIN_TIMEOUT (R511): JOIN_MS pass in LISTENING without a valid heartbeat, and the unit becomes ACTIVE by cold
  start. -/
  | joinTimeout
  /-- HANDOVER_TIME_REACHED (R523): A STANDBY reaches the partner's HANDOVER_TIME and takes over. -/
  | handoverTimeReached
  /-- FAILED_HEARTBEAT_END (R511): 10 ms of ROLE FAILED heartbeats end and the unit stops sending heartbeats. -/
  | failedHeartbeatEnd
  /-- JOURNAL_PACKET_RX (R519): A tandem JOURNAL packet arrives and a STANDBY applies its records in SEQ order. -/
  | journalPacketRx (p : Nat) (skew : List Nat) (lines : List (List Bool))
  /-- FOLLOW_HOLD_TIMEOUT (R519): A STANDBY head has held composition 2 ms waiting for a frame's LATCH records, and
  composes without them. -/
  | followHoldTimeout (h : Nat)
  /-- MIRROR_RX (R520): A tandem MIRROR packet is written into device memory as master MIRROR. -/
  | mirrorRx (p : Nat) (skew : List Nat) (lines : List (List Bool))
  /-- CHECKPOINT_RX (R521): A tandem CHECKPOINT packet is loaded by a joining unit. -/
  | checkpointRx (p : Nat) (skew : List Nat) (lines : List (List Bool))
  /-- ACK_SEND (R514): Every 100 µs the receiver sends ACK on the tandem link. -/
  | ackSend
  /-- ACK_RX (R514): An ACK arrives; the sender frees its replay buffer or resends from the first missed item on NAK. -/
  | ackRx (p : Nat) (skew : List Nat) (lines : List (List Bool))
  /-- SYNC_REQ_RX (R521): A SYNC_REQ arrives and the ACTIVE sends a checkpoint, journal and mirror windows. -/
  | syncReqRx (p : Nat) (skew : List Nat) (lines : List (List Bool))
  /-- JOIN_COMPLETE (R521): Every mirror window is copied and the joining unit is within 2 ms of the ACTIVE, so it
  becomes STANDBY with IN_SYNC. -/
  | joinComplete
  /-- TANDEM_TIME_STEP (R522): A joining unit holds 8 echoes, or a STANDBY's offset exceeds TIME_TOL for 1 s, and it
  steps TIME_NS to the ACTIVE. -/
  | tandemTimeStep (ofs : Int)
  /-- EPOCH_STATUS_WAIT_TIMEOUT (R580): No STATUS arrives within LINK_X_STATUS_MS after LINK_UP, so the port's held
  epoch counts as 0 and frames are sent. -/
  | epochStatusWaitTimeout (p : Nat)
  /-- SENSOR_READING (R542): The warden reads all thermal sensors every 1 ms, updates TEMP_MAX and the thermal level. -/
  | sensorReading (ts : List (Option Int))
  /-- SENSOR_TIMEOUT (R543): A sensor gives no reading for 5 ms and is failed. -/
  | sensorTimeout (n : Nat)
  /-- GRACE_END (R545): GRACE_MS ends; the level returns to NORMAL or becomes ENFORCING at step 1. -/
  | graceEnd
  /-- ENFORCE_STEP (R546): STEP_MS elapses at or above WARN and the next enforcement step applies. -/
  | enforceStep
  /-- ENFORCE_RELEASE (R547): TEMP_MAX stays at or below WARN − HYST for RELEASE_S and the step falls by 1. -/
  | enforceRelease
  /-- CUTOFF (R551): In FAILSAFE, TEMP_MAX reaches CRIT + 5 °C or stays at CRIT for 5 s, and the fabric die is held
  in reset. -/
  | cutoff
  /-- AUTO_RECOVERY (R552): TEMP_MAX has stayed at or below RECOVER_TEMP for RECOVER_S after a CRIT fail-safe, and
  the warden performs a FABRIC reset. -/
  | autoRecovery
  /-- REFCLK_LOSS (R554): REFCLK has no edge for 1 µs or is off by more than 1,000 ppm, which is fault 0x04. -/
  | refclkLoss
  /-- WCLK_LOSS (R554): WCLK has no edge for 1 µs or is off by more than 1 %, which is fault 0x05. -/
  | wclkLoss
  /-- SUPPLY_OUT_OF_WINDOW (R554): A monitored rail lies outside its window for 10 µs, which is fault 0x06. -/
  | supplyOutOfWindow (rail : Nat)
  /-- WARDEN_RAIL_LOSS (R569): A warden rail falls and every pin takes its unpowered state. -/
  | wardenRailLoss
  /-- LIFE_HOUR (R558): An hour of fabric running ends and the life record is updated. -/
  | lifeHour
  /-- WEAR_DAY (R559): 24 hours pass and the day's highest VDD_FAB request is appended to the life record. -/
  | wearDay
  /-- SMBUS_SET_POINTER (R574): SMBus Block Write command 0x01 sets the pointer into the THERMAL basic block. -/
  | smbusSetPointer (off : Nat) (pec : Bool)
  /-- SMBUS_READ (R574): SMBus Block Read command 0x02 reads the register at the pointer and advances it by 4. -/
  | smbusRead
  /-- SMBUS_WRITE (R574): SMBus Block Write command 0x03 writes THM_CMD at the pointer, or is refused with a NACK. -/
  | smbusWrite (v : Word) (pec : Bool)
  /-- SMBUS_ALERT_RESPONSE (R574): The Alert Response Address is read and SMB_ALERT_N is released. -/
  | smbusAlertResponse
  /-- WITNESS_ISLAND_RESTORED (R299): The witness island's power-good returns and its reports resume, so ISLAND_OK is
  set and REARM can again succeed. -/
  | witnessIslandRestored
  /-- STRUCT_CMD_DONE (R64): The warden finishes its checks of a staged container for VERIFY, ZONE_RELOAD, REVOKE_KEY
  or PROVISION_KEY, and STRUCT_STATUS leaves BUSY for DONE or FAILED. -/
  | structCmdDone
  /-- RERUN_LOADED (R526): The lab unit finishes loading the recording's checkpoint and stepping TIME_NS, and
  RERUN_STATE goes from LOADING to RUNNING. -/
  | rerunLoaded
  deriving DecidableEq, Repr

end Sys2Proof
end

