-- ==== Sys2Proof/Machine/Bits.lean ====
section
/-! DEFINITION. Bit fields of registers (spec/00, the access-code table and the bit-range notation), byte
order (R5), differences of TIME_NS (R6), and small list helpers. -/

namespace Sys2Proof.Machine

/-- The `n`-bit field of `w` whose lowest bit is `lo`. -/
def bf (w : Word) (lo n : Nat) : Nat := (w.toNat >>> lo) % 2 ^ n

/-- `w` with that field set to `v` (its low `n` bits). -/
def setBf (w : Word) (lo n v : Nat) : Word :=
  BitVec.ofNat 32 (w.toNat - bf w lo n * 2 ^ lo + (v % 2 ^ n) * 2 ^ lo)

/-- Bit `i` of a register. -/
def bit (w : Word) (i : Nat) : Bool := w.toNat.testBit i

/-- `w` with bit `i` set to `b`. -/
def setBit (w : Word) (i : Nat) (b : Bool) : Word := setBf w i 1 (cond b 1 0)

/-- 1 for true, 0 for false. -/
def b2n (b : Bool) : Nat := cond b 1 0

/-- A number as a register value (its low 32 bits). -/
def w32 (n : Nat) : Word := BitVec.ofNat 32 n

/-- An integer as a 32-bit two's complement value. -/
def i32 (z : Int) : Word := BitVec.ofInt 32 z

/-- The signed reading of an `n`-bit field value. -/
def sext (n v : Nat) : Int := if v < 2 ^ (n - 1) then (v : Int) else (v : Int) - (2 : Int) ^ n

/-- The `n`-bit two's complement code of an integer. -/
def code (n : Nat) (z : Int) : Nat := (z % ((2 : Int) ^ n)).toNat

/-- An integer held within `lo` and `hi`. -/
def clampI (lo hi z : Int) : Int := if z < lo then lo else if hi < z then hi else z

/-- a − b as TIME_NS values: the signed difference modulo 2^32 (spec/00 R6). -/
def sdiff (a b : Word) : Int := (a - b).toInt

/-- TIME_NS `a` is at or after `b` (spec/00 R6). -/
def atOrAfter (a b : Word) : Bool := decide (0 ≤ sdiff a b)

/-- `n` bytes of `v`, little-endian (spec/00 R5). -/
def le : Nat → Nat → List Byte
  | 0, _ => []
  | n + 1, v => BitVec.ofNat 8 v :: le n (v / 256)

/-- The number that little-endian bytes spell (spec/00 R5). -/
def leNat : List Byte → Nat
  | [] => 0
  | b :: bs => b.toNat + 256 * leNat bs

/-- The number that big-endian bytes spell (spec/02 R30). -/
def beNat (bs : List Byte) : Nat := leNat bs.reverse

/-- `n` bytes of `v`, big-endian. -/
def be (n v : Nat) : List Byte := (le n v).reverse

/-- The `n` bytes of `bs` from byte `off`. -/
def slice (bs : List Byte) (off n : Nat) : List Byte := (bs.drop off).take n

/-- The `n`-byte little-endian field of `bs` at byte `off`. -/
def leAt (bs : List Byte) (off n : Nat) : Nat := leNat (slice bs off n)

/-- Byte `off` of `bs` as a number (0 past the end). -/
def byteAt (bs : List Byte) (off : Nat) : Nat := (bs.getD off 0).toNat

/-- `bs` cut or filled with zeros to `n` bytes. -/
def fit (n : Nat) (bs : List Byte) : List Byte := bs.take n ++ List.replicate (n - bs.length) 0

/-- Every byte is 0 (reserved bytes, spec/00 R4). -/
def zeros (bs : List Byte) : Bool := bs.all fun b => b == 0

/-- The bits of `n` bytes in transmission order, bit 0 of each byte first. -/
def bitsOf (bs : List Byte) : List Bool := bs.flatMap fun b => (List.range 8).map fun i => b.getLsbD i

/-- Ceiling of a quotient. -/
def cdiv (a b : Nat) : Nat := (a + b - 1) / b

/-- `bs` filled with zeros to a multiple of `n` bytes. -/
def padTo (n : Nat) (bs : List Byte) : List Byte := fit (cdiv bs.length n * n) bs

/-- `xs` with its element at `i` replaced. -/
def setAt {α : Type} (xs : List α) (i : Nat) (v : α) : List α := xs.set i v

/-- `xs` without the elements equal to `x`, then `x` at the end: a set without repeats. -/
def addSet (xs : List Nat) (x : Nat) : List Nat := if xs.contains x then xs else xs ++ [x]

/-- `xs` without `x`. -/
def delSet (xs : List Nat) (x : Nat) : List Nat := xs.filter fun y => y != x

/-- The next value of an alive counter: 1 to 65,535, then 1 again (spec/00, Glossary). -/
def aliveNext (a : Nat) : Nat := if a ≥ 65535 then 1 else a + 1

/-- How far alive counter `b` lies after `a`, from 1 to 65,534; 0 when they are equal. -/
def aliveAhead (a b : Nat) : Nat := (b + 65535 - a) % 65535

/-- Folding a state transformer over a list. -/
def forEach {α σ : Type} (xs : List α) (f : α → σ → σ) (s : σ) : σ := xs.foldl (fun s x => f x s) s

/-- Continue with the value of a number, worked out once. -/
def withNat {α : Type} (x : Nat) (k : Nat → α) : α :=
  match x with
  | 0 => k 0
  | n + 1 => k (n + 1)

end Sys2Proof.Machine
end

