-- ==== Sys2Proof/Machine/Crypto.lean ====
section
/-! DEFINITION. SHA-384 and the verification of ECDSA P-384 signatures, which spec/02 R31, R32 and R60 and spec/04 R133 name and which their
standards (FIPS 180-4, FIPS 186-4) define: PRESUMED (log 44). -/

namespace Sys2Proof.Machine

/-! ### SHA-384 -/

/-- The 80 round constants: fractions of the cube roots of the primes. -/
def shaK : List Nat :=
  [0x428A2F98D728AE22, 0x7137449123EF65CD, 0xB5C0FBCFEC4D3B2F, 0xE9B5DBA58189DBBC,
   0x3956C25BF348B538, 0x59F111F1B605D019, 0x923F82A4AF194F9B, 0xAB1C5ED5DA6D8118,
   0xD807AA98A3030242, 0x12835B0145706FBE, 0x243185BE4EE4B28C, 0x550C7DC3D5FFB4E2,
   0x72BE5D74F27B896F, 0x80DEB1FE3B1696B1, 0x9BDC06A725C71235, 0xC19BF174CF692694,
   0xE49B69C19EF14AD2, 0xEFBE4786384F25E3, 0xFC19DC68B8CD5B5, 0x240CA1CC77AC9C65] ++
  [0x2DE92C6F592B0275, 0x4A7484AA6EA6E483, 0x5CB0A9DCBD41FBD4, 0x76F988DA831153B5,
   0x983E5152EE66DFAB, 0xA831C66D2DB43210, 0xB00327C898FB213F, 0xBF597FC7BEEF0EE4,
   0xC6E00BF33DA88FC2, 0xD5A79147930AA725, 0x6CA6351E003826F, 0x142929670A0E6E70,
   0x27B70A8546D22FFC, 0x2E1B21385C26C926, 0x4D2C6DFC5AC42AED, 0x53380D139D95B3DF,
   0x650A73548BAF63DE, 0x766A0ABB3C77B2A8, 0x81C2C92E47EDAEE6, 0x92722C851482353B] ++
  [0xA2BFE8A14CF10364, 0xA81A664BBC423001, 0xC24B8B70D0F89791, 0xC76C51A30654BE30,
   0xD192E819D6EF5218, 0xD69906245565A910, 0xF40E35855771202A, 0x106AA07032BBD1B8,
   0x19A4C116B8D2D0C8, 0x1E376C085141AB53, 0x2748774CDF8EEB99, 0x34B0BCB5E19B48A8,
   0x391C0CB3C5C95A63, 0x4ED8AA4AE3418ACB, 0x5B9CCA4F7763E373, 0x682E6FF3D6B2B8A3,
   0x748F82EE5DEFB2FC, 0x78A5636F43172F60, 0x84C87814A1F0AB72, 0x8CC702081A6439EC] ++
  [0x90BEFFFA23631E28, 0xA4506CEBDE82BDE9, 0xBEF9A3F7B2C67915, 0xC67178F2E372532B,
   0xCA273ECEEA26619C, 0xD186B8C721C0C207, 0xEADA7DD6CDE0EB1E, 0xF57D4F7FEE6ED178,
   0x6F067AA72176FBA, 0xA637DC5A2C898A6, 0x113F9804BEF90DAE, 0x1B710B35131C471B,
   0x28DB77F523047D84, 0x32CAAB7B40C72493, 0x3C9EBE0A15C9BEBC, 0x431D67C49C100D4C,
   0x4CC5D4BECB3E42B6, 0x597F299CFC657E2A, 0x5FCB6FAB3AD6FAEC, 0x6C44198C4A475817]

/-- The initial hash value. -/
def shaIV : List Nat :=
  [0xCBBB9D5DC1059ED8, 0x629A292A367CD507, 0x9159015A3070DD17, 0x152FECD8F70E5939,
   0x67332667FFC00B31, 0x8EB44A8768581511, 0xDB0C2E0D64F98FA7, 0x47B5481DBEFA4FA4]

/-- The big-endian number of bytes, and back. -/
def natOfBytes (b : List Byte) : Nat := b.foldl (fun n x => 256 * n + x.toNat) 0
def bytesOfNat (n v : Nat) : List Byte := (le n v).reverse

def rotr64 (n x : Nat) : Nat := (x >>> n ||| x <<< (64 - n)) % 2 ^ 64

/-- The message schedule, newest word first, `fuel` words longer. -/
def shaSchedule : Nat → List Nat → List Nat
  | 0, w => w
  | fuel + 1, w =>
    let a := w.getD 1 0
    let b := w.getD 14 0
    let s1 := rotr64 19 a ^^^ rotr64 61 a ^^^ (a >>> 6)
    let s0 := rotr64 1 b ^^^ rotr64 8 b ^^^ (b >>> 7)
    withNat ((s1 + w.getD 6 0 + s0 + w.getD 15 0) % 2 ^ 64) fun x => shaSchedule fuel (x :: w)

/-- The eight working variables. -/
structure ShaSt where
  a : Nat
  b : Nat
  c : Nat
  d : Nat
  e : Nat
  f : Nat
  g : Nat
  h : Nat
  deriving DecidableEq, Repr

/-- The rounds over pairs of a constant and a schedule word. -/
def shaRounds : List (Nat × Nat) → ShaSt → ShaSt
  | [], s => s
  | (k, w) :: l, s =>
    let t1 := s.h + (rotr64 14 s.e ^^^ rotr64 18 s.e ^^^ rotr64 41 s.e) + ((s.e &&& s.f) ^^^ ((2 ^ 64 - 1 - s.e) &&& s.g)) + k + w
    let t2 := (rotr64 28 s.a ^^^ rotr64 34 s.a ^^^ rotr64 39 s.a) + ((s.a &&& s.b) ^^^ (s.a &&& s.c) ^^^ (s.b &&& s.c))
    withNat ((t1 + t2) % 2 ^ 64) fun a => withNat ((s.d + t1) % 2 ^ 64) fun e =>
      shaRounds l { a := a, b := s.a, c := s.b, d := s.c, e := e, f := s.e, g := s.f, h := s.g }

/-- Continue with numbers, each worked out once. -/
def withNats {α : Type} : List Nat → (List Nat → α) → α
  | [], k => k []
  | x :: l, k => withNat x fun x => withNats l fun l => k (x :: l)

/-- The first n words of 8 bytes. -/
def shaWords : Nat → List Byte → List Nat
  | 0, _ => []
  | n + 1, b => natOfBytes (b.take 8) :: shaWords n (b.drop 8)

/-- The first n blocks of 128 bytes. -/
def shaBlocks : Nat → List Byte → List Nat → List Nat
  | 0, _, h => h
  | n + 1, b, h =>
    withNats (shaWords 16 b) fun w =>
      let g (i : Nat) : Nat := h.getD i 0
      let s := shaRounds (shaK.zip (shaSchedule 64 w.reverse).reverse)
        { a := g 0, b := g 1, c := g 2, d := g 3, e := g 4, f := g 5, g := g 6, h := g 7 }
      withNats [(g 0 + s.a) % 2 ^ 64, (g 1 + s.b) % 2 ^ 64, (g 2 + s.c) % 2 ^ 64, (g 3 + s.d) % 2 ^ 64,
        (g 4 + s.e) % 2 ^ 64, (g 5 + s.f) % 2 ^ 64, (g 6 + s.g) % 2 ^ 64, (g 7 + s.h) % 2 ^ 64] (shaBlocks n (b.drop 128))

/-- The message with its padding: a 1 bit, zeros, and its length in bits as 16 bytes. -/
def shaPad (m : List Byte) : List Byte :=
  m ++ [0x80] ++ List.replicate ((239 - m.length % 128) % 128) 0 ++ bytesOfNat 16 (8 * m.length)

/-- SHA-384 (PRESUMED, log 44). -/
def sha384 (m : List Byte) : List Byte :=
  let p := shaPad m
  ((shaBlocks (p.length / 128) p shaIV).take 6).flatMap fun w => bytesOfNat 8 w

/-! ### ECDSA on P-384 -/

/-- The field, the order of the base point, the coefficient b (a is −3), the base point. -/
def p384 : Nat := 0xFFFFFFFFFFFFFFFFFFFFFFFFFFFFFFFFFFFFFFFFFFFFFFFFFFFFFFFFFFFFFFFEFFFFFFFF0000000000000000FFFFFFFF
def n384 : Nat := 0xFFFFFFFFFFFFFFFFFFFFFFFFFFFFFFFFFFFFFFFFFFFFFFFFC7634D81F4372DDF581A0DB248B0A77AECEC196ACCC52973
def b384 : Nat := 0xB3312FA7E23EE7E4988E056BE3F82D19181D9C6EFE8141120314088F5013875AC656398D8A2ED19D2A85C8EDD3EC2AEF
def gx384 : Nat := 0xAA87CA22BE8B05378EB1C71EF320AD746E1D3B628BA79B9859F741E082542A385502F25DBF55296C3A545E3872760AB7
def gy384 : Nat := 0x3617DE4A96262C6F5D9E98BF9292DC29F8F41DBD289A147CE9DA3113B5F0B8C00A60B1CE1D7E819D7A431D7C90EA0E5F

/-- A point by Jacobian coordinates: (x / z², y / z³), infinity where z is 0. -/
structure EcPt where
  x : Nat
  y : Nat
  z : Nat
  deriving DecidableEq, Repr

def EcPt.inf : EcPt := ⟨1, 1, 0⟩

/-- A point with each coordinate worked out once. -/
def ecPt {α : Type} (x y z : Nat) (k : EcPt → α) : α :=
  withNat x fun x => withNat y fun y => withNat z fun z => k ⟨x, y, z⟩

/-- The double of a point. -/
def EcPt.double {α : Type} (a : EcPt) (k : EcPt → α) : α :=
  withNat (a.z * a.z % p384) fun zz =>
  withNat (a.y * a.y % p384) fun yy =>
  withNat (4 * a.x * yy % p384) fun s =>
  withNat (3 * (a.x + p384 - zz) * (a.x + zz) % p384) fun m =>
  withNat ((m * m + 2 * p384 - 2 * s) % p384) fun x =>
  ecPt x ((m * (s + p384 - x) + 8 * (p384 * p384 - yy * yy)) % p384) (2 * a.y * a.z % p384) k

/-- The sum of two points. -/
def EcPt.add {α : Type} (a b : EcPt) (k : EcPt → α) : α :=
  if a.z = 0 then k b
  else if b.z = 0 then k a
  else
    withNat (a.z * a.z % p384) fun za =>
    withNat (b.z * b.z % p384) fun zb =>
    withNat (a.x * zb % p384) fun u1 =>
    withNat (b.x * za % p384) fun u2 =>
    withNat (a.y * zb % p384 * b.z % p384) fun s1 =>
    withNat (b.y * za % p384 * a.z % p384) fun s2 =>
    if u1 = u2 then (if s1 = s2 then a.double k else k EcPt.inf)
    else
      withNat ((u2 + p384 - u1) % p384) fun h =>
      withNat ((s2 + p384 - s1) % p384) fun r =>
      withNat (h * h % p384) fun hh =>
      withNat (hh * h % p384) fun hhh =>
      withNat (u1 * hh % p384) fun v =>
      withNat ((r * r + 3 * p384 - hhh - 2 * v) % p384) fun x =>
      ecPt x ((r * (v + p384 - x) + p384 * p384 - s1 * hhh) % p384) (a.z * b.z % p384 * h % p384) k

/-- u × g + v × q over the bits below `i`, from the top, with g + q given. -/
def ecMul (u v : Nat) (g q gq : EcPt) : Nat → EcPt → EcPt
  | 0, acc => acc
  | i + 1, acc => acc.double fun d =>
    match u.testBit i, v.testBit i with
    | false, false => ecMul u v g q gq i d
    | true, false => d.add g fun r => ecMul u v g q gq i r
    | false, true => d.add q fun r => ecMul u v g q gq i r
    | true, true => d.add gq fun r => ecMul u v g q gq i r

/-- x to the power e modulo the order, over the bits of e below `i`, from the top. -/
def powN (x e : Nat) : Nat → Nat → Nat
  | 0, acc => acc
  | i + 1, acc => withNat (if e.testBit i then acc * acc % n384 * x % n384 else acc * acc % n384) fun a => powN x e i a

/-- The signature r, s on a message hash verifies under a public key, X then Y (PRESUMED, log 44). -/
def ecdsaOk (key hash sig : List Byte) : Bool :=
  let qx := natOfBytes (key.take 48)
  let qy := natOfBytes (key.drop 48)
  let r := natOfBytes (sig.take 48)
  let s := natOfBytes (sig.drop 48)
  let onCurve : Bool := decide (qx < p384) && decide (qy < p384) && (qy * qy + 3 * qx) % p384 == (qx * qx * qx + b384) % p384
  if r = 0 ∨ n384 ≤ r ∨ s = 0 ∨ n384 ≤ s ∨ !onCurve then false
  else
    withNat (powN s (n384 - 2) 384 1) fun w =>
    withNat (natOfBytes hash % n384 * w % n384) fun u =>
    withNat (r * w % n384) fun v =>
    let g : EcPt := ⟨gx384, gy384, 1⟩
    let q : EcPt := ⟨qx, qy, 1⟩
    g.add q fun gq =>
      let a := ecMul u v g q gq 384 EcPt.inf
      if a.z = 0 then false
      else
        let zz := a.z * a.z % p384
        r * zz % p384 == a.x || (decide (r + n384 < p384) && (r + n384) * zz % p384 == a.x)

end Sys2Proof.Machine
end

