-- ==== Sys2Proof/Config.lean ====
section
/-! DEFINITION. What the spec leaves open: constants without a body, applied to a counter of State or to
the operands they depend on. Nothing in Lean can prove a value of one; a statement holds for every value. -/

namespace Sys2Proof

/-- A free 32-bit value, applied to the counter `free` of the state (log 3): an undefined or unstated result. -/
opaque Config.freeWord : Nat → Word

/-- The bytes of an event payload after those whose place the spec states (log 8): spec/03 R108 gives the
payload 16 bytes, the event tables name what it carries, and most do not say at which byte. -/
opaque Config.payloadRest : Nat → List Nat → List Byte

/-- BASIC_OFFSET, EXPERT_OFFSET and CTL_OFFSET of a capability record (spec/03 R83; log 10): the spec gives the fields, not their
values. Arguments: CAP_ID, block (0 basic, 1 expert, 2 control words). -/
opaque Config.blockOffset : Nat → Nat → Nat
/-- Words between one capability record and the next in the order of R86 (spec/03 R84; log 10). -/
opaque Config.recordGap : Nat → Nat

/-- The lossless block coder of spec/06 R174 to R176, whose code the spec does not give (log 30): format, slot size,
effort, the picture's rows, block index. -/
opaque Config.blockCode : Nat → Nat → Nat → List (List Byte) → Nat → List Byte
/-- What a SLOT block's bytes decode to: format, slot bytes (log 30). -/
opaque Config.blockDecode : Nat → List Byte → Option (List Byte)
/-- Bytes of the padding pixels inside a block of a compressed store, which spec/06 R172 and R173 leave open (log 31). -/
opaque Config.padByte : Nat → Byte

/-- A computed filter coefficient (spec/08 R235), whose rule the spec does not give except at a ratio of 1 (log 32):
direction (0 horizontal, 1 vertical), the ratio in lowest terms as crop and destination, phase, tap. Where a phase's taps break R234
the unity phase stands for them. -/
opaque Config.coeff : Nat → Nat → Nat → Nat → Nat → Int
/-- The word written back for a pixel of an underrun column (spec/08 R255, spec/10 R325; log 33): head frame, x, y. -/
opaque Config.underrunWord : Nat → Nat → Nat → Nat

/-- What a coded stream says of itself (spec/11 R343, R352): profile (1 Main, 2 Main 10), tier (0 Main), level in tenths, coded size, the
colour matrix and primaries (0 BT.709, 1 BT.2020), full range, chroma_sample_loc_type, the encode rate as mHz over a divisor. -/
structure VidInfo where
  profile : Nat
  tier : Nat
  level : Nat
  width : Nat
  height : Nat
  matrix : Nat
  fullRange : Bool
  chromaLoc : Nat
  rateMhz : Nat
  div : Nat
  deriving DecidableEq, Repr

/-- A block of a CTU as the core codes it (spec/11 R346): its place in the picture in luma samples; the vector in quarter samples, or
intra prediction. -/
structure PredBlock where
  x : Nat
  y : Nat
  w : Nat
  h : Nat
  vec : Option (Int × Int)
  deriving DecidableEq, Repr

/-- A CTU as the core codes it: its QP, whether it is a skip CTU (R348), its blocks, each with the samples of the CTU's own window that
its prediction takes. -/
structure CtuCode where
  qp : Nat
  skip : Bool
  blocks : List (PredBlock × List Byte)
  deriving DecidableEq, Repr

/-- The H.265 bits of spec/11, whose syntax the spec leaves to the standard (log 34). A coded picture is its luma, Cb and Cr rows.
`nalUnit`: a unit that stands before the slice's CTUs in an access unit, with its start code: which (0 delimiter, 1 VPS, 2 SPS, 3 PPS,
4 slice header), IDR, what the stream says of itself, QP, POC. -/
opaque Config.nalUnit : Nat → Bool → VidInfo → Nat → Nat → List Byte
/-- The blocks the core's search wishes for a CTU: IDR, QP, the picture, the CTU's window (R345), the CTUs before it, its index
(DESIGN CHOICE, log 34). -/
opaque Config.search : Bool → Nat → List (List (List Nat)) → List Byte → List CtuCode → Nat → List PredBlock
/-- The vectors of a CTU's merge candidates, in order: the CTUs before it, its index (R348) (DESIGN CHOICE, log 34). -/
opaque Config.mergeCands : List CtuCode → Nat → List (Int × Int)
/-- The bytes of the last of a picture's CTUs so far: IDR, the stream's settings, the picture, the CTUs up to it (DESIGN CHOICE, log 34). -/
opaque Config.codeCtu : Bool → VidInfo → List (List (List Nat)) → List CtuCode → List Byte
/-- The bytes of the reference area that hold a picture's reconstruction: as `codeCtu`, with all its CTUs (DESIGN CHOICE, log 34). -/
opaque Config.recon : Bool → VidInfo → List (List (List Nat)) → List CtuCode → List Byte
/-- A sample of an encoder's crop that lies outside the buffer, which the spec does not rule out or state (log 35): x, y, component. -/
opaque Config.outsideSample : Nat → Nat → Nat → Nat

/-- Where a lane's PRBS generator starts, which spec/12 R385 does not give (log 77): port, lane, pattern. -/
opaque Config.prbsStart : Nat → Nat → Nat → Nat

/-- MEASURE_US of a kind of touch measurement before the endpoint has reported one (spec/14 R438; log 40): panel, kind. -/
opaque Config.firstMeasure : Nat → Nat → Nat

/-- The bytes of a PAD record after KIND and UNITS (spec/16 R499, R500, R503; log 41): its length. -/
opaque Config.padRecord : Nat → List Byte

/-- Whether every route of a FABRIC_IMAGE joins only what the plan records join, with no cycle of channel dependencies; its sections
are not described (spec/02 R51, R67; log 45). Arguments: the image, the plan records. -/
opaque Config.routesOk : List Byte → List Byte → Bool

/-- The two neighbours of a fabric sensor in the warden's fixed list, which spec/17 R543 does not give (log 46). -/
opaque Config.neighbours : Nat → Nat × Nat

end Sys2Proof
end

