-- ==== Sys2Proof/Machine/Check.lean ====
section
/-! DEFINITION. Check values (spec/13 R431, R432): the bit-serial CRC and the four presets. -/

namespace Sys2Proof.Machine

/-- A check value's parameters (R431). -/
structure CrcSpec where
  width : Nat
  poly : Nat
  init : Nat
  reflect : Bool × Bool
  xorOut : Nat
  deriving DecidableEq, Repr

/-- The low `w` bits of `v` in reverse order. -/
def reflectN : Nat → Nat → Nat
  | 0, _ => 0
  | w + 1, v => v % 2 * 2 ^ w + reflectN w (v / 2)

/-- One data bit through the register (R432). -/
def crcBit (c : CrcSpec) (crc : Nat) (b : Bool) : Nat :=
  let fb := crc.testBit (c.width - 1) != b
  let x := (crc * 2) % 2 ^ c.width
  if fb then x ^^^ c.poly else x

/-- Data bits through the register, in order. -/
def crcBits (c : CrcSpec) : List Bool → Nat → Nat
  | [], x => x
  | b :: l, x => withNat (crcBit c x b) (crcBits c l)

/-- One data byte, most significant bit first, reflected first where the preset says so (R432). -/
def crcByte (c : CrcSpec) (crc : Nat) (b : Byte) : Nat :=
  let v := if c.reflect.1 then reflectN 8 b.toNat else b.toNat
  crcBits c ([7, 6, 5, 4, 3, 2, 1, 0].map v.testBit) crc

/-- Data bytes through the register, in order. -/
def crcBytes (c : CrcSpec) : List Byte → Nat → Nat
  | [], x => x
  | b :: l, x => withNat (crcByte c x b) (crcBytes c l)

/-- The check value over some bytes (R432). -/
def crc (c : CrcSpec) (data : List Byte) : Nat :=
  let x := crcBytes c data (c.init % 2 ^ c.width)
  (if c.reflect.2 then reflectN c.width x else x) ^^^ (c.xorOut % 2 ^ c.width)

/-- LINK32 and TILE32 (R431). -/
def link32Spec : CrcSpec := ⟨32, 0x1EDC6F41, 0xFFFFFFFF, (true, true), 0xFFFFFFFF⟩
/-- JRNL64 (R431). -/
def jrnl64Spec : CrcSpec := ⟨64, 0x42F0E1EBA9EA3693, 0, (false, false), 0⟩
/-- TOUCH16 (R431). -/
def touch16Spec : CrcSpec := ⟨16, 0x1021, 0xFFFF, (false, false), 0⟩

def link32 (d : List Byte) : Nat := crc link32Spec d
def tile32 (d : List Byte) : Nat := crc link32Spec d
def jrnl64 (d : List Byte) : Nat := crc jrnl64Spec d
def touch16 (d : List Byte) : Nat := crc touch16Spec d

end Sys2Proof.Machine
end

