-- ==== Sys2Proof/Machine/Tab.lean ====
section
/-! DEFINITION. Sparse tables: a finite map as a list of (key, value) pairs in one canonical form, keys
strictly rising and no entry equal to the default of its key. Registers, memory and per-instance state are
held so. -/

namespace Sys2Proof.Machine

/-- A sparse table. -/
abbrev Tab (α : Type) := List (Nat × α)

/-- The value at key `k`; the default `d` where nothing is listed. -/
def tabGet {α : Type} (d : α) (t : Tab α) (k : Nat) : α :=
  match t.find? (fun e => e.1 == k) with
  | some e => e.2
  | none => d

/-- Insert `(k, v)` in key order into a table that does not list `k`. -/
def tabIns {α : Type} (k : Nat) (v : α) : Tab α → Tab α
  | [] => [(k, v)]
  | e :: t => if k < e.1 then (k, v) :: e :: t else e :: tabIns k v t

/-- Set key `k` to `v`; the default value `d` is not listed. -/
def tabSet {α : Type} [DecidableEq α] (d : α) (t : Tab α) (k : Nat) (v : α) : Tab α :=
  let t' := t.filter (fun e => e.1 != k)
  if v = d then t' else tabIns k v t'

/-- The keys of a table rise strictly. -/
def tabSorted {α : Type} (t : Tab α) : Bool := decide (t.Pairwise fun a b => a.1 < b.1)

/-- The canonical form: keys strictly rising, no entry equal to the default. -/
def tabWf {α : Type} [DecidableEq α] (d : α) (t : Tab α) : Bool :=
  tabSorted t && t.all fun e => decide (e.2 ≠ d)

/-- Lists of (key, value) pairs without an order, used where a few entries are held. -/
def assocGet {α : Type} (t : List (Nat × α)) (k : Nat) : Option α := (t.find? fun e => e.1 == k).map Prod.snd

def assocSet {α : Type} (t : List (Nat × α)) (k : Nat) (v : α) : List (Nat × α) :=
  (t.filter fun e => e.1 != k) ++ [(k, v)]

def assocDel {α : Type} (t : List (Nat × α)) (k : Nat) : List (Nat × α) := t.filter fun e => e.1 != k

end Sys2Proof.Machine
end

