-- ==== Sys2Proof/Machine/Pixels.lean ====
section
/-! DEFINITION. Pictures and frame stores as bytes (spec/06 R171 to R178, spec/08 the pixel formats): layout,
blocks, tiles, check arrays. Pure functions; Sources.lean moves the bytes. A picture is its rows of real pixels: pixel rows
in RGB formats, rows of 8×4 blocks in the YUV_420 formats. -/

namespace Sys2Proof.Machine

/-- Bytes per pixel of the RGB formats (spec/08, the format table). -/
def bppOf (fmt : Nat) : Nat :=
  match fmt with
  | 0 => 2 | 1 => 3 | 2 => 3 | 3 => 4 | 4 => 4 | 5 => 4 | _ => 0

def isYuv (fmt : Nat) : Bool := decide (6 ≤ fmt)

/-- Raw block size (R174). -/
def rawBlk (fmt : Nat) : Nat := if fmt = 6 then 48 else if fmt = 7 then 60 else 32 * bppOf fmt

/-- Slot size: STORE 1 is 2:1, STORE 2 is 4:3 (R174). -/
def slotOf (fmt store : Nat) : Nat := if store = 1 then rawBlk fmt / 2 else rawBlk fmt * 3 / 4

/-- Rounded up to a multiple of 64. -/
def up64 (n : Nat) : Nat := cdiv n 64 * 64

/-- Size, format and store form of a picture. -/
structure Geo where
  w : Nat
  h : Nat
  fmt : Nat
  store : Nat
  deriving DecidableEq, Repr

/-- Blocks across and down that hold real pixels, and across the padded width. -/
def Geo.bw (g : Geo) : Nat := cdiv g.w 8
def Geo.bh (g : Geo) : Nat := cdiv g.h 4
def Geo.pbw (g : Geo) : Nat := up64 g.w / 8

/-- Rows of a picture, their bytes, and their pitch in a raw store (R172; spec/08 for YUV_420). -/
def Geo.rows (g : Geo) : Nat := if isYuv g.fmt then g.bh else g.h
def Geo.rowLen (g : Geo) : Nat := if isYuv g.fmt then g.bw * rawBlk g.fmt else g.w * bppOf g.fmt
def Geo.pitch (g : Geo) : Nat := if isYuv g.fmt then g.pbw * rawBlk g.fmt else up64 g.w * bppOf g.fmt

/-- Section sizes and offsets (R172). -/
def Geo.pixLen (g : Geo) : Nat := up64 g.w * up64 g.h / 32 * rawBlk g.fmt
def Geo.blocks (g : Geo) : Nat := g.pbw * (up64 g.h / 4)
def Geo.metaLen (g : Geo) : Nat := if g.store = 0 then 0 else up64 (cdiv (g.blocks * 2) 8)
def Geo.tw (g : Geo) : Nat := cdiv g.w 64
def Geo.th (g : Geo) : Nat := cdiv g.h 64
def Geo.tiles (g : Geo) : Nat := g.tw * g.th
def Geo.checkOff (g : Geo) : Nat := g.pixLen + g.metaLen
def Geo.trailerOff (g : Geo) : Nat := g.checkOff + up64 (4 * g.tiles)
def Geo.footprint (g : Geo) : Nat := g.trailerOff + 64

/-- The raw bytes of block (bx, by) of a picture; padding pixels inside it are open (log 31). -/
def Geo.block (g : Geo) (pic : List (List Byte)) (bx bY : Nat) : List Byte :=
  if isYuv g.fmt then slice (pic.getD bY []) (bx * rawBlk g.fmt) (rawBlk g.fmt)
  else
    let n := 8 * bppOf g.fmt
    (List.range 4).flatMap fun r =>
      let row := slice (pic.getD (bY * 4 + r) []) (bx * n) n
      row ++ (List.range (n - row.length)).map Config.padByte

/-- A 10-bit sample of a packed block (spec/08, format 7). -/
def sample10 (blk : List Byte) (i : Nat) : Nat := leNat (slice blk (10 * i / 8) 3) / 2 ^ (10 * i % 8) % 1024

/-- Sample i of a YUV_420 block as stored: 32 luma, 8 Cb, 8 Cr (spec/08, the format table). -/
def blkSample (fmt : Nat) (blk : List Byte) (i : Nat) : Nat := if fmt = 6 then byteAt blk i else sample10 blk i

/-- Samples as a raw block holds them: a byte each, or 10 bits each from bit 0 of byte 0 upward. -/
def packSamples (fmt : Nat) (l : List Nat) : List Byte :=
  if fmt = 6 then l.map (BitVec.ofNat 8) else le (cdiv (10 * l.length) 8) (l.foldr (fun v n => v % 1024 + 1024 * n) 0)

/-- Luma sample (x, y) of a YUV_420 picture. -/
def Geo.luma (g : Geo) (pic : List (List Byte)) (x y : Nat) : Nat :=
  blkSample g.fmt (slice (pic.getD (y / 4) []) (x / 8 * rawBlk g.fmt) (rawBlk g.fmt)) (y % 4 * 8 + x % 8)

/-- Chroma sample (x, y) of a YUV_420 picture: plane 0 Cb, 1 Cr. -/
def Geo.chroma (g : Geo) (pic : List (List Byte)) (plane x y : Nat) : Nat :=
  blkSample g.fmt (slice (pic.getD (y / 2) []) (x / 4 * rawBlk g.fmt) (rawBlk g.fmt)) (32 + 8 * plane + y % 2 * 4 + x % 4)

/-- The numbers n·t to n·t + n − 1 below a limit. -/
def spanOf (n lim t : Nat) : List Nat := (List.range (min n (lim - n * t))).map fun i => n * t + i

/-- The bytes of tile (tx, ty) of a YUV_420 picture: its real luma samples row by row, then its Cb, then its Cr samples (DEDUCED, log 25). -/
def Geo.yuvTile (g : Geo) (pic : List (List Byte)) (tx ty : Nat) : List Byte :=
  let luma := (spanOf 64 g.h ty).flatMap fun y => (spanOf 64 g.w tx).map fun x => g.luma pic x y
  let chroma (k : Nat) : List Nat :=
    (spanOf 32 (cdiv g.h 2) ty).flatMap fun y => (spanOf 32 (cdiv g.w 2) tx).map fun x => g.chroma pic k x y
  packSamples g.fmt (luma ++ chroma 0 ++ chroma 1)

/-- The part of a pixel row inside tile column `tx` (RGB formats). -/
def Geo.tileRow (g : Geo) (row : List Byte) (tx : Nat) : List Byte := slice row (tx * (64 * bppOf g.fmt)) (64 * bppOf g.fmt)

/-- The bytes of tile (tx, ty): its real pixels row by row (R173). -/
def Geo.tile (g : Geo) (pic : List (List Byte)) (tx ty : Nat) : List Byte :=
  if isYuv g.fmt then g.yuvTile pic tx ty
  else ((pic.drop (ty * 64)).take 64).flatMap fun row => g.tileRow row tx

/-- The check array: TILE32 of each tile in raster order (R173). -/
def Geo.checks (g : Geo) (pic : List (List Byte)) : List Nat :=
  (List.range g.tiles).map fun t => tile32 (g.tile pic (t % g.tw) (t / g.tw))

/-- The content check of a check array (R173). -/
def contentCheck (checks : List Nat) : Nat := tile32 (checks.flatMap fun c => le 4 c)

/-- The first pixel's raw bytes (R175): of a YUV_420 block its Y, Cb and Cr samples as a raw block packs them (DEDUCED, log 25). -/
def firstPixel (fmt : Nat) (blk : List Byte) : List Byte :=
  if isYuv fmt then packSamples fmt [blkSample fmt blk 0, blkSample fmt blk 32, blkSample fmt blk 40] else blk.take (bppOf fmt)

/-- The pixels a SOLID block stands for. -/
def solidPixels (fmt : Nat) (bytes : List Byte) : List Byte :=
  if isYuv fmt then
    packSamples fmt (List.replicate 32 (blkSample fmt bytes 0) ++ List.replicate 8 (blkSample fmt bytes 1) ++
      List.replicate 8 (blkSample fmt bytes 2))
  else (List.range 32).flatMap fun _ => bytes.take (bppOf fmt)

/-- Every pixel of a block is equal (R175): the block is what its first pixel stands for. -/
def solidBlock (fmt : Nat) (blk : List Byte) : Bool := solidPixels fmt (firstPixel fmt blk) == blk

/-- How a block is stored: 0 SLOT, 1 RAW, 2 SOLID with its bytes (R175). A block is coded only where its code gives
back exactly its pixels, so the coding is lossless (R176) (DESIGN CHOICE, log 30). -/
def codeBlock (g : Geo) (effort : Nat) (pic : List (List Byte)) (bx bY : Nat) : Nat × List Byte :=
  let blk := g.block pic bx bY
  if solidBlock g.fmt blk then (2, firstPixel g.fmt blk)
  else
    let c := Config.blockCode g.fmt (slotOf g.fmt g.store) effort pic (bY * g.pbw + bx)
    if c.length = slotOf g.fmt g.store ∧ Config.blockDecode g.fmt c = some blk then (0, c) else (1, blk)

/-- The pixels of a stored block, from its metadata code and the bytes a reader reads; `none` is unsound (R175) (DESIGN CHOICE, log 30). -/
def decodeBlock (fmt kind : Nat) (bytes : List Byte) : Option (List Byte) :=
  match kind with
  | 0 => match Config.blockDecode fmt bytes with
    | some b => if b.length = rawBlk fmt then some b else none
    | none => none
  | 1 => some bytes
  | 2 => some (solidPixels fmt bytes)
  | _ => none

/-- Where a reader starts to read a stored block at address a, and how many bytes (R175): of a SOLID block the 64-byte word in
which its space starts. -/
def readSpan (fmt store kind a : Nat) : Nat × Nat :=
  match kind with
  | 0 => (a, slotOf fmt store)
  | 1 => (a, rawBlk fmt)
  | _ => (a / 64 * 64, 64)

/-- Every block of a picture as stored, with its place: (block index, kind, bytes). -/
def Geo.coded (g : Geo) (effort : Nat) (pic : List (List Byte)) : List (Nat × Nat × List Byte) :=
  (List.range g.bh).flatMap fun y => (List.range g.bw).map fun x => (y * g.pbw + x, codeBlock g effort pic x y)

/-- The metadata plane (R172): two bits a block; the codes of blocks that hold padding alone are open, but never 0b11 (R175; log 31). -/
def Geo.metaPlane (g : Geo) (coded : List (Nat × Nat × List Byte)) : List Byte :=
  (List.range g.metaLen).map fun i =>
    BitVec.ofNat 8 (((List.range 4).map fun q =>
      (match assocGet (coded.map fun c => (c.1, c.2.1)) (4 * i + q) with
       | some k => k
       | none => if 4 * i + q < g.blocks then (Config.padByte (4 * i + q)).toNat % 3 else 0) * 4 ^ q).sum)

/-- The trailer (R172). -/
def trailer (slotN solidN rawN check effort : Nat) : List Byte :=
  le 4 slotN ++ le 4 solidN ++ le 4 rawN ++ le 4 check ++ le 1 effort ++ List.replicate 47 0

/-- A picture from its blocks in raster order of real blocks. -/
def Geo.ofBlocks (g : Geo) (blks : List (List Byte)) : List (List Byte) :=
  if isYuv g.fmt then (List.range g.bh).map fun y => ((blks.drop (y * g.bw)).take g.bw).flatten
  else
    let n := 8 * bppOf g.fmt
    (List.range g.h).map fun y =>
      (((blks.drop (y / 4 * g.bw)).take g.bw).flatMap fun b => slice b (y % 4 * n) n).take g.rowLen

/-- The pixel of an RGB format from its 8-bit components, alpha opaque (R194, R255). -/
def pixelOf (fmt r g b : Nat) : List Byte :=
  match fmt with
  | 0 => le 2 ((r / 8) * 2048 + (g / 4) * 32 + b / 8)
  | 1 => [BitVec.ofNat 8 r, BitVec.ofNat 8 g, BitVec.ofNat 8 b]
  | 2 => [BitVec.ofNat 8 b, BitVec.ofNat 8 g, BitVec.ofNat 8 r]
  | 3 => le 4 (255 * 2 ^ 24 + r * 65536 + g * 256 + b)
  | 4 => le 4 (255 * 2 ^ 24 + b * 65536 + g * 256 + r)
  | _ => le 4 (3 * 2 ^ 30 + (r * 4 + r / 64) * 2 ^ 20 + (g * 4 + g / 64) * 1024 + (b * 4 + b / 64))

/-- The 8-bit colour of pixel (x, y) of a test pattern at regeneration n (R194). -/
def testColour (pattern colour w n x y : Nat) : Nat × Nat × Nat :=
  let own := (colour / 65536 % 256, colour / 256 % 256, colour % 256)
  let bars := [(255, 255, 255), (255, 255, 0), (0, 255, 255), (0, 255, 0), (255, 0, 255), (255, 0, 0), (0, 0, 255), (0, 0, 0)]
  match pattern with
  | 0 => own
  | 1 => bars.getD (8 * x / w) (0, 0, 0)
  | 2 => let g := if w = 1 then 0 else 255 * x / (w - 1); (g, g, g)
  | 3 => if (x / 64 + y / 64) % 2 = 0 then (0, 0, 0) else own
  | _ => if (x + 16 * n * w - 16 * n) % w < 16 then (255, 255, 255) else bars.getD (8 * x / w) (0, 0, 0)

/-- The picture of a test pattern (R194). -/
def testPicture (g : Geo) (pattern colour n : Nat) : List (List Byte) :=
  (List.range g.h).map fun y => (List.range g.w).flatMap fun x =>
    let c := testColour pattern colour g.w n x y
    pixelOf g.fmt c.1 c.2.1 c.2.2

end Sys2Proof.Machine
end

