-- ==== Sys2Proof/Machine/LaneCode.lean ====
section
/-! DEFINITION. Line coding of the spoke lanes (spec/12 R362 to R369, R385): striping, scrambler, stuffing,
markers and their code words, what a receiver makes of line bits, training blocks, test patterns. -/

namespace Sys2Proof.Machine

/-- Byte k of the stream goes on logical lane k mod n (R362 step 1). -/
def stripe (n : Nat) (l : Nat) (bs : List Byte) : List Byte :=
  (List.range bs.length).filterMap fun k => if k % n = l then bs[k]? else none

/-- Bytes put together again from the lanes, the first of them that of logical lane `k0`. -/
def unstripe (k0 : Nat) (lanes : List (List Byte)) : List Byte :=
  let n := lanes.length
  (List.range (lanes.map List.length).sum).map fun j => (lanes.getD ((k0 + j) % n) []).getD (j / n) 0

/-- Scrambler seeds, by physical lane L0 to L3, then BK (R363). -/
def laneSeed (lane : Nat) : Nat :=
  match lane with
  | 0 => 0x7FFFFFFF | 1 => 0x55555555 | 2 => 0x2AAAAAAA | 3 => 0x33333333 | _ => 0x0F0F0F0F

/-- The additive scrambler of R363 over payload bits; it is its own inverse. -/
def scramble : Nat → List Bool → List Bool
  | _, [] => []
  | s, d :: ds =>
    let nb := s.testBit 30 != s.testBit 27
    (d != nb) :: scramble ((s * 2 + b2n nb) % 2 ^ 31) ds

/-- The scrambler's state after `n` payload bits. -/
def scrAfter : Nat → Nat → Nat
  | s, 0 => s
  | s, n + 1 => scrAfter ((s * 2 + b2n (s.testBit 30 != s.testBit 27)) % 2 ^ 31) n

/-- Bit stuffing (R364): `run` identical bits `last` stand on the line. -/
def stuff : Bool → Nat → List Bool → List Bool
  | _, _, [] => []
  | last, run, d :: ds =>
    if d == last then
      if run + 1 = 15 then d :: (!d) :: stuff (!d) 1 ds else d :: stuff d (run + 1) ds
    else d :: stuff d 1 ds

/-- Removal of stuff bits (R364), with the last bit and its run at the end; `none` at a 16th identical bit, a code error. -/
def unstuff : Bool → Nat → List Bool → Option (List Bool × Bool × Nat)
  | last, run, [] => some ([], last, run)
  | last, run, d :: ds =>
    if run = 15 then (if d == last then none else unstuff d 1 ds)
    else (unstuff d (if d == last then run + 1 else 1) ds).map fun r => (d :: r.1, r.2)

/-- The last bit on the line and the run it ends, after more bits. -/
def runAfter : Bool → Nat → List Bool → Bool × Nat
  | last, run, [] => (last, run)
  | last, run, d :: ds => runAfter d (if d == last then run + 1 else 1) ds

/-- Positions of the data bits d0 to d6 of a marker's code word (R366). -/
def dataPos : List Nat := [3, 5, 6, 7, 9, 10, 11]

/-- The 11-bit code word of a marker code, in position order (R366). -/
def codeWord (code : Nat) : List Bool :=
  let data (p : Nat) : Bool := match dataPos.findIdx? fun q => q == p with
    | some i => code.testBit i
    | none => false
  (List.range 11).map fun i =>
    let p := i + 1
    if p = 1 ∨ p = 2 ∨ p = 4 ∨ p = 8 then
      (dataPos.filter fun q => (q &&& p) != 0).foldl (fun x q => x != data q) false
    else data p

/-- The syndrome of a received code word (R366). -/
def syndrome (w : List Bool) : Nat :=
  [1, 2, 4, 8].foldl (fun s p =>
    s + (if ((List.range 11).filter fun i => ((i + 1) &&& p) != 0).foldl (fun x i => x != w.getD i false) false
         then p else 0)) 0

/-- The code a received word stands for, with whether a bit was corrected; `none` for a code error (R366). -/
def decodeWord (w : List Bool) : Option (Nat × Bool) :=
  let s := syndrome w
  if 11 < s then none
  else
    let w := if s = 0 then w else w.set (s - 1) (!(w.getD (s - 1) false))
    some ((List.range 7).foldl (fun c i => c + b2n (w.getD ((dataPos.getD i 1) - 1) false) * 2 ^ i) 0, s != 0)

/-- A marker on the line after bit `last` (R365): guard bit, 20 ones, a zero, the code word. -/
def marker (last : Bool) (code : Nat) : List Bool :=
  (if last then [false] else []) ++ List.replicate 20 true ++ [false] ++ codeWord code

/-- A receiver recognises a marker only as exactly 20 ones between zeros (R365). -/
def isMarkerHead (bits : List Bool) : Bool :=
  bits.take 22 == [false] ++ List.replicate 20 true ++ [false]

/-- Bytes of a bit string, bit 0 of each byte first. -/
def packBits : Nat → List Bool → List Byte
  | 0, _ => []
  | n + 1, bs =>
    BitVec.ofNat 8 ((List.range 8).foldl (fun v i => v + b2n (bs.getD i false) * 2 ^ i) 0) :: packBits n (bs.drop 8)

/-- One marker and the payload that follows it, as a transmitter of physical lane `lane` sends them after bit `last` (R362 steps 2 to 5);
the count of R364 starts at the zero that follows the marker's ones. -/
def laneBits (lane : Nat) (last : Bool) (code : Nat) (payload : List Byte) : List Bool :=
  let r := runAfter false 1 (codeWord code)
  marker last code ++ stuff r.1 r.2 (scramble (laneSeed lane) (bitsOf payload))

/-! ### Markers over the lanes of a port (R362, R367, spec/13 R393, R394) -/

/-- The payload bytes of a lane that one marker may cover, and the line bits of offset a receiver tolerates between lanes (R367). -/
def markSpan : Nat := 4096

/-- Where markers stand in a packet's bytes on a port of `n` lanes, as (byte, code): SYNC before the packet, CONT inside it after every
`markSpan` bytes of each lane (R367, spec/13 R394) (DESIGN CHOICE, log 74). -/
def packetMarks (n len : Nat) : List (Nat × Nat) :=
  (0, 0x20) :: ((List.range (len / (markSpan * n))).map fun i => ((i + 1) * (markSpan * n), 0x21)).filter fun m => decide (m.1 < len)

/-- The bytes that follow each marker, with its code. -/
def markPieces (bs : List Byte) : List (Nat × Nat) → List (Nat × List Byte)
  | [] => []
  | [(o, c)] => [(c, bs.drop o)]
  | (o, c) :: (o', c') :: ms => (c, slice bs o (o' - o)) :: markPieces bs ((o', c') :: ms)

/-- The line bits of logical lane `l` of `n`, on physical lane `lane`, after line bit `last`: every marker stands on every lane, after the
same bytes of the stream (R362, R367). -/
def laneLine (n l lane : Nat) : Bool → List (Nat × List Byte) → List Bool
  | _, [] => []
  | last, (code, d) :: r =>
    let bits := laneBits lane last code (stripe n l d)
    bits ++ laneLine n l lane (bits.getLastD last) r

/-- The line bits of each lane of a lane map for a packet (R362): `lasts` the last bits on the lines before it. -/
def portLines (map : List Nat) (lasts : List Bool) (bs : List Byte) : List (List Bool) :=
  let n := map.length
  (List.range n).map fun l => laneLine n l (map.getD l 0) (lasts.getD l false) (markPieces bs (packetMarks n bs.length))

/-- The next marker among a lane's line bits: where it stands, and the bits after its zero (R365). -/
def findMarker : Nat → List Bool → Option (Nat × List Bool)
  | _, [] => none
  | i, b :: bs => if isMarkerHead (b :: bs) then some (i, (b :: bs).drop 22) else findMarker (i + 1) bs

/-- The line bits up to the next marker. -/
def beforeMarker (bits : List Bool) : List Bool :=
  match findMarker 0 bits with
  | some (i, _) => bits.take (i + 1)
  | none => bits

/-! ### What a receiver makes of line bits (R362 to R368) -/

/-- Where the receiver of a lane stands: its scrambler, the last line bit and the run it ends. -/
structure LaneRx where
  scr : Nat
  last : Bool
  run : Nat
  deriving DecidableEq, Repr

/-- The bytes of line bits without a marker, and where the receiver stands after them; `none` at a code error, from which the rest is
discarded (R365). A guard bit at the end makes no byte. -/
def laneData (x : LaneRx) (bits : List Bool) : Option (List Byte) × LaneRx :=
  match unstuff x.last x.run bits with
  | none => (none, x)
  | some (ds, last, run) => (some (packBits (ds.length / 8) (scramble x.scr ds)), ⟨scrAfter x.scr ds.length, last, run⟩)

/-- A marker as the receiver of one lane takes it: the line bit at which it stands, its code where the code word can be read, whether a
bit was corrected, and the bytes up to the next marker where no code error stands among them. -/
structure LaneMark where
  at_ : Nat
  code : Option Nat
  corrected : Bool
  bytes : Option (List Byte)
  deriving DecidableEq, Repr

/-- The markers of a lane, from the one at `at_` whose zero has just passed. -/
def laneMarks (lane : Nat) : Nat → Nat → List Bool → List LaneMark × LaneRx
  | 0, _, _ => ([], ⟨laneSeed lane, false, 1⟩)
  | fuel + 1, i, bits =>
    let word := bits.take 11
    let rest := bits.drop 10
    let r := runAfter false 1 word
    let d := laneData ⟨laneSeed lane, r.1, r.2⟩ ((beforeMarker rest).drop 1)
    let code := if word.length = 11 then decodeWord word else none
    let m : LaneMark := ⟨i, code.map Prod.fst, (code.map Prod.snd).getD false, d.1⟩
    match findMarker (i + 32) rest with
    | none => ([m], d.2)
    | some (j, more) =>
      let q := laneMarks lane fuel j more
      (m :: q.1, q.2)

/-- What the receiver of a physical lane takes from line bits: the bytes before the first marker, the markers, where it stands after. -/
def laneRecv (lane : Nat) (x : LaneRx) (bits : List Bool) : Option (List Byte) × List LaneMark × LaneRx :=
  let all := x.last :: bits
  let d := laneData x ((beforeMarker all).drop 1)
  match findMarker 0 all with
  | none => (d.1, [], d.2)
  | some (i, more) =>
    let q := laneMarks lane bits.length i more
    (d.1, q.1, q.2)

/-- Reserved marker codes: 0x00, 0x07 to 0x1F of the lane layer (R368) and 0x23 to 0x7F of the link layer (spec/13 R393). -/
def reservedCode (c : Nat) : Bool := c == 0 || (7 ≤ c && c ≤ 0x1F) || 0x23 ≤ c

/-- A receiver deskews on markers: the line-bit instants at which one marker arrives on the lanes lie within 4,096 line bits (R367). -/
def deskews (at_ : List Nat) : Bool := at_.all fun a => at_.all fun b => decide (a ≤ b + markSpan)

/-- What a port's receiver makes of its lanes: the pieces of the byte stream, each with the marker before it, none for the first, and its
bytes unless a code error stands there; the code errors of each logical lane; markers corrected; logical lane of the next byte; the lanes. -/
structure PortRx where
  pieces : List (Option Nat × Option (List Byte))
  errs : List Nat
  corrected : Nat
  next : Nat
  lanes : List LaneRx
  deriving DecidableEq, Repr

/-- Line bits that arrive on the lanes of a map, each lane `skew` line bits late (R362, R365 to R368). A marker that does not stand on every
lane with one code, or lies beyond the skew of R367, is a code error of the first lane (DESIGN CHOICE, log 77). -/
def portRecv (map skew : List Nat) (next : Nat) (from_ : List LaneRx) (lines : List (List Bool)) : PortRx :=
  let n := map.length
  let ls := (List.range n).map fun l => laneRecv (map.getD l 0) (from_.getD l ⟨0, false, 1⟩) (lines.getD l [])
  let join (k : Nat) (ds : List (Option (List Byte))) : Option (List Byte) :=
    if ds.any Option.isNone then none else some (unstripe k (ds.filterMap id))
  let first : Option Nat × Option (List Byte) := (none, join next (ls.map fun q => q.1))
  let m := (ls.map fun q => q.2.1.length).foldl max 0
  let sets := (List.range m).map fun i => ls.map fun q => q.2.1[i]?
  let even (ms : List (Option LaneMark)) : Bool :=
    ms.all fun x => x.isSome && x.map LaneMark.code == (ms.head?.getD none).map LaneMark.code
  let near (ms : List (Option LaneMark)) : Bool :=
    deskews ((List.range n).map fun l => (((ms.getD l none).map LaneMark.at_).getD 0) + skew.getD l 0)
  let pieces := first :: sets.map fun ms =>
    let marks := ms.filterMap id
    let code := (marks.head?.bind LaneMark.code)
    if !even ms || !near ms || code.isNone then (some 0x20, none)
    else (code, join 0 (marks.map LaneMark.bytes))
  let errs := (List.range n).map fun l =>
    let q := ls.getD l (none, [], ⟨0, false, 1⟩)
    b2n q.1.isNone + (q.2.1.map fun x => b2n (x.code.isNone || x.bytes.isNone)).sum +
      (if l = 0 then (sets.map fun ms => b2n ((!even ms || !near ms) && !(ms.any fun x => (x.map fun y => y.code.isNone).getD false)) +
        b2n (even ms && ((ms.head?.getD none).bind LaneMark.code).any reservedCode)).sum else 0)
  let last := (pieces.getLast?.getD (none, none)).2.map List.length
  { pieces := pieces, errs := errs, corrected := ((ls.flatMap fun q => q.2.1).filter LaneMark.corrected).length,
    next := if m = 0 then (next + last.getD 0) % max 1 n else last.getD 0 % max 1 n, lanes := ls.map fun q => q.2.2 }

/-- What the link layer takes from the pieces of the stream (spec/13 R393, R394): the bytes of the packet, with whether SYNC stands
directly before it, and whether everything up to the next SYNC is discarded: after a code error, or a CONT with no packet in progress. -/
def linkPieces (pieces : List (Option Nat × Option (List Byte))) : Option (Bool × List Byte) × Bool :=
  pieces.foldl (fun acc q =>
    match q.1, q.2 with
    | _, none => (none, true)
    | none, some d => if d.isEmpty then acc else (some (false, d), acc.2)
    | some 0x20, some d => (if d.isEmpty then none else some (true, d), false)
    | some 0x21, some d =>
      match acc.1 with
      | some (y, a) => (some (y, a ++ d), acc.2)
      | none => (none, true)
    | some _, some _ => acc) (none, false)

/-- The first marker of a code among a lane's line bits, with the training block that follows it (R368, R369): nothing of the kind, one
that cannot be read (a code error), or the block; and whether its code word was corrected. -/
inductive MarkRx where
  | nothing
  | bad (corrected : Bool)
  | block (raw : List Byte) (corrected : Bool)
  deriving DecidableEq, Repr

def markRx (code lane : Nat) (bits : List Bool) : MarkRx :=
  match (laneRecv lane ⟨laneSeed lane, false, 1⟩ bits).2.1 with
  | [] => .nothing
  | m :: _ =>
    match m.code, m.bytes with
    | some c, some d => if c = code then .block (d.take 12) m.corrected else if reservedCode c then .bad m.corrected else .nothing
    | some c, none => if c = code then .bad m.corrected else .nothing
    | none, _ => .bad false

/-- The fields of a training block (R369), when its LINK32 is good. -/
structure TrainBlock where
  phase : Nat
  kind : Nat
  rates : Nat
  laneStatus : Nat
  rate : Nat
  map : Nat
  count : Nat
  eqReq : Nat
  deriving DecidableEq, Repr

def trainBlock (raw : List Byte) : Option TrainBlock :=
  if raw.length = 12 ∧ leAt raw 8 4 = link32 (raw.take 8) then
    some { phase := byteAt raw 0, kind := byteAt raw 1, rates := byteAt raw 2, laneStatus := byteAt raw 3,
           rate := byteAt raw 4, map := byteAt raw 5, count := byteAt raw 6, eqReq := byteAt raw 7 }
  else none

/-- The bytes of a training block (R369). -/
def TrainBlock.bytes (t : TrainBlock) : List Byte :=
  let d := le 1 t.phase ++ le 1 t.kind ++ le 1 t.rates ++ le 1 t.laneStatus ++ le 1 t.rate ++ le 1 t.map ++
    le 1 t.count ++ le 1 t.eqReq
  d ++ le 4 (link32 d)

/-- A test pattern (R385): length, feedback tap, whether it is sent inverted. -/
def prbs (pattern : Nat) : Nat × Nat × Bool :=
  match pattern with
  | 0 => (7, 6, false) | 1 => (15, 14, true) | 2 => (23, 18, true) | _ => (31, 28, true)

/-- `n` bits of a PRBS generator from a state (R385). -/
def prbsBits (pattern : Nat) : Nat → Nat → List Bool
  | 0, _ => []
  | n + 1, st =>
    let (len, tap, inv) := prbs pattern
    let b := st.testBit (len - 1) != st.testBit (tap - 1)
    (b != inv) :: prbsBits pattern n ((st * 2 + b2n b) % 2 ^ len)

/-- A PRBS checker (R386): it seeds itself from the first bits and counts each later bit in error; `none` before it is seeded. -/
def prbsCheck (pattern : Nat) (bits : List Bool) : Option Nat :=
  let (len, _, inv) := prbs pattern
  if bits.length < len then none
  else
    let seed := (bits.take len).foldl (fun st b => st * 2 + b2n (b != inv)) 0
    let due := prbsBits pattern (bits.length - len) seed
    some (((bits.drop len).zip due).filter fun q => q.1 != q.2).length

/-- The lane map of a set of healthy lanes (R371): COUNT and the physical lanes of logical lanes 0 upward. -/
def formMap (healthy : Nat) : Nat × List Nat :=
  let ls := (List.range 4).filter fun l => healthy.testBit l
  let n := if ls.length = 4 then 4 else if 2 ≤ ls.length then 2 else ls.length
  (n, ls.take n)

/-- MAP as training block byte 5 codes it (R369). -/
def mapByte (ls : List Nat) : Nat := (List.range ls.length).foldl (fun v i => v + ls.getD i 0 * 2 ^ (2 * i)) 0

end Sys2Proof.Machine
end

