-- ==== Sys2Proof/Machine/Reg.lean ====
section
/-! DEFINITION. The registers of the manual by name: one constructor per register of every register
table of spec/02 to spec/18. `BReg` names those of DEVICE_CORE, RINGS, FENCES, ACCESS, MEMORY and JOURNAL and the
function control words; `FReg` names those of every other function. A register of an indexed group
(REG_BASE_LO of region r, LAYER_SRC of layer l) is one name used with a sub-index. -/

namespace Sys2Proof.Machine

/-- Access codes of spec/00 (the table under R3); `ringPtr` is the "RW or RO" of RING_PROD and
RING_CONS, which depends on the ring's KIND. -/
inductive Acc where
  | ro | rw | wo | w1c | rc | ringPtr
  deriving DecidableEq, Repr

/-- Registers of the bus side. `fnCtl` is FN_CTL (R90), used with the CAP_ID as instance and the function instance as sub-index. -/
inductive BReg where
  | fnCtl
  -- DEVICE_CORE (03_host_ports_rings.md)
  | coreId | corePort | coreBarrier | coreBarrierDone | coreMwinBaseLo | coreMwinBaseHi | coreEvtRing
  | coreEvtSeverity | coreEvtLost | coreBadAccess | corePtmStatus | corePtmHostLo | corePtmHostHi
  | corePtmDev | corePtmLinkDelay | coreXPtmPeriod | coreXIgnored
  -- RINGS (03_host_ports_rings.md)
  | ringCtl | ringBaseLo | ringBaseHi | ringProd | ringCons | ringStatus | ringHoldoff | ringWaitLimit
  | ringXBatch | ringXIgnored
  -- FENCES (03_host_ports_rings.md)
  | fenceValueLo | fenceValueHi | fenceSignalLo | fenceSignalHi
  -- ACCESS (04_access_checking.md)
  | accMaster | accStatus | accSync | accSyncDone | accReadRefused | accWriteRefused | accEnabled
  | regBaseLo | regBaseHi | regSizeLo | regSizeHi | regCtl | accXNoticeWindow | accXIgnored
  -- MEMORY (05_memory_stacks.md)
  | memState | memTemp | memStatus | memCeCount | memUeCount | memUeAddrLo | memUeAddrHi | memUnmapped
  | memPcFailedLo | memPcFailedHi | memBytesS0Lo | memBytesS0Hi | memBytesS1Lo | memBytesS1Hi
  | memScrubPass | memPartBaseLo | memPartBaseHi | memPartSizeLo | memPartSizeHi | memPartCtl
  | memXScrubHours | memXTrackMs | memXWeakRow | memXIgnored
  -- JOURNAL (16_journal_tandem.md)
  | jrnCtl | jrnStatus | jrnBaseLo | jrnBaseHi | jrnSize | jrnSeq | jrnHead | jrnCkptSeq | jrnCkptOfs
  | jrnCkptLen | jrnRate | jrnGaps | frBaseLo | frBaseHi | frSlotSize | frStatus | frSlotTrigger
  | frSlotCause | frSlotLen | frSlotSeq | rerunState | rerunEqual | rerunDiffRows | rerunNc | jrnXCkpt
  | jrnXFr | jrnXIgnored
  deriving DecidableEq, Repr

/-- Registers of the other functions. -/
inductive FReg where
  -- STRUCTURE (02_structure_bitstream.md)
  | structState | structSlot | structSeq | structFloor | structHash | structCmd | structStatus
  | structSrcLo | structSrcHi | structSrcLen | structZone | structKeys | structFail | structLoadMs
  | structXConfirm | structXDrain | structXIgnored
  -- DEBUG (04_access_checking.md)
  | debugState | debugCmd | debugStatus | debugTokenLo | debugTokenHi | debugSerialLo | debugSerialHi
  | debugNonce | debugRefused
  -- SOURCES (06_sources_frame_stores.md)
  | srcCfg | srcFormat | srcSize | srcLimit | srcState | srcNewestTime | srcPool | srcCulletCount
  | srcLostCount | srcPoolDrop | srcSameRun | srcTest | srcTestColour | srcBufAddrLo | srcBufAddrHi
  | srcBufState | srcBufTag | srcBufTime | srcBufAlive | srcBufCheck | srcXFillMs | srcXIgnored
  -- COMPRESS (06_sources_frame_stores.md)
  | cmpStatus | cmpSlotBlocks | cmpSolidBlocks | cmpRawBlocks | cmpNoGain | cmpBadBlocks | cmpXEffort
  | cmpXNoGainPct | cmpXIgnored
  -- DECODE (07_coded_video_input.md)
  | decCfg | decRing | decStatus | decLumaKps | decRate | decPictures | decTainted | decSubstituted
  | decHeld | decSkipped | decDiscarded | decWait | decLastPicture | decMarks | decFlags
  | decXConcealMax | decXSkip | decXIgnored
  -- COMPOSE (08_composition.md)
  | composeCfg | composeStatus | composeBg | composeShedMask | composeShedEvents | composeNotReady
  | composeRecomposed | composeMarginMin | composeWb | composeWbPos | cursorCtl | cursorPos
  | cursorSize | layerSrc | layerAlpha | layerCropPos | layerCropSize | layerDstPos | layerDstSize
  | layerTag | layerState | composeXShed | composeXRecompose | composeXM0 | composeXM1 | composeXM2
  | composeXM3 | composeXM4 | composeXOfs0 | composeXOfs1 | composeXIgnored
  -- FRESH (09_freshness_witness.md)
  | freshCfg | freshStaleColour | freshDegradedColour | freshStatus | freshValidUntil
  | freshStaleTiles | freshDegradedTiles | freshDoubtTiles | freshDoubtCount | freshTileIndex
  | freshTileLo | freshTileHi | witStatus | witMismatchCount | witLastTile | witFramesChecked
  | freshLayerLimit | freshLayerPolicy | freshLayerState | freshLayerExpiry | freshXNoLiveHold
  | freshXFlagFill | freshXIgnored
  -- HEADS (10_heads_scanout.md)
  | headCfg | headMax | headMinLinePs | headCtl | headStatus | headFrame | headLatchTime
  | headFlipFrame | headFlipTime | headUnderrunCount | headUnderrunFrames | headAmbient | headModeH0
  | headModeH1 | headModeV0 | headModeV1 | headModeFlags | headPhaseNs | headLinePs | headPixelKhz
  | headXAmbLow | headXAmbHigh | headXAmbDwell | headXIgnored
  -- ENCODE (11_coded_video_output.md)
  | encCfg | encMax | encMaxRate | encCtl | encSrc | encCropPos | encCropSize | encSize | encQp
  | encPicCap | encSecCap | encRing | encOutBaseLo | encOutBaseHi | encOutSize | encRefBaseLo
  | encRefBaseHi | encStatus | encPictures | encCapped | encDropped | encRepeats | encLate
  | encWindowBytes | encFloor | encXRate | encXRefresh | encXIgnored
  -- PORTS (12_spoke_lanes.md)
  | portCfg | portState | portLaneMap | portPartner | portRetry | portTrainMs | portTrainFail
  | portLinkDown | portLaneFaults | portCodeErr | portMarkerCorr | portTestStatus | portPrbsErr
  | portEq | portXPhaseMs | portXRateCap | portXEqFix | portXLock | portXIgnored
  -- CHECK (13_spoke_link_protocol.md)
  | chkPreset | chkStatus | chkResultLo | chkResultHi | chkPass | chkFail | chkXPolyLo | chkXPolyHi
  | chkXInitLo | chkXInitHi | chkXXoroutLo | chkXXoroutHi | chkXShape | chkXIgnored
  -- PORTS (13_spoke_link_protocol.md)
  | linkState | linkEpoch | linkHoldCap | linkDelayNs | linkErrHdr | linkErrPayload | linkCulletCount
  | linkLost | linkUnknown | linkCreditLimit | linkCreditViol | linkPartner | linkPartnerEpoch
  | linkPartnerFrame | linkStatusAge | linkXTimeMs | linkXStatusMs
  -- TOUCH (14_touch_panels.md)
  | touchCfg | touchGeom | touchCtl | touchRing | touchLimits | touchStatus | touchReports
  | touchStale | touchDoubt | touchExpired | touchHops | touchNoisy | touchDropped | touchOverflow
  | touchSuspect | touchLastAge | touchTest | touchNoise | touchXThresh | touchXSelf | touchXSuspect
  | touchXHop | touchXAdapt | touchXCycles | touchXTest | touchXRefcapNom | touchXFreq | touchXIgnored
  -- TIMING (15_references_time.md)
  | timState | timCtl | timNow | timNowFrac | timIncrLo | timIncrHi | timHostIncrLo | timHostIncrHi
  | timFreqErr | timPhaseErr | timHoldS | timWrap | timWtrLeft | refCfg | refNom | refStatus
  | refOffset | grpRate | grpPhase | grpAnchor | grpNext | capCtl | capTime | capSub | capCount
  | pulseCtl | pulseStart | pulsePeriod | pulseWidth | clkoutCtl | clkoutFreq | timXLimits | timXTimes
  | timXSlew | timXHold | timXHostMs | timXIgnored
  -- TANDEM (16_journal_tandem.md)
  | tndCfg | tndState | tndEpoch | tndPartnerEpoch | tndHbAge | tndLagUs | tndTimeOfs | tndMirrorKb
  | tndFollowMiss | tndTakeovers | tndLastTakeover | tndMirBaseLo | tndMirBaseHi | tndMirSize
  | tndMirCtl | tndXTimes | tndXTimeTol | tndXIgnored
  -- THERMAL (17_startup_heat_harmless.md)
  | thmState | thmTemp | thmWardenTemp | thmSensorFail | thmFault | thmFaultTime | thmReset | thmCmd
  | thmVdd | thmWear | lifeHours | lifeEqHours | lifeUsed | thmSensor | thmXLevels | thmXTimes
  | thmXRelease | thmXRecover | thmXWear | thmXIgnored
  deriving DecidableEq, Repr

/-- A register of either side. -/
inductive AnyReg where
  | bus (r : BReg)
  | fn (r : FReg)
  deriving DecidableEq, Repr

end Sys2Proof.Machine
end

