-- ==== Sys2Proof/Machine/RegTable.lean ====
section
/-! DEFINITION. Where each register stands (spec/02 to spec/18, the register tables): its function, block,
offset, sub-index stride and access code, and the value each has at reset. -/

namespace Sys2Proof.Machine

/-- One row of a register table: register `reg` with sub-index j stands at `off` + j × `stride` of the
basic or expert block of CAP_ID `cap`. -/
structure RegRow where
  reg : AnyReg
  cap : Nat
  expert : Bool
  off : Nat
  stride : Nat
  count : Nat
  acc : Acc
  deriving DecidableEq, Repr

/-- Registers of STRUCTURE. -/
def rowsStructure : List RegRow := [
  ⟨.fn .structState, 0x34, false, 0x0000, 0x0, 1, .ro⟩,
  ⟨.fn .structSlot, 0x34, false, 0x0004, 0x0, 1, .ro⟩,
  ⟨.fn .structSeq, 0x34, false, 0x0008, 0x0, 1, .ro⟩,
  ⟨.fn .structFloor, 0x34, false, 0x000C, 0x0, 1, .ro⟩,
  ⟨.fn .structHash, 0x34, false, 0x0010, 0x4, 12, .ro⟩,
  ⟨.fn .structCmd, 0x34, false, 0x0040, 0x0, 1, .wo⟩,
  ⟨.fn .structStatus, 0x34, false, 0x0044, 0x0, 1, .w1c⟩,
  ⟨.fn .structSrcLo, 0x34, false, 0x0048, 0x0, 1, .rw⟩,
  ⟨.fn .structSrcHi, 0x34, false, 0x004C, 0x0, 1, .rw⟩,
  ⟨.fn .structSrcLen, 0x34, false, 0x0050, 0x0, 1, .rw⟩,
  ⟨.fn .structZone, 0x34, false, 0x0054, 0x0, 1, .ro⟩,
  ⟨.fn .structKeys, 0x34, false, 0x0058, 0x0, 1, .ro⟩,
  ⟨.fn .structFail, 0x34, false, 0x005C, 0x0, 1, .ro⟩,
  ⟨.fn .structLoadMs, 0x34, false, 0x0060, 0x0, 1, .ro⟩,
  ⟨.fn .structXConfirm, 0x34, true, 0x0000, 0x0, 1, .rw⟩,
  ⟨.fn .structXDrain, 0x34, true, 0x0004, 0x0, 1, .rw⟩,
  ⟨.fn .structXIgnored, 0x34, true, 0x0008, 0x0, 1, .rc⟩]

/-- Registers of DEVICE_CORE. -/
def rowsDeviceCore : List RegRow := [
  ⟨.bus .coreId, 0x01, false, 0x0000, 0x0, 1, .ro⟩,
  ⟨.bus .corePort, 0x01, false, 0x0004, 0x0, 1, .ro⟩,
  ⟨.bus .coreBarrier, 0x01, false, 0x0008, 0x0, 1, .wo⟩,
  ⟨.bus .coreBarrierDone, 0x01, false, 0x000C, 0x0, 1, .ro⟩,
  ⟨.bus .coreMwinBaseLo, 0x01, false, 0x0010, 0x0, 1, .rw⟩,
  ⟨.bus .coreMwinBaseHi, 0x01, false, 0x0014, 0x0, 1, .rw⟩,
  ⟨.bus .coreEvtRing, 0x01, false, 0x0018, 0x0, 1, .rw⟩,
  ⟨.bus .coreEvtSeverity, 0x01, false, 0x001C, 0x0, 1, .rw⟩,
  ⟨.bus .coreEvtLost, 0x01, false, 0x0020, 0x0, 1, .rc⟩,
  ⟨.bus .coreBadAccess, 0x01, false, 0x0024, 0x0, 1, .rc⟩,
  ⟨.bus .corePtmStatus, 0x01, false, 0x0028, 0x0, 1, .ro⟩,
  ⟨.bus .corePtmHostLo, 0x01, false, 0x002C, 0x0, 1, .ro⟩,
  ⟨.bus .corePtmHostHi, 0x01, false, 0x0030, 0x0, 1, .ro⟩,
  ⟨.bus .corePtmDev, 0x01, false, 0x0034, 0x0, 1, .ro⟩,
  ⟨.bus .corePtmLinkDelay, 0x01, false, 0x0038, 0x0, 1, .ro⟩,
  ⟨.bus .coreXPtmPeriod, 0x01, true, 0x0000, 0x0, 1, .rw⟩,
  ⟨.bus .coreXIgnored, 0x01, true, 0x0004, 0x0, 1, .rc⟩]

/-- Registers of RINGS. -/
def rowsRings : List RegRow := [
  ⟨.bus .ringCtl, 0x02, false, 0x0000, 0x0, 1, .rw⟩,
  ⟨.bus .ringBaseLo, 0x02, false, 0x0004, 0x0, 1, .rw⟩,
  ⟨.bus .ringBaseHi, 0x02, false, 0x0008, 0x0, 1, .rw⟩,
  ⟨.bus .ringProd, 0x02, false, 0x000C, 0x0, 1, .ringPtr⟩,
  ⟨.bus .ringCons, 0x02, false, 0x0010, 0x0, 1, .ringPtr⟩,
  ⟨.bus .ringStatus, 0x02, false, 0x0014, 0x0, 1, .w1c⟩,
  ⟨.bus .ringHoldoff, 0x02, false, 0x0018, 0x0, 1, .rw⟩,
  ⟨.bus .ringWaitLimit, 0x02, false, 0x001C, 0x0, 1, .rw⟩,
  ⟨.bus .ringXBatch, 0x02, true, 0x0000, 0x0, 1, .rw⟩,
  ⟨.bus .ringXIgnored, 0x02, true, 0x0004, 0x0, 1, .rc⟩]

/-- Registers of FENCES. -/
def rowsFences : List RegRow := [
  ⟨.bus .fenceValueLo, 0x03, false, 0x0000, 0x10, 4096, .ro⟩,
  ⟨.bus .fenceValueHi, 0x03, false, 0x0004, 0x10, 4096, .ro⟩,
  ⟨.bus .fenceSignalLo, 0x03, false, 0x0008, 0x10, 4096, .wo⟩,
  ⟨.bus .fenceSignalHi, 0x03, false, 0x000C, 0x10, 4096, .wo⟩]

/-- Registers of ACCESS. -/
def rowsAccess : List RegRow := [
  ⟨.bus .accMaster, 0x04, false, 0x0000, 0x0, 1, .ro⟩,
  ⟨.bus .accStatus, 0x04, false, 0x0004, 0x0, 1, .w1c⟩,
  ⟨.bus .accSync, 0x04, false, 0x0008, 0x0, 1, .wo⟩,
  ⟨.bus .accSyncDone, 0x04, false, 0x000C, 0x0, 1, .ro⟩,
  ⟨.bus .accReadRefused, 0x04, false, 0x0010, 0x0, 1, .rc⟩,
  ⟨.bus .accWriteRefused, 0x04, false, 0x0014, 0x0, 1, .rc⟩,
  ⟨.bus .accEnabled, 0x04, false, 0x0018, 0x0, 1, .ro⟩,
  ⟨.bus .regBaseLo, 0x04, false, 0x0020, 0x20, 32, .rw⟩,
  ⟨.bus .regBaseHi, 0x04, false, 0x0024, 0x20, 32, .rw⟩,
  ⟨.bus .regSizeLo, 0x04, false, 0x0028, 0x20, 32, .rw⟩,
  ⟨.bus .regSizeHi, 0x04, false, 0x002C, 0x20, 32, .rw⟩,
  ⟨.bus .regCtl, 0x04, false, 0x0030, 0x20, 32, .rw⟩,
  ⟨.bus .accXNoticeWindow, 0x04, true, 0x0000, 0x0, 1, .rw⟩,
  ⟨.bus .accXIgnored, 0x04, true, 0x0004, 0x0, 1, .rc⟩]

/-- Registers of DEBUG. -/
def rowsDebug : List RegRow := [
  ⟨.fn .debugState, 0x35, false, 0x0000, 0x0, 1, .ro⟩,
  ⟨.fn .debugCmd, 0x35, false, 0x0004, 0x0, 1, .wo⟩,
  ⟨.fn .debugStatus, 0x35, false, 0x0008, 0x0, 1, .ro⟩,
  ⟨.fn .debugTokenLo, 0x35, false, 0x000C, 0x0, 1, .rw⟩,
  ⟨.fn .debugTokenHi, 0x35, false, 0x0010, 0x0, 1, .rw⟩,
  ⟨.fn .debugSerialLo, 0x35, false, 0x0014, 0x0, 1, .ro⟩,
  ⟨.fn .debugSerialHi, 0x35, false, 0x0018, 0x0, 1, .ro⟩,
  ⟨.fn .debugNonce, 0x35, false, 0x001C, 0x4, 4, .ro⟩,
  ⟨.fn .debugRefused, 0x35, false, 0x002C, 0x0, 1, .rc⟩]

/-- Registers of MEMORY. -/
def rowsMemory : List RegRow := [
  ⟨.bus .memState, 0x05, false, 0x0000, 0x0, 1, .ro⟩,
  ⟨.bus .memTemp, 0x05, false, 0x0004, 0x0, 1, .ro⟩,
  ⟨.bus .memStatus, 0x05, false, 0x0008, 0x0, 1, .w1c⟩,
  ⟨.bus .memCeCount, 0x05, false, 0x000C, 0x0, 1, .rc⟩,
  ⟨.bus .memUeCount, 0x05, false, 0x0010, 0x0, 1, .rc⟩,
  ⟨.bus .memUeAddrLo, 0x05, false, 0x0014, 0x0, 1, .ro⟩,
  ⟨.bus .memUeAddrHi, 0x05, false, 0x0018, 0x0, 1, .ro⟩,
  ⟨.bus .memUnmapped, 0x05, false, 0x001C, 0x0, 1, .rc⟩,
  ⟨.bus .memPcFailedLo, 0x05, false, 0x0020, 0x0, 1, .ro⟩,
  ⟨.bus .memPcFailedHi, 0x05, false, 0x0024, 0x0, 1, .ro⟩,
  ⟨.bus .memBytesS0Lo, 0x05, false, 0x0028, 0x0, 1, .ro⟩,
  ⟨.bus .memBytesS0Hi, 0x05, false, 0x002C, 0x0, 1, .ro⟩,
  ⟨.bus .memBytesS1Lo, 0x05, false, 0x0030, 0x0, 1, .ro⟩,
  ⟨.bus .memBytesS1Hi, 0x05, false, 0x0034, 0x0, 1, .ro⟩,
  ⟨.bus .memScrubPass, 0x05, false, 0x0038, 0x0, 1, .ro⟩,
  ⟨.bus .memPartBaseLo, 0x05, false, 0x0040, 0x20, 16, .ro⟩,
  ⟨.bus .memPartBaseHi, 0x05, false, 0x0044, 0x20, 16, .ro⟩,
  ⟨.bus .memPartSizeLo, 0x05, false, 0x0048, 0x20, 16, .ro⟩,
  ⟨.bus .memPartSizeHi, 0x05, false, 0x004C, 0x20, 16, .ro⟩,
  ⟨.bus .memPartCtl, 0x05, false, 0x0050, 0x20, 16, .ro⟩,
  ⟨.bus .memXScrubHours, 0x05, true, 0x0000, 0x0, 1, .rw⟩,
  ⟨.bus .memXTrackMs, 0x05, true, 0x0004, 0x0, 1, .rw⟩,
  ⟨.bus .memXWeakRow, 0x05, true, 0x0008, 0x0, 1, .rw⟩,
  ⟨.bus .memXIgnored, 0x05, true, 0x000C, 0x0, 1, .rc⟩]

/-- Registers of SOURCES. -/
def rowsSources : List RegRow := [
  ⟨.fn .srcCfg, 0x10, false, 0x0000, 0x0, 1, .ro⟩,
  ⟨.fn .srcFormat, 0x10, false, 0x0004, 0x0, 1, .rw⟩,
  ⟨.fn .srcSize, 0x10, false, 0x0008, 0x0, 1, .rw⟩,
  ⟨.fn .srcLimit, 0x10, false, 0x000C, 0x0, 1, .rw⟩,
  ⟨.fn .srcState, 0x10, false, 0x0010, 0x0, 1, .ro⟩,
  ⟨.fn .srcNewestTime, 0x10, false, 0x0014, 0x0, 1, .ro⟩,
  ⟨.fn .srcPool, 0x10, false, 0x0018, 0x0, 1, .ro⟩,
  ⟨.fn .srcCulletCount, 0x10, false, 0x001C, 0x0, 1, .rc⟩,
  ⟨.fn .srcLostCount, 0x10, false, 0x0020, 0x0, 1, .rc⟩,
  ⟨.fn .srcPoolDrop, 0x10, false, 0x0024, 0x0, 1, .rc⟩,
  ⟨.fn .srcSameRun, 0x10, false, 0x0028, 0x0, 1, .ro⟩,
  ⟨.fn .srcTest, 0x10, false, 0x002C, 0x0, 1, .rw⟩,
  ⟨.fn .srcTestColour, 0x10, false, 0x0030, 0x0, 1, .rw⟩,
  ⟨.fn .srcBufAddrLo, 0x10, false, 0x0040, 0x20, 16, .rw⟩,
  ⟨.fn .srcBufAddrHi, 0x10, false, 0x0044, 0x20, 16, .rw⟩,
  ⟨.fn .srcBufState, 0x10, false, 0x0048, 0x20, 16, .ro⟩,
  ⟨.fn .srcBufTag, 0x10, false, 0x004C, 0x20, 16, .ro⟩,
  ⟨.fn .srcBufTime, 0x10, false, 0x0050, 0x20, 16, .ro⟩,
  ⟨.fn .srcBufAlive, 0x10, false, 0x0054, 0x20, 16, .ro⟩,
  ⟨.fn .srcBufCheck, 0x10, false, 0x0058, 0x20, 16, .ro⟩,
  ⟨.fn .srcXFillMs, 0x10, true, 0x0000, 0x0, 1, .rw⟩,
  ⟨.fn .srcXIgnored, 0x10, true, 0x0004, 0x0, 1, .rc⟩]

/-- Registers of COMPRESS. -/
def rowsCompress : List RegRow := [
  ⟨.fn .cmpStatus, 0x06, false, 0x0000, 0x0, 1, .w1c⟩,
  ⟨.fn .cmpSlotBlocks, 0x06, false, 0x0004, 0x0, 1, .rc⟩,
  ⟨.fn .cmpSolidBlocks, 0x06, false, 0x0008, 0x0, 1, .rc⟩,
  ⟨.fn .cmpRawBlocks, 0x06, false, 0x000C, 0x0, 1, .rc⟩,
  ⟨.fn .cmpNoGain, 0x06, false, 0x0010, 0x0, 1, .rc⟩,
  ⟨.fn .cmpBadBlocks, 0x06, false, 0x0014, 0x0, 1, .rc⟩,
  ⟨.fn .cmpXEffort, 0x06, true, 0x0000, 0x0, 1, .rw⟩,
  ⟨.fn .cmpXNoGainPct, 0x06, true, 0x0004, 0x0, 1, .rw⟩,
  ⟨.fn .cmpXIgnored, 0x06, true, 0x0008, 0x0, 1, .rc⟩]

/-- Registers of DECODE. -/
def rowsDecode : List RegRow := [
  ⟨.fn .decCfg, 0x11, false, 0x0000, 0x0, 1, .ro⟩,
  ⟨.fn .decRing, 0x11, false, 0x0004, 0x0, 1, .rw⟩,
  ⟨.fn .decStatus, 0x11, false, 0x0008, 0x0, 1, .ro⟩,
  ⟨.fn .decLumaKps, 0x11, false, 0x000C, 0x0, 1, .ro⟩,
  ⟨.fn .decRate, 0x11, false, 0x0010, 0x0, 1, .ro⟩,
  ⟨.fn .decPictures, 0x11, false, 0x0014, 0x0, 1, .rc⟩,
  ⟨.fn .decTainted, 0x11, false, 0x0018, 0x0, 1, .rc⟩,
  ⟨.fn .decSubstituted, 0x11, false, 0x001C, 0x0, 1, .rc⟩,
  ⟨.fn .decHeld, 0x11, false, 0x0020, 0x0, 1, .rc⟩,
  ⟨.fn .decSkipped, 0x11, false, 0x0024, 0x0, 1, .rc⟩,
  ⟨.fn .decDiscarded, 0x11, false, 0x0028, 0x0, 1, .rc⟩,
  ⟨.fn .decWait, 0x11, false, 0x002C, 0x0, 1, .rc⟩,
  ⟨.fn .decLastPicture, 0x11, false, 0x0030, 0x0, 1, .ro⟩,
  ⟨.fn .decMarks, 0x11, false, 0x0034, 0x0, 1, .ro⟩,
  ⟨.fn .decFlags, 0x11, false, 0x0038, 0x0, 1, .ro⟩,
  ⟨.fn .decXConcealMax, 0x11, true, 0x0000, 0x0, 1, .rw⟩,
  ⟨.fn .decXSkip, 0x11, true, 0x0004, 0x0, 1, .rw⟩,
  ⟨.fn .decXIgnored, 0x11, true, 0x0008, 0x0, 1, .rc⟩]

/-- Registers of COMPOSE. -/
def rowsCompose : List RegRow := [
  ⟨.fn .composeCfg, 0x12, false, 0x0000, 0x0, 1, .ro⟩,
  ⟨.fn .composeStatus, 0x12, false, 0x0004, 0x0, 1, .w1c⟩,
  ⟨.fn .composeBg, 0x12, false, 0x0008, 0x0, 1, .rw⟩,
  ⟨.fn .composeShedMask, 0x12, false, 0x000C, 0x0, 1, .ro⟩,
  ⟨.fn .composeShedEvents, 0x12, false, 0x0010, 0x0, 1, .rc⟩,
  ⟨.fn .composeNotReady, 0x12, false, 0x0014, 0x0, 1, .rc⟩,
  ⟨.fn .composeRecomposed, 0x12, false, 0x0018, 0x0, 1, .rc⟩,
  ⟨.fn .composeMarginMin, 0x12, false, 0x001C, 0x0, 1, .ro⟩,
  ⟨.fn .composeWb, 0x12, false, 0x0020, 0x0, 1, .rw⟩,
  ⟨.fn .composeWbPos, 0x12, false, 0x0024, 0x0, 1, .rw⟩,
  ⟨.fn .cursorCtl, 0x12, false, 0x0028, 0x0, 1, .rw⟩,
  ⟨.fn .cursorPos, 0x12, false, 0x002C, 0x0, 1, .rw⟩,
  ⟨.fn .cursorSize, 0x12, false, 0x0030, 0x0, 1, .ro⟩,
  ⟨.fn .layerSrc, 0x12, false, 0x0100, 0x40, 32, .ro⟩,
  ⟨.fn .layerAlpha, 0x12, false, 0x0104, 0x40, 32, .ro⟩,
  ⟨.fn .layerCropPos, 0x12, false, 0x0108, 0x40, 32, .ro⟩,
  ⟨.fn .layerCropSize, 0x12, false, 0x010C, 0x40, 32, .ro⟩,
  ⟨.fn .layerDstPos, 0x12, false, 0x0110, 0x40, 32, .ro⟩,
  ⟨.fn .layerDstSize, 0x12, false, 0x0114, 0x40, 32, .ro⟩,
  ⟨.fn .layerTag, 0x12, false, 0x0118, 0x40, 32, .ro⟩,
  ⟨.fn .layerState, 0x12, false, 0x011C, 0x40, 32, .ro⟩,
  ⟨.fn .composeXShed, 0x12, true, 0x0000, 0x0, 1, .rw⟩,
  ⟨.fn .composeXRecompose, 0x12, true, 0x0004, 0x0, 1, .rw⟩,
  ⟨.fn .composeXM0, 0x12, true, 0x0008, 0x0, 1, .rw⟩,
  ⟨.fn .composeXM1, 0x12, true, 0x000C, 0x0, 1, .rw⟩,
  ⟨.fn .composeXM2, 0x12, true, 0x0010, 0x0, 1, .rw⟩,
  ⟨.fn .composeXM3, 0x12, true, 0x0014, 0x0, 1, .rw⟩,
  ⟨.fn .composeXM4, 0x12, true, 0x0018, 0x0, 1, .rw⟩,
  ⟨.fn .composeXOfs0, 0x12, true, 0x001C, 0x0, 1, .rw⟩,
  ⟨.fn .composeXOfs1, 0x12, true, 0x0020, 0x0, 1, .rw⟩,
  ⟨.fn .composeXIgnored, 0x12, true, 0x0024, 0x0, 1, .rc⟩]

/-- Registers of FRESH. -/
def rowsFresh : List RegRow := [
  ⟨.fn .freshCfg, 0x13, false, 0x0000, 0x0, 1, .ro⟩,
  ⟨.fn .freshStaleColour, 0x13, false, 0x0004, 0x0, 1, .rw⟩,
  ⟨.fn .freshDegradedColour, 0x13, false, 0x0008, 0x0, 1, .rw⟩,
  ⟨.fn .freshStatus, 0x13, false, 0x000C, 0x0, 1, .ro⟩,
  ⟨.fn .freshValidUntil, 0x13, false, 0x0010, 0x0, 1, .ro⟩,
  ⟨.fn .freshStaleTiles, 0x13, false, 0x0014, 0x0, 1, .ro⟩,
  ⟨.fn .freshDegradedTiles, 0x13, false, 0x0018, 0x0, 1, .ro⟩,
  ⟨.fn .freshDoubtTiles, 0x13, false, 0x001C, 0x0, 1, .ro⟩,
  ⟨.fn .freshDoubtCount, 0x13, false, 0x0020, 0x0, 1, .rc⟩,
  ⟨.fn .freshTileIndex, 0x13, false, 0x0024, 0x0, 1, .rw⟩,
  ⟨.fn .freshTileLo, 0x13, false, 0x0028, 0x0, 1, .ro⟩,
  ⟨.fn .freshTileHi, 0x13, false, 0x002C, 0x0, 1, .ro⟩,
  ⟨.fn .witStatus, 0x13, false, 0x0030, 0x0, 1, .ro⟩,
  ⟨.fn .witMismatchCount, 0x13, false, 0x0034, 0x0, 1, .rc⟩,
  ⟨.fn .witLastTile, 0x13, false, 0x0038, 0x0, 1, .ro⟩,
  ⟨.fn .witFramesChecked, 0x13, false, 0x003C, 0x0, 1, .ro⟩,
  ⟨.fn .freshLayerLimit, 0x13, false, 0x0100, 0x10, 32, .ro⟩,
  ⟨.fn .freshLayerPolicy, 0x13, false, 0x0104, 0x10, 32, .ro⟩,
  ⟨.fn .freshLayerState, 0x13, false, 0x0108, 0x10, 32, .ro⟩,
  ⟨.fn .freshLayerExpiry, 0x13, false, 0x010C, 0x10, 32, .ro⟩,
  ⟨.fn .freshXNoLiveHold, 0x13, true, 0x0000, 0x0, 1, .rw⟩,
  ⟨.fn .freshXFlagFill, 0x13, true, 0x0004, 0x0, 1, .rw⟩,
  ⟨.fn .freshXIgnored, 0x13, true, 0x0008, 0x0, 1, .rc⟩]

/-- Registers of HEADS. -/
def rowsHeads : List RegRow := [
  ⟨.fn .headCfg, 0x14, false, 0x0000, 0x0, 1, .ro⟩,
  ⟨.fn .headMax, 0x14, false, 0x0004, 0x0, 1, .ro⟩,
  ⟨.fn .headMinLinePs, 0x14, false, 0x0008, 0x0, 1, .ro⟩,
  ⟨.fn .headCtl, 0x14, false, 0x000C, 0x0, 1, .rw⟩,
  ⟨.fn .headStatus, 0x14, false, 0x0010, 0x0, 1, .ro⟩,
  ⟨.fn .headFrame, 0x14, false, 0x0014, 0x0, 1, .ro⟩,
  ⟨.fn .headLatchTime, 0x14, false, 0x0018, 0x0, 1, .ro⟩,
  ⟨.fn .headFlipFrame, 0x14, false, 0x001C, 0x0, 1, .ro⟩,
  ⟨.fn .headFlipTime, 0x14, false, 0x0020, 0x0, 1, .ro⟩,
  ⟨.fn .headUnderrunCount, 0x14, false, 0x0024, 0x0, 1, .rc⟩,
  ⟨.fn .headUnderrunFrames, 0x14, false, 0x0028, 0x0, 1, .rc⟩,
  ⟨.fn .headAmbient, 0x14, false, 0x002C, 0x0, 1, .ro⟩,
  ⟨.fn .headModeH0, 0x14, false, 0x0030, 0x0, 1, .ro⟩,
  ⟨.fn .headModeH1, 0x14, false, 0x0034, 0x0, 1, .ro⟩,
  ⟨.fn .headModeV0, 0x14, false, 0x0038, 0x0, 1, .ro⟩,
  ⟨.fn .headModeV1, 0x14, false, 0x003C, 0x0, 1, .ro⟩,
  ⟨.fn .headModeFlags, 0x14, false, 0x0040, 0x0, 1, .ro⟩,
  ⟨.fn .headPhaseNs, 0x14, false, 0x0044, 0x0, 1, .ro⟩,
  ⟨.fn .headLinePs, 0x14, false, 0x0048, 0x0, 1, .ro⟩,
  ⟨.fn .headPixelKhz, 0x14, false, 0x004C, 0x0, 1, .ro⟩,
  ⟨.fn .headXAmbLow, 0x14, true, 0x0000, 0x0, 1, .rw⟩,
  ⟨.fn .headXAmbHigh, 0x14, true, 0x0004, 0x0, 1, .rw⟩,
  ⟨.fn .headXAmbDwell, 0x14, true, 0x0008, 0x0, 1, .rw⟩,
  ⟨.fn .headXIgnored, 0x14, true, 0x000C, 0x0, 1, .rc⟩]

/-- Registers of ENCODE. -/
def rowsEncode : List RegRow := [
  ⟨.fn .encCfg, 0x15, false, 0x0000, 0x0, 1, .ro⟩,
  ⟨.fn .encMax, 0x15, false, 0x0004, 0x0, 1, .ro⟩,
  ⟨.fn .encMaxRate, 0x15, false, 0x0008, 0x0, 1, .ro⟩,
  ⟨.fn .encCtl, 0x15, false, 0x000C, 0x0, 1, .rw⟩,
  ⟨.fn .encSrc, 0x15, false, 0x0010, 0x0, 1, .rw⟩,
  ⟨.fn .encCropPos, 0x15, false, 0x0014, 0x0, 1, .rw⟩,
  ⟨.fn .encCropSize, 0x15, false, 0x0018, 0x0, 1, .rw⟩,
  ⟨.fn .encSize, 0x15, false, 0x001C, 0x0, 1, .rw⟩,
  ⟨.fn .encQp, 0x15, false, 0x0020, 0x0, 1, .rw⟩,
  ⟨.fn .encPicCap, 0x15, false, 0x0024, 0x0, 1, .rw⟩,
  ⟨.fn .encSecCap, 0x15, false, 0x0028, 0x0, 1, .rw⟩,
  ⟨.fn .encRing, 0x15, false, 0x002C, 0x0, 1, .rw⟩,
  ⟨.fn .encOutBaseLo, 0x15, false, 0x0030, 0x0, 1, .rw⟩,
  ⟨.fn .encOutBaseHi, 0x15, false, 0x0034, 0x0, 1, .rw⟩,
  ⟨.fn .encOutSize, 0x15, false, 0x0038, 0x0, 1, .rw⟩,
  ⟨.fn .encRefBaseLo, 0x15, false, 0x003C, 0x0, 1, .rw⟩,
  ⟨.fn .encRefBaseHi, 0x15, false, 0x0040, 0x0, 1, .rw⟩,
  ⟨.fn .encStatus, 0x15, false, 0x0044, 0x0, 1, .w1c⟩,
  ⟨.fn .encPictures, 0x15, false, 0x0048, 0x0, 1, .rc⟩,
  ⟨.fn .encCapped, 0x15, false, 0x004C, 0x0, 1, .rc⟩,
  ⟨.fn .encDropped, 0x15, false, 0x0050, 0x0, 1, .rc⟩,
  ⟨.fn .encRepeats, 0x15, false, 0x0054, 0x0, 1, .rc⟩,
  ⟨.fn .encLate, 0x15, false, 0x0058, 0x0, 1, .rc⟩,
  ⟨.fn .encWindowBytes, 0x15, false, 0x005C, 0x0, 1, .ro⟩,
  ⟨.fn .encFloor, 0x15, false, 0x0060, 0x0, 1, .ro⟩,
  ⟨.fn .encXRate, 0x15, true, 0x0000, 0x0, 1, .rw⟩,
  ⟨.fn .encXRefresh, 0x15, true, 0x0004, 0x0, 1, .rw⟩,
  ⟨.fn .encXIgnored, 0x15, true, 0x0008, 0x0, 1, .rc⟩]

/-- Registers of PORTS. -/
def rowsPorts : List RegRow := [
  ⟨.fn .portCfg, 0x20, false, 0x0000, 0x0, 1, .ro⟩,
  ⟨.fn .portState, 0x20, false, 0x0004, 0x0, 1, .ro⟩,
  ⟨.fn .portLaneMap, 0x20, false, 0x0008, 0x0, 1, .ro⟩,
  ⟨.fn .portPartner, 0x20, false, 0x000C, 0x0, 1, .ro⟩,
  ⟨.fn .portRetry, 0x20, false, 0x0010, 0x0, 1, .rw⟩,
  ⟨.fn .portTrainMs, 0x20, false, 0x0014, 0x0, 1, .ro⟩,
  ⟨.fn .portTrainFail, 0x20, false, 0x0018, 0x0, 1, .ro⟩,
  ⟨.fn .portLinkDown, 0x20, false, 0x001C, 0x0, 1, .rc⟩,
  ⟨.fn .portLaneFaults, 0x20, false, 0x0020, 0x0, 1, .rc⟩,
  ⟨.fn .portCodeErr, 0x20, false, 0x0024, 0x0, 1, .rc⟩,
  ⟨.fn .portMarkerCorr, 0x20, false, 0x0028, 0x0, 1, .rc⟩,
  ⟨.fn .portTestStatus, 0x20, false, 0x002C, 0x0, 1, .ro⟩,
  ⟨.fn .portPrbsErr, 0x20, false, 0x0030, 0x4, 5, .rc⟩,
  ⟨.fn .portEq, 0x20, false, 0x0050, 0x4, 6, .ro⟩,
  ⟨.fn .portXPhaseMs, 0x20, true, 0x0000, 0x0, 1, .rw⟩,
  ⟨.fn .portXRateCap, 0x20, true, 0x0004, 0x0, 1, .rw⟩,
  ⟨.fn .portXEqFix, 0x20, true, 0x0008, 0x0, 1, .rw⟩,
  ⟨.fn .portXLock, 0x20, true, 0x000C, 0x0, 1, .rw⟩,
  ⟨.fn .portXIgnored, 0x20, true, 0x001C, 0x0, 1, .rc⟩,
  ⟨.fn .linkState, 0x20, false, 0x0080, 0x0, 1, .ro⟩,
  ⟨.fn .linkEpoch, 0x20, false, 0x0084, 0x0, 1, .ro⟩,
  ⟨.fn .linkHoldCap, 0x20, false, 0x0088, 0x0, 1, .rw⟩,
  ⟨.fn .linkDelayNs, 0x20, false, 0x008C, 0x0, 1, .ro⟩,
  ⟨.fn .linkErrHdr, 0x20, false, 0x0090, 0x0, 1, .rc⟩,
  ⟨.fn .linkErrPayload, 0x20, false, 0x0094, 0x0, 1, .rc⟩,
  ⟨.fn .linkCulletCount, 0x20, false, 0x0098, 0x0, 1, .rc⟩,
  ⟨.fn .linkLost, 0x20, false, 0x009C, 0x0, 1, .rc⟩,
  ⟨.fn .linkUnknown, 0x20, false, 0x00A0, 0x0, 1, .rc⟩,
  ⟨.fn .linkCreditLimit, 0x20, false, 0x00A4, 0x0, 1, .ro⟩,
  ⟨.fn .linkCreditViol, 0x20, false, 0x00A8, 0x0, 1, .rc⟩,
  ⟨.fn .linkPartner, 0x20, false, 0x00AC, 0x0, 1, .ro⟩,
  ⟨.fn .linkPartnerEpoch, 0x20, false, 0x00B0, 0x0, 1, .ro⟩,
  ⟨.fn .linkPartnerFrame, 0x20, false, 0x00B4, 0x0, 1, .ro⟩,
  ⟨.fn .linkStatusAge, 0x20, false, 0x00B8, 0x0, 1, .ro⟩,
  ⟨.fn .linkXTimeMs, 0x20, true, 0x0020, 0x0, 1, .rw⟩,
  ⟨.fn .linkXStatusMs, 0x20, true, 0x0024, 0x0, 1, .rw⟩]

/-- Registers of CHECK. -/
def rowsCheck : List RegRow := [
  ⟨.fn .chkPreset, 0x07, false, 0x0000, 0x0, 1, .rw⟩,
  ⟨.fn .chkStatus, 0x07, false, 0x0004, 0x0, 1, .w1c⟩,
  ⟨.fn .chkResultLo, 0x07, false, 0x0008, 0x0, 1, .ro⟩,
  ⟨.fn .chkResultHi, 0x07, false, 0x000C, 0x0, 1, .ro⟩,
  ⟨.fn .chkPass, 0x07, false, 0x0010, 0x0, 1, .rc⟩,
  ⟨.fn .chkFail, 0x07, false, 0x0014, 0x0, 1, .rc⟩,
  ⟨.fn .chkXPolyLo, 0x07, true, 0x0000, 0x0, 1, .rw⟩,
  ⟨.fn .chkXPolyHi, 0x07, true, 0x0004, 0x0, 1, .rw⟩,
  ⟨.fn .chkXInitLo, 0x07, true, 0x0008, 0x0, 1, .rw⟩,
  ⟨.fn .chkXInitHi, 0x07, true, 0x000C, 0x0, 1, .rw⟩,
  ⟨.fn .chkXXoroutLo, 0x07, true, 0x0010, 0x0, 1, .rw⟩,
  ⟨.fn .chkXXoroutHi, 0x07, true, 0x0014, 0x0, 1, .rw⟩,
  ⟨.fn .chkXShape, 0x07, true, 0x0018, 0x0, 1, .rw⟩,
  ⟨.fn .chkXIgnored, 0x07, true, 0x001C, 0x0, 1, .rc⟩]

/-- Registers of TOUCH. -/
def rowsTouch : List RegRow := [
  ⟨.fn .touchCfg, 0x21, false, 0x0000, 0x0, 1, .ro⟩,
  ⟨.fn .touchGeom, 0x21, false, 0x0004, 0x0, 1, .ro⟩,
  ⟨.fn .touchCtl, 0x21, false, 0x0008, 0x0, 1, .rw⟩,
  ⟨.fn .touchRing, 0x21, false, 0x000C, 0x0, 1, .rw⟩,
  ⟨.fn .touchLimits, 0x21, false, 0x0010, 0x0, 1, .rw⟩,
  ⟨.fn .touchStatus, 0x21, false, 0x0014, 0x0, 1, .ro⟩,
  ⟨.fn .touchReports, 0x21, false, 0x0018, 0x0, 1, .rc⟩,
  ⟨.fn .touchStale, 0x21, false, 0x001C, 0x0, 1, .rc⟩,
  ⟨.fn .touchDoubt, 0x21, false, 0x0020, 0x0, 1, .rc⟩,
  ⟨.fn .touchExpired, 0x21, false, 0x0024, 0x0, 1, .rc⟩,
  ⟨.fn .touchHops, 0x21, false, 0x0028, 0x0, 1, .rc⟩,
  ⟨.fn .touchNoisy, 0x21, false, 0x002C, 0x0, 1, .rc⟩,
  ⟨.fn .touchDropped, 0x21, false, 0x0030, 0x0, 1, .rc⟩,
  ⟨.fn .touchOverflow, 0x21, false, 0x0034, 0x0, 1, .rc⟩,
  ⟨.fn .touchSuspect, 0x21, false, 0x0038, 0x0, 1, .ro⟩,
  ⟨.fn .touchLastAge, 0x21, false, 0x003C, 0x0, 1, .ro⟩,
  ⟨.fn .touchTest, 0x21, false, 0x0040, 0x0, 1, .ro⟩,
  ⟨.fn .touchNoise, 0x21, false, 0x0060, 0x4, 8, .ro⟩,
  ⟨.fn .touchXThresh, 0x21, true, 0x0000, 0x0, 1, .rw⟩,
  ⟨.fn .touchXSelf, 0x21, true, 0x0004, 0x0, 1, .rw⟩,
  ⟨.fn .touchXSuspect, 0x21, true, 0x0008, 0x0, 1, .rw⟩,
  ⟨.fn .touchXHop, 0x21, true, 0x000C, 0x0, 1, .rw⟩,
  ⟨.fn .touchXAdapt, 0x21, true, 0x0010, 0x0, 1, .rw⟩,
  ⟨.fn .touchXCycles, 0x21, true, 0x0014, 0x0, 1, .rw⟩,
  ⟨.fn .touchXTest, 0x21, true, 0x0018, 0x0, 1, .rw⟩,
  ⟨.fn .touchXRefcapNom, 0x21, true, 0x001C, 0x0, 1, .rw⟩,
  ⟨.fn .touchXFreq, 0x21, true, 0x0020, 0x4, 8, .rw⟩,
  ⟨.fn .touchXIgnored, 0x21, true, 0x0040, 0x0, 1, .rc⟩]

/-- Registers of TIMING. -/
def rowsTiming : List RegRow := [
  ⟨.fn .timState, 0x30, false, 0x0000, 0x0, 1, .ro⟩,
  ⟨.fn .timCtl, 0x30, false, 0x0004, 0x0, 1, .rw⟩,
  ⟨.fn .timNow, 0x30, false, 0x0008, 0x0, 1, .ro⟩,
  ⟨.fn .timNowFrac, 0x30, false, 0x000C, 0x0, 1, .ro⟩,
  ⟨.fn .timIncrLo, 0x30, false, 0x0010, 0x0, 1, .ro⟩,
  ⟨.fn .timIncrHi, 0x30, false, 0x0014, 0x0, 1, .ro⟩,
  ⟨.fn .timHostIncrLo, 0x30, false, 0x0018, 0x0, 1, .rw⟩,
  ⟨.fn .timHostIncrHi, 0x30, false, 0x001C, 0x0, 1, .rw⟩,
  ⟨.fn .timFreqErr, 0x30, false, 0x0020, 0x0, 1, .ro⟩,
  ⟨.fn .timPhaseErr, 0x30, false, 0x0024, 0x0, 1, .ro⟩,
  ⟨.fn .timHoldS, 0x30, false, 0x0028, 0x0, 1, .ro⟩,
  ⟨.fn .timWrap, 0x30, false, 0x002C, 0x0, 1, .ro⟩,
  ⟨.fn .timWtrLeft, 0x30, false, 0x0030, 0x0, 1, .ro⟩,
  ⟨.fn .refCfg, 0x30, false, 0x0040, 0x10, 6, .rw⟩,
  ⟨.fn .refNom, 0x30, false, 0x0044, 0x10, 6, .rw⟩,
  ⟨.fn .refStatus, 0x30, false, 0x0048, 0x10, 6, .ro⟩,
  ⟨.fn .refOffset, 0x30, false, 0x004C, 0x10, 6, .ro⟩,
  ⟨.fn .grpRate, 0x30, false, 0x00A0, 0x10, 8, .ro⟩,
  ⟨.fn .grpPhase, 0x30, false, 0x00A4, 0x10, 8, .ro⟩,
  ⟨.fn .grpAnchor, 0x30, false, 0x00A8, 0x10, 8, .ro⟩,
  ⟨.fn .grpNext, 0x30, false, 0x00AC, 0x10, 8, .ro⟩,
  ⟨.fn .capCtl, 0x30, false, 0x0120, 0x10, 16, .rw⟩,
  ⟨.fn .capTime, 0x30, false, 0x0124, 0x10, 16, .ro⟩,
  ⟨.fn .capSub, 0x30, false, 0x0128, 0x10, 16, .ro⟩,
  ⟨.fn .capCount, 0x30, false, 0x012C, 0x10, 16, .rc⟩,
  ⟨.fn .pulseCtl, 0x30, false, 0x0220, 0x10, 4, .rw⟩,
  ⟨.fn .pulseStart, 0x30, false, 0x0224, 0x10, 4, .rw⟩,
  ⟨.fn .pulsePeriod, 0x30, false, 0x0228, 0x10, 4, .rw⟩,
  ⟨.fn .pulseWidth, 0x30, false, 0x022C, 0x10, 4, .rw⟩,
  ⟨.fn .clkoutCtl, 0x30, false, 0x0260, 0x8, 2, .rw⟩,
  ⟨.fn .clkoutFreq, 0x30, false, 0x0264, 0x8, 2, .rw⟩,
  ⟨.fn .timXLimits, 0x30, true, 0x0000, 0x0, 1, .rw⟩,
  ⟨.fn .timXTimes, 0x30, true, 0x0004, 0x0, 1, .rw⟩,
  ⟨.fn .timXSlew, 0x30, true, 0x0008, 0x0, 1, .rw⟩,
  ⟨.fn .timXHold, 0x30, true, 0x000C, 0x0, 1, .rw⟩,
  ⟨.fn .timXHostMs, 0x30, true, 0x0010, 0x0, 1, .rw⟩,
  ⟨.fn .timXIgnored, 0x30, true, 0x0014, 0x0, 1, .rc⟩]

/-- Registers of JOURNAL. -/
def rowsJournal : List RegRow := [
  ⟨.bus .jrnCtl, 0x31, false, 0x0000, 0x0, 1, .rw⟩,
  ⟨.bus .jrnStatus, 0x31, false, 0x0004, 0x0, 1, .w1c⟩,
  ⟨.bus .jrnBaseLo, 0x31, false, 0x0008, 0x0, 1, .rw⟩,
  ⟨.bus .jrnBaseHi, 0x31, false, 0x000C, 0x0, 1, .rw⟩,
  ⟨.bus .jrnSize, 0x31, false, 0x0010, 0x0, 1, .rw⟩,
  ⟨.bus .jrnSeq, 0x31, false, 0x0014, 0x0, 1, .ro⟩,
  ⟨.bus .jrnHead, 0x31, false, 0x0018, 0x0, 1, .ro⟩,
  ⟨.bus .jrnCkptSeq, 0x31, false, 0x001C, 0x0, 1, .ro⟩,
  ⟨.bus .jrnCkptOfs, 0x31, false, 0x0020, 0x0, 1, .ro⟩,
  ⟨.bus .jrnCkptLen, 0x31, false, 0x0024, 0x0, 1, .ro⟩,
  ⟨.bus .jrnRate, 0x31, false, 0x0028, 0x0, 1, .ro⟩,
  ⟨.bus .jrnGaps, 0x31, false, 0x002C, 0x0, 1, .rc⟩,
  ⟨.bus .frBaseLo, 0x31, false, 0x0030, 0x0, 1, .rw⟩,
  ⟨.bus .frBaseHi, 0x31, false, 0x0034, 0x0, 1, .rw⟩,
  ⟨.bus .frSlotSize, 0x31, false, 0x0038, 0x0, 1, .rw⟩,
  ⟨.bus .frStatus, 0x31, false, 0x003C, 0x0, 1, .ro⟩,
  ⟨.bus .frSlotTrigger, 0x31, false, 0x0040, 0x10, 4, .ro⟩,
  ⟨.bus .frSlotCause, 0x31, false, 0x0044, 0x10, 4, .ro⟩,
  ⟨.bus .frSlotLen, 0x31, false, 0x0048, 0x10, 4, .ro⟩,
  ⟨.bus .frSlotSeq, 0x31, false, 0x004C, 0x10, 4, .ro⟩,
  ⟨.bus .rerunState, 0x31, false, 0x0080, 0x0, 1, .ro⟩,
  ⟨.bus .rerunEqual, 0x31, false, 0x0084, 0x0, 1, .ro⟩,
  ⟨.bus .rerunDiffRows, 0x31, false, 0x0088, 0x0, 1, .ro⟩,
  ⟨.bus .rerunNc, 0x31, false, 0x008C, 0x0, 1, .ro⟩,
  ⟨.bus .jrnXCkpt, 0x31, true, 0x0000, 0x0, 1, .rw⟩,
  ⟨.bus .jrnXFr, 0x31, true, 0x0004, 0x0, 1, .rw⟩,
  ⟨.bus .jrnXIgnored, 0x31, true, 0x0008, 0x0, 1, .rc⟩]

/-- Registers of TANDEM. -/
def rowsTandem : List RegRow := [
  ⟨.fn .tndCfg, 0x32, false, 0x0000, 0x0, 1, .ro⟩,
  ⟨.fn .tndState, 0x32, false, 0x0004, 0x0, 1, .ro⟩,
  ⟨.fn .tndEpoch, 0x32, false, 0x0008, 0x0, 1, .ro⟩,
  ⟨.fn .tndPartnerEpoch, 0x32, false, 0x000C, 0x0, 1, .ro⟩,
  ⟨.fn .tndHbAge, 0x32, false, 0x0010, 0x0, 1, .ro⟩,
  ⟨.fn .tndLagUs, 0x32, false, 0x0014, 0x0, 1, .ro⟩,
  ⟨.fn .tndTimeOfs, 0x32, false, 0x0018, 0x0, 1, .ro⟩,
  ⟨.fn .tndMirrorKb, 0x32, false, 0x001C, 0x0, 1, .rc⟩,
  ⟨.fn .tndFollowMiss, 0x32, false, 0x0020, 0x0, 1, .rc⟩,
  ⟨.fn .tndTakeovers, 0x32, false, 0x0024, 0x0, 1, .ro⟩,
  ⟨.fn .tndLastTakeover, 0x32, false, 0x0028, 0x0, 1, .ro⟩,
  ⟨.fn .tndMirBaseLo, 0x32, false, 0x0030, 0x10, 16, .rw⟩,
  ⟨.fn .tndMirBaseHi, 0x32, false, 0x0034, 0x10, 16, .rw⟩,
  ⟨.fn .tndMirSize, 0x32, false, 0x0038, 0x10, 16, .rw⟩,
  ⟨.fn .tndMirCtl, 0x32, false, 0x003C, 0x10, 16, .rw⟩,
  ⟨.fn .tndXTimes, 0x32, true, 0x0000, 0x0, 1, .rw⟩,
  ⟨.fn .tndXTimeTol, 0x32, true, 0x0004, 0x0, 1, .rw⟩,
  ⟨.fn .tndXIgnored, 0x32, true, 0x0008, 0x0, 1, .rc⟩]

/-- Registers of THERMAL. -/
def rowsThermal : List RegRow := [
  ⟨.fn .thmState, 0x33, false, 0x0000, 0x0, 1, .ro⟩,
  ⟨.fn .thmTemp, 0x33, false, 0x0004, 0x0, 1, .ro⟩,
  ⟨.fn .thmWardenTemp, 0x33, false, 0x0008, 0x0, 1, .ro⟩,
  ⟨.fn .thmSensorFail, 0x33, false, 0x000C, 0x0, 1, .ro⟩,
  ⟨.fn .thmFault, 0x33, false, 0x0010, 0x0, 1, .ro⟩,
  ⟨.fn .thmFaultTime, 0x33, false, 0x0014, 0x0, 1, .ro⟩,
  ⟨.fn .thmReset, 0x33, false, 0x0018, 0x0, 1, .ro⟩,
  ⟨.fn .thmCmd, 0x33, false, 0x001C, 0x0, 1, .wo⟩,
  ⟨.fn .thmVdd, 0x33, false, 0x0020, 0x0, 1, .ro⟩,
  ⟨.fn .thmWear, 0x33, false, 0x0024, 0x0, 1, .ro⟩,
  ⟨.fn .lifeHours, 0x33, false, 0x0028, 0x0, 1, .ro⟩,
  ⟨.fn .lifeEqHours, 0x33, false, 0x002C, 0x0, 1, .ro⟩,
  ⟨.fn .lifeUsed, 0x33, false, 0x0030, 0x0, 1, .ro⟩,
  ⟨.fn .thmSensor, 0x33, false, 0x0040, 0x4, 32, .ro⟩,
  ⟨.fn .thmXLevels, 0x33, true, 0x0000, 0x0, 1, .rw⟩,
  ⟨.fn .thmXTimes, 0x33, true, 0x0004, 0x0, 1, .rw⟩,
  ⟨.fn .thmXRelease, 0x33, true, 0x0008, 0x0, 1, .rw⟩,
  ⟨.fn .thmXRecover, 0x33, true, 0x000C, 0x0, 1, .rw⟩,
  ⟨.fn .thmXWear, 0x33, true, 0x0010, 0x0, 1, .rw⟩,
  ⟨.fn .thmXIgnored, 0x33, true, 0x0014, 0x0, 1, .rc⟩]

/-- The register table of one function. -/
def rowsOf (cap : Nat) : List RegRow :=
  match cap with
  | 0x01 => rowsDeviceCore
  | 0x02 => rowsRings
  | 0x03 => rowsFences
  | 0x04 => rowsAccess
  | 0x05 => rowsMemory
  | 0x06 => rowsCompress
  | 0x07 => rowsCheck
  | 0x10 => rowsSources
  | 0x11 => rowsDecode
  | 0x12 => rowsCompose
  | 0x13 => rowsFresh
  | 0x14 => rowsHeads
  | 0x15 => rowsEncode
  | 0x20 => rowsPorts
  | 0x21 => rowsTouch
  | 0x30 => rowsTiming
  | 0x31 => rowsJournal
  | 0x32 => rowsTandem
  | 0x33 => rowsThermal
  | 0x34 => rowsStructure
  | 0x35 => rowsDebug
  | _ => []

/-- The row and sub-index of the register at offset `off` of a block, when the offset is not reserved. -/
def findReg (cap : Nat) (expert : Bool) (off : Nat) : Option (RegRow × Nat) :=
  ((rowsOf cap).filterMap fun r =>
    if r.expert != expert then none
    else if off < r.off then none
    else if r.stride = 0 then (if off = r.off then some (r, 0) else none)
    else if (off - r.off) % r.stride = 0 ∧ (off - r.off) / r.stride < r.count then
      some (r, (off - r.off) / r.stride)
    else none).head?

/-- The reset value of a register (the tables' Reset column); a value that comes from the structure, OTP,
the store or a strap is written when that is loaded (DESIGN CHOICE, log 6: 0 until then). -/
def BReg.reset (r : BReg) (inst sub : Nat) : Word :=
  match r with
  | .fnCtl => if inst = 2 then 0 else 1
  | .coreId => 0x00B17264
  | .corePort => BitVec.ofNat 32 (inst % 4)
  | .coreEvtRing => 0x100
  | .coreXPtmPeriod => 0x0000000A
  | .ringCtl => BitVec.ofNat 32 (0x600 + ((inst % 64) + 1) * 0x10000)
  | .ringXBatch => 0x00000008
  | .accMaster => BitVec.ofNat 32 inst
  | .accXNoticeWindow => 0x0000000A
  | .memPartSizeLo => if sub = 0 then 0x08000000 else 0
  | .memPartCtl => if sub = 0 then 0x000F0047 else 0
  | .memXScrubHours => 0x00000018
  | .memXTrackMs => 0x00000064
  | .memXWeakRow => 0x00000004
  | .jrnCtl => 0x00000003
  | .jrnXCkpt => 0x000003E8
  | .jrnXFr => 0x001E003C
  | _ => 0

/-- The reset value of a register (the tables' Reset column); a value that comes from the structure, OTP,
the store or a strap is written when that is loaded (DESIGN CHOICE, log 6: 0 until then). -/
def FReg.reset (r : FReg) (_inst sub : Nat) : Word :=
  match r with
  | .structXConfirm => 0x00000258
  | .structXDrain => 0x00000002
  | .srcFormat => 0x00000003
  | .srcTest => 0x00640001
  | .srcTestColour => 0x00808080
  | .srcXFillMs => 0x00000064
  | .cmpXEffort => 0x00000001
  | .cmpXNoGainPct => 0x00000064
  | .decRing => 0x00000100
  | .decStatus => 0x0000007C
  | .decXConcealMax => 0x000001F4
  | .decXSkip => 0x00000001
  | .composeWb => 0x00000010
  | .cursorCtl => 0x07D00000
  | .layerSrc => 0x000000FF
  | .composeXShed => 0x00021008
  | .composeXRecompose => 0x00000001
  | .composeXM0 => 0x00001000
  | .composeXM2 => 0x00001000
  | .composeXM4 => 0x00001000
  | .freshLayerLimit => 0x8000
  | .freshXNoLiveHold => 0x000003E8
  | .freshXFlagFill => 0x00000001
  | .headXAmbLow => 0x012C0190
  | .headXAmbHigh => 0x17701F40
  | .headXAmbDwell => 0x000007D0
  | .encCtl => 0x00000100
  | .encQp => 0x0000001E
  | .encPicCap => 0x000F4240
  | .encSecCap => 0x004C4B40
  | .encRing => 0x00000100
  | .encXRate => 0x00000004
  | .portRetry => 0x000003E8
  | .portXPhaseMs => 0x00000014
  | .portXLock => 0x00001003
  | .chkXPolyLo => 0x1EDC6F41
  | .chkXInitLo => 0xFFFFFFFF
  | .chkXXoroutLo => 0xFFFFFFFF
  | .chkXShape => 0x00000320
  | .linkState => 0x00000030
  | .linkStatusAge => 0x0000FFFF
  | .linkXTimeMs => 0x00000001
  | .linkXStatusMs => 0x00000064
  | .touchCtl => 0x00000007
  | .touchRing => 0x00000100
  | .touchXThresh => 0x00500078
  | .touchXSelf => 0x0032003C
  | .touchXSuspect => 0x002800C8
  | .touchXHop => 0x0300F01E
  | .touchXAdapt => 0x02580064
  | .touchXCycles => 0x00100010
  | .touchXTest => 0x000A0E10
  | .touchXFreq => BitVec.ofNat 32 (0x96 + 0x19 * sub)
  | .timState => 0x00000770
  | .timCtl => 0x00000001
  | .timIncrHi => 0x00000005
  | .timHostIncrHi => 0x00000005
  | .refNom => 0x00989680
  | .refOffset => 0x80000000
  | .capCtl => 0x0000001F
  | .pulsePeriod => 0x3B9ACA00
  | .pulseWidth => 0x00002710
  | .clkoutFreq => 0x00989680
  | .timXLimits => 0x4E202710
  | .timXTimes => 0x003C000A
  | .timXSlew => 0x000003E8
  | .timXHold => 0x003C3840
  | .timXHostMs => 0x00002710
  | .tndState => 0x38
  | .tndHbAge => 0xFFFFFFFF
  | .tndXTimes => 0x13880005
  | .tndXTimeTol => 0x000003E8
  | .thmXLevels => 0x00006E64
  | .thmXTimes => 0x01F407D0
  | .thmXRelease => 0x000A0005
  | .thmXRecover => 0x003C5501
  | .thmXWear => 0x00000028
  | _ => 0

end Sys2Proof.Machine
end

