-- ==== Sys2Proof/Machine/Bus.lean ====
section
/-! DEFINITION. The part of the state that every function shares: device time, the registers of the bus side,
device memory and its queues, the access check units, the host ports, the rings, the journal buffer and the
messages that have left the device. Plain data. -/

namespace Sys2Proof.Machine

/-- What an event carries (spec/03 R108): the leading payload bytes whose place the spec states, and the
values the event's table names without a place. -/
structure Payload where
  known : List Byte
  fields : List Nat
  deriving DecidableEq, Repr

/-- An event before it is written into an event ring (spec/03 R108, R114). -/
structure EvRec where
  typ : Nat
  inst : Nat
  time : Word
  frame : Option Word
  sev : Nat
  pay : Payload
  deriving DecidableEq, Repr

/-- Completion status of a host read (spec/03 R80, R81; spec/05 R153). -/
inductive ReadStatus where
  | ok | unsupported | abort | poisoned
  deriving DecidableEq, Repr

/-- What leaves the device, in order of leaving. A packet comes with its markers and with the line bits of each lane of the map; a
lane-layer marker with its code, the block that follows it, and the line bits of each lane that carries it (spec/12 R362 to R369); a test
pattern with where it is looped and the first bits of each lane (R385, R386). `pins`: the pins take the states of a column of the table of
spec/17 R556, 0 for a module unpowered or in POWER_ON reset, 1 for the fabric die in reset. -/
inductive Out where
  | msix (port vector : Nat)
  | hostRead (port : Nat) (status : ReadStatus) (data : List Byte)
  | memRead (master : Nat) (ok : Bool) (data : List Byte)
  | memWritten (master : Nat) (ok : Bool)
  | packet (port : Nat) (bytes : List Byte) (marks : List (Nat × Nat)) (lines : List (List Bool))
  | marker (port code : Nat) (block : List Byte) (lines : List (Nat × List Bool))
  | idleMarkers (port : Nat)
  | electricalIdle (port : Nat)
  | dataIdle (port : Nat)
  | safeWire (port : Nat)
  | creditStop (port : Nat)
  | injected (port lane count spacing : Nat)
  | testPattern (port pattern : Nat) (loopback : Bool) (lines : List (Nat × List Bool))
  | pulse (p : Nat) (level : Bool)
  | clkoutStopped
  | avsRequest (mv : Nat)
  | smbus (ack : Bool) (bytes : List Byte)
  | pins (column : Nat)
  | faultN (low : Bool)
  deriving DecidableEq, Repr

/-- A write that a pseudo-channel queue has accepted and the array has not taken (spec/05 R148). -/
structure QWrite where
  master : Nat
  addr : Nat
  data : List Byte
  deriving DecidableEq, Repr

/-- A notice window of an access check unit (spec/04 R126). -/
structure Notice where
  opened : Nat
  start : Word
  first : Nat
  count : Nat
  deriving DecidableEq, Repr

/-- What an access check unit holds beside its registers: pending BASE and SIZE halves (R121), syncs in
progress as (token, starting tick), oldest first (R127), the two notice windows (R126). -/
structure AccSt where
  pend : List (Nat × Word)
  syncs : List (Nat × Nat)
  rwin : Option Notice
  wwin : Option Notice
  deriving DecidableEq, Repr

/-- A barrier in progress (spec/03 R105): its token and the commands it waits for, as (ring, entry count). -/
structure Barrier where
  token : Nat
  waits : List (Nat × Nat)
  deriving DecidableEq, Repr

/-- What a host port holds beside its registers (spec/03 R82, R105, R111, R114; log 70): `msix` the words of its MSI-X table by
number, `pba` the vectors whose pending bit is set (R79), `aer` the refused and poisoned reads logged for Advanced Error Reporting as
(1 Completer Abort or 2 poisoned, device address), oldest first (spec/04 R124, spec/05 R153), `ptmTick` the tick of the last PTM
dialogue since the host enabled PTM. -/
structure HostSt where
  underReset : Bool
  evq : List EvRec
  lostNext : Bool
  barriers : List Barrier
  perst : Bool
  msix : Tab Word
  pba : List Nat
  aer : List (Nat × Nat)
  ptmTick : Option Nat
  deriving DecidableEq, Repr

/-- Where a fetched entry stands in the steps of spec/03 R101 (DEDUCED, log 69). -/
inductive EPhase where
  | waitBefore | waitFence | ready | running | done
  deriving DecidableEq, Repr

/-- An entry the device has fetched from a ring (spec/03 R97, R99). `since` is the tick its wait began; `met` once its wait of
step 2 has been met, which it stays (R107). -/
structure FEntry where
  k : Nat
  data : List Byte
  phase : EPhase
  since : Nat
  met : Bool
  deriving DecidableEq, Repr

/-- What a ring holds beside its registers. -/
structure RingSt where
  fetched : List FEntry
  seq : Nat
  lostBefore : Bool
  holdUntil : Nat
  due : Bool
  dropped : Nat
  deriving DecidableEq, Repr

/-- What every function instance holds beside FN_CTL: the tick it entered STOPPING, and whether STOP_SLOW was
raised for it (spec/03 R92). -/
structure FnSt where
  stopTick : Nat
  slow : Bool
  deriving DecidableEq, Repr

/-- A journal record (spec/16 R499); `body` stands from byte 16. -/
structure JRec where
  kind : Nat
  flags : Nat
  seq : Word
  time : Word
  cap : Nat
  inst : Nat
  body : List Byte
  deriving DecidableEq, Repr

/-- The memory controller beside its registers: poisoned 64-byte words (spec/05 R153), corrections of the scrub
pass by row (R156), low-reading streaks (R157, R158), last UNMAPPED tick (R145), corrections of the second
(R166) and the tick it began, scrub corrections and poisonings, ticks of entry to TRAINING or WARMING and of the end of training, bands with stored training values,
pseudo-channels held for a retrain (R162) and the tick of the last drift measurement. `soft` are the 64-bit data words, by address / 8,
whose 72 bits in the array hold one bit that is not as it was written (R152); `weak` the rows reported in this pass (DESIGN CHOICE, log 71). -/
structure MemX where
  poison : List Nat
  soft : List Nat
  rowCe : List (Nat × Nat)
  weak : List Nat
  low82 : Nat × Nat
  low100 : Nat × Nat
  unmappedAt : Option Nat
  ceSec : Nat × Nat
  ceTick : Nat
  scrubAddr : Nat
  scrubCe : Nat
  scrubUe : Nat
  scrubHours : Nat
  trainTick : Nat
  trainEnd : Nat
  stored : List Nat
  held : List (Nat × Nat)
  trackTick : Nat
  deriving DecidableEq, Repr

/-- The shared part of the state. `time` and `frac` are TIME_NS and its fraction (spec/15 R472); `ticks` counts
REFCLK ticks for every elapsed-time counter (spec/00 R6). -/
structure Bus where
  time : Word
  frac : Word
  ticks : Nat
  regs : Tab Word
  pairLo : List (Nat × Word)
  froz : List (Nat × Word)
  mem : List Host.Cell
  wq : List QWrite
  mx : MemX
  acc : Tab AccSt
  hosts : Tab HostSt
  rings : Tab RingSt
  fns : Tab FnSt
  jbuf : List JRec
  jlost : Nat
  jlostFirst : Word
  jgap : Bool
  outbox : List EvRec
  wire : List Out
  free : Nat
  deriving DecidableEq, Repr

def AccSt.init : AccSt := { pend := [], syncs := [], rwin := none, wwin := none }
def HostSt.init : HostSt :=
  { underReset := false, evq := [], lostNext := false, barriers := [], perst := true, msix := [], pba := [], aer := [], ptmTick := none }
def RingSt.init : RingSt := { fetched := [], seq := 0, lostBefore := false, holdUntil := 0, due := false, dropped := 0 }
def FnSt.init : FnSt := { stopTick := 0, slow := false }
def MemX.init : MemX :=
  { poison := [], soft := [], rowCe := [], weak := [], low82 := (0, 0), low100 := (0, 0), unmappedAt := none,
    ceSec := (0, 0), ceTick := 0, scrubAddr := 0, scrubCe := 0, scrubUe := 0, scrubHours := 24, trainTick := 0, trainEnd := 0, stored := [],
    held := [], trackTick := 0 }

/-- The shared part after reset: no register differs from its reset value, nothing is queued (DESIGN CHOICE, log 7). -/
def Bus.init : Bus :=
  { time := 0, frac := 0, ticks := 0, regs := [], pairLo := [], froz := [], mem := [], wq := [], mx := MemX.init,
    acc := [], hosts := [], rings := [], fns := [], jbuf := [], jlost := 0, jlostFirst := 0, jgap := false,
    outbox := [], wire := [], free := 0 }

/-- The key of a bus register in the table `regs`. -/
def BReg.key (r : BReg) (i j : Nat) : Nat := Nat.pair (Nat.pair r.ctorIdx i) j

end Sys2Proof.Machine
end

