-- ==== Sys2Proof/Machine/Plan.lean ====
section
/-! DEFINITION. The structure the device runs: the plan records of spec/02 R35 to R51 as data. -/

namespace Sys2Proof.Machine

/-- PORT_PLAN entry (R35). -/
structure PortEnt where
  role : Nat
  rate : Nat
  zone : Nat
  holdCap : Nat
  deriving DecidableEq, Repr

/-- HEAD_PLAN entry (R36). -/
structure HeadEnt where
  head : Nat
  primary : Nat
  secondary : Nat
  group : Nat
  maxWidth : Nat
  maxHeight : Nat
  minLinePs : Nat
  bits : Nat
  maxDepth : Nat
  critical : Bool
  degradedOk : Bool
  writeback : Bool
  zone : Nat
  deriving DecidableEq, Repr

/-- CADENCE_PLAN entry (R37). -/
structure CadEnt where
  enable : Bool
  zone : Nat
  rateMin : Nat
  rateMax : Nat
  phaseNs : Nat
  deriving DecidableEq, Repr

/-- LAYER_POOL entry (R38). -/
structure UnitEnt where
  owner : Nat
  zone : Nat
  deriving DecidableEq, Repr

/-- SOURCE_PLAN entry (R39). -/
structure SrcEnt where
  source : Nat
  kind : Nat
  attach : Nat
  buffers : Nat
  maxWidth : Nat
  maxHeight : Nat
  store : Nat
  zone : Nat
  partition : Nat
  deriving DecidableEq, Repr

/-- DECODE_PLAN stream entry (R40). -/
structure StreamEnt where
  source : Nat
  codec : Nat
  host : Nat
  dpb : Nat
  lumaKps : Nat
  deriving DecidableEq, Repr

/-- ENCODE_PLAN entry (R41). -/
structure EncEnt where
  input : Nat
  host : Nat
  zone : Nat
  main10 : Bool
  maxWidth : Nat
  maxHeight : Nat
  maxRate : Nat
  deriving DecidableEq, Repr

/-- MEMORY_PLAN entry (R42). -/
structure PartEnt where
  part : Nat
  stks : Nat
  grain : Nat
  zeroAtLoad : Bool
  base : Nat
  size : Nat
  zone : Nat
  deriving DecidableEq, Repr

/-- RING_PLAN entry (R44). -/
structure RingEnt where
  host : Nat
  zone : Nat
  maxLog2 : Nat
  deriving DecidableEq, Repr

/-- ACCESS_DEFAULTS entry (R45). -/
structure AccEnt where
  master : Nat
  region : Nat
  read : Bool
  write : Bool
  lock : Bool
  base : Nat
  size : Nat
  deriving DecidableEq, Repr

/-- FRESH_DEFAULTS override (R46); `head` and `source` 0xFF match any. -/
structure FreshEnt where
  head : Nat
  source : Nat
  limit : Nat
  floor : Nat
  ceiling : Nat
  deriving DecidableEq, Repr

/-- TOUCH_PLAN entry (R48). -/
structure PanelEnt where
  panel : Nat
  port : Nat
  head : Nat
  host : Nat
  cols : Nat
  rows : Nat
  maxKeys : Nat
  maxContacts : Nat
  zone : Nat
  reportHz : Nat
  ageLimit : Nat
  maxContactS : Nat
  deriving DecidableEq, Repr

/-- TANDEM_PLAN (R49). -/
structure TandemEnt where
  pairId : Nat
  portA : Nat
  portB : Nat
  preferred : Nat
  deriving DecidableEq, Repr

/-- ZONE_PLAN entry (R50). -/
structure ZoneEnt where
  zone : Nat
  allowed : Bool
  tag : Nat
  deriving DecidableEq, Repr

/-- The running structure (R33). `loaded` is false in NO_STRUCTURE (R68) and before the load. -/
structure Plan where
  loaded : Bool
  ports : List PortEnt
  heads : List HeadEnt
  cadence : List CadEnt
  units : List UnitEnt
  sources : List SrcEnt
  decMask : Nat
  streams : List StreamEnt
  encMask : Nat
  encs : List EncEnt
  traffic : Nat
  traffic0 : Nat
  traffic1 : Nat
  parts : List PartEnt
  rings : List RingEnt
  access : List AccEnt
  freshLimit : Nat
  freshFloor : Nat
  freshCeiling : Nat
  staleColour : Nat
  degradedColour : Nat
  fresh : List FreshEnt
  panels : List PanelEnt
  tandem : Option TandemEnt
  zones : List ZoneEnt
  deriving DecidableEq, Repr

/-- No structure (R68) (DESIGN CHOICE, log 6). -/
def Plan.none : Plan :=
  { loaded := false, ports := [], heads := [], cadence := [], units := [], sources := [], decMask := 0,
    streams := [], encMask := 0, encs := [], traffic := 0, traffic0 := 0, traffic1 := 0, parts := [], rings := [],
    access := [], freshLimit := 0, freshFloor := 0, freshCeiling := 0, staleColour := 0, degradedColour := 0,
    fresh := [], panels := [], tandem := Option.none, zones := [] }

def Plan.port (p : Plan) (n : Nat) : Option PortEnt := p.ports[n]?
def Plan.head (p : Plan) (n : Nat) : Option HeadEnt := p.heads.find? fun e => e.head == n
def Plan.source (p : Plan) (n : Nat) : Option SrcEnt := p.sources.find? fun e => e.source == n
def Plan.stream (p : Plan) (n : Nat) : Option StreamEnt := p.streams.find? fun e => e.source == n
def Plan.panel (p : Plan) (n : Nat) : Option PanelEnt := p.panels.find? fun e => e.panel == n
def Plan.part (p : Plan) (n : Nat) : Option PartEnt := p.parts.find? fun e => e.part == n

/-- Base and size of a partition; partition 0 is the staging partition of every structure (R43). -/
def Plan.span (p : Plan) (n : Nat) : Option (Nat × Nat) :=
  if n = 0 then some (0, 0x08000000) else (p.part n).map fun e => (e.base, e.size)
def Plan.ring (p : Plan) (n : Nat) : Option RingEnt :=
  match p.rings[n]? with
  | some e => if e.host < 4 then some e else Option.none
  | Option.none => Option.none
def Plan.cad (p : Plan) (n : Nat) : Option CadEnt :=
  match p.cadence[n]? with
  | some e => if e.enable then some e else Option.none
  | Option.none => Option.none
/-- The entry of an encoder core that CORE_MASK enables (R41). -/
def Plan.enc (p : Plan) (n : Nat) : Option EncEnt := if p.encMask.testBit n then p.encs[n]? else Option.none
/-- The role of a port (R35), 0 where the structure gives none. -/
def Plan.role (p : Plan) (n : Nat) : Nat := ((p.port n).map PortEnt.role).getD 0
/-- The port that owns a ring, if the structure has the ring (R44). -/
def Plan.ringHost (p : Plan) (n : Nat) : Option Nat := (p.ring n).map RingEnt.host
/-- The head whose primary or secondary port this is. -/
def Plan.headOfPort (p : Plan) (n : Nat) : Option HeadEnt :=
  p.heads.find? fun e => e.primary == n || e.secondary == n
/-- The tiles of a rectangle of pixels, counted by spec/00 R7. -/
def tileCount (w h : Nat) : Nat := cdiv w 64 * cdiv h 64

end Sys2Proof.Machine
end

