-- ==== Sys2Proof/Machine/BusOps.lean ====
section
/-! DEFINITION. The named operations over the shared state: registers, events, journal records, device memory
with its access check units, fence objects, rings, MSI-X. Every meaning reaches those through these. -/

namespace Sys2Proof.Machine

/-! ### Registers -/

/-- The value a bus register holds; its reset value where the table lists none. -/
def Bus.reg (b : Bus) (r : BReg) (i j : Nat) : Word := tabGet (r.reset i j) b.regs (r.key i j)

/-- Set a bus register. -/
def Bus.setReg (b : Bus) (r : BReg) (i j : Nat) (v : Word) : Bus :=
  { b with regs := tabSet (r.reset i j) b.regs (r.key i j) v }

/-- A field of a bus register (DEDUCED, log 17). -/
def Bus.fld (b : Bus) (r : BReg) (i j lo n : Nat) : Nat := bf (b.reg r i j) lo n

/-- Set a field of a bus register (DESIGN CHOICE, log 9). -/
def Bus.setFld (b : Bus) (r : BReg) (i j lo n v : Nat) : Bus := b.setReg r i j (setBf (b.reg r i j) lo n v)

/-- Add to a counting register, modulo 2^32 (log 9). -/
def Bus.bump (b : Bus) (r : BReg) (i j n : Nat) : Bus := b.setReg r i j (b.reg r i j + w32 n)

/-- A 64-bit pair (spec/00 R2), low half at the lower offset. -/
def Bus.pair (b : Bus) (lo hi : BReg) (i j : Nat) : Nat := (b.reg lo i j).toNat + (b.reg hi i j).toNat * 2 ^ 32

def Bus.setPair (b : Bus) (lo hi : BReg) (i j v : Nat) : Bus :=
  (b.setReg lo i j (w32 v)).setReg hi i j (w32 (v / 2 ^ 32))

/-! ### Messages, events, free values, the journal -/

/-- A message or a pin change leaves the device. -/
def Bus.send (b : Bus) (o : Out) : Bus := { b with wire := b.wire ++ [o] }

/-- Raise an event of the given instant and frame (spec/03 R108); `Bus.settle` delivers it. -/
def Bus.emitAt (b : Bus) (time : Word) (frame : Option Word) (typ inst sev : Nat) (pay : Payload) : Bus :=
  { b with outbox := b.outbox ++ [⟨typ, inst, time, frame, sev, pay⟩] }

/-- Raise an event now. -/
def Bus.emit (b : Bus) (typ inst sev : Nat) (pay : Payload) : Bus := b.emitAt b.time none typ inst sev pay

/-- A payload of named values whose places the spec does not state (DESIGN CHOICE, log 8). -/
def pay (fields : List Nat) : Payload := { known := [], fields := fields }

/-- A payload of stated bytes (DESIGN CHOICE, log 8). -/
def payB (bytes : List Byte) : Payload := { known := bytes, fields := [] }

/-- A DEVICE_CORE payload: bytes 0 to 1 are the CAP_ID (spec/03, under R116). -/
def payCap (cap : Nat) (fields : List Nat) : Payload := { known := le 2 cap, fields := fields }

/-- A free value (log 3); the counter advances so that each is another. -/
def Bus.freeWord (b : Bus) : Word × Bus := (Config.freeWord b.free, { b with free := b.free + 1 })

/-- Length in bytes of a record (spec/16 R499): 32 to 256, a multiple of 16. -/
def JRec.length (r : JRec) : Nat := max 32 (cdiv (16 + r.body.length + 8) 16 * 16)

/-- The bytes of the on-die buffer that its records take (spec/16 R501). -/
def jbufBytes (rs : List JRec) : Nat := rs.foldl (fun n r => n + r.length) 0

/-- Keep the newest records within 256 KiB, counting those overwritten (spec/16 R501). -/
def Bus.jtrim : Nat → Bus → Bus
  | 0, b => b
  | fuel + 1, b =>
    match b.jbuf with
    | [] => b
    | r :: rest =>
      if jbufBytes b.jbuf ≤ 262144 then b
      else Bus.jtrim fuel { b with jbuf := rest, jlost := b.jlost + 1,
                                   jlostFirst := if b.jlost = 0 then r.seq else b.jlostFirst }

/-- Write a record of the unit's own series into the on-die buffer (spec/16 R499, R501). -/
def Bus.journalAt (b : Bus) (time : Word) (kind cap inst : Nat) (body : List Byte) : Bus :=
  let seq := b.reg .jrnSeq 0 0 + 1
  let r : JRec := { kind := kind, flags := if b.jgap then 2 else 0, seq := seq, time := time, cap := cap,
                    inst := inst, body := body }
  Bus.jtrim 16 { (b.setReg .jrnSeq 0 0 seq) with jbuf := b.jbuf ++ [r], jgap := false }

/-- Write a record that takes effect now. -/
def Bus.journal (b : Bus) (kind cap inst : Nat) (body : List Byte) : Bus := b.journalAt b.time kind cap inst body

/-! ### Function instances (spec/03 R83 to R93) -/

/-- Whether an instance exists in the running structure (R84, R86; each owning chapter's register section). -/
def Plan.has (p : Plan) (cap inst : Nat) : Bool :=
  match cap with
  | 0x01 => inst == 0
  | 0x34 => inst == 0
  | 0x02 => p.loaded && inst < 256 && (p.ring inst).isSome
  | 0x03 => p.loaded && inst == 0
  | 0x04 => p.loaded && inst < 154
  | 0x05 => p.loaded && inst == 0
  | 0x06 => p.loaded && inst == 0
  | 0x07 => p.loaded && inst < 32
  | 0x10 => p.loaded && (p.source inst).isSome
  | 0x11 => p.loaded && (p.stream inst).isSome
  | 0x12 => p.loaded && (p.head inst).isSome
  | 0x13 => p.loaded && (p.head inst).isSome
  | 0x14 => p.loaded && (p.head inst).isSome
  | 0x15 => p.loaded && inst < 8 && (p.enc inst).isSome
  | 0x20 => p.loaded && inst < 64 && p.role inst != 0
  | 0x21 => p.loaded && (p.panel inst).isSome
  | 0x30 => p.loaded && inst == 0
  | 0x31 => p.loaded && inst == 0
  | 0x32 => p.loaded && inst == 0 && p.tandem.isSome
  | 0x33 => p.loaded && inst == 0
  | 0x35 => p.loaded && inst == 0
  | _ => false

/-- The capability IDs of spec/03 R86, in the order of the table. -/
def capIds : List Nat :=
  [0x01, 0x02, 0x03, 0x04, 0x05, 0x06, 0x07, 0x10, 0x11, 0x12, 0x13, 0x14, 0x15, 0x20, 0x21, 0x30, 0x31, 0x32,
   0x33, 0x34, 0x35]

/-- The number of instances each capability's blocks are laid out for (R83 INSTANCE_COUNT) (DEDUCED, log 17). -/
def capSlots (cap : Nat) : Nat :=
  match cap with
  | 0x02 => 256 | 0x04 => 154 | 0x07 => 32 | 0x10 => 128 | 0x11 => 128 | 0x12 => 48 | 0x13 => 48 | 0x14 => 48
  | 0x15 => 8 | 0x20 => 64 | 0x21 => 48 | _ => 1

/-- The capability chain a host finds (R84): the functions that the structure instantiated; DEVICE_CORE and
STRUCTURE alone in NO_STRUCTURE. -/
def Plan.chain (p : Plan) : List Nat := capIds.filter fun c => (List.range (capSlots c)).any fun i => p.has c i

/-- Bytes from one instance's basic or expert block to the next (R83): the strides that each owning chapter states. -/
def capStride (cap blk : Nat) : Nat :=
  let s : Nat × Nat := match cap with
    | 0x02 => (0x40, 0x10) | 0x04 => (0x800, 0x10) | 0x07 => (0x20, 0x20) | 0x10 => (0x400, 0x10) | 0x11 => (0x100, 0x10)
    | 0x12 => (0x1000, 0x40) | 0x13 => (0x1000, 0x40) | 0x14 => (0x400, 0x40) | 0x15 => (0x100, 0x20) | 0x20 => (0x200, 0x40)
    | 0x21 => (0x200, 0x80) | _ => (0, 0)
  if blk = 0 then s.1 else s.2

/-- Control window offset of a register (R83): block 0 basic, 1 expert, 2 the control words, in which `off` is 4n (log 10). -/
def ctlOffset (cap inst blk off : Nat) : Nat :=
  if blk = 2 then Config.blockOffset cap 2 + off else Config.blockOffset cap blk + inst * capStride cap blk + off

/-- FN_CTL.STATE of an instance (R90): 0 OFF, 1 STARTING, 2 ON, 3 STOPPING. -/
def Bus.fnState (b : Bus) (cap inst : Nat) : Nat := b.fld .fnCtl cap inst 2 3

def Bus.isOn (b : Bus) (cap inst : Nat) : Bool := b.fnState cap inst == 2

/-- FN_CTL.LEVEL: expert level. -/
def Bus.expert (b : Bus) (cap inst : Nat) : Bool := bit (b.reg .fnCtl cap inst) 1

/-- Enter a state, with LIFECYCLE on entry to ON or OFF (R91, R116). -/
def Bus.enter (b : Bus) (cap inst st : Nat) : Bus :=
  let old := b.fnState cap inst
  let b' := b.setFld .fnCtl cap inst 2 3 st
  if st = 2 ∨ st = 0 then
    b'.emit 0x0102 inst 0 (payCap cap [old, st, b.fld .fnCtl cap inst 8 4])
  else b'

/-- Leave ON or STARTING for STOPPING with a cause (R91); `clear` when the device, not the host, does it. -/
def Bus.toStopping (b : Bus) (cap inst cause : Nat) : Bus :=
  let b := b.setFld .fnCtl cap inst 0 1 0
  let b := b.setFld .fnCtl cap inst 8 4 cause
  let b := b.enter cap inst 3
  { b with fns := tabSet FnSt.init b.fns (Nat.pair cap inst) { stopTick := b.ticks, slow := false } }

/-- A start that fails (R91): ENABLE cleared, CAUSE 6, START_FAILED with its reason, then OFF (DEDUCED, log 59). -/
def Bus.startFailed (b : Bus) (cap inst reason : Nat) : Bus :=
  let b := b.setFld .fnCtl cap inst 0 1 0
  let b := b.setFld .fnCtl cap inst 8 4 6
  let b := b.emit 0x0104 inst 1 (payCap cap [reason])
  b.enter cap inst 0

/-! ### Partitions and pseudo-channels (spec/05 R140 to R145) -/

/-- A partition as its registers give it. -/
structure PartView where
  idx : Nat
  base : Nat
  size : Nat
  stks : Nat
  grain : Nat
  zero : Bool
  deriving DecidableEq, Repr

def Bus.part (b : Bus) (n : Nat) : Option PartView :=
  let c := b.reg .memPartCtl 0 n
  if bit c 0 then
    some { idx := n, base := b.pair .memPartBaseLo .memPartBaseHi 0 n, size := b.pair .memPartSizeLo .memPartSizeHi 0 n,
           stks := bf c 1 2, grain := bf c 4 4 + 8, zero := bit c 8 }
  else none

/-- The partition that holds `n` bytes from `a`, if one does. -/
def Bus.partOf (b : Bus) (a n : Nat) : Option PartView :=
  ((List.range 16).filterMap b.part).find? fun p => p.base ≤ a && a + n ≤ p.base + p.size

/-- Every byte of an access lies in some partition (R145): from each partition's end the walk goes on in the next. -/
def Bus.mappedFrom : Nat → Bus → Nat → Nat → Bool
  | 0, _, _, n => n == 0
  | fuel + 1, b, a, n =>
    if n = 0 then true
    else
      match b.partOf a 1 with
      | none => false
      | some p => Bus.mappedFrom fuel b (p.base + p.size) (a + n - (p.base + p.size))

def Bus.mapped (b : Bus) (a n : Nat) : Bool := b.mappedFrom 17 a n

/-- Whether partition `p` is spread over pseudo-channel `pc`, and its footprint there (R141). -/
def PartView.footprint (p : PartView) (pc : Nat) : Nat :=
  if p.stks = 3 then p.size / 64
  else if p.stks = 1 ∧ pc < 32 then p.size / 32
  else if p.stks = 2 ∧ 32 ≤ pc then p.size / 32
  else 0

/-- A partition's base within a pseudo-channel (R143). -/
def Bus.pcBase (b : Bus) (p : PartView) (pc : Nat) : Nat :=
  (((List.range p.idx).filterMap b.part).map fun q => q.footprint pc).sum

/-- The map of R144: pseudo-channel and byte address inside it. -/
def Bus.locate (b : Bus) (p : PartView) (addr : Nat) : Nat × Nat :=
  let o := addr - p.base
  let g := p.grain
  let n := if p.stks = 3 then 64 else 32
  let k := if n = 64 then 6 else 5
  let chunk := o >>> g
  let pc0 := (chunk ^^^ (chunk >>> k) ^^^ (chunk >>> (2 * k))) % n
  let pc := if p.stks = 2 then pc0 + 32 else pc0
  (pc, b.pcBase p pc + ((chunk >>> k) <<< g) + o % 2 ^ g)

/-- The pseudo-channel of an address. -/
def Bus.pcOf (b : Bus) (addr : Nat) : Option (Nat × Nat) := (b.partOf addr 1).map fun p => b.locate p addr

/-- The pseudo-channel and row (1 KiB) of an address: a row match of R151. -/
def Bus.rowOf (b : Bus) (addr : Nat) : Option (Nat × Nat) := (b.pcOf addr).map fun x => (x.1, x.2 / 1024)

/-- Pseudo-channel `pc` is failed (R163). -/
def Bus.pcFailed (b : Bus) (pc : Nat) : Bool :=
  if pc < 32 then bit (b.reg .memPcFailedLo 0 0) pc else bit (b.reg .memPcFailedHi 0 0) (pc - 32)

/-- The pseudo-channel that holds an address is held for a retrain (R162), or is failed (R163). -/
def Bus.heldAt (b : Bus) (a : Nat) : Bool :=
  !b.mx.held.isEmpty && match b.pcOf a with
    | some (pc, _) => b.mx.held.any fun x => x.1 == pc
    | none => false

def Bus.failedAt (b : Bus) (a : Nat) : Bool :=
  match b.pcOf a with
  | some (pc, _) => b.pcFailed pc
  | none => false

/-- The 64-byte words that `n` bytes from `a` touch, by their addresses. -/
def words64 (a n : Nat) : List Nat :=
  if n = 0 then [] else (List.range ((a + n - 1) / 64 - a / 64 + 1)).map fun i => (a / 64 + i) * 64

/-! ### Access check units (spec/04) -/

def Bus.accSt (b : Bus) (m : Nat) : AccSt := tabGet AccSt.init b.acc m
def Bus.setAcc (b : Bus) (m : Nat) (x : AccSt) : Bus := { b with acc := tabSet AccSt.init b.acc m x }

/-- Region r of unit m covers the access and grants its kind (R119). -/
def Bus.regionGrants (b : Bus) (m r a n : Nat) (rd wr : Bool) : Bool :=
  let c := b.reg .regCtl m r
  let base := b.pair .regBaseLo .regBaseHi m r
  let size := b.pair .regSizeLo .regSizeHi m r
  bit c 0 && (!rd || bit c 1) && (!wr || bit c 2) && decide (base ≤ a) && decide (a + n ≤ base + size)

/-- One enabled region of the master's unit covers every byte and grants the access (R119). -/
def Bus.passes (b : Bus) (m a n : Nat) (rd wr : Bool) : Bool :=
  (List.range 32).any fun r => b.regionGrants m r a n rd wr

/-- Open or add to a notice window (R126). -/
def noticeAdd (w : Option Notice) (ticks : Nat) (t : Word) (a : Nat) : Option Notice :=
  match w with
  | none => some { opened := ticks, start := t, first := a, count := 1 }
  | some x => some { x with count := x.count + 1 }

/-- Count a refused read (R124, R126). -/
def Bus.refuseRead (b : Bus) (m a : Nat) : Bus :=
  let x := b.accSt m
  (b.bump .accReadRefused m 0 1).setAcc m { x with rwin := noticeAdd x.rwin b.ticks b.time a }

/-- Count a dropped write (R125, R126). -/
def Bus.refuseWrite (b : Bus) (m a : Nat) : Bus :=
  let x := b.accSt m
  (b.bump .accWriteRefused m 0 1).setAcc m { x with wwin := noticeAdd x.wwin b.ticks b.time a }

/-! ### Device memory (spec/05) -/

/-- The byte a read returns: array data with the queued writes merged in the order accepted (R148 to R150) (DESIGN CHOICE, log 2). -/
def Bus.byte (b : Bus) (a : Nat) : Byte :=
  b.wq.foldl (fun v w => if w.addr ≤ a ∧ a < w.addr + w.data.length then w.data.getD (a - w.addr) 0 else v)
    (tabGet 0 b.mem a)

/-- `n` bytes from `a`. -/
def Bus.bytes (b : Bus) (a n : Nat) : List Byte := (List.range n).map fun i => b.byte (a + i)

/-- Put bytes into the array. -/
def memPut (mem : List Host.Cell) : Nat → List Byte → List Host.Cell
  | _, [] => mem
  | a, v :: vs => memPut (tabSet 0 mem a v) (a + 1) vs

/-- The data words that some bytes touch, by their address / 8. -/
def words8 (a n : Nat) : List Nat := if n = 0 then [] else (List.range ((a + n - 1) / 8 - a / 8 + 1)).map fun i => a / 8 + i

/-- The array takes a queued write (R149): its data words have fresh check bits (R152). -/
def Bus.retire (b : Bus) (w : QWrite) : Bus :=
  { b with mem := memPut b.mem w.addr w.data,
           mx := { b.mx with soft := b.mx.soft.filter fun x => !(words8 w.addr w.data.length).contains x } }

/-- The array takes the oldest queued write of a pseudo-channel that is not held (R149, R162; DEDUCED, log 13). A word's writes are
all of one pseudo-channel, so they keep their order. -/
def Bus.drainOne (b : Bus) : Bus :=
  match b.wq.find? fun w => !b.heldAt w.addr with
  | none => b
  | some w => { (b.retire w) with wq := b.wq.erase w }

/-- The array takes every queued write that `p` selects, oldest first. -/
def Bus.drain (b : Bus) (p : QWrite → Bool) : Bus :=
  { ((b.wq.filter p).foldl Bus.retire b) with wq := b.wq.filter fun w => !p w }

/-- JOURNAL, MIRROR and WARDEN are always in strict mode (R151). -/
def strictMaster (m : Nat) : Bool := m == 150 || m == 151 || m == 152

/-- Before a strict access, every queued access to its rows completes at the array (R151), but in a pseudo-channel whose queues are held (R162),
where the access itself waits: it is answered in its own command all the same, only its time being another (DESIGN CHOICE, log 75). -/
def Bus.rowDrain (b : Bus) (a n : Nat) : Bus :=
  let rows := (words64 a n).filterMap b.rowOf
  b.drain fun w => !b.heldAt w.addr && match b.rowOf w.addr with
    | some r => rows.contains r
    | none => false

/-- The bytes of an access that lie on stack 0 or 1: 64-byte words lie whole in one pseudo-channel (R144). -/
def Bus.bytesOn (b : Bus) (stack a n : Nat) : Nat :=
  ((words64 a n).filter fun w => match b.pcOf w with | some (pc, _) => pc / 32 == stack | none => false).foldl
    (fun k w => k + (min (w + 64) (a + n) - max w a)) 0

/-- Bytes moved, by stack (R165, MEM_BYTES). -/
def Bus.countBytes (b : Bus) (a n : Nat) : Bus :=
  (b.setPair .memBytesS0Lo .memBytesS0Hi 0 0 (b.pair .memBytesS0Lo .memBytesS0Hi 0 0 + b.bytesOn 0 a n)).setPair
    .memBytesS1Lo .memBytesS1Hi 0 0 (b.pair .memBytesS1Lo .memBytesS1Hi 0 0 + b.bytesOn 1 a n)

/-- What memory answers: the bytes; a refusal; or, with an error flag, the bytes with each uncorrectable 64-byte word as all-ones (R153). -/
inductive MemRes where
  | ok (data : List Byte)
  | refused
  | ue (data : List Byte)
  deriving DecidableEq, Repr

/-- Report an unmapped access (R145), at most one event a millisecond. -/
def Bus.unmapped (b : Bus) (m a : Nat) (write : Bool) : Bus :=
  let b := b.bump .memUnmapped 0 0 1
  let due := match b.mx.unmappedAt with
    | none => true
    | some t => decide (t + 200000 ≤ b.ticks)
  if due then
    { (b.emit 0x0508 0 1 (pay [a, m, b2n write])) with mx := { b.mx with unmappedAt := some b.ticks } }
  else b

/-- Report an uncorrectable error (R153). -/
def Bus.uncorrectable (b : Bus) (m a : Nat) (scrub : Bool) : Bus :=
  let b := b.bump .memUeCount 0 0 1
  let b := if bit (b.reg .memStatus 0 0) 0 then b
    else (b.setPair .memUeAddrLo .memUeAddrHi 0 0 (a / 64 * 64)).setFld .memStatus 0 0 0 1 1
  b.emit 0x0503 0 1 (pay [a / 64 * 64, m, b2n scrub])

/-- A write of all 64 bytes of the word is queued, whose data is newer than the array's. -/
def Bus.fullQueued (b : Bus) (a : Nat) : Bool := b.wq.any fun w => w.addr == a / 64 * 64 && w.data.length == 64

/-- Mark a 64-byte word poisoned (R153); the mark never overwrites newer data (R155). -/
def Bus.poisonWord (b : Bus) (a : Nat) : Bus :=
  if b.fullQueued a then b else { b with mx := { b.mx with poison := addSet b.mx.poison (a / 64) } }

/-- A 64-byte word that answers with an uncorrectable error: poisoned (R153), or of a failed pseudo-channel (R163). -/
def Bus.badWord (b : Bus) (w : Nat) : Bool := b.mx.poison.contains (w / 64) || b.failedAt w

/-- Count `n` corrected errors, on the stack of an address (R152, R166; DEDUCED, log 14). -/
def Bus.corrected (b : Bus) (a n : Nat) : Bus :=
  if n = 0 then b
  else
    let b := b.bump .memCeCount 0 0 n
    let onS1 := match b.pcOf a with | some (pc, _) => decide (32 ≤ pc) | none => false
    { b with mx := { b.mx with ceSec := if onS1 then (b.mx.ceSec.1, b.mx.ceSec.2 + n) else (b.mx.ceSec.1 + n, b.mx.ceSec.2) } }

/-- The single-bit errors of the words read are corrected and counted; the corrected word goes back to the array unless a queued write to
its 64-byte word is pending (R152, R155). -/
def Bus.correctWords (b : Bus) (a n : Nat) : Bus :=
  ((words8 a n).filter fun x => b.mx.soft.contains x && !b.badWord (x * 8 / 64 * 64)).foldl (fun b x =>
    let b := b.corrected (x * 8) 1
    if b.wq.any fun w => w.addr / 64 == x / 8 then b else { b with mx := { b.mx with soft := delSet b.mx.soft x } }) b

/-- The bytes of an access, those of the bad words as all-ones. -/
def onesIn (bad : List Nat) (a : Nat) (d : List Byte) : List Byte :=
  d.mapIdx fun i v => if bad.contains ((a + i) / 64 * 64) then 0xFF else v

/-- The memory controller is READY (R160). -/
def Bus.memReady (b : Bus) : Bool := b.fld .memState 0 0 0 3 == 4

/-- A read after its check: unmapped, or the bytes with single-bit errors corrected and each uncorrectable word counted, reported and
answered as all-ones (R145, R150 to R153, R163). -/
def Bus.readChecked (b : Bus) (m a n : Nat) : Bus × MemRes :=
  if !b.mapped a n then (b.unmapped m a false, .refused)
  else
    let b := if strictMaster m then b.rowDrain a n else b
    let b := (b.countBytes a n).correctWords a n
    let bad := (words64 a n).filter b.badWord
    if bad = [] then (b, .ok (b.bytes a n))
    else (bad.foldl (fun b w => b.uncorrectable m w false) b, .ue (onesIn bad a (b.bytes a n)))

/-- A master reads `n` bytes at `a` (R119, R124, R538). -/
def Bus.load (b : Bus) (m a n : Nat) : Bus × MemRes :=
  if b.memReady && b.passes m a n true false then b.readChecked m a n else (b.refuseRead m a, .refused)

/-- The bytes of a write cut at the 64-byte words (R148). -/
def splitWords : Nat → Nat → List Byte → List (Nat × List Byte)
  | 0, _, _ => []
  | fuel + 1, a, data =>
    if data.isEmpty then []
    else
      let n := 64 - a % 64
      (a, data.take n) :: splitWords fuel (a + n) (data.drop n)

/-- A write after its check (R145, R148, R151, R153): true when every word was taken. A failed pseudo-channel drops the words that
lie in it, with an error flag (R163). -/
def Bus.writeChecked (b : Bus) (m a : Nat) (data : List Byte) : Bus × Bool :=
  if !b.mapped a data.length then (b.unmapped m a true, false)
  else
    let all := splitWords data.length a data
    let ws := all.filter fun w => !b.failedAt w.1
    let b := b.countBytes a data.length
    let full := (ws.filter fun w => w.2.length == 64).map fun w => w.1 / 64
    let b := { b with mx := { b.mx with poison := b.mx.poison.filter fun w => !full.contains w } }
    let b := { b with wq := b.wq ++ ws.map fun w => ⟨m, w.1, w.2⟩ }
    (if strictMaster m then b.rowDrain a data.length else b, ws.length == all.length)

/-- A master writes `data` at `a` (R119, R125, R538). -/
def Bus.store (b : Bus) (m a : Nat) (data : List Byte) : Bus × Bool :=
  if b.memReady && b.passes m a data.length false true then b.writeChecked m a data else (b.refuseWrite m a, false)

/-! ### Rings (spec/03 R94 to R110) -/

def Bus.ringSt (b : Bus) (r : Nat) : RingSt := tabGet RingSt.init b.rings r
def Bus.setRing (b : Bus) (r : Nat) (x : RingSt) : Bus := { b with rings := tabSet RingSt.init b.rings r x }
def Bus.hostSt (b : Bus) (h : Nat) : HostSt := tabGet HostSt.init b.hosts h
def Bus.setHost (b : Bus) (h : Nat) (x : HostSt) : Bus := { b with hosts := tabSet HostSt.init b.hosts h x }

def Bus.ringKind (b : Bus) (r : Nat) : Nat := b.fld .ringCtl r 0 0 3
def Bus.ringSize (b : Bus) (r : Nat) : Nat := 2 ^ b.fld .ringCtl r 0 8 5
def Bus.ringBase (b : Bus) (r : Nat) : Nat := b.pair .ringBaseLo .ringBaseHi r 0
def Bus.ringProd (b : Bus) (r : Nat) : Word := b.reg .ringProd r 0
def Bus.ringCons (b : Bus) (r : Nat) : Word := b.reg .ringCons r 0

/-- The address of entry k (R95). -/
def Bus.entryAddr (b : Bus) (r k : Nat) : Nat := b.ringBase r + 64 * (k % b.ringSize r)

/-- Entries between CONS and PROD (R95). -/
def Bus.ringUsed (b : Bus) (r : Nat) : Nat := (b.ringProd r - b.ringCons r).toNat

/-- A kind whose entries the host produces (R94). -/
def hostProduced (kind : Nat) : Bool := kind == 0 || kind == 2

/-- An entry of a port's MSI-X table is masked: bit 0 of its fourth word (R79; PRESUMED, log 70). -/
def HostSt.masked (x : HostSt) (v : Nat) : Bool := bit (tabGet 0 x.msix (4 * v + 3)) 0

/-- The device signals an MSI-X vector of a port: a message, or the pending bit of a masked entry (R79, R109, R110). -/
def Bus.msix (b : Bus) (h v : Nat) : Bus :=
  let x := b.hostSt h
  if x.masked v then b.setHost h { x with pba := addSet x.pba v } else b.send (.msix h v)

/-- A host writes a word of its MSI-X table; an entry that is unmasked so signals what is pending (PRESUMED, log 70). -/
def Bus.msixWrite (b : Bus) (h i : Nat) (v : Word) : Bus :=
  let x := { b.hostSt h with msix := tabSet 0 (b.hostSt h).msix i v }
  if x.pba.contains (i / 4) && !x.masked (i / 4) then
    (b.setHost h { x with pba := delSet x.pba (i / 4) }).send (.msix h (i / 4))
  else b.setHost h x

/-- Log a host read that did not succeed for Advanced Error Reporting (spec/04 R124, spec/05 R153): 1 Completer Abort, 2 poisoned. -/
def Bus.aerLog (b : Bus) (h kind a : Nat) : Bus :=
  b.setHost h { b.hostSt h with aer := (b.hostSt h).aer ++ [(kind, a)] }

/-- Signal the ring's MSI-X vector, or note that a signal is due after the holdoff (R110). -/
def Bus.signal (b : Bus) (host r : Nat) : Bus :=
  let x := b.ringSt r
  let v := b.fld .ringCtl r 0 16 9
  if v = 0 then b
  else if b.ticks < x.holdUntil then b.setRing r { x with due := true }
  else (b.msix host v).setRing r
    { x with due := false, holdUntil := b.ticks + b.fld .ringHoldoff r 0 0 16 * 200 }

/-- An object's value (R106). -/
def Bus.fence (b : Bus) (n : Nat) : Nat := b.pair .fenceValueLo .fenceValueHi 0 n

/-- Signal a timeline fence object (R106, R107). FENCES has one instance, so FENCE_BACKWARD names instance 0 and the object (R108, R116). -/
def Bus.fenceSignal (b : Bus) (n v : Nat) : Bus :=
  if !bit (b.reg .fnCtl 3 0) 0 then b
  else if b.fence n < v then b.setPair .fenceValueLo .fenceValueHi 0 n v
  else b.emit 0x0301 0 1 (pay [n, b.fence n % 2 ^ 32, v % 2 ^ 32])

/-- A wait on an object is met (R107). -/
def Bus.fenceMet (b : Bus) (n v : Nat) : Bool := bit (b.reg .fnCtl 3 0) 0 && decide (v ≤ b.fence n)

/-- Status codes of R103 that the operations use. -/
def stOk : Nat := 0x0000
def stCommitPending : Nat := 0x0001
def stNoGain : Nat := 0x0002
def stBadOpcode : Nat := 0x8001
def stBadInstance : Nat := 0x8002
def stBadArgument : Nat := 0x8003
def stNotOn : Nat := 0x8004
def stBusy : Nat := 0x8005
def stAccess : Nat := 0x8006
def stLimit : Nat := 0x8007
def stState : Nat := 0x8008
def stFenceTimeout : Nat := 0x8009
def stAborted : Nat := 0x800A
def stEcc : Nat := 0x800B
def stTemp : Nat := 0x800C
def stNoSpace : Nat := 0x800D
def stFailed : Nat := 0x800E

/-- CONS moves over the completed entries at its front, which leave the fetched list (R95, R104). -/
def Bus.advanceCons : Nat → Bus → Nat → Bus
  | 0, b, _ => b
  | fuel + 1, b, r =>
    let x := b.ringSt r
    match x.fetched with
    | [] => b
    | e :: rest =>
      if e.phase = .done ∧ e.k = (b.ringCons r).toNat then
        Bus.advanceCons fuel ((b.setReg .ringCons r 0 (b.ringCons r + 1)).setRing r { x with fetched := rest }) r
      else b

/-- Whether a command of the ring waits in step 1 or 2 of R101 (DEDUCED, log 15). -/
def EPhase.waits (p : EPhase) : Bool := p == .waitBefore || p == .waitFence

/-- RING_STATUS.STALLED follows the waits (R102). -/
def Bus.stalled (b : Bus) (r : Nat) : Bus :=
  b.setFld .ringStatus r 0 3 1 (b2n ((b.ringSt r).fetched.any fun e => e.phase.waits))

/-- Set where entry k stands. -/
def Bus.setPhase (b : Bus) (r k : Nat) (ph : EPhase) : Bus :=
  let x := b.ringSt r
  b.setRing r { x with fetched := x.fetched.map fun e => if e.k = k then { e with phase := ph } else e }

/-- Steps 4 to 6 of R101 for entry k: bytes 56 to 63 in one write, then for a command record the fence and the interrupt; an entry of
another kind has neither field (spec/07 R204). Answers whether the completion write was taken. A completion write that is refused is
dropped (R579); step 5 still happens, step 6 does not (DESIGN CHOICE, log 74). -/
def Bus.completeRaw (b : Bus) (host r k status reason : Nat) : Bus × Bool :=
  match (b.ringSt r).fetched.find? fun e => e.k == k && e.phase != .done with
  | none => (b, true)
  | some e =>
    let (b, taken) := b.store host (b.entryAddr r k + 56)
      (le 2 status ++ le 1 1 ++ le 1 reason ++ le 4 b.time.toNat)
    let b := b.setPhase r k .done
    let isCmd : Bool := b.ringKind r == 0
    let sig := leAt e.data 14 2
    let b := if sig = 0xFFFF ∨ !isCmd then b
      else if status < 0x8000 then b.fenceSignal sig (leAt e.data 24 8)
      else b.emit 0x0302 0 1 (pay [r, k, leAt e.data 8 4, sig])
    let b := if (byteAt e.data 2).testBit 1 ∧ isCmd ∧ taken then b.signal host r else b
    (((Bus.advanceCons (b.ringSt r).fetched.length b r)).stalled r, taken)

/-- STOPPING of a ring (R91, R99): every fetched entry that is not in step 3 completes with ABORTED. -/
def Bus.ringStop (b : Bus) (host r cause : Nat) : Bus :=
  let b := b.toStopping 2 r cause
  ((b.ringSt r).fetched.filter fun e => e.phase != .done && e.phase != .running).foldl
    (fun b e => (b.completeRaw host r e.k stAborted 0).1) b

/-- RING_FAULT (R579): cause 0 read refused, 1 write refused, 2 uncorrectable error. -/
def Bus.ringFault (b : Bus) (host r k cause : Nat) : Bus :=
  if b.isOn 2 r then (b.ringStop host r 2).emit 0x0204 r 2 (pay [r, k, cause]) else b

/-- Complete entry k; a completion write that is refused stops the ring (R101, R579). -/
def Bus.complete (b : Bus) (host r k status reason : Nat) : Bus :=
  let (b, taken) := b.completeRaw host r k status reason
  if taken then b else b.ringFault host r k 1

/-- `n` entries of a device-produced ring find it full and are dropped (R98): RING_STATUS.OVERFLOW, and OVERFLOW unless it is an EVENT ring.
The event counts the entries dropped since the ring was last scrubbed (DESIGN CHOICE, log 75). -/
def Bus.ringFull (b : Bus) (r n : Nat) : Bus :=
  let x := b.ringSt r
  let b := (b.setFld .ringStatus r 0 0 1 1).setRing r { x with dropped := x.dropped + n }
  if b.ringKind r = 1 then b else b.emit 0x0201 r 1 (pay [r, x.dropped + n])

/-- The device produces an entry in a ring (R95, R98, R110, R579). Answers whether it was posted. -/
def Bus.post (b : Bus) (host r : Nat) (data : List Byte) : Bus × Bool :=
  if !b.isOn 2 r then (b, false)
  else if b.ringSize r ≤ b.ringUsed r then (b.ringFull r 1, false)
  else
    let (b', taken) := b.store host (b.entryAddr r (b.ringProd r).toNat) data
    if taken then ((b'.setReg .ringProd r 0 (b.ringProd r + 1)).signal host r, true)
    else (b'.ringFault host r (b.ringProd r).toNat 1, false)

/-! ### Delivery of events (spec/03 R108, R109, R113, R114) -/

/-- The 32 bytes of an event record (R108) (DESIGN CHOICE, log 8). -/
def EvRec.bytes (e : EvRec) (seq : Nat) (lost : Bool) : List Byte :=
  le 2 e.typ ++ le 2 e.inst ++ le 4 e.time.toNat ++ le 4 ((e.frame.getD 0).toNat) ++ le 2 seq ++
  le 1 (b2n e.frame.isSome + 2 * b2n lost) ++ le 1 e.sev ++
  fit 16 (if e.pay.fields.isEmpty then e.pay.known else e.pay.known ++ Config.payloadRest e.typ e.pay.fields)

/-- The ring that CORE_EVT_RING of port h names, when it can take events (R114). -/
def Bus.evtRing (b : Bus) (p : Plan) (h : Nat) : Option Nat :=
  let r := b.fld .coreEvtRing h 0 0 9
  if r < 256 ∧ b.isOn 2 r ∧ b.ringKind r = 1 ∧ p.ringHost r = some h then some r else none

/-- Write queued events of port h to its ring, oldest first (R98, R114) (DESIGN CHOICE, log 70). -/
def Bus.flush : Nat → Plan → Bus → Nat → Bus
  | 0, _, b, _ => b
  | fuel + 1, p, b, h =>
    let hs := b.hostSt h
    match b.evtRing p h, hs.evq with
    | some r, e :: rest =>
      let x := b.ringSt r
      if b.ringSize r ≤ b.ringUsed r then
        let b := (b.post h r []).1
        let b := (b.bump .coreEvtLost h 0 1).setRing r { b.ringSt r with lostBefore := true }
        Bus.flush fuel p (b.setHost h { hs with evq := rest }) h
      else
        let seq := aliveNext x.seq
        let (b2, taken) := b.post h r (e.bytes seq (x.lostBefore || hs.lostNext))
        if taken then
          let b2 := b2.setRing r { b2.ringSt r with seq := seq, lostBefore := false }
          Bus.flush fuel p (b2.setHost h { b2.hostSt h with evq := rest, lostNext := false }) h
        else b2
    | _, _ => b

/-- Keep the newest 256 queued events, counting those dropped (R114). -/
def Bus.trimQueue (b : Bus) (h : Nat) : Bus :=
  let hs := b.hostSt h
  let n := hs.evq.length - 256
  if n = 0 then b
  else (b.bump .coreEvtLost h 0 n).setHost h { hs with evq := hs.evq.drop n, lostNext := true }

/-- Deliver one event to every host port (R109, R114). -/
def Bus.deliver (p : Plan) (b : Bus) (e : EvRec) : Bus :=
  (List.range 4).foldl (fun b h =>
    let b := if e.sev = 2 then b.msix h 0 else b
    if b.fld .coreEvtSeverity h 0 0 2 ≤ e.sev then
      let hs := b.hostSt h
      let b := b.setHost h { hs with evq := hs.evq ++ [e] }
      (Bus.flush (hs.evq.length + 1) p b h).trimQueue h
    else b) b

/-- Deliver the events raised, and those that delivering them raises. -/
def Bus.settleLoop : Nat → Plan → Bus → Bus
  | 0, _, b => b
  | fuel + 1, p, b =>
    match b.outbox with
    | [] => b
    | e :: rest => Bus.settleLoop fuel p (Bus.deliver p { b with outbox := rest } e)

/-- Deliver every raised event. -/
def Bus.settle (p : Plan) (b : Bus) : Bus := Bus.settleLoop (b.outbox.length + 64) p b

/-- Events that waited for a ring that is ready again (R114). -/
def Bus.flushAll (p : Plan) (b : Bus) : Bus :=
  (List.range 4).foldl (fun b h => (Bus.flush ((b.hostSt h).evq.length) p b h)) b

end Sys2Proof.Machine
end

