-- ==== Sys2Proof/Machine/State.lean ====
section
/-! DEFINITION. The state of the device: plain data, every piece of state the spec gives it (INVENTORY.md,
## State), and the queue of the commands that wait. -/

namespace Sys2Proof.Machine

/-- Faults of a step: none. Every command of the table has an effect that the spec gives, so no meaning faults. -/
inductive Fault where
  deriving DecidableEq, Repr

/-- Refusals of a step. -/
inductive Refusal where
  /-- Raised by an arm of `exec` whose meaning is not modelled; safe. No arm raises it in this model. -/
  | notModelled (mnemonic : String)
  deriving DecidableEq, Repr

/-! ### Spoke ports (spec/12, spec/13) -/

/-- A lane test in progress (spec/12 R386): the command, its arguments and the tick it ends. -/
structure LaneTest where
  ring : Nat
  k : Nat
  pattern : Nat
  mode : Nat
  lanes : Nat
  until_ : Nat
  deriving DecidableEq, Repr

/-- What the lane layer of a port holds beside its registers (spec/12 R362 to R392). Of a training: when it started, what it took at its
start from PORT_X_PHASE_MS and PORT_X_EQ_FIX (R390), the margins of its sweep as (lane, CTLE, eye), `kept` its attempts that passed phase 4
as (healthy lanes, rate), since when no code error. `failedAt` the tick of the last failure, `fromDeep` while an exit from DEEP lasts, `txDead`
once the transmit island has lost its supply (R381). `lasts` the last line bit sent on L0 to L3 and BK; `rxNext` and `rxLanes` where the
receiver stands. Code errors: those of each lane since the last CODE_ERRORS, and those of the last millisecond as (lane, tick, count). -/
structure LaneSt where
  startTick : Nat
  phaseTick : Nat
  cleanTick : Nat
  phaseMs : Nat
  fix : Option Word
  sweep : List (Nat × Nat × Nat)
  goodRun : Nat
  lastStatus : Nat
  rates : Nat
  rateCap : Nat
  rate : Nat
  locked : Nat
  healthy : Nat
  kept : List (Nat × Nat)
  returning : Bool
  sentZero : Bool
  short : Bool
  failedAt : Option Nat
  fromDeep : Bool
  repairTick : Option Nat
  repairPassed : Bool
  retrain : Option (Nat × Nat)
  power : Option (Nat × Nat × Nat)
  powerTick : Nat
  test : Option LaneTest
  codeErrs : List Nat
  codeErrTick : Option Nat
  errMs : List (Nat × Nat × Nat)
  txDead : Bool
  lasts : List Bool
  rxNext : Nat
  rxLanes : List LaneRx
  deriving DecidableEq, Repr

/-- What the link layer of a port holds beside its registers (spec/13). `tx` and `rx` are the alive counters by
stream; `safe` the REASON of the harmless state in force; `stage` 1 from a FRAME_START sent to the last STAMP, 2 from there to
FRAME_END (R405); `later` packets that wait for FRAME_END, as (type, flags, stream, alive, payload). -/
structure LinkSt where
  tx : List (Nat × Nat)
  rx : List (Nat × Nat)
  skip : Bool
  hdrErrs : Nat
  payErrs : Nat
  errTick : Option Nat
  culls : Nat
  cullTick : Option Nat
  used : Nat
  echoes : List Int
  timeCount : Nat
  timeTick : Nat
  stepLeft : Nat
  statusTick : Option Nat
  statusSeen : Bool
  silent : Bool
  upTick : Nat
  needEpoch : Bool
  needHold : Bool
  safe : Option Nat
  safePending : Bool
  safeTick : Nat
  safeSince : Bool
  epochTick : Nat
  status4 : List Byte
  stage : Nat
  later : List (Nat × Nat × Nat × Nat × List Byte)
  deriving DecidableEq, Repr

/-- DESIGN CHOICE, log 7. -/
def LaneSt.init : LaneSt :=
  { startTick := 0, phaseTick := 0, cleanTick := 0, phaseMs := 20, fix := none, sweep := [], goodRun := 0, lastStatus := 0, rates := 0,
    rateCap := 3, rate := 0, locked := 0, healthy := 0, kept := [], returning := false, sentZero := false, short := false, failedAt := none,
    fromDeep := false, repairTick := none, repairPassed := false, retrain := none, power := none, powerTick := 0, test := none,
    codeErrs := [], codeErrTick := none, errMs := [], txDead := false, lasts := [], rxNext := 0, rxLanes := [] }

/-- DESIGN CHOICE, log 7. -/
def LinkSt.init : LinkSt :=
  { tx := [], rx := [], skip := false, hdrErrs := 0, payErrs := 0, errTick := none, culls := 0, cullTick := none,
    used := 0, echoes := [], timeCount := 0, timeTick := 0, stepLeft := 0, statusTick := none, statusSeen := false,
    silent := false, upTick := 0, needEpoch := true, needHold := true, safe := none, safePending := false,
    safeTick := 0, safeSince := true, epochTick := 0, status4 := [], stage := 0, later := [] }

/-! ### The timing core (spec/15) -/

/-- What a reference holds beside its registers (spec/15 R477 to R483): the target its last measurement gives, the
phase of its edges, good seconds in a row, the tick at which it qualified, from which its wait-to-restore timer runs, and QUAL_S and WTR_S as its
present count and timer took them (R496). -/
structure RefSt where
  target : Nat
  phase : Int
  goodSecs : Nat
  wtrAt : Option Nat
  qualS : Nat
  wtrS : Nat
  deriving DecidableEq, Repr

/-- What a cadence group holds beside its registers (spec/15 R489 to R491): the index k of its next frame instant,
and the pending rate and anchor with the instants at which their commands were performed; those that apply at a frame instant already met, which
a later command does not replace. -/
structure GroupSt where
  k : Int
  rate : Option (Nat × Word)
  align : Option (Word × Word)
  rateDue : Option (Nat × Word)
  alignDue : Option (Word × Word)
  deriving DecidableEq, Repr

/-- What a capture channel holds beside its registers (R492). -/
structure CapSt where
  unread : Bool
  valid : Bool
  secTick : Nat
  secCount : Nat
  deriving DecidableEq, Repr

/-- What a pulse output holds beside its registers (R493, R494). -/
structure PulseSt where
  level : Bool
  next : Option Word
  fall : Option Word
  last : Option Word
  align : Option Word
  deriving DecidableEq, Repr

/-- The timing core beside its registers. -/
structure TimSt where
  target : Nat
  locked : List Nat
  d0 : Int
  within : Option Nat
  far : Option Nat
  holdTick : Nat
  hostTick : Option Nat
  ignoreRefs : Bool
  slewTick : Nat
  stepNs : Int
  stepSeq : Nat
  refs : Tab RefSt
  groups : Tab GroupSt
  caps : Tab CapSt
  pulses : Tab PulseSt
  deriving DecidableEq, Repr

def RefSt.init : RefSt := { target := 0x500000000, phase := 0, goodSecs := 0, wtrAt := none, qualS := 0, wtrS := 0 }
def GroupSt.init : GroupSt := { k := 0, rate := none, align := none, rateDue := none, alignDue := none }
def CapSt.init : CapSt := { unread := false, valid := false, secTick := 0, secCount := 0 }
def PulseSt.init : PulseSt := { level := false, next := none, fall := none, last := none, align := none }
/-- DESIGN CHOICE, log 7. -/
def TimSt.init : TimSt :=
  { target := 0x500000000, locked := [], d0 := 0, within := none, far := none, holdTick := 0, hostTick := none,
    ignoreRefs := false, slewTick := 0,
    stepNs := 0, stepSeq := 0, refs := [], groups := [], caps := [], pulses := [] }

/-! ### Sources (spec/06) -/

/-- A picture being filled by an in-port or a decoder: buffer, tick of its start, the count of doubt culls when it
started (R181), its stamps, faults of its path, whether it cannot complete, and what has arrived: for a raster source
(line, x0, bytes), for a surface (tile, first row, bytes). -/
structure FillSt where
  buf : Nat
  since : Nat
  doubts : Nat
  alive : Nat
  cap : Word
  degraded : Bool
  fault : Bool
  broken : Bool
  parts : List (Nat × Nat × List Byte)
  deriving DecidableEq, Repr

/-- A packet as received (spec/13 R393). -/
structure Pkt where
  typ : Nat
  flags : Nat
  stream : Nat
  alive : Nat
  stamp : Word
  payload : List Byte
  deriving DecidableEq, Repr

/-- A cull window (R196). -/
structure CullWin where
  opened : Nat
  time : Word
  reason : Nat
  alive : Nat
  cap : Word
  count : Nat
  deriving DecidableEq, Repr

/-- What a source holds beside its registers (spec/06): the fill, an item discarded for want of a buffer, buffers in the
order they became READY, generation counts and READY instants by buffer, stamps of the last accepted picture (alive,
capture time, content check), the cull window, pool-empty reporting, regeneration count and next instant of a test
pattern, the choice last taken at a latch instant (R249), packets of a surface in-port that wait in the receive buffer for a
FREE buffer (R169), the latch instant at which a write-back contributor was refused (spec/08 R254), ALIVE of the items in `waiting` whose
data came in doubt (spec/01 R13), whether a write of the engine for the next picture went unacknowledged (R188), and fence signals received behind data
that has not reached memory, as (fence object, value) (spec/13 R419). -/
structure SrcSt where
  fill : Option FillSt
  skipping : Option Nat
  order : List Nat
  gens : List (Nat × Nat)
  readyAt : List (Nat × Word)
  last : Option (Nat × Word × Word)
  win : Option CullWin
  emptyTick : Option Nat
  drops : Nat
  testN : Nat
  testAt : Nat
  choice : Option (Word × Option Nat)
  doubts : Nat
  waiting : List Pkt
  refused : Option Word
  waitBad : List Nat
  engFault : Bool
  signals : List (Nat × Nat)
  deriving DecidableEq, Repr

def SrcSt.init : SrcSt :=
  { fill := none, skipping := none, order := [], gens := [], readyAt := [], last := none, win := none,
    emptyTick := none, drops := 0, testN := 0, testAt := 0, choice := none, doubts := 0, waiting := [], refused := none,
    waitBad := [], engFault := false, signals := [] }

/-! ### Decoding (spec/07) -/

/-- A picture of a stream's decoded picture buffer (R207, R208): buffer, stamps, order count and frame_num, output-pending, taint,
fault of its path, and the tick and doubt count of its start. -/
structure DpbEnt where
  buf : Nat
  alive : Nat
  cap : Word
  check : Nat
  poc : Int
  num : Int
  pending : Bool
  tainted : Bool
  fault : Bool
  since : Nat
  doubts : Nat
  deriving DecidableEq, Repr

/-- What a stream holds beside its registers: its pictures, event limits (R221), the second being counted for DEC_RATE, and whether
RASL pictures follow an IRAP taken as the first picture, so that they are not output (R210), and the frame_num of the last reference picture since
an IRAP (R216). -/
structure DecSt where
  dpb : List DpbEnt
  errTick : Option Nat
  errs : Nat
  refTick : Option Nat
  refsMissed : Nat
  secTick : Nat
  secLuma : Nat
  dropRasl : Bool
  lastNum : Option Int
  deriving DecidableEq, Repr

/-- The picture a core is decoding: stream, entry count, buffer, stamps, flags and TAG of the entry, IRAP kind,
a fault of the data read (0 none, 1 refused, 2 uncorrectable), whether it was culled meanwhile, whether it is a RASL picture that
is not output, its bit depth and coded size, and the DEC_X_CONCEAL_MAX it started under (R220). -/
structure CoreSt where
  stream : Nat
  k : Nat
  buf : Nat
  alive : Nat
  cap : Word
  flags : Nat
  tag : Nat
  irap : Nat
  dataFault : Nat
  since : Nat
  doubts : Nat
  culled : Bool
  hidden : Bool
  depth : Nat
  codedW : Nat
  codedH : Nat
  concealMax : Nat
  deriving DecidableEq, Repr

def DecSt.init : DecSt :=
  { dpb := [], errTick := none, errs := 0, refTick := none, refsMissed := 0, secTick := 0, secLuma := 0, dropRasl := false, lastNum := none }

/-! ### Heads, composition, freshness (spec/08 to spec/10) -/

/-- A layer's state as LAYER_SET gives it (spec/08 R242). -/
structure LayerCfg where
  src : Nat
  flags : Nat
  matrix : Nat
  group : Nat
  rank : Nat
  alpha : Nat
  cropX : Nat
  cropY : Nat
  cropW : Nat
  cropH : Nat
  dstX : Int
  dstY : Int
  dstW : Nat
  dstH : Nat
  deriving DecidableEq, Repr

/-- The state a layer is scrubbed to (R245). -/
def LayerCfg.init : LayerCfg :=
  { src := 0xFF, flags := 0, matrix := 0, group := 0, rank := 0, alpha := 0, cropX := 0, cropY := 0, cropW := 0,
    cropH := 0, dstX := 0, dstY := 0, dstW := 0, dstH := 0 }

/-- A coefficient bank (R234 to R236): computed from crop and destination sizes while `table` is empty, else the
loaded 512 horizontal and 384 vertical coefficients. -/
structure BankSt where
  cropW : Nat
  dstW : Nat
  cropH : Nat
  dstH : Nat
  table : List Int
  deriving DecidableEq, Repr

def BankSt.init : BankSt := { cropW := 1, dstW := 1, cropH := 1, dstH := 1, table := [] }

/-- A cursor image (R251, R252). -/
structure CurImg where
  w : Nat
  h : Nat
  px : List Byte
  deriving DecidableEq, Repr

/-- What is pending on a head's layers and cursor (R240): configurations, render fences (object 0xFFFF clears),
coefficient tables, a cursor image. -/
structure PendSt where
  layers : List (Nat × LayerCfg)
  fences : List (Nat × (Nat × Nat))
  coeffs : List (Nat × List Int)
  cursor : Option CurImg
  deriving DecidableEq, Repr

def PendSt.init : PendSt := { layers := [], fences := [], coeffs := [], cursor := none }

/-- A COMMIT that waits for its latch (R241, R311): DONE_TIME, TAG, FLIP_MASK and the pending state it takes. -/
structure CommitSt where
  at_ : Word
  tag : Nat
  mask : Nat
  pend : PendSt
  deriving DecidableEq, Repr

/-- A mode (spec/10 R304). -/
structure ModeSt where
  hact : Nat
  hfp : Nat
  hsync : Nat
  hbp : Nat
  vact : Nat
  vfp : Nat
  vsync : Nat
  vbp : Nat
  flags : Nat
  phase : Nat
  deriving DecidableEq, Repr

/-- A layer as latched for a frame (spec/08 R246, spec/09 R271): `valid` a buffer is latched, `freeze` the freeze action in
force, `das` DEGRADED_AS_STALE, `outside` the crop reaches outside the buffer. -/
structure LatLayer where
  l : Nat
  cfg : LayerCfg
  valid : Bool
  src : Nat
  buf : Nat
  tag : Nat
  cap : Word
  limit : Nat
  doubt : Bool
  degraded : Bool
  freeze : Nat
  das : Bool
  outside : Bool
  addr : Nat
  w : Nat
  h : Nat
  fmt : Nat
  store : Nat
  bank : BankSt
  deriving DecidableEq, Repr

/-- A composed tile column of a strip: the layers and tags that arrived at stage 10, bottom to top (spec/09 R291), and scan buffer
words by line with and without the cursor. -/
structure ColRes where
  strip : Nat
  col : Nat
  tags : List (Nat × Nat)
  words : List (List Nat)
  bare : List (List Nat)
  deriving DecidableEq, Repr

/-- A frame in progress (spec/10 R310): everything taken at the latch, and how far composition and read-out have come.
Tiles are numbered as in the head's run of the tile table (R284). `masks` and `margins` are by strip, `rowsRead` tile rows
whose entries the head has read, `prev` tiles whose UNDERRUN_PREV bit is set, `doubts` (tile, reason), `under` the underrun
columns as (strip, column), `acc` bytes sent of each tile of the row being read out, `t32` TILE32 and `states` the worst state
by tile, `lay` the (layer, tile row, state) seen, `live` the layers LIVE or DEGRADED in a tile not in doubt (spec/09 R288), `last` the
last pixel sent by port index, `alive` the picture item's ALIVE by port; `shed` and `again` are COMPOSE_X_SHED.SHED_MARGIN and
COMPOSE_X_RECOMPOSE.ENABLE as the strip started under them (spec/08 R264), `retry` the columns to be composed again as (strip, column, unit that
timed out), `rest` RESTORE_MARGIN by strip and `restFrames` RESTORE_FRAMES, as the strips started under them (spec/08 R264). -/
structure FrameSt where
  time : Word
  num : Word
  blank : Bool
  sent : Bool
  half : Bool
  mode : ModeSt
  linePs : Nat
  lut : List Nat
  bg : Nat
  stale : Nat
  degr : Nat
  noLive : Nat
  flagFill : Bool
  matrix : List Int
  layers : List LatLayer
  cursor : Option (Int × Int × Bool × CurImg)
  wb : Option (Nat × Nat × Nat × Bool)
  started : Nat
  complete : Nat
  readBegun : Nat
  freed : Nat
  masks : List Nat
  margins : List Nat
  cols : List ColRes
  doubts : List (Nat × Nat)
  rowsRead : Nat
  prev : List Nat
  under : List (Nat × Nat)
  acc : List (Nat × List Byte)
  t32 : List (Nat × Nat)
  states : List (Nat × Nat)
  lay : List (Nat × Nat × Nat)
  live : List Nat
  last : List (Nat × List Nat)
  alive : List (Nat × Nat)
  shed : Nat
  again : Bool
  retry : List (Nat × Nat × Nat)
  ended : Bool
  rest : List Nat
  restFrames : Nat
  deriving DecidableEq, Repr

/-- A frame that a port sends and its witness has still to finish (spec/09 R294, R295): port, frame counter, whether it is
composed, whether a tile of it is in doubt, whether it has been sent whole, whether it is the witness's new baseline, frames since
MODE_CHANGE, the first failing check and the first tile flagged; and its compare memory (R292 to R294): by tile TILE32, expected
digest and doubt-fill report, the row checks formed from it, valid-until, and whether the frame runs at half cadence; the tile columns the port
carries (first, one past the last), the tile rows whose compare records have arrived, whether a tile reached the pads before its record, and whether tiles
of the frame went unchecked at another port of the head. -/
structure WitEnt where
  port : Nat
  num : Word
  composed : Bool
  doubt : Bool
  ended : Bool
  baseline : Bool
  since : Nat
  fail : Nat
  tile : Nat
  tiles : List (Nat × Nat × Nat × Bool)
  rows : List Nat
  until_ : Word
  half : Bool
  span : Nat × Nat
  arrived : Nat
  late : Bool
  unseen : Bool
  deriving DecidableEq, Repr

/-- A pending LUT_LOAD (R328): bank, table, DONE_TIME, TAG. -/
structure LutLoad where
  bank : Nat
  table : List Nat
  at_ : Word
  tag : Nat
  deriving DecidableEq, Repr

/-- What a head holds beside its registers: active mode and the pending one with DONE_TIME and TAG; its cadence copy
(anchor, phase, rate, PHASE_NS), index k and next latch instant; blank frames left; whether the first latch has
come; layers' pending state, commits waiting, render fences, flip requests, layers whose SOURCE changed and which have not
flipped, coefficient banks and cursor images; CURSOR_POS write tick; deadline-shed layers, good frames in a row, units
out of service with the timeouts of the last strip, and the count of strips composed; pending limits and policies; LUT banks and loads, ambient dwell starts
(up low, down low, up high, down high), tick of the last step and reading, the bank to take; tile table; event limits; doubt
window; lane-check and witness state, with the last frame checked by port as (frame counter, latch time, arrival of FRAME_END); layers
whose render fence is met (spec/03 R107); tiles in doubt in the next frame by parity (spec/09 R286); on a STANDBY the tick since which the frame waits for the partner's LATCH records
(spec/16 R519); a mode that applies at the present latch instant although a later MODE_COMMIT has entered (R311); whether an ambient reading has ever arrived,
and the dwell time in ticks under which the last one did (R327, R333). -/
structure HeadSt where
  mode : Option ModeSt
  modeNext : Option (ModeSt × Word × Nat)
  cad : Option (Word × Word × Nat × Nat)
  k : Int
  next : Option Word
  blanks : Nat
  fresh : Bool
  skip : Bool
  pend : PendSt
  commits : List CommitSt
  fences : List (Nat × (Nat × Nat))
  flips : Nat
  moved : Nat
  banks : Tab BankSt
  backs : Tab BankSt
  curFront : Option CurImg
  curBack : Option CurImg
  posTick : Nat
  curHidden : Bool
  curHide : Bool
  dShed : List Nat
  tShed : List Nat
  goodFrames : Nat
  unitBad : List (Nat × Nat)
  stripNo : Nat
  unitsOut : List Nat
  limits : List (Word × Nat × Nat × Bool)
  fixed : List (Nat × Nat)
  policies : List (Word × Nat × Nat)
  luts : Tab (List Nat)
  lutLoads : List LutLoad
  amb : List (Option Nat)
  ambTick : Option Nat
  stepTick : Option Nat
  bankNext : Option Nat
  tiles : Tab Nat
  layEv : List (Nat × (Nat × Nat))
  deferEv : List (Nat × (Nat × Nat))
  underEv : Option (Nat × Nat × Bool)
  doubtWin : Option (Nat × Word × Nat × Nat × Nat)
  frame : Option FrameSt
  lane : Nat
  rearm : Bool
  sinceMode : Nat
  wit : List WitEnt
  witPrev : List (Nat × Nat)
  witBad : Option Word
  witLast : List (Nat × Word × Word × Word)
  met : List Nat
  nextDoubt : List Nat
  baseline : Bool
  hold : Option Nat
  modeDue : Option (ModeSt × Word × Nat)
  ambSeen : Bool
  ambDwell : Nat
  deriving DecidableEq, Repr

/-- DESIGN CHOICE, log 7. -/
def HeadSt.init : HeadSt :=
  { mode := none, modeNext := none, cad := none, k := 0, next := none, blanks := 0, fresh := true, skip := false,
    pend := PendSt.init, commits := [], fences := [], flips := 0, moved := 0, banks := [], backs := [], curFront := none,
    curBack := none, posTick := 0, curHidden := false, curHide := false, dShed := [], tShed := [], goodFrames := 0,
    unitBad := [], stripNo := 0, unitsOut := [], limits := [], fixed := [], policies := [], luts := [], lutLoads := [], amb := [none, none, none, none],
    ambTick := none, stepTick := none, bankNext := none, tiles := [], layEv := [], deferEv := [], underEv := none,
    doubtWin := none, frame := none, lane := 0, rearm := false, sinceMode := 0, wit := [], witPrev := [], witBad := none,
    witLast := [], met := [], nextDoubt := [], baseline := true, hold := none, modeDue := none,
    ambSeen := false, ambDwell := 0 }

/-- A write-back picture being filled (spec/08 R254 to R256): latch instant, frame of the ATTACH head, buffer, ALIVE, tick and
doubt count of its start, contributors still to finish as (head, strips left), parts as (y, x, bytes), degraded, and the head of each part as (y, x, one past the last x, head). -/
structure WbSt where
  time : Word
  frame : Nat
  buf : Nat
  alive : Nat
  since : Nat
  doubts : Nat
  wait : List (Nat × Nat)
  parts : List (Nat × Nat × List Byte)
  degraded : Bool
  writers : List (Nat × Nat × Nat × Nat)
  deriving DecidableEq, Repr

/-! ### Encoder cores (spec/11) -/

/-- A picture in progress: encode instant, input buffer held until its last row is read, what has been read (`none` before),
whether it is a repeat picture and whether the source had no newest buffer, stamps of the input, state and DEGRADED mark, cause
of its IDR, QP, cap, POC, LATE_BEFORE and LOST_BEFORE. -/
structure EncJob where
  instant : Word
  input : Option (Nat × Nat)
  pic : Option (List (List (List Nat)))
  again : Bool
  absent : Bool
  cap : Word
  alive : Nat
  tag : Nat
  st : Nat
  degraded : Bool
  idr : Option Nat
  crop : Nat × Nat × Nat × Nat
  qp : Nat
  limit : Nat
  poc : Nat
  late : Bool
  lost : Bool
  deriving DecidableEq, Repr

/-- What an encoder core holds beside its registers: next encode instant, the job, pending IDR cause and SELECT, stamps of the last
buffer coded (tag, capture time, alive), pictures since ON, POC, instants passed over, drop flag, band of intra refresh, real sizes of
the last pictures (newest first), outstanding output areas as (entry count, start, length), next offset, sequence, reference
area in use, event limits, and `cut` once its ring, its source's writer or its host port has left ON (R355). -/
structure EncSt where
  next : Option Word
  job : Option EncJob
  idr : Option Nat
  sel : Option (Nat × Nat × Nat × Nat × Nat)
  last : Option (Nat × Word × Nat)
  pics : Nat
  poc : Nat
  late : Nat
  lost : Bool
  band : Nat
  sizes : List Nat
  outs : List (Nat × Nat × Nat)
  pos : Nat
  seq : Nat
  refB : Bool
  capEv : Option (Nat × Nat)
  lateEv : Option (Nat × Nat)
  cut : Bool
  deriving DecidableEq, Repr

/-- DESIGN CHOICE, log 7. -/
def EncSt.init : EncSt :=
  { next := none, job := none, idr := none, sel := none, last := none, pics := 0, poc := 0, late := 0, lost := false, band := 0,
    sizes := [], outs := [], pos := 0, seq := 0, refB := false, capEv := none, lateEv := none, cut := false }

/-! ### Touch panels (spec/14) -/

/-- A contact (R444, R445, R452): `since` the tick of its DOWN stamp, `fresh` until its DOWN is delivered. -/
structure Contact where
  id : Nat
  x : Nat
  y : Nat
  strength : Nat
  glove : Bool
  since : Nat
  fresh : Bool
  node : Nat
  deriving DecidableEq, Repr

/-- A key area (R446). -/
structure KeyEnt where
  col0 : Nat
  row0 : Nat
  cols : Nat
  rows : Nat
  group : Nat
  th : Nat
  deriving DecidableEq, Repr

/-- What the engine holds of one of the eight frequencies (R440, R448, R449): mutual and self baselines, where they came
from (`none` while not established), whether the first MUTUAL frame after a load is still to be compared, the cycle that
measured its noise. -/
structure PanFreq where
  base : List Nat
  sbase : List Nat
  src : Option Nat
  check : Bool
  noiseCycle : Option Nat
  deriving DecidableEq, Repr

/-- A cycle whose frames are outstanding (R438): its number, the tick of its start, frequency, whether it is the start sequence of
R464, whether it holds a self-test, the commands unanswered as (COMMAND_ID, KIND, FREQ_INDEX) and the frames accepted as (KIND,
FREQ_INDEX, COMMAND_ID, STAMP, values). -/
structure PanCyc where
  no : Nat
  start : Nat
  freq : Nat
  first : Bool
  test : Bool
  want : List (Nat × Nat × Nat)
  got : List (Nat × Nat × Nat × Word × List Nat)
  deriving DecidableEq, Repr

/-- A touch frame being received (R399, R421): ALIVE, segments as (FIRST_NODE, SEG, values), whether it is cullet, whether it
is complete. -/
structure PanItem where
  alive : Nat
  segs : List (Nat × Nat × List Nat)
  bad : Bool
  ended : Bool
  deriving DecidableEq, Repr

/-- What a panel holds beside its registers: whether its start sequence was sent and its frequency chosen, causes of UNAVAILABLE,
frequencies, candidate, counts, the cycles outstanding, the item in reception, stamps of the last frame and report, SUSPECT nodes,
contacts, UP slots undelivered, keys and those pressed as (key, tick of the press), a new key table and the cycle it applies from,
last MEASURE_US by kind, instants of the next period and of the end of the last cycle, ticks of the timers, commands waiting and the first cycle REBASELINE may use, last
raw frame and deltas, what the last cycle gave for adaptation (frequency, STAMP, MUTUAL, SELF; `none` after a noisy one), the settings in force, tick of the last doubt, reports dropped, event limits as (tick, set, cleared) and
(tick, count), tick of the last UNAVAILABLE report. -/
structure PanelSt where
  started : Bool
  chosen : Bool
  causes : List Nat
  freqs : Tab PanFreq
  cand : Nat
  cycNo : Nat
  cmdId : Nat
  hopRun : Nat
  seq : Nat
  cycs : List PanCyc
  item : Option PanItem
  lastFrame : Option Word
  lastStamp : Option Word
  suspect : List Nat
  contacts : List Contact
  ups : List (List Byte)
  keys : List KeyEnt
  keysNext : Option (Nat × List KeyEnt)
  pressed : List (Nat × Nat)
  keysChanged : Bool
  lost : Bool
  noCand : Bool
  measure : List (Nat × Nat)
  nextAt : Option Word
  endAt : Option Word
  adaptTick : Nat
  saveTick : Nat
  testTick : Nat
  testDue : Bool
  quietTick : Nat
  testCmd : Option (Nat × Nat)
  rebase : Option (Nat × Nat)
  rebaseFrom : Nat
  last : Option (Nat × Word × List Nat × List Nat)
  raw : List Nat
  deltas : List Int
  force : List Word
  doubtTick : Option Nat
  drops : Nat
  suspEv : Option (Nat × Nat × Nat × Nat)
  overEv : Option (Nat × Nat)
  repTick : Nat
  deriving DecidableEq, Repr

def PanFreq.init : PanFreq := { base := [], sbase := [], src := none, check := false, noiseCycle := none }

/-- DESIGN CHOICE, log 7. -/
def PanelSt.init : PanelSt :=
  { started := false, chosen := false, causes := [], freqs := [], cand := 0, cycNo := 0, cmdId := 0, hopRun := 0, seq := 0,
    cycs := [], item := none, lastFrame := none, lastStamp := none, suspect := [], contacts := [], ups := [], keys := [],
    keysNext := none, pressed := [], keysChanged := false, lost := false, noCand := false, measure := [],
    nextAt := none, endAt := none, adaptTick := 0, saveTick := 0, testTick := 0,
    testDue := false, quietTick := 0, testCmd := none, rebase := none, rebaseFrom := 0, last := none, raw := [], deltas := [], force := [],
    doubtTick := none, drops := 0, suspEv := none, overEv := none, repTick := 0 }

/-! ### The journal (spec/16) -/

/-- The committed state that a checkpoint's data holds (R504): registers, sources, pictures, heads, encoders, rings, access regions, timing
core, touch baselines, the zones recorded as absent (R505), and the structure they stand in, by which a partner tells the zones that differ
(spec/02 R75). -/
structure Ckpt where
  regs : Tab Word
  fregs : Tab Word
  srcs : Tab SrcSt
  decs : Tab DecSt
  heads : Tab HeadSt
  encs : Tab EncSt
  rings : Tab RingSt
  acc : Tab AccSt
  tim : TimSt
  freqs : List (Nat × Tab PanFreq)
  absent : List Nat
  plan : Plan
  deriving DecidableEq, Repr

/-- A good checkpoint that the ring still holds: its place counted in bytes written since start, CUT_SEQ and tick. -/
structure CkptRef where
  pos : Nat
  cut : Word
  tick : Nat
  deriving DecidableEq, Repr

/-- A checkpoint being written (R504, R505). -/
structure CkptRun where
  pos : Nat
  cut : Word
  tick : Nat
  data : List Byte
  sound : Bool
  deriving DecidableEq, Repr

/-- A flight recorder slot being filled (R506): slot, tick of T, first and next byte to copy counted as in `CkptRef`, bytes at
T + 2 s, whether copying has stopped, ring commands that wait for the freeze. -/
structure FrRun where
  slot : Nat
  tick : Nat
  start : Nat
  pos : Nat
  len2 : Nat
  full : Bool
  waits : List (Nat × Nat)
  deriving DecidableEq, Repr

/-- A dump in progress or held (R508): slot, dump slot, the DUMP command that waits, whether it is held by temperature. -/
structure DumpRun where
  slot : Nat
  which : Nat
  cmd : Option (Nat × Nat)
  held : Bool
  deriving DecidableEq, Repr

/-- A re-run (R526 to R528): address and length of the recording and how far it is applied; the next record as read, with its length; recorded row checks that wait as (head,
frame, port, first row, checks) and those of this unit's frames as (head, frame, port, check and whether it is comparable by row); pictures that
INGEST records named as (source, ALIVE, capture time, content check), layers that show another buffer as (head, layer), frames with a difference, event limit. -/
structure RerunSt where
  addr : Nat
  len : Nat
  pos : Nat
  next : Option (JRec × Nat)
  rows : List (Nat × Nat × Nat × Nat × List Nat)
  own : List (Nat × Nat × Nat × List (Nat × Bool))
  ingested : List (Nat × Nat × Nat × Nat)
  missed : List (Nat × Nat)
  bad : List (Nat × Nat)
  diffEv : Option (Nat × Nat)
  deriving DecidableEq, Repr

/-- What the journal engine holds beside its registers: bytes written to the ring since start, whether it waits in STARTING, good
checkpoints in the ring, the one in progress, tick of the next, bytes of the second, triggers not yet taken as (cause, T, tick,
waiting command), the slot being filled, by frozen slot its bytes at T + 2 s and its checkpoints' offsets, the dump, frozen slots that DUMP_ON_FREEZE has yet to dump, the re-run. -/
structure JrnSt where
  span : Nat
  ckpts : List CkptRef
  run : Option CkptRun
  nextTick : Nat
  secTick : Nat
  secBytes : Nat
  trigs : List (Nat × Word × Nat × Option (Nat × Nat))
  fr : Option FrRun
  frLen2 : List (Nat × Nat)
  frCkpts : List (Nat × List Nat)
  dump : Option DumpRun
  dumpQ : List Nat
  rerun : Option RerunSt
  deriving DecidableEq, Repr

/-- DESIGN CHOICE, log 7. -/
def JrnSt.init : JrnSt :=
  { span := 0, ckpts := [], run := none, nextTick := 0, secTick := 0, secBytes := 0, trigs := [], fr := none, frLen2 := [],
    frCkpts := [], dump := none, dumpQ := [], rerun := none }

/-! ### The tandem (spec/16) -/

/-- A packet kept for sending again (R514): stream, ALIVE, type, payload. -/
structure Replay where
  stream : Nat
  alive : Nat
  typ : Nat
  payload : List Byte
  deriving DecidableEq, Repr

/-- LATCH records of a head's frame as received (R500, R519): flipped layers, the cursor position sampled, LUT bank, entries as
(layer, ALIVE, buffer tag). -/
structure LatchRec where
  head : Nat
  frame : Nat
  flipped : Nat
  pos : Nat
  bank : Nat
  entries : List (Nat × Nat × Nat)
  deriving DecidableEq, Repr

/-- What the tandem holds beside its registers. Ticks: of the last valid heartbeat, of the last one sent, of entry to the role, of
entry to FAILED while its heartbeats are sent; `silent` once they have ended. The partner's last role and IN_SYNC; HANDOVER as (ring,
entry count, time) here, its time there. Sending (R514, R521): replay buffer, tick of the last ACK, records on their way out, what
the partner is fed (0 nothing, 1 it waits for the next checkpoint, 2 everything), the SEQ last sent, the next 4 KiB window block to send, bytes
mirrored since the last whole KiB. Receiving: by stream the last ALIVE in order and, while a jump is open, the last ALIVE out of order; the
last SEQ applied, its instant, the partner's SEQ; while joining the checkpoint's CUT_SEQ and data, whether it is loaded, how many
window packets have come, whether TIME_NS has been stepped; records waiting, STREAM_ENTRY permissions as (ring, entry count),
LATCH records waiting, by head the last frame followed; ticks since which the offset exceeds TIME_TOL; FOLLOW_MISS limit. A reset that
waits for the heartbeats of FAILED, as (kind, cause); the zones in which the partner's structure is known to differ (spec/02 R75). `applying` while a step applies a record of the partner or of a re-run; false between
steps. -/
structure TndSt where
  hbTick : Option Nat
  sendTick : Nat
  roleTick : Nat
  failTick : Option Nat
  silent : Bool
  pRole : Nat
  pSync : Bool
  handover : Option (Nat × Nat × Word)
  hoRx : Option Word
  replay : List Replay
  ackTick : Nat
  outq : List JRec
  feed : Nat
  sent : Word
  winPos : Option Nat
  mirRem : Nat
  rxLast : List (Nat × Nat)
  rxJump : List (Nat × Nat)
  applied : Word
  appliedTime : Word
  pSeq : Word
  joinCut : Option Word
  joinData : List (Nat × List Byte)
  joinLoaded : Bool
  blocks : Nat
  stepped : Bool
  records : List JRec
  streams : List (Nat × Nat)
  latches : List LatchRec
  followed : List (Nat × Nat)
  ofsTick : Option Nat
  missEv : Option (Nat × Nat)
  resetDue : Option (Nat × Nat)
  applying : Bool
  differ : List Nat
  deriving DecidableEq, Repr

/-- DESIGN CHOICE, log 7. -/
def TndSt.init : TndSt :=
  { hbTick := none, sendTick := 0, roleTick := 0, failTick := none, silent := false, pRole := 7, pSync := false, handover := none,
    hoRx := none, replay := [], ackTick := 0, outq := [], feed := 0, sent := 0, winPos := none, mirRem := 0, rxLast := [], rxJump := [],
    applied := 0, appliedTime := 0, pSeq := 0, joinCut := none, joinData := [], joinLoaded := false, blocks := 0, stepped := false,
    records := [], streams := [], latches := [], followed := [], ofsTick := none, missEv := none, resetDue := none, applying := false,
    differ := [] }

/-! ### The warden, the configuration store, OTP (spec/02, spec/04, spec/17, spec/18) -/

/-- A slot status record (spec/02 R53): generation, preferred slot (1 or 2), and by slot GOLDEN, SLOT_A, SLOT_B its state, SEQUENCE and
STRUCTURE_HASH; TRIAL_BOOTS. -/
structure SlotRec where
  gen : Word
  preferred : Nat
  states : List Nat
  seqs : List Nat
  hashes : List (List Byte)
  trialBoots : Nat
  check : Nat
  deriving DecidableEq, Repr

/-- The configuration store (spec/02): the containers by slot, the two copies of the slot status record, updates held by R59, the
life record's values (spec/17 R558: whole hours, equivalent hours in units of 2^-32 hour), its daily entries as (request,
TEMP_MAX, band), touch baselines by panel (columns, rows, frequency, values), dumps. -/
structure StoreSt where
  slots : List (List Byte)
  recA : SlotRec
  recB : SlotRec
  lifeHours : Nat
  lifeEq : Nat
  wear : List (Nat × Int × Nat)
  baselines : Tab (List (Nat × Nat × Nat × List Nat))
  dumps : List (List Byte)
  deriving DecidableEq, Repr

/-- Warden OTP: key hashes by slot (empty when not programmed) and revoke bits, SEQUENCE floor, the FIELD bit, whether slot 0 is
the development key's, serial number, integrity. -/
structure OtpSt where
  hashes : List (List Byte)
  revoked : List Bool
  floor : Nat
  field : Bool
  devKey : Bool
  serial : Nat
  sound : Bool
  deriving DecidableEq, Repr

/-- A zone reload in progress (spec/02 R70): zone, step, the new structure and its STRUCTURE_HASH and SEQUENCE, whether its image
is used, heads still to reach their latch instant, tick at which the drain ends. -/
structure ZoneRun where
  zone : Nat
  step : Nat
  plan : Plan
  hash : List Byte
  seq : Nat
  image : Bool
  heads : List Nat
  drainTick : Nat
  deriving DecidableEq, Repr

/-- A command of STRUCT_CMD in progress: OP, ARG, and for WRITE_SLOT the container being written. -/
structure StructRun where
  op : Nat
  arg : Nat
  data : List Byte
  deriving DecidableEq, Repr

/-- What the warden holds beside the THERMAL, STRUCTURE and DEBUG registers: the start-up step waited at (0 none; 1 sensors; 2 start hold; 3
structure; 4 routing; 5 supplies; 6 memory), its tick and that of the reset; slots still to try, the slot started from, the container loaded as
(structure, STRUCTURE_HASH, SEQUENCE, image used); straps as sampled (bit 0 TANDEM_ID, 1 SMBUS_ADDR0, 2 SMBUS_ADDR1, 3 BOOT_SLOT);
confirmation time as (slot, tick); last reading tick by sensor, failed sensors, the expert registers in force (R561), warden core readings; ticks of GRACE
entry, since which the next step is timed, since TEMP_MAX is low, since it is at CRIT, since it is below RECOVER_TEMP; highest TEMP_MAX of
the episode; the cause of the fail-safe; recovery ticks; a RECOVERED that is due; tick of the last change of the VDD_FAB request; hour and
day timers, sum and count of the hour's TEMP_MAX; the day's highest request and its TEMP_MAX; requests of the last 24 h as (tick, mV); life hours and
daily entries held, slot status update and training bands held (R553); SMBus pointer; whether a fault or the level holds SMB_ALERT_N low; event
limits as (tick, count); structure command, zone reload; SERVICE being entered, as (KEY_ID, UNIT_SERIAL, 0 while heads still
reach their latch instant and 1 once every function stops, those heads); debug writes of the millisecond as (tick, count, lowest, highest);
whether the witness island is powered and reports, and the tick of its last report (spec/09 R299). -/
structure WdnSt where
  waitStep : Nat
  waitTick : Nat
  resetTick : Nat
  order : List Nat
  slot : Nat
  load : Option (Plan × List Byte × Nat × Bool)
  straps : Nat
  confirm : Option (Nat × Nat)
  sensTick : List (Nat × Nat)
  sensBad : List Nat
  force : List Word
  wTemps : List Int
  graceTick : Nat
  stepTick : Nat
  lowTick : Option Nat
  critTick : Option Nat
  coolTick : Option Nat
  peak : Int
  cause : Nat
  recoveries : List Nat
  recovered : Option Nat
  vddTick : Nat
  hourTick : Nat
  tempSum : Int
  tempCount : Nat
  dayTick : Nat
  dayMax : Nat × Int
  dayReqs : List (Nat × Nat)
  lifeHeld : Nat × Nat
  wearHeld : List (Nat × Int × Nat)
  statusHeld : Option SlotRec
  trainHeld : List Nat
  pointer : Nat
  alertFault : Bool
  alertLevel : Bool
  sensEv : Option (Nat × Nat)
  storeEv : Option (Nat × Nat)
  cmd : Option StructRun
  zone : Option ZoneRun
  serviceStep : Option (Nat × Nat × Nat × List Nat)
  dbgWrites : Option (Nat × Nat × Nat × Nat)
  island : Bool
  witTick : Nat
  deriving DecidableEq, Repr

/-- DESIGN CHOICE, log 6. -/
def SlotRec.init : SlotRec :=
  { gen := 0, preferred := 1, states := [0, 0, 0], seqs := [0, 0, 0], hashes := [[], [], []], trialBoots := 0, check := 0x56CBC6D353B67632 }

/-- DESIGN CHOICE, log 6. -/
def StoreSt.init : StoreSt :=
  { slots := [[], [], []], recA := SlotRec.init, recB := SlotRec.init, lifeHours := 0, lifeEq := 0, wear := [], baselines := [],
    dumps := [[], []] }

/-- DESIGN CHOICE, log 6. -/
def OtpSt.init : OtpSt :=
  { hashes := [[], [], [], []], revoked := [false, false, false, false], floor := 0, field := false, devKey := false, serial := 0,
    sound := true }

/-- The basic values of the expert registers of THERMAL (spec/17 Registers). -/
def thmBasic : List Word := [0x6E64, 0x01F407D0, 0x000A0005, 0x003C5501, 0x28]

/-- DESIGN CHOICE, log 6; DESIGN CHOICE, log 7. -/
def WdnSt.init : WdnSt :=
  { waitStep := 1, waitTick := 0, resetTick := 0, order := [], slot := 3, load := none, straps := 0, confirm := none, sensTick := [],
    sensBad := [], force := thmBasic, wTemps := [0, 0], graceTick := 0, stepTick := 0, lowTick := none, critTick := none, coolTick := none, peak := 0,
    cause := 0, recoveries := [], recovered := none, vddTick := 0, hourTick := 0, tempSum := 0, tempCount := 0, dayTick := 0,
    dayMax := (0, 0), dayReqs := [], lifeHeld := (0, 0), wearHeld := [], statusHeld := none, trainHeld := [], pointer := 0,
    alertFault := false, alertLevel := false, sensEv := none, storeEv := none, cmd := none, zone := none, serviceStep := none,
    dbgWrites := none, island := true, witTick := 0 }

/-- The whole device. `coreBad` are decoder cores whose last decode timed out, `coreOut` those out of service (spec/16 R509). -/
structure State where
  powered : Bool
  fabricUp : Bool
  bus : Bus
  plan : Plan
  fregs : Tab Word
  lanes : Tab LaneSt
  links : Tab LinkSt
  tim : TimSt
  srcs : Tab SrcSt
  decs : Tab DecSt
  cores : Tab (Option CoreSt)
  coreBad : List Nat
  coreOut : List Nat
  heads : Tab HeadSt
  wbs : Tab (Option WbSt)
  encs : Tab EncSt
  panels : Tab PanelSt
  jrn : JrnSt
  tnd : TndSt
  wdn : WdnSt
  flash : StoreSt
  otp : OtpSt
  pending : List Instr
  deriving DecidableEq, Repr

/-- Right after reset (DESIGN CHOICE, log 7). -/
def State.reset : State :=
  { powered := true, fabricUp := false, bus := Bus.init, plan := Plan.none, fregs := [], lanes := [], links := [], tim := TimSt.init,
    srcs := [], decs := [], cores := [], coreBad := [], coreOut := [], heads := [], wbs := [], encs := [], panels := [],
    jrn := JrnSt.init, tnd := TndSt.init, wdn := WdnSt.init, flash := StoreSt.init, otp := OtpSt.init, pending := [] }

end Sys2Proof.Machine
end

