-- ==== Sys2Proof/Machine/Ops.lean ====
section
/-! DEFINITION. The operations over the whole state that every meaning uses: registers of both sides, events,
messages, and how a command's effect becomes the answer of `exec`. -/

namespace Sys2Proof.Machine

/-- What exec answers. -/
abbrev Answer := Host.Outcome State Fault Refusal

/-- Change the shared part only. -/
def State.onBus (s : State) (f : Bus → Bus) : State := { s with bus := f s.bus }

/-- The key of a function register in `fregs`. -/
def FReg.key (r : FReg) (i j : Nat) : Nat := Nat.pair (Nat.pair r.ctorIdx i) j

/-- The value a function register holds; its reset value where the table lists none. -/
def State.reg (s : State) (r : FReg) (i j : Nat) : Word := tabGet (r.reset i j) s.fregs (r.key i j)

def State.setReg (s : State) (r : FReg) (i j : Nat) (v : Word) : State :=
  { s with fregs := tabSet (r.reset i j) s.fregs (r.key i j) v }

/-- A field of a function register. -/
def State.fld (s : State) (r : FReg) (i j lo n : Nat) : Nat := bf (s.reg r i j) lo n

def State.setFld (s : State) (r : FReg) (i j lo n v : Nat) : State :=
  s.setReg r i j (setBf (s.reg r i j) lo n v)

/-- Add to a counting register, modulo 2^32 (log 9). -/
def State.bump (s : State) (r : FReg) (i j n : Nat) : State := s.setReg r i j (s.reg r i j + w32 n)

def State.pair (s : State) (lo hi : FReg) (i j : Nat) : Nat := (s.reg lo i j).toNat + (s.reg hi i j).toNat * 2 ^ 32

def State.setPair (s : State) (lo hi : FReg) (i j v : Nat) : State :=
  (s.setReg lo i j (w32 v)).setReg hi i j (w32 (v / 2 ^ 32))

/-- TIME_NS now. -/
def State.now (s : State) : Word := s.bus.time

/-- Elapsed REFCLK ticks: 200,000 a millisecond (R6, log 1). -/
def State.ticks (s : State) : Nat := s.bus.ticks

/-- Ticks of a millisecond and of a second. -/
def tickMs : Nat := 200000
def tickS : Nat := 200000000

/-- Raise an event (spec/03 R108). -/
def State.emit (s : State) (typ inst sev : Nat) (p : Payload) : State := s.onBus fun b => b.emit typ inst sev p

/-- Raise an event of a head's frame at an instant. -/
def State.emitAt (s : State) (time : Word) (frame : Option Word) (typ inst sev : Nat) (p : Payload) : State :=
  s.onBus fun b => b.emitAt time frame typ inst sev p

/-- A message or a pin change leaves the device. -/
def State.send (s : State) (o : Out) : State := s.onBus fun b => b.send o

/-- Write a journal record (spec/16 R499); the engine stands on the fabric die. What a record of the partner or of a re-run decides is
recorded already. -/
def State.journal (s : State) (kind cap inst : Nat) (body : List Byte) : State :=
  if s.fabricUp && !s.tnd.applying then s.onBus fun b => b.journal kind cap inst body else s

def State.journalAt (s : State) (t : Word) (kind cap inst : Nat) (body : List Byte) : State :=
  if s.fabricUp && !s.tnd.applying then s.onBus fun b => b.journalAt t kind cap inst body else s

def State.setWdn (s : State) (x : WdnSt) : State := { s with wdn := x }

/-- A GIVE_UP record (spec/01 R28, spec/16 R500): a function keeps the guarantee of one rank of R27 and gives up another, with the code
of the event it raises. `tag` is the frame or TAG; where the step has neither, a free value (log 47). -/
def State.giveUp (s : State) (cap inst kept given code : Nat) (tag : Option Word) : State :=
  match tag with
  | some t => s.journal 0x0D cap inst (le 1 kept ++ le 1 given ++ le 2 code ++ le 4 t.toNat)
  | none => (s.onBus fun b => b.freeWord.2).journal 0x0D cap inst (le 1 kept ++ le 1 given ++ le 2 code ++ le 4 s.bus.freeWord.1.toNat)

/-- A flight recorder trigger at this instant (spec/16 R506): 0 FAULT, 1 takeover, 2 partner failed, 3 FREEZE with its ring entry. -/
def State.trigger (s : State) (cause : Nat) (wait : Option (Nat × Nat)) : State :=
  { s with jrn := { s.jrn with trigs := s.jrn.trigs ++ [(cause, s.bus.time, s.bus.ticks, wait)] } }

/-- The device enters a fault of spec/17 R554: THM_FAULT and, at the first since reset, its time; FAULT carries the code in
bytes 2 to 3 after the CAP_ID that its instance belongs to. -/
def State.fault (s : State) (cap inst code : Nat) : State :=
  let first := s.fld .thmFault 0 0 16 16 = 0
  let s := if first then (s.setFld .thmFault 0 0 0 8 code).setReg .thmFaultTime 0 0 s.now else s
  let s := s.setFld .thmFault 0 0 8 8 code
  let s := s.setFld .thmFault 0 0 16 16 (min 65535 (s.fld .thmFault 0 0 16 16 + 1))
  let s := { s with wdn := { s.wdn with alertFault := true } }
  let s := s.emit 0x0101 inst 2 (payB (le 2 cap ++ le 2 code))
  if bit (s.bus.reg .jrnCtl 0 0) 1 then s.trigger 0 none else s

/-- A free value (log 3). -/
def State.free (s : State) : Word × State := (s.bus.freeWord.1, s.onBus fun b => b.freeWord.2)

/-- FN_CTL.STATE. -/
def State.fnState (s : State) (cap inst : Nat) : Nat := s.bus.fnState cap inst
def State.isOn (s : State) (cap inst : Nat) : Bool := s.bus.isOn cap inst
def State.expert (s : State) (cap inst : Nat) : Bool := s.bus.expert cap inst

/-- A master reads memory. -/
def State.load (s : State) (m a n : Nat) : State × MemRes :=
  ({ s with bus := (s.bus.load m a n).1 }, (s.bus.load m a n).2)

/-- A master writes memory; true when the write was taken. -/
def State.store (s : State) (m a : Nat) (data : List Byte) : State × Bool :=
  ({ s with bus := (s.bus.store m a data).1 }, (s.bus.store m a data).2)

def State.link (s : State) (p : Nat) : LinkSt := tabGet LinkSt.init s.links p
def State.setLink (s : State) (p : Nat) (x : LinkSt) : State := { s with links := tabSet LinkSt.init s.links p x }
def State.head (s : State) (h : Nat) : HeadSt := tabGet HeadSt.init s.heads h
def State.lane (s : State) (p : Nat) : LaneSt := tabGet LaneSt.init s.lanes p
def State.setLane (s : State) (p : Nat) (x : LaneSt) : State := { s with lanes := tabSet LaneSt.init s.lanes p x }

/-- PORT_STATE.STATE: 0 OFF, 1 TRAINING, 2 ACTIVE, 3 REPAIR, 4 ABSENT, 5 TEST, 6 IDLE, 7 DEEP. -/
def State.portState (s : State) (p : Nat) : Nat := s.fld .portState p 0 0 4

/-- The unit drives endpoints: it runs alone, or its role is ACTIVE or HANDING_OVER (spec/16 R511, R517, R518). -/
def State.drives (s : State) : Bool :=
  s.plan.tandem.isNone || s.fld .tndState 0 0 0 3 == 3 || s.fld .tndState 0 0 0 3 == 5

/-- The epoch that the unit sends: its own, or on a unit that does not drive the ACTIVE's (spec/16 R515, R580). -/
def State.epoch (s : State) : Nat := (if s.drives then s.reg .tndEpoch 0 0 else s.reg .tndPartnerEpoch 0 0).toNat

/-- The unit re-runs a recording (spec/16 R526). -/
def State.rerunning (s : State) : Bool := s.bus.fld .rerunState 0 0 0 2 == 2

/-- The unit makes the choices of the kinds that records replace: it follows neither a partner's records nor a recording's (spec/16 R519,
R521, R527). -/
def State.chooses (s : State) : Bool :=
  let role := s.fld .tndState 0 0 0 3
  !(s.rerunning || (s.plan.tandem.isSome && (role == 2 || (role == 1 && s.tnd.joinLoaded))))

/-- Deliver every event that the command raised (spec/03 R109). -/
def State.settle (s : State) : State := { s with bus := Bus.settle s.plan s.bus }

end Sys2Proof.Machine
end

