-- ==== Sys2Proof/Machine/Panel.lean ====
section
/-! DEFINITION. What every command may make of a touch panel (spec/14 R458 to R467): the reports, the release of contacts and
keys, entry to UNAVAILABLE and the causes that follow the port, the head and the tandem role; and how a command's effect becomes
the answer of `exec`. -/

namespace Sys2Proof.Machine

def State.pan (s : State) (p : Nat) : PanelSt := tabGet PanelSt.init s.panels p
def State.setPan (s : State) (p : Nat) (x : PanelSt) : State := { s with panels := tabSet PanelSt.init s.panels p x }

/-- TOUCH_STATUS.STATE: 0 OFF, 1 STARTING, 2 AVAILABLE, 3 UNAVAILABLE. -/
def State.panState (s : State) (p : Nat) : Nat := s.fld .touchStatus p 0 0 2

/-- TOUCH_STATUS.FREQ_INDEX: the current frequency. -/
def State.panFreq (s : State) (p : Nat) : Nat := s.fld .touchStatus p 0 5 3

/-- A field of the settings in force (R468, R469): 0 TOUCH_CTL, 1 TOUCH_LIMITS, 2 to 9 the expert registers in the order of their
offsets, 10 to 17 TOUCH_X_FREQ_i. -/
def PanelSt.f (x : PanelSt) (i lo n : Nat) : Nat := bf (x.force.getD i 0) lo n

/-- A plan entry that names no panel. -/
def PanelEnt.none : PanelEnt :=
  { panel := 0, port := 64, head := 0xFF, host := 0, cols := 1, rows := 1, maxKeys := 0, maxContacts := 1, zone := 0xFF,
    reportHz := 1, ageLimit := 1, maxContactS := 1 }

def State.panEnt (s : State) (p : Nat) : PanelEnt := (s.plan.panel p).getD PanelEnt.none

/-- The nodes within `d` columns and rows of a node (R450, R452). -/
def nearNodes (cols rows d n : Nat) : List Nat :=
  (List.range (cols * rows)).filter fun m =>
    decide (m % cols ≤ n % cols + d) && decide (n % cols ≤ m % cols + d) &&
    decide (m / cols ≤ n / cols + d) && decide (n / cols ≤ m / cols + d)

/-- The nodes of a key's area (R446). -/
def KeyEnt.area (k : KeyEnt) (cols : Nat) : List Nat :=
  (List.range k.rows).flatMap fun r => (List.range k.cols).map fun c => (k.row0 + r) * cols + k.col0 + c

/-- The registers that show what the panel holds: CAUSE, BASELINE_FROM, CONTACTS and TOUCH_SUSPECT. -/
def State.panShow (s : State) (p : Nat) : State :=
  let x := s.pan p
  let cause := if s.panState p = 3 then (List.range 8).find? fun c => x.causes.contains c else none
  let from_ := ((tabGet PanFreq.init x.freqs (s.panFreq p)).src).getD (if x.chosen then 2 else 0)
  let s := (s.setFld .touchStatus p 0 2 3 (cause.getD 0)).setFld .touchStatus p 0 8 2 from_
  (s.setFld .touchStatus p 0 10 4 x.contacts.length).setReg .touchSuspect p 0 (w32 (x.suspect.length % 2 ^ 14))

/-- Nodes become or cease to be SUSPECT; SUSPECT is raised at most once a second (R449, R450, R452, R471). -/
def State.panSuspect (s : State) (p : Nat) (add clear : List Nat) : State :=
  let x := s.pan p
  let add := add.filter fun n => !x.suspect.contains n
  let clear := clear.filter fun n => x.suspect.contains n
  if add.isEmpty ∧ clear.isEmpty then s
  else
    let x := { x with suspect := (x.suspect ++ add.eraseDups).filter fun n => !clear.contains n }
    let old := x.suspEv.getD (0, 0, 0, 0)
    let a := old.2.1 + add.length
    let c := old.2.2.1 + clear.length
    let k := old.2.2.2 + 1
    let due : Bool := match x.suspEv with | none => true | some e => decide (e.1 + tickS ≤ s.ticks)
    if due then
      (s.setPan p { x with suspEv := some (s.ticks, 0, 0, 0) }).emit 0x2104 p 0 (pay [a, c, k])
    else s.setPan p { x with suspEv := some (old.1, a, c, k) }

/-- A contact slot of R458: event 1 DOWN, 2 MOVE, 3 UP with its reason. -/
def Contact.slot (c : Contact) (ev reason : Nat) : List Byte :=
  le 1 c.id ++ le 1 (ev + 16 * reason) ++ le 2 c.x ++ le 2 c.y ++ le 1 (if ev = 3 then 0 else c.strength) ++ le 1 (b2n c.glove)

/-- The slots of a report: every active contact, then every UP not delivered yet (R459). -/
def PanelSt.slots (x : PanelSt) : List (List Byte) :=
  (x.contacts.map fun c => c.slot (if c.fresh then 1 else 2) 0) ++ x.ups

/-- The pressed-key bitmap (R458). -/
def PanelSt.keyMap (x : PanelSt) : List Byte :=
  (List.range 32).map fun i => BitVec.ofNat 8 (((List.range 8).map fun j =>
    if x.pressed.any fun k => k.1 == 8 * i + j then 2 ^ j else 0).sum)

/-- The entries of a report (R458, R459). -/
def PanelSt.report (x : PanelSt) (p seq st cause freq : Nat) (stamp now : Word) : List (List Byte) :=
  let sl := x.slots
  let two : Bool := decide (5 < sl.length)
  let parts := 1 + b2n two + b2n x.keysChanged
  let head := fun (typ part : Nat) =>
    le 1 typ ++ le 1 p ++ le 1 part ++ le 1 parts ++ le 2 seq ++ le 1 st ++ le 1 cause ++ le 4 stamp.toNat ++ le 4 now.toNat
  let one := head 1 0 ++ le 1 (b2n x.lost + 2 * b2n x.keysChanged + 4 * b2n (!x.suspect.isEmpty)) ++ le 1 sl.length ++
    le 1 freq ++ le 1 x.pressed.length ++ le 4 0 ++ (sl.take 5).flatten
  let second := if two then [fit 64 (head 2 1 ++ ((sl.drop 5).take 6).flatten)] else []
  let keys := if x.keysChanged then [fit 64 (head 3 (1 + b2n two) ++ x.keyMap)] else []
  fit 64 one :: second ++ keys

/-- The panel's touch ring, when it takes entries: KIND 4, ON, with room (R459). -/
def State.panRoom (s : State) (p parts : Nat) : Bool :=
  let r := s.fld .touchRing p 0 0 9
  decide (r < 256) && s.isOn 2 r && s.bus.ringKind r == 4 && decide (s.bus.ringUsed r + parts ≤ s.bus.ringSize r)

/-- The panel's touch ring takes entries but lacks room for a report of so many (R459, spec/03 R98). -/
def State.panFull (s : State) (p parts : Nat) : Bool :=
  let r := s.fld .touchRing p 0 0 9
  decide (r < 256) && s.isOn 2 r && s.bus.ringKind r == 4 && decide (s.bus.ringSize r < s.bus.ringUsed r + parts)

/-- Post a report, all its parts or none (R459, R460); a full ring drops them all (spec/03 R98); `stamp` none for a report built without a frame, which carries the STAMP
of the last report, a free value when there is none (R458; log 3). -/
def State.panPost (s : State) (p st cause : Nat) (stamp : Option Word) : State :=
  let x := s.pan p
  let parts := 1 + b2n (decide (5 < x.slots.length)) + b2n x.keysChanged
  if !s.panRoom p parts then
    let s := if s.panFull p parts then s.onBus fun b => b.ringFull (s.fld .touchRing p 0 0 9) parts else s
    let s := (s.bump .touchDropped p 0 1).setPan p { x with drops := x.drops + 1, lost := true }
    s.emit 0x2109 p 1 (pay [x.drops + 1])
  else
    let f : Word × State := match stamp with
      | some t => (t, s)
      | none => match x.lastStamp with
        | some t => (t, s)
        | none => s.free
    let s := f.2
    let seq := aliveNext x.seq
    let es := x.report p seq st cause (s.panFreq p) f.1 s.now
    let r := s.fld .touchRing p 0 0 9
    let h := (s.panEnt p).host
    let s := forEach es (fun e s => s.onBus fun b => (b.post h r e).1) s
    let s := s.setPan p { x with seq := seq, ups := [], lost := false, keysChanged := false, drops := 0, lastStamp := some f.1,
                                 contacts := x.contacts.map fun c => { c with fresh := false } }
    (s.bump .touchReports p 0 1).setReg .touchLastAge p 0 (s.now - f.1)

/-- Release every contact and key with a reason (R458, R460, R463); a contact past MAX_CONTACT_S in a stale release makes its
area SUSPECT (R467). -/
def State.panRelease (s : State) (p reason : Nat) : State :=
  let x := s.pan p
  let e := s.panEnt p
  let old := if reason = 2 then x.contacts.filter fun c => decide (c.since + x.f 1 16 11 * tickS < s.ticks) else []
  let s := s.panSuspect p (old.flatMap fun c => nearNodes e.cols e.rows 1 c.node) []
  let x := s.pan p
  s.setPan p { x with contacts := [], ups := x.ups ++ x.contacts.map (fun c => c.slot 3 reason),
                      keysChanged := x.keysChanged || !x.pressed.isEmpty, pressed := [] }

/-- A cause of UNAVAILABLE arises (R464, R467): from AVAILABLE everything is released, and the report of the new state posted, with the STAMP
of the frame that it is built on, if any (R458, R460) (DEDUCED, log 51). -/
def State.panFall (s : State) (p cause : Nat) (stamp : Option Word) : State :=
  let x := s.pan p
  let s := s.setPan p { x with causes := addSet x.causes cause }
  let s := if s.panState p = 2 then
      let s := s.panRelease p (if cause = 3 then 2 else 3)
      let s := (s.setFld .touchStatus p 0 0 2 3).panShow p
      let low := s.fld .touchStatus p 0 2 3
      let s := (s.emit 0x2101 p 1 (pay [2, 3, low])).setPan p { s.pan p with repTick := s.ticks }
      s.panPost p 1 low stamp
    else s
  s.panShow p

/-- A cause that arises without a frame. -/
def State.panUnavail (s : State) (p cause : Nat) : State := s.panFall p cause none

/-- The causes that hold as long as something outside the panel does (R464 to R466): 1 LINK, 2 SILENT, 6 HEAD, 7 STANDBY. -/
def State.panHolds (s : State) (p : Nat) : List Nat :=
  let e := s.panEnt p
  let x := s.pan p
  (if s.portState e.port ≠ 2 then [1] else []) ++
  (if (s.link e.port).silent then [2] else []) ++
  (if x.f 0 0 1 = 1 ∧ e.head ≠ 0xFF ∧ s.fld .headStatus e.head 0 0 3 ≠ 3 then [6] else []) ++
  (if !s.drives then [7] else [])

/-- A panel follows its port, its head and the tandem role after every command (R464 to R466). A start sequence whose port leaves
ACTIVE is sent again once it returns. -/
def State.panWatch (s : State) (p : Nat) : State :=
  let st := s.panState p
  if st = 0 then s
  else
    let x := s.pan p
    let now := s.panHolds p
    if st = 1 then
      if x.started ∧ (now.contains 1 ∨ now.contains 7) then s.setPan p { x with started := false, chosen := false, cycs := [], item := none }
      else s
    else
      let kept := x.causes.filter fun c => c == 3 || c == 4 || c == 5
      let s := if now.contains 1 ∨ now.contains 7 then s.setPan p { x with cycs := [], item := none, nextAt := none, endAt := none } else s
      match (List.range 8).find? fun c => now.contains c with
      | some c =>
        if st = 2 then (s.setPan p { s.pan p with causes := kept ++ now }).panUnavail p c
        else (s.setPan p { s.pan p with causes := kept ++ now }).panShow p
      | none => if x.causes = kept then s else (s.setPan p { s.pan p with causes := kept }).panShow p

/-- WAIT_FENCE and FENCE_BEFORE of a command record (spec/03 R100). -/
def FEntry.waitFence (e : FEntry) : Nat := leAt e.data 12 2
def FEntry.fenceBefore (e : FEntry) : Bool := (byteAt e.data 2).testBit 0

/-- The entries before entry k in the ring's fetched list. -/
def before (k : Nat) (l : List FEntry) : List FEntry := l.takeWhile fun e => e.k != k

/-- Entry k's wait of step 1 is met: every earlier command has completed (R101). -/
def beforeMet (l : List FEntry) (e : FEntry) : Bool :=
  !e.fenceBefore || (before e.k l).all fun x => x.phase == .done

/-- An entry of the ring's fetched list `l` in step 2 of R101 whose object's value meets its wait now is met, and stays so, be it met as it is
fetched (spec/03 R107). -/
def Bus.meetWait (b : Bus) (l : List FEntry) (e : FEntry) : FEntry :=
  if e.phase ≠ .running ∧ e.phase ≠ .done ∧ beforeMet l e ∧ b.fenceMet e.waitFence (leAt e.data 16 8) then { e with met := true } else e

/-- The same for every entry fetched. -/
def Bus.meetWaits (b : Bus) : Bus :=
  { b with rings := b.rings.map fun q => (q.1, { q.2 with fetched := q.2.fetched.map (b.meetWait q.2.fetched) }) }

/-- A layer's render fence whose value is met now is met, and stays so (spec/08 R250, spec/03 R107). -/
def Bus.meetLayers (b : Bus) (x : HeadSt) : HeadSt :=
  { x with met := (x.fences.filter fun q => x.met.contains q.1 || b.fenceMet q.2.1 q.2.2).map Prod.fst }

/-- The same for every head. -/
def State.meetFlips (s : State) : State := { s with heads := s.heads.map fun q => (q.1, s.bus.meetLayers q.2) }

/-- What holds after every command: waits on fence objects that are met are marked so (spec/03 R107), those of layers' flips too (spec/08
R250); and every panel of the structure follows. -/
def State.watch (s : State) : State :=
  forEach s.plan.panels (fun e s => s.panWatch e.panel) (s.onBus Bus.meetWaits).meetFlips

/-- STORE_TEMP (spec/17 R553, R562), at most once a second with the count since the last: kind of write by the rows of R553, from 0. -/
def State.storeRefused (s : State) (kind : Nat) : State :=
  let n := (s.wdn.storeEv.map Prod.snd).getD 0 + 1
  let due : Bool := match s.wdn.storeEv with | none => true | some e => decide (e.1 + tickS ≤ s.ticks)
  if due then
    ({ s with wdn := { s.wdn with storeEv := some (s.ticks, 0) } }).emit 0x3308 0 1
      (pay [kind, s.fld .thmTemp 0 0 0 16, s.fld .thmWardenTemp 0 0 0 16, n])
  else { s with wdn := { s.wdn with storeEv := s.wdn.storeEv.map fun e => (e.1, n) } }

/-- The answer of a command to the fabric die: its effect, what the panels make of it, and the delivery of the events it raised. On
a die that is unpowered or held in reset nothing happens (spec/17 R556) (DEDUCED, log 4). -/
def State.fabric (s : State) (f : State → State) : Answer :=
  .next (if s.powered && s.fabricUp then (f s).watch.settle else s)

/-- The answer of a command to the warden die, which runs whatever the fabric die does (spec/01 R9) (DEDUCED, log 4). -/
def State.warden (s : State) (f : State → State) : Answer :=
  .next (if s.powered then (f s).watch.settle else s)

/-- The control window and the memory window answer (spec/17 R538): from the fabric die once it runs, and before that from the warden, but for
the start hold, in which the PCI Express islands are not present (R556; log 48). -/
def State.served (s : State) : Bool := s.powered && (if s.wdn.waitStep = 0 then s.fabricUp else s.wdn.waitStep != 2)

/-- Until step 7 of R537 the control window holds only DEVICE_CORE and STRUCTURE (R538) (DEDUCED, log 48). -/
def State.holds (s : State) (cap : Nat) : Bool := s.wdn.waitStep == 0 || cap == 0x01 || cap == 0x34

/-- The answer of a command that reaches the device through a host's window (DEDUCED, log 4, log 48). -/
def State.window (s : State) (f : State → State) : Answer :=
  .next (if s.served then (f s).watch.settle else s)

end Sys2Proof.Machine
end

