-- ==== Sys2Proof/Machine/MemCtl.lean ====
section
/-! DEFINITION. The memory controller (spec/05): reads and writes of masters, scrub, refresh and stack
temperature, training. Effects on the shared part; spec/17 owns what a failed memory does to the device. -/

namespace Sys2Proof.Machine

/-- The errors that the environment has put into the words an access reads, before it reads them: single-bit ones in `ce` of its data
words from the first, and when `ue` an uncorrectable one in its first 64-byte word (R152, R153; DEDUCED, log 14). -/
def Bus.inject (b : Bus) (a n ce : Nat) (ue : Bool) : Bus :=
  let b := { b with mx := { b.mx with soft := ((words8 a n).take ce).foldl addSet b.mx.soft } }
  if ue then b.poisonWord a else b

/-! ### The debug master (spec/04 R131, R136) -/

/-- A locked region of some unit holds a byte of an access. -/
def Bus.touchesLocked (b : Bus) (a n : Nat) : Bool :=
  (List.range 154).any fun m => (List.range 32).any fun r =>
    bf (b.reg .regCtl m r) 0 1 == 1 && bit (b.reg .regCtl m r) 3 &&
    decide (b.pair .regBaseLo .regBaseHi m r < a + n) &&
    decide (a < b.pair .regBaseLo .regBaseHi m r + b.pair .regSizeLo .regSizeHi m r)

/-- DEBUG_STATE.LIFECYCLE: 0 DEVELOPMENT, 1 FIELD, 2 SERVICE. -/
def State.lifecycle (s : State) : Nat := s.fld .debugState 0 0 0 2

/-- A read by the debug master (DEDUCED, log 68). -/
def Bus.debugRead (b : Bus) (life a n : Nat) : Bus × MemRes :=
  match life with
  | 2 => if b.memReady then b.readChecked 153 a n else (b.refuseRead 153 a, .refused)
  | 0 => if b.touchesLocked a n then (b.refuseRead 153 a, .refused) else b.load 153 a n
  | _ => (b.refuseRead 153 a, .refused)

/-- A write by the debug master (DEDUCED, log 68). -/
def Bus.debugWrite (b : Bus) (life a : Nat) (data : List Byte) : Bus × Bool :=
  match life with
  | 2 => if b.memReady then b.writeChecked 153 a data else (b.refuseWrite 153 a, false)
  | 0 => if b.touchesLocked a data.length then (b.refuseWrite 153 a, false) else b.store 153 a data
  | _ => (b.refuseWrite 153 a, false)

/-- JTAG instructions: those of R131. -/
inductive Jtag where
  | idcode | bypass | sample | extest | debug
  deriving DecidableEq, Repr

/-- What the lifecycle state lets JTAG do (R131): EXTEST only outside FIELD and while the fabric die is in reset, the debug master
outside FIELD. No command of the table shifts a JTAG instruction but the debug master's. -/
def State.jtagAllows (s : State) (j : Jtag) : Bool :=
  match j with
  | .extest => s.lifecycle != 1 && !s.fabricUp
  | .debug => s.lifecycle != 1
  | _ => true

/-- MEMORY_READ: a master's read, with the errors the environment put into the words read (R150 to R153); the debug master's
as its lifecycle state allows. -/
def memoryRead (m a n ce : Nat) (ue : Bool) (s : State) : State :=
  let s := s.onBus fun b => b.inject a n ce ue
  let r := if m = 153 then s.bus.debugRead s.lifecycle a n else s.bus.load m a n
  let s := { s with bus := r.1 }
  match r.2 with
  | .ok d => s.send (.memRead m true d)
  | .ue d => s.send (.memRead m false d)
  | .refused => s.send (.memRead m false (List.replicate n 0xFF))

/-- DEBUG_ACCESS_RECORD: a millisecond in which the debug master wrote has ended. -/
def State.debugRecord (s : State) : State :=
  match s.wdn.dbgWrites with
  | none => s
  | some (t, n, lo, hi) =>
    if s.ticks < t + tickMs then s
    else (s.setWdn { s.wdn with dbgWrites := none }).journal 0x0F 0x35 0 (le 4 n ++ le 4 0 ++ le 8 lo ++ le 8 hi)

/-- A write in SERVICE counts towards the record of its millisecond, which opens at the first write since the last record (DESIGN CHOICE,
log 75). -/
def State.debugCount (s : State) (a n : Nat) : State :=
  let s := s.debugRecord
  let w := match s.wdn.dbgWrites with
    | none => (s.ticks, 1, a, a + n - 1)
    | some (t, k, lo, hi) => (t, k + 1, min lo a, max hi (a + n - 1))
  s.setWdn { s.wdn with dbgWrites := some w }

/-- MEMORY_WRITE: a write is accepted into the write queue (R148), or dropped (R125); the debug master's as its lifecycle state allows,
which in SERVICE counts for its record (spec/04 R136). -/
def memoryWrite (m a : Nat) (data : List Byte) (s : State) : State :=
  let r := if m = 153 then s.bus.debugWrite s.lifecycle a data else s.bus.store m a data
  let s := ({ s with bus := r.1 }).send (.memWritten m r.2)
  if m = 153 ∧ s.lifecycle = 2 ∧ r.2 ∧ data ≠ [] then s.debugCount a data.length else s

/-- The end of the device address space (spec/04 R122). -/
def memEnd : Nat := 0xC00000000

/-- The first word at or after `a` that lies in a partition; `memEnd` when none does. -/
def Bus.nextMapped (b : Bus) (a : Nat) : Nat :=
  let ps := (List.range 16).filterMap b.part
  ps.foldl (fun best p => if a < p.base + p.size then min best (max a p.base) else best) memEnd

/-- The scrub has corrected `n` errors in the row of an address; ROW_WEAK once a pass, when the row has yielded MEM_X_WEAK_ROW or more (R156);
a threshold lowered in the middle of a pass acts at the row's next correction (DESIGN CHOICE, log 75). -/
def Bus.rowCorrected (b : Bus) (a n : Nat) : Bus :=
  match b.rowOf a with
  | none => b
  | some (pc, row) =>
    let key := Nat.pair pc row
    let k := (assocGet b.mx.rowCe key).getD 0 + n
    let b := { b with mx := { b.mx with rowCe := assocSet b.mx.rowCe key k, scrubCe := b.mx.scrubCe + n } }
    if b.fld .memXWeakRow 0 0 0 8 ≤ k ∧ !b.mx.weak.contains key then
      { (b.emit 0x050C 0 1 (pay [pc, row % 48, row / 48, k])) with mx := { b.mx with weak := addSet b.mx.weak key } }
    else b

/-- SCRUB_READ: the next word of the patrol (R154 to R156). `result` is what the environment has done to it: 0 nothing, 1 a single-bit
error, 2 an uncorrectable one; a word that was bad already is found so again (DEDUCED, log 14). What the
patrol moves does not count in MEM_BYTES (DESIGN CHOICE, log 75). -/
def Bus.scrubRead (b : Bus) (result : Nat) : Bus :=
  let a := b.nextMapped b.mx.scrubAddr
  if memEnd ≤ a ∨ b.heldAt a then b
  else
    let b := { b with mx := { b.mx with scrubAddr := b.nextMapped (a + 64) } }
    let bad : Bool := b.badWord a || result == 2
    let b := b.inject a 64 (if result = 1 then 1 else 0) (result == 2)
    if bad then
      let b := b.uncorrectable 0xFFFF a true
      { b with mx := { b.mx with scrubUe := b.mx.scrubUe + 1 } }
    else
      let n := ((words8 a 64).filter b.mx.soft.contains).length
      if n = 0 then b else (b.correctWords a 64).rowCorrected a n

/-- SCRUB_PASS: a pass over every partition has completed (R154, R165) (DESIGN CHOICE, log 71). -/
def Bus.scrubPass (b : Bus) : Bus :=
  if b.nextMapped b.mx.scrubAddr < memEnd then b
  else
    let b := (b.bump .memScrubPass 0 0 1).emit 0x050D 0 0 (pay [b.mx.scrubCe, b.mx.scrubUe])
    { b with mx := { b.mx with scrubAddr := 0, scrubCe := 0, scrubUe := 0, rowCe := [], weak := [],
                               scrubHours := b.fld .memXScrubHours 0 0 0 8 } }

/-- CE_SUMMARY: a second has ended; once for each in which MEM_CE_COUNT rose (R166). -/
def Bus.ceSummary (b : Bus) : Bus :=
  if b.ticks < b.mx.ceTick + 200000000 then b
  else
    let sum := b.mx.ceSec
    let b := { b with mx := { b.mx with ceSec := (0, 0), ceTick := b.ticks } }
    if sum.1 + sum.2 = 0 then b else b.emit 0x0504 0 0 (pay [sum.1, sum.2])

/-- Keys of the frozen and pending halves: bus registers and function registers apart. -/
def BReg.fkey (r : BReg) (i j : Nat) : Nat := Nat.pair 0 (r.key i j)
def FReg.fkey (r : FReg) (i j : Nat) : Nat := Nat.pair 1 (r.key i j)

/-- Hold the high half of a frozen pair (R165, spec/03 R106) under the key of its register. -/
def Bus.freeze (b : Bus) (r : BReg) (i j : Nat) : Bus :=
  { b with froz := assocSet b.froz (r.fkey i j) (b.reg r i j) }

/-- What a read of a freezable half returns, and the release of the freeze. -/
def Bus.frozen (b : Bus) (r : BReg) (i j : Nat) : Word := (assocGet b.froz (r.fkey i j)).getD (b.reg r i j)
def Bus.thaw (b : Bus) (r : BReg) (i j : Nat) : Bus := { b with froz := assocDel b.froz (r.fkey i j) }

/-- Answer a host's read of one register. -/
def Bus.answer (b : Bus) (port : Nat) (v : Word) : Bus := b.send (.hostRead port .ok (le 4 v.toNat))

/-- MEM_BYTES_READ: a read of a MEM_BYTES half by a host port; the low half freezes the high one (R165). -/
def Bus.memBytesRead (b : Bus) (port stack : Nat) (high : Bool) : Bus :=
  let lo : BReg := if stack = 0 then .memBytesS0Lo else .memBytesS1Lo
  let hi : BReg := if stack = 0 then .memBytesS0Hi else .memBytesS1Hi
  if high then (b.answer port (b.frozen hi 0 0)).thaw hi 0 0
  else (b.answer port (b.reg lo 0 0)).freeze hi 0 0

/-- One stack's reading (R157, R158): `x2` and `hot` are its bits of MEM_STATE; the streaks count consecutive
low readings. The reset value 0 of a highest-reading field counts as a reading (DESIGN CHOICE, log 75). -/
def Bus.stackReading (b : Bus) (stack : Nat) (t : Int) : Bus :=
  let x2 := 3 + stack
  let hot := 5 + stack
  let low82 := if stack = 0 then b.mx.low82.1 else b.mx.low82.2
  let low100 := if stack = 0 then b.mx.low100.1 else b.mx.low100.2
  let low82 := if t ≤ 82 then low82 + 1 else 0
  let low100 := if t ≤ 100 then low100 + 1 else 0
  let b := { b with mx := { b.mx with low82 := if stack = 0 then (low82, b.mx.low82.2) else (b.mx.low82.1, low82),
                                      low100 := if stack = 0 then (low100, b.mx.low100.2) else (b.mx.low100.1, low100) } }
  let st := b.reg .memState 0 0
  let b := if 85 ≤ t ∧ !bit st x2 then
      (b.setFld .memState 0 0 x2 1 1).emit 0x0505 0 1 (pay [stack, code 8 t])
    else if 2 ≤ low82 ∧ bit st x2 then
      (b.setFld .memState 0 0 x2 1 0).emit 0x0506 0 0 (pay [stack, code 8 t])
    else b
  let b := if 105 ≤ t ∧ !bit st hot then
      (b.setFld .memState 0 0 hot 1 1).emit 0x0507 0 2 (pay [stack, code 8 t])
    else if 2 ≤ low100 ∧ bit st hot then b.setFld .memState 0 0 hot 1 0
    else b
  let v := b.reg .memTemp 0 0
  let high := sext 8 (bf v (16 + 8 * stack) 8)
  let v := setBf v (8 * stack) 8 (code 8 t)
  b.setReg .memTemp 0 0 (if high < t then setBf v (16 + 8 * stack) 8 (code 8 t) else v)

/-- Enter FAILED (R160): MEM_FAILED with the stack, pseudo-channel and step. -/
def Bus.memFailed (b : Bus) (stack pc step : Nat) : Bus :=
  (b.setFld .memState 0 0 0 3 5).emit 0x0502 0 2 (pay [stack, pc, step])

/-- The release of the fabric die (R160): TRAINING, or WARMING below 0 °C; the band is that of the warmer
stack, and COLD after WARMING. -/
def Bus.memStart (b : Bus) (t0 t1 : Int) : Bus :=
  let warm := max t0 t1
  let band := if warm < 0 then 0 else if warm ≤ 70 then 1 else 2
  let b := { b with mx := { b.mx with trainTick := b.ticks } }
  if t0 < 0 ∨ t1 < 0 then b.setFld .memState 0 0 0 3 1
  else (b.setFld .memState 0 0 0 3 2).setFld .memState 0 0 7 2 band

/-- WARMING ends when both stacks reach 0 °C: COLD start points (R160). -/
def Bus.warmed (b : Bus) (t0 t1 : Int) : Bus :=
  if b.fld .memState 0 0 0 3 = 1 ∧ 0 ≤ t0 ∧ 0 ≤ t1 then
    let b := (b.setFld .memState 0 0 0 3 2).setFld .memState 0 0 7 2 0
    { b with mx := { b.mx with trainTick := b.ticks } }
  else b

/-- A pseudo-channel with more than one repaired lane (R160). -/
def twiceRepaired (repairs : List (Nat × Nat)) : Option Nat :=
  (repairs.find? fun x => decide (1 < (repairs.filter fun y => y.1 == x.1).length)).map Prod.fst

/-- Training fails: it has run the full search by then (R160, R161). -/
def Bus.trainFailed (b : Bus) (pc step : Nat) : Bus := (b.setFld .memState 0 0 9 1 1).memFailed (pc / 32) pc step

/-- Training ends well (R160, R161): `repairs` are the (pseudo-channel, lane) pairs repaired, one lane in each. A band with no stored
values makes training a full search. -/
def Bus.trained (b : Bus) (fullSearch : Bool) (repairs : List (Nat × Nat)) : Bus :=
  let full : Bool := fullSearch || !b.mx.stored.contains (b.fld .memState 0 0 7 2)
  let b := b.setFld .memState 0 0 0 3 3
  let b := b.setFld .memState 0 0 9 1 (b2n full)
  let b := b.setFld .memState 0 0 10 7 repairs.length
  let b := repairs.foldl (fun b x => b.emit 0x050A 0 1 (pay [x.1, x.2])) b
  { b with mx := { b.mx with stored := addSet b.mx.stored (b.fld .memState 0 0 7 2), trainEnd := b.ticks } }

/-- Zeros over every ZERO_AT_LOAD partition (R146): no byte of it stays listed and no word stays poisoned. -/
def Bus.zeroParts (b : Bus) : Bus :=
  let ps := ((List.range 16).filterMap b.part).filter fun p => p.zero
  let inP (a : Nat) : Bool := ps.any fun p => p.base ≤ a && a < p.base + p.size
  { b with mem := b.mem.filter fun c => !inP c.1,
           wq := b.wq.filter fun w => !inP w.addr,
           mx := { b.mx with poison := b.mx.poison.filter (fun w => !inP (w * 64)), soft := b.mx.soft.filter fun w => !inP (w * 8) } }

/-- EYE_DRIFT_CHECK: every MEM_X_TRACK_MS, pseudo-channels whose margin fell below its floor are held while they retrain (R162). -/
def Bus.eyeDrift (b : Bus) (low : List Nat) : Bus :=
  if b.memReady ∧ b.mx.trackTick + b.fld .memXTrackMs 0 0 0 10 * tickMs ≤ b.ticks then
    let fresh := low.filter fun pc => pc < 64 && !b.pcFailed pc && !b.mx.held.any fun x => x.1 == pc
    { b with mx := { b.mx with held := b.mx.held ++ fresh.map fun pc => (pc, b.ticks), trackTick := b.ticks } }
  else b

/-- A held pseudo-channel ends its retrain (R162); on failure it is failed (R163). -/
def Bus.retrained (b : Bus) (pc : Nat) (ok : Bool) : Bus :=
  match assocGet b.mx.held pc with
  | none => b
  | some t0 =>
    let b := { b with mx := { b.mx with held := assocDel b.mx.held pc } }
    if ok then b.emit 0x0509 0 0 (pay [pc, (b.ticks - t0) * 5])
    else
      let b := if pc < 32 then b.setFld .memPcFailedLo 0 0 pc 1 1 else b.setFld .memPcFailedHi 0 0 (pc - 32) 1 1
      b.emit 0x050B 0 2 (pay [pc])

/-! ### The commands -/

def execMemoryRead (m a n ce : Nat) (ue : Bool) (s : State) : Answer := s.fabric (memoryRead m a n ce ue)
def execMemoryWrite (m a : Nat) (data : List Byte) (s : State) : Answer := s.fabric (memoryWrite m a data)
def execScrubRead (result : Nat) (s : State) : Answer := s.fabric fun s => s.onBus fun b => b.scrubRead result
def execScrubPass (s : State) : Answer := s.fabric fun s => s.onBus Bus.scrubPass
def execCeSummary (s : State) : Answer := s.fabric fun s => s.onBus Bus.ceSummary
def execMemBytesRead (port stack : Nat) (high : Bool) (s : State) : Answer :=
  s.fabric fun s => s.onBus fun b => b.memBytesRead port stack high
def execEyeDriftCheck (low : List Nat) (s : State) : Answer := s.fabric fun s => s.onBus fun b => b.eyeDrift low

end Sys2Proof.Machine
end

