-- ==== Sys2Proof/Machine/Access.lean ====
section
/-! DEFINITION. The access check units' commands (spec/04): region updates, syncs, notice windows. -/

namespace Sys2Proof.Machine

/-- The BASE or SIZE a REG_CTL write takes: the pending half, else the one in force (R121). `q` numbers
BASE_LO, BASE_HI, SIZE_LO, SIZE_HI 0 to 3. -/
def Bus.pendHalf (b : Bus) (m r q : Nat) : Word :=
  let reg : BReg := match q with | 0 => .regBaseLo | 1 => .regBaseHi | 2 => .regSizeLo | _ => .regSizeHi
  (assocGet (b.accSt m).pend (4 * r + q)).getD (b.reg reg m r)

/-- An enabled region other than r that bytes [base, base+size) overlap (R120). -/
def Bus.overlapping (b : Bus) (m r base size : Nat) : Option Nat :=
  (List.range 32).find? fun q =>
    q != r && bit (b.reg .regCtl m q) 0 &&
    decide (base < b.pair .regBaseLo .regBaseHi m q + b.pair .regSizeLo .regSizeHi m q) &&
    decide (b.pair .regBaseLo .regBaseHi m q < base + size)

/-- Set a bit of ACC_STATUS. -/
def Bus.accFlag (b : Bus) (m i : Nat) : Bus := b.setFld .accStatus m 0 i 1 1

/-- A locked region ignores every write to it (R129). -/
def Bus.lockedWrite (b : Bus) (m r : Nat) : Bus := (b.accFlag m 1).emit 0x0404 m 1 (pay [m, r])

/-- REGION_UPDATE: a write of `v` to REG_CTL of region r of unit m (R120 to R122, R129, R130). A write that is refused leaves the
pending BASE and SIZE for the next (DESIGN CHOICE, log 74). -/
def Bus.regionUpdate (b : Bus) (m r : Nat) (v : Word) : Bus :=
  if bit (b.reg .regCtl m r) 3 then b.lockedWrite m r
  else
    let base := (b.pendHalf m r 0).toNat + (b.pendHalf m r 1).toNat * 2 ^ 32
    let size := (b.pendHalf m r 2).toNat + (b.pendHalf m r 3).toNat * 2 ^ 32
    if bit v 3 && !bit v 0 then b.accFlag m 2
    else if bit v 0 && (size == 0 || decide (memEnd < base + size)) then b.accFlag m 2
    else
      match if bit v 0 then b.overlapping m r base size else none with
      | some q => (b.accFlag m 0).emit 0x0403 m 1 (pay [m, r, q])
      | none =>
        let b := b.setPair .regBaseLo .regBaseHi m r base
        let b := b.setPair .regSizeLo .regSizeHi m r size
        let b := b.setReg .regCtl m r (w32 (bf v 0 4))
        let b := b.setFld .accEnabled m 0 r 1 (b2n (bit v 0))
        let x := b.accSt m
        b.setAcc m { x with pend := x.pend.filter fun e => e.1 / 4 != r }

/-- A write to a BASE or SIZE half goes to the pending copy (R121); a locked region ignores it (R129). Bits
[5:0] of the low halves read 0. Each half waits by itself, so REG_CTL takes a low half with no high half after it (DESIGN CHOICE, log 75). -/
def Bus.regionHalf (b : Bus) (m r q : Nat) (v : Word) : Bus :=
  if bit (b.reg .regCtl m r) 3 then b.lockedWrite m r
  else
    let v := if q % 2 = 0 then setBf v 0 6 0 else v
    let x := b.accSt m
    b.setAcc m { x with pend := assocSet x.pend (4 * r + q) v }

/-- ACC_SYNC: a sync starts (R127). -/
def Bus.accSync (b : Bus) (m token : Nat) : Bus :=
  let x := b.accSt m
  (b.setAcc m { x with syncs := x.syncs ++ [(token % 65536, b.ticks)] }).setFld .accSyncDone m 0 0 1 1

/-- The queue up to and with the last write of a master, which goes to the array in the order accepted (R149). -/
def upToLast (m : Nat) (wq : List QWrite) : List QWrite := wq.take (wq.length - (wq.reverse.takeWhile fun w => w.master != m).length)

/-- SYNC_DONE: the oldest sync of the unit completes once its accesses are at memory (R127, R128); a write has reached it
once it is queued (spec/05 R148), so a pseudo-channel that is held (R162) delays no sync; the queue drains in order as far as it can. -/
def Bus.syncDone (b : Bus) (m : Nat) : Bus :=
  let x := b.accSt m
  match x.syncs with
  | [] => b
  | (t, t0) :: rest =>
    let ws := upToLast m b.wq
    let wait := ws.filter fun w => b.heldAt w.addr
    let b := { ((ws.filter fun w => !b.heldAt w.addr).foldl Bus.retire b) with wq := wait ++ b.wq.drop ws.length }
    let b := b.setAcc m { x with syncs := rest }
    let b := b.setReg .accSyncDone m 0 (w32 (b2n (!rest.isEmpty) + t * 65536))
    if 40000 < b.ticks - t0 then b.emit 0x0405 m 1 (pay [m, t, (b.ticks - t0) / 200]) else b

/-- NOTICE_WINDOW_CLOSE: the window's end is reached and its notice is raised (R126). -/
def Bus.noticeClose (b : Bus) (m : Nat) (write : Bool) : Bus :=
  let x := b.accSt m
  let due (n : Notice) : Bool := decide (n.opened + b.fld .accXNoticeWindow m 0 0 10 * tickMs ≤ b.ticks)
  if write then
    match x.wwin with
    | none => b
    | some n =>
      if due n then
        let enabled := ((List.range 32).filter fun r => bit (b.reg .regCtl m r) 0).length
        (b.setAcc m { x with wwin := none }).emit 0x0402 m 1
          (payB (le 2 m ++ le 2 enabled ++ le 4 n.count ++ le 4 n.start.toNat ++ le 4 b.time.toNat))
      else b
  else
    match x.rwin with
    | none => b
    | some n =>
      if due n then
        (b.setAcc m { x with rwin := none }).emit 0x0401 m 1 (payB (le 2 m ++ le 2 0 ++ le 4 n.count ++ le 8 n.first))
      else b

def execSyncDone (m : Nat) (s : State) : Answer := s.fabric fun s => s.onBus fun b => b.syncDone m
def execNoticeWindowClose (m : Nat) (write : Bool) (s : State) : Answer :=
  s.fabric fun s => s.onBus fun b => b.noticeClose m write

end Sys2Proof.Machine
end

