-- ==== Sys2Proof/Machine/Rings.lean ====
section
/-! DEFINITION. Host ports, rings, the handling of ring commands, fences and barriers (spec/03). -/

namespace Sys2Proof.Machine

/-! ### Host register writes -/

/-- The unit follows a partner: JOINING or STANDBY (spec/16 R518). -/
def State.follows (s : State) : Bool :=
  s.plan.tandem.isSome && (s.fld .tndState 0 0 0 3 == 1 || s.fld .tndState 0 0 0 3 == 2)

/-- Functions whose registers a follower's hosts may still write (R518). -/
def followerWrites (cap : Nat) : Bool := cap == 0x31 || cap == 0x32 || cap == 0x35 || cap == 0x34 || cap == 0x33

/-- The REG_WRITE record of a host write (spec/16 R500); none for JOURNAL and DEBUG (DEDUCED, log 16). -/
def State.regWriteRec (s : State) (port cap inst blk off : Nat) (v : Word) : State :=
  if cap = 0x31 ∨ cap = 0x35 then s
  else s.journal 9 cap inst (le 1 port ++ le 3 0 ++ le 4 (ctlOffset cap inst blk off) ++ le 4 v.toNat)

/-- A host's posted register write: lost while the port is under reset (R82), ignored and counted on a follower
(R518), ignored at a register that does not exist (R4, R84), else performed. A write that a record of the partner carries is performed as
from the port it names (spec/16 R519). -/
def State.hostReach (s : State) (port cap inst : Nat) (f : State → State) : State :=
  if 4 ≤ port ∨ ((s.bus.hostSt port).underReset && !s.tnd.applying) then s
  else if s.follows && !s.tnd.applying && !followerWrites cap then s.onBus fun b => b.bump .coreBadAccess port 0 1
  else if !s.plan.has cap inst || !s.holds cap then s
  else f s

/-- The same with the REG_WRITE record of a write to a RW or WO register. `blk` is 0 basic, 1 expert, 2 the control words. -/
def State.hostWrite (s : State) (port cap inst blk off : Nat) (v : Word) (f : State → State) : State :=
  s.hostReach port cap inst fun s => f (s.regWriteRec port cap inst blk off v)

/-- A write by a port that does not own the ring or fence object (R87). -/
def State.notOwner (s : State) (port : Nat) : State := s.onBus fun b => b.bump .coreBadAccess port 0 1

/-! ### Command records -/

def FEntry.opcode (e : FEntry) : Nat := leAt e.data 0 2
def FEntry.inst (e : FEntry) : Nat := leAt e.data 4 2
def FEntry.object (e : FEntry) : Nat := leAt e.data 6 2
def FEntry.tag (e : FEntry) : Nat := leAt e.data 8 4

/-- The n-byte argument at byte `off` of the record (R100). -/
def FEntry.arg (e : FEntry) (off n : Nat) : Nat := leAt e.data off n

/-- Bytes `a` to `b` − 1 of ARGS are 0 (R100: what the owning chapter does not name is reserved). -/
def FEntry.zeroFrom (e : FEntry) (a b : Nat) : Bool := zeros (slice e.data a (b - a))

/-- The reserved bits and the fence fields of a record's head are as R100 gives. -/
def FEntry.headOk (e : FEntry) : Bool :=
  decide (byteAt e.data 2 < 4) && byteAt e.data 3 == 0 &&
  (decide (e.waitFence < 4096) || e.waitFence == 0xFFFF) &&
  (decide (leAt e.data 14 2 < 4096) || leAt e.data 14 2 == 0xFFFF)

/-- Two commands are on the same object (R104). -/
def FEntry.sameObject (a b : FEntry) : Bool :=
  a.opcode / 256 == b.opcode / 256 && a.inst == b.inst &&
  (a.object == b.object || a.object == 0xFFFF || b.object == 0xFFFF)

/-- What performing a command gives: the state, and its status and reason unless it goes on. -/
abbrev Perf := Nat → Nat → FEntry → State → State × Option (Nat × Nat)

/-- A command that ends at once with a status. -/
def done (s : State) (status : Nat) (reason : Nat := 0) : State × Option (Nat × Nat) := (s, some (status, reason))

/-- The checks before a command is performed: the instance and object exist, every reserved bit is 0, the
instance is ON unless the command is allowed in OFF (R93, R100, R103; the order is log 11). -/
def checked (cap : Nat) (objOk argsOk offOk : Bool) (e : FEntry) (s : State)
    (f : State → State × Option (Nat × Nat)) : State × Option (Nat × Nat) :=
  if !s.plan.has cap e.inst || !objOk then done s stBadInstance
  else if !argsOk then done s stBadArgument
  else if !offOk && !s.isOn cap e.inst then done s stNotOn
  else f s

/-- Entry k's wait of step 2 is met, or has been: a wait that is met stays met (R101, R107). -/
def Bus.waitMet (b : Bus) (e : FEntry) : Bool :=
  e.met || e.waitFence == 0xFFFF || 4096 ≤ e.waitFence || b.fenceMet e.waitFence (leAt e.data 16 8)

/-- Entry k may enter step 3: it waits no more, and no earlier command on the same object is incomplete. A unit that follows records
enters step 3 on a COMMAND record alone (spec/16 R519, R527) (DEDUCED, log 69). -/
def State.mayRun (s : State) (r : Nat) (e : FEntry) : Bool :=
  s.chooses && s.isOn 2 r && s.bus.ringKind r == 0 && e.phase != .done && e.phase != .running &&
  beforeMet (s.bus.ringSt r).fetched e && s.bus.waitMet e &&
  (before e.k (s.bus.ringSt r).fetched).all fun x => x.phase == .done || !x.sameObject e

/-- Complete entry k (R101 steps 4 to 6). -/
def State.complete (s : State) (r k status reason : Nat) : State :=
  s.onBus fun b => b.complete ((s.plan.ringHost r).getD 0) r k status reason

/-- The COMMAND record written when a command enters step 3 (spec/16 R500). -/
def State.commandRec (s : State) (r : Nat) (e : FEntry) : State :=
  s.journal 7 (e.opcode / 256) e.inst (le 2 r ++ le 2 0 ++ le 4 e.k ++ slice e.data 0 56)

/-- A command enters step 3 of R101: its COMMAND record, and the ring's STALLED bit without it. -/
def State.begun (s : State) (r : Nat) (e : FEntry) : State :=
  (s.commandRec r e).onBus fun b => (b.setPhase r e.k .running).stalled r

/-- Step 3 of R101 and what follows it (DEDUCED, log 11). -/
def State.perform (s : State) (r : Nat) (e : FEntry) (p : Perf) : State :=
  let s := s.begun r e
  if !e.headOk then s.complete r e.k stBadArgument 0
  else
    match p ((s.plan.ringHost r).getD 0) r e s with
    | (s, none) => s
    | (s, some (st, reason)) => s.complete r e.k st reason

/-- Entry k of ring r, if it is fetched. -/
def State.entry (s : State) (r k : Nat) : Option FEntry := (s.bus.ringSt r).fetched.find? fun e => e.k == k

/-- A ring command's row: entry k of ring r holds opcode `op` and may run, so it is performed; else nothing
happens (log 4) (DEDUCED, log 58). -/
def State.runCmd (s : State) (op : Nat) (p : Perf) (r k : Nat) : State :=
  match s.entry r k with
  | none => s
  | some e => if e.opcode = op ∧ s.mayRun r e then s.perform r e p else s

/-- Commands in step 3 of an instance complete with ABORTED when it leaves ON (R93) (DEDUCED, log 59). -/
def State.abortRunning (s : State) (cap inst : Nat) : State :=
  forEach (List.range 256) (fun r s =>
    forEach (((s.bus.ringSt r).fetched.filter fun e =>
        s.bus.ringKind r == 0 && e.phase == .running && e.opcode / 256 == cap && e.inst == inst)) (fun e s => s.complete r e.k stAborted 0) s) s

/-! ### Doorbells -/

/-- The ring opcodes the device knows: one per command row of the table. -/
def knownOps : List Nat :=
  [0x0100, 0x0601, 0x0602, 0x0701, 0x0702, 0x1001, 0x1201, 0x1202, 0x1203, 0x1204, 0x1205, 0x1206, 0x1301, 0x1302,
   0x1303, 0x1401, 0x1402, 0x1403, 0x1501, 0x1502, 0x2001, 0x2002, 0x2003, 0x2004, 0x2101, 0x2102, 0x2103, 0x2104,
   0x3001, 0x3002, 0x3003, 0x3101, 0x3102, 0x3103, 0x3104, 0x3105, 0x3106, 0x3201, 0x3202]

/-- Fetch entry k of a host-produced ring (R97, R101, R579; DEDUCED, log 73). -/
def State.fetch (s : State) (host r k : Nat) : State :=
  if !s.isOn 2 r then s
  else
    match s.load host (s.bus.entryAddr r k) 64 with
    | (s, .refused) => s.onBus fun b => b.ringFault host r k 0
    | (s, .ue _) => s.onBus fun b => b.ringFault host r k 2
    | (s, .ok data) =>
      let e : FEntry := { k := k, data := data, phase := .ready, since := s.ticks, met := false }
      let x := s.bus.ringSt r
      let e := if s.bus.ringKind r ≠ 0 then e
        else if !beforeMet (x.fetched ++ [e]) e then { e with phase := .waitBefore }
        else if !s.bus.waitMet e then { e with phase := .waitFence } else e
      let s := s.onBus fun b => (b.setRing r { x with fetched := x.fetched ++ [e] }).stalled r
      if s.bus.ringKind r = 0 ∧ !knownOps.contains e.opcode ∧ s.mayRun r e then
        s.perform r e fun _ _ _ s => done s stBadOpcode
      else s

/-- Fetch every entry up to PROD (R97; DEDUCED, log 73). -/
def State.fetchUpTo : Nat → State → Nat → Nat → State
  | 0, s, _, _ => s
  | fuel + 1, s, host, r =>
    let next := s.bus.ringCons r + w32 (s.bus.ringSt r).fetched.length
    if s.bus.ringUsed r ≤ (s.bus.ringSt r).fetched.length ∨ !s.isOn 2 r then s
    else State.fetchUpTo fuel (s.fetch host r next.toNat) host r

/-- A write to RING_PROD (R95 to R97): the doorbell of a host-produced ring. On a ring that is not ON, which has no transition to STOPPING
from there (R91), a bad PROD gives BAD_PROD alone (DESIGN CHOICE, log 74); a good one is fetched once the ring is ON. -/
def State.doorbell (s : State) (port r : Nat) (v : Word) : State :=
  s.hostReach port 2 r fun s =>
    let s := if hostProduced (s.bus.ringKind r) then s.regWriteRec port 2 r 0 0x0C v else s
    if s.plan.ringHost r ≠ some port then s.notOwner port
    else if !hostProduced (s.bus.ringKind r) then s
    else if s.bus.ringSize r < (v - s.bus.ringCons r).toNat then
      let s := s.onBus fun b => b.setFld .ringStatus r 0 1 1 1
      let cons := s.bus.ringCons r
      let s := if s.isOn 2 r then s.onBus fun b => b.ringStop port r 2 else s
      s.emit 0x0202 r 2 (pay [r, v.toNat, cons.toNat])
    else
      let s := s.onBus fun b => b.setReg .ringProd r 0 v
      s.fetchUpTo (s.bus.ringSize r) port r

/-- A write to RING_CONS (R95): the host frees entries of a device-produced ring. -/
def State.consWrite (s : State) (port r : Nat) (v : Word) : State :=
  s.hostReach port 2 r fun s =>
    let s := if hostProduced (s.bus.ringKind r) then s else s.regWriteRec port 2 r 0 0x10 v
    if s.plan.ringHost r ≠ some port then s.notOwner port
    else if hostProduced (s.bus.ringKind r) then s
    else (s.onBus fun b => b.setReg .ringCons r 0 v).onBus fun b => b.flushAll s.plan

/-- The command has waited longer than the limit in force (R102) (DEDUCED, log 15). -/
def Bus.waitedOut (b : Bus) (r : Nat) (e : FEntry) : Bool :=
  let limit := b.fld .ringWaitLimit r 0 0 11
  e.phase.waits && !(e.phase == .waitFence && e.met) && decide (limit ≠ 0) && decide (e.since + limit * tickMs < b.ticks)

/-- FENCE_TIMEOUT of a command (R102, R116). -/
def State.timeOut (s : State) (r : Nat) (e : FEntry) : State :=
  (s.emit 0x0203 r 1 (pay [r, e.k, e.tag, e.waitFence])).complete r e.k stFenceTimeout 0

/-- A write to RING_WAIT_LIMIT (R102, R577). -/
def State.waitLimitWrite (s : State) (port r : Nat) (v : Word) : State :=
  s.hostWrite port 2 r 0 0x1C v fun s =>
    if s.plan.ringHost r ≠ some port then s.notOwner port
    else if 2000 < bf v 0 11 then s.onBus fun b => b.bump .ringXIgnored r 0 1
    else
      let s := s.onBus fun b => b.setReg .ringWaitLimit r 0 (w32 (bf v 0 11))
      forEach ((s.bus.ringSt r).fetched.filter fun e => s.bus.waitedOut r e) (fun e s => s.timeOut r e) s

/-- FENCE_TIMEOUT row: entry k of ring r has waited longer than the limit (R102). -/
def State.fenceTimeout (s : State) (r k : Nat) : State :=
  match s.entry r k with
  | none => s
  | some e => if s.bus.waitedOut r e then s.timeOut r e else s

/-- NOP (R102): nothing in step 3. Like any command it needs its instance ON (R93). -/
def nop : Perf := fun _ _ e s => checked 1 (e.object == 0xFFFF) (e.zeroFrom 32 56) false e s fun s => done s stOk

/-! ### Barriers, fences, PTM -/

/-- The commands of a port that are doorbelled and not complete, as (ring, entry count): those fetched, and those that a ring not yet ON has still
to fetch (R105). -/
def State.barrierWaits (s : State) (port : Nat) : List (Nat × Nat) :=
  (List.range 256).flatMap fun r =>
    if s.plan.ringHost r = some port ∧ s.bus.ringKind r = 0 then
      let l := (s.bus.ringSt r).fetched
      ((l.filter fun e => e.phase != .done).map fun e => (r, e.k)) ++
        (List.range (s.bus.ringUsed r - l.length)).map fun i => (r, (s.bus.ringCons r + w32 (l.length + i)).toNat)
    else []

/-- A write to CORE_BARRIER (R105). Bits [0] REG, [1] RING, [2] MEM, [31:16] TOKEN. -/
def State.barrier (s : State) (port : Nat) (v : Word) : State :=
  s.hostWrite port 1 0 0 0x08 v fun s =>
    let waits := if bit v 1 then s.barrierWaits port else []
    let hs := s.bus.hostSt port
    s.onBus fun b => (b.setHost port { hs with barriers := hs.barriers ++ [⟨bf v 16 16, waits⟩] }).setFld
      .coreBarrierDone port 0 0 1 1

/-- Every command a barrier waits for has completed. -/
def Bus.barrierMet (b : Bus) (x : Barrier) : Bool :=
  x.waits.all fun w =>
    let l := (b.ringSt w.1).fetched
    let ofs := (w32 w.2 - b.ringCons w.1).toNat
    (l.all fun e => e.k != w.2 || e.phase == .done) && !(decide (l.length ≤ ofs) && decide (ofs < b.ringUsed w.1))

/-- BARRIER_DONE (R105): the port's oldest barrier completes once its scope has taken effect. -/
def State.barrierDone (s : State) (port : Nat) : State :=
  let hs := s.bus.hostSt port
  match hs.barriers with
  | [] => s
  | x :: rest =>
    if s.bus.barrierMet x then
      s.onBus fun b => (b.setHost port { hs with barriers := rest }).setReg .coreBarrierDone port 0
        (w32 (b2n (!rest.isEmpty) + x.token * 65536))
    else s

/-- FENCE_SIGNAL_WRITE (R3, R106, R115): the high half is written and the object is signalled with the pair. Software writes the low half
first; with none written the low half is 0, and one written stays for later high halves (DESIGN CHOICE, log 74). -/
def State.fenceSignalWrite (s : State) (port obj : Nat) (hi : Word) : State :=
  s.hostWrite port 3 0 0 (16 * obj + 12) hi fun s =>
    if 4096 ≤ obj then s
    else if obj % 4 ≠ port then s.notOwner port
    else
      let lo := (assocGet s.bus.pairLo (BReg.fkey .fenceSignalLo 0 obj)).getD 0
      s.onBus fun b => b.fenceSignal obj (lo.toNat + hi.toNat * 2 ^ 32)

/-- FENCE_VALUE_READ (R3): the low half freezes the high half until that is read. -/
def State.fenceValueRead (s : State) (port obj : Nat) (high : Bool) : State :=
  s.onBus fun b =>
    if high then (b.answer port (b.frozen .fenceValueHi 0 obj)).thaw .fenceValueHi 0 obj
    else (b.answer port (b.reg .fenceValueLo 0 obj)).freeze .fenceValueHi 0 obj

/-- HOLDOFF_EXPIRY (R110): what fell due during the holdoff is signalled once. -/
def State.holdoffExpiry (s : State) (r : Nat) : State :=
  match s.plan.ringHost r with
  | none => s
  | some h => s.onBus fun b =>
    if (b.ringSt r).holdUntil ≤ b.ticks ∧ (b.ringSt r).due then b.signal h r else b

/-- PTM_DIALOGUE (R111, R112): `enabled` is the host's configuration-space enable. A dialogue runs once CORE_X_PTM_PERIOD has passed since
the last, the first as soon as PTM is enabled; a good one gives the host time of this instant and the link delay removed. -/
def State.ptmDialogue (s : State) (port : Nat) (enabled : Bool) (hostTime delay : Nat) (ok : Bool) : State :=
  s.onBus fun b =>
    let b := b.setFld .corePtmStatus port 0 1 1 (b2n enabled)
    let due : Bool := match (b.hostSt port).ptmTick with
      | none => true
      | some t => decide (t + b.fld .coreXPtmPeriod port 0 0 10 * tickMs ≤ b.ticks)
    if !enabled then b.setHost port { b.hostSt port with ptmTick := none }
    else if !due then b
    else
      let b := b.setHost port { b.hostSt port with ptmTick := some b.ticks }
      let b := b.setFld .corePtmStatus port 0 16 16 (b.fld .corePtmStatus port 0 16 16 + 1)
      if ok then
        let b := b.setPair .corePtmHostLo .corePtmHostHi port 0 hostTime
        let b := (b.setReg .corePtmDev port 0 b.time).setReg .corePtmLinkDelay port 0 (w32 delay)
        (b.setFld .corePtmStatus port 0 8 8 0).setFld .corePtmStatus port 0 0 1 1
      else
        let n := b.fld .corePtmStatus port 0 8 8 + 1
        let b := b.setFld .corePtmStatus port 0 8 8 (min n 255)
        if n = 3 then b.emit 0x0106 0 1 (payCap 1 [(b.reg .corePtmDev port 0).toNat]) else b

/-- PTM_SNAPSHOT_READ (R111): a read of CORE_PTM_HOST_LO (`part` 0) freezes the set until CORE_PTM_DEV
(`part` 2) is read; `part` 1 reads CORE_PTM_HOST_HI. -/
def State.ptmRead (s : State) (port part : Nat) : State :=
  s.onBus fun b =>
    if part = 0 then
      let b := if (assocGet b.froz (BReg.fkey .corePtmDev port 0)).isSome then b
        else ((b.freeze .corePtmHostLo port 0).freeze .corePtmHostHi port 0).freeze .corePtmDev port 0
      b.answer port (b.frozen .corePtmHostLo port 0)
    else if part = 1 then b.answer port (b.frozen .corePtmHostHi port 0)
    else
      (((b.answer port (b.frozen .corePtmDev port 0)).thaw .corePtmHostLo port 0).thaw .corePtmHostHi port 0).thaw
        .corePtmDev port 0

/-! ### Host port resets -/

/-- HOST_PORT_RESET (R82, R114): the port's rings go to STOPPING with CAUSE 5, its MSI-X table is cleared and its event queue emptied, after
which the next record carries LOST_BEFORE (DESIGN CHOICE, log 70). A ring in STARTING goes with CAUSE 5 too (DESIGN CHOICE, log 75). A barrier in progress goes on: its commands have just completed (R105). -/
def State.hostPortReset (s : State) (port : Nat) : State :=
  let s := forEach (List.range 256) (fun r s =>
    if s.plan.ringHost r = some port ∧ (s.isOn 2 r ∨ s.fnState 2 r = 1) then s.onBus fun b => b.ringStop port r 5
    else s) s
  s.onBus fun b =>
    let hs := b.hostSt port
    (b.bump .coreEvtLost port 0 hs.evq.length).setHost port
      { hs with underReset := true, evq := [], lostNext := hs.lostNext || !hs.evq.isEmpty, msix := [], pba := [] }

/-- HOST_PORT_RESET_END (R82). -/
def State.hostPortResetEnd (s : State) (port : Nat) : State :=
  s.onBus fun b => b.setHost port { b.hostSt port with underReset := false }

/-- CONTROL_WINDOW_BAD_ACCESS (R80) (DESIGN CHOICE, log 10). -/
def State.badAccess (s : State) (port : Nat) (write : Bool) : State :=
  s.onBus fun b =>
    let b := b.bump .coreBadAccess port 0 1
    if write then b else b.send (.hostRead port .unsupported [])

/-- The device address of a memory window offset (R81): the window is 16 GiB. -/
def Bus.mwinAddr (b : Bus) (port off : Nat) : Nat := b.pair .coreMwinBaseLo .coreMwinBaseHi port 0 + off % 2 ^ 34

/-- MEMORY_WINDOW_READ (R81, R124, spec/05 R153): a read that does not succeed is logged for Advanced Error Reporting; a poisoned one
answers all-ones for the bad 64-byte words. -/
def State.mwinRead (s : State) (port off n : Nat) : State :=
  let a := s.bus.mwinAddr port off
  match s.load port a n with
  | (s, .ok d) => s.send (.hostRead port .ok d)
  | (s, .refused) => (s.onBus fun b => b.aerLog port 1 a).send (.hostRead port .abort (List.replicate n 0xFF))
  | (s, .ue d) => (s.onBus fun b => b.aerLog port 2 a).send (.hostRead port .poisoned d)

/-- REGION_UPDATE and ACC_SYNC as host writes (spec/04). -/
def State.regionUpdate (s : State) (port m r : Nat) (v : Word) : State :=
  s.hostWrite port 4 m 0 (0x30 + 0x20 * r) v fun s => if 32 ≤ r then s else s.onBus fun b => b.regionUpdate m r v

def State.accSync (s : State) (port m token : Nat) : State :=
  s.hostWrite port 4 m 0 0x08 (w32 token) fun s => s.onBus fun b => b.accSync m token

/-- The checks STARTING makes on a ring (R99): the reason of the first that fails. -/
def Bus.ringCheck (b : Bus) (p : Plan) (r : Nat) : Option Nat :=
  let e := (p.ring r).getD ⟨0, 0, 0⟩
  let log2 := b.fld .ringCtl r 0 8 5
  if 4 < b.ringKind r ∨ log2 < 6 ∨ e.maxLog2 < log2 then some 1
  else if b.passes e.host (b.ringBase r) (64 * 2 ^ log2) true true then none
  else some 2

/-! ### The commands -/

def execNop (r k : Nat) (s : State) : Answer := s.fabric fun s => s.runCmd 0x0100 nop r k
def execHostPortResetEnd (port : Nat) (s : State) : Answer := s.fabric fun s => s.hostPortResetEnd port
def execControlWindowBadAccess (port : Nat) (write : Bool) (s : State) : Answer := s.window fun s => s.badAccess port write
def execMemoryWindowRead (port off n : Nat) (s : State) : Answer := s.window fun s => s.mwinRead port off n
def execRingDoorbell (port r : Nat) (v : Word) (s : State) : Answer := s.fabric fun s => s.doorbell port r v
def execRingConsWrite (port r : Nat) (v : Word) (s : State) : Answer := s.fabric fun s => s.consWrite port r v
def execRingWaitLimitWrite (port r : Nat) (v : Word) (s : State) : Answer := s.fabric fun s => s.waitLimitWrite port r v
def execFenceTimeout (r k : Nat) (s : State) : Answer := s.fabric fun s => s.fenceTimeout r k
def execBarrier (port : Nat) (v : Word) (s : State) : Answer := s.window fun s => s.barrier port v
def execBarrierDone (port : Nat) (s : State) : Answer := s.window fun s => s.barrierDone port
def execFenceSignalWrite (port obj : Nat) (hi : Word) (s : State) : Answer := s.fabric fun s => s.fenceSignalWrite port obj hi
def execFenceValueRead (port obj : Nat) (high : Bool) (s : State) : Answer := s.fabric fun s => s.fenceValueRead port obj high
def execHoldoffExpiry (r : Nat) (s : State) : Answer := s.fabric fun s => s.holdoffExpiry r
def execPtmDialogue (port : Nat) (enabled : Bool) (hostTime delay : Nat) (ok : Bool) (s : State) : Answer :=
  s.fabric fun s => s.ptmDialogue port enabled hostTime delay ok
def execPtmSnapshotRead (port part : Nat) (s : State) : Answer := s.fabric fun s => s.ptmRead port part
def execRegionUpdate (port m r : Nat) (v : Word) (s : State) : Answer := s.fabric fun s => s.regionUpdate port m r v
def execAccSync (port m token : Nat) (s : State) : Answer := s.fabric fun s => s.accSync port m token
/-- PERST_DEASSERT (spec/17 R538): the port answers configuration requests from then on. -/
def execPerstDeassert (port : Nat) (s : State) : Answer :=
  s.warden fun s => s.onBus fun b => b.setHost port { b.hostSt port with perst := false }

end Sys2Proof.Machine
end

