-- ==== Sys2Proof/Machine/Link.lean ====
section
/-! DEFINITION. The spoke link (spec/13): building and checking packets, alive counters, CONTROL, TIME, credits,
the idle marker stream and SAFE. -/

namespace Sys2Proof.Machine

/-! ### Packets (R396) -/

/-- The bytes of a packet: header, its LINK32, payload, its LINK32 (DEDUCED, log 19). -/
def packet (typ flags stream alive : Nat) (stamp : Word) (payload : List Byte) : List Byte :=
  let h := le 1 typ ++ le 1 flags ++ le 2 stream ++ le 2 alive ++ le 2 payload.length ++ le 4 stamp.toNat
  h ++ le 4 (link32 h) ++ (if payload.isEmpty then [] else payload ++ le 4 (link32 payload))

/-- The device is the clock master of the port (R358, PORT_CFG). -/
def State.clockMaster (s : State) (p : Nat) : Bool := bit (s.reg .portCfg p 0) 4

/-- The physical lanes of the port's lane map, logical lane 0 first (spec/12 R371, PORT_LANE_MAP). -/
def State.dataMap (s : State) (p : Nat) : List Nat :=
  (List.range (max 1 (s.fld .portState p 0 10 3))).map fun l => s.fld .portLaneMap p 0 (2 * l) 2

/-- The lanes a port sends on and those it receives on: the lane map's as clock master, else BK alone (lane 4); and the reverse (spec/12
R358, R362). -/
def State.txMap (s : State) (p : Nat) : List Nat := if s.clockMaster p then s.dataMap p else [4]
def State.rxMap (s : State) (p : Nat) : List Nat := if s.clockMaster p then [4] else s.dataMap p

/-- The last line bit of each of some lanes, after more bits on them. -/
def lastsAfter (lasts : List Bool) (lines : List (Nat × List Bool)) : List Bool :=
  (List.range 5).map fun l => match lines.find? fun q => q.1 == l with
    | some q => q.2.getLastD (lasts.getD l false)
    | none => lasts.getD l false

/-- A lane-layer marker leaves on some lanes, each with the same block after it (spec/12 R368); nothing leaves a transmit island without
supply (R381). -/
def State.sendMarker (s : State) (p code : Nat) (lanes : List Nat) (block : List Byte) : State :=
  let x := s.lane p
  if x.txDead then s
  else
    let lines := lanes.map fun l => (l, laneBits l (x.lasts.getD l false) code block)
    (s.setLane p { x with lasts := lastsAfter x.lasts lines }).send (.marker p code block lines)

/-- CODE_ERRORS, at most once a second for each port, with the lane that has the most since the last one (spec/12 R365, R392). -/
def State.codeError (s : State) (p lane n : Nat) : State :=
  if n = 0 then s
  else
    let s := s.bump .portCodeErr p 0 n
    let x := s.lane p
    let errs := (List.range 6).map fun l => x.codeErrs.getD l 0 + if l = lane then n else 0
    let x := { x with cleanTick := s.ticks, errMs := (lane, s.ticks, n) :: x.errMs.filter fun e => decide (s.ticks < e.2.1 + tickMs) }
    let due := match x.codeErrTick with | none => true | some t => decide (t + tickS ≤ s.ticks)
    if due then
      (s.setLane p { x with codeErrs := [], codeErrTick := some s.ticks }).emit 0x200A p 1
        (pay [errs.sum, (List.range 6).foldl (fun b l => if errs.getD b 0 < errs.getD l 0 then l else b) 0])
    else s.setLane p { x with codeErrs := errs }

/-- The port sends the idle marker stream: its head is harmless, or the unit does not drive (R395, R412). -/
def State.linkIdle (s : State) (p : Nat) : Bool := (s.link p).safe.isSome || bit (s.reg .linkState p 0) 1

/-- The idle marker stream starts; the packet and the frame in progress end (R412). -/
def State.startIdle (s : State) (p : Nat) : State :=
  let s := s.setLink p { s.link p with stage := 0, later := [] }
  let s := if s.portState p = 2 ∧ !(s.lane p).txDead then s.send (.idleMarkers p) else s
  s.setFld .linkState p 0 1 1 1

/-- Packets that may stand in the idle marker stream (R395): TIME, STATUS, CREDIT and the CONTROL packets SAFE and EPOCH; a link of the
tandem is none of its ports. -/
def idlePacket (typ : Nat) (payload : List Byte) : Bool :=
  typ == 0x06 || typ == 0x0D || typ == 0x0A || (typ == 0x05 && (byteAt payload 0 == 2 || byteAt payload 0 == 4)) || 0x80 ≤ typ

/-- A packet waits for FRAME_END: one that is no packet of the picture between the last STAMP and FRAME_END, and a TOUCH_CMD anywhere in
a frame (R405). -/
def State.packetWaits (s : State) (p typ : Nat) : Bool :=
  ((s.link p).stage == 2 && 5 ≤ typ) || ((s.link p).stage == 1 && typ == 0x0B)

/-- A packet leaves with its markers, as the line bits of the port's lanes (spec/12 R362 to R367). -/
def State.putPacket (s : State) (p typ flags stream alive : Nat) (stamp : Word) (payload : List Byte) : State :=
  let d := packet typ flags stream alive stamp payload
  let map := s.txMap p
  let x := s.lane p
  let lines := portLines map (map.map fun l => x.lasts.getD l false) d
  (s.setLane p { x with lasts := lastsAfter x.lasts (map.zip lines) }).send (.packet p d (packetMarks map.length d.length) lines)

/-- A packet with given ALIVE leaves an ACTIVE port whose transmitters live, or waits for FRAME_END; on any other port, and in an idle
marker stream that has no place for it, nothing can leave (R395, R405, spec/12 R381) (DEDUCED, log 19). -/
def State.sendItem (s : State) (p typ flags stream alive : Nat) (stamp : Word) (payload : List Byte) : State :=
  if s.portState p ≠ 2 ∨ (s.lane p).txDead ∨ (s.linkIdle p && !idlePacket typ payload) then s
  else if s.packetWaits p typ then
    s.setLink p { s.link p with later := (s.link p).later ++ [(typ, flags, stream, alive, payload)] }
  else
    let s := s.putPacket p typ flags stream alive stamp payload
    if typ = 0x02 then s.setLink p { s.link p with stage := 1 }
    else if typ = 0x03 then
      let l := (s.link p).later
      forEach l (fun r s => s.putPacket p r.1 r.2.1 r.2.2.1 r.2.2.2.1 s.now r.2.2.2.2)
        (s.setLink p { s.link p with stage := 0, later := [] })
    else s

/-- The port's frame ends without FRAME_END: what waited for it leaves now (R405), or falls away where nothing can leave; HOLD_CAP is then
still due. -/
def State.frameCut (s : State) (p : Nat) : State :=
  let x := s.link p
  let hold : Bool := s.portState p != 2 && x.later.any fun r => r.1 == 5 && byteAt r.2.2.2.2 0 == 3
  forEach x.later (fun r s => s.sendItem p r.1 r.2.1 r.2.2.1 r.2.2.2.1 s.now r.2.2.2.2)
    (s.setLink p { x with stage := 0, later := [], needHold := x.needHold || hold })

/-- The last STAMP of the port's frame has left (R405). -/
def State.stampsSent (s : State) (p : Nat) : State :=
  if (s.link p).stage = 1 then s.setLink p { s.link p with stage := 2 } else s

/-- A packet that is an item of its own on a stream (R399), so its own last packet (R396 LAST): the stream's alive counter advances (DEDUCED, log 19). -/
def State.sendNew (s : State) (p typ flags stream : Nat) (payload : List Byte) : State :=
  if s.portState p ≠ 2 ∨ (s.lane p).txDead ∨ (s.linkIdle p && !idlePacket typ payload) then s
  else
    let x := s.link p
    let a := aliveNext ((assocGet x.tx stream).getD 0)
    (s.setLink p { x with tx := assocSet x.tx stream a }).sendItem p typ (flags + 2) stream a s.now payload

/-- A CONTROL packet (R410). -/
def State.control (s : State) (p code : Nat) (body : List Byte) : State :=
  s.sendNew p 0x05 0 0 (le 1 code ++ le 3 0 ++ le 4 s.epoch ++ body)

/-- CONTROL EPOCH (R410), with its ACTIVE bit; LINK_EPOCH reads the epoch sent. -/
def State.sendEpoch (s : State) (p : Nat) (active : Bool) : State :=
  let s := s.control p 4 (le 1 (b2n active) ++ le 3 0)
  let s := s.setReg .linkEpoch p 0 (w32 s.epoch)
  s.setLink p { s.link p with needEpoch := false, epochTick := s.ticks }

/-- CONTROL HOLD_CAP (R410, R411), of out-ports alone (R396); in an idle marker stream it stays due until a frame follows (R395). -/
def State.sendHold (s : State) (p : Nat) : State :=
  if s.plan.role p ≠ 1 then s
  else if s.linkIdle p then s.setLink p { s.link p with needHold := true }
  else
    let colour := match s.plan.headOfPort p with
      | some h => (s.reg .freshStaleColour h.head 0).toNat
      | none => 0
    let s := s.control p 3 (le 2 (s.fld .linkHoldCap p 0 0 10) ++ le 2 0 ++ le 4 colour)
    s.setLink p { s.link p with needHold := false }

/-- The harmless state of an out-port (R412): SAFE three times, then the idle marker stream; on a unit that is
not ACTIVE the standby form, on a port that is not ACTIVE as soon as it is (spec/12 R380). -/
def State.safe (s : State) (p reason : Nat) : State :=
  let s := s.setLink p { s.link p with safe := some reason, safePending := s.portState p != 2, stage := 0, later := [] }
  let s := s.setFld .linkState p 0 0 1 1
  if !s.drives then s.setFld .linkState p 0 1 1 1
  else if s.portState p = 2 then
    let body := le 1 reason ++ le 3 0
    let s := ((s.control p 2 body).control p 2 body).control p 2 body
    let s := s.startIdle p
    (s.setLink p { s.link p with safeTick := s.ticks, safeSince := true }).emit 0x2013 p 1 (pay [reason])
  else s

/-- The warden drives the port's SAFE wire (spec/12 R380). -/
def State.safeWire (s : State) (p reason : Nat) : State :=
  ((s.setFld .portState p 0 15 1 1).send (.safeWire p)).safe p reason

/-- The harmless state of a port ends: a MODE_CHANGE follows (R412). -/
def State.endSafe (s : State) (p : Nat) : State :=
  let s := s.setLink p { s.link p with safe := none, safePending := false, safeSince := false }
  (s.setFld .linkState p 0 0 1 0).setFld .linkState p 0 1 1 0

/-- SAFE_REPEAT (R395, R412): one further SAFE in every 10 ms of a harmless state. -/
def State.safeRepeat (s : State) (p : Nat) : State :=
  let x := s.link p
  match x.safe with
  | none => s
  | some reason =>
    if s.drives ∧ s.portState p = 2 ∧ x.safeTick + 10 * tickMs ≤ s.ticks then
      let s := s.setLink p { x with safeTick := s.ticks }
      s.control p 2 (le 1 reason ++ le 3 0)
    else s

/-- EPOCH_REPEAT (R412): CONTROL EPOCH with ACTIVE 0 every 100 ms on an out-port of a unit that is not ACTIVE. -/
def State.epochRepeat (s : State) (p : Nat) : State :=
  if !s.drives ∧ s.plan.role p = 1 ∧ s.portState p = 2 ∧ (s.link p).epochTick + 100 * tickMs ≤ s.ticks then
    s.sendEpoch p false
  else s

/-! ### Receiving (R393 to R399) -/

/-- What the receiver makes of a packet: nothing usable, a payload that failed (its item is incomplete), or a
good packet. -/
inductive Rx where
  | nothing
  | badPayload (stream alive : Nat)
  | good (p : Pkt)
  deriving DecidableEq, Repr

/-- LINK_ERRORS, at most once a second for each port, with the failures since the last one (R398, R435). -/
def State.linkErrors (s : State) (p : Nat) (hdr payl : Nat) : State :=
  let x := s.link p
  let x := { x with hdrErrs := x.hdrErrs + hdr, payErrs := x.payErrs + payl }
  let due := match x.errTick with | none => true | some t => decide (t + tickS ≤ s.ticks)
  if due then
    (s.setLink p { x with hdrErrs := 0, payErrs := 0, errTick := some s.ticks }).emit 0x2010 p 1
      (pay [x.hdrErrs, x.payErrs, x.hdrErrs + x.payErrs])
  else s.setLink p x

/-- An item or packet discarded as cullet (R399, R435). -/
def State.linkCull (s : State) (p stream alive : Nat) : State :=
  let s := s.bump .linkCulletCount p 0 1
  let x := s.link p
  let due := match x.cullTick with | none => true | some t => decide (t + tickS ≤ s.ticks)
  if due then
    (s.setLink p { x with culls := 0, cullTick := some s.ticks }).emit 0x2011 p 1 (pay [stream, alive, x.culls + 1])
  else s.setLink p { x with culls := x.culls + 1 }

/-- The stream each packet type uses, and the roles of the receiving port on which it may arrive: 1 out-port,
2 in-port, 3 tandem (R396). -/
def rxAllowed (typ role : Nat) : Option Nat :=
  match typ with
  | 0x01 => if role = 2 then some 1 else none
  | 0x02 => if role = 2 then some 1 else none
  | 0x03 => if role = 2 then some 1 else none
  | 0x06 => some 0
  | 0x07 => if role = 2 then some 1 else none
  | 0x08 => if role = 2 then some 1 else none
  | 0x09 => if role = 2 then some 0 else none
  | 0x0C => if role = 1 then some 2 else none
  | 0x0D => if role = 1 ∨ role = 2 then some 0 else none
  | 0x0E => some 0
  | 0x80 => if role = 3 then some 0x100 else none
  | 0x81 => if role = 3 then some 0x101 else none
  | 0x82 => if role = 3 then some 0x102 else none
  | 0x83 => if role = 3 then some 0x103 else none
  | 0x84 => if role = 3 then some 0x100 else none
  | 0x85 => if role = 3 then some 0x100 else none
  | _ => none

/-- Line bits arrive on the lanes a port receives, each lane `skew` line bits late: the bytes of the packet among them, with whether SYNC
stands directly before it. Code errors and corrected markers are counted; after a code error, or a CONT with no packet in progress,
everything up to the next SYNC is discarded (spec/12 R362 to R368, R393, R394). -/
def State.arrive (s : State) (p : Nat) (skew : List Nat) (lines : List (List Bool)) : State × Option (Bool × List Byte) :=
  if s.portState p ≠ 2 then (s, none)
  else
    let x := s.lane p
    let map := s.rxMap p
    let r := portRecv map skew x.rxNext x.rxLanes lines
    let q := linkPieces r.pieces
    let s := s.setLane p { x with rxNext := r.next, rxLanes := r.lanes }
    let s := if r.corrected = 0 then s else s.bump .portMarkerCorr p 0 r.corrected
    let s := forEach (List.range map.length) (fun l s => s.codeError p (map.getD l 0) (r.errs.getD l 0)) s
    (if q.2 then s.setLink p { s.link p with skip := true } else s, q.1)

/-- What arrives goes to `f` as a packet, where there is one. -/
def State.arrives (s : State) (p : Nat) (skew : List Nat) (lines : List (List Bool)) (f : State → Bool → List Byte → State) : State :=
  match s.arrive p skew lines with
  | (s, some d) => f s d.1 d.2
  | (s, none) => s

/-- A packet arrives on a port: `sync` when a SYNC marker stands directly before it (R394, R398). -/
def State.receive (s : State) (p : Nat) (sync : Bool) (raw : List Byte) : State × Rx :=
  if s.portState p ≠ 2 then (s, .nothing)
  else if (s.link p).skip && !sync then (s, .nothing)
  else
    let s := s.setLink p { s.link p with skip := false }
    let len := leAt raw 6 2
    if raw.length < 16 ∨ leAt raw 12 4 ≠ link32 (raw.take 12) ∨ 4096 < len then
      let s := (s.bump .linkErrHdr p 0 1).setLink p { s.link p with skip := true }
      (s.linkErrors p 1 0, .nothing)
    else
      let typ := byteAt raw 0
      let stream := leAt raw 2 2
      let alive := leAt raw 4 2
      let payload := slice raw 16 len
      if 0 < len ∧ (payload.length ≠ len ∨ leAt raw (16 + len) 4 ≠ link32 payload ∨ raw.length < 20 + len) then
        ((s.bump .linkErrPayload p 0 1).linkErrors p 0 1, .badPayload stream alive)
      else if rxAllowed typ (s.plan.role p) ≠ some stream ∨ 4 ≤ byteAt raw 1 then
        (s.bump .linkUnknown p 0 1, .nothing)
      else (s, .good ⟨typ, byteAt raw 1, stream, alive, BitVec.ofNat 32 (leAt raw 8 4), payload⟩)

/-- The alive check at the first packet of an item (R399, spec/06 R180): true when the item is accepted. -/
def State.aliveCheck (s : State) (p stream alive : Nat) : State × Bool :=
  let x := s.link p
  match assocGet x.rx stream with
  | none => if alive = 0 then (s.linkCull p stream alive, false)
            else (s.setLink p { x with rx := assocSet x.rx stream alive }, true)
  | some prev =>
    let d := aliveAhead prev alive
    if alive = 0 ∨ d = 0 ∨ 32767 < d then (s.linkCull p stream alive, false)
    else
      let s := s.setLink p { x with rx := assocSet x.rx stream alive }
      (if d = 1 then s else (s.bump .linkLost p 0 (d - 1)).emit 0x2012 p 0 (pay [stream, d - 1]), true)

/-- A packet of stream 0 or a tandem control packet: each is an item of its own (R399). A good packet of another type is another row's. -/
def State.receiveItem (s : State) (p typ : Nat) (sync : Bool) (raw : List Byte) : State × Option Pkt :=
  match s.receive p sync raw with
  | (s, .good pk) =>
    if pk.typ ≠ typ then (s, none)
    else
      match s.aliveCheck p pk.stream pk.alive with
      | (s, true) => (s, some pk)
      | (s, false) => (s, none)
  | (s, _) => (s, none)

/-- A reserved field of a payload is not 0: the packet is skipped and counted (R398). -/
def State.rxUnknown (s : State) (p : Nat) : State := s.bump .linkUnknown p 0 1

/-- Credits of a credited packet (R417): true when it is within LIMIT. -/
def State.creditTake (s : State) (p len : Nat) : State × Bool :=
  let x := s.link p
  let used := (x.used + cdiv (20 + len) 64) % 2 ^ 32
  let excess := sdiff (w32 used) (s.reg .linkCreditLimit p 0)
  if 0 < excess then
    ((s.bump .linkCreditViol p 0 1).emit 0x2017 p 1 (pay [excess.toNat]), false)
  else (s.setLink p { x with used := used }, true)

/-! ### TIME (R413 to R415) -/

/-- TIME_SEND: the TIME period of a port elapses; between the last STAMP and FRAME_END none is begun (R405). -/
def State.timeSend (s : State) (p : Nat) : State :=
  let x := s.link p
  if s.portState p ≠ 2 ∨ x.stage = 2 ∨ s.ticks < x.timeTick + s.fld .linkXTimeMs p 0 0 7 * tickMs then s
  else
    let stepped := x.stepLeft ≠ 0
    let st := s.fld .timState 0 0 0 3
    let flags := b2n stepped + 2 * b2n (st == 4 || st == 5) + 4 * b2n (x.timeCount % 10 == 0)
    let s := s.sendNew p 0x06 0 0
      (le 4 s.now.toNat ++ le 4 (s.reg .linkDelayNs p 0).toNat ++
       le 4 (if stepped then i32 s.tim.stepNs else 0).toNat ++ le 1 flags ++ le 1 s.tim.stepSeq ++ le 2 0)
    s.setLink p { s.link p with timeTick := s.ticks, timeCount := x.timeCount + 1, stepLeft := x.stepLeft - 1 }

/-- Insertion into a rising list, and sorting by it. -/
def insertI (x : Int) : List Int → List Int
  | [] => [x]
  | y :: ys => if x ≤ y then x :: y :: ys else y :: insertI x ys

def isort (l : List Int) : List Int := l.foldr insertI []

/-- The median of eight values: the mean of the middle two, rounded down (log 12). -/
def median8 (l : List Int) : Int :=
  let m := isort l
  (m.getD 3 0 + m.getD 4 0) / 2

/-- TIME_ECHO_RX: an endpoint's echo arrives now (R413, R414). -/
def State.timeEcho (s : State) (p : Nat) (sync : Bool) (raw : List Byte) : State :=
  match s.receiveItem p 0x06 sync raw with
  | (s, none) => s
  | (s, some pk) =>
    if pk.payload.length ≠ 16 ∨ !zeros (slice pk.payload 8 8) then s.rxUnknown p
    else
      let v := (sdiff s.now (w32 (leAt pk.payload 0 4)) - leAt pk.payload 4 4) / 2
      let x := s.link p
      let es := (v :: x.echoes).take 8
      let s := s.setLink p { x with echoes := es }
      if es.length = 8 then (s.setReg .linkDelayNs p 0 (i32 (median8 es))).setFld .linkState p 0 3 1 1 else s

/-! ### Credits, silence -/

/-- CREDIT leaves for a source endpoint (R417, R418). -/
def State.sendCredit (s : State) (p limit : Nat) (stop : Bool) : State :=
  let s := (s.setReg .linkCreditLimit p 0 (w32 limit)).setFld .linkState p 0 2 1 (b2n stop)
  s.sendNew p 0x0A 0 0 (le 4 limit ++ le 1 (b2n stop) ++ le 3 0)

/-- PARTNER_SILENT: no STATUS for LINK_X_STATUS_MS on a port that is up (R416). -/
def State.partnerSilent (s : State) (p : Nat) : State :=
  let x := s.link p
  let last := max x.upTick (x.statusTick.getD 0)
  if s.portState p = 2 ∧ !x.silent ∧ last + s.fld .linkXStatusMs p 0 0 10 * tickMs ≤ s.ticks then
    let age := min 65535 ((s.ticks - x.statusTick.getD 0) / tickMs)
    (s.setLink p { x with silent := true }).emit 0x2015 p 1 (pay [age])
  else s

/-- LINK_HOLD_CAP_WRITE (R411): values outside 1 to 1,000 are ignored. -/
def State.holdCapWrite (s : State) (host p : Nat) (v : Word) : State :=
  s.hostWrite host 0x20 p 0 0x88 v fun s =>
    let c := bf v 0 10
    if c = 0 ∨ 1000 < c then s.bump .portXIgnored p 0 1
    else (s.setReg .linkHoldCap p 0 (w32 c)).sendHold p

def execSafeRepeat (p : Nat) (s : State) : Answer := s.fabric fun s => s.safeRepeat p
def execEpochRepeat (p : Nat) (s : State) : Answer := s.fabric fun s => s.epochRepeat p
def execTimeSend (p : Nat) (s : State) : Answer := s.fabric fun s => s.timeSend p
def execTimeEchoRx (p : Nat) (skew : List Nat) (lines : List (List Bool)) (s : State) : Answer :=
  s.fabric fun s => s.arrives p skew lines fun s sync raw => s.timeEcho p sync raw
def execPartnerSilent (p : Nat) (s : State) : Answer := s.fabric fun s => s.partnerSilent p
def execLinkHoldCapWrite (host p : Nat) (v : Word) (s : State) : Answer := s.fabric fun s => s.holdCapWrite host p v

end Sys2Proof.Machine
end

