-- ==== Sys2Proof/Machine/Lanes.lean ====
section
/-! DEFINITION. The spoke lanes (spec/12): training, lane loss and repair, power states, lane tests. -/

namespace Sys2Proof.Machine

def State.setPortState (s : State) (p st : Nat) : State := s.setFld .portState p 0 0 4 st
def State.portPhase (s : State) (p : Nat) : Nat := s.fld .portState p 0 4 3

/-- The device chooses rate and map: on out-ports and in-ports always, on a tandem port as clock master (R370). -/
def State.chooser (s : State) (p : Nat) : Bool := s.plan.role p != 3 || bit (s.reg .portCfg p 0) 4

/-- The lanes the device drives: L0 to L3 and CK (5) as clock master, BK (4) as loop side, none of an unused port (R358). -/
def State.drivesLane (s : State) (p lane : Nat) : Bool :=
  s.plan.role p != 0 && if s.clockMaster p then lane < 4 || lane == 5 else lane == 4

/-- The lanes the device receives (R358). -/
def State.receivesLane (s : State) (p lane : Nat) : Bool :=
  s.plan.role p != 0 && if s.clockMaster p then lane == 4 else lane < 4 || lane == 5

/-- The lanes that carry bits and that the device drives: those on which its markers leave. -/
def State.bitLanes (s : State) (p : Nat) : List Nat := (List.range 5).filter fun l => s.drivesLane p l

/-- The training block that the device sends in a phase, with what it asks of the far transmitter (R369, R370). RATES are those up to
PORT_PLAN RATE; MAP is formed of the lanes locked until phase 5 has its map (DEDUCED, log 20). -/
def State.blockOf (s : State) (p phase ask : Nat) : TrainBlock :=
  let x := s.lane p
  let chosen : Bool := s.chooser p && (3 ≤ phase || phase == 0)
  let m := formMap (if x.healthy = 0 then x.locked else x.healthy)
  let lanes := if s.clockMaster p then 0 else x.locked
  let bk := s.fld .portLaneMap p 0 17 1
  let ck := s.fld .portLaneMap p 0 16 1
  { phase := phase, kind := if s.plan.role p = 3 then 4 else 0, rates := 2 ^ (s.fld .portCfg p 0 2 2 + 1) - 1,
    laneStatus := lanes + (if s.clockMaster p then bk * 16 else ck * 32), rate := if chosen then x.rate else 0xFF,
    map := mapByte m.2, count := m.1, eqReq := ask }

/-- A training block leaves on the lanes the device drives in a phase (R369, R370). -/
def State.sendBlock (s : State) (p phase ask : Nat) : State := s.sendMarker p 1 (s.bitLanes p) (s.blockOf p phase ask).bytes

/-- Enter a phase of the attempt. -/
def State.enterPhase (s : State) (p ph : Nat) : State :=
  let s := s.setFld .portState p 0 4 3 ph
  let s := s.setLane p { s.lane p with phaseTick := s.ticks, cleanTick := s.ticks, goodRun := 0, sentZero := false, sweep := [] }
  s.sendBlock p ph 0xFF

/-- The lanes of a lane map, as a mask. -/
def maskOf (l : List Nat) : Nat := (l.eraseDups.map fun i => 2 ^ i).sum

/-- Attempt n of a training starts at phase 1 (R372), at 4.0 Gb/s (R370); a short training relocks the lanes of the map it has stored (R383). -/
def State.startAttempt (s : State) (p n : Nat) : State :=
  let s := s.setFld .portState p 0 13 2 n
  let s := s.setLane p { s.lane p with locked := if (s.lane p).short then maskOf (s.dataMap p) else 0, healthy := 0, rates := 0 }
  s.enterPhase p 1

/-- The highest rate PORT_PLAN and PORT_X_RATE_CAP allow a port (R371). -/
def State.portCap (s : State) (p : Nat) : Nat := min (s.fld .portCfg p 0 2 2) (s.fld .portXRateCap p 0 0 2)

/-- The other port of a bonded pair (R373). -/
def State.bondMate (s : State) (p : Nat) : Option Nat :=
  match s.plan.headOfPort p with
  | some h => if h.secondary = 0xFF then none else some (if h.primary = p then h.secondary else h.primary)
  | none => none

/-- The highest rate in a partner's RATES (R371). -/
def topRate (rates : Nat) : Nat :=
  if rates.testBit 3 then 3 else if rates.testBit 2 then 2 else if rates.testBit 1 then 1 else 0

/-- The settings of PORT_X_EQ_FIX that a training starts with (R388, R390). -/
def State.eqFix (s : State) (p : Nat) : Option Word :=
  let v := s.reg .portXEqFix p 0
  if s.expert 0x20 p && bit v 0 then some v else none

/-- The settings of PORT_X_EQ_FIX come into use on every lane: CTLE where the device receives, swing and de-emphasis where it drives (R388). -/
def State.putFix (s : State) (p : Nat) (v : Word) : State :=
  forEach (List.range 6) (fun l s =>
    let s := if s.receivesLane p l then s.setFld .portEq p l 0 4 (bf v 4 4) else s
    if s.drivesLane p l then (s.setFld .portEq p l 8 4 (bf v 8 4)).setFld .portEq p l 12 4 (bf v 12 4) else s) s

/-- A training of one port starts: every function that uses the port finds it down; its transmitters and its counters start again (R375).
PORT_X_PHASE_MS, PORT_X_RATE_CAP and PORT_X_EQ_FIX take effect (R390); a short training keeps the settings stored (R383, R389). -/
def State.trainOne (s : State) (p : Nat) (short : Bool) : State :=
  let fix := if short then none else s.eqFix p
  let s := s.setLane p { s.lane p with startTick := s.ticks, phaseMs := s.fld .portXPhaseMs p 0 0 8, fix := fix, kept := [], returning := false,
                                       short := short, rateCap := s.portCap p, failedAt := none, repairTick := none, repairPassed := false,
                                       txDead := false }
  let s := s.setPortState p 1
  let s := if short then s else s.setFld .portLaneMap p 0 12 4 0
  let s := match fix with
    | some v => s.putFix p v
    | none => s
  s.startAttempt p 1

/-- A port begins to train. The other port of a bonded pair, in STARTING or ON, trains with it, unless it trains already, is OFF, or is in
TEST or DEEP (R373) (DEDUCED, log 77). -/
def State.startTraining (s : State) (p : Nat) (short : Bool) : State :=
  let s := s.trainOne p short
  match s.bondMate p with
  | none => s
  | some q =>
    let st := s.portState q
    if short ∨ q = p ∨ (s.fnState 0x20 q ≠ 1 ∧ s.fnState 0x20 q ≠ 2) then s
    else if st = 2 ∨ st = 3 ∨ st = 6 then (s.bump .portLinkDown q 0 1).trainOne q false
    else if st = 4 then s.trainOne q false
    else s

/-- The most rate the other port of a bonded pair can run at, as far as it is settled; `none` while its partner's RATES are to come (R371, R373). -/
def State.mateRate (s : State) (p : Nat) : Option Nat :=
  match s.bondMate p with
  | none => some 3
  | some q =>
    let y := s.lane q
    match s.portState q with
    | 1 => if 3 ≤ s.portPhase q then some y.rate else if y.rates = 0 then none else some (min y.rateCap (topRate y.rates))
    | 2 => some (s.fld .portState q 0 8 2)
    | 3 => some (s.fld .portState q 0 8 2)
    | 6 => some (s.fld .portState q 0 8 2)
    | _ => some 3

/-- The other port of a bonded pair runs no faster than `r`: it trains again where it does (R360, R373) (DEDUCED, log 77). -/
def State.lowerMate (s : State) (p r : Nat) : State :=
  match s.bondMate p with
  | none => s
  | some q =>
    let st := s.portState q
    let s := s.setLane q { s.lane q with rateCap := min (s.lane q).rateCap r }
    if st = 1 ∧ 3 ≤ s.portPhase q ∧ r < (s.lane q).rate then s.startAttempt q (min 3 (s.fld .portState q 0 13 2 + 1))
    else if (st = 2 ∨ st = 3 ∨ st = 6) ∧ r < s.fld .portState q 0 8 2 then
      let s := (s.bump .portLinkDown q 0 1).trainOne q false
      s.setLane q { s.lane q with rateCap := min (s.lane q).rateCap r }
    else s

/-- A training fails (R372): ABSENT, TRAIN_FAILED, electrical idle, the retry timer starts. -/
def State.trainingFailed (s : State) (p : Nat) (byLimit : Bool) : State :=
  let x := s.lane p
  let ph := s.portPhase p
  let at_ := s.fld .portState p 0 13 2
  let s := s.setReg .portTrainFail p 0 (w32 (ph + at_ * 8 + b2n byLimit * 32))
  let s := (s.setPortState p 4).setFld .portState p 0 4 3 0
  let s := s.setFld .portState p 0 10 3 0
  let s := s.emit 0x2003 p 1 (pay [ph, at_, b2n byLimit, s.fld .portPartner p 0 0 8])
  let s := s.send (.electricalIdle p)
  let s := s.setLane p { x with failedAt := some s.ticks, fromDeep := false, retrain := none, power := none }
  match x.retrain with
  | some (r, k) => s.complete r k stFailed 1
  | none =>
    match x.power with
    | some (r, k, _) => s.complete r k stFailed 0
    | none => s

/-- What the device asks for itself is in use from the end of phase 4 (R388, R389): on each lane it receives, the peaking with the largest
eye margin of the sweep, unless PORT_X_EQ_FIX gives it, and that margin. -/
def State.storeEq (s : State) (p : Nat) : State :=
  let x := s.lane p
  forEach (List.range 6) (fun l s =>
    if !s.receivesLane p l then s
    else
      match (x.sweep.filter fun q => q.1 == l).foldl (fun b q => match b with
          | some (y : Nat × Nat × Nat) => if y.2.2 < q.2.2 then some q else b
          | none => some q) none with
      | none => s
      | some q =>
        let s := if x.fix.isNone then s.setFld .portEq p l 0 4 (min 15 q.2.1) else s
        s.setFld .portEq p l 16 7 q.2.2) s

/-- An EQ_REQ of the far receiver in phase 4 sets swing and de-emphasis of the lanes the device drives, unless PORT_X_EQ_FIX gives them
(R369, R388). -/
def State.takeEqReq (s : State) (p req : Nat) : State :=
  if req = 0xFF ∨ (s.lane p).fix.isSome then s
  else forEach (List.range 6) (fun l s =>
    if s.drivesLane p l then (s.setFld .portEq p l 8 4 (req / 16)).setFld .portEq p l 12 4 (req % 16) else s) s

/-- The kept attempt of R371: the most healthy lanes, the higher rate among equals. -/
def bestKept (l : List (Nat × Nat)) : Option (Nat × Nat) :=
  let n (h : Nat) : Nat := ((List.range 4).filter fun i => h.testBit i).length
  l.foldl (fun b x => match b with
    | none => some x
    | some y => if n y.1 < n x.1 ∨ (n y.1 = n x.1 ∧ y.2 < x.2) then some x else some y) none

/-- Take a map of the healthy lanes into PORT_LANE_MAP and PORT_STATE (R371) (DEDUCED, log 20). -/
def State.takeMap (s : State) (p healthy rate : Nat) : State :=
  let (n, ls) := formMap healthy
  let s := s.setFld .portLaneMap p 0 0 8 (mapByte ls)
  let s := s.setFld .portLaneMap p 0 8 4 healthy
  let s := s.setFld .portState p 0 10 3 n
  s.setFld .portState p 0 8 2 rate

/-- Both ends return to a kept attempt: phases 3, 4 and 5 at its rate with its map (R371). -/
def State.returnTo (s : State) (p : Nat) (kept : Nat × Nat) : State :=
  let r := min kept.2 ((s.mateRate p).getD 3)
  let s := s.setLane p { s.lane p with returning := true, healthy := kept.1, rate := r, locked := kept.1 }
  let s := s.lowerMate p r
  (s.setFld .portState p 0 8 2 r).enterPhase p 3

/-- An attempt ends without confirmation: the next attempt, the return to a kept one, or failure; one that fails in phase 5 is not kept
(R371, R372). A short training that fails is followed by a full one (R383). -/
def State.attemptOver (s : State) (p : Nat) : State :=
  let x := s.lane p
  let n := s.fld .portState p 0 13 2
  if x.short then s.startTraining p false
  else if x.returning then s.trainingFailed p false
  else
    let kept := if s.portPhase p = 5 then x.kept.dropLast else x.kept
    let s := s.setLane p { x with kept := kept }
    if n < 3 then s.startAttempt p (n + 1)
    else
      match bestKept kept with
      | none => s.trainingFailed p false
      | some k => s.returnTo p k

/-- A repair fails (R375, R378): REPAIR_FAILED, and a new training. -/
def State.repairFailed (s : State) (p : Nat) : State :=
  let left := s.fld .portLaneMap p 0 8 4 &&& (15 - s.fld .portLaneMap p 0 12 4)
  let s := s.emit 0x2006 p 2 (pay [left, (s.ticks - (s.lane p).repairTick.getD s.ticks) / 200])
  (s.bump .portLinkDown p 0 1).startTraining p false

/-- A phase fails: the attempt ends, or the repair (R370, R375). -/
def State.phaseFailed (s : State) (p : Nat) : State := if s.portState p = 3 then s.repairFailed p else s.attemptOver p

/-- Phase 4 passes with the lanes found healthy (R371); the settings are stored (R389). -/
def State.phase4Passed (s : State) (p : Nat) : State :=
  let x := s.lane p
  let n := s.fld .portState p 0 13 2
  let count := ((List.range 4).filter fun i => x.healthy.testBit i).length
  if s.portState p = 3 then (s.takeMap p x.healthy x.rate).enterPhase p 5
  else
    let s := s.storeEq p
    if x.returning then (s.takeMap p x.healthy x.rate).enterPhase p 5
    else
      let kept := x.kept ++ [(x.healthy, x.rate)]
      let s := s.setLane p { x with kept := kept }
      if count < 4 ∧ 0 < x.rate ∧ n < 3 then
        let s := (s.setLane p { s.lane p with rateCap := x.rate - 1 }).lowerMate p (x.rate - 1)
        s.startAttempt p (n + 1)
      else
        match bestKept kept with
        | some k => if k = (x.healthy, x.rate) then (s.takeMap p k.1 k.2).enterPhase p 5 else s.returnTo p k
        | none => s

/-- The port reaches ACTIVE from TRAINING (R375): LINK_UP, LANES_REDUCED; the link layer starts afresh and a SAFE
wire driven meanwhile acts (R380). RETRAIN completes, and a POWER with ACTIVE; one with IDLE or DEEP goes on (R391). An exit from DEEP has
reached ACTIVE (R392). -/
def State.linkUp (s : State) (p : Nat) : State :=
  let x := s.lane p
  let ms := (s.ticks - x.startTick) / tickMs
  let count := s.fld .portState p 0 10 3
  let s := (s.setPortState p 2).setFld .portState p 0 4 3 0
  let s := s.setReg .portTrainMs p 0 (w32 ms)
  let s := (s.setFld .portLaneMap p 0 16 1 1).setFld .portLaneMap p 0 17 1 1
  let s := s.emit 0x2001 p 0 (pay [s.fld .portState p 0 8 2, count, s.fld .portLaneMap p 0 0 8, ms])
  let s := if count < 4 then s.emit 0x2007 p 1 (pay [count, s.fld .portLaneMap p 0 8 4]) else s
  let s := s.setLink p { s.link p with upTick := s.ticks, statusSeen := false, silent := false, echoes := [], skip := true,
                                       rx := [], used := 0, needEpoch := true, needHold := true, timeTick := 0,
                                       stage := 0, later := [] }
  let s := (s.setFld .linkState p 0 3 1 0).setReg .linkDelayNs p 0 0
  let s := s.setReg .linkCreditLimit p 0 0
  let s := if s.fnState 0x20 p = 1 then (s.setFld .linkState p 0 2 1 0).onBus fun b => b.enter 0x20 p 2 else s
  let s := s.setLane p { s.lane p with retrain := none, power := (match x.power with | some (_, _, 0) => none | q => q), failedAt := none,
                                       fromDeep := false, rxNext := 0, rxLanes := [] }
  let s := if x.fromDeep then s.emit 0x2008 p 0 (pay [7, 2, (s.ticks - x.powerTick) / 200]) else s
  let s := match (s.link p).safe with
    | some reason => if s.plan.role p = 1 then s.safe p reason else s
    | none => s
  let s := match x.retrain with
    | some (r, k) => s.complete r k stOk 0
    | none => s
  match x.power with
  | some (r, k, 0) => s.complete r k stOk 0
  | _ => s

/-- Where the phases of the port's present work lead after one passes: full training 1 to 5, a short training
1, 3, 5 (R383), a repair 2, 4, 5 (R378). -/
def State.nextPhase (s : State) (p : Nat) : State :=
  let x := s.lane p
  let ph := s.portPhase p
  if s.portState p = 3 then
    if ph = 2 then s.enterPhase p 4
    else if ph = 4 then s.phase4Passed p
    else s.setLane p { x with repairPassed := true }
  else if x.short then
    if ph = 1 then s.enterPhase p 3 else if ph = 3 then s.enterPhase p 5 else s.linkUp p
  else
    match ph with
    | 1 => s.enterPhase p 2
    | 2 =>
      let rate := if s.chooser p then min x.rateCap (min (topRate x.rates) ((s.mateRate p).getD 3)) else x.rate
      let s := (s.setLane p { x with rate := rate }).lowerMate p rate
      let s := (s.setFld .portState p 0 8 2 rate).enterPhase p 3
      if rate = 0 then s.enterPhase p 4 else s
    | 3 => s.enterPhase p 4
    | 4 => s.phase4Passed p
    | _ => s.linkUp p

/-- The KINDs that fit a port's role (R369, R374). -/
def kindFits (role kind : Nat) : Bool :=
  match role with
  | 1 => kind == 1 || kind == 2
  | 2 => kind == 3
  | 3 => kind == 4
  | _ => false

/-- What the device's own receivers see while a block arrives: the lanes locked, as LANE_STATUS gives them; what its receiver asks of the
far transmitter, as EQ_REQ, 0xFF for nothing; and for each lane swept (lane, CTLE, eye margin in 1/128 UI at the lane's receiver)
(DEDUCED, log 20). -/
structure LaneObs where
  locked : Nat
  ask : Nat
  sweep : List (Nat × Nat × Nat)
  deriving DecidableEq, Repr

/-- Lanes whose eye margin is at least 20/128 UI at some peaking (R370 phase 4). -/
def wideLanes (sweep : List (Nat × Nat × Nat)) : Nat :=
  (List.range 4).foldl (fun v l => v + if sweep.any fun x => x.1 == l && 20 ≤ x.2.2 then 2 ^ l else 0) 0

/-- Lanes that the sweep has covered. -/
def sweptLanes (sweep : List (Nat × Nat × Nat)) : Nat :=
  (List.range 4).foldl (fun v l => v + if sweep.any fun x => x.1 == l then 2 ^ l else 0) 0

/-- A good training block moves the phases on (R370, R371, R374, R378). On a tandem port the loop side follows what the chooser sends: its
phase, RATE, MAP and COUNT (DEDUCED, log 77). -/
def State.blockRx (s : State) (p lane : Nat) (t : TrainBlock) (obs : LaneObs) : State :=
  let x := s.lane p
  let master := s.clockMaster p
  let status := if master then t.laneStatus % 16 else obs.locked % 16
  let bkLocked := if master then obs.locked.testBit 4 else t.laneStatus.testBit 4
  let ph := s.portPhase p
  if !s.chooser p && 1 < ph && t.phase == 1 && s.portState p == 1 then s.startAttempt p (min 3 (s.fld .portState p 0 13 2 + 1))
  else if !s.chooser p && 3 < ph && t.phase == 3 && s.portState p == 1 then
    ((s.setLane p { x with rate := t.rate % 4 }).setFld .portState p 0 8 2 (t.rate % 4)).enterPhase p 3
  else
    match ph with
    | 1 =>
      if master then
        if lane ≠ 4 then s
        else if x.goodRun + 1 < 8 then s.setLane p { x with goodRun := x.goodRun + 1 } else s.nextPhase p
      else if 2 ≤ t.phase then s.nextPhase p else s
    | 2 =>
      let allowed := status &&& (15 - s.fld .portLaneMap p 0 12 4)
      let run := if status = x.lastStatus then x.goodRun + 1 else 1
      let x := { x with lastStatus := status, goodRun := run, rates := t.rates % 16, locked := allowed }
      let s := s.setLane p x
      if !s.chooser p then if 3 ≤ t.phase then (s.setLane p { x with rate := t.rate % 4 }).nextPhase p else s
      else if run < 8 ∨ (s.portState p = 1 ∧ (s.mateRate p).isNone) then s
      else if allowed = 0 then s.phaseFailed p
      else s.nextPhase p
    | 3 => if status &&& x.locked = x.locked ∧ bkLocked then s.nextPhase p else s
    | 4 =>
      let full : Bool := s.portState p == 1
      let s := if full then s.takeEqReq p t.eqReq else s
      let x := s.lane p
      let x := { x with sweep := x.sweep ++ obs.sweep }
      let s := s.setLane p x
      let s := if full && obs.ask != 0xFF && x.fix.isNone then s.sendBlock p 4 obs.ask else s
      let x := s.lane p
      let wide := x.locked &&& wideLanes x.sweep
      let need := if x.returning then maskOf (formMap x.healthy).2 else x.locked
      if sweptLanes x.sweep &&& need ≠ need ∨ wide = 0 then s
      else if x.returning then if wide &&& need = need then s.nextPhase p else s
      else if !s.chooser p then
        if t.phase = 5 then
          (s.setLane p { x with healthy := maskOf ((List.range t.count).map fun l => t.map / 4 ^ l % 4) }).nextPhase p
        else s
      else (s.setLane p { x with healthy := wide }).nextPhase p
    | 5 =>
      let clean := decide (max x.phaseTick x.cleanTick + tickMs ≤ s.ticks)
      let s := if clean ∧ !x.sentZero then (s.setLane p { x with sentZero := true }).sendBlock p 0 0xFF else s
      if t.phase = 0 ∧ clean then s.nextPhase p else s
    | _ => s

/-- What a marker with a block on a lane gives: corrected markers and code errors counted (R365, R366, R369), and the block. -/
def State.markBlock (s : State) (p lane code : Nat) (bits : List Bool) : State × Option TrainBlock :=
  let count (s : State) (c : Bool) : State := if c then s.bump .portMarkerCorr p 0 1 else s
  match markRx code lane bits with
  | .nothing => (s, none)
  | .bad c => ((count s c).codeError p lane 1, none)
  | .block raw c =>
    match trainBlock raw with
    | none => ((count s c).codeError p lane 1, none)
    | some t => (count s c, some t)

/-- TRAIN_BLOCK_RX: the line bits of a TRAIN marker and its block arrive on lane `lane` (R369 to R374). A KIND that does not fit the port's
role fails the phase at once. -/
def State.trainBlockRx (s : State) (p lane : Nat) (bits : List Bool) (obs : LaneObs) : State :=
  if s.portState p ≠ 1 ∧ s.portState p ≠ 3 then s
  else
    match s.markBlock p lane 1 bits with
    | (s, none) => s.setLane p { s.lane p with goodRun := 0 }
    | (s, some t) =>
      let s := s.setReg .portPartner p 0 (w32 (t.kind + (t.rates % 16) * 256))
      let s := (s.setFld .portLaneMap p 0 16 1 (b2n (s.clockMaster p || obs.locked.testBit 5))).setFld .portLaneMap p 0 17 1
        (b2n (if s.clockMaster p then obs.locked.testBit 4 else t.laneStatus.testBit 4))
      if !kindFits (s.plan.role p) t.kind then s.phaseFailed p else s.blockRx p lane t obs

/-- TRAINING_START: a port that entered STARTING begins attempt 1 (R375). -/
def State.trainingStart (s : State) (p : Nat) : State :=
  if s.fnState 0x20 p = 1 ∧ s.portState p = 0 then s.startTraining p false else s

/-- PHASE_TIMEOUT: the phase has not passed within the PORT_X_PHASE_MS that the training started with (R370, R390). -/
def State.phaseTimeout (s : State) (p : Nat) : State :=
  let x := s.lane p
  if (s.portState p = 1 ∨ s.portState p = 3) ∧ x.phaseTick + x.phaseMs * tickMs ≤ s.ticks then s.phaseFailed p else s

/-- TRAINING_LIMIT: 200 ms without success (R372); a short training is followed by a full one (R383). -/
def State.trainingLimit (s : State) (p : Nat) : State :=
  if s.portState p = 1 ∧ (s.lane p).startTick + 200 * tickMs ≤ s.ticks then
    if (s.lane p).short then s.startTraining p false else s.trainingFailed p true
  else s

/-- TRAINING_RETRY: the retry interval of an ABSENT port, as PORT_RETRY has it now, expires (R372, R390). -/
def State.trainingRetry (s : State) (p : Nat) : State :=
  match (s.lane p).failedAt with
  | none => s
  | some t => if s.portState p = 4 ∧ t + s.fld .portRetry p 0 0 16 * tickMs ≤ s.ticks then s.startTraining p false else s

/-- The link goes down and a new training starts (R375). -/
def State.linkDown (s : State) (p lanes : Nat) (ck bk : Bool) : State :=
  let s := (s.bump .portLinkDown p 0 1).emit 0x2002 p 1 (pay [lanes, b2n ck, b2n bk])
  let s := if ck then s.setFld .portLaneMap p 0 16 1 0 else s
  let s := if bk then s.setFld .portLaneMap p 0 17 1 0 else s
  s.startTraining p false

/-- A repair starts, or starts again within its limit (R378, R379). -/
def State.startRepair (s : State) (p : Nat) : State :=
  let x := s.lane p
  let t0 := if s.portState p = 3 then x.repairTick.getD s.ticks else s.ticks
  let s := (s.setPortState p 3).setLane p { x with repairTick := some t0, repairPassed := false, lastStatus := 0, healthy := 0,
                                                   returning := false, short := false, rate := s.fld .portState p 0 8 2 }
  s.enterPhase p 2

/-- LANE_FAULT leaves on BK, with the lanes still locked (R368, R376). -/
def State.sendLaneFault (s : State) (p : Nat) : State :=
  let left := s.fld .portLaneMap p 0 8 4 &&& (15 - s.fld .portLaneMap p 0 12 4)
  s.sendMarker p 2 [4] { s.blockOf p 0 0xFF with laneStatus := left + s.fld .portLaneMap p 0 16 1 * 32 }.bytes

/-- A data lane is lost (R376, R377, R379) (DEDUCED, log 20). -/
def State.laneLost (s : State) (p lane cause : Nat) : State :=
  let lost := s.fld .portLaneMap p 0 12 4
  if lost.testBit lane then s
  else
    let s := s.setFld .portLaneMap p 0 12 4 (lost + 2 ^ lane)
    let s := (s.bump .portLaneFaults p 0 1).emit 0x2004 p 1 (pay [lane, cause])
    let left := s.fld .portLaneMap p 0 8 4 &&& (15 - s.fld .portLaneMap p 0 12 4)
    let s := if s.clockMaster p then s else s.sendLaneFault p
    if left = 0 then s.linkDown p (s.fld .portLaneMap p 0 12 4) false false
    else if s.portState p = 6 then s
    else s.startRepair p

/-- A test of R376 is met, with PORT_X_LOCK as it is now (R390). -/
def State.lossMet (s : State) (p lane : Nat) (test : LossTest) : Bool :=
  match test with
  | .markers n => decide (max 1 (s.fld .portXLock p 0 0 4) ≤ n)
  | .clock => true
  | .errors _ =>
    let e := ((s.lane p).errMs.filter fun e => e.1 == lane && decide (s.ticks < e.2.1 + tickMs)).map fun e => e.2.2
    decide (max 1 (s.fld .portXLock p 0 8 8) ≤ e.sum)

/-- The cause of a loss in LANE_FAULT (R392). -/
def lossCause : LossTest → Nat
  | .markers _ => 0
  | .clock => 1
  | .errors _ => 2

/-- LANE_LOSS: a test of R376 on lane 0 to 3, BK (4) or CK (5): marker intervals without a good marker, the clock recovery's report, or
code errors, which are counted. The lane is lost where the test is met. -/
def State.laneLoss (s : State) (p lane : Nat) (test : LossTest) : State :=
  let st := s.portState p
  if st ≠ 2 ∧ st ≠ 3 ∧ st ≠ 6 then s
  else
    let s := match test with
      | .errors n => s.codeError p lane n
      | _ => s
    if !s.lossMet p lane test then s
    else if 4 ≤ lane then s.linkDown p 0 (lane == 5) (lane == 4)
    else s.laneLost p lane (lossCause test)

/-- LANE_FAULT_MARKER_RX: the far receiver reports on BK the lanes still locked (R368, R376). -/
def State.laneFaultRx (s : State) (p : Nat) (bits : List Bool) : State :=
  let st := s.portState p
  if (st ≠ 2 ∧ st ≠ 3) ∨ !s.clockMaster p then s
  else
    match s.markBlock p 4 2 bits with
    | (s, none) => s
    | (s, some t) =>
      let healthy := s.fld .portLaneMap p 0 8 4
      forEach ((List.range 4).filter fun l => healthy.testBit l && !t.laneStatus.testBit l)
        (fun l s => if s.portState p = 2 ∨ s.portState p = 3 then s.laneLost p l 0 else s) s

/-- The limit of a repair (R378): three frame periods of the head on the port, or 50 ms. -/
def State.repairLimit (s : State) (p : Nat) : Nat :=
  match s.plan.headOfPort p with
  | none => 50 * tickMs
  | some h =>
    let rate := (s.reg .grpRate 0 h.group).toNat
    if rate = 0 then 50 * tickMs else 3 * (10 ^ 15 / rate) / 5000

/-- The port overruns the limit of its repair. -/
def State.repairLate (s : State) (p : Nat) : Bool := decide ((s.lane p).repairTick.getD s.ticks + s.repairLimit p ≤ s.ticks)

/-- The port is ACTIVE again and SAFE, where it is due, is the first thing it sends (R380). -/
def State.safeIfDue (s : State) (p : Nat) : State :=
  match (s.link p).safe with
  | some reason => if (s.link p).safePending then s.safe p reason else s
  | none => s

/-- REPAIR_DONE: the repair has passed its phases within its limit; the port is ACTIVE again (R375, R378). -/
def State.repairDone (s : State) (p : Nat) : State :=
  let x := s.lane p
  if s.portState p = 3 ∧ x.repairPassed ∧ !s.repairLate p then
    let us := (s.ticks - x.repairTick.getD s.ticks) / 200
    let s := (s.setPortState p 2).setFld .portState p 0 4 3 0
    let s := s.setLane p { x with repairTick := none, repairPassed := false, rxNext := 0, rxLanes := [] }
    let s := s.emit 0x2005 p 1 (pay [s.fld .portState p 0 10 3, s.fld .portLaneMap p 0 0 8, us])
    s.safeIfDue p
  else s

/-- REPAIR_TIMEOUT: the repair overruns its limit; the port trains afresh (R378). -/
def State.repairTimeout (s : State) (p : Nat) : State :=
  if s.portState p = 3 ∧ s.repairLate p then s.repairFailed p else s

/-- TX_ISLAND_LOSS (R381): the transmitters fall to electrical idle and send nothing until a new training (DESIGN CHOICE, log 77). -/
def State.txIslandLoss (s : State) (p : Nat) : State := (s.setLane p { s.lane p with txDead := true }).send (.electricalIdle p)

/-! ### Commands of the lane layer (R391) -/

/-- RETRAIN. -/
def retrain : Perf := fun _ r e s =>
  let p := e.inst
  checked 0x20 (e.object == 0xFFFF) (e.zeroFrom 32 56) true e s fun s =>
    if s.fnState 0x20 p ≠ 2 ∧ s.fnState 0x20 p ≠ 1 then done s stNotOn
    else if s.portState p = 1 ∨ s.portState p = 3 ∨ s.portState p = 5 then done s stBusy
    else
      let s := if s.portState p = 2 ∨ s.portState p = 6 then s.bump .portLinkDown p 0 1 else s
      let s := s.startTraining p false
      (s.setLane p { s.lane p with retrain := some (r, e.k) }, none)

/-- No head, source, panel or tandem function on the port is in STARTING or ON (R383). -/
def State.portIdle (s : State) (p : Nat) : Bool :=
  let quiet (cap inst : Nat) : Bool := s.fnState cap inst == 0 || s.fnState cap inst == 3
  (s.plan.heads.all fun h => (h.primary != p && h.secondary != p) || quiet 0x14 h.head) &&
  (s.plan.sources.all fun e => !((e.kind == 0 || e.kind == 1) && e.attach == p) || quiet 0x10 e.source) &&
  (s.plan.panels.all fun e => e.port != p || quiet 0x21 e.panel) &&
  (match s.plan.tandem with
   | some t => (t.portA != p && t.portB != p) || quiet 0x32 0
   | none => true)

/-- The conditions of R383 for POWER and TEST. -/
def State.mayRest (s : State) (p : Nat) : Bool :=
  s.portState p == 2 && s.portIdle p && (s.plan.role p != 1 || (s.link p).safeSince)

/-- The port starts to leave IDLE or DEEP (R384). -/
def State.portExit (s : State) (p : Nat) : State :=
  let s := s.setLane p { s.lane p with powerTick := s.ticks, fromDeep := s.portState p == 7 }
  if s.portState p = 7 then s.startTraining p true else s

/-- POWER: 0 ACTIVE, 1 IDLE, 2 DEEP. -/
def power : Perf := fun _ r e s =>
  let p := e.inst
  let target := e.arg 32 1
  checked 0x20 (e.object == 0xFFFF) (target < 3 && e.zeroFrom 33 56) true e s fun s =>
    if s.fnState 0x20 p ≠ 2 ∧ !(target == 0 && s.fnState 0x20 p == 1) then done s stNotOn
    else if s.portState p = 1 ∨ s.portState p = 3 ∨ s.portState p = 5 then done s stBusy
    else if s.portState p = 4 then done s stState
    else if target = 0 then
      if s.portState p = 2 then done s stOk
      else
        let s := s.portExit p
        (s.setLane p { s.lane p with power := some (r, e.k, 0) }, none)
    else if !s.mayRest p then done s stState
    else (s.setLane p { s.lane p with power := some (r, e.k, target), powerTick := s.ticks }, none)

/-- The port reaches a power state; the POWER that asked for it completes (R391, R392). -/
def State.powerReached (s : State) (p st : Nat) : State :=
  let x := s.lane p
  let old := s.portState p
  let s := (s.setPortState p st).emit 0x2008 p 0 (pay [old, st, (s.ticks - x.powerTick) / 200])
  match x.power with
  | some (r, k, _) => (s.setLane p { s.lane p with power := none }).complete r k stOk 0
  | none => s

/-- The data lanes that the device drives. -/
def State.dataLanes (s : State) (p : Nat) : List Nat := (List.range 4).filter fun l => s.drivesLane p l

/-- An exit from IDLE reaches ACTIVE (R382): IDLE_EXIT on the data lanes, SAFE where it is due (R380), and a repair where a lane of the map
was lost meanwhile (R375, R377). -/
def State.idleExit (s : State) (p : Nat) : State :=
  let s := if (s.dataLanes p).isEmpty then s else s.sendMarker p 4 (s.dataLanes p) []
  let s := (s.powerReached p 2).safeIfDue p
  if (s.dataMap p).any fun l => (s.fld .portLaneMap p 0 12 4).testBit l then s.startRepair p else s

/-- POWER_STATE: the port reaches IDLE, DEEP or, from IDLE, ACTIVE (R382 to R384). A POWER whose
conditions no longer hold when the port could rest completes with STATE (DESIGN CHOICE, log 77). -/
def State.powerState (s : State) (p : Nat) : State :=
  let x := s.lane p
  if s.portState p = 2 ∧ s.mayRest p then
    match x.power with
    | some (_, _, 1) =>
      let s := if (s.dataLanes p).isEmpty then s else (s.sendMarker p 3 (s.dataLanes p) []).send (.dataIdle p)
      s.powerReached p 6
    | some (_, _, 2) => (s.send (.electricalIdle p)).powerReached p 7
    | _ => s
  else if s.portState p = 2 then
    match x.power with
    | some (r, k, _) => (s.setLane p { x with power := none }).complete r k stState 0
    | none => s
  else if s.portState p = 6 ∧ ((match x.power with | some (_, _, 0) => true | _ => false) || !s.portIdle p) then s.idleExit p
  else if s.portState p = 7 ∧ !s.portIdle p ∧ s.plan.role p ≠ 0 then s.portExit p
  else s

/-- The lanes that a TEST names and the device drives, with the first bits of the pattern on each (R385, R386). -/
def State.patternLines (s : State) (p pattern lanes : Nat) : List (Nat × List Bool) :=
  ((s.bitLanes p).filter fun l => lanes.testBit l).map fun l =>
    (l, prbsBits pattern 64 (1 + Config.prbsStart p l pattern % (2 ^ (prbs pattern).1 - 1)))

/-- TEST (R386): in LINK mode TEST_START with the pattern in EQ_REQ goes before it; in LOOPBACK the far end is not involved. -/
def laneTest : Perf := fun _ r e s =>
  let p := e.inst
  let ok := e.arg 32 1 < 4 && e.arg 33 1 < 2 && e.arg 34 1 < 32 && e.arg 35 1 == 0 &&
    1 ≤ e.arg 36 4 && e.arg 36 4 ≤ 2000 && e.zeroFrom 40 56
  checked 0x20 (e.object == 0xFFFF) ok false e s fun s =>
    if s.portState p = 1 ∨ s.portState p = 3 ∨ s.portState p = 5 then done s stBusy
    else if !s.mayRest p then done s stState
    else
      let s := s.setPortState p 5
      let s := s.setFld .portTestStatus p 0 0 6 1
      let s := if e.arg 33 1 = 0 then s.sendMarker p 5 (s.bitLanes p) (s.blockOf p 0 (e.arg 32 1)).bytes else s
      let s := s.send (.testPattern p (e.arg 32 1) (e.arg 33 1 == 1) (s.patternLines p (e.arg 32 1) (e.arg 34 1)))
      (s.setLane p { s.lane p with test := some ⟨r, e.k, e.arg 32 1, e.arg 33 1, e.arg 34 1, s.ticks + e.arg 36 4 * tickMs⟩ }, none)

/-- What the checker of a lane makes of the bits it received in a test (R386): the bits in error, once it is seeded. A lane has a checker where
the device receives it, or where it is looped at the device's own pads. -/
def State.testChecked (s : State) (p : Nat) (t : LaneTest) (rx : List (List Bool)) (l : Nat) : Option Nat :=
  if t.lanes.testBit l && (t.mode == 1 || s.receivesLane p l) then prbsCheck t.pattern (rx.getD l []) else none

/-- TEST_DONE: DURATION_MS ends. `rx` are the bits that arrived on L0 to L3 and BK, `heard` the lanes whose receivers recovered bits
(R386). In LINK mode TEST_END leaves. -/
def State.testDone (s : State) (p : Nat) (rx : List (List Bool)) (heard : Nat) : State :=
  match (s.lane p).test with
  | none => s
  | some t =>
    if s.ticks < t.until_ then s
    else
      let got := (List.range 5).map fun l => if heard.testBit l then s.testChecked p t rx l else none
      let s := forEach (List.range 5) (fun l s => s.bump .portPrbsErr p l ((got.getD l none).getD 0)) s
      let s := s.setReg .portTestStatus p 0 (w32 (((List.range 5).map fun l => b2n (got.getD l none).isSome * 2 ^ (l + 1)).sum))
      let s := s.emit 0x2009 p 0 (pay ([t.pattern, t.mode] ++ got.map fun n => min 65535 (n.getD 0)))
      let s := if t.mode = 0 then s.sendMarker p 6 (s.bitLanes p) [] else s
      let s := (s.setPortState p 2).setLane p { s.lane p with test := none }
      (s.complete t.ring t.k stOk 0).safeIfDue p

/-- INJECT (R387). -/
def inject : Perf := fun _ _ e s =>
  let p := e.inst
  let lane := e.arg 32 1
  let ok := lane < 5 && s.drivesLane p lane && 1 ≤ e.arg 33 1 && 1 ≤ e.arg 34 2 && e.zeroFrom 36 56
  checked 0x20 (e.object == 0xFFFF) ok false e s fun s =>
    if s.portState p = 1 ∨ s.portState p = 3 then done s stBusy
    else if s.portState p = 4 then done s stState
    else if s.portState p ≠ 5 ∧ s.lifecycle ≠ 0 then done s stState
    else done (s.send (.injected p lane (e.arg 33 1) (e.arg 34 2))) stOk

/-- A port leaves ON: electrical idle, OFF (R375). -/
def State.portOff (s : State) (p : Nat) : State :=
  let s := (s.setPortState p 0).setFld .portState p 0 4 3 0
  let s := s.setLane p { s.lane p with test := none, retrain := none, power := none, repairTick := none, failedAt := none,
                                       fromDeep := false }
  s.send (.electricalIdle p)

end Sys2Proof.Machine
end

