-- ==== Sys2Proof/Machine/Timing.lean ====
section
/-! DEFINITION. The timing core (spec/15): counting TIME_NS, references and their qualification, selection,
holdover, cadence groups, capture, pulse outputs. STEP itself, which reaches every stored time, is in TimeStep.lean. -/

namespace Sys2Proof.Machine

/-- The nominal increment (R472). -/
def nominal : Nat := 0x500000000

def State.setTim (s : State) (t : TimSt) : State := { s with tim := t }
def State.incr (s : State) : Nat := s.pair .timIncrLo .timIncrHi 0 0
def State.timState (s : State) : Nat := s.fld .timState 0 0 0 3
def State.selected (s : State) : Nat := s.fld .timState 0 0 4 3
def State.refSt (s : State) (r : Nat) : RefSt := tabGet RefSt.init s.tim.refs r
def State.setRef (s : State) (r : Nat) (x : RefSt) : State := s.setTim { s.tim with refs := tabSet RefSt.init s.tim.refs r x }

/-- TIM_WRAP changes (R475). -/
def State.wrapBy (s : State) (up : Bool) : State :=
  let n := s.fld .timWrap 0 0 0 16
  let n' := if up then (n + 1) % 65536 else (n + 65535) % 65536
  (s.setFld .timWrap 0 0 0 16 n').emit 0x3007 0 0 (pay [n', b2n (!up)])

/-- One REFCLK tick: the increment is added to TIME_NS and its fraction (R472), with the wrap of R475. -/
def State.countTick (s : State) : State :=
  let v := (s.bus.time.toNat * 2 ^ 32 + s.bus.frac.toNat + s.incr) % 2 ^ 64
  let t : Word := w32 (v / 2 ^ 32)
  let wraps := bit s.bus.time 31 && !bit t 31
  let s := s.onBus fun b => { b with time := t, frac := w32 v, ticks := b.ticks + 1 }
  if wraps then s.wrapBy true else s

/-- WRAP: a tick that takes TIME_NS bit 31 from 1 to 0 (R475). -/
def State.wrapTick (s : State) : State :=
  let t := s.countTick
  if bit s.bus.time 31 && !bit t.bus.time 31 then t else s

/-! ### The core's states (R481 to R487) -/

/-- A TIMING record (spec/16 R500): WHAT, reference or group, new state, step or anchor, rate or y. -/
def State.timingRec (s : State) (what ref st v4 v5 : Nat) : State :=
  s.journal 0x0A 0x30 0 (le 1 what ++ le 1 ref ++ le 1 st ++ le 1 0 ++ le 4 v4 ++ le 4 v5)

/-- A transition of the core (R484). -/
def State.setTimState (s : State) (st : Nat) : State :=
  let old := s.timState
  let s := s.setFld .timState 0 0 0 3 st
  let s := s.timingRec 3 s.selected st 0 (s.reg .refOffset 0 s.selected).toNat
  (s.setTim { s.tim with within := none }).emit 0x3001 0 (if st = 4 then 1 else 0) (pay [old, st, s.selected])

/-- Targets are clamped to ±100 ppm of nominal (R473). -/
def clampTarget (z : Int) : Nat := (clampI (nominal - nominal / 10000) (nominal + nominal / 10000) z).toNat

/-- The target of a reference: the written increment of HOST (R480), else nominal × (1 + y) plus the phase term
of R483, which removes the drift from D0 with a time constant of 100 s within the slew limit (DEDUCED, log 21). -/
def State.refTarget (s : State) (r : Nat) : Nat :=
  if r = 5 then clampTarget (s.pair .timHostIncrLo .timHostIncrHi 0 0)
  else
    let x := s.refSt r
    let ppb := clampI (-(s.fld .timXSlew 0 0 0 17)) (s.fld .timXSlew 0 0 0 17) (-((x.phase - s.tim.d0) / 100))
    clampTarget (x.target + (nominal : Int) * ppb / 1000000000)

/-- The held value (R485): the mean of the increment over the LOCKED time kept, to the nearest unit. -/
def State.heldValue (s : State) : Nat :=
  let n := s.tim.locked.length
  if n = 0 then s.incr else (s.tim.locked.sum + n / 2) / n

def State.refQual (s : State) (r : Nat) : Nat := s.fld .refStatus 0 r 0 2
def State.refPrio (s : State) (r : Nat) : Nat := s.fld .refCfg 0 r 4 4

/-- The lowest priority, and the lowest index among equals (R481). -/
def State.bestOf (s : State) (rs : List Nat) : Option Nat :=
  rs.foldl (fun b r => match b with
    | none => some r
    | some q => if s.refPrio r < s.refPrio q then some r else some q) none

/-- The reference the rules of R481 select: FORCE_REF while forced, else the QUALIFIED one with the lowest
priority from 1, the lowest index among equals. -/
def State.bestRef (s : State) : Option Nat :=
  if s.tim.ignoreRefs then none
  else if bit (s.reg .timCtl 0 0) 1 then
    let f := s.fld .timCtl 0 0 4 3
    if s.refQual f = 2 then some f else none
  else
    s.bestOf ((List.range 6).filter fun r => s.refQual r == 2 && s.refPrio r != 0)

/-- D0 is captured for a reference (R483): the present drift is 0, and the target follows. -/
def State.takeD0 (s : State) (r : Nat) : State :=
  let s := (s.setTim { s.tim with d0 := (s.refSt r).phase }).setReg .timPhaseErr 0 0 0
  s.setTim { s.tim with target := s.refTarget r }

/-- A reference is selected (R484): REF_SELECTED, target, D0 on a switch. Cause 0 failure, 1 restore, 2 force. -/
def State.selectRef (s : State) (r cause : Nat) : State :=
  let old := s.selected
  let st := s.timState
  let s := s.setFld .timState 0 0 4 3 r
  let s := s.takeD0 r
  let s := s.emit 0x3004 0 1 (pay [old, r, cause])
  s.setTimState (if st = 1 ∨ st = 2 ∨ st = 3 then 3 else 1)

/-- No reference is selected (R484, R485): FREEWHEEL at the held value, or FREE_RUN at nominal. -/
def State.deselect (s : State) : State :=
  let st := s.timState
  let s := s.setFld .timState 0 0 4 3 7
  if st = 1 ∨ st = 2 ∨ st = 3 then
    if bit (s.reg .timState 0 0) 12 then
      let s := s.setTim { s.tim with target := s.heldValue, holdTick := s.ticks }
      (s.setReg .timHoldS 0 0 0).setTimState 4
    else (s.setTim { s.tim with target := nominal }).setTimState 0
  else s

/-- Selection follows a change of qualification, priority or force (R481, R482). -/
def State.reselect (s : State) (cause : Nat) : State :=
  let st := s.timState
  let sel := s.selected
  match s.bestRef with
  | none => if sel = 7 then s else s.deselect
  | some r =>
    if sel = r then s
    else if (st = 2 ∨ st = 3) ∧ sel ≠ 7 ∧ s.refQual sel = 2 ∧ !bit (s.reg .timCtl 0 0) 1 ∧ s.refPrio sel ≠ 0 then s
    else s.selectRef r cause

/-- A change of qualification (R479): the decision record, the event, and selection. A count of QUAL_S or a wait-to-restore timer that starts
takes its length now (R496). -/
def State.setQual (s : State) (r q cause : Nat) : State :=
  let old := s.refQual r
  if old = q then s
  else
    let s := s.setFld .refStatus 0 r 0 2 q
    let s := s.timingRec 2 r q 0 (s.reg .refOffset 0 r).toNat
    let y := (s.reg .refOffset 0 r).toNat
    let s := if q = 2 then s.emit 0x3002 0 0 (pay [r, y])
      else if q = 0 then s.emit 0x3003 0 1 (pay [r, cause, y]) else s
    let s := s.setRef r { s.refSt r with goodSecs := 0, wtrAt := if q = 2 then some s.ticks else none,
                                         qualS := s.fld .timXTimes 0 0 0 16, wtrS := s.fld .timXTimes 0 0 16 16 }
    s.reselect 0

/-- REF_INACTIVE (R477, R479). -/
def State.refInactive (s : State) (r : Nat) : State :=
  if 6 ≤ r ∨ !bit (s.reg .refStatus 0 r) 2 then s
  else (s.setFld .refStatus 0 r 2 1 0).setQual r 0 0

/-- REF_ACTIVE (R477, R479): QUALIFYING from the first good edge. -/
def State.refActive (s : State) (r : Nat) : State :=
  if 6 ≤ r ∨ bit (s.reg .refStatus 0 r) 2 ∨ s.fld .refCfg 0 r 0 2 = 0 then s
  else
    let s := s.setFld .refStatus 0 r 2 1 1
    (s.setFld .refStatus 0 r 8 8 (min 255 (s.fld .timXTimes 0 0 0 16))).setQual r 1 0

/-- The nominal frequency in mHz (R476). -/
def State.nomMhz (s : State) (r : Nat) : Nat :=
  let n := (s.reg .refNom 0 r).toNat
  if s.fld .refCfg 0 r 0 2 = 1 then n * 1000 else n

/-- REF_MEASUREMENT (R478, R479): `edges` periods in `n` REFCLK ticks, and the phase of the edges against TIME_NS
in ns. For HOST the offset is that of the written increment (R480) (DEDUCED, log 21). -/
def State.refMeasure (s : State) (r edges n : Nat) (phase : Int) : State :=
  if 6 ≤ r ∨ !bit (s.reg .refStatus 0 r) 2 then s
  else
    let num : Nat := if r = 5 then s.pair .timHostIncrLo .timHostIncrHi 0 0 else edges * 200000000000
    let den : Nat := if r = 5 then nominal else s.nomMhz r * n
    if den = 0 then s
    else
      let dev : Int := ((num : Int) - den) * 1000000000
      let acc := s.fld .timXLimits 0 0 0 16
      let rej := s.fld .timXLimits 0 0 16 16
      let inA := decide (dev.natAbs ≤ acc * den)
      let inR := decide (dev.natAbs ≤ rej * den)
      let s := s.setReg .refOffset 0 r (i32 (dev / den))
      let s := (s.setFld .refStatus 0 r 3 1 (b2n inA)).setFld .refStatus 0 r 4 1 (b2n inR)
      let x := s.refSt r
      let s := s.setRef r { x with target := (2 * nominal * num + den) / (2 * den), phase := phase }
      let s :=
        if !inR then s.setQual r 0 1
        else if s.refQual r = 0 then s.setQual r 1 1
        else s
      let x := s.refSt r
      let good := if inA then x.goodSecs + 1 else 0
      let len := if inA then x.qualS else s.fld .timXTimes 0 0 0 16
      let s := if s.refQual r = 1 then
          (s.setRef r { x with goodSecs := good, qualS := len }).setFld .refStatus 0 r 8 8 (min 255 (len - good))
        else s
      if s.selected = r then
        let s := s.setReg .timPhaseErr 0 0 (i32 (phase - s.tim.d0))
        s.setTim { s.tim with target := s.refTarget r }
      else s

/-- REF_QUALIFIED (R479). -/
def State.refQualified (s : State) (r : Nat) : State :=
  if r < 6 ∧ s.refQual r = 1 ∧ (s.refSt r).qualS ≤ (s.refSt r).goodSecs then s.setQual r 2 0 else s

/-- The kinds a reference may take (the table before R476). -/
def kindAllowed (r kind : Nat) : Bool :=
  kind == 0 || (r < 4 && (kind == 1 || kind == 2)) || (r == 4 && kind == 2) || (r == 5 && kind == 3)

/-- The last write of the HOST increment is less than HOST_MS old (R480). -/
def State.hostRecent (s : State) : Bool :=
  match s.tim.hostTick with
  | none => false
  | some t => decide (s.ticks < t + s.fld .timXHostMs 0 0 0 16 * tickMs)

/-- A reference's qualification starts again (R476); HOST is active from the start where it was written lately (R480). -/
def State.requalify (s : State) (r : Nat) : State :=
  let s := s.setQual r 0 0
  if s.fld .refCfg 0 r 0 2 = 0 then s.setFld .refStatus 0 r 2 1 0
  else if bit (s.reg .refStatus 0 r) 2 then s.setQual r 1 0
  else if r = 5 ∧ s.hostRecent then s.refActive 5 else s

/-- REF_CFG_WRITE (R476): a write to REF_CFG, or to REF_NOM when `nom`. -/
def State.refCfgWrite (s : State) (host r : Nat) (nom : Bool) (v : Word) : State :=
  s.hostWrite host 0x30 0 0 ((if nom then 0x44 else 0x40) + 0x10 * r) v fun s =>
    if 6 ≤ r then s
    else if nom then
      let kind := s.fld .refCfg 0 r 0 2
      let n := v.toNat
      let okClock := decide (1000000 ≤ n ∧ n ≤ 100000000)
      let okPulse := decide (1000 ≤ n ∧ n ≤ 1000000)
      if (if kind = 1 then okClock else if kind = 2 then okPulse else okClock || okPulse) then
        (s.setReg .refNom 0 r v).requalify r
      else s.bump .timXIgnored 0 0 1
    else if !kindAllowed r (bf v 0 2) then s.bump .timXIgnored 0 0 1
    else
      let old := s.reg .refCfg 0 r
      let new := w32 (bf v 0 2 + bf v 4 4 * 16 + bf v 8 1 * 256)
      let s := s.setReg .refCfg 0 r new
      if bf old 0 2 ≠ bf new 0 2 ∨ bf old 8 1 ≠ bf new 8 1 then s.requalify r else s.reselect 0

/-- TIM_CTL_WRITE (R481): FORCE and REVERTIVE, and selection at once. -/
def State.timCtlWrite (s : State) (host : Nat) (v : Word) : State :=
  s.hostWrite host 0x30 0 0 0x04 v fun s =>
    if 5 < bf v 4 3 then s.bump .timXIgnored 0 0 1
    else (s.setReg .timCtl 0 0 (w32 (bf v 0 2 + bf v 4 3 * 16))).reselect 2

/-- A QUALIFIED reference is better than the selected one (R481, R482). -/
def State.refBetter (s : State) (r : Nat) : Bool :=
  s.refQual r == 2 && s.refPrio r != 0 && decide (s.selected ≠ 7 ∧
    (s.refPrio r < s.refPrio s.selected ∨ (s.refPrio r = s.refPrio s.selected ∧ r < s.selected)))

/-- Ticks left on the wait-to-restore timer of a reference, from its qualification (R482). -/
def State.wtrLeft (s : State) (r : Nat) : Nat :=
  match (s.refSt r).wtrAt with
  | none => 0
  | some t => t + (s.refSt r).wtrS * tickS - s.ticks

/-- WTR_EXPIRY: the wait-to-restore timer of a better reference has expired and the core is LOCKED; the best of several such goes first (R481,
R482) (DEDUCED, log 21). -/
def State.wtrExpiry (s : State) (r : Nat) : State :=
  if s.timState = 2 ∧ bit (s.reg .timCtl 0 0) 0 ∧ !bit (s.reg .timCtl 0 0) 1 ∧
      s.bestOf ((List.range 6).filter fun q => s.refBetter q && s.wtrLeft q == 0) = some r then s.selectRef r 1
  else s

/-- LOCK_TEST_MET (R484): within 0.1 ppm of the target for 1 s; D0 is recorded at each entry to LOCKED (R483). -/
def State.lockTestMet (s : State) : State :=
  match s.tim.within with
  | none => s
  | some t =>
    if (s.timState = 1 ∨ s.timState = 3) ∧ t + tickS ≤ s.ticks then
      ((s.takeD0 s.selected).setFld .timState 0 0 12 1 1).setTimState 2
    else s

/-- HOLD_EXPIRED (R484, R486). -/
def State.holdExpired (s : State) : State :=
  let secs := (s.ticks - s.tim.holdTick) / tickS
  if s.timState = 4 ∧ s.fld .timXHold 0 0 0 16 ≤ secs then
    let s := (s.setReg .timHoldS 0 0 (w32 secs)).setTimState 5
    s.emit 0x3005 0 1 (pay [secs, s.tim.target % 2 ^ 32])
  else s

/-- TIM_HOST_INCR_HI_WRITE (R3, R480). -/
def State.hostIncrWrite (s : State) (host : Nat) (hi : Word) : State :=
  s.hostWrite host 0x30 0 0 0x1C hi fun s =>
    let lo := (assocGet s.bus.pairLo (FReg.fkey .timHostIncrLo 0 0)).getD (s.reg .timHostIncrLo 0 0)
    let v := lo.toNat + hi.toNat * 2 ^ 32
    if v < nominal - nominal / 10000 ∨ nominal + nominal / 10000 < v then s.bump .timXIgnored 0 0 1
    else
      let s := s.setPair .timHostIncrLo .timHostIncrHi 0 0 v
      let s := s.setTim { s.tim with hostTick := some s.ticks }
      let s := s.setReg .refOffset 0 5 (i32 (((v : Int) - nominal) * 1000000000 / nominal))
      let s := s.setRef 5 { s.refSt 5 with target := v }
      let s := if s.fld .refCfg 0 5 0 2 = 3 ∧ !bit (s.reg .refStatus 0 5) 2 then s.refActive 5 else s
      if s.selected = 5 then s.setTim { s.tim with target := s.refTarget 5 } else s

/-- HOST_REF_TIMEOUT (R480). -/
def State.hostRefTimeout (s : State) : State :=
  match s.tim.hostTick with
  | none => s
  | some t => if t + s.fld .timXHostMs 0 0 0 16 * tickMs ≤ s.ticks then s.refInactive 5 else s

/-- TIM_STATE.WTR_REF and TIM_WTR_LEFT: the reference that waits to be restored, and for how long (R482) (DEDUCED, log 21). -/
def State.showWtr (s : State) : State :=
  match (List.range 6).find? fun r => s.refBetter r && s.wtrLeft r != 0 with
  | some r => (s.setFld .timState 0 0 8 3 r).setReg .timWtrLeft 0 0 (w32 (cdiv (s.wtrLeft r) tickS))
  | none => (s.setFld .timState 0 0 8 3 7).setReg .timWtrLeft 0 0 0

/-- INCREMENT_SLEW_STEP (R473): once a millisecond, at most MAX_SLEW / 1,000 ppb of nominal; with it the lock test,
SLEW_LIMITED, the LOCKED mean, TIM_FREQ_ERR, TIM_HOLD_S and TIM_WTR_LEFT. -/
def State.slewStep (s : State) : State :=
  if s.ticks < s.tim.slewTick + tickMs then s
  else
    let s := s.setTim { s.tim with slewTick := s.ticks }
    let step : Int := nominal * s.fld .timXSlew 0 0 0 17 / 1000000000000
    let d := clampI (-step) step ((s.tim.target : Int) - s.incr)
    let inc := ((s.incr : Int) + d).toNat
    let s := s.setPair .timIncrLo .timIncrHi 0 0 inc
    let s := s.setReg .timFreqErr 0 0 (i32 (((inc : Int) - nominal) * 1000000000 / nominal))
    let gap := ((s.tim.target : Int) - inc).natAbs
    let x := s.tim
    let x := { x with within := if gap * 10000000 ≤ nominal then some (x.within.getD s.ticks) else none,
                      far := if nominal < gap * 1000000 then some (x.far.getD s.ticks) else none,
                      locked := if s.timState = 2 then (inc :: x.locked).take (s.fld .timXHold 0 0 16 16 * 1000)
                                else x.locked }
    let s := s.setTim x
    let limited := match x.far with | some t => decide (t + 10 * tickS ≤ s.ticks) | none => false
    let was := bit (s.reg .timState 0 0) 13
    let s := s.setFld .timState 0 0 13 1 (b2n limited)
    let ppb (v : Nat) : Nat := (i32 (((v : Int) - nominal) * 1000000000 / nominal)).toNat
    let s := if limited && !was then s.emit 0x300A 0 1 (pay [ppb x.target, ppb inc]) else s
    let s := if s.timState = 4 then s.setReg .timHoldS 0 0 (w32 ((s.ticks - x.holdTick) / tickS)) else s
    s.showWtr

/-! ### Capture (R492) -/

/-- A result of channel c: TIME_NS `t` with its sixteenths of a ns. OVERRUN, once set, stays until a read of CAP_SUB clears it (R492). -/
def State.record (s : State) (c : Nat) (t : Word) (sub : Nat) : State :=
  let ctl := s.reg .capCtl 0 c
  let x := tabGet CapSt.init s.tim.caps c
  let fresh := x.secTick + tickS ≤ s.ticks ∨ x.secCount = 0
  let n := if fresh then 1 else x.secCount + 1
  let lost := b2n (x.unread || bit (s.reg .capSub 0 c) 4)
  let s := s.bump .capCount 0 c 1
  let s := s.setReg .capTime 0 c t
  let s := s.setReg .capSub 0 c (w32 (sub % 16 + lost * 16))
  let t0 := if fresh then s.ticks else x.secTick
  let y : CapSt := { unread := true, valid := true, secTick := t0, secCount := n }
  let s := s.setTim { s.tim with caps := tabSet CapSt.init s.tim.caps c y }
  if bit ctl 6 ∧ n ≤ 1000 then s.emit 0x3009 0 0 (pay [c, t.toNat, (s.reg .capSub 0 c).toNat]) else s

/-- The device's own edge of a kind of INPUT, 5 to 8 PULSE_A to PULSE_D as driven and 9 to 16 the frame instants of CG0 to CG7: every channel that
records it does, exactly (R492). A frame instant is no edge of either kind. -/
def State.captureAt (s : State) (input : Nat) (falling : Option Bool) (t : Word) : State :=
  forEach (List.range 16) (fun c s =>
    let ctl := s.reg .capCtl 0 c
    if bit ctl 7 ∧ bf ctl 0 5 = input ∧ (falling.all fun f => f == bit ctl 5) then s.record c t 0 else s) s

/-- PULSE output p is driven to another level, at instant t (R492, R493). -/
def State.drivePulse (s : State) (p : Nat) (level : Bool) (t : Word) : State :=
  (s.send (.pulse p level)).captureAt (5 + p) (some (!level)) t

/-- CAPTURE: an edge of a channel's input pin, REFIN_A to REFIN_D or TIME_SYNC, at TIME_NS `t` with its sixteenths of a ns; what the device drives
itself it records as it drives it (R492) (DEDUCED, log 22). -/
def State.capture (s : State) (c : Nat) (t : Word) (sub : Nat) : State :=
  let ctl := s.reg .capCtl 0 c
  if 16 ≤ c ∨ !bit ctl 7 ∨ 5 ≤ bf ctl 0 5 then s else s.record c t sub

/-! ### The core becomes unsound (R487) -/

/-- The core becomes unsound (R487): pulses low, clock outputs stopped low. Cause 0 timeout, 1 REFCLK lost. -/
def State.unsound (s : State) (cause : Nat) : State :=
  if !bit (s.reg .timState 0 0) 11 then s
  else
    let s := s.setFld .timState 0 0 11 1 0
    let s := forEach (List.range 4) (fun p s =>
      if (tabGet PulseSt.init s.tim.pulses p).level then s.drivePulse p false s.now else s.send (.pulse p false)) s
    let s := s.setTim { s.tim with pulses := [] }
    let s := (s.setFld .clkoutCtl 0 0 1 1 0).setFld .clkoutCtl 0 1 1 1 0
    (s.send .clkoutStopped).emit 0x300B 0 2 (pay [cause])

/-! ### Cadence groups (R489 to R491) -/

def State.group (s : State) (g : Nat) : GroupSt := tabGet GroupSt.init s.tim.groups g
def State.setGroup (s : State) (g : Nat) (x : GroupSt) : State :=
  s.setTim { s.tim with groups := tabSet GroupSt.init s.tim.groups g x }

/-- The frame period in ps (R489): floor(10^15 / rate). -/
def framePs (rate : Nat) : Nat := 10 ^ 15 / rate

/-- Frame instant k of a group (R489). -/
def State.instant (s : State) (g : Nat) (k : Int) : Word :=
  let p : Int := framePs (s.reg .grpRate 0 g).toNat
  s.reg .grpAnchor 0 g + s.reg .grpPhase 0 g + BitVec.ofInt 32 (k * p / 1000)

/-- The least k whose instant lies at least `least` ns after `t` (R489, R490), counted from the group's next frame instant, from which `t`
lies less than 2^31 ns however long ago the anchor was. -/
def State.firstK (s : State) (g : Nat) (t : Word) (least : Int) : Int :=
  let p : Int := framePs (s.reg .grpRate 0 g).toNat
  if p = 0 then 0
  else
    let k := (s.group g).k
    let d := sdiff t (s.instant g k) + least + k * p / 1000
    Int.neg ((-(d * 1000)) / p)

/-- Take index k as the group's next frame instant. -/
def State.setNext (s : State) (g : Nat) (k : Int) : State :=
  (s.setGroup g { s.group g with k := k }).setReg .grpNext 0 g (s.instant g k)

/-- ALIGN_NOTE on each out-port whose head is in the group, with the head's first new latch instant (R490, spec/10 R308). -/
def State.alignNotes (s : State) (g : Nat) : State :=
  forEach (s.plan.heads.filter fun h => h.group == g) (fun h s =>
    forEach ([h.primary] ++ if h.secondary = 0xFF then [] else [h.secondary]) (fun p s =>
      let latch := s.reg .grpNext 0 g + w32 (((s.head h.head).mode.map ModeSt.phase).getD 0)
      if s.drives then s.control p 5 (le 4 latch.toNat ++ le 1 g ++ le 3 0) else s) s) s

/-- What entered at `d` applies at the group's present frame instant, which has come although its command has not run yet (R490). -/
def State.groupMet (s : State) (g : Nat) (d : Word) : Bool :=
  atOrAfter s.now (s.reg .grpNext 0 g) && decide (sdiff d (s.reg .grpNext 0 g) < 0)

/-- CADENCE_FRAME_INSTANT (R489, R490): the group reaches its next frame instant, which capture channels record exactly (R492); GROUP_RATE, then
ALIGN, performed before it apply. -/
def State.frameInstant (s : State) (g : Nat) : State :=
  if 8 ≤ g ∨ (s.reg .grpRate 0 g).toNat = 0 ∨ !atOrAfter s.now (s.reg .grpNext 0 g) then s
  else
    let t := s.reg .grpNext 0 g
    let s := s.captureAt (9 + g) none t
    let x := s.group g
    let ready (d : Word) : Bool := s.chooses && decide (sdiff d t < 0)
    let rate' := x.rate.filter fun q => !ready q.2
    let align' := x.align.filter fun q => !ready q.2
    let rate := ((x.rate.filter fun q => ready q.2) <|> x.rateDue.filter fun q => ready q.2).map Prod.fst
    let align := ((x.align.filter fun q => ready q.2) <|> x.alignDue.filter fun q => ready q.2).map Prod.fst
    if rate.isNone ∧ align.isNone then s.setNext g (x.k + 1)
    else
      let s := match rate with
        | some r => (s.setReg .grpRate 0 g (w32 r)).setReg .grpAnchor 0 g (t - s.reg .grpPhase 0 g)
        | none => s
      let s := match align with
        | some a => s.setReg .grpAnchor 0 g a
        | none => s
      let s := s.setGroup g { k := 0, rate := rate', align := align', rateDue := none, alignDue := none }
      let p := framePs (s.reg .grpRate 0 g).toNat
      let s := s.setNext g (s.firstK g t (p / 1000))
      let s := s.timingRec 4 g 0 (s.reg .grpAnchor 0 g).toNat (s.reg .grpRate 0 g).toNat
      (s.emit 0x3008 0 0 (pay [g, (s.reg .grpNext 0 g).toNat])).alignNotes g

/-- GROUP_RATE (R490, R497) (DEDUCED, log 22). -/
def groupRate : Perf := fun _ _ e s =>
  let g := e.object
  checked 0x30 (g < 8 && (s.plan.cad g).isSome) (e.zeroFrom 36 56) true e s fun s =>
    match s.plan.cad g with
    | none => done s stBadInstance
    | some c =>
      let r := e.arg 32 4
      if r < c.rateMin ∨ c.rateMax < r then done s stLimit
      else
        let x := s.group g
        done (s.setGroup g { x with rate := some (r, s.now), rateDue := (x.rate.filter fun q => s.groupMet g q.2) <|> x.rateDue }) stCommitPending

/-- The anchor an ALIGN gives (R491); `none` when the capture channel holds no result (DEDUCED, log 22). -/
def State.alignAnchor (s : State) (e : FEntry) : Option Word :=
  if e.arg 32 1 = 0 then some (w32 (e.arg 36 4))
  else if (tabGet CapSt.init s.tim.caps (e.arg 33 1)).valid then
    some (s.reg .capTime 0 (e.arg 33 1) + w32 (e.arg 40 4))
  else none

def State.pulse (s : State) (p : Nat) : PulseSt := tabGet PulseSt.init s.tim.pulses p
def State.setPulse (s : State) (p : Nat) (x : PulseSt) : State :=
  s.setTim { s.tim with pulses := tabSet PulseSt.init s.tim.pulses p x }

/-- ALIGN (R490, R491, R494): a cadence group (OBJECT 0 to 7) or a pulse output (8 to 11) (DEDUCED, log 22). -/
def align : Perf := fun _ _ e s =>
  let g := e.object
  let objOk := (g < 8 && (s.plan.cad g).isSome) || (8 ≤ g && g < 12)
  let argOk := e.arg 32 1 < 2 && (e.arg 32 1 == 0 || e.arg 33 1 < 16) && e.zeroFrom 34 36 && e.zeroFrom 44 56
  checked 0x30 objOk argOk true e s fun s =>
    match s.alignAnchor e with
    | none => done s stState
    | some a =>
      if g < 8 then
        let x := s.group g
        done (s.setGroup g { x with align := some (a, s.now), alignDue := (x.align.filter fun q => s.groupMet g q.2) <|> x.alignDue }) stCommitPending
      else
        let p := g - 8
        let s := if s.fld .pulseCtl 0 p 0 2 = 1 then s.setPulse p { s.pulse p with align := some a }
          else (s.setReg .pulseStart 0 p a).emit 0x3008 0 0 (pay [g, a.toNat])
        done s stCommitPending

/-! ### Reads of captures and of TIME_NS (R472, R492) -/

/-- Hold a function register for a later read, read a held one, release it. -/
def State.freeze (s : State) (r : FReg) (i j : Nat) : State :=
  s.onBus fun b => { b with froz := assocSet b.froz (r.fkey i j) (s.reg r i j) }
def State.frozen (s : State) (r : FReg) (i j : Nat) : Word := (assocGet s.bus.froz (r.fkey i j)).getD (s.reg r i j)
def State.thaw (s : State) (r : FReg) (i j : Nat) : State :=
  s.onBus fun b => { b with froz := assocDel b.froz (r.fkey i j) }
def State.answer (s : State) (port : Nat) (v : Word) : State := s.onBus fun b => b.answer port v

/-- CAP_TIME_READ. -/
def State.capTimeRead (s : State) (port c : Nat) : State :=
  if 16 ≤ c then s
  else
    let x := tabGet CapSt.init s.tim.caps c
    let s := (s.answer port (s.reg .capTime 0 c)).freeze .capSub 0 c
    s.setTim { s.tim with caps := tabSet CapSt.init s.tim.caps c { x with unread := false } }

/-- CAP_SUB_READ: returns it, as the read of CAP_TIME froze it, and clears OVERRUN and STEPPED where the value returned shows them. -/
def State.capSubRead (s : State) (port c : Nat) : State :=
  if 16 ≤ c then s
  else
    let v := s.frozen .capSub 0 c
    let s := (s.answer port v).thaw .capSub 0 c
    s.setReg .capSub 0 c (s.reg .capSub 0 c &&& ~~~(v &&& 0x30))

/-- TIM_NOW_READ (R472): TIME_NS, freezing its fraction; `frac` reads TIM_NOW_FRAC. -/
def State.timNowRead (s : State) (port : Nat) (frac : Bool) : State :=
  if frac then
    (s.answer port ((assocGet s.bus.froz (FReg.fkey .timNowFrac 0 0)).getD s.bus.frac)).thaw .timNowFrac 0 0
  else
    (s.answer port s.now).onBus fun b => { b with froz := assocSet b.froz (FReg.fkey .timNowFrac 0 0) b.frac }

/-! ### Pulse outputs (R493, R494) -/

/-- The first rising edge of a mode from now on. -/
def State.firstEdge (s : State) (p mode : Nat) : Word :=
  let start := s.reg .pulseStart 0 p
  let period : Int := (s.reg .pulsePeriod 0 p).toNat
  match mode with
  | 1 =>
    let late := sdiff s.now start
    if late ≤ 0 then start else start + BitVec.ofInt 32 (-((-late) / period) * period)
  | 2 =>
    let g := s.fld .pulseCtl 0 p 4 3
    let prev := s.instant g ((s.group g).k - 1) + start
    if 0 < sdiff prev s.now then prev else s.reg .grpNext 0 g + start
  | _ => start

/-- The ranges of R493 hold for a mode. -/
def State.pulseRanges (s : State) (p mode group : Nat) : Bool :=
  let per := (s.reg .pulsePeriod 0 p).toNat
  let wid := (s.reg .pulseWidth 0 p).toNat
  let rate := (s.reg .grpRate 0 group).toNat
  decide (1000 ≤ per ∧ per ≤ 2000000000 ∧ 10 ≤ wid) &&
    (if mode = 2 then rate != 0 && decide (wid + 10 ≤ framePs rate / 1000)
     else decide (wid + 10 ≤ per))

/-- A write of PULSE_CTL: GROUP only in OFF, MODE starts or stops the output (R493). -/
def State.pulseCtlWrite (s : State) (p : Nat) (v : Word) : State :=
  let mode := bf v 0 2
  let old := s.fld .pulseCtl 0 p 0 2
  let s := if old = 0 then s.setFld .pulseCtl 0 p 4 3 (bf v 4 3) else s
  if mode = 0 then
    let s := s.setFld .pulseCtl 0 p 0 2 0
    let s := if (s.pulse p).level then s.drivePulse p false s.now else s
    s.setPulse p { PulseSt.init with last := (s.pulse p).last }
  else if mode = old then s
  else if s.pulseRanges p mode (s.fld .pulseCtl 0 p 4 3) then
    let s := s.setFld .pulseCtl 0 p 0 2 mode
    s.setPulse p { s.pulse p with next := some (s.firstEdge p mode), align := none }
  else s

/-- PULSE_EDGE: a pulse output reaches a scheduled edge (R493, R494). -/
def State.pulseEdge (s : State) (p : Nat) : State :=
  let x := s.pulse p
  let width := s.reg .pulseWidth 0 p
  let falls := match x.fall with | some t => x.level && atOrAfter s.now t | none => false
  if 4 ≤ p ∨ 3 ≤ s.fld .thmState 0 0 0 3 ∨ s.wdn.serviceStep.isSome ∨ s.fld .debugState 0 0 0 2 = 2 ∨ s.fld .timState 0 0 11 1 = 0 then s
  else if falls then (s.drivePulse p false (x.fall.getD s.now)).setPulse p { x with level := false, fall := none }
  else
    match x.next with
    | none => s
    | some t =>
      if !atOrAfter s.now t then s
      else
        let mode := s.fld .pulseCtl 0 p 0 2
        let near := match x.last with | some l => decide (sdiff t l < width.toNat + 10) | none => false
        let s := if near then s else (s.drivePulse p true t).setPulse p { x with level := true, fall := some (t + width), last := some t }
        let x := s.pulse p
        match mode with
        | 1 =>
          match x.align with
          | some a =>
            let s := (s.setReg .pulseStart 0 p a).setPulse p { x with align := none }
            let s := s.setPulse p { s.pulse p with next := some (s.firstEdge p 1) }
            s.emit 0x3008 0 0 (pay [p + 8, (((s.pulse p).next).getD 0).toNat])
          | none => s.setPulse p { x with next := some (t + s.reg .pulsePeriod 0 p) }
        | 2 =>
          let g := s.fld .pulseCtl 0 p 4 3
          let k := s.firstK g (t - s.reg .pulseStart 0 p) 1
          s.setPulse p { x with next := some (s.instant g k + s.reg .pulseStart 0 p) }
        | _ => (s.setPulse p { x with next := none }).setFld .pulseCtl 0 p 0 2 0

def execIncrementSlewStep (s : State) : Answer := s.fabric State.slewStep
def execWrap (s : State) : Answer := s.fabric State.wrapTick
def execRefInactive (r : Nat) (s : State) : Answer := s.fabric fun s => s.refInactive r
def execRefActive (r : Nat) (s : State) : Answer := s.fabric fun s => s.refActive r
def execRefMeasurement (r edges n : Nat) (phase : Int) (s : State) : Answer := s.fabric fun s => s.refMeasure r edges n phase
def execRefQualified (r : Nat) (s : State) : Answer := s.fabric fun s => s.refQualified r
def execRefCfgWrite (host r : Nat) (nom : Bool) (v : Word) (s : State) : Answer := s.fabric fun s => s.refCfgWrite host r nom v
def execTimCtlWrite (host : Nat) (v : Word) (s : State) : Answer := s.fabric fun s => s.timCtlWrite host v
def execWtrExpiry (r : Nat) (s : State) : Answer := s.fabric fun s => s.wtrExpiry r
def execLockTestMet (s : State) : Answer := s.fabric State.lockTestMet
def execHoldExpired (s : State) : Answer := s.fabric State.holdExpired
def execTimHostIncrWrite (host : Nat) (hi : Word) (s : State) : Answer := s.fabric fun s => s.hostIncrWrite host hi
def execHostRefTimeout (s : State) : Answer := s.fabric State.hostRefTimeout
def execAlign (r k : Nat) (s : State) : Answer := s.fabric fun s => s.runCmd 0x3002 align r k
def execGroupRate (r k : Nat) (s : State) : Answer := s.fabric fun s => s.runCmd 0x3003 groupRate r k
def execCadenceFrameInstant (g : Nat) (s : State) : Answer := s.fabric fun s => s.frameInstant g
def execCapture (c : Nat) (t : Word) (sub : Nat) (s : State) : Answer := s.fabric fun s => s.capture c t sub
def execCapTimeRead (port c : Nat) (s : State) : Answer := s.fabric fun s => s.capTimeRead port c
def execCapSubRead (port c : Nat) (s : State) : Answer := s.fabric fun s => s.capSubRead port c
def execTimNowRead (port : Nat) (frac : Bool) (s : State) : Answer := s.fabric fun s => s.timNowRead port frac
def execPulseEdge (p : Nat) (s : State) : Answer := s.fabric fun s => s.pulseEdge p

end Sys2Proof.Machine
end

