-- ==== Sys2Proof/Machine/Sources.lean ====
section
/-! DEFINITION. Sources and frame stores (spec/06), the block compression engine, and the source packets of spec/13
R407 to R409 and R417, R418. -/

namespace Sys2Proof.Machine

def State.src (s : State) (n : Nat) : SrcSt := tabGet SrcSt.init s.srcs n
def State.setSrc (s : State) (n : Nat) (x : SrcSt) : State := { s with srcs := tabSet SrcSt.init s.srcs n x }

/-! ### Moving pictures -/

/-- Writes by one master; whether all were taken. -/
def State.writeAll (s : State) (m : Nat) (ws : List (Nat × List Byte)) : State × Bool :=
  ws.foldl (fun x w =>
    if w.2.isEmpty then x
    else
      let r := x.1.store m w.1 w.2
      (r.1, x.2 && r.2)) (s, true)

/-- Count stored blocks (R173, the COMPRESS register table). -/
def State.countBlocks (s : State) (slotN solidN rawN : Nat) : State :=
  ((s.bump .cmpSlotBlocks 0 0 slotN).bump .cmpSolidBlocks 0 0 solidN).bump .cmpRawBlocks 0 0 rawN

/-- The check array and trailer of a buffer (R172). -/
def checkWrites (g : Geo) (addr : Nat) (checks : List Nat) (slotN solidN rawN effort : Nat) : List (Nat × List Byte) :=
  [(addr + g.checkOff, padTo 64 (checks.flatMap fun c => le 4 c)),
   (addr + g.trailerOff, trailer slotN solidN rawN (contentCheck checks) effort)]

/-- Write a whole picture as a frame store with its check array (R172 to R176), counting its blocks. Where nothing is
coded (STORE 0) the trailer's effort is 0 (DESIGN CHOICE, log 75). -/
def State.writeStore (s : State) (m addr : Nat) (g : Geo) (effort : Nat) (pic : List (List Byte)) (checks : List Nat) : State × Bool :=
  if g.store = 0 then
    s.writeAll m ((pic.mapIdx fun y row => (addr + y * g.pitch, row)) ++ checkWrites g addr checks 0 0 0 0)
  else
    let coded := g.coded effort pic
    let n (k : Nat) : Nat := (coded.filter fun c => c.2.1 == k).length
    let r := s.writeAll m ((coded.map fun c => (addr + c.1 * rawBlk g.fmt, c.2.2)) ++
      [(addr + g.pixLen, g.metaPlane coded)] ++ checkWrites g addr checks (n 0) (n 2) (n 1) effort)
    (r.1.countBlocks (n 0) (n 2) (n 1), r.2)

/-- Write a whole picture whose every tile's check is computed (R178). -/
def State.writePicture (s : State) (m addr : Nat) (g : Geo) (effort : Nat) (pic : List (List Byte)) : State × Bool :=
  s.writeStore m addr g effort pic (g.checks pic)

/-- What a fetch gives. -/
inductive Fetch (α : Type) where
  | ok (v : α)
  | refused
  | ue
  | bad (addr code : Nat)
  deriving DecidableEq, Repr

def Fetch.ofMem : MemRes → Fetch (List Byte)
  | .ok d => .ok d
  | .refused => .refused
  | .ue _ => .ue

/-- Memory read as a fetch. -/
def State.fetchBytes (s : State) (m a n : Nat) : State × Fetch (List Byte) :=
  let r := s.load m a n
  (r.1, Fetch.ofMem r.2)

/-- BAD_BLOCK (R175, R192, R196). -/
def State.badBlock (s : State) (m addr code : Nat) : State := s.emit 0x0601 0 1 (pay [m, addr, code])

/-- The pixels of block (bx, by) of a frame store (R172, R175); an unsound block is counted. -/
def State.readBlock (s : State) (m addr : Nat) (g : Geo) (bx bY : Nat) : State × Fetch (List Byte) :=
  if g.store = 0 then
    if isYuv g.fmt then s.fetchBytes m (addr + bY * g.pitch + bx * rawBlk g.fmt) (rawBlk g.fmt)
    else
      let n := 8 * bppOf g.fmt
      (List.range 4).foldl (fun x r =>
        match x with
        | (s, .ok d) =>
          match s.fetchBytes m (addr + (bY * 4 + r) * g.pitch + bx * n) n with
          | (s, .ok e) => (s, .ok (d ++ e))
          | other => other
        | other => other) (s, .ok [])
  else
    let idx := bY * g.pbw + bx
    match s.fetchBytes m (addr + g.pixLen + idx / 4) 1 with
    | (s, .ok d) =>
      let kind := (byteAt d 0) / 4 ^ (idx % 4) % 4
      let a := addr + idx * rawBlk g.fmt
      if kind = 3 then (s.bump .cmpBadBlocks 0 0 1, .bad a 3)
      else
        let q := readSpan g.fmt g.store kind a
        match s.fetchBytes m q.1 q.2 with
        | (s, .ok e) =>
          match decodeBlock g.fmt kind (e.drop (a - q.1)) with
          | some px => (s, .ok px)
          | none => (s.bump .cmpBadBlocks 0 0 1, .bad a kind)
        | other => other
    | other => other

/-- A block read by master m; an unsound one raises BAD_BLOCK. -/
def State.fetchBlock (s : State) (m addr : Nat) (g : Geo) (bx bY : Nat) : State × Fetch (List Byte) :=
  match s.readBlock m addr g bx bY with
  | (s, .bad a c) => (s.badBlock m a c, .bad a c)
  | other => other

/-- The pixels of block (bx, by) of a raw RGB store that source columns `xs` and rows `ys` take, in their places; the rest is not
read (spec/08 R225). -/
def State.fetchRaw (s : State) (m addr : Nat) (g : Geo) (bx bY : Nat) (xs ys : List Nat) : State × Fetch (List Byte) :=
  let n := bppOf g.fmt
  let mine := xs.filter fun x => x / 8 == bx
  let lo := mine.foldl min (8 * bx + 7)
  let hi := mine.foldl max (8 * bx)
  let zeros (k : Nat) : List Byte := List.replicate (k * n) 0
  (List.range 4).foldl (fun acc r =>
    match acc with
    | (s, .ok d) =>
      if !ys.contains (4 * bY + r) then (s, .ok (d ++ zeros 8))
      else
        match s.fetchBytes m (addr + (4 * bY + r) * g.pitch + lo * n) ((hi + 1 - lo) * n) with
        | (s, .ok e) => (s, .ok (d ++ zeros (lo - 8 * bx) ++ e ++ zeros (8 * bx + 7 - hi)))
        | other => other
    | other => other) (s, .ok [])

/-- A whole picture, block by block; the first error ends it. -/
def State.fetchPicture (s : State) (m addr : Nat) (g : Geo) : State × Fetch (List (List Byte)) :=
  let r : State × Fetch (List (List Byte)) :=
    ((List.range g.bh).flatMap fun y => (List.range g.bw).map fun x => (x, y)).foldl (fun acc q =>
      match acc with
      | (s, .ok bs) =>
        match s.fetchBlock m addr g q.1 q.2 with
        | (s, .ok b) => (s, .ok (bs ++ [b]))
        | (s, .refused) => (s, .refused)
        | (s, .ue) => (s, .ue)
        | (s, .bad a c) => (s, .bad a c)
      | other => other) (s, .ok [])
  match r with
  | (s, .ok bs) => (s, .ok (g.ofBlocks bs))
  | other => other

/-- Rows of a linear raw picture of a given byte pitch. -/
def State.fetchRows (s : State) (m addr stride n len : Nat) : State × Fetch (List (List Byte)) :=
  (List.range n).foldl (fun acc y =>
    match acc with
    | (s, .ok rows) =>
      match s.fetchBytes m (addr + y * stride) len with
      | (s, .ok d) => (s, .ok (rows ++ [d]))
      | (s, .refused) => (s, .refused)
      | (s, .ue) => (s, .ue)
      | (s, .bad a c) => (s, .bad a c)
    | other => other) (s, .ok [])

/-! ### The pool -/

/-- The geometry of a source's pictures. -/
def State.geo (s : State) (n : Nat) : Geo :=
  { w := s.fld .srcSize n 0 0 16, h := s.fld .srcSize n 0 16 16, fmt := s.fld .srcFormat n 0 0 4,
    store := s.fld .srcCfg n 0 22 2 }

def State.srcKind (s : State) (n : Nat) : Nat := s.fld .srcCfg n 0 0 3
def State.srcAttach (s : State) (n : Nat) : Nat := s.fld .srcCfg n 0 8 8
def State.srcBufs (s : State) (n : Nat) : Nat := s.fld .srcCfg n 0 16 5
def State.bufAddr (s : State) (n b : Nat) : Nat := s.pair .srcBufAddrLo .srcBufAddrHi n b
def State.bufState (s : State) (n b : Nat) : Nat := s.fld .srcBufState n b 0 3
def State.shownBy (s : State) (n b : Nat) : Nat := s.fld .srcBufState n b 8 6

/-- Set a buffer's state: 0 FREE, 1 FILLING, 2 READY, 3 SHOWN; SRC_POOL follows. -/
def State.setBufState (s : State) (n b st : Nat) : State :=
  let s := s.setFld .srcBufState n b 0 3 st
  (s.setFld .srcPool n 0 b 1 (b2n (st == 0))).setFld .srcPool n 0 (16 + b) 1 (b2n (st == 3))

/-- The newest buffer (R168). -/
def State.newest (s : State) (n : Nat) : Option Nat :=
  if bit (s.reg .srcState n 0) 3 then some (s.fld .srcState n 0 4 4) else none

/-- The newest buffer stops being newest (R168): FREE unless a head holds it. -/
def State.dropNewest (s : State) (n : Nat) : State :=
  match s.newest n with
  | none => s
  | some b =>
    let s := (s.setFld .srcState n 0 3 1 0).setFld .srcBufState n b 3 1 0
    if s.bufState n b = 2 then s.setBufState n b 0 else s

/-- The writer of a source is absent (R185). -/
def State.writerAbsent (s : State) (n : Nat) : Bool :=
  let a := s.srcAttach n
  match s.srcKind n with
  | 0 | 1 => !(s.portState a == 2 || s.portState a == 3) || bit (s.reg .linkState a 0) 2
  | 2 => (s.bus.hostSt a).underReset
  | 3 => !s.isOn 0x11 n
  | 4 => !s.isOn 0x14 a
  | _ => false

/-- Age of a capture time (spec/00 R6). -/
def State.age (s : State) (cap : Word) : Int := sdiff s.now cap

/-- The source's state by R184, with the release of a newest buffer aged 2,000 ms and the event at a change. -/
def State.evalSource (s : State) (n : Nat) : State :=
  let old := s.fld .srcState n 0 0 2
  let age := s.age (s.reg .srcNewestTime n 0)
  let gone := !s.isOn 0x10 n || (s.newest n).isNone || s.writerAbsent n
  let tooOld := decide (2000000000 ≤ age)
  let s := if !gone && tooOld then s.dropNewest n else s
  let st :=
    if gone || tooOld then 0
    else if bit (s.reg .srcState n 0) 2 || decide ((s.fld .srcLimit n 0 0 11 : Int) * 1000000 < age) then 3
    else if bit (s.reg .srcBufState n (s.fld .srcState n 0 4 4)) 4 then 2
    else 1
  if st = old then s
  else
    (s.setFld .srcState n 0 0 2 st).emit 0x1001 n (if st = 0 ∨ st = 3 then 1 else 0)
      (pay [old, st, s.fld .srcState n 0 2 1, (s.reg .srcNewestTime n 0).toNat])

/-- A buffer moves to another state, and the source's state is evaluated (R168, R184). -/
def State.moveBuf (s : State) (n b st : Nat) : State := (s.setBufState n b st).evalSource n

/-- The buffer a writer takes (R168): never READY since ON first, in index order, then the one READY longest ago. -/
def State.freeBuf (s : State) (n : Nat) (ok : Nat → Bool) : Option Nat :=
  let free (b : Nat) : Bool := s.bufState n b == 0 && ok b
  match (List.range (s.srcBufs n)).find? fun b => free b && !(s.src n).order.contains b with
  | some b => some b
  | none => (s.src n).order.find? fun b => decide (b < s.srcBufs n) && free b

/-- A writer finds no FREE buffer and drops `k` pictures: none where it only waits (R169, R196). -/
def State.poolNone (s : State) (n k : Nat) : State :=
  let s := s.bump .srcPoolDrop n 0 k
  let x := s.src n
  let due := match x.emptyTick with | none => true | some t => decide (t + tickS ≤ s.ticks)
  if due then
    (s.setSrc n { x with emptyTick := some s.ticks, drops := 0 }).emit 0x1004 n 1 (pay [s.srcKind n, x.drops + k])
  else s.setSrc n { x with drops := x.drops + k }

/-- A writer drops its picture for want of a FREE buffer (R169). -/
def State.poolEmpty (s : State) (n : Nat) : State := s.poolNone n 1

/-! ### Stamps at ingest (R177 to R183) -/

/-- A completed picture as the checks see it. `given` is the writer's content check where one is compared. -/
structure Pict where
  alive : Nat
  cap : Word
  check : Nat
  given : Option Nat
  degraded : Bool
  fromHost : Bool
  fault : Bool
  incomplete : Bool
  since : Nat
  doubts : Nat
  deriving DecidableEq, Repr

/-- The first check of R179 that fails; 0 when all pass. -/
def State.ingestCheck (s : State) (n : Nat) (p : Pict) : Nat :=
  let last := (s.src n).last
  let adv := match last with
    | none => 1
    | some (a, _, _) => aliveAhead a p.alive
  let later := match last with
    | none => true
    | some (_, c, _) => decide (0 < sdiff p.cap c)
  if p.incomplete ∨ p.since + s.fld .srcXFillMs n 0 0 11 * tickMs < s.ticks then 1
  else if p.fault then 2
  else if p.alive = 0 then 3
  else if adv = 0 ∨ 32767 < adv then 4
  else if 1000000 < sdiff p.cap s.now then 5
  else if !later then 6
  else if 2000000000 ≤ s.age p.cap then 7
  else match p.given with
    | some c => if c = p.check then 0 else 8
    | none => 0

/-- A reason marked as doubt in R179. -/
def cullDoubt (reason : Nat) : Bool := reason != 1 && reason != 7

/-- A picture is culled (R168, R179, R181, R182, R196). -/
def State.cull (s : State) (n b reason alive : Nat) (cap : Word) : State :=
  let s := (s.bump .srcCulletCount n 0 1).setFld .srcState n 0 8 8 reason
  let s := s.setBufState n b 0
  let x := s.src n
  let win := match x.win with
    | none => { opened := s.ticks, time := s.now, reason := reason, alive := alive, cap := cap, count := 1 }
    | some w => { w with count := w.count + 1 }
  let s := s.setSrc n { x with win := some win, doubts := x.doubts + b2n (cullDoubt reason) }
  let s := if cullDoubt reason then s.setFld .srcState n 0 2 1 1 else s
  s.evalSource n

/-- A picture is accepted: its buffer becomes READY and newest, with its stamps and a new tag (R168, R171, R180 to
R183; the INGEST record of spec/16 R500). -/
def State.accept (s : State) (n b : Nat) (p : Pict) : State :=
  let x := s.src n
  let lost := match x.last with
    | none => 0
    | some (a, _, _) => aliveAhead a p.alive - 1
  let s := if lost = 0 then s else (s.bump .srcLostCount n 0 lost).emit 0x1003 n 0 (pay [lost, p.alive])
  let same := match x.last with
    | some (_, _, c) => c.toNat == p.check
    | none => false
  let s := s.setReg .srcSameRun n 0 (if same then s.reg .srcSameRun n 0 + 1 else 1)
  let s := if s.newest n = some b then s else s.dropNewest n
  let gen0 := (assocGet x.gens b).getD 0
  let gen := if gen0 ≥ 2097151 then 1 else gen0 + 1
  let tag := n % 128 + b % 16 * 128 + gen * 2048
  let s := s.setBufState n b 2
  let s := (s.setFld .srcBufState n b 3 1 1).setFld .srcBufState n b 4 1 (b2n p.degraded)
  let s := s.setFld .srcBufState n b 5 1 (b2n p.fromHost)
  let s := (s.setReg .srcBufTag n b (w32 tag)).setReg .srcBufTime n b p.cap
  let s := (s.setReg .srcBufAlive n b (w32 p.alive)).setReg .srcBufCheck n b (w32 p.check)
  let s := (s.setFld .srcState n 0 4 4 b).setFld .srcState n 0 3 1 1
  let s := s.setReg .srcNewestTime n 0 p.cap
  let s := if p.doubts = x.doubts then s.setFld .srcState n 0 2 1 0 else s
  let s := s.setSrc n { s.src n with order := x.order.filter (fun y => y != b) ++ [b], gens := assocSet x.gens b gen,
                                     readyAt := assocSet x.readyAt b s.now,
                                     last := some (p.alive, p.cap, w32 p.check) }
  let s := s.journal 6 0x10 n (le 1 n ++ le 1 b ++ le 2 p.alive ++ le 4 p.cap.toNat ++ le 4 tag ++ le 4 p.check ++
    le 1 (b2n p.degraded + 2 * b2n p.fromHost) ++ le 3 0)
  s.evalSource n

/-- A picture completes in buffer b: the checks of R179 decide. Answers the cull reason, 0 when accepted. -/
def State.finish (s : State) (n b : Nat) (p : Pict) : State × Nat :=
  let r := s.ingestCheck n p
  if r = 0 then (s.accept n b p, 0) else (s.cull n b r p.alive p.cap, r)

/-! ### Heads and buffers -/

/-- A head latches a buffer (R168). -/
def State.holdBuf (s : State) (n b : Nat) : State :=
  ((s.setBufState n b 3).setFld .srcBufState n b 8 6 (s.shownBy n b + 1)).evalSource n

/-- A head that held a buffer latches another or stops (R168). -/
def State.releaseBuf (s : State) (n b : Nat) : State :=
  let k := s.shownBy n b - 1
  let s := s.setFld .srcBufState n b 8 6 k
  if k = 0 then s.moveBuf n b (if s.newest n = some b then 2 else 0) else s.evalSource n

/-- The buffer a head may latch at instant `t` (R170, R184): the newest, unless it became READY later or is 2,000 ms old. -/
def State.latchable (s : State) (n : Nat) (t : Word) : Option Nat :=
  match s.newest n with
  | none => none
  | some b =>
    match assocGet (s.src n).readyAt b with
    | some r => if 0 < sdiff r t ∨ 2000000000 ≤ sdiff t (s.reg .srcBufTime n b) ∨ 2000000000 ≤ s.age (s.reg .srcBufTime n b) then none else some b
    | none => none

/-- The choice of R249, taken once for each source at each latch instant. -/
def State.choose (s : State) (n : Nat) (t : Word) : State × Option Nat :=
  match (s.src n).choice with
  | some (t', c) => if t' = t then (s, c) else
      (s.setSrc n { s.src n with choice := some (t, s.latchable n t) }, s.latchable n t)
  | none => (s.setSrc n { s.src n with choice := some (t, s.latchable n t) }, s.latchable n t)

/-! ### Life of a source -/

/-- The master that writes a source's buffers (the kinds table). -/
def State.srcMaster (s : State) (n : Nat) : Nat :=
  match s.srcKind n with
  | 0 | 1 => 84 + s.srcAttach n
  | 2 => s.srcAttach n
  | 4 => 36 + s.srcAttach n
  | _ => 148

/-- A format the kind may use (R195). -/
def formatFits (kind fmt : Nat) : Bool := if kind = 3 then fmt == 6 || fmt == 7 else decide (fmt ≤ 5)

/-- The checks STARTING makes (R195): the reason of the first that fails. -/
def State.sourceCheck (s : State) (n : Nat) : Option Nat :=
  match s.plan.source n with
  | none => some 1
  | some e =>
    let g := s.geo n
    if !formatFits e.kind g.fmt then some 1
    else if g.w = 0 ∨ g.h = 0 ∨ e.maxWidth < g.w ∨ e.maxHeight < g.h then some 2
    else
      let placed (b : Nat) : Bool :=
        let a := s.bufAddr n b
        let inPart := match s.plan.span e.partition with
          | some q => decide (q.1 ≤ a ∧ a + g.footprint ≤ q.1 + q.2)
          | none => false
        let ok := match e.kind with
          | 3 => true
          | 2 => s.bus.passes e.attach a g.footprint false true && (e.store == 0 || s.bus.passes 148 a g.footprint true true)
          | _ => s.bus.passes (s.srcMaster n) a g.footprint false true
        inPart && ok
      if (List.range e.buffers).all placed then none else some 3

/-- A source enters ON: every buffer FREE, no newest, no doubt (R168, R179, R194), and SRC_SAME_RUN 0, the first picture being compared with
none (R183; DESIGN CHOICE, log 75). -/
def State.sourceOn (s : State) (n : Nat) : State :=
  let s := forEach (List.range (s.srcBufs n)) (fun b s =>
    if s.bufState n b = 3 then s else s.setBufState n b 0) s
  let s := s.setFld .srcState n 0 2 2 0
  let s := s.setReg .srcSameRun n 0 0
  let x := s.src n
  let s := s.setSrc n { SrcSt.init with gens := x.gens, testAt := s.ticks, win := x.win, emptyTick := x.emptyTick, drops := x.drops,
                                        doubts := x.doubts }
  s.evalSource n

def State.wb (s : State) (n : Nat) : Option WbSt := tabGet none s.wbs n
def State.setWb (s : State) (n : Nat) (x : Option WbSt) : State := { s with wbs := tabSet none s.wbs n x }

/-- Fence signals received behind data that has reached device memory by now, or never will, are applied (spec/13 R419) (DESIGN CHOICE, log 78). -/
def State.signalsDue (s : State) (n : Nat) : State :=
  let x := s.src n
  if x.fill.isSome ∨ x.signals.isEmpty then s
  else forEach x.signals (fun q s => s.onBus fun b => b.fenceSignal q.1 q.2) (s.setSrc n { x with signals := [] })

/-- The fence signals among packets that wait. -/
def heldSignals (l : List Pkt) : List (Nat × Nat) :=
  (l.filter fun pk => pk.typ == 0x09).map fun pk => (leAt pk.payload 0 2, leAt pk.payload 8 8)

/-- A source leaves ON (R168): fills, a write-back's among them, are abandoned, stamps and tags scrubbed; a SHOWN buffer stays until
released. -/
def State.sourceOff (s : State) (n : Nat) : State :=
  let s := forEach (List.range (s.srcBufs n)) (fun b s =>
    if s.bufState n b = 3 then s.setFld .srcBufState n b 3 1 0
    else
      let s := (s.setBufState n b 0).setFld .srcBufState n b 3 3 0
      let s := (s.setReg .srcBufTag n b 0).setReg .srcBufTime n b 0
      (s.setReg .srcBufAlive n b 0).setReg .srcBufCheck n b 0) s
  let s := s.setFld .srcState n 0 2 2 0
  let x := s.src n
  let s := (s.setWb n none).setSrc n { SrcSt.init with gens := x.gens, win := x.win, doubts := x.doubts, emptyTick := x.emptyTick,
                                                       drops := x.drops, signals := x.signals ++ heldSignals x.waiting }
  (s.signalsDue n).evalSource n

/-! ### Time-driven rows -/

/-- The writer abandons the fill in progress, or it times out: culled as INCOMPLETE (DEDUCED, log 59). -/
def State.abandon (s : State) (n : Nat) : State :=
  match (s.src n).fill with
  | none => s
  | some f => ((s.setSrc n { s.src n with fill := none }).cull n f.buf 1 f.alive f.cap).signalsDue n

/-- A fill exceeds SRC_X_FILL_MS (R179). -/
def State.fillTimeout (s : State) (n : Nat) : State :=
  match (s.src n).fill with
  | none => s
  | some f => if f.since + s.fld .srcXFillMs n 0 0 11 * tickMs < s.ticks then s.abandon n else s

/-- SRC_CULL: the cull window of a source closes (R196). -/
def State.srcCull (s : State) (n : Nat) : State :=
  match (s.src n).win with
  | none => s
  | some w =>
    if w.opened + tickMs ≤ s.ticks then
      (s.setSrc n { s.src n with win := none }).emitAt w.time none 0x1002 n 1 (pay [w.reason, w.alive, w.cap.toNat, w.count])
    else s

/-- Whether a write of the engine for the picture now written went unacknowledged (spec/01 R13); that is told once (DEDUCED, log 65). -/
def State.engineFault (s : State) (n : Nat) : State × Bool :=
  (s.setSrc n { s.src n with engFault := false }, (s.src n).engFault)

/-- TEST_PATTERN_REGEN (R169, R194): the engine regenerates the pattern into a FREE buffer as master COMPRESS. -/
def State.testRegen (s : State) (n : Nat) : State :=
  let x := s.src n
  if s.srcKind n ≠ 5 ∨ !s.isOn 0x10 n ∨ s.ticks < x.testAt then s
  else
    let t := s.now
    let k := x.testN
    let s := s.setSrc n { x with testN := k + 1, testAt := x.testAt + s.fld .srcTest n 0 16 10 * tickMs }
    match s.freeBuf n (fun _ => true) with
    | none => s.poolEmpty n
    | some b =>
      let g := s.geo n
      let pic := testPicture g (s.fld .srcTest n 0 0 4) (s.fld .srcTestColour n 0 0 24) k
      match s.writePicture 148 (s.bufAddr n b) g (s.fld .cmpXEffort 0 0 0 2) pic with
      | (s, ok) =>
        let (s, late) := s.engineFault n
        (s.finish n b { alive := k % 65535 + 1, cap := t, check := contentCheck (g.checks pic), given := none, degraded := false,
                        fromHost := false, fault := late || !ok, incomplete := false, since := s.ticks, doubts := (s.src n).doubts }).1

/-! ### Host surfaces: SUBMIT (R187, R188) -/

/-- A submitted picture goes to the checks of R179. -/
def State.submitEnd (s : State) (e : FEntry) (check : Nat) (fromHost fault : Bool) : State × Option (Nat × Nat) :=
  let n := e.inst
  let flags := e.arg 33 1
  match s.finish n (e.arg 32 1)
      { alive := e.arg 34 2, cap := w32 (e.arg 36 4), check := check,
        given := if flags.testBit 1 ∧ !fromHost then some (e.arg 40 4) else none,
        degraded := flags.testBit 2, fromHost := fromHost, fault := fault, incomplete := false,
        since := s.ticks, doubts := (s.src n).doubts } with
  | (s, 0) => done s stOk
  | (s, r) => done s stFailed r

/-- A picture that stands in its buffer (R188): with VERIFY its check is computed, and the check array written. -/
def State.submitHere (s : State) (e : FEntry) : State × Option (Nat × Nat) :=
  let g := s.geo e.inst
  let addr := s.bufAddr e.inst (e.arg 32 1)
  if !(e.arg 33 1).testBit 0 then s.submitEnd e (e.arg 40 4) true false
  else
    match s.fetchRows 148 addr g.pitch g.rows g.rowLen with
    | (s, .ok pic) =>
      let w := s.writeAll 148 (checkWrites g addr (g.checks pic) 0 0 0 0)
      w.1.submitEnd e (contentCheck (g.checks pic)) false (!w.2)
    | (s, _) => s.submitEnd e 0 false true

/-- A linear picture that is compressed into its buffer (R188). -/
def State.submitFrom (s : State) (e : FEntry) : State × Option (Nat × Nat) :=
  let g := s.geo e.inst
  match s.fetchRows 148 (e.arg 44 8) (e.arg 52 2 * 64) g.rows g.rowLen with
  | (s, .ok pic) =>
    let w := s.writePicture 148 (s.bufAddr e.inst (e.arg 32 1)) g (s.fld .cmpXEffort 0 0 0 2) pic
    let q := w.1.engineFault e.inst
    q.1.submitEnd e (contentCheck (g.checks pic)) false (q.2 || !w.2)
  | (s, .ue) => done s stEcc
  | (s, _) => done s stAccess

/-- The argument rules of SUBMIT. -/
def State.submitArgs (s : State) (e : FEntry) : Bool :=
  let g := s.geo e.inst
  let flags := e.arg 33 1
  decide (e.arg 32 1 < s.srcBufs e.inst) && decide (flags < 8) && e.zeroFrom 54 56 &&
    (if g.store = 0 then (flags.testBit 0 || flags.testBit 1) && e.arg 44 8 == 0 && e.arg 52 2 == 0
     else decide (g.rowLen ≤ e.arg 52 2 * 64))

/-- SUBMIT. -/
def submit : Perf := fun _ _ e s =>
  checked 0x10 (e.object == 0xFFFF) true false e s fun s =>
    if s.srcKind e.inst ≠ 2 then done s stBadOpcode
    else if !s.submitArgs e then done s stBadArgument
    else if s.bufState e.inst (e.arg 32 1) ≠ 0 then done (s.poolNone e.inst 0) stBusy
    else if (s.geo e.inst).store = 0 then s.submitHere e
    else s.submitFrom e

/-! ### COMPRESS and DECOMPRESS (R190 to R193) -/

/-- The geometry of a COMPRESS or DECOMPRESS command; its data addresses are those of the ring's host (R193). -/
def cmpGeo (e : FEntry) : Geo :=
  { w := e.arg 48 2, h := e.arg 50 2, fmt := e.arg 54 1, store := if (e.arg 55 1).testBit 2 then 1 else 2 }

/-- The argument ranges of the two commands (DEDUCED, log 24). -/
def cmpArgs (e : FEntry) (dstStore : Bool) : Bool :=
  let g := cmpGeo e
  decide (8 ≤ g.w ∧ g.w ≤ 8192 ∧ 4 ≤ g.h ∧ g.h ≤ 8192 ∧ g.fmt ≤ 7 ∧ e.arg 55 1 < 8) &&
  (!dstStore || e.arg 40 8 % 4096 == 0)

/-- COMPRESS (DEDUCED, log 24). -/
def compress : Perf := fun host _ e s =>
  checked 0x06 (e.object == 0xFFFF) (cmpArgs e true) false e s fun s =>
    let g := cmpGeo e
    let effort := e.arg 55 1 % 4
    match s.fetchRows host (e.arg 32 8) (e.arg 52 2 * 64) g.rows g.rowLen with
    | (s, .ok pic) =>
      let coded := g.coded effort pic
      let rawN := (coded.filter fun c => c.2.1 == 1).length
      if s.fld .cmpXNoGainPct 0 0 0 7 * coded.length ≤ rawN * 100 then done (s.bump .cmpNoGain 0 0 1) stNoGain
      else
        match s.writePicture host (e.arg 40 8) g effort pic with
        | (s, true) => done s stOk
        | (s, false) => done (s.setFld .cmpStatus 0 0 1 1 1) stAccess
    | (s, .ue) => done s stEcc
    | (s, _) => done s stAccess

/-- One block of DECOMPRESS: an unsound block is all-ones, and BAD_BLOCK tells of the first (R192). -/
def State.expand (s : State) (host addr : Nat) (g : Geo) (x y : Nat) (told : Bool) : State × Fetch (List Byte) :=
  if told then s.readBlock host addr g x y else s.fetchBlock host addr g x y

/-- DECOMPRESS (DEDUCED, log 24). -/
def decompress : Perf := fun host _ e s =>
  checked 0x06 (e.object == 0xFFFF) (cmpArgs e false) false e s fun s =>
    let g := cmpGeo e
    let src := e.arg 32 8
    let places := (List.range g.bh).flatMap fun y => (List.range g.bw).map fun x => (x, y)
    let r : State × List (List Byte) × Nat × Bool := places.foldl (fun acc q =>
      match acc with
      | (s, bs, err, bad) =>
        if err ≠ 0 then acc
        else
          match s.expand host src g q.1 q.2 bad with
          | (s, .ok b) => (s, bs ++ [b], 0, bad)
          | (s, .refused) => (s, bs, stAccess, bad)
          | (s, .ue) => (s, bs, stEcc, bad)
          | (s, .bad _ _) => (s, bs ++ [List.replicate (rawBlk g.fmt) 0xFF], 0, true)) (s, [], 0, false)
    match r with
    | (s, bs, err, bad) =>
      if err ≠ 0 then done s err
      else
        let pic := g.ofBlocks bs
        match s.writeAll host (pic.mapIdx fun y row => (e.arg 40 8 + y * (e.arg 52 2 * 64), row)) with
        | (s, false) => done s stAccess
        | (s, true) =>
          if bad then done s stFailed 1
          else
            match s.fetchBytes host (src + g.trailerOff) 64 with
            | (s, .ok t) => if leAt t 12 4 = contentCheck (g.checks pic) then done s stOk else done s stFailed 2
            | (s, .ue) => done s stEcc
            | (s, _) => done s stAccess

/-! ### In-ports (spec/13 R399 to R409, R417, R418) -/

/-- The source an in-port carries (R397). -/
def State.portSource (s : State) (p : Nat) : Option SrcEnt :=
  s.plan.sources.find? fun e => (e.kind == 0 || e.kind == 1) && e.attach == p

/-- What is left of an item whose packet failed: it is incomplete (R398, R399, R417). -/
def State.breakFill (s : State) (n : Nat) : State :=
  match (s.src n).fill with
  | none => s
  | some f => s.setSrc n { s.src n with fill := some { f with broken := true } }

/-- A packet of the source's item failed: the item is incomplete, be it open or waiting in the receive buffer (R398, R417). Type 0xFF stands
there for a packet that failed. -/
def State.itemFails (s : State) (n alive : Nat) : State :=
  let x := s.src n
  if x.waiting.isEmpty then
    match x.fill with
    | some f => if f.alive = alive then s.breakFill n else s
    | none => s
  else s.setSrc n { x with waiting := x.waiting ++ [⟨0xFF, 0, 1, alive, 0, []⟩] }

/-- A picture packet of an in-port arrives: the packet checks of every port (R398, R433), credits, and the reserved flags. A good packet of
another type, or of a port without such a source, is another row's. -/
def State.picRx (s : State) (p typ kind : Nat) (sync : Bool) (raw : List Byte) : State × Option (Nat × Pkt) :=
  match s.receive p sync raw, s.portSource p with
  | (s, .badPayload _ alive), some e => (if e.kind = kind then s.itemFails e.source alive else s, none)
  | (s, .good pk), some e =>
    if pk.typ ≠ typ ∨ e.kind ≠ kind then (s, none)
    else
      let (s, ok) := s.creditTake p pk.payload.length
      if !ok then (s.itemFails e.source pk.alive, none)
      else if !s.isOn 0x10 e.source ∨ !s.isOn 0x20 p then (s, none)
      else (s, some (e.source, pk))
  | (s, _), _ => (s, none)

/-- A packet that repeats a line or tile of the item in progress is cullet (R399). -/
def State.repeatPacket (s : State) (p : Nat) (pk : Pkt) : State := s.linkCull p pk.stream pk.alive

/-- A packet of another item than the one in progress that starts none is cullet, and the item in progress is incomplete (R399). -/
def State.strayPacket (s : State) (p n : Nat) (pk : Pkt) : State :=
  if (s.src n).skipping = some pk.alive then s
  else (s.breakFill n).linkCull p pk.stream pk.alive

/-- A new item opens into a FREE buffer; a raster frame that finds none is discarded whole (R169) (DEDUCED, log 25). -/
def State.openFill (s : State) (n : Nat) (pk : Pkt) (broken : Bool) : State :=
  match s.freeBuf n (fun _ => true) with
  | none =>
    let s := s.setSrc n { s.src n with fill := none, skipping := some pk.alive }
    s.poolEmpty n
  | some b =>
    let s := s.moveBuf n b 1
    let f : FillSt := { buf := b, since := s.ticks, doubts := (s.src n).doubts, alive := pk.alive, cap := pk.stamp, degraded := pk.flags.testBit 0,
                        fault := (s.src n).waitBad.contains pk.alive, broken := broken, parts := [] }
    s.setSrc n { s.src n with skipping := none, fill := some f, waitBad := (s.src n).waitBad.filter fun a => a != pk.alive }

/-- A fence signal takes its place behind the data received before it: at once where all of that is in device memory, else when the item
in progress ends (R419). The lines of a raw raster store reach memory as they come. -/
def State.signalTake (s : State) (n fence value : Nat) : State :=
  let x := s.src n
  if x.fill.isNone ∨ (s.srcKind n = 0 ∧ (s.geo n).store = 0) then s.onBus fun b => b.fenceSignal fence value
  else s.setSrc n { x with signals := x.signals ++ [(fence, value)] }

/-- The first packet of an item: one whose ALIVE does not advance is discarded whole (R399). -/
def State.openItem (s : State) (p n : Nat) (pk : Pkt) (broken : Bool) : State :=
  match s.aliveCheck p 1 pk.alive with
  | (s, true) => (s.abandon n).openFill n pk broken
  | (s, false) =>
    let s := s.breakFill n
    s.setSrc n { s.src n with skipping := some pk.alive }

/-- RASTER_FRAME_START_RX (R399, R402, R407) (DEDUCED, log 25). -/
def State.rasterStart (s : State) (p : Nat) (sync : Bool) (raw : List Byte) : State :=
  match s.picRx p 0x02 0 sync raw with
  | (s, none) => s
  | (s, some (n, pk)) =>
    let b := pk.payload
    if b.length ≠ 16 ∨ 4 ≤ byteAt b 10 then s.rxUnknown p
    else
      let s := s.abandon n
      let g := s.geo n
      (s.openItem p n pk (!(leAt b 4 2 == 0 && leAt b 6 2 == g.w && leAt b 8 2 == g.h && byteAt b 11 == g.fmt && leAt b 12 4 == 0))).signalsDue n

/-- RASTER_LINE_RX (R400, R407): in a raw store the pixels reach memory at once. -/
def State.rasterLine (s : State) (p : Nat) (sync : Bool) (raw : List Byte) : State :=
  match s.picRx p 0x01 0 sync raw with
  | (s, none) => s
  | (s, some (n, pk)) =>
    let b := pk.payload
    let g := s.geo n
    let line := leAt b 0 2
    let x0 := leAt b 2 2
    let count := leAt b 4 2
    if b.length < 8 ∨ leAt b 6 2 ≠ 0 then s.rxUnknown p
    else
      match (s.src n).fill with
      | none => s.strayPacket p n pk
      | some f =>
        if f.alive ≠ pk.alive then s.strayPacket p n pk
        else if f.parts.any fun q => q.1 == line && q.2.1 == x0 then s.repeatPacket p pk
        else if g.h ≤ line ∨ g.w < x0 + count ∨ b.length ≠ 8 + count * bppOf g.fmt then s.breakFill n
        else
          let data := b.drop 8
          let (s, ok) := if g.store = 0 then
              s.writeAll (84 + p) [(s.bufAddr n f.buf + line * g.pitch + x0 * bppOf g.fmt, data)] else (s, true)
          let f := { f with parts := f.parts ++ [(line, x0, data)], degraded := f.degraded || pk.flags.testBit 0, fault := f.fault || !ok }
          s.setSrc n { s.src n with fill := some f }

/-- A line put together from its segments in the order sent; `none` when pixels are missing. -/
def lineOf (parts : List (Nat × Nat × List Byte)) (bpp w y : Nat) : Option (List Byte) :=
  let r := (parts.filter fun q => q.1 == y).foldl (fun acc q =>
    match acc with
    | some d => if d.length = q.2.1 * bpp then some (d ++ q.2.2) else none
    | none => none) (some [])
  match r with
  | some d => if d.length = w * bpp then some d else none
  | none => none

/-- A picture of an in-port completes: written where the lines were not yet, then the checks (R173, R178, R179). `kept` gives the
check array entry of a tile that was copied (R177) (DEDUCED, log 25). -/
def State.closeFill (s : State) (n p : Nat) (f : FillSt) (pic : Option (List (List Byte))) (kept : List (Option Nat)) (given : Nat)
    (readFault : Bool) : State :=
  let s := s.setSrc n { s.src n with fill := none }
  let g := s.geo n
  let mk (check : Nat) (fault inc : Bool) : Pict :=
    { alive := f.alive, cap := f.cap, check := check, given := some given, degraded := f.degraded, fromHost := false,
      fault := fault, incomplete := inc, since := f.since, doubts := f.doubts }
  match pic with
  | none => (s.finish n f.buf (mk 0 f.fault true)).1
  | some rows =>
    if f.broken then (s.finish n f.buf (mk 0 f.fault true)).1
    else
      let checks := (g.checks rows).mapIdx fun t c => (kept.getD t none).getD c
      let (s, ok) := s.writeStore (84 + p) (s.bufAddr n f.buf) g 1 rows checks
      (s.finish n f.buf (mk (contentCheck checks) (f.fault || !ok || readFault) false)).1

/-- RASTER_FRAME_END_RX (R403, R407). -/
def State.rasterEnd (s : State) (p : Nat) (sync : Bool) (raw : List Byte) : State :=
  match s.picRx p 0x03 0 sync raw with
  | (s, none) => s
  | (s, some (n, pk)) =>
    let b := pk.payload
    if b.length < 16 ∨ b.length ≠ 16 + 4 * leAt b 12 2 ∨ leAt b 14 2 ≠ 0 ∨ leAt b 4 4 ≠ 0 then s.rxUnknown p
    else
      match (s.src n).fill with
      | none => s.strayPacket p n pk
      | some f =>
        if f.alive ≠ pk.alive then s.strayPacket p n pk
        else
          let f := { f with degraded := f.degraded || pk.flags.testBit 0 }
          let g := s.geo n
          let rows := (List.range g.h).map fun y => lineOf f.parts (bppOf g.fmt) g.w y
          (s.closeFill n p f (if rows.all Option.isSome then some (rows.map fun r => r.getD []) else none) [] (leAt b 8 4) false).signalsDue n

/-- A tile of a surface update (R408): the first packet of an update opens it. -/
def State.tileTake (s : State) (p n : Nat) (pk : Pkt) : State :=
    let b := pk.payload
    let g := s.geo n
    let tx := leAt b 0 2
    let ty := leAt b 2 2
    let row0 := byteAt b 5
    let rows := byteAt b 6
    let w := min 64 (g.w - 64 * tx)
    let h := min 64 (g.h - 64 * ty)
    if b.length < 12 ∨ byteAt b 7 ≠ 0 then s.rxUnknown p
    else
      let s := match (s.src n).fill with
        | none => if (s.src n).skipping = some pk.alive then s else s.openItem p n pk false
        | some f => if f.alive = pk.alive ∨ (s.src n).skipping = some pk.alive then s else s.openItem p n pk false
      match (s.src n).fill with
      | none => s
      | some f =>
        if f.alive ≠ pk.alive then s
        else
        let tile := ty * g.tw + tx
        let repeats := f.parts.any fun q => q.1 == tile && q.2.1 == row0
        if repeats then s.repeatPacket p pk
        else if g.tw ≤ tx ∨ g.th ≤ ty ∨ byteAt b 4 ≠ g.fmt ∨ h < row0 + rows ∨ b.length ≠ 12 + rows * w * bppOf g.fmt then s.breakFill n
        else
          let f := { f with parts := f.parts ++ [(tile, row0, b.drop 12)], degraded := f.degraded || pk.flags.testBit 0 }
          s.setSrc n { s.src n with fill := some f }

/-- Row `r` of a carried tile. -/
def tileLine (parts : List (Nat × Nat × List Byte)) (tile r len : Nat) : Option (List Byte) :=
  (parts.find? fun q => q.1 == tile && decide (q.2.1 ≤ r) && decide ((r - q.2.1 + 1) * len ≤ q.2.2.length)).map
    fun q => slice q.2.2 ((r - q.2.1) * len) len

/-- The picture of a surface update over its base: carried tiles replace those of the newest buffer (R177); `none` when a
carried tile lacks rows. -/
def Geo.update (g : Geo) (base : List (List Byte)) (parts : List (Nat × Nat × List Byte)) : Option (List (List Byte)) :=
  let rows := (List.range g.h).map fun y =>
    let segs := (List.range g.tw).map fun tx =>
      let tile := y / 64 * g.tw + tx
      let len := min 64 (g.w - 64 * tx) * bppOf g.fmt
      if parts.any fun q => q.1 == tile then tileLine parts tile (y % 64) len
      else some (g.tileRow (base.getD y []) tx)
    if segs.all Option.isSome then some (segs.flatMap fun x => x.getD []) else none
  if rows.all Option.isSome then some (rows.map fun r => r.getD []) else none

/-- The end of a surface update (R177, R409): tiles it does not carry are copied from the newest buffer with their check array
entries (DEDUCED, log 25). -/
def State.damageTake (s : State) (p n : Nat) (pk : Pkt) : State :=
    let b := pk.payload
    if b.length ≠ 16 ∨ leAt b 12 4 ≠ 0 then s.rxUnknown p
    else
      let s := match (s.src n).fill with
        | none => if (s.src n).skipping = some pk.alive then s else s.openItem p n pk false
        | some f => if f.alive = pk.alive ∨ (s.src n).skipping = some pk.alive then s else s.openItem p n pk false
      match (s.src n).fill with
      | none => s
      | some f =>
        if f.alive ≠ pk.alive then s
        else
        let g := s.geo n
        let f := { f with cap := pk.stamp, degraded := f.degraded || pk.flags.testBit 0 }
        let carried := (List.range g.tiles).filter fun t => f.parts.any fun q => q.1 == t
        let whole := carried.length = g.tiles
        let countOk := leAt b 4 4 = carried.length ∧ leAt b 8 2 = g.w ∧ leAt b 10 2 = g.h
        if !decide countOk then s.closeFill n p f none [] (leAt b 0 4) false
        else if whole then s.closeFill n p f (g.update [] f.parts) [] (leAt b 0 4) false
        else
          match s.newest n with
          | none => s.closeFill n p f none [] (leAt b 0 4) false
          | some old =>
            match s.fetchPicture (84 + p) (s.bufAddr n old) g with
            | (s, .ok base) =>
              match s.fetchBytes (84 + p) (s.bufAddr n old + g.checkOff) (4 * g.tiles) with
              | (s, .ok c) =>
                let kept := (List.range g.tiles).map fun t => if carried.contains t then none else some (leAt c (4 * t) 4)
                s.closeFill n p f (g.update base f.parts) kept (leAt b 0 4) false
              | (s, _) => s.closeFill n p f (g.update base f.parts) [] (leAt b 0 4) true
            | (s, _) => s.closeFill n p f (g.update [] f.parts) [] (leAt b 0 4) true

/-- What a surface in-port received is taken in its order: packets of an update, a packet that failed, a fence signal. -/
def State.surfaceTake (s : State) (p n : Nat) (pk : Pkt) : State :=
  let s := match pk.typ with
    | 0x08 => s.damageTake p n pk
    | 0x09 => s.signalTake n (leAt pk.payload 0 2) (leAt pk.payload 8 8)
    | 0xFF => if (s.src n).fill.map FillSt.alive = some pk.alive then s.breakFill n else s
    | _ => s.tileTake p n pk
  s.signalsDue n

/-- Packets of a surface in-port that wait in its receive buffer are taken once an update is open or a buffer is FREE (R169). -/
def State.drainWaiting : Nat → State → Nat → Nat → State
  | 0, s, _, _ => s
  | fuel + 1, s, p, n =>
    match (s.src n).waiting with
    | [] => s
    | pk :: rest =>
      if (s.src n).fill.isNone ∧ (s.freeBuf n fun _ => true).isNone ∧ pk.typ ≠ 0x09 ∧ pk.typ ≠ 0xFF then s
      else State.drainWaiting fuel ((s.setSrc n { s.src n with waiting := rest }).surfaceTake p n pk) p n

/-- A packet of a surface in-port arrives. With no FREE buffer it waits in the receive buffer, credits being withheld (R169). -/
def State.surfacePkt (s : State) (p n : Nat) (pk : Pkt) : State :=
  let s := State.drainWaiting ((s.src n).waiting.length) s p n
  if !(s.src n).waiting.isEmpty ∨ ((s.src n).fill.isNone ∧ (s.freeBuf n fun _ => true).isNone) then
    let s := if (s.src n).waiting.isEmpty then s.poolNone n 0 else s
    s.setSrc n { s.src n with waiting := (s.src n).waiting ++ [pk] }
  else s.surfaceTake p n pk

/-- FENCE_SIGNAL_RX (R419). -/
def State.fenceSignalRx (s : State) (p : Nat) (sync : Bool) (raw : List Byte) : State :=
  match s.receiveItem p 0x09 sync raw with
  | (s, none) => s
  | (s, some pk) =>
    if pk.payload.length ≠ 16 ∨ 4096 ≤ leAt pk.payload 0 2 ∨ !zeros (slice pk.payload 2 6) then s.rxUnknown p
    else
      match s.portSource p with
      | none => s.onBus fun b => b.fenceSignal (leAt pk.payload 0 2) (leAt pk.payload 8 8)
      | some e =>
        let n := e.source
        let x := s.src n
        if x.waiting.isEmpty then s.signalTake n (leAt pk.payload 0 2) (leAt pk.payload 8 8)
        else s.setSrc n { x with waiting := x.waiting ++ [pk] }

/-- SURFACE_TILE_RX (R408). -/
def State.surfaceTile (s : State) (p : Nat) (sync : Bool) (raw : List Byte) : State :=
  match s.picRx p 0x07 1 sync raw with
  | (s, none) => s
  | (s, some (n, pk)) => s.surfacePkt p n pk

/-- DAMAGE_RX (R177, R409). -/
def State.damage (s : State) (p : Nat) (sync : Bool) (raw : List Byte) : State :=
  match s.picRx p 0x08 1 sync raw with
  | (s, none) => s
  | (s, some (n, pk)) => s.surfacePkt p n pk

/-- CREDIT_SEND (R417, R418): LIMIT lets the whole receive buffer be used once more; for a surface source only while a
buffer is FREE or FILLING, else credits are withheld, which POOL_EMPTY tells (R169, R196). `LINK_STATE.CREDIT_STOP` gives STOP. -/
def State.creditSend (s : State) (p : Nat) : State :=
  match s.portSource p with
  | none => s
  | some e =>
    if s.portState p ≠ 2 then s
    else
      let n := e.source
      let s := if e.kind = 1 then State.drainWaiting ((s.src n).waiting.length) s p n else s
      let open_ := e.kind == 0 || (List.range e.buffers).any fun b => s.bufState n b == 0 || s.bufState n b == 1
      let s := if open_ ∨ !s.isOn 0x10 n then s else s.poolNone n 0
      let limit := if open_ then ((s.link p).used + 1024) % 2 ^ 32 else (s.reg .linkCreditLimit p 0).toNat
      s.sendCredit p limit (bit (s.reg .linkState p 0) 2)

/-- An in-port takes its harmless state: a credit stop, and the item in progress is abandoned (R418, spec/17 R555). -/
def State.creditStop (s : State) (p : Nat) : State :=
  let s := if s.portState p = 2 then s.sendCredit p (s.reg .linkCreditLimit p 0).toNat true else s.setFld .linkState p 0 2 1 1
  match s.portSource p with
  | none => s
  | some e =>
    let n := e.source
    let s := s.setSrc n { s.src n with waiting := [], waitBad := [],
                                       signals := (s.src n).signals ++ heldSignals (s.src n).waiting }
    ((s.abandon n).signalsDue n).evalSource n

/-- The credit stop of an in-port ends (R418): CREDIT with STOP clear. -/
def State.creditResume (s : State) (p : Nat) : State := (s.setFld .linkState p 0 2 1 0).creditSend p

def execSubmit (r k : Nat) (s : State) : Answer := s.fabric fun s => s.runCmd 0x1001 submit r k
def execCompress (r k : Nat) (s : State) : Answer := s.fabric fun s => s.runCmd 0x0601 compress r k
def execDecompress (r k : Nat) (s : State) : Answer := s.fabric fun s => s.runCmd 0x0602 decompress r k
def execSourceStateEval (n : Nat) (s : State) : Answer := s.fabric fun s => s.evalSource n
def execSrcCull (n : Nat) (s : State) : Answer := s.fabric fun s => s.srcCull n
def execTestPatternRegen (n : Nat) (s : State) : Answer := s.fabric fun s => s.testRegen n
def execRasterFrameStartRx (p : Nat) (skew : List Nat) (lines : List (List Bool)) (s : State) : Answer :=
  s.fabric fun s => s.arrives p skew lines fun s sync raw => s.rasterStart p sync raw
def execRasterLineRx (p : Nat) (skew : List Nat) (lines : List (List Bool)) (s : State) : Answer :=
  s.fabric fun s => s.arrives p skew lines fun s sync raw => s.rasterLine p sync raw
def execRasterFrameEndRx (p : Nat) (skew : List Nat) (lines : List (List Bool)) (s : State) : Answer :=
  s.fabric fun s => s.arrives p skew lines fun s sync raw => s.rasterEnd p sync raw
def execSurfaceTileRx (p : Nat) (skew : List Nat) (lines : List (List Bool)) (s : State) : Answer :=
  s.fabric fun s => s.arrives p skew lines fun s sync raw => s.surfaceTile p sync raw
def execDamageRx (p : Nat) (skew : List Nat) (lines : List (List Bool)) (s : State) : Answer :=
  s.fabric fun s => s.arrives p skew lines fun s sync raw => s.damage p sync raw
def execFenceSignalRx (p : Nat) (skew : List Nat) (lines : List (List Bool)) (s : State) : Answer :=
  s.fabric fun s => s.arrives p skew lines fun s sync raw => s.fenceSignalRx p sync raw
def execCreditSend (p : Nat) (s : State) : Answer := s.fabric fun s => s.creditSend p

end Sys2Proof.Machine
end

