-- ==== Sys2Proof/Machine/Decoding.lean ====
section
/-! DEFINITION. Coded video input (spec/07): binding of streams, picture start and end, the decoded picture buffer. -/

namespace Sys2Proof.Machine

def State.dec (s : State) (n : Nat) : DecSt := tabGet DecSt.init s.decs n
def State.setDec (s : State) (n : Nat) (x : DecSt) : State := { s with decs := tabSet DecSt.init s.decs n x }
def State.core (s : State) (c : Nat) : Option CoreSt := tabGet none s.cores c
def State.setCore (s : State) (c : Nat) (x : Option CoreSt) : State := { s with cores := tabSet none s.cores c x }

/-- Capacity of one core in thousands of luma samples per second (R197, R198). -/
def coreKps : Nat := 497664

def State.syncState (s : State) (n : Nat) : Nat := s.fld .decStatus n 0 0 2
def State.boundCore (s : State) (n : Nat) : Nat := s.fld .decStatus n 0 2 5

/-- Capacity a core has left (R198). -/
def State.coreLeft (s : State) (c : Nat) : Nat :=
  coreKps - ((s.plan.streams.filter fun e => s.boundCore e.source == c && s.isOn 0x11 e.source).map StreamEnt.lumaKps).sum

/-- The core a stream binds to (R198): least capacity left that still fits, lowest number among equals. -/
def State.pickCore (s : State) (kps : Nat) : Option Nat :=
  ((List.range 24).filter fun c => s.plan.decMask.testBit c && !s.coreOut.contains c && decide (kps ≤ s.coreLeft c)).foldl (fun best c =>
    match best with
    | none => some c
    | some b => if s.coreLeft c < s.coreLeft b then some c else some b) none

/-- A CODING record (spec/16 R500). -/
def State.codingRec (s : State) (cap inst what core alive tag : Nat) (t : Word) : State :=
  s.journalAt t 0x0C cap inst (le 1 what ++ le 1 core ++ le 2 alive ++ le 4 tag ++ le 4 t.toNat)

/-- DECODE_STREAM_BIND (R198, R210, R219): SRC_FORMAT is looked at whatever the source's state (DEDUCED, log 27). -/
def State.streamBind (s : State) (n : Nat) : State :=
  match s.plan.stream n with
  | none => s
  | some e =>
    let r := s.fld .decRing n 0 0 9
    let fmt := s.fld .srcFormat n 0 0 4
    if s.fnState 0x11 n ≠ 1 ∨ 256 ≤ r then s
    else if s.plan.ringHost r ≠ some e.host then s.onBus fun b => b.startFailed 0x11 n 1
    else if s.bus.ringKind r ≠ 2 then s.onBus fun b => b.startFailed 0x11 n 1
    else if fmt ≠ 6 ∧ fmt ≠ 7 then s.onBus fun b => b.startFailed 0x11 n 3
    else if !s.isOn 2 r ∨ !s.isOn 0x10 n then s
    else
      match s.pickCore e.lumaKps with
      | none => s.onBus fun b => b.startFailed 0x11 n 2
      | some c =>
        let left := s.coreLeft c - e.lumaKps
        let s := s.codingRec 0x11 n 1 c 0 0 s.now
        let s := s.setReg .decStatus n 0 (w32 (c * 4))
        let s := ((s.setReg .decMarks n 0 0).setReg .decFlags n 0 0).setDec n { DecSt.init with secTick := s.ticks }
        let s := (s.onBus fun b => b.enter 0x11 n 2).emit 0x1106 n 0 (pay [c, left])
        s.evalSource n

/-! ### Events and states -/

/-- STREAM_ERROR, at most one per 100 ms (R211, R221). Kinds: 1 syntax, 2 uncovered, 3 discontinuity, 4 read fault. -/
def State.streamError (s : State) (n kind concealed alive tag : Nat) : State :=
  let x := s.dec n
  let due := match x.errTick with | none => true | some t => decide (t + 100 * tickMs ≤ s.ticks)
  if due then
    (s.setDec n { x with errTick := some s.ticks, errs := 0 }).emit 0x1102 n 1 (pay [kind, concealed, alive, tag, x.errs + 1])
  else s.setDec n { x with errs := x.errs + 1 }

/-- REF_MISSING, at most one per 100 ms (R216, R221). -/
def State.refMissing (s : State) (n missed subst : Nat) : State :=
  let x := s.dec n
  let due := match x.refTick with | none => true | some t => decide (t + 100 * tickMs ≤ s.ticks)
  if due then
    (s.setDec n { x with refTick := some s.ticks, refsMissed := 0 }).emit 0x1103 n 1 (pay [missed, subst, x.refsMissed + 1])
  else s.setDec n { x with refsMissed := x.refsMissed + 1 }

def State.setSync (s : State) (n st : Nat) : State := s.setFld .decStatus n 0 0 2 st

/-- DEC_FLAGS.OUTPUT_PENDING follows the pictures. -/
def State.showPending (s : State) (n : Nat) : State :=
  forEach (List.range 16) (fun b s =>
    s.setFld .decFlags n 0 b 1 (b2n ((s.dec n).dpb.any fun d => d.buf == b && d.pending))) s

/-- The mark of a buffer in DEC_MARKS (R207). -/
def State.markOf (s : State) (n b : Nat) : Nat := s.fld .decMarks n 0 (2 * b) 2
def State.setMark (s : State) (n b m : Nat) : State := s.setFld .decMarks n 0 (2 * b) 2 m

/-- The substitute candidate (R217). -/
def State.subst (s : State) (n : Nat) : Option Nat :=
  if bit (s.reg .decFlags n 0) 20 then some (s.fld .decFlags n 0 16 4) else none

/-- A buffer may hold a picture for decoding (R207; the pool part is the caller's). -/
def State.decodable (s : State) (n b : Nat) : Bool :=
  s.markOf n b == 0 && !bit (s.reg .decFlags n 0) b && s.subst n != some b

/-- A picture is output (R208): the checks of R179 run. -/
def State.outputPic (s : State) (n : Nat) (d : DpbEnt) : State :=
  let x := s.dec n
  let s := s.setDec n { x with dpb := x.dpb.map fun e => if e.buf = d.buf then { e with pending := false } else e }
  let s := (s.bump .decPictures n 0 1).bump .decTainted n 0 (b2n d.tainted)
  (s.finish n d.buf { alive := d.alive, cap := d.cap, check := d.check, given := none, degraded := d.tainted, fromHost := false,
                      fault := d.fault, incomplete := false, since := d.since, doubts := d.doubts }).1

/-- The output-pending picture of lowest order count. -/
def nextOut (l : List DpbEnt) : Option DpbEnt :=
  (l.filter fun d => d.pending).foldl (fun best d =>
    match best with
    | none => some d
    | some b => if d.poc < b.poc then some d else some b) none

/-- Pictures are output in order while more than `keep` are pending (R208). -/
def State.bumpOut : Nat → State → Nat → Nat → State
  | 0, s, _, _ => s
  | fuel + 1, s, n, keep =>
    let l := (s.dec n).dpb
    if (l.filter fun d => d.pending).length ≤ keep then s
    else
      match nextOut l with
      | none => s
      | some d => State.bumpOut fuel (s.outputPic n d) n keep

/-- Every output-pending picture is output. -/
def State.flushOut (s : State) (n : Nat) : State := (State.bumpOut 17 s n 0).showPending n

/-- A picture is no longer wanted: neither pending nor marked nor the candidate. -/
def State.prune (s : State) (n : Nat) : State :=
  let x := s.dec n
  s.setDec n { x with dpb := x.dpb.filter fun d => d.pending || s.markOf n d.buf != 0 || s.subst n == some d.buf }

/-- The stream leaves SYNCED and TAINTED: every output-pending picture is output, and no buffer stays the candidate (R210, R217). -/
def State.unsync (s : State) (n st : Nat) : State :=
  (((s.flushOut n).setSync n st).setFld .decFlags n 0 16 5 0).prune n

/-- LEVEL and BIT_DEPTH of the active SPS (R219). -/
def State.showSps (s : State) (n : Nat) (p : SpsInfo) : State := (s.setFld .decStatus n 0 16 8 p.level).setFld .decStatus n 0 24 4 p.depth

/-- Entry to REJECTED (R210). -/
def State.reject (s : State) (n : Nat) (i : AuInfo) (reason tag : Nat) : State :=
  let s := (s.unsync n 3).setFld .decStatus n 0 8 8 reason
  s.emit 0x1104 n 1 (pay [reason, i.sps.profile, i.sps.level, tag])

/-- An entry is discarded: FAILED, which DEC_DISCARDED counts, unless its data could not be read (R205). -/
def State.discard (s : State) (n r k fault reason : Nat) : State :=
  match fault with
  | 0 => (s.bump .decDiscarded n 0 1).complete r k stFailed reason
  | 1 => s.complete r k stAccess 0
  | _ => s.complete r k stEcc 0

/-- END_OF_STREAM or an end of sequence, in SYNCED and TAINTED (R210). -/
def State.endStream (s : State) (n : Nat) : State :=
  if s.syncState n = 1 ∨ s.syncState n = 2 then s.unsync n 0 else s

/-! ### Picture start (R199, R205, R209, R210, R218) -/

/-- The access unit a stream has waiting: the first entry of its ring that no core has taken. -/
def State.waiting (s : State) (n : Nat) : Option FEntry :=
  let r := s.fld .decRing n 0 0 9
  ((s.bus.ringSt r).fetched.filter fun e => e.phase != .done).head?.bind fun e =>
    if e.phase == .ready && (s.chooses || s.tnd.streams.contains (r, e.k)) then some e else none

/-- Streams bound to a core that are ON. -/
def State.streamsOf (s : State) (c : Nat) : List Nat :=
  (s.plan.streams.map StreamEnt.source).filter fun n => s.isOn 0x11 n && s.boundCore n == c

def State.hasBuf (s : State) (n : Nat) : Bool := (s.freeBuf n (s.decodable n)).isSome

/-- The stream a free core serves next: earliest capture time, lowest index among equals (R199). -/
def State.pickStream (s : State) (c : Nat) : Option (Nat × FEntry) :=
  ((s.streamsOf c).filterMap fun n => (s.waiting n).map fun e => (n, e)).foldl (fun best q =>
    if !s.hasBuf q.1 then best
    else
      match best with
      | none => some q
      | some b =>
        let d := sdiff (w32 (q.2.arg 12 4)) (w32 (b.2.arg 12 4))
        if d < 0 ∨ (d = 0 ∧ q.1 < b.1) then some q else some b) none

/-- Streams that wait for a buffer (R209): DEC_WAIT counts each wait once. -/
def State.countWaits (s : State) (c : Nat) : State :=
  forEach (s.streamsOf c) (fun n s =>
    let w := (s.waiting n).isSome && !s.hasBuf n
    let was := bit (s.reg .decStatus n 0) 7
    let s := s.setFld .decStatus n 0 7 1 (b2n w)
    if w && !was then s.bump .decWait n 0 1 else s) s

/-- The entry's own fields are in range (R204). -/
def entryOk (e : FEntry) : Bool :=
  decide (1 ≤ e.arg 8 4 ∧ e.arg 8 4 ≤ 16777216 ∧ byteAt e.data 18 < 4) && byteAt e.data 19 == 0 && e.zeroFrom 24 56

/-- The core takes buffer b for the access unit: FILLING until output (R208, R220) (DEDUCED, log 27). -/
def State.coreTake (s : State) (c n r : Nat) (e : FEntry) (i : AuInfo) (fault : Nat) : State :=
  match s.freeBuf n (s.decodable n) with
  | none => s
  | some b =>
    let s := (s.moveBuf n b 1).onBus fun q => q.setPhase r e.k .running
    let s := s.showSps n i.sps
    let s := if i.irap = 0 then s else s.setDec n { s.dec n with lastNum := none }
    let x : CoreSt := { stream := n, k := e.k, buf := b, alive := e.arg 16 2, cap := w32 (e.arg 12 4), flags := byteAt e.data 18,
                        tag := e.arg 20 4, irap := i.irap, dataFault := fault, since := s.ticks, doubts := (s.src n).doubts,
                        culled := false, hidden := i.rasl && (s.dec n).dropRasl, depth := i.sps.depth, codedW := i.sps.codedW,
                        codedH := i.sps.codedH, concealMax := s.fld .decXConcealMax n 0 0 10 }
    s.setCore c (some x)

/-- Profile, tier and level that a core accepts (R201): H.265 Main and Main 10, Main tier, up to 5.1; H.264 Constrained Baseline,
Main and High, up to 5.1. The numbers are the standards' own (PRESUMED, log 27). -/
def profileOk (codec : Nat) (p : SpsInfo) : Bool :=
  if codec = 0 then (p.profile == 1 || p.profile == 2) && p.tier == 0 && decide (p.level ≤ 153)
  else ((p.profile == 66 && p.constrained) || p.profile == 77 || p.profile == 100) && decide (p.level ≤ 51)

/-- The reason of R205 for which parameter sets are unsupported, the lowest of several; 0 when they are supported (R201 to R203)
(DEDUCED, log 27). -/
def spsReason (e : StreamEnt) (g : Geo) (p : SpsInfo) : Nat :=
  let depthOk := p.chroma == 1 && (p.depth == 8 || (p.depth == 10 && e.codec == 0 && p.profile == 2 && g.fmt == 7))
  let sizeOk := decide (p.codedW ≤ 4096 ∧ p.codedH ≤ 2304 ∧ p.codedW ≤ up64 g.w ∧ p.codedH ≤ up64 g.h) && p.width == g.w &&
    p.height == g.h && p.left == 0 && p.top == 0
  if !profileOk e.codec p || p.flexible then 2
  else if p.field then 3
  else if !depthOk then 4
  else if !sizeOk then 5
  else if e.dpb < p.dpb then 6
  else 0

/-- The reason of R205 for the parameter sets of a stream's access unit. -/
def State.spsReason (s : State) (n : Nat) (p : SpsInfo) : Nat :=
  match s.plan.stream n with
  | some e => Machine.spsReason e (s.geo n) p
  | none => 0

/-- The data starts with a start code (R205). -/
def startCode (d : List Byte) : Bool := leAt d 0 3 == 0x010000 || leAt d 0 4 == 0x01000000

/-- The core reads an access unit as its own master (R206): what the read met (0 nothing, 1 refused, 2 uncorrectable), and the data. -/
def State.readUnit (s : State) (c : Nat) (e : FEntry) : State × Nat × List Byte :=
  match s.load (4 + c) (e.arg 0 8) (e.arg 8 4) with
  | (s, .ok d) => (s, 0, d)
  | (s, .refused) => (s, 1, [])
  | (s, .ue d) => (s, 2, d)

/-- An access unit that no core decodes is a damage event of a stream in SYNCED or TAINTED: by a gap before it, by its syntax or by its
read (R210, R211). -/
def State.unitDamage (s : State) (n : Nat) (i : AuInfo) (gap : Bool) (fault alive tag : Nat) : State :=
  if !(s.syncState n == 1 || s.syncState n == 2) then s
  else
    let kinds := (if fault ≠ 0 then [4] else if i.reason ≠ 0 then [1] else []) ++ (if gap then [3] else [])
    if kinds = [] then s else forEach kinds (fun k s => s.streamError n k 0 alive tag) (s.setSync n 2)

/-- The stream's access unit on core c, whose syntax is `i` (R205, R210, R218). The unit's data is read before anything is decided of
it. An entry out of form completes with BAD_ARGUMENT and is not counted in DEC_DISCARDED (DESIGN CHOICE, log 75). -/
def State.startUnit (s : State) (c n : Nat) (e : FEntry) (i : AuInfo) : State :=
  let r := s.fld .decRing n 0 0 9
  let s := { s with tnd := { s.tnd with streams := s.tnd.streams.filter fun q => q != (r, e.k) } }
  let s := s.journal 8 0x11 n (le 2 r ++ le 2 0 ++ le 4 e.k ++ slice e.data 0 24)
  if !entryOk e then s.complete r e.k stBadArgument 0
  else
    let (s, fault, data) := s.readUnit c e
    let i := if fault = 0 ∧ !startCode data then { i with reason := 1 } else i
    let alive := e.arg 16 2
    let cap := w32 (e.arg 12 4)
    let tag := e.arg 20 4
    let st := s.syncState n
    let gap := (byteAt e.data 18).testBit 0 && i.irap == 0
    let endIf (s : State) : State := if (byteAt e.data 18).testBit 1 then s.endStream n else s
    let why := if i.reason = 0 then s.spsReason n i.sps else 0
    if i.irap = 0 ∧ st = 0 then s.discard n r e.k fault 8
    else if st = 3 ∧ (i.irap = 0 ∨ i.reason ≠ 0) then s.discard n r e.k fault (s.fld .decStatus n 0 8 8)
    else if why ≠ 0 then
      let s := (if st = 3 then s.setFld .decStatus n 0 8 8 why else s.reject n i why tag).showSps n i.sps
      s.discard n r e.k fault why
    else if i.reason ≠ 0 then
      endIf ((s.unitDamage n i gap fault alive tag).discard n r e.k fault i.reason)
    else
      let s := if st = 0 ∨ st = 3 then
          ((s.setSync n 1).setDec n { s.dec n with dropRasl := true }).emit 0x1101 n 0 (pay [i.irap, alive, cap.toNat])
        else if i.irap ≠ 0 then s.setDec n { s.dec n with dropRasl := i.irap == 3 }
        else s
      let late := decide ((s.fld .srcLimit n 0 0 11 : Int) * 1000000 < s.age cap)
      if bit (s.reg .decXSkip n 0) 0 ∧ i.nonRef ∧ late ∧ fault = 0 then
        let s := (s.codingRec 0x11 n 2 c alive tag s.now).bump .decSkipped n 0 1
        endIf ((s.unitDamage n i gap 0 alive tag).complete r e.k stNoGain 0)
      else s.coreTake c n r e i fault

/-- DECODE_PICTURE_START: core c is free; `i` is what it finds in the access unit it takes (DEDUCED, log 27). -/
def State.pictureStart (s : State) (c : Nat) (i : AuInfo) : State :=
  if (s.core c).isSome then s
  else
    let s := s.countWaits c
    match s.pickStream c with
    | none => s
    | some (n, e) => s.startUnit c n e i

/-! ### Picture end (R205 to R217) -/

/-- Marks after a picture: an IRAP marks every earlier buffer UNUSED, else the reference process keeps `keep` (R207). -/
def State.takeMarks (s : State) (n own : Nat) (irap : Bool) (o : PicObs) : State :=
  let s := forEach (List.range 16) (fun b s =>
    s.setMark n b (if irap then 0 else (assocGet o.keep b).getD 0)) s
  s.setMark n own o.mark

/-- DEC_RATE counts the luma samples of whole seconds, in thousands. -/
def State.countLuma (s : State) (n k : Nat) : State :=
  let x := s.dec n
  if s.ticks < x.secTick + tickS then s.setDec n { x with secLuma := x.secLuma + k }
  else
    let v := if s.ticks < x.secTick + 2 * tickS then x.secLuma else 0
    (s.setReg .decRate n 0 (w32 (v / 1000))).setDec n
      { x with secTick := x.secTick + (s.ticks - x.secTick) / tickS * tickS, secLuma := k }

/-- Status and reason of the entry (R205). -/
def State.entryStatus (s : State) (r : Nat) (x : CoreSt) (o : PicObs) : Nat × Nat :=
  if !s.isOn 2 r then (stAborted, 0)
  else if x.dataFault = 1 then (stAccess, 0)
  else if x.dataFault = 2 then (stEcc, 0)
  else if o.multi then (stFailed, 9)
  else (stOk, 0)

/-- The core becomes free and is in service. -/
def State.freeCore (s : State) (c : Nat) : State := { s.setCore c none with coreBad := delSet s.coreBad c }

/-- What a picture met while it was decoded (R211 to R216): references the DPB does not hold, by picture order count or frame_num;
whether a read of a reference or of the candidate failed; the concealed fraction. -/
structure PicMet where
  missing : List Int
  readFault : Bool
  concealed : Nat
  deriving DecidableEq, Repr

/-- A picture's data or a reference could not be read. -/
def picFault (x : CoreSt) (t : PicMet) : Bool := t.readFault || x.dataFault != 0

/-- A picture that follows a gap in the access units is not an IRAP picture (R205). -/
def picGap (x : CoreSt) : Bool := x.flags.testBit 0 && !decide (x.irap ≠ 0)

/-- The kinds of damage of R211 but a missing reference, as STREAM_ERROR tells them: 1 syntax, 2 uncovered, 3 discontinuity, 4 read
fault. -/
def picKinds (x : CoreSt) (o : PicObs) (t : PicMet) : List Nat :=
  (if o.broken || !o.lost.isEmpty then [1] else []) ++ (if o.bare.isEmpty then [] else [2]) ++ (if picGap x then [3] else []) ++
    (if picFault x t then [4] else [])

/-- Whether a picture is damaged (R211), whether it is a clean IRAP (R210), and whether it may be the candidate (R217). -/
def picDamage (x : CoreSt) (o : PicObs) (t : PicMet) : Bool := !(picKinds x o t).isEmpty || !t.missing.isEmpty
def picSound (x : CoreSt) (o : PicObs) (t : PicMet) : Bool :=
  o.lost.isEmpty && o.bare.isEmpty && o.pred.isEmpty && t.missing.isEmpty && !picFault x t
def picClean (x : CoreSt) (o : PicObs) (t : PicMet) : Bool := decide (x.irap ≠ 0) && picSound x o t && !o.broken

/-- The CTUs or macroblocks of a coded picture, and those among them concealed or predicted from a substitute (R213). -/
def picCtus (x : CoreSt) (o : PicObs) : Nat := cdiv x.codedW o.ctu * cdiv x.codedH o.ctu
def picConcealed (x : CoreSt) (o : PicObs) : Nat :=
  ((List.range (picCtus x o)).filter fun u => o.lost.contains u || o.bare.contains u || o.pred.contains u).length * 1000 /
    max 1 (picCtus x o)

/-- The pictures a picture refers to that the stream's DPB holds, marked for reference; H.265 names them by picture order count, H.264
by frame_num (R216). -/
def State.refPic (s : State) (n : Nat) (q : Int) : Option DpbEnt :=
  let h264 := ((s.plan.stream n).map StreamEnt.codec).getD 0 == 1
  (s.dec n).dpb.find? fun d => (if h264 then d.num else d.poc) == q && s.markOf n d.buf != 0

/-- An H.264 gap in frame_num where gaps are not allowed: the first frame_num missing between the last reference picture and this one; one gap
is one absent reference (R216; DESIGN CHOICE, log 75). -/
def State.numGap (s : State) (n : Nat) (o : PicObs) : List Int :=
  let h264 := ((s.plan.stream n).map StreamEnt.codec).getD 0 == 1
  match (s.dec n).lastNum with
  | some p =>
    let next := (p + 1) % (o.maxNum : Int)
    if h264 && !o.gaps && o.num != p && o.num != next then [next] else []
  | none => []

/-- The references that are absent (R216). -/
def State.refsAbsent (s : State) (n : Nat) (o : PicObs) : List Int :=
  s.numGap n o ++ o.refs.filter fun q => (s.refPic n q).isNone

/-- The blocks of reference buffers are read as the core's master; whether a read fails (R211, R215). -/
def State.refReads (s : State) (c n : Nat) (o : PicObs) : State × Bool :=
  o.reads.foldl (fun acc q =>
    match acc.1.fetchBlock (4 + c) (acc.1.bufAddr n q.1) (acc.1.geo n) q.2.1 q.2.2 with
    | (s, .ok _) => (s, acc.2)
    | (s, _) => (s, true)) (s, false)

/-- A block of mid-grey: half of full scale (R212). -/
def greyBlock (fmt : Nat) : List Byte := packSamples fmt (List.replicate 48 (if fmt = 6 then 128 else 512))

/-- A decoded block in the source's format: 8-bit samples in format 7 are shifted left by 2 (R202). -/
def toFormat (fmt depth : Nat) (blk : List Byte) : List Byte :=
  if fmt = 7 ∧ depth = 8 then packSamples 7 ((List.range 48).map fun i => byteAt blk i * 4) else blk

/-- A block that lies in a concealed CTU or macroblock (R211). -/
def picLost (x : CoreSt) (o : PicObs) (bx bY : Nat) : Bool :=
  let u := 4 * bY / o.ctu * cdiv x.codedW o.ctu + 8 * bx / o.ctu
  o.lost.contains u || o.bare.contains u

/-- A block of the picture: decoded, or where it is concealed the candidate's co-located one, or mid-grey without a candidate
(R212). -/
def State.picBlock (s : State) (c : Nat) (x : CoreSt) (o : PicObs) (bx bY : Nat) : State × List Byte × Bool :=
  let n := x.stream
  let g := s.geo n
  if !picLost x o bx bY then
    let len := if x.depth = 8 then 48 else 60
    (s, toFormat g.fmt x.depth (slice (o.rows.getD bY []) (bx * len) len), false)
  else
    match s.subst n with
    | none => (s, greyBlock g.fmt, false)
    | some b =>
      match s.fetchBlock (4 + c) (s.bufAddr n b) g bx bY with
      | (s, .ok d) => (s, d, false)
      | (s, _) => (s, greyBlock g.fmt, true)

/-- The picture as it is written, and whether a read of the candidate failed. -/
def State.picRows (s : State) (c : Nat) (x : CoreSt) (o : PicObs) : State × List (List Byte) × Bool :=
  let g := s.geo x.stream
  let r : State × List (List Byte) × Bool :=
    ((List.range g.bh).flatMap fun y => (List.range g.bw).map fun q => (q, y)).foldl (fun acc q =>
      match acc.1.picBlock c x o q.1 q.2 with
      | (s, d, bad) => (s, acc.2.1 ++ [d], acc.2.2 || bad)) (s, [], false)
  (r.1, g.ofBlocks r.2.1, r.2.2)

/-- Missing references are substituted, and the stream's errors told (R211, R213, R216). -/
def State.picErrors (s : State) (x : CoreSt) (o : PicObs) (t : PicMet) : State :=
  let n := x.stream
  let substAlive := ((s.dec n).dpb.find? fun d => s.subst n == some d.buf).map DpbEnt.alive
  let s := forEach t.missing (fun m s => (s.bump .decSubstituted n 0 1).refMissing n (code 32 m) (substAlive.getD 0)) s
  forEach (picKinds x o t) (fun k s => s.streamError n k t.concealed x.alive x.tag) s

/-- The stream's synchronism after the picture (R210); `st` is what it was. A CRA that ends TAINTED is taken as the first picture. -/
def State.picSync (s : State) (x : CoreSt) (o : PicObs) (t : PicMet) (st : Nat) : State :=
  let n := x.stream
  if picDamage x o t then s.setSync n 2
  else if picClean x o t ∧ st = 2 then
    ((s.setSync n 1).setDec n { s.dec n with dropRasl := true }).emit 0x1101 n 0 (pay [x.irap, x.alive, x.cap.toNat])
  else s

/-- Whether the picture rests on lost or damaged data (R213, R215). -/
def State.picTainted (s : State) (x : CoreSt) (o : PicObs) (t : PicMet) : Bool :=
  let refTaint := o.refs.any fun q => ((s.refPic x.stream q).map DpbEnt.tainted).getD false
  !picSound x o t || picDamage x o t || refTaint || s.syncState x.stream == 2

/-- The picture is held back from the wall (R214), by the limit it started under (R220). -/
def picHeld (x : CoreSt) (t : PicMet) : Bool := decide (x.concealMax < t.concealed)

/-- The picture joins the decoded picture buffer (R206, R207). -/
def State.picStore (s : State) (x : CoreSt) (o : PicObs) (t : PicMet) (rows : List (List Byte)) (wrote tainted shown : Bool) : State :=
  let n := x.stream
  let g := s.geo n
  let d : DpbEnt := { buf := x.buf, alive := x.alive, cap := x.cap, check := contentCheck (g.checks rows), poc := o.poc, num := o.num,
                      pending := shown, tainted := tainted, fault := picFault x t || !wrote, since := x.since, doubts := x.doubts }
  let y := s.dec n
  let s := s.setDec n { y with dpb := y.dpb.filter (fun e => e.buf != x.buf) ++ [d], lastNum := if o.mark = 0 then y.lastNum else some o.num }
  let s := s.takeMarks n x.buf (decide (x.irap ≠ 0)) o
  if shown ∨ x.culled then s else s.moveBuf n x.buf 0

/-- The registers and the event that tell of the picture, and the candidate (R213, R214, R217). -/
def State.picShow (s : State) (x : CoreSt) (o : PicObs) (t : PicMet) (tainted held : Bool) : State :=
  let n := x.stream
  let s := if held then (s.bump .decHeld n 0 1).emit 0x1105 n 1 (pay [x.alive, t.concealed]) else s
  let s := if picSound x o t then (s.setFld .decFlags n 0 16 4 x.buf).setFld .decFlags n 0 20 1 1 else s
  s.setReg .decLastPicture n 0 (w32 (t.concealed % 1024 + b2n tainted * 1024 + b2n held * 2048 + x.alive * 65536))

/-- Pictures are output, and the ring entry completes (R205, R208). -/
def State.picComplete (s : State) (x : CoreSt) (r : Nat) (o : PicObs) : State :=
  let n := x.stream
  let s := State.bumpOut 17 s n o.reorder
  let s := if o.eos ∨ x.flags.testBit 1 then s.endStream n else s
  let s := ((s.showPending n).prune n).countLuma n (x.codedW * x.codedH)
  let st := s.entryStatus r x o
  let s := if st.1 = stFailed then s.bump .decDiscarded n 0 1 else s
  s.complete r x.k st.1 st.2

/-- What follows the write of the picture. -/
def State.picTake (s : State) (x : CoreSt) (r : Nat) (o : PicObs) (t : PicMet) (rows : List (List Byte)) (wrote : Bool) : State :=
  let tainted0 := s.picTainted x o t
  let s := (s.picErrors x o t).picSync x o t (s.syncState x.stream)
  let tainted := tainted0 && !(picClean x o t)
  let held := picHeld x t
  let s := if decide (x.irap ≠ 0) then s.flushOut x.stream else s
  let s := s.picStore x o t rows wrote tainted (o.output && !x.hidden && !held && !x.culled)
  (s.picShow x o t tainted held).picComplete x r o

/-- DECODE_PICTURE_END on core c (DEDUCED, log 27). -/
def State.pictureEnd (s : State) (c : Nat) (o : PicObs) : State :=
  match s.core c with
  | none => s
  | some x =>
    let n := x.stream
    let r := s.fld .decRing n 0 0 9
    let missing := s.refsAbsent n o
    let (s, bad) := (s.freeCore c).refReads c n o
    let (s, rows, lost) := s.picRows c x o
    let t : PicMet := { missing := missing, readFault := bad || lost, concealed := picConcealed x o }
    let w := s.writePicture (4 + c) (s.bufAddr n x.buf) (s.geo n) 1 rows
    w.1.picTake x r o t rows w.2

/-- A stream leaves ON (R205, R219): the entry on its core completes with ABORTED, its pictures are abandoned. -/
def State.streamOff (s : State) (n : Nat) : State :=
  let r := s.fld .decRing n 0 0 9
  let s := forEach (List.range 24) (fun c s =>
    match s.core c with
    | some x => if x.stream = n then
        let s := (s.setCore c none).complete r x.k stAborted 0
        if x.culled ∨ s.bufState n x.buf ≠ 1 then s else s.cull n x.buf 1 x.alive x.cap
      else s
    | none => s) s
  let s := forEach ((s.dec n).dpb.filter fun d => d.pending) (fun d s =>
    if s.bufState n d.buf = 1 then s.cull n d.buf 1 d.alive d.cap else s) s
  let s := (s.setDec n DecSt.init).setReg .decMarks n 0 0
  let s := (s.setReg .decFlags n 0 0).setReg .decStatus n 0 0x7C
  s.evalSource n

/-- FILL_TIMEOUT: a picture whose fill exceeds SRC_X_FILL_MS is culled, an in-port's, a write-back's or a decoder's (R179). -/
def State.fillLimit (s : State) (n : Nat) : State :=
  let late (since : Nat) : Bool := decide (since + s.fld .srcXFillMs n 0 0 11 * tickMs < s.ticks)
  let s := s.fillTimeout n
  let s := match s.wb n with
    | some w => if late w.since then (s.setWb n none).cull n w.buf 1 w.alive w.time else s
    | none => s
  let s := forEach ((s.dec n).dpb.filter fun d => d.pending && late d.since) (fun d s =>
    let x := s.dec n
    let s := s.setDec n { x with dpb := x.dpb.map fun e => if e.buf = d.buf then { e with pending := false } else e }
    (s.cull n d.buf 1 d.alive d.cap).showPending n) s
  forEach (List.range 24) (fun c s =>
    match s.core c with
    | some x => if x.stream = n ∧ late x.since ∧ !x.culled then
        (s.setCore c (some { x with culled := true })).cull n x.buf 1 x.alive x.cap else s
    | none => s) s

def execFillTimeout (n : Nat) (s : State) : Answer := s.fabric fun s => s.fillLimit n
def execDecodeStreamBind (n : Nat) (s : State) : Answer := s.fabric fun s => s.streamBind n
def execDecodePictureStart (c : Nat) (i : AuInfo) (s : State) : Answer := s.fabric fun s => s.pictureStart c i
def execDecodePictureEnd (c : Nat) (o : PicObs) (s : State) : Answer := s.fabric fun s => s.pictureEnd c o

end Sys2Proof.Machine
end

