-- ==== Sys2Proof/Machine/Raster.lean ====
section
/-! DEFINITION. The pixels of composition (spec/08 R225 to R239, spec/09 R276 to R281, spec/10 R321): pure functions from latched
state and fetched blocks to scan buffer words and the bytes a port sends. -/

namespace Sys2Proof.Machine

/-- A sample: 12-bit colour and 10-bit alpha. -/
structure Px where
  r : Int
  g : Int
  b : Int
  a : Int
  deriving DecidableEq, Repr

/-! ### Unpacking (R227, R228) -/

/-- A component of n bits widened to 12 by repeating its bits from the most significant end (R227). -/
def widen (n v : Nat) : Nat :=
  match n with
  | 5 => v * 128 + v * 4 + v / 8
  | 6 => v * 64 + v
  | 8 => v * 16 + v / 16
  | 10 => v * 4 + v / 256
  | _ => v

/-- An RGB pixel from its raw bytes (the format table of spec/08). -/
def unpackRgb (fmt : Nat) (d : List Byte) : Px :=
  let v := leNat d
  let px (r g b a : Nat) : Px := ⟨r, g, b, a⟩
  let a8 := v / 2 ^ 24 % 256
  match fmt with
  | 0 => px (widen 5 (v / 2048 % 32)) (widen 6 (v / 32 % 64)) (widen 5 (v % 32)) 1023
  | 1 => px (widen 8 (byteAt d 0)) (widen 8 (byteAt d 1)) (widen 8 (byteAt d 2)) 1023
  | 2 => px (widen 8 (byteAt d 2)) (widen 8 (byteAt d 1)) (widen 8 (byteAt d 0)) 1023
  | 3 => px (widen 8 (v / 65536 % 256)) (widen 8 (v / 256 % 256)) (widen 8 (v % 256)) (a8 * 4 + a8 / 64)
  | 4 => px (widen 8 (v % 256)) (widen 8 (v / 256 % 256)) (widen 8 (v / 65536 % 256)) (a8 * 4 + a8 / 64)
  | _ => px (widen 10 (v / 2 ^ 20 % 1024)) (widen 10 (v / 1024 % 1024)) (widen 10 (v % 1024)) (v / 2 ^ 30 % 4 * 341)

/-- The fetched blocks of a buffer, by (block row × 65,536 + block column). -/
abbrev Blocks := List (Nat × List Byte)

def Blocks.at_ (bs : Blocks) (bx bY : Nat) : List Byte := (assocGet bs (bY * 65536 + bx)).getD []

/-- Sample i of a YUV_420 block at 12 bits (R227). -/
def yuvSample (fmt : Nat) (blk : List Byte) (i : Nat) : Nat := blkSample fmt blk i * (if fmt = 6 then 16 else 4)

/-- Chroma sample (i, j) of plane 0 Cb or 1 Cr; beyond the picture the edge repeats (R228). -/
def chromaAt (bs : Blocks) (fmt cw ch plane : Nat) (i j : Int) : Int :=
  let x := (clampI 0 ((cw : Int) - 1) i).toNat
  let y := (clampI 0 ((ch : Int) - 1) j).toNat
  yuvSample fmt (bs.at_ (x / 4) (y / 2)) (32 + 8 * plane + y % 2 * 4 + x % 4)

/-- Chroma at luma position (x, y) (R228). -/
def chroma444 (bs : Blocks) (fmt w h plane x y : Nat) : Int :=
  let cw := cdiv w 2
  let ch := cdiv h 2
  let vert (i : Int) : Int :=
    let j : Int := y / 2
    let c := chromaAt bs fmt cw ch plane i j
    let o := chromaAt bs fmt cw ch plane i (if y % 2 = 0 then j - 1 else j + 1)
    (3 * c + o + 2) / 4
  let i : Int := x / 2
  if x % 2 = 0 then vert i
  else if cw ≤ x / 2 + 1 then vert i
  else (vert i + vert (i + 1) + 1) / 2

/-- The unpacked components at (x, y): R, G, B or Y, Cb, Cr, and alpha. -/
def unpackAt (bs : Blocks) (fmt w h x y : Nat) : Px :=
  let blk := bs.at_ (x / 8) (y / 4)
  if isYuv fmt then
    ⟨yuvSample fmt blk (y % 4 * 8 + x % 8), chroma444 bs fmt w h 0 x y, chroma444 bs fmt w h 1 x y, 1023⟩
  else unpackRgb fmt (slice blk ((y % 4 * 8 + x % 8) * bppOf fmt) (bppOf fmt))

/-! ### Matrix, alpha, scaling (R229 to R238) -/

/-- The matrix of a layer as twelve numbers, three rows of c and then off (R229, R230). -/
def matrixOf (matrix : Nat) (yuv : Bool) (custom : List Int) : List Int :=
  let m := if matrix = 7 then 7 else if !yuv then 0 else if matrix = 0 then 1 else matrix
  match m with
  | 1 => [4769, 0, 7343, 4769, -873, -2183, 4769, 8652, 0, -256, -2048, -2048]
  | 2 => [4096, 0, 6450, 4096, -767, -1917, 4096, 7601, 0, 0, -2048, -2048]
  | 3 => [4769, 0, 6876, 4769, -767, -2664, 4769, 8773, 0, -256, -2048, -2048]
  | 4 => [4096, 0, 6040, 4096, -674, -2340, 4096, 7706, 0, 0, -2048, -2048]
  | 7 => custom
  | _ => [4096, 0, 0, 0, 4096, 0, 0, 0, 4096, 0, 0, 0]

/-- Stage 5 (R229). -/
def applyMatrix (m : List Int) (p : Px) : Px :=
  let c (i : Nat) : Int := m.getD i 0
  let x := p.r + c 9
  let y := p.g + c 10
  let z := p.b + c 11
  let out (i : Nat) : Int := clampI 0 4095 ((c i * x + c (i + 1) * y + c (i + 2) * z + 2048) / 4096)
  ⟨out 0, out 3, out 6, p.a⟩

/-- (C × a + 511) / 1,023 (R237, R238). -/
def mulAlpha (c a : Int) : Int := (c * a + 511) / 1023

/-- Stage 6 (R237). -/
def premult (already : Bool) (p : Px) : Px :=
  if already then p else ⟨mulAlpha p.r p.a, mulAlpha p.g p.a, mulAlpha p.b p.a, p.a⟩

/-- What R234 asks of the taps of a phase. -/
def tapsOk (l : List Int) : Bool := l.all (fun c => decide (-512 ≤ c ∧ c ≤ 511)) && l.foldl (· + ·) 0 == 256

/-- The computed taps of a phase (R235): n taps from the ratio alone, unity on tap `mid` at a ratio of 1 and phase 0 (DESIGN CHOICE, log 32). -/
def computedTaps (dir n mid crop dst phase : Nat) : List Int :=
  let unity := (List.range n).map fun t => if t = mid then (256 : Int) else 0
  let d := Nat.gcd crop dst
  let raw := (List.range n).map fun t => Config.coeff dir (crop / d) (dst / d) phase t
  if crop = dst ∧ phase = 0 then unity else if tapsOk raw then raw else unity

/-- Coefficients of a bank (R234 to R236). -/
def BankSt.horiz (k : BankSt) (phase tap : Nat) : Int :=
  if !k.table.isEmpty then k.table.getD (8 * phase + tap) 0 else (computedTaps 0 8 3 k.cropW k.dstW phase).getD tap 0

def BankSt.vert (k : BankSt) (phase tap : Nat) : Int :=
  if !k.table.isEmpty then k.table.getD (512 + 6 * phase + tap) 0 else (computedTaps 1 6 2 k.cropH k.dstH phase).getD tap 0

/-- Source position of output column x: first tap index base i, and phase (R233). -/
def scalePos (crop0 crop dst x : Nat) : Int × Nat :=
  let step := crop * 65536 / dst
  let p : Int := (crop0 * 65536 : Nat) + x * step + (step / 2 : Nat) - 0x8000
  (p / 65536, (p / 1024 % 64).toNat)

/-- One filter output (R233): rounding, clamping, and colour held within its alpha. -/
def filterOut (taps : List (Int × Px)) : Px :=
  let sum (f : Px → Int) : Int := (taps.map fun t => t.1 * f t.2).foldl (· + ·) 0
  let a := clampI 0 1023 ((sum Px.a + 128) / 256)
  let lim := (a * 4095 + 511) / 1023
  let c (f : Px → Int) : Int := min (clampI 0 4095 ((sum f + 128) / 256)) lim
  ⟨c Px.r, c Px.g, c Px.b, a⟩

/-- Rows or columns a filter reads, clamped to the crop (R233). -/
def tapAt (crop0 crop : Nat) (i : Int) : Nat := (clampI crop0 ((crop0 + crop : Nat) - 1) i).toNat

/-- Stages 3 to 8 for output pixel (x, y) of a layer (R225 to R238). -/
def layerSample (l : LatLayer) (custom : List Int) (bs : Blocks) (x y : Nat) : Px :=
  let c := l.cfg
  let src (sx sy : Nat) : Px :=
    premult (c.flags.testBit 1) (applyMatrix (matrixOf c.matrix (isYuv l.fmt) custom) (unpackAt bs l.fmt l.w l.h sx sy))
  let hp := scalePos c.cropX c.cropW c.dstW x
  let vp := scalePos c.cropY c.cropH c.dstH y
  let column (sx : Nat) : Px :=
    filterOut ((List.range 6).map fun k => (l.bank.vert vp.2 k, src sx (tapAt c.cropY c.cropH (vp.1 - 2 + k))))
  let p := filterOut ((List.range 8).map fun k => (l.bank.horiz hp.2 k, column (tapAt c.cropX c.cropW (hp.1 - 3 + k))))
  ⟨mulAlpha p.r c.alpha, mulAlpha p.g c.alpha, mulAlpha p.b c.alpha, mulAlpha p.a c.alpha⟩

/-- The source columns and rows that the taps of output columns and rows reach (R233). -/
def LatLayer.cols (l : LatLayer) (xs : List Nat) : List Nat :=
  let c := l.cfg
  (xs.flatMap fun x => (List.range 8).map fun k => tapAt c.cropX c.cropW ((scalePos c.cropX c.cropW c.dstW x).1 - 3 + k)).eraseDups
def LatLayer.rows (l : LatLayer) (ys : List Nat) : List Nat :=
  let c := l.cfg
  (ys.flatMap fun y => (List.range 6).map fun k => tapAt c.cropY c.cropH ((scalePos c.cropY c.cropH c.dstH y).1 - 2 + k)).eraseDups

/-- The chroma columns and rows that a luma column and row take (R228). -/
def chromaCols (w x : Nat) : List Nat := if x % 2 = 0 ∨ cdiv w 2 ≤ x / 2 + 1 then [x / 2] else [x / 2, x / 2 + 1]
def chromaRows (h y : Nat) : List Nat := [y / 2, if y % 2 = 0 then y / 2 - 1 else min (y / 2 + 1) (cdiv h 2 - 1)]

/-- The blocks that output columns and rows of a layer reach (R225): those of the samples its taps take, chroma included. -/
def neededBlocks (l : LatLayer) (xs ys : List Nat) : List (Nat × Nat) :=
  let sx := l.cols xs
  let sy := l.rows ys
  let bx := (if isYuv l.fmt then sx.flatMap fun x => (chromaCols l.w x).map fun v => v / 4 else sx.map fun x => x / 8).eraseDups
  let bY := (if isYuv l.fmt then sy.flatMap fun y => (chromaRows l.h y).map fun v => v / 2 else sy.map fun y => y / 4).eraseDups
  bY.flatMap fun y => bx.map fun x => (x, y)

/-! ### Freshness treatment (spec/09 R276 to R281) -/

/-- A colour register's three components at 12 bits (R276). -/
def colour12 (c : Nat) (a : Int) : Px :=
  ⟨widen 8 (c / 65536 % 256), widen 8 (c / 256 % 256), widen 8 (c % 256), a⟩

/-- The crawling hatch of frame F (R277). -/
def onHatch (x y : Int) (frame : Nat) : Bool := decide ((x + y + 16 - 2 * ((frame % 8 : Nat) : Int)) % 16 < 4)

/-- A rectangle on the active area: x0, y0 inclusive, x1, y1 exclusive. -/
structure Rect where
  x0 : Int
  y0 : Int
  x1 : Int
  y1 : Int
  deriving DecidableEq, Repr

/-- Within n pixels of an edge of a rectangle. -/
def Rect.near (r : Rect) (n x y : Int) : Bool :=
  decide (x - r.x0 < n) || decide (r.x1 - 1 - x < n) || decide (y - r.y0 < n) || decide (r.y1 - 1 - y < n)

/-- Step 2 of R278. -/
def hatched (stale frame : Nat) (r : Rect) (x y : Int) (p : Px) : Px :=
  if onHatch x y frame || r.near 4 x y then colour12 stale 1023 else p

/-- Stage 9: states are 0 ABSENT, 1 LIVE, 2 DEGRADED, 3 STALE (R278 to R280). -/
def treat (state stale degr frame : Nat) (r : Rect) (x y : Int) (p : Px) : Px :=
  match state with
  | 0 => hatched stale frame r x y ⟨1638, 1638, 1638, 1023⟩
  | 2 => if r.near 2 x y && decide ((x + y) / 8 % 2 = 0) then colour12 degr 1023 else p
  | 3 =>
    let lum := (871 * p.r + 2929 * p.g + 296 * p.b + 2048) / 4096
    let g := (lum * 1638 + 2048) / 4096
    hatched stale frame r x y ⟨g, g, g, p.a⟩
  | _ => p

/-- Stage 10 (R239). -/
def blend (d s : Px) : Px :=
  let f (sc dc : Int) : Int := min 4095 (sc + (dc * (1023 - s.a) + 511) / 1023)
  ⟨f s.r d.r, f s.g d.g, f s.b d.b, d.a⟩

/-- The background (R239). -/
def bgPx (bg : Nat) : Px :=
  ⟨widen 10 (bg / 2 ^ 20 % 1024), widen 10 (bg / 1024 % 1024), widen 10 (bg % 1024), 1023⟩

/-- The scan buffer word of a composed pixel (R239). -/
def scanWord (p : Px) : Nat :=
  let c (v : Int) : Nat := min 1023 ((v + 2) / 4).toNat
  c p.r * 2 ^ 20 + c p.g * 1024 + c p.b

/-- The doubt fill (R281). -/
def fillWord (stale frame : Nat) (x y : Int) : Nat :=
  scanWord (if onHatch x y frame then colour12 stale 1023 else ⟨1638, 1638, 1638, 1023⟩)

/-- The cursor's pixel over a composed pixel (R251). -/
def cursorOver (cur : Option (Int × Int × Bool × CurImg)) (x y : Int) (d : Px) : Px :=
  match cur with
  | none => d
  | some (cx, cy, pm, img) =>
    if cx ≤ x ∧ cy ≤ y ∧ x < cx + img.w ∧ y < cy + img.h then
      let i := ((y - cy) * img.w + (x - cx)).toNat
      let p := premult pm (unpackRgb 3 (slice img.px (4 * i) 4))
      blend d ⟨mulAlpha p.r 1023, mulAlpha p.g 1023, mulAlpha p.b 1023, mulAlpha p.a 1023⟩
    else d

/-! ### Read-out (spec/10 R321, spec/13 R400) -/

/-- A word through the output LUT bank (identity where the table is empty) and reduced to BITS: three components. -/
def outPixel (lut : List Nat) (ten : Bool) (w : Nat) : List Nat :=
  (List.range 3).map fun c =>
    let v := w / 1024 ^ (2 - c) % 1024
    let v := if lut.isEmpty then v else lut.getD (1024 * c + v) 0
    if ten then v else min 255 ((v + 2) / 4)

/-- Pixels as RASTER_LINE carries them (R400). -/
def packPixels (ten : Bool) (px : List (List Nat)) : List Byte :=
  if ten then
    le (30 * px.length / 8) ((px.mapIdx fun i p => (p.getD 0 0 * 2 ^ 20 + p.getD 1 0 * 1024 + p.getD 2 0) * 2 ^ (30 * i)).sum)
  else px.flatMap fun p => p.map fun c => BitVec.ofNat 8 c

end Sys2Proof.Machine
end

