-- ==== Sys2Proof/Machine/Layers.lean ====
section
/-! DEFINITION. The commands on layers, cursor, freshness, modes and LUT banks (spec/08 R231 to R252, R265; spec/09 R273 to R275,
R298, R302; spec/10 R304 to R307, R314, R328). -/

namespace Sys2Proof.Machine

def State.setHead (s : State) (h : Nat) (x : HeadSt) : State := { s with heads := tabSet HeadSt.init s.heads h x }

/-- The ports of a head. -/
def HeadEnt.ports (e : HeadEnt) : List Nat := [e.primary] ++ (if e.secondary = 0xFF then [] else [e.secondary])

/-- MAX_DEPTH of a head; layers 0 to MAX_DEPTH − 1 exist (R241). -/
def State.depth (s : State) (h : Nat) : Nat := ((s.plan.head h).map HeadEnt.maxDepth).getD 0

/-- The master of a head's fetches. -/
def headMaster (h : Nat) : Nat := 36 + h

/-! ### Active layer state, as the registers hold it (R240) -/

/-- A layer's active configuration. -/
def State.layer (s : State) (h l : Nat) : LayerCfg :=
  let c := s.reg .layerSrc h l
  { src := bf c 0 8, flags := bf c 8 8, matrix := bf c 16 3, group := bf c 20 4, rank := bf c 24 4,
    alpha := s.fld .layerAlpha h l 0 10, cropX := s.fld .layerCropPos h l 0 16, cropY := s.fld .layerCropPos h l 16 16,
    cropW := s.fld .layerCropSize h l 0 16, cropH := s.fld .layerCropSize h l 16 16,
    dstX := sext 16 (s.fld .layerDstPos h l 0 16), dstY := sext 16 (s.fld .layerDstPos h l 16 16),
    dstW := s.fld .layerDstSize h l 0 16, dstH := s.fld .layerDstSize h l 16 16 }

/-- The weight of a layer (R232). -/
def LayerCfg.weight (c : LayerCfg) : Nat := max 1 (cdiv c.cropW (2 * c.dstW)) * max 1 (cdiv c.cropH (2 * c.dstH))

def LayerCfg.enabled (c : LayerCfg) : Bool := c.flags.testBit 0
def LayerCfg.committed (c : LayerCfg) : Bool := c.flags.testBit 2

/-- Put a configuration into the active registers. -/
def State.setLayer (s : State) (h l : Nat) (c : LayerCfg) : State :=
  let s := s.setReg .layerSrc h l (w32 (c.src + c.flags * 2 ^ 8 + c.matrix * 2 ^ 16 + c.group * 2 ^ 20 + c.rank * 2 ^ 24))
  let s := s.setReg .layerAlpha h l (w32 c.alpha)
  let s := (s.setReg .layerCropPos h l (w32 (c.cropX + c.cropY * 65536))).setReg .layerCropSize h l (w32 (c.cropW + c.cropH * 65536))
  let s := s.setReg .layerDstPos h l (w32 (code 16 c.dstX + code 16 c.dstY * 65536))
  (s.setReg .layerDstSize h l (w32 (c.dstW + c.dstH * 65536))).setFld .layerState h l 5 5 (if c.enabled then c.weight else 0)

/-- Two runs of pending state, the second later. -/
def PendSt.add (a b : PendSt) : PendSt :=
  { layers := b.layers.foldl (fun t x => assocSet t x.1 x.2) a.layers,
    fences := b.fences.foldl (fun t x => assocSet t x.1 x.2) a.fences,
    coeffs := b.coeffs.foldl (fun t x => assocSet t x.1 x.2) a.coeffs,
    cursor := if b.cursor.isSome then b.cursor else a.cursor }

/-- What is pending over the active state, the waiting commits included. -/
def HeadSt.allPending (x : HeadSt) : PendSt := (x.commits.foldl (fun p c => p.add c.pend) PendSt.init).add x.pend

/-- Layer l as it would be with everything pending applied. -/
def State.layerNext (s : State) (h l : Nat) : LayerCfg :=
  (assocGet (s.head h).allPending.layers l).getD (s.layer h l)

/-! ### COMPOSE commands (R242 to R252, R265) -/

/-- The configuration a LAYER_SET carries (R242). -/
def layerArgs (e : FEntry) : LayerCfg :=
  { src := e.arg 32 1, flags := e.arg 33 1, matrix := e.arg 34 1 % 8, group := e.arg 34 1 / 16, rank := e.arg 35 1,
    alpha := e.arg 36 2, cropX := e.arg 38 2, cropY := e.arg 40 2, cropW := e.arg 42 2, cropH := e.arg 44 2,
    dstX := sext 16 (e.arg 46 2), dstY := sext 16 (e.arg 48 2), dstW := e.arg 50 2, dstH := e.arg 52 2 }

/-- The ranges of R242 and R230. -/
def layerArgsOk (p : Plan) (e : FEntry) : Bool :=
  let c := layerArgs e
  (c.src == 0xFF || (p.source c.src).isSome) && decide (c.flags < 8) && !(e.arg 34 1).testBit 3 && c.matrix != 5 && c.matrix != 6 &&
  decide (c.rank < 16 ∧ c.alpha ≤ 1023 ∧ c.cropX ≤ 8191 ∧ c.cropY ≤ 8191 ∧ 1 ≤ c.cropW ∧ c.cropW ≤ 8192 ∧ 1 ≤ c.cropH ∧
    c.cropH ≤ 8192 ∧ 1 ≤ c.dstW ∧ c.dstW ≤ 16384 ∧ 1 ≤ c.dstH ∧ c.dstH ≤ 16384) && e.zeroFrom 54 56

/-- h and v lie from 1/8 to 16 (R231). -/
def ratioOk (crop dst : Nat) : Bool := decide (crop ≤ 8 * dst ∧ dst ≤ 16 * crop)

/-- A layer command's object is an existing layer (R241). -/
def State.layerOk (s : State) (e : FEntry) : Bool := decide (e.object < s.depth e.inst)

/-- LAYER_SET. -/
def layerSet : Perf := fun _ _ e s =>
  checked 0x12 (s.layerOk e) (layerArgsOk s.plan e) false e s fun s =>
    let c := layerArgs e
    if !(ratioOk c.cropW c.dstW && ratioOk c.cropH c.dstH) then done s stLimit
    else
      let x := s.head e.inst
      done (s.setHead e.inst { x with pend := { x.pend with layers := assocSet x.pend.layers e.object c } }) stOk

/-- LAYER_FENCE (R250). -/
def layerFence : Perf := fun _ _ e s =>
  let o := e.arg 32 2
  checked 0x12 (s.layerOk e) ((o < 4096 || o == 0xFFFF) && e.zeroFrom 34 40 && e.zeroFrom 48 56) false e s fun s =>
    let x := s.head e.inst
    done (s.setHead e.inst { x with pend := { x.pend with fences := assocSet x.pend.fences e.object (o, e.arg 40 8) } }) stOk

/-- The 16-bit entries of a table in memory. -/
def halves : List Byte → List Nat
  | a :: b :: r => (a.toNat + b.toNat * 256) :: halves r
  | _ => []

/-- The 896 entries of a coefficient table; `none` where R236 refuses it. -/
def coeffTable (d : List Byte) : Option (List Int) :=
  let v := halves d
  let ok := v.all fun w => decide (w < 512 ∨ 65024 ≤ w)
  let t := v.map fun w => sext 16 w
  let sum (o n p : Nat) : Int := ((t.drop (o + n * p)).take n).foldl (· + ·) 0
  if ok && (List.range 64).all fun p => sum 0 8 p == 256 && sum 512 6 p == 256 then some t else none

/-- LOAD_COEFF (R236). -/
def loadCoeff : Perf := fun _ _ e s =>
  checked 0x12 (s.layerOk e) (e.arg 32 8 % 64 == 0 && e.zeroFrom 40 56) false e s fun s =>
    if !s.expert 0x12 e.inst then done (s.bump .composeXIgnored e.inst 0 1) stOk
    else
      match s.load (headMaster e.inst) (e.arg 32 8) 1792 with
      | (s, .refused) => done s stAccess
      | (s, .ue _) => done s stEcc
      | (s, .ok d) =>
        match coeffTable d with
        | none => done s stBadArgument
        | some t =>
          let x := s.head e.inst
          done (s.setHead e.inst { x with pend := { x.pend with coeffs := assocSet x.pend.coeffs e.object t } }) stOk

/-- The table of a bank as READ_COEFF writes it (R236). -/
def BankSt.bytes (k : BankSt) : List Byte :=
  ((List.range 64).flatMap fun p => (List.range 8).flatMap fun t => le 2 (code 16 (k.horiz p t))) ++
  ((List.range 64).flatMap fun p => (List.range 6).flatMap fun t => le 2 (code 16 (k.vert p t)))

/-- READ_COEFF. -/
def readCoeff : Perf := fun _ _ e s =>
  checked 0x12 (s.layerOk e) (e.arg 32 8 % 64 == 0 && e.zeroFrom 40 56) false e s fun s =>
    match s.store (headMaster e.inst) (e.arg 32 8) (tabGet BankSt.init (s.head e.inst).banks e.object).bytes with
    | (s, true) => done s stOk
    | (s, false) => done s stAccess

/-- CURSOR_LOAD (R252). -/
def cursorLoad : Perf := fun _ _ e s =>
  let w := e.arg 40 1
  let h := e.arg 41 1
  let stride := e.arg 42 2
  let argOk := e.arg 32 8 % 64 == 0 && decide (1 ≤ w ∧ w ≤ 128 ∧ 1 ≤ h ∧ h ≤ 128 ∧ cdiv (w * 4) 64 ≤ stride) && e.zeroFrom 44 56
  checked 0x12 (e.object == 32) argOk false e s fun s =>
    match s.fetchRows (headMaster e.inst) (e.arg 32 8) (stride * 64) h (w * 4) with
    | (s, .ok rows) =>
      let x := s.head e.inst
      done (s.setHead e.inst { x with pend := { x.pend with cursor := some ⟨w, h, rows.flatten⟩ } }) stOk
    | (s, .ue) => done s stEcc
    | (s, _) => done s stAccess

/-- COMMIT (R232, R240, R241, R244, R311). -/
def commit : Perf := fun _ _ e s =>
  let h := e.inst
  let mask := e.arg 32 4
  checked 0x12 (e.object == 33) (decide (mask < 2 ^ s.depth h) && e.zeroFrom 36 56) false e s fun s =>
    let cfgs := (List.range (s.depth h)).map fun l => s.layerNext h l
    let weight := ((cfgs.filter LayerCfg.enabled).map LayerCfg.weight).sum
    if s.depth h < weight then done s stLimit
    else
      let x := s.head h
      let c : CommitSt := { at_ := s.now, tag := e.tag, mask := mask, pend := x.pend }
      done ((s.setHead h { x with pend := PendSt.init, commits := x.commits ++ [c] }).setFld .composeStatus h 0 18 1 1) stCommitPending

/-- CURSOR_POS_WRITE (R253): sampled at the next latch, where a hidden cursor shows again. -/
def State.cursorPosWrite (s : State) (host h : Nat) (v : Word) : State :=
  s.hostWrite host 0x12 h 0 0x2C v fun s =>
    (s.setReg .cursorPos h 0 v).setHead h { s.head h with posTick := s.ticks, curHide := false }

/-- CURSOR_HIDDEN (R253). -/
def State.cursorHidden (s : State) (h : Nat) : State :=
  let ms := s.fld .cursorCtl h 0 16 11
  let x := s.head h
  if s.isOn 0x12 h ∧ ms ≠ 0 ∧ !x.curHide ∧ x.posTick + ms * tickMs ≤ s.ticks then
    (s.setHead h { x with curHide := true }).emit 0x1207 h 0 (pay [(s.reg .cursorPos h 0).toNat])
  else s

/-! ### FRESH commands (R273 to R275, R298, R302) -/

/-- Default limit, floor and ceiling for a head and source (spec/02 R46). -/
def Plan.freshFor (p : Plan) (h src : Nat) : Nat × Nat × Nat :=
  match p.fresh.find? fun o => (o.head == 0xFF || o.head == h) && (o.source == 0xFF || o.source == src) with
  | some o => (o.limit, o.floor, o.ceiling)
  | _ => (p.freshLimit, p.freshFloor, p.freshCeiling)

/-- LIMIT_SET. -/
def limitSet : Perf := fun _ _ e s =>
  let useDefault := (e.arg 34 1).testBit 0
  let ms := e.arg 32 2
  let argOk := decide (e.arg 34 1 < 2) && e.zeroFrom 35 56 && (useDefault || decide (1 ≤ ms ∧ ms ≤ 2000))
  checked 0x13 (s.layerOk e) argOk false e s fun s =>
    let f := s.plan.freshFor e.inst (s.layer e.inst e.object).src
    if !useDefault && decide (ms < f.2.1 ∨ f.2.2 < ms) then done s stLimit
    else
      let x := s.head e.inst
      done (s.setHead e.inst { x with limits := x.limits ++ [(s.now, e.object, ms, useDefault)] }) stOk

/-- POLICY_SET. -/
def policySet : Perf := fun _ _ e s =>
  let b := e.arg 33 1
  let argOk := decide (b < 8 ∧ b % 4 < 3) && e.zeroFrom 34 56
  checked 0x13 (s.layerOk e) argOk false e s fun s =>
    let x := s.head e.inst
    done (s.setHead e.inst { x with policies := x.policies ++ [(s.now, e.object, e.arg 32 1 + b * 256)] }) stOk

/-- A port is in SAFE by the witness or its island (R297 to R299). -/
def State.witSafe (s : State) (p : Nat) : Bool := (s.link p).safe == some 0 || (s.link p).safe == some 1

/-- REARM (R298): the head restarts its output at its next latch instant. -/
def rearm : Perf := fun _ _ e s =>
  let h := e.inst
  checked 0x13 (e.object == 0xFFFF) (e.zeroFrom 32 56) false e s fun s =>
    match s.plan.head h with
    | none => done s stBadInstance
    | some p =>
      if !p.ports.any s.witSafe then done s stState
      else if !bit (s.reg .witStatus h 0) 6 then done s stFailed 1
      else
        let s := s.setHead h { s.head h with rearm := true, witPrev := [] }
        let s := (s.setFld .witStatus h 0 0 2 0).emit 0x1308 h 0 (pay [p.primary, s.fld .witStatus h 0 16 16])
        done s stOk

/-! ### Modes (spec/10 R304 to R307, R314; spec/13 R406) -/

def ModeSt.vb (m : ModeSt) : Nat := m.vfp + m.vsync + m.vbp
def ModeSt.vtotal (m : ModeSt) : Nat := m.vact + m.vb
def ModeSt.htotal (m : ModeSt) : Nat := m.hact + m.hfp + m.hsync + m.hbp
def ModeSt.ten (m : ModeSt) : Bool := m.flags.testBit 2

/-- Bytes one port sends for a frame of `w` pixels a line (R406), TIME over `ms` milliseconds included. -/
def frameBytes (m : ModeSt) (w ms : Nat) : Nat :=
  let cols := cdiv w 64
  let segs := cdiv cols (if m.ten then 17 else 21)
  let line := w * (if m.ten then 30 else 24) / 8 + segs * 28
  let rows := cdiv m.vact 64
  let stamp := 20 + 16 + 4 * cols + cdiv (cdiv cols 8) 4 * 4
  line * m.vact + rows * stamp + 36 + (16 + 16 + 4 * rows + 4) + 36 * ms

/-- The link load fits the payload of `lanes` lanes at a rate code (R307, R320, R360, R406). `rate` is in mHz. -/
def loadFits (m : ModeSt) (w rate lanes code : Nat) (half : Bool) : Bool :=
  let k := if half then 2 else 1
  let ms := cdiv (k * framePs rate) 1000000000
  rate != 0 && decide (frameBytes m w ms * 8 * 101 * rate * 16 ≤ k * (lanes * (code + 1) * 4000000000 * 15) * 100 * 1000)

/-- Pixels a line of each port. -/
def HeadEnt.portWidth (e : HeadEnt) (m : ModeSt) : Nat := if e.secondary = 0xFF then m.hact else m.hact / 2

/-- The mode a MODE_COMMIT carries. -/
def modeArgs (e : FEntry) : ModeSt :=
  { hact := e.arg 32 2, hfp := e.arg 34 2, hsync := e.arg 36 2, hbp := e.arg 38 2, vact := e.arg 40 2, vfp := e.arg 42 2,
    vsync := e.arg 44 2, vbp := e.arg 46 2, flags := e.arg 48 1, phase := e.arg 52 4 }

/-- LINE_PS of a mode at a group rate in mHz (R305). -/
def linePs (m : ModeSt) (rate : Nat) : Nat := framePs rate / m.vtotal

/-- The conditions of R307 that are ranges of the arguments. -/
def modeRanges (e : HeadEnt) (m : ModeSt) (rate : Nat) : Bool :=
  let lp := linePs m rate
  let wide := if e.secondary = 0xFF then 8 else 128
  decide (256 ≤ m.hact ∧ m.hact ≤ 7680 ∧ m.hact % wide = 0 ∧ 64 ≤ m.vact ∧ m.vact ≤ 4320 ∧ 8 ≤ m.hfp ∧ 8 ≤ m.hsync ∧ 8 ≤ m.hbp ∧
    80 ≤ m.hfp + m.hsync + m.hbp ∧ m.hfp + m.hsync + m.hbp ≤ 4096 ∧ 1 ≤ m.vfp ∧ 1 ≤ m.vsync ∧ 1 ≤ m.vbp ∧ 16 ≤ m.vb ∧ m.vb ≤ 4095 ∧
    m.flags < 8 ∧ rate ≠ 0 ∧ 25000000 * lp ≤ m.htotal * 10 ^ 12 ∧ m.htotal * 10 ^ 12 ≤ 2400000000 * lp ∧
    m.phase * 1000 < framePs rate)

/-- A mode beyond what the structure plans (R314). -/
def modeBeyond (e : HeadEnt) (m : ModeSt) (rate : Nat) : Bool :=
  decide (e.maxWidth < m.hact ∨ e.maxHeight < m.vact ∨ linePs m rate < e.minLinePs) || (m.ten && e.bits != 10)

/-- Put a mode into the registers as the active one. -/
def State.setMode (s : State) (h : Nat) (m : ModeSt) (half : Bool) : State :=
  let rate := match s.plan.head h with
    | some e => (s.reg .grpRate 0 e.group).toNat
    | none => 0
  let lp := linePs m rate
  let s := s.setHead h { s.head h with mode := some m }
  let s := (s.setReg .headModeH0 h 0 (w32 (m.hact + m.hfp * 65536))).setReg .headModeH1 h 0 (w32 (m.hsync + m.hbp * 65536))
  let s := (s.setReg .headModeV0 h 0 (w32 (m.vact + m.vfp * 65536))).setReg .headModeV1 h 0 (w32 (m.vsync + m.vbp * 65536))
  let s := (s.setReg .headModeFlags h 0 (w32 m.flags)).setReg .headPhaseNs h 0 (w32 m.phase)
  let lp := if half then 2 * lp else lp
  (s.setReg .headLinePs h 0 (w32 lp)).setReg .headPixelKhz h 0 (w32 (m.htotal * 10 ^ 9 / lp))

/-- Lanes in service and rate code of a port. -/
def State.lanesOf (s : State) (p : Nat) : Nat := if s.portState p = 2 then s.fld .portState p 0 10 3 else 0
def State.rateOf (s : State) (p : Nat) : Nat := s.fld .portState p 0 8 2

/-- What entered at `d` applies at the head's present latch instant, which has come although its latch has not run yet (R311). -/
def State.latchMet (s : State) (h : Nat) (d : Word) : Bool :=
  match (s.head h).next with
  | some t => atOrAfter s.now t && decide (sdiff d t < 0)
  | none => false

/-- The MODE_COMMIT that applies at a latch instant already met, which a later one does not replace (R311, R315). -/
def State.modeMet (s : State) (h : Nat) : Option (ModeSt × Word × Nat) :=
  match (s.head h).modeNext with
  | some q => if s.latchMet h q.2.1 then some q else (s.head h).modeDue
  | none => (s.head h).modeDue

/-- MODE_COMMIT. -/
def modeCommit : Perf := fun _ _ e s =>
  let h := e.inst
  let m := modeArgs e
  match s.plan.head h with
  | none => done s stBadInstance
  | some p =>
    let rate := (s.reg .grpRate 0 p.group).toNat
    let on := s.isOn 0x14 h
    checked 0x14 (e.object == 0xFFFF) (e.zeroFrom 49 52 && modeRanges p m rate) true e s fun s =>
      if s.fnState 0x14 h = 3 then done s stNotOn
      else if modeBeyond p m rate then done s stLimit
      else if on && p.ports.any fun q => s.lanesOf q < 4 then done s stState
      else if !p.ports.all fun q => loadFits m (p.portWidth m) rate 4
          (if on then s.rateOf q else ((s.plan.port q).map PortEnt.rate).getD 0) false then done s stBadArgument
      else if on then
        done ((s.setHead h { s.head h with modeNext := some (m, s.now, e.tag), modeDue := s.modeMet h }).setFld .headStatus h 0 8 1 1) stCommitPending
      else done (s.setMode h m false) stOk

/-! ### LUT banks (spec/10 R326 to R328) -/

/-- A table that R326 and R328 accept. -/
def lutTable (d : List Byte) : Option (List Nat) :=
  let v := halves d
  let comp (c : Nat) : List Nat := (v.drop (1024 * c)).take 1024
  let good (l : List Nat) : Bool :=
    ((l.zip (l.drop 1)).all fun q => decide (q.1 ≤ q.2)) && decide (l.getD 0 0 + 256 ≤ l.getD 1023 0)
  if (v.all fun w => decide (w < 1024)) && (List.range 3).all fun c => good (comp c) then some v else none

def lutArgs (e : FEntry) : Bool := e.arg 32 8 % 64 == 0 && e.zeroFrom 40 56

/-- LUT_LOAD. -/
def lutLoad : Perf := fun _ _ e s =>
  let h := e.inst
  checked 0x14 (e.object < 3) (lutArgs e) true e s fun s =>
    match s.load (headMaster h) (e.arg 32 8) 6144 with
    | (s, .refused) => done s stAccess
    | (s, .ue _) => done s stEcc
    | (s, .ok d) =>
      match lutTable d with
      | none => done s stBadArgument
      | some t =>
        let x := s.head h
        let q : LutLoad := { bank := e.object, table := t, at_ := s.now, tag := e.tag }
        done (s.setHead h { x with lutLoads := x.lutLoads.filter (fun y => y.bank != e.object || s.latchMet h y.at_) ++ [q] }) stCommitPending

/-- LUT_READ: the bank in force; the identity at reset (R326). -/
def lutRead : Perf := fun _ _ e s =>
  let h := e.inst
  checked 0x14 (e.object < 3) (lutArgs e) true e s fun s =>
    let t := tabGet [] (s.head h).luts e.object
    let t := if t.isEmpty then (List.range 3072).map fun i => i % 1024 else t
    match s.store (headMaster h) (e.arg 32 8) (t.flatMap fun v => le 2 v) with
    | (s, true) => done s stOk
    | (s, false) => done s stAccess

/-! ### The tile table snapshot (spec/09 R286) and HEAD_FRAME -/

/-- HEAD_FRAME_READ (R313): a read of HEAD_FRAME freezes HEAD_LATCH_TIME until it (`time`) is read. -/
def State.headFrameRead (s : State) (port h : Nat) (time : Bool) : State :=
  if time then (s.answer port (s.frozen .headLatchTime h 0)).thaw .headLatchTime h 0
  else (s.answer port (s.reg .headFrame h 0)).freeze .headLatchTime h 0

def execLayerSet (r k : Nat) (s : State) : Answer := s.fabric fun s => s.runCmd 0x1201 layerSet r k
def execLayerFence (r k : Nat) (s : State) : Answer := s.fabric fun s => s.runCmd 0x1202 layerFence r k
def execLoadCoeff (r k : Nat) (s : State) : Answer := s.fabric fun s => s.runCmd 0x1203 loadCoeff r k
def execReadCoeff (r k : Nat) (s : State) : Answer := s.fabric fun s => s.runCmd 0x1204 readCoeff r k
def execCursorLoad (r k : Nat) (s : State) : Answer := s.fabric fun s => s.runCmd 0x1205 cursorLoad r k
def execCommit (r k : Nat) (s : State) : Answer := s.fabric fun s => s.runCmd 0x1206 commit r k
def execCursorPosWrite (host h : Nat) (v : Word) (s : State) : Answer := s.fabric fun s => s.cursorPosWrite host h v
def execCursorHidden (h : Nat) (s : State) : Answer := s.fabric fun s => s.cursorHidden h
def execLimitSet (r k : Nat) (s : State) : Answer := s.fabric fun s => s.runCmd 0x1301 limitSet r k
def execPolicySet (r k : Nat) (s : State) : Answer := s.fabric fun s => s.runCmd 0x1302 policySet r k
def execRearm (r k : Nat) (s : State) : Answer := s.fabric fun s => s.runCmd 0x1303 rearm r k
def execModeCommit (r k : Nat) (s : State) : Answer := s.fabric fun s => s.runCmd 0x1401 modeCommit r k
def execLutLoad (r k : Nat) (s : State) : Answer := s.fabric fun s => s.runCmd 0x1402 lutLoad r k
def execLutRead (r k : Nat) (s : State) : Answer := s.fabric fun s => s.runCmd 0x1403 lutRead r k
def execHeadFrameRead (port h : Nat) (time : Bool) (s : State) : Answer := s.fabric fun s => s.headFrameRead port h time

end Sys2Proof.Machine
end

