-- ==== Sys2Proof/Machine/Container.lean ====
section
/-! DEFINITION. The structure container (spec/02): its records, the plans they spell, and the checks at load (R64). -/

namespace Sys2Proof.Machine

/-- A record: index, TYPE, body. -/
structure Rec where
  idx : Nat
  typ : Nat
  body : List Byte
  deriving DecidableEq, Repr

/-- A record taken whole: TYPE, LENGTH, body (R31). -/
def Rec.whole (r : Rec) : List Byte := le 2 r.typ ++ le 4 r.body.length ++ r.body

/-- Walk `n` records that must fill the bytes exactly (R31, R64 check 2). -/
def walkRecs : Nat → Nat → List Byte → Option (List Rec)
  | 0, _, d => if d.isEmpty then some [] else none
  | n + 1, i, d =>
    if d.length < 6 ∨ d.length < 6 + leAt d 2 4 then none
    else
      let len := leAt d 2 4
      (walkRecs n (i + 1) (d.drop (6 + len))).map fun l => ⟨i, leAt d 0 2, slice d 6 len⟩ :: l

/-- Entries of `size` bytes from byte `off` of a body. -/
def ents (body : List Byte) (off size n : Nat) : List (List Byte) := (List.range n).map fun i => slice body (off + size * i) size

/-! ### Entries (R35 to R50) -/

def portEnt (b : List Byte) : PortEnt := { role := byteAt b 0, rate := byteAt b 1, zone := byteAt b 2, holdCap := leAt b 4 2 }
def headEnt (b : List Byte) : HeadEnt :=
  { head := byteAt b 0, primary := byteAt b 1, secondary := byteAt b 2, group := byteAt b 3, maxWidth := leAt b 4 2,
    maxHeight := leAt b 6 2, minLinePs := leAt b 8 4, bits := byteAt b 12, maxDepth := byteAt b 13,
    critical := (byteAt b 14).testBit 0, degradedOk := (byteAt b 14).testBit 1, writeback := (byteAt b 14).testBit 2, zone := byteAt b 15 }
def cadEnt (b : List Byte) : CadEnt :=
  { enable := byteAt b 0 == 1, zone := byteAt b 1, rateMin := leAt b 4 4, rateMax := leAt b 8 4, phaseNs := leAt b 12 4 }
def unitEnt (b : List Byte) : UnitEnt := { owner := byteAt b 0, zone := byteAt b 1 }
def srcEnt (b : List Byte) : SrcEnt :=
  { source := byteAt b 0, kind := byteAt b 1, attach := byteAt b 2, buffers := byteAt b 3, maxWidth := leAt b 4 2,
    maxHeight := leAt b 6 2, store := byteAt b 8, zone := byteAt b 9, partition := byteAt b 10 }
def streamEnt (b : List Byte) : StreamEnt :=
  { source := byteAt b 0, codec := byteAt b 1, host := byteAt b 2, dpb := byteAt b 3, lumaKps := leAt b 4 4 }
def encEnt (b : List Byte) : EncEnt :=
  { input := byteAt b 0, host := byteAt b 1, zone := byteAt b 2, main10 := (byteAt b 3).testBit 0, maxWidth := leAt b 4 2,
    maxHeight := leAt b 6 2, maxRate := leAt b 8 4 }
def partEnt (b : List Byte) : PartEnt :=
  { part := byteAt b 0, stks := byteAt b 1, grain := byteAt b 2, zeroAtLoad := (byteAt b 3).testBit 0, base := leAt b 4 8,
    size := leAt b 12 8, zone := byteAt b 20 }
def ringEnt (b : List Byte) : RingEnt := { host := byteAt b 0, zone := byteAt b 1, maxLog2 := byteAt b 2 }
def accEnt (b : List Byte) : AccEnt :=
  { master := leAt b 0 2, region := byteAt b 2, read := (byteAt b 3).testBit 0, write := (byteAt b 3).testBit 1,
    lock := (byteAt b 3).testBit 2, base := leAt b 4 8, size := leAt b 12 8 }
def freshEnt (b : List Byte) : FreshEnt :=
  { head := byteAt b 0, source := byteAt b 1, limit := leAt b 2 2, floor := leAt b 4 2, ceiling := leAt b 6 2 }
def panelEnt (b : List Byte) : PanelEnt :=
  { panel := byteAt b 0, port := byteAt b 1, head := byteAt b 2, host := byteAt b 3, cols := byteAt b 4, rows := byteAt b 5,
    maxKeys := leAt b 6 2, maxContacts := byteAt b 8, zone := byteAt b 9, reportHz := leAt b 10 2, ageLimit := leAt b 12 2,
    maxContactS := leAt b 14 2 }
/-- A ZONE_PLAN entry (R50). No register, event or record carries its ZONE_TAG, so it is kept and reported nowhere (DESIGN CHOICE, log 74). -/
def zoneEnt (b : List Byte) : ZoneEnt := { zone := byteAt b 0, allowed := (byteAt b 1).testBit 0, tag := leAt b 4 4 }

/-! ### Check 7: records (R33, R34) -/

def planTypes : List Nat := (List.range 14).map (· + 1)
/-- Records that must stand once. -/
def requiredTypes : List Nat := (List.range 12).map (· + 1)

/-- The length that the definition of a record gives its body. -/
def bodyLength (typ : Nat) (b : List Byte) : Bool :=
  let n := b.length
  match typ with
  | 0x01 => n == 512
  | 0x02 => decide (4 ≤ n) && n == 4 + 24 * byteAt b 0
  | 0x03 => n == 128
  | 0x04 => n == 384
  | 0x05 => decide (4 ≤ n) && n == 4 + 16 * leAt b 0 2
  | 0x06 => decide (8 ≤ n) && n == 8 + 8 * leAt b 4 2
  | 0x07 => n == 132
  | 0x08 => decide (16 ≤ n) && n == 16 + 24 * byteAt b 0
  | 0x09 => n == 1024
  | 0x0A => decide (4 ≤ n) && n == 4 + 24 * leAt b 0 2
  | 0x0B => decide (20 ≤ n) && n == 20 + 8 * leAt b 16 2
  | 0x0C => decide (4 ≤ n) && n == 4 + 16 * byteAt b 0
  | 0x0D => n == 8
  | 0x0E => decide (4 ≤ n) && n == 4 + 8 * byteAt b 0
  | 0x100 => decide (128 ≤ n ∧ n ≤ 96 * 1048576)
  | _ => true

/-- A record is of a known type, not given before, and of its length. -/
def recordOk (rs : List Rec) (r : Rec) : Bool :=
  decide (0x8000 ≤ r.typ) ||
  ((planTypes.contains r.typ || r.typ == 0x100) && bodyLength r.typ r.body &&
    rs.all fun q => decide (r.idx ≤ q.idx) || q.typ != r.typ)

/-! ### Check 9: ranges -/

/-- DEDUCED, log 63. -/
def zoneOk (z : Nat) : Bool := decide (z < 8) || z == 0xFF
def within (lo hi v : Nat) : Bool := decide (lo ≤ v) && decide (v ≤ hi)

def portOk (b : List Byte) : Bool :=
  let e := portEnt b
  decide (e.role < 4) && decide (e.rate < 4) && zoneOk e.zone && byteAt b 3 == 0 && leAt b 6 2 == 0 &&
  (if e.role = 1 then within 1 1000 e.holdCap else e.holdCap == 0)
/-- DEDUCED, log 63. -/
def headRange (b : List Byte) : Bool :=
  let e := headEnt b
  decide (e.head < 48) && decide (e.primary < 64) && (e.secondary == 0xFF || (e.secondary == e.primary + 1 && e.primary % 2 == 0)) &&
  decide (e.group < 8) && (e.bits == 8 || e.bits == 10) && within 1 32 e.maxDepth && decide (byteAt b 14 < 8) && zoneOk e.zone &&
  zeros (slice b 16 8)
def cadRange (b : List Byte) : Bool :=
  let e := cadEnt b
  decide (byteAt b 0 < 2) && zoneOk e.zone && leAt b 2 2 == 0 && (!e.enable || (decide (1 ≤ e.rateMin) && decide (e.rateMin ≤ e.rateMax)))
def unitRange (b : List Byte) : Bool :=
  let e := unitEnt b
  (decide (e.owner < 48) || e.owner == 0xFE || e.owner == 0xFF) && zoneOk e.zone
def srcRange (b : List Byte) : Bool :=
  let e := srcEnt b
  let at_ : Bool := match e.kind with
    | 0 => decide (e.attach < 64) | 1 => decide (e.attach < 64) | 2 => decide (e.attach < 4) | 4 => decide (e.attach < 48)
    | _ => e.attach == 0xFF
  decide (e.source < 128) && decide (e.kind < 6) && at_ && within 2 16 e.buffers && decide (e.store < 3) && zoneOk e.zone &&
  decide (e.partition < 16) && zeros (slice b 11 5)
/-- R40, R197; `srcs` are the entries of SOURCE_PLAN. -/
def streamRange (srcs : List SrcEnt) (b : List Byte) : Bool :=
  let e := streamEnt b
  decide (e.source < 128) && decide (e.codec < 2) && decide (e.host < 4) && within 1 16 e.dpb && decide (e.lumaKps ≤ 497664) &&
  (match srcs.find? fun q => q.source == e.source with | some q => decide (e.dpb < q.buffers) | _ => true)
def encRange (b : List Byte) : Bool :=
  let e := encEnt b
  (decide (e.input < 128) || e.input == 0xFF) && decide (e.host < 4) && zoneOk e.zone && decide (byteAt b 3 < 2) && leAt b 12 4 == 0
def partRange (b : List Byte) : Bool :=
  let e := partEnt b
  within 1 15 e.part && within 1 3 e.stks && within 8 16 e.grain && decide (byteAt b 3 < 2) && e.base % 1048576 == 0 &&
  e.size % 1048576 == 0 && zoneOk e.zone && zeros (slice b 21 3)
/-- DEDUCED, log 63. -/
def ringRange (b : List Byte) : Bool :=
  let e := ringEnt b
  (decide (e.host < 4) || e.host == 0xFF) && zoneOk e.zone && within 6 16 e.maxLog2 && byteAt b 3 == 0
def accRange (b : List Byte) : Bool :=
  let e := accEnt b
  decide (e.master < 154) && decide (e.region < 32) && decide (byteAt b 3 < 8) && e.base % 64 == 0 && e.size % 64 == 0 && leAt b 20 4 == 0
def limitRange (limit floor ceiling : Nat) : Bool :=
  within 1 2000 limit && decide (1 ≤ floor) && decide (ceiling ≤ 2000) && decide (floor ≤ limit) && decide (limit ≤ ceiling)
def freshRange (b : List Byte) : Bool :=
  let e := freshEnt b
  (decide (e.head < 48) || e.head == 0xFF) && (decide (e.source < 128) || e.source == 0xFF) && limitRange e.limit e.floor e.ceiling
def panelRange (b : List Byte) : Bool :=
  let e := panelEnt b
  decide (e.panel < 48) && decide (e.port < 64) && (decide (e.head < 48) || e.head == 0xFF) && decide (e.host < 4) &&
  within 1 128 e.cols && within 1 80 e.rows && decide (e.maxKeys ≤ 256) && within 1 10 e.maxContacts && zoneOk e.zone &&
  within 1 240 e.reportHz && within 1 1000 e.ageLimit && within 1 2000 e.maxContactS
def zoneRange (b : List Byte) : Bool := decide (byteAt b 0 < 8) && decide (byteAt b 1 < 2) && leAt b 2 2 == 0

/-- Every field of a record lies in its range, every reserved field is 0 (R64 check 9). -/
def recRange (srcs : List SrcEnt) (r : Rec) : Bool :=
  let b := r.body
  match r.typ with
  | 0x01 => (ents b 0 8 64).all portOk
  | 0x02 => decide (byteAt b 0 ≤ 48) && zeros (slice b 1 3) && (ents b 4 24 (byteAt b 0)).all headRange
  | 0x03 => (ents b 0 16 8).all cadRange
  | 0x04 => (ents b 0 2 192).all unitRange
  | 0x05 => decide (leAt b 0 2 ≤ 128) && leAt b 2 2 == 0 && (ents b 4 16 (leAt b 0 2)).all srcRange
  | 0x06 => decide (leAt b 0 4 < 2 ^ 24) && decide (leAt b 4 2 ≤ 128) && leAt b 6 2 == 0 && (ents b 8 8 (leAt b 4 2)).all (streamRange srcs)
  | 0x07 => zeros (slice b 1 3) && (List.range 8).all fun i => !(byteAt b 0).testBit i || encRange (slice b (4 + 16 * i) 16)
  | 0x08 => within 1 15 (byteAt b 0) && zeros (slice b 1 3) && (ents b 16 24 (byteAt b 0)).all partRange
  | 0x09 => (ents b 0 4 256).all ringRange
  | 0x0A => leAt b 2 2 == 0 && (ents b 4 24 (leAt b 0 2)).all accRange
  | 0x0B => limitRange (leAt b 0 2) (leAt b 2 2) (leAt b 4 2) && leAt b 6 2 == 0 && byteAt b 11 == 0 && byteAt b 15 == 0 &&
      decide (leAt b 16 2 ≤ 1024) && leAt b 18 2 == 0 && (ents b 20 8 (leAt b 16 2)).all freshRange
  | 0x0C => decide (byteAt b 0 ≤ 48) && zeros (slice b 1 3) && (ents b 4 16 (byteAt b 0)).all panelRange
  | 0x0D => decide (byteAt b 2 < 64) && (decide (byteAt b 3 < 64) || byteAt b 3 == 0xFF) && decide (byteAt b 4 < 2) && zeros (slice b 5 3)
  | 0x0E => decide (byteAt b 0 ≤ 8) && zeros (slice b 1 3) && (ents b 4 8 (byteAt b 0)).all zoneRange
  | 0x100 => leAt b 2 2 == 0 && leAt b 52 4 == 0
  | _ => true

/-! ### The plan of a container -/

def bodyOf (rs : List Rec) (typ : Nat) : List Byte := ((rs.find? fun r => r.typ == typ).map Rec.body).getD []

/-- The structure that the plan records give. -/
def planOf (rs : List Rec) : Plan :=
  let b := bodyOf rs
  { loaded := true
    ports := (ents (b 1) 0 8 64).map portEnt
    heads := (ents (b 2) 4 24 (byteAt (b 2) 0)).map headEnt
    cadence := (ents (b 3) 0 16 8).map cadEnt
    units := (ents (b 4) 0 2 192).map unitEnt
    sources := (ents (b 5) 4 16 (leAt (b 5) 0 2)).map srcEnt
    decMask := leAt (b 6) 0 4
    streams := (ents (b 6) 8 8 (leAt (b 6) 4 2)).map streamEnt
    encMask := byteAt (b 7) 0
    encs := (ents (b 7) 4 16 8).map encEnt
    traffic := leAt (b 8) 4 4
    traffic0 := leAt (b 8) 8 4
    traffic1 := leAt (b 8) 12 4
    parts := (ents (b 8) 16 24 (byteAt (b 8) 0)).map partEnt
    rings := (ents (b 9) 0 4 256).map ringEnt
    access := (ents (b 10) 4 24 (leAt (b 10) 0 2)).map accEnt
    freshLimit := leAt (b 11) 0 2
    freshFloor := leAt (b 11) 2 2
    freshCeiling := leAt (b 11) 4 2
    staleColour := leAt (b 11) 8 4
    degradedColour := leAt (b 11) 12 4
    fresh := (ents (b 11) 20 8 (leAt (b 11) 16 2)).map freshEnt
    panels := (ents (b 12) 4 16 (byteAt (b 12) 0)).map panelEnt
    tandem := if (b 13).isEmpty then none else
      some { pairId := leAt (b 13) 0 2, portA := byteAt (b 13) 2, portB := byteAt (b 13) 3, preferred := byteAt (b 13) 4 }
    zones := (ents (b 14) 4 8 (byteAt (b 14) 0)).map zoneEnt }

/-! ### Check 10: conflicts and references -/

/-- No value twice. -/
def distinctN (l : List Nat) : Bool := l.eraseDups.length == l.length

/-- Ranges of bytes apart. -/
def apart (a an b bn : Nat) : Bool := decide (a + an ≤ b) || decide (b + bn ≤ a)

/-- Every two members of a list satisfy a relation. -/
def pairwise {α : Type} (f : α → α → Bool) : List α → Bool
  | [] => true
  | x :: xs => xs.all (f x) && pairwise f xs

def HeadEnt.portList (e : HeadEnt) : List Nat := [e.primary] ++ (if e.secondary = 0xFF then [] else [e.secondary])

/-- The footprints in a pseudo-channel of a stack, in bytes, staging partition included (spec/05 R141, R142). -/
def Plan.footprints (p : Plan) (stk : Nat) : Nat :=
  (p.parts.map fun e => if e.stks = 3 then e.size / 64 else if e.stks.testBit stk then e.size / 32 else 0).sum + 0x08000000 / 64

/-- What check 10 asks of each plan record, by its TYPE (DEDUCED, log 63). -/
def Plan.conflicts (p : Plan) : List (Nat × Bool) :=
  let head (h : Nat) : Bool := (p.head h).isSome
  let isPart (n : Nat) : Bool := n == 0 || (p.part n).isSome
  [(2, distinctN (p.heads.map HeadEnt.head) && distinctN (p.heads.flatMap HeadEnt.portList) &&
      p.heads.all fun e => e.portList.all (fun n => p.role n == 1) && (p.cad e.group).isSome),
   (4, p.units.all fun u => decide (48 ≤ u.owner) || head u.owner),
   (5, distinctN (p.sources.map SrcEnt.source) &&
      distinctN ((p.sources.filter fun e => decide (e.kind < 2)).map SrcEnt.attach) &&
      p.sources.all fun e => isPart e.partition && (match e.kind with
        | 0 => p.role e.attach == 2
        | 1 => p.role e.attach == 2
        | 4 => (match p.head e.attach with | some h => h.writeback | _ => false)
        | _ => true)),
   (6, distinctN (p.streams.map StreamEnt.source) &&
      p.streams.all fun e => match p.source e.source with | some q => q.kind == 3 | _ => false),
   (7, (List.range 8).all fun c => match p.enc c with | some e => e.input == 0xFF || (p.source e.input).isSome | _ => true),
   (8, distinctN (p.parts.map PartEnt.part) && pairwise (fun a b => apart a.base a.size b.base b.size) p.parts &&
      p.parts.all (fun e => apart e.base e.size 0 0x08000000) &&
      decide (p.footprints 0 ≤ 768 * 1048576) && decide (p.footprints 1 ≤ 768 * 1048576)),
   (10, distinctN (p.access.map fun e => e.master * 32 + e.region)),
   (11, p.fresh.all fun e => (e.head == 0xFF || head e.head) && (e.source == 0xFF || (p.source e.source).isSome)),
   (12, distinctN (p.panels.map PanelEnt.panel) && distinctN (p.panels.map PanelEnt.port) &&
      p.panels.all fun e => p.role e.port == 1 && (e.head == 0xFF || head e.head)),
   (13, match p.tandem with
      | some t => t.portA != t.portB && p.role t.portA == 3 && (t.portB == 0xFF || p.role t.portB == 3)
      | _ => true),
   (14, distinctN (p.zones.map ZoneEnt.zone))]

/-! ### Checks 11 to 14 -/

/-- Every zone is closed (R52). -/
def Plan.closed (p : Plan) : Bool :=
  let portZone (n : Nat) : Nat := ((p.port n).map PortEnt.zone).getD 0xFF
  let cadZone (g : Nat) : Nat := ((p.cad g).map CadEnt.zone).getD 0xFF
  p.heads.all (fun e =>
    (e.zone == 0xFF || (e.portList.all (fun n => portZone n == e.zone) &&
      p.units.all fun u => u.owner != e.head || u.zone == e.zone)) &&
    (cadZone e.group == 0xFF || cadZone e.group == e.zone)) &&
  p.panels.all fun e => e.zone == 0xFF || e.zone == portZone e.port

/-- A head's largest frame fits the payload of four lanes of each of its ports (R65, R406). -/
def Plan.headFits (p : Plan) (e : HeadEnt) : Bool :=
  let m : ModeSt := { hact := e.maxWidth, hfp := 0, hsync := 0, hbp := 0, vact := e.maxHeight, vfp := 0, vsync := 0, vbp := 0,
                      flags := if e.bits = 10 then 4 else 0, phase := 0 }
  let t := (e.maxHeight + 16) * e.minLinePs
  let bytes := frameBytes m (e.portWidth m) (cdiv t 1000000000)
  e.portList.all fun n =>
    let rate := (((p.port n).map PortEnt.rate).getD 0 + 1) * 4
    -- bits × 1.01 over t ps against 4 lanes × rate Gb/s × 15 / 16
    decide (bytes * 8 * 101 * 16 * 1000 ≤ 4 * rate * 15 * t * 100)

/-- Active pixels a second of all heads at their largest modes, as a fraction (R65): MAX_WIDTH over MIN_LINE_PS, summed. -/
def Plan.pixelRate (p : Plan) : Nat × Nat :=
  p.heads.foldl (fun q e => (q.1 * e.minLinePs + e.maxWidth * 10 ^ 12 * q.2, q.2 * e.minLinePs)) (0, 1)
/-- Capacity (R65). -/
def Plan.capacity (p : Plan) : Bool :=
  decide ((p.heads.map fun e => tileCount e.maxWidth e.maxHeight).sum ≤ 131072) &&
  decide ((p.heads.map fun e => 3 * 16 * e.maxWidth * 4).sum ≤ 32 * 1048576) &&
  p.heads.all (fun e => decide (0 < e.minLinePs)) &&
  decide (p.pixelRate.1 ≤ 40 * 10 ^ 9 * p.pixelRate.2) &&
  p.heads.all p.headFits &&
  decide ((p.streams.map StreamEnt.lumaKps).sum ≤ 497664 * ((List.range 24).filter fun c => p.decMask.testBit c).length) &&
  p.panels.all (fun e => decide (e.cols * e.rows ≤ 10240)) &&
  decide ((p.panels.map fun e => e.cols * e.rows).sum ≤ 196608) &&
  (List.range 154).all fun m =>
    let es := p.access.filter fun e => e.master == m
    decide (es.length ≤ 32) && pairwise (fun a b => apart a.base a.size b.base b.size) es

/-- Deadline (R66): MAX_WIDTH × 16 × MAX_DEPTH samples at 0.8 Gsample/s a unit, within 90 % of 16 × MIN_LINE_PS. -/
def Plan.deadline (p : Plan) : Bool :=
  p.heads.all fun e =>
    let units := (p.units.filter fun u => u.owner == e.head).length
    decide (e.maxWidth * 16 * e.maxDepth * 1250 * 10 ≤ 9 * 16 * e.minLinePs * units)

/-- Bandwidth (R25). -/
def Plan.bandwidth (p : Plan) : Bool := decide (p.traffic ≤ 1146880 ∧ p.traffic0 ≤ 573440 ∧ p.traffic1 ≤ 573440)

/-! ### The checks in order (R64) -/

/-- A container that passed: its structure, STRUCTURE_HASH, SEQUENCE, whether its image is used, the record of a discarded one. -/
structure Loaded where
  plan : Plan
  hash : List Byte
  seq : Nat
  image : Bool
  discarded : Option Nat
  deriving DecidableEq, Repr

/-- What a check finds: a reason and a record of STRUCT_FAIL, or nothing. -/
abbrev Failure := Option (Nat × Nat)

def failIf (b : Bool) (reason rec : Nat) : Failure := if b then some (reason, rec) else none

/-- The first of several failures. -/
def firstFailure : List Failure → Failure
  | [] => none
  | some f :: _ => some f
  | none :: l => firstFailure l

/-- Checks 1 and 2. -/
def checkForm (d : List Byte) : Failure :=
  let total := leAt d 8 4
  firstFailure [
    failIf (d.length < 176 || slice d 0 4 != [0x56, 0x5A, 0x53, 0x42] || byteAt d 4 != 1 || leAt d 6 2 != 176) 1 0xFFFF,
    failIf (decide (d.length < total) || decide (134217728 < total) || decide (total < 272) ||
      (walkRecs (leAt d 62 2) 0 (slice d 176 (total - 272))).isNone) 2 0xFFFF]

def containerRecs (d : List Byte) : List Rec := (walkRecs (leAt d 62 2) 0 (slice d 176 (leAt d 8 4 - 272))).getD []

/-- Checks 3 to 6 (R60, R63); `life` 0 is DEVELOPMENT. The Efrix development key is known by its hash, in whatever slot (PRESUMED, log 44). -/
def checkTrust (o : OtpSt) (life : Nat) (d : List Byte) : Failure :=
  let total := leAt d 8 4
  let k := byteAt d 60
  let key := slice d 80 96
  let hash := o.hashes.getD k []
  firstFailure [
    failIf (decide (3 < k) || hash.isEmpty || o.revoked.getD k false || sha384 key != hash) 3 0xFFFF,
    failIf (!ecdsaOk key (sha384 (d.take (total - 96))) (slice d (total - 96) 96)) 4 0xFFFF,
    failIf (decide (leAt d 64 4 < o.floor)) 5 0xFFFF,
    failIf (((byteAt d 61).testBit 0 || (o.devKey && hash == o.hashes.getD 0 [])) && life != 0) 6 0xFFFF]

/-- The plan records, each whole, in container order (R31). -/
def planBytes (rs : List Rec) : List Byte := (rs.filter fun r => planTypes.contains r.typ).flatMap Rec.whole

/-- Checks 7 and 8 (PRESUMED, log 44; DEDUCED, log 63). -/
def checkRecords (d : List Byte) : Failure :=
  let rs := containerRecs d
  firstFailure [
    failIf ((byteAt d 61).testBit 1) 7 0xFFFF,
    (rs.find? fun r => !recordOk rs r).map fun r => (7, r.idx),
    failIf (!requiredTypes.all fun t => rs.any fun r => r.typ == t) 7 0xFFFF,
    failIf (sha384 (planBytes rs) != slice d 12 48) 8 0xFFFF]

/-- Checks 9 to 14 (DEDUCED, log 63). -/
def checkPlan (d : List Byte) : Failure :=
  let rs := containerRecs d
  let p := planOf rs
  let recOf (t : Nat) : Nat := ((rs.find? fun r => r.typ == t).map Rec.idx).getD 0xFFFF
  firstFailure [
    failIf (decide (4 ≤ byteAt d 61) || byteAt d 71 != 0 || byteAt d 70 != 0 || leAt d 68 2 != 0x00B1) 9 0xFFFF,
    (rs.find? fun r => !recRange p.sources r).map fun r => (9, r.idx),
    (p.conflicts.find? fun c => !c.2).map fun c => (0x0A, recOf c.1),
    failIf (!p.closed) 0x0B 0xFFFF,
    failIf (!p.capacity) 0x0C 0xFFFF,
    failIf (!p.deadline) 0x0D 0xFFFF,
    failIf (!p.bandwidth) 0x0E 0xFFFF]

/-- Check 15 (R67): whether a FABRIC_IMAGE is used (DESIGN CHOICE, log 45). -/
def imageOk (d : List Byte) (r : Rec) : Bool :=
  leAt r.body 0 2 == 0x00B1 && slice r.body 4 48 == slice d 12 48 && Config.routesOk r.body (planBytes (containerRecs d))

/-- The checks of R64 on a container. -/
def checkContainer (o : OtpSt) (life : Nat) (d : List Byte) : (Nat × Nat) ⊕ Loaded :=
  match checkForm d with
  | some f => .inl f
  | none =>
    match checkTrust o life d with
    | some f => .inl f
    | none =>
      match checkRecords d with
      | some f => .inl f
      | none =>
        match checkPlan d with
        | some f => .inl f
        | none =>
          let rs := containerRecs d
          let img := rs.find? fun r => r.typ == 0x100
          .inr { plan := planOf rs, hash := slice d 12 48, seq := leAt d 64 4,
                 image := (match img with | some r => imageOk d r | none => false),
                 discarded := (match img with | some r => if imageOk d r then none else some r.idx | none => none) }

/-- The checks of a revocation order (R62): the reason of the first that fails. A container whose REVOKE flag is 0 fails with RECORDS
(DESIGN CHOICE, log 74). -/
def checkRevoke (o : OtpSt) (life arg : Nat) (d : List Byte) : Failure :=
  match checkForm d with
  | some f => some f
  | none =>
    match checkTrust o life d with
    | some f => some f
    | none =>
      let t := byteAt d 70
      let live (k : Nat) : Bool := !(o.hashes.getD k []).isEmpty && !o.revoked.getD k false
      firstFailure [
        failIf (!(byteAt d 61).testBit 1 || leAt d 62 2 != 0 || sha384 [] != slice d 12 48) 7 0xFFFF,
        failIf (decide (3 < t) || t != arg || t == byteAt d 60) 9 0xFFFF,
        failIf (!live t || !(List.range 4).any fun k => k != t && live k) 0x12 0xFFFF]

end Sys2Proof.Machine
end

