-- ==== Sys2Proof/Machine/Rerun.lean ====
section
/-! DEFINITION. The comparison of a re-run (spec/16 R528): recorded row checks against those of this unit's frames. -/

namespace Sys2Proof.Machine

def State.setRerun (s : State) (r : RerunSt) : State := { s with jrn := { s.jrn with rerun := some r } }

/-- Differences of a frame: counted, and RERUN_DIFF at the first of the frame, at most once a second (R528, R531). -/
def State.rerunDiff (s : State) (h frame row n : Nat) : State :=
  match s.jrn.rerun with
  | none => s
  | some r =>
    let s := s.onBus fun b => b.bump .rerunDiffRows 0 0 n
    let first : Bool := !r.bad.contains (h, frame)
    let r := { r with bad := if first then r.bad ++ [(h, frame)] else r.bad }
    let count := (r.diffEv.map Prod.snd).getD 0 + n
    let due : Bool := match r.diffEv with | none => true | some e => decide (e.1 + tickS ≤ s.ticks)
    if first && due then (s.setRerun { r with diffEv := some (s.ticks, 0) }).emit 0x3106 0 1 (pay [h, frame, row, count])
    else s.setRerun { r with diffEv := r.diffEv.map fun e => (e.1, count) }

/-- Recorded row checks against the frame's own: rows equal, differing, not comparable. -/
def State.rerunRows (s : State) (h frame first : Nat) (checks : List Nat) (own : List (Nat × Bool)) : State :=
  let ps := (checks.mapIdx fun i c => (first + i, c)).filterMap fun q => (own[q.1]?).map fun o => (q.1, q.2, o)
  let nc := ps.filter fun q => !q.2.2.2
  let eq := ps.filter fun q => q.2.2.2 && q.2.2.1 == q.2.1
  let df := ps.filter fun q => q.2.2.2 && q.2.2.1 != q.2.1
  let s := s.onBus fun b => (b.bump .rerunNc 0 0 nc.length).bump .rerunEqual 0 0 eq.length
  match df with
  | [] => s
  | q :: _ => s.rerunDiff h frame q.1 df.length

/-- The row checks of a frame of this unit: recorded ones that wait for them are compared. -/
def State.rerunOwn (s : State) (h frame port : Nat) (own : List (Nat × Bool)) : State :=
  match s.jrn.rerun with
  | none => s
  | some r =>
    let mine (q : Nat × Nat × Nat × Nat × List Nat) : Bool := q.1 == h && q.2.1 == frame && q.2.2.1 == port
    let s := s.setRerun { r with own := r.own ++ [(h, frame, port, own)], rows := r.rows.filter fun q => !mine q }
    forEach (r.rows.filter mine) (fun q s => s.rerunRows h frame q.2.2.2.1 q.2.2.2.2 own) s

/-- A recorded ROWCHK: compared now, or once the frame has ended. -/
def State.rerunRecorded (s : State) (h frame port first : Nat) (checks : List Nat) : State :=
  match s.jrn.rerun with
  | none => s
  | some r =>
    match r.own.find? fun q => q.1 == h && q.2.1 == frame && q.2.2.1 == port with
    | some q => s.rerunRows h frame first checks q.2.2.2
    | none => s.setRerun { r with rows := r.rows ++ [(h, frame, port, first, checks)] }

end Sys2Proof.Machine
end

