-- ==== Sys2Proof/Machine/Heads.lean ====
section
/-! DEFINITION. Heads (spec/10): lane checks, output states, the latch instant with commits, flips, sheds, write-back
conditions, mode changes and the start of a frame. -/

namespace Sys2Proof.Machine

/-- HEAD_STATUS.OUTPUT: 0 IDLE, 1 BLANK, 2 NOT_LIVE, 3 LIVE, 4 SAFE (R318). -/
def State.output (s : State) (h : Nat) : Nat := s.fld .headStatus h 0 0 3

/-- An event of a head: FRAME is valid in it (R335). -/
def State.headEvent (s : State) (h typ sev : Nat) (p : Payload) : State :=
  s.emitAt s.now (some (s.reg .headFrame h 0)) typ h sev p

/-- The head sends no more of its frame, and the witness checks nothing of it (R330, R318). -/
def State.stopSending (s : State) (h : Nat) : State :=
  let x := s.head h
  let s := s.setHead h { x with wit := [], frame := x.frame.map fun f => { f with sent := false } }
  forEach (((s.plan.head h).map HeadEnt.ports).getD []) (fun p s => s.frameCut p) s

/-- OUTPUT changes; leaving LIVE raises HEAD_NOT_LIVE (R318). -/
def State.setOutput (s : State) (h st cause : Nat) : State :=
  let old := s.output h
  let s := if st = 0 ∨ st = 4 then s.stopSending h else s
  let s := (s.setFld .headStatus h 0 0 3 st).setFld .headStatus h 0 4 2 cause
  let s := s.setFld .headStatus h 0 13 1 (b2n (st != 3))
  if old = 3 ∧ st ≠ 3 then s.headEvent h 0x1404 1 (pay [st, cause]) else s

/-- The ports of a head take the harmless state; one in SAFE by the witness or the island stays so (R298, R318). -/
def State.portsSafe (s : State) (e : HeadEnt) (reason : Nat) : State :=
  forEach e.ports (fun p s => if s.witSafe p then s else if reason < 2 then s.safeWire p reason else s.safe p reason) s

/-- SAFE_CAUSE of a head whose port is in SAFE by the witness or the island: 1 WITNESS, 3 ISLAND. -/
def State.witCause (s : State) (e : HeadEnt) : Nat := if e.ports.any fun p => (s.link p).safe == some 1 then 3 else 1

/-- OUTPUT enters SAFE (R318, R335): cause 1 WITNESS, 2 LANE, 3 ISLAND. -/
def State.headSafe (s : State) (h cause port : Nat) : State :=
  match s.plan.head h with
  | none => s
  | some e =>
    let s := s.setOutput h 4 cause
    let s := s.portsSafe e (match cause with | 1 => 0 | 2 => 2 | _ => 1)
    s.headEvent h 0x1407 2 (pay [cause, port, s.lanesOf e.primary])

/-- The guarantee that SAFE on a head gives up for rank 1 (spec/01 R27): 5 for a critical head, else 4 (DEDUCED, log 38). -/
def State.safeGives (s : State) (h : Nat) : Nat := if s.fld .headCtl h 0 4 1 = 1 then 5 else 4

/-! ### The lane check (R320) -/

/-- What the lane check gives: 1 full cadence, 2 half cadence, 3 SAFE (DEDUCED, log 28). -/
def State.laneCheck (s : State) (h : Nat) : Nat :=
  match s.plan.head h, (s.head h).mode with
  | some e, some m =>
    let rate := (s.reg .grpRate 0 e.group).toNat
    let fits (half : Bool) : Bool := e.ports.all fun p => loadFits m (e.portWidth m) rate (s.lanesOf p) (s.rateOf p) half
    if fits false then 1
    else if bit (s.reg .headCtl h 0) 0 ∧ e.degradedOk ∧ (e.ports.all fun p => 2 ≤ s.lanesOf p) ∧ fits true then 2
    else 3
  | _, _ => 3

/-- The head on a port follows a change of the port's lanes (R318, R320, R330 to R332). Before its first latch, and in SAFE by the witness
or the island, it keeps what the lane check gives for when it starts. -/
def State.headFollows (s : State) (p : Nat) : State :=
  match s.plan.headOfPort p with
  | none => s
  | some e =>
    let h := e.head
    let s := s.setFld .headStatus h 0 10 3 (s.lanesOf e.primary)
    let repair := e.ports.any fun q => s.portState q == 3
    let was := bit (s.reg .headStatus h 0) 9
    let s := s.setFld .headStatus h 0 9 1 (b2n repair)
    let out := s.output h
    let ready := e.ports.all fun q => s.portState q == 2
    if !s.isOn 0x14 h then s
    else if out = 0 ∨ out = 4 then
      if ready ∧ (s.head h).mode.isSome ∧ !(out == 4 && s.fld .headStatus h 0 4 2 == 2) then s.setHead h { s.head h with lane := s.laneCheck h } else s
    else if repair then s.stopSending h
    else if ready then
      if was then
        match s.laneCheck h with
        | 3 => (s.giveUp 0x14 h 1 4 0x1407 (some (s.reg .headFrame h 0))).headSafe h 2 p
        | r => s.setHead h { s.head h with lane := r }
      else s
    else (s.giveUp 0x14 h 1 4 0x1407 (some (s.reg .headFrame h 0))).headSafe h 2 p

/-- The thermal rank T that a step shows (spec/17 R546): 15 at step 3, down to 1 at step 17. -/
def thermalRank (step : Nat) : Nat := if step < 3 then 0 else if 17 ≤ step then 1 else 18 - step

/-- HEAD_START_READY (R319, R320): a STARTING head with an active mode and trained ports enters ON; COMPOSE and FRESH with it (DEDUCED, log 28). -/
def State.headStart (s : State) (h : Nat) : State :=
  match s.plan.head h with
  | none => s
  | some e =>
    let x := s.head h
    if s.fnState 0x14 h ≠ 1 ∨ x.mode.isNone ∨ !(e.ports.all fun p => s.portState p == 2) ∨ (s.reg .grpRate 0 e.group).toNat = 0 then s
    else
      let s := s.onBus fun b => ((b.enter 0x14 h 2).enter 0x12 h 2).enter 0x13 h 2
      let r := s.laneCheck h
      let phase := ((x.mode.map ModeSt.phase).getD 0)
      let k := s.firstK e.group (s.now - w32 phase) 1
      let s := s.setHead h { s.head h with
        lane := r, fresh := true, blanks := 0, skip := false, k := k, next := some (s.instant e.group k + w32 phase),
        cad := some (s.reg .grpAnchor 0 e.group, s.reg .grpPhase 0 e.group, (s.reg .grpRate 0 e.group).toNat, phase),
        posTick := s.ticks, curHide := false, frame := none, baseline := true }
      let s := (s.setReg .headFrame h 0 0).setFld .headStatus h 0 10 3 (s.lanesOf e.primary)
      let s := s.setFld .headStatus h 0 13 1 1
      let s := s.setFld .composeStatus h 0 14 4 (thermalRank (s.fld .thmState 0 0 3 5))
      let units := (s.plan.units.filter fun u => u.owner == h).length - x.unitsOut.length
      let s := (s.setFld .composeStatus h 0 0 8 units).setFld .witStatus h 0 6 1 (b2n s.wdn.island)
      s.setFld .witStatus h 0 0 2 (if e.ports.any s.witSafe then 2 else 0)

/-! ### Ambient light (R327) -/

/-- A reading arrives: the four dwell runs go on or end. -/
def State.ambient (s : State) (h lux : Nat) : State :=
  let x := s.head h
  let s := s.setReg .headAmbient h 0 (w32 (lux + 65536))
  let lo := s.reg .headXAmbLow h 0
  let hi := s.reg .headXAmbHigh h 0
  let run (i : Nat) (b : Bool) : Option Nat := if b then some ((x.amb.getD i none).getD s.ticks) else none
  s.setHead h { x with ambTick := some s.ticks, ambSeen := true, ambDwell := s.fld .headXAmbDwell h 0 0 16 * tickMs,
                       amb := [run 0 (decide (bf lo 0 16 ≤ lux)), run 1 (decide (lux ≤ bf lo 16 16)),
                               run 2 (decide (bf hi 0 16 ≤ lux)), run 3 (decide (lux ≤ bf hi 16 16))] }

/-- AMBIENT_DWELL_MET: the bank steps at the next latch (R327); at most one step per dwell time, which is the one in force when the last
reading arrived (R333). -/
def State.dwellMet (s : State) (h : Nat) : State :=
  let x := s.head h
  let dwell := x.ambDwell
  let met (i : Nat) : Bool := match x.amb.getD i none with
    | some t => decide (t + dwell ≤ s.ticks)
    | none => false
  let b := x.bankNext.getD (s.fld .headStatus h 0 6 2)
  let early : Bool := match x.stepTick with | some t => decide (s.ticks < t + dwell) | none => false
  if !s.isOn 0x14 h ∨ bit (s.reg .headCtl h 0) 1 ∨ early then s
  else
    let go := if b = 0 ∧ met 0 then some 1 else if b = 1 ∧ met 2 then some 2
      else if b = 1 ∧ met 1 then some 0 else if b = 2 ∧ met 3 then some 1 else none
    match go with
    | some n => s.setHead h { x with bankNext := some n, stepTick := some s.ticks }
    | none => s

/-- AMBIENT_TIMEOUT (R327). -/
def State.ambientTimeout (s : State) (h : Nat) : State :=
  match (s.head h).ambTick with
  | none => s
  | some t =>
    if t + tickS ≤ s.ticks then
      (s.setFld .headAmbient h 0 16 1 0).setHead h { s.head h with ambTick := none, amb := [none, none, none, none] }
    else s

/-! ### Evaluation instants (spec/09 R267) -/

/-- Evaluation instant of tile row r of a frame. -/
def FrameSt.evalAt (f : FrameSt) (r : Nat) : Word :=
  f.time + w32 ((f.mode.vb + min (64 * (r + 1)) f.mode.vact) * f.linePs / 1000)

def FrameSt.rows (f : FrameSt) : Nat := cdiv f.mode.vact 64
def FrameSt.colsN (f : FrameSt) : Nat := cdiv f.mode.hact 64
def FrameSt.strips (f : FrameSt) : Nat := cdiv f.mode.vact 16

/-- An age, a negative one counting as 0 (R268). -/
def ageAt (t cap : Word) : Nat := (max 0 (sdiff t cap)).toNat

/-! ### What the latch does -/

/-- What flipping decides for one layer: wants, ready, and why not (0 no new buffer, 1 fence, 2 group). -/
structure FlipSt where
  l : Nat
  cfg : LayerCfg
  wants : Bool
  ready : Bool
  reason : Nat
  buf : Option Nat
  deriving DecidableEq, Repr

/-- Source and buffer of a buffer tag (spec/06 R171). -/
def tagSrc (tag : Word) : Nat := bf tag 0 7
def tagBuf (tag : Word) : Nat := bf tag 7 4

/-- The buffer a layer shows. -/
def State.shown (s : State) (h l : Nat) : Option (Nat × Nat) :=
  if bit (s.reg .layerState h l) 0 then some (tagSrc (s.reg .layerTag h l), tagBuf (s.reg .layerTag h l)) else none

/-- A layer of the head other than l shows the buffer: the head holds it in any case, SHOWN_BY counting heads (R168). -/
def State.alsoShows (s : State) (h l n b : Nat) : Bool :=
  (List.range 32).any fun k => k != l && s.shown h k == some (n, b)

/-- A layer no longer shows its buffer, which the head releases unless another layer of it shows it. -/
def State.unshow (s : State) (h l : Nat) : State :=
  match s.shown h l with
  | none => s
  | some (n, b) =>
    ((if s.alsoShows h l n b then s else s.releaseBuf n b).setFld .layerState h l 0 1 0).setReg .layerTag h l 0

/-- The head latches a buffer for layer l (R168). -/
def State.showBuf (s : State) (h l n b : Nat) : State :=
  if s.alsoShows h l n b || s.shown h l == some (n, b) then s else s.holdBuf n b

/-- A layer has no render fence, or it is met; a met fence stays met (R250, spec/03 R107). -/
def State.layerFenceOk (s : State) (h l : Nat) : Bool :=
  match assocGet (s.head h).fences l with
  | some (o, v) => (s.head h).met.contains l || s.bus.fenceMet o v
  | none => true

/-- Whether a layer wants to flip at instant t and is ready (R246). -/
def State.flipState (s : State) (h l : Nat) (t : Word) : State × FlipSt :=
  let c := s.layer h l
  let x := s.head h
  if !c.enabled then (s, ⟨l, c, false, false, 0, none⟩)
  else
    let (s, cand) := if c.src = 0xFF then (s, none) else s.choose c.src t
    let tag := s.reg .layerTag h l
    let newer : Option Nat := match cand with
      | some b => if s.reg .srcBufTag c.src b = tag ∧ bit (s.reg .layerState h l) 0 then none else some b
      | none => none
    let newestDiffers := match (if c.src = 0xFF then none else s.newest c.src) with
      | some b => !(s.reg .srcBufTag c.src b == tag && bit (s.reg .layerState h l) 0)
      | none => false
    let wants := x.moved.testBit l || (!c.committed && newestDiffers) || (c.committed && x.flips.testBit l)
    (s, ⟨l, c, wants, newer.isSome && s.layerFenceOk h l, if newer.isNone then 0 else 1, newer⟩)

/-- A flip (R247, R250): the new buffer is latched, then the old one released. -/
def State.flip (s : State) (h : Nat) (f : FlipSt) : State :=
  match f.buf with
  | none => s
  | some b =>
    let again := s.shown h f.l == some (f.cfg.src, b)
    let s := s.showBuf h f.l f.cfg.src b
    let s := if again then s else s.unshow h f.l
    let s := (s.setReg .layerTag h f.l (s.reg .srcBufTag f.cfg.src b)).setFld .layerState h f.l 0 1 1
    let s := s.setFld .layerState h f.l 16 16 0
    let x := s.head h
    let off (m : Nat) : Nat := if m.testBit f.l then m - 2 ^ f.l else m
    s.setHead h { x with flips := off x.flips, moved := off x.moved, fences := assocDel x.fences f.l, met := delSet x.met f.l }

/-- A layer waits (R247, R266). -/
def State.deferred (s : State) (h : Nat) (f : FlipSt) (reason : Nat) : State :=
  let s := s.bump .composeNotReady h 0 1
  let x := s.head h
  let q := (assocGet x.deferEv f.l).getD (0, 0)
  let due := (assocGet x.deferEv f.l).isNone || decide (q.1 + 100 * tickMs ≤ s.ticks)
  let s := if reason = 1 ∧ s.fld .freshLayerState h f.l 0 2 = 3 then s.giveUp 0x12 h 1 6 0x1203 (some (s.reg .headFrame h 0)) else s
  if due then
    (s.setHead h { x with deferEv := assocSet x.deferEv f.l (s.ticks, 0) }).emit 0x1203 h 0 (pay [f.l, f.cfg.group, reason, q.2 + 1])
  else s.setHead h { x with deferEv := assocSet x.deferEv f.l (q.1, q.2 + 1) }

/-- The layers that flip at instant t, and those that wait (R246 to R248). -/
def State.doFlips (s : State) (h : Nat) (t : Word) : State × Nat × Nat :=
  let r : State × List FlipSt := (List.range (s.depth h)).foldl (fun acc l =>
    let q := acc.1.flipState h l t
    (q.1, acc.2 ++ [q.2])) (s, [])
  let fs := r.2
  let blocked (f : FlipSt) : Bool := f.cfg.group != 0 && fs.any fun g => g.cfg.group == f.cfg.group && g.wants && !g.ready
  fs.foldl (fun acc f =>
    if !f.wants then acc
    else if f.ready && !blocked f then (acc.1.flip h f, acc.2.1 + 2 ^ f.l, acc.2.2)
    else (acc.1.deferred h f (if f.ready then 2 else f.reason), acc.2.1, acc.2.2 + 2 ^ f.l)) (r.1, 0, 0)

/-- At basic level the FRONT banks of a head's layers are computed from their ratios, also where an expert level has ended since the last
latch (R235, R236, spec/03 R89). -/
def State.basicBanks (s : State) (h : Nat) : State :=
  if s.expert 0x12 h then s
  else forEach ((List.range (s.depth h)).filter fun l => (s.layer h l).dstW != 0) (fun l s =>
    let c := s.layer h l
    let bank : BankSt := { cropW := c.cropW, dstW := c.dstW, cropH := c.cropH, dstH := c.dstH, table := [] }
    s.setHead h { s.head h with banks := tabSet BankSt.init (s.head h).banks l bank }) s

/-- Commits performed before instant t apply (R241, R311): configurations, fences, banks, cursor image, flip requests (DEDUCED, log 28). -/
def State.applyCommits (s : State) (h : Nat) (t : Word) : State × List CommitSt :=
  let x := s.head h
  let now := x.commits.filter fun c => decide (sdiff c.at_ t < 0)
  if now.isEmpty then (s, [])
  else
    let rest := x.commits.filter fun c => !decide (sdiff c.at_ t < 0)
    let p := now.foldl (fun p c => p.add c.pend) PendSt.init
    let mask := now.foldl (fun m c => m ||| c.mask) 0
    let s : State := p.layers.foldl (fun s q =>
      let old := s.layer h q.1
      let s := s.setLayer h q.1 q.2
      let y := s.head h
      let moved := if old.src ≠ q.2.src then y.moved ||| 2 ^ q.1 else y.moved
      let flips := if old.src ≠ q.2.src ∧ y.flips.testBit q.1 then y.flips - 2 ^ q.1 else y.flips
      s.setHead h { y with moved := moved, flips := flips }) s
    let y := s.head h
    let fences := p.fences.foldl (fun t q => if q.2.1 = 0xFFFF then assocDel t q.1 else assocSet t q.1 q.2) y.fences
    let banks := p.coeffs.foldl (fun b q =>
      let k := tabGet BankSt.init b.1 q.1
      (tabSet BankSt.init b.1 q.1 { k with table := q.2 }, tabSet BankSt.init b.2 q.1 k)) (y.banks, y.backs)
    let asks := (List.range (s.depth h)).foldl (fun m l =>
      if mask.testBit l && (s.layer h l).committed then m + 2 ^ l else m) 0
    let met := y.met.filter fun l => !(p.fences.any fun q => q.1 == l)
    let s := s.setHead h { y with commits := rest, fences := fences, met := met, banks := banks.1, backs := banks.2, flips := y.flips ||| asks,
                                  curFront := if p.cursor.isSome then p.cursor else y.curFront,
                                  curBack := if p.cursor.isSome then y.curFront else y.curBack }
    let s := match p.cursor with
      | some c => s.setReg .cursorSize h 0 (w32 (c.w + c.h * 256))
      | none => s
    (s.setFld .composeStatus h 0 18 1 (b2n (!rest.isEmpty)), now)

/-- Limits and policies performed before instant t apply; every layer's limit in force is settled for its SOURCE (R273, R275). -/
def State.applyFresh (s : State) (h : Nat) (t : Word) : State :=
  let x := s.head h
  let due (w : Word) : Bool := decide (sdiff w t < 0)
  let fixed := (x.limits.filter fun q => due q.1).foldl (fun t q =>
    if q.2.2.2 then assocDel t q.2.1 else assocSet t q.2.1 q.2.2.1) x.fixed
  let s := (x.policies.filter fun q => due q.1).foldl (fun s q => s.setReg .freshLayerPolicy h q.2.1 (w32 q.2.2)) s
  let s := s.setHead h { x with limits := x.limits.filter (fun q => !due q.1), policies := x.policies.filter (fun q => !due q.1),
                                fixed := fixed }
  forEach (List.range (s.depth h)) (fun l s =>
    let f := s.plan.freshFor h (s.layer h l).src
    match assocGet fixed l with
    | some ms => s.setReg .freshLayerLimit h l (w32 (max f.2.1 (min f.2.2 ms)))
    | none => s.setReg .freshLayerLimit h l (w32 (f.1 + 0x8000))) s

/-- LUT loads entered before instant t apply, and the bank steps or is fixed (R311, R327, R328). -/
def State.applyLuts (s : State) (h : Nat) (t : Word) : State :=
  let x := s.head h
  let now := x.lutLoads.filter fun q => decide (sdiff q.at_ t < 0)
  let s := s.setHead h { x with lutLoads := x.lutLoads.filter fun q => !decide (sdiff q.at_ t < 0) }
  let s := now.foldl (fun s q =>
    let y := s.head h
    (s.setHead h { y with luts := tabSet [] y.luts q.bank q.table }).headEvent h 0x1409 0 (pay [q.bank, q.tag])) s
  let old := s.fld .headStatus h 0 6 2
  let ctl := s.reg .headCtl h 0
  let new := if bit ctl 1 then bf ctl 2 2 else if !(s.head h).ambSeen then 0 else (s.head h).bankNext.getD old
  let s := s.setHead h { s.head h with bankNext := none }
  if new = old then s
  else (s.setFld .headStatus h 0 6 2 new).headEvent h 0x1408 0 (pay [old, new, s.fld .headAmbient h 0 0 16])

/-- A STRIP record (spec/16 R500). -/
def State.stripRec (s : State) (h strip action cause layers bitmap : Nat) : State :=
  s.journal 3 0x12 h (le 4 (s.reg .headFrame h 0).toNat ++ le 2 strip ++ le 1 action ++ le 1 cause ++ le 4 layers ++ le 16 bitmap)

/-- COMPOSE_SHED_MASK, SHED_COUNT and LAYER_STATE.SHED follow the sheds. -/
def State.showSheds (s : State) (h : Nat) : State :=
  let x := s.head h
  let m := (List.range 32).filter fun l => x.dShed.contains l || x.tShed.contains l
  let s := s.setReg .composeShedMask h 0 (w32 (m.foldl (fun v l => v + 2 ^ l) 0))
  let s := s.setFld .composeStatus h 0 8 6 m.length
  forEach (List.range 32) (fun l s => s.setFld .layerState h l 1 1 (b2n (m.contains l))) s

/-- A layer is shed or restored (R260): cause 0 deadline, 1 thermal. -/
def State.shedNote (s : State) (h l strip cause : Nat) (shed : Bool) : State :=
  let s := s.stripRec h strip (if shed then 1 else 2) cause (2 ^ l) 0
  if shed then (s.bump .composeShedEvents h 0 1).emit 0x1201 h 1 (pay [l, strip, cause])
  else s.emit 0x1202 h 0 (pay [l, cause])

/-- Thermal sheds and restores at a latch (R259), then at most one deadline restore (R258). -/
def State.latchSheds (s : State) (h : Nat) : State :=
  if !s.chooses then (s.setFld .composeStatus h 0 19 1 (b2n (!(s.head h).unitsOut.isEmpty))).showSheds h
  else
  let t := s.fld .composeStatus h 0 14 4
  let layers := (List.range (s.depth h)).filter fun l => (s.layer h l).enabled
  let want := if t = 0 then [] else layers.filter fun l => t ≤ (s.layer h l).rank
  let x := s.head h
  let add := want.filter fun l => !x.tShed.contains l
  let del := x.tShed.filter fun l => !want.contains l
  let s := s.setHead h { x with tShed := want }
  let s := forEach add (fun l s => s.shedNote h l 0 1 true) s
  let s := forEach del (fun l s => if x.dShed.contains l then s else s.shedNote h l 0 1 false) s
  let x := s.head h
  let good := (x.frame.map FrameSt.restFrames).getD (s.fld .composeXShed h 0 16 4) ≤ x.goodFrames ∧ x.unitsOut = []
  let cand := x.dShed.filter fun l => !x.tShed.contains l
  let best := cand.foldl (fun b l =>
    match b with
    | none => some l
    | some q => if (s.layer h l).rank < (s.layer h q).rank ∨ ((s.layer h l).rank = (s.layer h q).rank ∧ l < q) then some l else some q)
    (none : Option Nat)
  let s := match best with
    | some l => if decide good then
        (s.setHead h { x with dShed := delSet x.dShed l }).shedNote h l 0 0 false else s
    | none => s
  let s := s.setFld .composeStatus h 0 19 1 (b2n (!x.unitsOut.isEmpty))
  s.showSheds h

/-- One layer as latched for the frame (R243, R271 to R274). -/
def State.latchLayer (s : State) (h l : Nat) : State × LatLayer :=
  let c := s.layer h l
  let sh := s.shown h l
  let n := (sh.map Prod.fst).getD 0
  let b := (sh.map Prod.snd).getD 0
  let g := s.geo n
  let limit := s.fld .freshLayerLimit h l 0 11
  let pol := s.reg .freshLayerPolicy h l
  let run := if c.src = 0xFF then 0 else (s.reg .srcSameRun c.src 0).toNat
  let frozen := bf pol 0 8 ≠ 0 ∧ bf pol 0 8 ≤ run ∧ bf pol 8 2 ≠ 0
  let was := bit (s.reg .freshLayerState h l) 2
  let s := s.setFld .freshLayerState h l 2 1 (b2n (decide frozen))
  let s := if frozen ∧ !was then s.emit 0x130A h 1 (pay [l, c.src, run, bf pol 8 2]) else s
  let doubt := sh.isSome && bit (s.reg .srcState n 0) 2
  let s := s.setFld .freshLayerState h l 3 1 (b2n doubt)
  let cap := s.reg .srcBufTime n b
  let s := if sh.isSome then s.setReg .freshLayerExpiry h l (cap + w32 (limit * 1000000)) else s
  let outside := sh.isSome && c.enabled && decide (g.w < c.cropX + c.cropW ∨ g.h < c.cropY + c.cropH)
  let s := s.setFld .layerState h l 4 1 (b2n outside)
  let s := if outside then s.emit 0x1208 h 1 (pay [l, (s.reg .layerTag h l).toNat, g.w, g.h]) else s
  (s, { l := l, cfg := c, valid := sh.isSome, src := n, buf := b, tag := (s.reg .layerTag h l).toNat, cap := cap,
        limit := limit * 1000000, doubt := doubt, degraded := sh.isSome && bit (s.reg .srcBufState n b) 4,
        freeze := if frozen then bf pol 8 2 else 0, das := bit pol 10, outside := outside, addr := s.bufAddr n b, w := g.w, h := g.h,
        fmt := g.fmt, store := g.store, bank := tabGet BankSt.init (s.head h).banks l })

/-- Every layer latched. -/
def State.latchLayers (s : State) (h : Nat) : State × List LatLayer :=
  (List.range (s.depth h)).foldl (fun acc l =>
    let q := acc.1.latchLayer h l
    (q.1, acc.2 ++ [q.2])) (s, [])

/-- Layers whose buffer reached 2,000 ms in the last frame release it (R272) (DEDUCED, log 29). -/
def State.releaseOld (s : State) (h : Nat) : State :=
  match (s.head h).frame with
  | none => s
  | some f =>
    forEach (List.range (s.depth h)) (fun l s =>
      match s.shown h l with
      | none => s
      | some (n, b) => if 2000000000 ≤ ageAt (f.evalAt (f.rows - 1)) (s.reg .srcBufTime n b) then s.unshow h l else s) s

/-- A head contributes to source n (R254): it has the WRITEBACK flag, is ON, and its COMPOSE_WB names the source. -/
def State.contributes (s : State) (o n : Nat) : Bool :=
  ((s.plan.head o).map HeadEnt.writeback).getD false && s.isOn 0x14 o && bit (s.reg .composeWb o 0) 0 && s.fld .composeWb o 0 8 7 == n

/-- A head that begins a frame at instant t contributes to a write-back source: the conditions of R254. -/
def State.wbFits (s : State) (h : Nat) (m : ModeSt) (t : Word) : Option (Nat × Nat × Nat × Bool) :=
  match s.plan.head h with
  | none => none
  | some e =>
    let wb := s.reg .composeWb h 0
    let n := bf wb 8 7
    if !bit wb 0 ∨ !e.writeback then none
    else
      let pos := s.reg .composeWbPos h 0
      let x := bf pos 0 16
      let y := bf pos 16 16
      let g := s.geo n
      let a := s.srcAttach n
      let same := (s.head a).next = some t ∨ ((s.head a).frame.map FrameSt.time) = some t
      let clash := (List.range 48).any fun o =>
        o != h && s.contributes o n &&
        (match (s.head o).mode with
         | some q =>
           let ox := s.fld .composeWbPos o 0 0 16
           let oy := s.fld .composeWbPos o 0 16 16
           decide (x < ox + q.hact ∧ ox < x + m.hact ∧ y < oy + q.vact ∧ oy < y + m.vact)
         | none => false)
      if s.srcKind n = 4 ∧ s.isOn 0x10 n ∧ (a = h ∨ (s.contributes a n ∧ same)) ∧
          x % 8 = 0 ∧ y % 4 = 0 ∧ x + m.hact ≤ g.w ∧ y + m.vact ≤ g.h ∧ !clash then some (n, x, y, bit wb 1)
      else none

/-- A write-back picture is abandoned (R256): reason 0 slot reused, 1 contributor failed, 2 rectangle refused (DEDUCED, log 26). -/
def State.wbDrop (s : State) (n reason : Nat) : State :=
  match s.wb n with
  | none => s
  | some w => ((s.setWb n none).cull n w.buf 1 w.alive w.time).emit 0x1206 (s.srcAttach n) 1 (pay [n, w.frame, reason])

/-- The ATTACH head's latch opens a write-back picture when its frame counter modulo DIV is 0 (R169, R254, R255) (DEDUCED, log 26). -/
def State.wbOpen (s : State) (h n : Nat) (t : Word) (frame : Nat) : State :=
  let div := max 1 (s.fld .composeWb h 0 4 4)
  if frame % div ≠ 0 then s
  else
    let s := s.wbDrop n 1
    let users := (List.range 48).filter fun o => s.contributes o n
    match s.freeBuf n (fun _ => true) with
    | none => s.poolEmpty n
    | some b =>
      let strips (o : Nat) : Nat := ((s.head o).mode.map fun m => cdiv m.vact 16).getD 1
      let s := s.moveBuf n b 1
      let s := s.setWb n (some { time := t, frame := frame, buf := b, alive := frame % 65535 + 1, since := s.ticks, doubts := (s.src n).doubts,
                                 wait := users.map fun o => (o, strips o), parts := [], degraded := false, writers := [] })
      if (s.src n).refused = some t then s.wbDrop n 2 else s

/-- A contributor fails the conditions of R254 at its latch instant t: the picture of that instant is incomplete, be it open already
or still to open; where the ATTACH head itself fails, none opens (R256, R266) (DEDUCED, log 26). -/
def State.wbRefuse (s : State) (h n : Nat) (t : Word) (frame : Nat) : State :=
  let s := s.setFld .composeStatus h 0 20 1 1
  if s.srcKind n ≠ 4 then s
  else
    match s.wb n with
    | some _ => s.wbDrop n 2
    | none =>
      if s.srcAttach n ≠ h then s.setSrc n { s.src n with refused := some t }
      else if frame % max 1 (s.fld .composeWb h 0 4 4) = 0 then s.emit 0x1206 h 1 (pay [n, frame, 2])
      else s

/-! ### Sending the start of a frame -/

/-- The columns, first pixel and width of port index i of a head (R329). -/
def HeadEnt.part (e : HeadEnt) (m : ModeSt) (i : Nat) : Nat × Nat :=
  if e.secondary = 0xFF then (0, m.hact) else (i * (m.hact / 2), m.hact / 2)

/-- The tile columns of port index i of a head: first and one past the last (R329). -/
def HeadEnt.cols (e : HeadEnt) (f : FrameSt) (i : Nat) : Nat × Nat :=
  let part := e.part f.mode i
  (part.1 / 64, cdiv (part.1 + part.2) 64)

/-- CONTROL MODE_CHANGE on every port, with HOLD_CAP after it (spec/13 R411); the harmless state ends. -/
def State.sendModeChange (s : State) (e : HeadEnt) (m : ModeSt) (half : Bool) (frame : Nat) : State :=
  let lp := (s.reg .headLinePs e.head 0).toNat
  (e.ports.mapIdx fun i p => (i, p)).foldl (fun s q =>
    let part := e.part m q.1
    let body := le 2 m.hact ++ le 2 m.hfp ++ le 2 m.hsync ++ le 2 m.hbp ++ le 2 m.vact ++ le 2 m.vfp ++ le 2 m.vsync ++ le 2 m.vbp ++
      le 1 (m.flags % 8 + 8 * b2n half) ++ le 1 0 ++ le 2 part.1 ++ le 2 part.2 ++ le 2 0 ++ le 4 lp ++ le 4 frame
    let s := if (s.link q.2).needEpoch then s.sendEpoch q.2 true else s
    (((s.endSafe q.2).setFld .portState q.2 0 15 1 0).control q.2 1 body).sendHold q.2) s

/-- FRAME_START on every port, opening the picture item (spec/13 R399, R402, R405). -/
def State.sendFrameStart (s : State) (e : HeadEnt) (f : FrameSt) : State × List (Nat × Nat) :=
  (e.ports.mapIdx fun i p => (i, p)).foldl (fun acc q =>
    let s := acc.1
    let part := e.part f.mode q.1
    let s := if (s.link q.2).needEpoch then s.sendEpoch q.2 true else s
    let s := if (s.link q.2).needHold then s.sendHold q.2 else s
    let x := s.link q.2
    let a := aliveNext ((assocGet x.tx 1).getD 0)
    let s := s.setLink q.2 { x with tx := assocSet x.tx 1 a }
    let body := le 4 f.num.toNat ++ le 2 part.1 ++ le 2 part.2 ++ le 2 f.mode.vact ++ le 1 (b2n f.blank + 2 * b2n f.half) ++
      le 1 (if f.mode.ten then 10 else 8) ++ le 4 s.epoch
    (s.sendItem q.2 0x02 0 1 a f.time body, acc.2 ++ [(q.2, a)])) (s, [])

/-- The port may carry frames: ACTIVE, of a unit that drives, its first STATUS seen or waited for (spec/16 R517, R580). -/
def State.mayShow (s : State) (p : Nat) : Bool :=
  s.portState p == 2 && s.drives && (s.link p).statusSeen && s.lifecycle != 2 && decide (s.fld .thmState 0 0 0 3 < 3)

/-- HALF_CADENCE and the degraded layers follow a change of cadence (R331, R335). -/
def State.setHalf (s : State) (e : HeadEnt) (half : Bool) : State :=
  let h := e.head
  let was := bit (s.reg .headStatus h 0) 3
  let s := if was ≠ half then s.headEvent h 0x1406 1 (pay [b2n half, s.lanesOf e.primary]) else s
  (s.setFld .headStatus h 0 3 1 (b2n half)).setFld .freshStatus h 0 2 1 (b2n half)

/-- The start of R315: MODE_CHANGE, two blank frames, events. -/
def State.startBlank (s : State) (e : HeadEnt) (m : ModeSt) (half : Bool) (frame tag : Nat) : State :=
  let h := e.head
  let s := s.setMode h m half
  let s := s.sendModeChange e m half frame
  let s := s.headEvent h 0x1402 0 (pay [m.hact, m.vact, (s.reg .headLinePs h 0).toNat, tag])
  let s := if s.output h = 3 then s else s.headEvent h 0x1404 1 (pay [1, 0])
  let s := s.setOutput h 1 0
  let s := s.setHalf e half
  s.setHead h { s.head h with blanks := 2, sinceMode := 0, rearm := false, lane := 0, fresh := false, baseline := true }

/-- A change of cadence without blank frames after a repair (R331). -/
def State.changeCadence (s : State) (e : HeadEnt) (m : ModeSt) (half : Bool) (frame : Nat) : State :=
  let h := e.head
  let s := (s.setMode h m half).sendModeChange e m half frame
  let s := s.setHalf e half
  s.setHead h { s.head h with lane := 0, baseline := true }

/-- A head whose output does not run takes a mode that applies, or the instants of its group, without sending: a MODE_COMMIT ends half
cadence (R317, R332), and before its first latch the lane check is made again for the mode (R320). -/
def State.modeUnseen (s : State) (e : HeadEnt) (m : ModeSt) (newMode : Option Nat) (moved : Bool) : State :=
  let h := e.head
  let half := bit (s.reg .headStatus h 0) 3
  if newMode.isSome then
    let s := (s.setMode h m false).setHalf e false
    s.setHead h { s.head h with lane := s.laneCheck h }
  else if moved then s.setMode h m half
  else s

/-- The output's transition at a latch instant (R309, R315 to R318, R331, R332). `newMode` a MODE_COMMIT applies,
`moved` the group's instants changed (DEDUCED, log 28). -/
def State.latchOutput (s : State) (e : HeadEnt) (m : ModeSt) (newMode : Option Nat) (moved : Bool) (frame : Nat) : State :=
  let h := e.head
  let cause := s.fld .headStatus h 0 4 2
  let ready := e.ports.all s.mayShow
  if (s.head h).fresh then
    let s := s.modeUnseen e m newMode moved
    let x := s.head h
    if e.ports.any s.witSafe ∧ !x.rearm then (s.setHead h { x with fresh := false }).headSafe h (s.witCause e) e.primary
    else if x.lane = 3 then (s.setHead h { x with fresh := false }).headSafe h 2 e.primary
    else if ready then s.startBlank e m (x.lane == 2) frame (newMode.getD 0)
    else s
  else if s.output h = 4 then
    if cause = 2 then
      match newMode with
      | some tag => if e.ports.all fun p => s.portState p == 2 then s.startBlank e m false frame tag else s.modeUnseen e m newMode moved
      | none => s.modeUnseen e m none moved
    else
      let s := s.modeUnseen e m newMode moved
      let x := s.head h
      let half := x.lane == 2 || (x.lane == 0 && bit (s.reg .headStatus h 0) 3 && e.ports.all fun p => 2 ≤ s.lanesOf p)
      if x.rearm ∧ x.lane = 3 then
        let s := e.ports.foldl (fun s p => s.setLink p { s.link p with safe := some 2 }) s
        (s.setHead h { x with rearm := false, witPrev := [] }).headSafe h 2 e.primary
      else if x.rearm ∧ ready then s.startBlank e m half frame (newMode.getD 0)
      else s
  else
    let x := s.head h
    let half := bit (s.reg .headStatus h 0) 3
    let begins (s : State) : State := if s.output h = 1 ∧ x.blanks = 0 then s.setOutput h 2 0 else s
    match newMode with
    | some tag => s.startBlank e m false frame tag
    | none =>
      if moved then s.startBlank e m half frame 0
      else if x.lane = 1 ∧ ready then begins (s.changeCadence e m false frame)
      else if x.lane = 2 ∧ ready then begins (s.changeCadence e m true frame)
      else begins s

/-- LATCH and LATCH_CONT records (spec/16 R500). -/
def State.latchRec (s : State) (h : Nat) (t : Word) (frame flipped waiting pos tag commits bank : Nat) : State :=
  let ent (l : Nat) : List Byte :=
    let w := s.reg .layerTag h l
    le 1 l ++ le 1 0 ++ le 2 (s.fld .srcBufAlive (tagSrc w) (tagBuf w) 0 16) ++ le 4 w.toNat
  let ls := (List.range 32).filter fun l => flipped.testBit l
  let s := s.journalAt t 1 0x14 h (le 4 frame ++ le 4 flipped ++ le 4 waiting ++ le 4 pos ++ le 4 tag ++ le 1 commits ++ le 1 bank ++
    le 1 (min 26 ls.length) ++ le 1 0 ++ (ls.take 26).flatMap ent)
  if ls.length ≤ 26 then s
  else s.journalAt t 2 0x14 h (le 4 frame ++ le 1 (ls.length - 26) ++ le 3 0 ++ (ls.drop 26).flatMap ent)

/-- The custom matrix in force: the identity at basic level (R229, R264). -/
def State.customMatrix (s : State) (h : Nat) : List Int :=
  if !s.expert 0x12 h then [4096, 0, 0, 0, 4096, 0, 0, 0, 4096, 0, 0, 0]
  else
    let c (r : FReg) (hi : Bool) : Int := sext 16 (s.fld r h 0 (if hi then 16 else 0) 16)
    [c .composeXM0 false, c .composeXM0 true, c .composeXM1 false, c .composeXM1 true, c .composeXM2 false, c .composeXM2 true,
     c .composeXM3 false, c .composeXM3 true, c .composeXM4 false, sext 13 (s.fld .composeXOfs0 h 0 0 13),
     sext 13 (s.fld .composeXOfs0 h 0 16 13), sext 13 (s.fld .composeXOfs1 h 0 0 13)]

/-- The next latch instant after `t` (R308, R309): the group's next frame instant, or, after a change, the first new one at
least one period later. A change met at an instant that half cadence passes over waits for the latch one old period on. -/
def State.nextLatch (s : State) (h g phase : Nat) (t : Word) (moved : Bool) : State :=
  let x := s.head h
  let cad := (s.reg .grpAnchor 0 g, s.reg .grpPhase 0 g, (s.reg .grpRate 0 g).toNat, phase)
  let late : Bool := match x.cad with | some c => decide (c ≠ cad) | none => false
  if !moved && late then
    s.setHead h { x with k := x.k + 1, next := some (t + w32 (framePs ((x.cad.map fun c => c.2.2.1).getD 1) / 1000)) }
  else
    let p := framePs (s.reg .grpRate 0 g).toNat / 1000
    let k := if moved then s.firstK g (t - w32 phase) p else x.k + 1
    s.setHead h { x with k := k, next := some (s.instant g k + w32 phase), cad := some cad }

/-- A frame latched at t may still be sent: a head of a HANDING_OVER sends none from HANDOVER_TIME on (spec/16 R525). -/
def State.beforeHandover (s : State) (t : Word) : Bool :=
  match s.tnd.handover with
  | some (_, _, w) => !atOrAfter t w
  | none => true

/-! ### Tiles, and tiles in doubt (spec/09 R270, R282 to R284) -/

/-- The tile columns of the head's run (spec/09 R284). -/
def State.tileCols (s : State) (h : Nat) : Nat := s.fld .freshCfg h 0 17 7

/-- A layer's destination clipped to the active area: its visible area (spec/09, before R276). -/
def FrameSt.area (f : FrameSt) (l : LatLayer) : Rect :=
  ⟨max 0 l.cfg.dstX, max 0 l.cfg.dstY, min f.mode.hact (l.cfg.dstX + l.cfg.dstW), min f.mode.vact (l.cfg.dstY + l.cfg.dstH)⟩

/-- A layer's visible area covers a pixel of tile (c, r) (R270). -/
def FrameSt.covers (f : FrameSt) (l : LatLayer) (c r : Nat) : Bool :=
  let a := f.area l
  decide (max a.x0 (64 * c : Nat) < min a.x1 (64 * c + 64 : Nat)) && decide (max a.y0 (64 * r : Nat) < min a.y1 (64 * r + 64 : Nat))

/-- The tiles a layer covers, as (column, row). -/
def FrameSt.coveredBy (f : FrameSt) (l : LatLayer) : List (Nat × Nat) :=
  ((List.range f.rows).flatMap fun r => (List.range f.colsN).map fun c => (c, r)).filter fun q => f.covers l q.1 q.2

/-- Change the frame in progress. -/
def State.setFrame (s : State) (h : Nat) (f : FrameSt) : State := s.setHead h { s.head h with frame := some f }

/-- A tile comes in doubt, once a frame: count, the 1 ms window. -/
def State.putDoubt (s : State) (h tile reason : Nat) : State :=
  match (s.head h).frame with
  | none => s
  | some f =>
    if f.doubts.any fun d => d.1 == tile then s
    else
      let s := (s.setFrame h { f with doubts := f.doubts ++ [(tile, reason)] }).bump .freshDoubtCount h 0 1
      let x := s.head h
      let win := match x.doubtWin with
        | none => (s.ticks, s.now, tile, reason, 1)
        | some (t, w, i, q, n) => (t, w, i, q, n + 1)
      s.setHead h { x with doubtWin := some win }

/-- Groups of n (R401). -/
def chunks {α : Type} (n : Nat) : Nat → List α → List (List α)
  | 0, _ => []
  | fuel + 1, l => if l.isEmpty then [] else l.take n :: chunks n fuel (l.drop n)

/-- Journal lists of records in runs of n (DEDUCED, log 29). -/
def State.recRuns (s : State) (n kind cap inst : Nat) (items : List (List Byte)) (hdr : Nat → Nat → List Byte) : State :=
  ((chunks n items.length items).mapIdx fun i c => (i, c)).foldl (fun s q =>
    s.journal kind cap inst (hdr (q.1 * n) q.2.length ++ q.2.flatten)) s

/-- DOUBT records of a frame (spec/16 R500), from (tile, reason). -/
def State.doubtRecs (s : State) (h : Nat) (num : Word) (ds : List (Nat × Nat)) : State :=
  s.recRuns 56 4 0x13 h (ds.map fun d => le 2 d.1 ++ le 1 d.2 ++ le 1 0) fun _ n => le 4 num.toNat ++ le 1 n ++ le 3 0

/-- Tiles come in doubt in the frame in progress, as (tile, reason): their DOUBT records are written before the doubt fill can leave
(spec/01 R21, spec/16 R500) (DEDUCED, log 29). -/
def State.noteDoubts (s : State) (h : Nat) (ds : List (Nat × Nat)) : State :=
  match (s.head h).frame with
  | none => s
  | some f =>
    let new := ds.filter fun d => !f.doubts.any fun q => q.1 == d.1
    forEach new (fun d s => s.putDoubt h d.1 d.2) (s.doubtRecs h f.num new)

/-- The device doubts tiles; in a re-run that is a difference, and only recorded doubts are applied (spec/16 R527, R528). -/
def State.addDoubts (s : State) (h : Nat) (tiles : List Nat) (reason : Nat) : State :=
  if s.rerunning then
    forEach tiles (fun tile s => s.rerunDiff h (s.reg .headFrame h 0).toNat (tile / max 1 (s.tileCols h)) 1) s
  else s.noteDoubts h (tiles.map fun t => (t, reason))

/-- The device doubts a tile. -/
def State.addDoubt (s : State) (h tile reason : Nat) : State := s.addDoubts h [tile] reason

/-! ### The frame -/

/-- The frame that begins at instant t. -/
def State.beginFrame (s : State) (e : HeadEnt) (m : ModeSt) (t num : Word) (layers : List LatLayer) : State :=
  let h := e.head
  let x := s.head h
  let blank := decide (0 < x.blanks)
  let out := s.output h
  let half := bit (s.reg .headStatus h 0) 3
  let sent := (out == 1 || out == 2 || out == 3) && e.ports.all s.mayShow && s.beforeHandover t
  let wb := if blank then none else s.wbFits h m t
  let asked := bit (s.reg .composeWb h 0) 0 && e.writeback && !blank
  let s := if asked && wb.isNone then s.wbRefuse h (s.fld .composeWb h 0 8 7) t num.toNat else s
  let s := match wb with
    | some (n, _, _, _) => if s.srcAttach n = h then s.wbOpen h n t num.toNat else s
    | none => s
  let shown := bit (s.reg .cursorCtl h 0) 0 && !x.curHidden
  let pos := s.reg .cursorPos h 0
  let cursor := if shown then x.curFront.map fun i =>
      (sext 16 (bf pos 0 16), sext 16 (bf pos 16 16), bit (s.reg .cursorCtl h 0) 1, i) else none
  let f : FrameSt :=
    { time := t, num := num, blank := blank, sent := sent, half := half, mode := m, linePs := (s.reg .headLinePs h 0).toNat,
      lut := tabGet [] x.luts (s.fld .headStatus h 0 6 2), bg := (s.reg .composeBg h 0).toNat,
      stale := s.fld .freshStaleColour h 0 0 24, degr := s.fld .freshDegradedColour h 0 0 24,
      noLive := s.fld .freshXNoLiveHold h 0 0 11 * 1000000, flagFill := bit (s.reg .freshXFlagFill h 0) 0,
      matrix := s.customMatrix h, layers := if blank then [] else layers, cursor := if blank then none else cursor, wb := wb,
      started := 0, complete := 0, readBegun := 0, freed := 0, masks := [], margins := [], cols := [], doubts := [],
      rowsRead := 0, prev := [], under := [], acc := [], t32 := [], states := [], lay := [], live := [], last := [], alive := [],
      shed := s.fld .composeXShed h 0 0 5, again := bit (s.reg .composeXRecompose h 0) 0, retry := [], ended := false, rest := [],
      restFrames := s.fld .composeXShed h 0 16 4 }
  let r := if sent then s.sendFrameStart e f else (s, [])
  let s := r.1
  let x := s.head h
  let wit : List WitEnt := if sent then e.ports.mapIdx fun i p =>
      { port := p, num := num, composed := !blank, doubt := false, ended := false, baseline := x.baseline,
        since := x.sinceMode + 1, fail := 0, tile := 0, tiles := [], rows := [], until_ := 0, half := half,
        span := e.cols f i, arrived := 0, late := false, unseen := false } else []
  let s := s.setHead h { x with blanks := x.blanks - 1, frame := some { f with alive := r.2 }, sinceMode := x.sinceMode + 1,
                                wit := x.wit ++ wit, baseline := x.baseline && !sent,
                                nextDoubt := if blank then x.nextDoubt else [] }
  let s := s.addDoubts h (if blank then [] else x.nextDoubt) 5
  s.addDoubts h ((f.layers.filter LatLayer.outside).flatMap fun l => (f.coveredBy l).map fun q => q.2 * s.tileCols h + q.1).eraseDups 4

/-- The work of a latch instant `t` at which a frame begins (R310, R311): what was committed applies, layers flip, the frame starts. -/
def State.latchFull (s : State) (h : Nat) (e : HeadEnt) (t : Word) (m0 : ModeSt) : State :=
  let x := s.head h
  let num := s.reg .headFrame h 0
  let due (q : ModeSt × Word × Nat) : Bool := decide (sdiff q.2.1 t < 0)
  let next := x.modeNext.filter due
  let now := next <|> x.modeDue.filter due
  let m := (now.map Prod.fst).getD m0
  let cad := (s.reg .grpAnchor 0 e.group, s.reg .grpPhase 0 e.group, (s.reg .grpRate 0 e.group).toNat, m.phase)
  let moved := decide (x.cad ≠ some cad)
  let s := s.setReg .headLatchTime h 0 t
  let s := s.setHead h { x with modeNext := if next.isSome then none else x.modeNext, modeDue := none }
  let s := if next.isSome then s.setFld .headStatus h 0 8 1 0 else s
  let s := s.releaseOld h
  let (s, commits) := s.applyCommits h t
  let s := s.basicBanks h
  let s := s.applyFresh h t
  let s := s.applyLuts h t
  let s := s.latchOutput e m (now.map fun q => q.2.2) moved num.toNat
  let asked := (s.head h).flips
  let (s, flipped, waiting) := if s.chooses then s.doFlips h t else (s, 0, 0)
  let s := forEach (List.range (s.depth h)) (fun l s =>
    let s := s.setFld .layerState h l 2 1 (b2n ((s.head h).flips.testBit l))
    let s := s.setFld .layerState h l 3 1 (b2n (!s.layerFenceOk h l))
    if flipped.testBit l then s
    else s.setFld .layerState h l 16 16 (min 65535 (s.fld .layerState h l 16 16 + 1))) s
  let s := s.setHead h { s.head h with curHidden := (s.head h).curHide }
  let s := s.latchSheds h
  let (s, layers) := s.latchLayers h
  let lastTag := ((commits.getLast?).map CommitSt.tag).getD 0
  let s := s.latchRec h t num.toNat flipped waiting (s.reg .cursorPos h 0).toNat lastTag commits.length (s.fld .headStatus h 0 6 2)
  let fulfilled := (asked &&& flipped) ≠ 0
  let s := if commits ≠ [] ∨ fulfilled then
      ((s.setReg .headFlipFrame h 0 num).setReg .headFlipTime h 0 t).emitAt t (some num) 0x1401 h 0
        (payB (le 4 flipped ++ le 4 (s.head h).flips ++ le 4 lastTag ++ le 2 commits.length)) else s
  let s := s.beginFrame e m t num layers
  let half := bit (s.reg .headStatus h 0) 3
  let s := s.setHead h { s.head h with skip := half, hold := if s.chooses then none else some s.ticks }
  s.nextLatch h e.group m.phase t moved

/-- HEAD_LATCH: a head's latch instant (R310); at half cadence every second one is passed over (R332) (DEDUCED, log 28). -/
def State.headLatch (s : State) (h : Nat) : State :=
  match s.plan.head h, (s.head h).next, (s.head h).mode with
  | some e, some t, some m0 =>
    if !s.isOn 0x14 h ∨ !atOrAfter s.now t then s
    else
      let s := s.setReg .headFrame h 0 (s.reg .headFrame h 0 + 1)
      let x := s.head h
      if bit (s.reg .headStatus h 0) 3 ∧ x.skip then (s.setHead h { x with skip := false }).nextLatch h e.group m0.phase t false
      else s.latchFull h e t m0
  | _, _, _ => s

/-- A layer that leaves with its head is ABSENT: a change of STATE with its event (spec/09 R303). -/
def State.layerGone (s : State) (h l : Nat) : State :=
  let q := (assocGet (s.head h).layEv l).getD (0, 0)
  let due := (assocGet (s.head h).layEv l).isNone || decide (q.1 + 100 * tickMs ≤ s.ticks)
  if due then
    (s.setHead h { s.head h with layEv := assocSet (s.head h).layEv l (s.ticks, 0) }).emitAt s.now none 0x1303 h 1 (pay [l, (s.layer h l).src, q.2 + 1])
  else s.setHead h { s.head h with layEv := assocSet (s.head h).layEv l (q.1, q.2 + 1) }

/-- A head leaves ON (R168, R245, R298, R300, R318): layers scrubbed, buffers released, the ports harmless; a REARM that completed
stays. -/
def State.headOff (s : State) (h : Nat) : State :=
  match s.plan.head h with
  | none => s
  | some e =>
    let s := forEach (List.range 32) (fun l s => s.unshow h l) s
    let s := forEach (List.range 32) (fun l s =>
      let s := if s.fld .freshLayerState h l 0 2 = 0 then s else s.layerGone h l
      let s := (s.setLayer h l LayerCfg.init).setReg .layerState h l 0
      let f := s.plan.freshFor h 0xFF
      ((s.setReg .freshLayerLimit h l (w32 (f.1 + 0x8000))).setReg .freshLayerPolicy h l 0).setReg .freshLayerState h l 0) s
    let x := s.head h
    let y := HeadSt.init
    let s := s.setHead h { y with mode := x.mode, luts := x.luts, lutLoads := x.lutLoads, tiles := x.tiles, unitsOut := x.unitsOut,
                                  doubtWin := x.doubtWin, layEv := x.layEv, deferEv := x.deferEv, underEv := x.underEv, amb := x.amb, ambTick := x.ambTick, ambSeen := x.ambSeen,
                                  ambDwell := x.ambDwell, witPrev := x.witPrev,
                                  rearm := x.rearm }
    let s := (s.setReg .cursorSize h 0 0).showSheds h
    let s := s.setFld .composeStatus h 0 18 1 0
    let s := forEach ((s.plan.sources.filter fun q => (s.wb q.source).any fun w => w.wait.any fun v => v.1 == h).map SrcEnt.source)
      (fun n s => s.wbDrop n 1) s
    let s := s.setOutput h 0 0
    let s := s.setHalf e false
    let s := (s.setFld .headStatus h 0 8 2 0).setFld .witStatus h 0 0 2 3
    s.portsSafe e 3

def execHeadStartReady (h : Nat) (s : State) : Answer := s.fabric fun s => s.headStart h
def execAmbientDwellMet (h : Nat) (s : State) : Answer := s.fabric fun s => s.dwellMet h
def execAmbientTimeout (h : Nat) (s : State) : Answer := s.fabric fun s => s.ambientTimeout h

end Sys2Proof.Machine
end

