-- ==== Sys2Proof/Machine/Strips.lean ====
section
/-! DEFINITION. The frame in progress of a head: strips composed and read out, underrun, tiles in doubt, TILE32 and the tile
table, FRAME_END, write-back pictures (spec/08 R222 to R263, spec/09 R267 to R293, spec/10 R321 to R325, spec/13 R400 to R405). -/

namespace Sys2Proof.Machine

/-! ### Instants, tiles and layer states of a frame -/

/-- The start of line k of a frame. -/
def FrameSt.lineAt (f : FrameSt) (k : Nat) : Word := f.time + w32 (k * f.linePs / 1000)
/-- Read-out of strip j starts, and its slot frees (spec/10 R321). -/
def FrameSt.readAt (f : FrameSt) (j : Nat) : Word := f.lineAt (f.mode.vb + 16 * j)
def FrameSt.freeAt (f : FrameSt) (j : Nat) : Word := f.lineAt (f.mode.vb + min (16 * (j + 1)) f.mode.vact)

/-- A layer's state in tile row r (R271). -/
def FrameSt.stateOf (f : FrameSt) (l : LatLayer) (r : Nat) : Nat :=
  let age := ageAt (f.evalAt r) l.cap
  if !l.valid ∨ 2000000000 ≤ age then 0
  else if l.doubt ∨ l.limit ≤ age ∨ l.freeze = 2 then 3
  else if l.degraded ∨ f.half ∨ l.freeze = 1 then (if l.das then 3 else 2)
  else 1

/-- How bad a tile state is: ABSENT, STALE, DEGRADED, LIVE from worst (R285). -/
def badness (st : Nat) : Nat := match st with | 0 => 3 | 3 => 2 | 2 => 1 | _ => 0
/-- The worse of two states. -/
def worse (a b : Nat) : Nat := if badness a < badness b then b else a

/-- The layers visible in tile (c, r) with the layers of `mask` shed, bottom to top (R270). -/
def FrameSt.visible (f : FrameSt) (c r mask : Nat) : List LatLayer :=
  f.layers.filter fun l => l.cfg.enabled && !mask.testBit l.l && f.covers l c r

/-- The sheds in force in every strip of tile row r that has started: a layer in all of them is visible in none (R292). -/
def FrameSt.rowMask (f : FrameSt) (r : Nat) : Nat :=
  match (f.masks.drop (4 * r)).take 4 with
  | [] => 0
  | m :: ms => ms.foldl (fun a b => a &&& b) m

/-- Change the frame in progress by a function. -/
def State.onFrame (s : State) (h : Nat) (g : FrameSt → FrameSt) : State :=
  s.setHead h { s.head h with frame := (s.head h).frame.map g }

/-! ### Tiles in doubt (R283) -/

/-- TILE_DOUBT: the window closes (R283). -/
def State.tileDoubt (s : State) (h : Nat) : State :=
  let x := s.head h
  match x.doubtWin with
  | none => s
  | some (t, w, tile, reason, n) =>
    if t + tickMs ≤ s.ticks then
      (s.setHead h { x with doubtWin := none }).emitAt w none 0x1304 h 1 (pay [tile, reason, n])
    else s

/-! ### The tile table (R284 to R286) -/

/-- Even parity over bits [62:0] of an entry (R285). -/
def tileParity (v : Nat) : Nat := ((List.range 63).map fun i => b2n (v.testBit i)).sum % 2

/-- An entry with its parity. -/
def tileEntry (v : Nat) : Nat := v % 2 ^ 63 + tileParity v * 2 ^ 63

def State.tile (s : State) (h i : Nat) : Nat := tabGet 0 (s.head h).tiles i
def State.setTile (s : State) (h i v : Nat) : State :=
  s.setHead h { s.head h with tiles := tabSet 0 (s.head h).tiles i (tileEntry v) }

/-- An entry of the tile table has bad parity (R285). -/
def State.tileBad (s : State) (h i : Nat) : Bool := tileEntry (s.tile h i) != s.tile h i

/-- A read of an entry finds bad parity (R286): the head rewrites it, and its tile is in doubt in the frame being composed, or in the
next one once the tile has left composition. -/
def State.parityFound (s : State) (h i : Nat) : State :=
  let s := (s.setTile h i (s.tile h i)).emit 0x1305 h 1 (pay [i])
  let now := match (s.head h).frame with
    | none => false
    | some f =>
      let cols := max 1 (s.tileCols h)
      let last := min (4 * (i / cols + 1)) f.strips - 1
      !f.blank && !(decide (last < f.complete) || f.cols.any fun q => q.strip == last && q.col == i % cols)
  if now then s.addDoubt h i 5
  else s.setHead h { s.head h with nextDoubt := addSet (s.head h).nextDoubt i }

/-- The head reads the entries of tile row r before it composes the row: entries with bad parity, tiles that underran in the frame
before, and flagged tiles, which take the doubt fill with reason 7 and whose DOUBT record is written before they do (R286, R296, R301,
spec/01 R21, spec/10 R324) (DEDUCED, log 36). -/
def State.readRow (s : State) (h r : Nat) : State :=
  match (s.head h).frame with
  | none => s
  | some f =>
    if r < f.rowsRead then s
    else
      let idx := (List.range f.colsN).map fun c => r * s.tileCols h + c
      let prev := idx.filter fun i => (s.tile h i).testBit 40
      let s := s.setFrame h { f with rowsRead := r + 1, prev := f.prev ++ prev }
      if f.blank then s
      else
        let s := forEach (idx.filter fun i => s.tileBad h i) (fun i s => s.parityFound h i) s
        if !f.flagFill then s
        else
          s.addDoubts h (idx.filter fun i => (s.tile h i).testBit 41) 7

/-! ### Sheds by deadline (spec/08 R257, R258) -/

/-- A strip counts as complete with a margin: kept, and below SHED_MARGIN a layer is shed from the next strip (R257). -/
def State.stripDone (s : State) (h j margin : Nat) : State :=
  match (s.head h).frame with
  | none => s
  | some f =>
    let s := s.setFrame h { f with complete := j + 1, margins := f.margins ++ [margin] }
    if !s.chooses ∨ f.shed * f.linePs ≤ margin * 1000 then s
    else
      let x := s.head h
      let cand := f.layers.filter fun l => l.cfg.enabled && l.cfg.rank != 0 && !x.dShed.contains l.l && !x.tShed.contains l.l
      let best := cand.foldl (fun b l => match b with
        | none => some l
        | some q => if q.cfg.rank ≤ l.cfg.rank then some l else some q) (none : Option LatLayer)
      match best with
      | none => s
      | some l =>
        let s := s.giveUp 0x12 h 5 6 0x1201 (some f.num)
        ((s.setHead h { x with dShed := addSet x.dShed l.l }).shedNote h l.l j 0 true).showSheds h

/-- The frame's next strip j starts: the sheds in force in it, and COMPOSE_X_SHED and COMPOSE_X_RECOMPOSE as they stand (R257, R264). -/
def State.startFrameStrip (s : State) (h j : Nat) : State :=
  let s := s.setHead h { s.head h with stripNo := (s.head h).stripNo + 1 }
  s.onFrame h fun f => { f with started := j + 1, masks := f.masks ++ [(s.reg .composeShedMask h 0).toNat],
                                shed := s.fld .composeXShed h 0 0 5, again := bit (s.reg .composeXRecompose h 0) 0,
                                rest := f.rest ++ [s.fld .composeXShed h 0 8 5], restFrames := s.fld .composeXShed h 0 16 4 }

/-- STRIP_START (R223): the slot is free and the strip before is complete (DEDUCED, log 36). -/
def State.stripStart (s : State) (h : Nat) : State :=
  match (s.head h).frame with
  | none => s
  | some f =>
    if (s.head h).hold.isSome ∨ f.blank ∨ f.strips ≤ f.started ∨ f.complete ≠ f.started ∨ f.freed + 3 ≤ f.started ∨ !atOrAfter s.now f.time then s
    else (s.startFrameStrip h f.started).readRow h (f.started / 4)

/-! ### Composition of a tile column (R222, R225 to R239) -/

/-- The lines of strip j and the pixels of tile column c. -/
def FrameSt.lines (f : FrameSt) (j : Nat) : List Nat := (List.range (min 16 (f.mode.vact - 16 * j))).map fun i => 16 * j + i
def FrameSt.pixels (f : FrameSt) (c : Nat) : List Nat := (List.range (min 64 (f.mode.hact - 64 * c))).map fun i => 64 * c + i

/-- The samples a layer needs for a column of a strip, fetched as the head's master, by block; the DOUBT_REASON of the first error
(R226, R282): 1 uncorrectable, 2 refused or unsound. -/
def State.fetchLayer (s : State) (h : Nat) (l : LatLayer) (xs ys : List Nat) : State × Blocks × Nat :=
  let g : Geo := { w := l.w, h := l.h, fmt := l.fmt, store := l.store }
  (neededBlocks l xs ys).foldl (fun acc q =>
    if acc.2.2 ≠ 0 then acc
    else
      match (if l.store = 0 ∧ !isYuv l.fmt then acc.1.fetchRaw (headMaster h) l.addr g q.1 q.2 (l.cols xs) (l.rows ys)
          else acc.1.fetchBlock (headMaster h) l.addr g q.1 q.2) with
      | (s, .ok d) => (s, acc.2.1 ++ [(q.2 * 65536 + q.1, d)], 0)
      | (s, .ue) => (s, acc.2.1, 1)
      | (s, _) => (s, acc.2.1, 2)) (s, [], 0)

/-- One composed pixel before the cursor: every visible layer treated and blended bottom to top over the background. -/
def FrameSt.pixel (f : FrameSt) (vis : List (LatLayer × Nat × Blocks)) (x y : Nat) : Px :=
  vis.foldl (fun d v =>
    let l := v.1
    let a := f.area l
    if a.x0 ≤ x ∧ (x : Int) < a.x1 ∧ a.y0 ≤ y ∧ (y : Int) < a.y1 then
      let p := if v.2.1 = 0 then ⟨0, 0, 0, 0⟩
        else layerSample l f.matrix v.2.2 ((x : Int) - l.cfg.dstX).toNat ((y : Int) - l.cfg.dstY).toNat
      blend d (treat v.2.1 f.stale f.degr f.num.toNat a x y p)
    else d) (bgPx f.bg)

/-- A tile column of a strip composed from its layers: scan buffer words with the cursor, and without. -/
def FrameSt.compose (f : FrameSt) (j c : Nat) (vis : List (LatLayer × Nat × Blocks)) : ColRes :=
  { strip := j, col := c, tags := vis.map fun v => (v.1.l, if v.2.1 = 0 then 0 else v.1.tag),
    words := (f.lines j).map fun (y : Nat) => (f.pixels c).map fun (x : Nat) => scanWord (cursorOver f.cursor x y (f.pixel vis x y)),
    bare := (f.lines j).map fun (y : Nat) => (f.pixels c).map fun (x : Nat) => scanWord (f.pixel vis x y) }

/-- The pixels of line y in tile column c as they are sent, and the last of them; `prior` the pixel sent before the column. -/
def FrameSt.sentPixels (f : FrameSt) (cols : Nat) (j c y : Nat) (prior : List Nat) : List (List Nat) :=
  let xs := f.pixels c
  if f.blank then xs.map fun _ => [0, 0, 0]
  else if f.doubts.any fun d => d.1 == j / 4 * cols + c then
    xs.map fun x => outPixel f.lut f.mode.ten (fillWord f.stale f.num.toNat x y)
  else if f.under.contains (j, c) then xs.map fun _ => prior
  else
    let words := ((f.cols.find? fun q => q.strip == j && q.col == c).map fun q => q.words.getD (y - 16 * j) []).getD []
    words.map fun w => outPixel f.lut f.mode.ten w

/-- The layers visible in tile (c, r) in some strip of its row (R270, R292). -/
def FrameSt.visRow (f : FrameSt) (c r : Nat) : List LatLayer := if f.blank then [] else f.visible c r (f.rowMask r)

/-- The DOUBT_REASON of a tile, 0 for none; whether tile (c, r) underran; the worst state of any layer visible in it (R285). -/
def FrameSt.doubtOf (f : FrameSt) (tile : Nat) : Nat := ((f.doubts.find? fun d => d.1 == tile).map Prod.snd).getD 0
def FrameSt.underIn (f : FrameSt) (c r : Nat) : Bool := f.under.any fun q => q.1 / 4 == r && q.2 == c
def FrameSt.worstIn (f : FrameSt) (c r : Nat) : Nat := (f.visRow c r).foldl (fun w l => worse w (f.stateOf l r)) 1

/-- The entry of tile (c, r) with TILE32 `t32`; the witness's flag stays as the witness left it (R285). -/
def State.entryOf (s : State) (h : Nat) (f : FrameSt) (c r t32 : Nat) : Nat :=
  let i := r * s.tileCols h + c
  t32 + f.worstIn c r * 2 ^ 32 + b2n (f.doubtOf i != 0) * 2 ^ 34 + f.doubtOf i * 2 ^ 35 + b2n (f.prev.contains i) * 2 ^ 39 +
    b2n (f.underIn c r) * 2 ^ 40 + b2n ((s.tile h i).testBit 41) * 2 ^ 41 + (f.visRow c r).length * 2 ^ 42 + f.num.toNat % 256 * 2 ^ 48

/-- The bytes of tile (c, r) as they will be sent: strips read out already, then those composed (R289). -/
def FrameSt.tileBytes (f : FrameSt) (cols r c : Nat) : List Byte :=
  (assocGet f.acc (r * cols + c)).getD [] ++
    (((List.range (min 4 (f.strips - 4 * r))).map fun i => 4 * r + i).filter fun j => decide (f.freed ≤ j)).flatMap fun j =>
      (f.lines j).flatMap fun y => packPixels f.mode.ten (f.sentPixels cols j c y [0, 0, 0])

/-- Column c of strip j is finished; where the strip is the last of its tile row, the tile leaves composition and the head writes its
entry (R285, R289). -/
def State.columnLeaves (s : State) (h : Nat) (q : ColRes) : State :=
  let s := s.onFrame h fun f => { f with cols := f.cols ++ [q] }
  match (s.head h).frame with
  | none => s
  | some f =>
    let r := q.strip / 4
    let cols := s.tileCols h
    if q.strip + 1 = min (4 * (r + 1)) f.strips then s.setTile h (r * cols + q.col) (s.entryOf h f q.col r (tile32 (f.tileBytes cols r q.col)))
    else s

/-- Layer unit `unit` may compose column c of strip j: it belongs to the head, is in service, and is not the one that timed out on the column last (R19,
R222, R261, R263). -/
def State.mayCompose (s : State) (h j c unit : Nat) (f : FrameSt) : Bool :=
  let last := (f.retry.filter fun q => q.1 == j && q.2.1 == c).getLast?.map fun q => q.2.2
  ((s.plan.units[unit]?).map fun u => u.owner == h).getD false && !(s.head h).unitsOut.contains unit && last != some unit

/-- A unit's timeout (R263): its second in two successive strips takes it out of service (DEDUCED, log 37). -/
def State.unitTimeout (s : State) (h unit serial : Nat) : State :=
  let x := s.head h
  let twice := assocGet x.unitBad unit = some (serial - 1)
  let s := s.setHead h { x with unitBad := assocSet x.unitBad unit serial }
  if twice ∧ !x.unitsOut.contains unit then
    let s := s.setHead h { s.head h with unitsOut := addSet x.unitsOut unit }
    let s := s.setFld .composeStatus h 0 0 8 (s.fld .composeStatus h 0 0 8 - 1)
    let s := (s.setFld .composeStatus h 0 19 1 1).emit 0x1205 h 2 (pay [unit])
    s.fault 0x12 h 0x20
  else s

/-- A tile column's composition ends in a handshake completion timeout (R261 to R263): composed again, or left in doubt (DEDUCED, log 37). -/
def State.columnTimeout (s : State) (h : Nat) (f : FrameSt) (j c unit : Nat) : State :=
  if s.rerunning then s.rerunDiff h f.num.toNat (j / 4) 1
  else
  let left := sdiff (f.readAt j) s.now
  let others := ((s.plan.units.mapIdx fun i u => (i, u)).filter fun q =>
    q.2.owner == h && q.1 != unit && !(s.head h).unitsOut.contains q.1).length
  let again := f.again && decide (2 * 1280 * (s.depth h : Int) ≤ left) && others != 0
  let s := s.unitTimeout h unit (s.head h).stripNo
  let s := s.stripRec h j (if again then 4 else 5) 2 0 (2 ^ c)
  let s := s.emit 0x1204 h 0 (pay [j, c, b2n again])
  if again then (s.bump .composeRecomposed h 0 1).onFrame h fun f => { f with retry := f.retry ++ [(j, c, unit)] }
  else (s.addDoubt h (j / 4 * s.tileCols h + c) 3).columnLeaves h { strip := j, col := c, tags := [], words := [], bare := [] }

/-- The layers visible in column c of strip j with their states and fetched blocks, and the DOUBT_REASON of the first error; an ABSENT
layer is not fetched (R226, R271). -/
def State.fetchColumn (s : State) (h : Nat) (f : FrameSt) (j c : Nat) (vis : List LatLayer) : State × List (LatLayer × Nat × Blocks) × Nat :=
  vis.foldl (fun acc l =>
    let st := f.stateOf l (j / 4)
    if st = 0 then (acc.1, acc.2.1 ++ [(l, st, [])], acc.2.2)
    else
      let a := f.area l
      let lx := ((f.pixels c).filter fun (x : Nat) => decide (a.x0 ≤ x ∧ (x : Int) < a.x1)).map fun (x : Nat) => ((x : Int) - l.cfg.dstX).toNat
      let ly := ((f.lines j).filter fun (y : Nat) => decide (a.y0 ≤ y ∧ (y : Int) < a.y1)).map fun (y : Nat) => ((y : Int) - l.cfg.dstY).toNat
      let q := acc.1.fetchLayer h l lx ly
      (q.1, acc.2.1 ++ [(l, st, q.2.1)], if acc.2.2 = 0 then q.2.2 else acc.2.2)) (s, [], 0)

/-- TILE_COLUMN_DONE: unit `unit` finishes tile column c of the strip being composed; `timeout` when it ended in a handshake
completion timeout, `parity` when the tile's table entry was read with bad parity (R19, R222, R226, R261, R271, R286). -/
def State.columnDone (s : State) (h c unit : Nat) (timeout parity : Bool) : State :=
  match (s.head h).frame with
  | none => s
  | some f =>
    let j := f.started - 1
    if f.started = 0 ∨ f.complete = f.started ∨ f.colsN ≤ c ∨ (f.cols.any fun q => q.strip == j && q.col == c) ∨
        !s.mayCompose h j c unit f then s
    else if timeout then s.columnTimeout h f j c unit
    else
      let tile := j / 4 * s.tileCols h + c
      let s := if parity ∨ s.tileBad h tile then s.parityFound h tile else s
      let vis := f.visible c (j / 4) (f.masks.getD j 0)
      let filled := ((s.head h).frame.map fun f => f.doubts.any fun d => d.1 == tile).getD false
      if filled then s.columnLeaves h { strip := j, col := c, tags := [], words := [], bare := [] }
      else
        let r := s.fetchColumn h f j c vis
        let s := r.1
        let s := if r.2.2 = 0 then s else s.addDoubt h tile r.2.2
        s.columnLeaves h (f.compose j c r.2.1)

/-- STRIP_COMPLETE: every tile column of the strip is written (R223). -/
def State.stripComplete (s : State) (h : Nat) : State :=
  match (s.head h).frame with
  | none => s
  | some f =>
    let j := f.complete
    if f.started ≠ j + 1 ∨ !((List.range f.colsN).all fun c => f.cols.any fun q => q.strip == j && q.col == c) then s
    else s.stripDone h j (sdiff (f.readAt j) s.now).toNat

/-! ### Read-out (spec/10 R321 to R325) -/

/-- The columns of strip j that are not complete at its read-out are underrun (R322 to R324). -/
def State.underrun (s : State) (h j : Nat) (missing : List Nat) : State :=
  match (s.head h).frame with
  | none => s
  | some f =>
    let tiles := missing.map fun c => j / 4 * s.tileCols h + c
    let old := f.under.map fun q => q.1 / 4 * s.tileCols h + q.2
    let fresh := tiles.filter fun t => !old.contains t
    let s := if s.rerunning then s.rerunDiff h f.num.toNat (j / 4) 1 else s
    let s := s.stripRec h j 3 0 0 (missing.foldl (fun v c => v + 2 ^ c) 0)
    let s := s.bump .headUnderrunCount h 0 fresh.length
    let s := if f.under = [] then s.bump .headUnderrunFrames h 0 1 else s
    let s := s.setFrame h { f with under := f.under ++ missing.map fun c => (j, c) }
    let filled := tiles.filter fun t => f.prev.contains t
    let s := s.addDoubts h filled 6
    let x := s.head h
    let n := (x.underEv.map fun q => q.2.1).getD 0 + fresh.length
    let fill := !filled.isEmpty || (x.underEv.map fun q => q.2.2).getD false
    let due := match x.underEv with | none => true | some (t, _) => decide (t + 100 * tickMs ≤ s.ticks)
    if due then
      (s.setHead h { x with underEv := some (s.ticks, 0, false) }).headEvent h 0x1405 1 (pay [j, missing.headD 0, n, b2n fill])
    else s.setHead h { x with underEv := x.underEv.map fun q => (q.1, n, fill) }

/-- STRIP_READOUT_START: read-out of the next strip starts (R321, R322) (DEDUCED, log 36). -/
def State.readStart (s : State) (h : Nat) : State :=
  match (s.head h).frame with
  | none => s
  | some f =>
    let j := f.readBegun
    if f.strips ≤ j ∨ f.freed ≠ j ∨ !atOrAfter s.now (f.readAt j) then s
    else
      let s := s.setFrame h { f with readBegun := j + 1 }
      if f.blank ∨ j < f.complete then s.readRow h (j / 4)
      else
        let s := if f.started ≤ j then s.startFrameStrip h j else s
        let s := s.readRow h (j / 4)
        let missing := (List.range f.colsN).filter fun c => !(f.cols.any fun q => q.strip == j && q.col == c)
        let s := if missing.isEmpty then s else s.underrun h j missing
        s.stripDone h j 0

/-- A line of one port: its pixels by tile column. -/
def FrameSt.sentLine (f : FrameSt) (cols : Nat) (j y c0 cN : Nat) (prior : List Nat) : List (Nat × List (List Nat)) × List Nat :=
  ((List.range (cN - c0)).map fun i => c0 + i).foldl (fun acc c =>
    let px := f.sentPixels cols j c y acc.2
    (acc.1 ++ [(c, px)], px.getLastD acc.2)) ([], prior)

/-- Send a line's RASTER_LINE packets on a port (spec/13 R400, R401). -/
def State.sendLine (s : State) (p alive : Nat) (f : FrameSt) (y : Nat) (line : List (Nat × List (List Nat))) : State :=
  (chunks (if f.mode.ten then 17 else 21) line.length line).foldl (fun s seg =>
    let px := seg.flatMap Prod.snd
    s.sendItem p 0x01 0 1 alive f.time
      (le 2 y ++ le 2 (64 * (seg.headD (0, [])).1) ++ le 2 px.length ++ le 2 0 ++ packPixels f.mode.ten px)) s

/-- Read out strip j: every line on every port, the bytes kept for TILE32. -/
def State.sendStrip (s : State) (e : HeadEnt) (j : Nat) : State :=
  let cols := s.tileCols e.head
  match (s.head e.head).frame with
  | none => s
  | some f0 =>
    (f0.lines j).foldl (fun s y =>
      (e.ports.mapIdx fun i p => (i, p)).foldl (fun s q =>
        match (s.head e.head).frame with
        | none => s
        | some f =>
          let cc := e.cols f q.1
          let r := f.sentLine cols j y cc.1 cc.2 ((assocGet f.last q.1).getD [0, 0, 0])
          let acc := r.1.foldl (fun t v =>
            let i := j / 4 * cols + v.1
            assocSet t i ((assocGet t i).getD [] ++ packPixels f.mode.ten v.2)) f.acc
          let s := s.setFrame e.head { f with acc := acc, last := assocSet f.last q.1 r.2 }
          if f.sent then s.sendLine q.2 ((assocGet f.alive q.2).getD 0) f y r.1 else s) s) s

/-- The tag digest of tile (c, r), from the tags that arrived at stage 10 in its strips (R291). -/
def FrameSt.tagDigest (f : FrameSt) (c r : Nat) : Nat :=
  let tags := ((f.cols.filter fun q => q.strip / 4 == r && q.col == c).flatMap ColRes.tags).eraseDups
  if tags.isEmpty then 0 else tile32 (tags.flatMap fun q => le 4 q.2)

/-- The expected digest of tile (c, r), from the active state, the tags latched and the sheds of its strips (R292). -/
def FrameSt.expected (f : FrameSt) (c r : Nat) : Nat :=
  let vis := f.visRow c r
  if vis.isEmpty then 0 else tile32 (vis.flatMap fun l => le 4 (if f.stateOf l r = 0 then 0 else l.tag))

/-- A tile row has left: TILE32, tile table entries, layer states, the compare memory, STAMP on each port (R284 to R294)
(DEDUCED, log 36). -/
def State.rowEnd (s : State) (e : HeadEnt) (r : Nat) : State :=
  let h := e.head
  let cols := s.tileCols h
  match (s.head h).frame with
  | none => s
  | some f =>
    let idx (c : Nat) : Nat := r * cols + c
    let t32 (c : Nat) : Nat := tile32 ((assocGet f.acc (idx c)).getD [])
    let all := List.range f.colsN
    let lay := all.flatMap fun c => (f.visRow c r).map fun l => (l.l, r, f.stateOf l r)
    let live := all.flatMap fun c => if f.doubtOf (idx c) ≠ 0 then []
      else ((f.visRow c r).filter fun l => f.stateOf l r == 1 || f.stateOf l r == 2).map LatLayer.l
    let filled (c : Nat) : Bool := f.doubtOf (idx c) != 0 || f.underIn c r
    let digest (c : Nat) : Nat := if filled c then 0 else f.tagDigest c r
    let mem := all.map fun c => (idx c, t32 c, f.expected c r, filled c)
    let s := s.setFrame h { f with acc := [], t32 := f.t32 ++ all.map (fun c => (idx c, t32 c)),
                                   states := f.states ++ all.map (fun c => (idx c, f.worstIn c r)), lay := f.lay ++ lay.eraseDups,
                                   live := (f.live ++ live).eraseDups,
                                   cols := f.cols.filter fun q => r < q.strip / 4 }
    let s := forEach all (fun c s => s.setTile h (idx c) (s.entryOf h f c r (t32 c))) s
    let s := s.setHead h { s.head h with wit := (s.head h).wit.map fun w =>
      if w.num = f.num then
        let cc := e.cols f (e.ports.idxOf w.port)
        { w with arrived := r + 1, tiles := w.tiles ++ mem.filter fun v => decide (cc.1 ≤ v.1 - r * cols) && decide (v.1 - r * cols < cc.2) }
      else w }
    if !f.sent then s
    else
      (e.ports.mapIdx fun i p => (i, p)).foldl (fun s q =>
        let cc := e.cols f q.1
        let mine := (List.range (cc.2 - cc.1)).map fun i => cc.1 + i
        let bits := (mine.mapIdx fun i c => b2n (filled c) * 2 ^ i).sum
        s.sendItem q.2 0x04 0 1 ((assocGet f.alive q.2).getD 0) f.time
          (le 4 f.num.toNat ++ le 4 f.time.toNat ++ le 2 r ++ le 2 mine.length ++ le 4 0 ++ mine.flatMap (fun c => le 4 (digest c)) ++
           le (cdiv (cdiv mine.length 8) 4 * 4) bits) |> fun s => if r + 1 = f.rows then s.stampsSent q.2 else s) s

/-! ### Write-back (spec/08 R254 to R256) -/

/-- A written-back pixel from its scan buffer word (R255). -/
def wbPixel (fmt w : Nat) : List Byte :=
  let c (i : Nat) : Nat := w / 1024 ^ i % 1024
  let v (i : Nat) : Nat := min 255 ((c i + 2) / 4)
  if fmt = 5 then le 4 (3 * 2 ^ 30 + w % 2 ^ 30) else pixelOf fmt (v 2) (v 1) (v 0)

/-- The words of line y for write-back (R255): underrun pixels are open (log 33). -/
def FrameSt.wbLine (f : FrameSt) (cols j y : Nat) (cursor : Bool) : List Nat :=
  (List.range f.colsN).flatMap fun c =>
    if f.doubts.any fun d => d.1 == j / 4 * cols + c then (f.pixels c).map fun x => fillWord f.stale f.num.toNat x y
    else if f.under.contains (j, c) then (f.pixels c).map fun x => Config.underrunWord f.num.toNat x y
    else ((f.cols.find? fun q => q.strip == j && q.col == c).map fun q =>
      (if cursor then q.words else q.bare).getD (y - 16 * j) []).getD []

/-- A head writes its part of strip j into the write-back picture of its latch instant. -/
def State.wbStrip (s : State) (e : HeadEnt) (j : Nat) : State :=
  match (s.head e.head).frame with
  | none => s
  | some f =>
    match f.wb with
    | none => s
    | some (n, x, y, cursor) =>
      match s.wb n with
      | none => s
      | some w =>
        if w.time ≠ f.time then s
        else
          let fmt := (s.geo n).fmt
          let rows := (f.lines j).map fun q => (y + q, x, (f.wbLine (s.tileCols e.head) j q cursor).flatMap fun v => wbPixel fmt v)
          let marked := f.masks.getD j 0 != 0 || f.under.any fun u => u.1 == j
          let wait := (w.wait.map fun q => if q.1 = e.head then (q.1, q.2 - 1) else q).filter fun q => q.2 != 0
          s.setWb n (some { w with parts := w.parts ++ rows, writers := w.writers ++ (f.lines j).map fun q => (y + q, x, x + f.mode.hact, e.head), degraded := w.degraded || marked, wait := wait })

/-- A line of a write-back picture from the contributors' parts; `none` where pixels are missing. -/
def wbRow (parts : List (Nat × Nat × List Byte)) (bpp w y : Nat) : Option (List Byte) :=
  let mine := parts.filter fun q => q.1 == y
  let line := (List.range w).map fun x =>
    (mine.find? fun q => decide (q.2.1 ≤ x) && decide ((x - q.2.1 + 1) * bpp ≤ q.2.2.length)).map
      fun q => slice q.2.2 ((x - q.2.1) * bpp) bpp
  if line.all Option.isSome then some (line.flatMap fun v => v.getD []) else none

/-- The head that writes pixel (x, y) of a write-back picture. -/
def WbSt.writer (w : WbSt) (y x : Nat) : Option Nat :=
  (w.writers.find? fun q => q.1 == y && decide (q.2.1 ≤ x) && decide (x < q.2.2.1)).map fun q => q.2.2.2

/-- The writes of a write-back picture: each contributor's part through its own head's master (R254, R255, spec/04 R117), what covers the whole
buffer through the ATTACH head's (DEDUCED, log 26). Whether memory took all of them. -/
def State.wbWrite (s : State) (n : Nat) (w : WbSt) (g : Geo) (pic : List (List Byte)) : State × Bool :=
  let addr := s.bufAddr n w.buf
  let own := headMaster (s.srcAttach n)
  let by_ (y x : Nat) : Nat := ((w.writer y x).map headMaster).getD own
  let put (a : State × Bool) (q : Nat × Nat × List Byte) : State × Bool :=
    let r := a.1.writeAll q.1 [(q.2.1, q.2.2)]
    (r.1, a.2 && r.2)
  let checks := g.checks pic
  if g.store = 0 then
    let parts := (w.writers.zip w.parts).map fun q => (headMaster q.1.2.2.2, addr + q.2.1 * g.pitch + q.2.2.1 * bppOf g.fmt, q.2.2.2)
    (parts ++ (checkWrites g addr checks 0 0 0 0).map fun c => (own, c.1, c.2)).foldl put (s, true)
  else
    let coded := g.coded 1 pic
    let k (i : Nat) : Nat := (coded.filter fun c => c.2.1 == i).length
    let parts := coded.map fun c => (by_ (4 * (c.1 / g.pbw)) (8 * (c.1 % g.pbw)), addr + c.1 * rawBlk g.fmt, c.2.2)
    let r := (parts ++ ((addr + g.pixLen, g.metaPlane coded) :: checkWrites g addr checks (k 0) (k 2) (k 1) 1).map fun c => (own, c.1, c.2)).foldl put
      (s, true)
    (r.1.countBlocks (k 0) (k 2) (k 1), r.2)

/-- Every contributor has written its part: the picture goes to the checks at ingest (R254 to R256, spec/06 R179). Areas
that no contributor covers, and a part that memory did not take, abandon it (DEDUCED, log 26). -/
def State.wbEnd (s : State) (n : Nat) : State :=
  match s.wb n with
  | none => s
  | some w =>
    if !w.wait.isEmpty then s
    else
      let g := s.geo n
      let rows := (List.range g.h).map fun y => wbRow w.parts (bppOf g.fmt) g.w y
      if !rows.all Option.isSome then s.wbDrop n 1
      else
        let pic := rows.map fun r => r.getD []
        let (s, ok) := s.wbWrite n w g pic
        if !ok then s.wbDrop n 1
        else
        let s := s.setWb n none
        (s.finish n w.buf { alive := w.alive, cap := w.time, check := contentCheck (g.checks pic), given := none,
                            degraded := w.degraded, fromHost := false, fault := false, incomplete := false, since := w.since,
                            doubts := w.doubts }).1

/-- STRIP_SLOT_FREE: read-out of a strip's last line ends and its slot frees (R223, R321); `late` when the strip's write-back has not
finished, so that the strip is not written and the picture is abandoned (R256) (DEDUCED, log 36). -/
def State.slotFree (s : State) (h : Nat) (late : Bool) : State :=
  match s.plan.head h, (s.head h).frame with
  | some e, some f =>
    let j := f.freed
    if f.readBegun ≠ j + 1 ∨ !atOrAfter s.now (f.freeAt j) then s
    else
      let s := s.sendStrip e j
      let s := match f.wb with
        | some (n, _, _, _) => if late then s.wbDrop n 0 else s.wbStrip e j
        | none => s
      let s := s.onFrame h fun f => { f with freed := j + 1 }
      let s := if (j + 1) % 4 = 0 ∨ j + 1 = f.strips then s.rowEnd e (j / 4) else s
      match f.wb with
      | some (n, _, _, _) => s.wbEnd n
      | none => s
  | _, _ => s

/-! ### The end of a frame (R287, R303, spec/13 R403, R405) -/

/-- The valid-until of a frame, and whether it is the no-live value; a layer counts where it is LIVE or DEGRADED in a tile not in doubt
(R287, R288, spec/10 R315). -/
def FrameSt.validUntil (f : FrameSt) : Word × Bool :=
  if f.blank then (f.time, false)
  else
    let base := f.evalAt (f.rows - 1) + w32 f.noLive
    let live := f.layers.filter fun l => f.live.contains l.l
    let t := live.foldl (fun t l => let u := l.cap + w32 l.limit; if sdiff u t < 0 then u else t) base
    (t, decide (t = base))

/-- The row check of tile row r over columns [c0, cN) (R290). -/
def FrameSt.rowCheck (f : FrameSt) (cols r c0 cN : Nat) : Nat :=
  tile32 ((List.range (cN - c0)).flatMap fun i => le 4 ((assocGet f.t32 (r * cols + c0 + i)).getD 0))

/-- A layer's state over the frame, with its events (R303) (DEDUCED, log 29). -/
def State.layerEvent (s : State) (h : Nat) (f : FrameSt) (l : LatLayer) : State :=
  let seen := f.lay.filter fun q => q.1 == l.l
  let old := s.fld .freshLayerState h l.l 0 2
  let age := if l.valid then min 2000 (ageAt (f.evalAt (f.rows - 1)) l.cap / 1000000) else 0
  let s := s.setFld .freshLayerState h l.l 16 11 age
  let new := if seen.isEmpty then 0 else seen.foldl (fun w q => worse w q.2.2) 1
  let s := s.setFld .freshLayerState h l.l 0 2 new
  if new = old then s
  else
    let x := s.head h
    let q := (assocGet x.layEv l.l).getD (0, 0)
    let due := (assocGet x.layEv l.l).isNone || decide (q.1 + 100 * tickMs ≤ s.ticks)
    if !due then s.setHead h { x with layEv := assocSet x.layEv l.l (q.1, q.2 + 1) }
    else
      let s := s.setHead h { x with layEv := assocSet x.layEv l.l (s.ticks, 0) }
      let row := ((seen.find? fun v => v.2.2 == new).map fun v => v.2.1).getD 0
      let t := f.evalAt row
      let n := q.2 + 1
      match new with
      | 0 => s.emitAt t none 0x1303 h 1 (pay [l.l, l.cfg.src, n])
      | 3 =>
        let cause := if l.doubt then 1 else if l.limit ≤ ageAt t l.cap then 0 else if l.freeze ≠ 0 then 2 else 0
        s.emitAt t none 0x1301 h 1 (pay [l.l, l.cfg.src, l.tag, cause, n])
      | _ => s.emitAt t none 0x1302 h 0 (pay [l.l, l.cfg.src, l.tag, new, n])

/-- FRAME_READOUT_END: the last active line has ended (R405) (DEDUCED, log 29). -/
def State.frameEnd (s : State) (h : Nat) : State :=
  match s.plan.head h, (s.head h).frame with
  | some e, some f =>
    if f.ended ∨ f.freed ≠ f.strips then s
    else
      let cols := s.tileCols h
      let vu := if s.rerunning then (f.time, false) else f.validUntil
      let rows := List.range f.rows
      let ports := e.ports.mapIdx fun i p => (i, p)
      let own (i : Nat) : List Nat := rows.map fun r => f.rowCheck cols r (e.cols f i).1 (e.cols f i).2
      let checks (i : Nat) : List (List Byte) := (own i).map (le 4)
      let s := s.setFrame h { f with ended := true }
      let s := if f.sent then ports.foldl (fun s q =>
          s.sendItem q.2 0x03 2 1 ((assocGet f.alive q.2).getD 0) f.time
            (le 4 f.num.toNat ++ le 4 vu.1.toNat ++ le 4 0 ++ le 2 f.rows ++ le 2 0 ++ (checks q.1).flatten)) s else s
      let s := if f.sent then (s.setReg .freshValidUntil h 0 vu.1).setFld .freshStatus h 0 3 1 (b2n vu.2) else s
      let s := if f.sent ∧ bit (s.bus.reg .jrnCtl 0 0) 0 then ports.foldl (fun s q =>
          s.recRuns 56 5 0x13 h (checks q.1) fun first n => le 4 f.num.toNat ++ le 1 q.1 ++ le 1 n ++ le 2 first) s else s
      let seen (r : Nat) : Bool := f.lay.any fun q => q.2.1 == r && q.2.2 != 0 &&
        (match s.jrn.rerun with | some y => y.missed.contains (h, q.1) | none => false)
      let s := if f.sent ∧ s.rerunning then ports.foldl (fun s q =>
          s.rerunOwn h f.num.toNat q.1 (rows.map fun r => (f.rowCheck cols r (e.cols f q.1).1 (e.cols f q.1).2, !seen r))) s else s
      let count (p : Nat → Bool) : Nat := (f.states.filter fun q => p q.2).length
      let s := s.setReg .freshStaleTiles h 0 (w32 (count fun st => st == 0 || st == 3))
      let s := (s.setReg .freshDegradedTiles h 0 (w32 (count fun st => st == 2))).setReg .freshDoubtTiles h 0 (w32 f.doubts.length)
      let s := s.setFld .freshStatus h 0 0 2 (f.states.foldl (fun w q => worse w q.2) 1)
      let s := if f.blank then s else forEach f.layers (fun l s => s.layerEvent h f l) s
      let x := s.head h
      let good := !f.blank && (f.margins.zip f.rest).all fun m => decide (m.2 * f.linePs ≤ m.1 * 1000)
      let low := f.margins.foldl (fun b m => match b with | none => some m | some v => some (min v m)) (none : Option Nat)
      let s := match low with
        | some m => s.setReg .composeMarginMin h 0 (w32 m)
        | none => s
      s.setHead h { x with goodFrames := if good then x.goodFrames + 1 else 0,
                           wit := x.wit.map fun w => if w.num = f.num then
                             { w with ended := true, doubt := !f.doubts.isEmpty, rows := own (e.ports.idxOf w.port), until_ := vu.1 } else w }
  | _, _ => s

/-- TILE_SNAPSHOT_WRITE: the entry is read with its parity checked, and copied (R286). -/
def State.tileSnapshot (s : State) (host h : Nat) (v : Word) : State :=
  s.hostWrite host 0x13 h 0 0x24 v fun s =>
    let i := bf v 0 14
    let s := if s.tileBad h i then s.parityFound h i else s
    let e := s.tile h i
    ((s.setReg .freshTileIndex h 0 (w32 i)).setReg .freshTileLo h 0 (w32 e)).setReg .freshTileHi h 0 (w32 (e / 2 ^ 32))

def execTileSnapshotWrite (host h : Nat) (v : Word) (s : State) : Answer := s.fabric fun s => s.tileSnapshot host h v
def execStripStart (h : Nat) (s : State) : Answer := s.fabric fun s => s.stripStart h
def execTileColumnDone (h c unit : Nat) (timeout parity : Bool) (s : State) : Answer :=
  s.fabric fun s => s.columnDone h c unit timeout parity
def execStripComplete (h : Nat) (s : State) : Answer := s.fabric fun s => s.stripComplete h
def execStripReadoutStart (h : Nat) (s : State) : Answer := s.fabric fun s => s.readStart h
def execStripSlotFree (o : SlotEnd) (s : State) : Answer := s.fabric fun s => s.slotFree o.head o.late
def execFrameReadoutEnd (h : Nat) (s : State) : Answer := s.fabric fun s => s.frameEnd h
def execTileDoubt (h : Nat) (s : State) : Answer := s.fabric fun s => s.tileDoubt h

end Sys2Proof.Machine
end

