-- ==== Sys2Proof/Machine/Witness.lean ====
section
/-! DEFINITION. The witness and its island (spec/09 R294 to R299), and the output LIVE (spec/10 R316). What the witness decodes at
the pads is the command's operand, since the model puts nothing wrong on a wire of its own; what it makes of that, against its compare
memory, is computed. -/

namespace Sys2Proof.Machine

/-- WIT_STATUS.STATE. -/
def State.setWit (s : State) (h st : Nat) : State := s.setFld .witStatus h 0 0 2 st

/-- The oldest frame of a port that its witness has still to finish. -/
def HeadSt.witOf (x : HeadSt) (p : Nat) : Option WitEnt := x.wit.find? fun w => w.port == p

/-- Change that frame's entry. -/
def HeadSt.putWit (x : HeadSt) (w : WitEnt) : HeadSt :=
  { x with wit := x.wit.map fun v => if v.port = w.port ∧ v.num = w.num then w else v }

/-- The first failing check of a frame (R294, R296, R297): the frame is mismatched; the second in a row takes the port to SAFE. -/
def State.mismatch (s : State) (h : Nat) (w : WitEnt) (check tile : Nat) : State :=
  let x := s.head h
  let s := s.setHead h { x.putWit { w with fail := check, tile := tile } with witBad := some w.num }
  let s := s.bump .witMismatchCount h 0 1
  let s := s.setFld .witStatus h 0 2 4 check
  let s := (s.setFld .witLastTile h 0 0 14 tile).setFld .witLastTile h 0 16 8 (w.num.toNat % 256)
  match assocGet x.witPrev w.port with
  | none => (s.setWit h 1).emit 0x1306 h 1 (pay [w.port, check, tile, w.num.toNat])
  | some first =>
    let s := s.setFld .witStatus h 0 16 16 (min 65535 (s.fld .witStatus h 0 16 16 + 1))
    let s := s.giveUp 0x13 h 1 (s.safeGives h) 0x1307 (some w.num)
    let s := (s.setWit h 2).emit 0x1307 h 2 (pay [w.port, first, check, w.num.toNat])
    (s.headSafe h 1 w.port).setHead h { (s.headSafe h 1 w.port).head h with witPrev := [] }

/-- The flag of a tile (R294, R296) (DEDUCED, log 38). -/
def State.flagTile (s : State) (h tile : Nat) (on : Bool) : State :=
  let v := s.tile h tile
  if v.testBit 41 = on then s else s.setTile h tile (if on then v + 2 ^ 41 else v - 2 ^ 41)

/-- A report of the witness reaches the warden (R299). -/
def State.witReport (s : State) : State := s.setWdn { s.wdn with witTick := s.ticks }

/-- Checks 2 and 4 of a tile (R294): TILE32 from the pads against the compare memory's; the digest of STAMP against the expected one, or,
where STAMP has DOUBT 1 (`fill`), a doubt-fill report. 0 for a pass, else the first failing check. -/
def tileCheck (v : Nat × Nat × Nat × Bool) (t32 digest : Nat) (fill : Bool) : Nat :=
  if t32 ≠ v.2.1 then 2
  else if (if fill then v.2.2.2 else digest == v.2.2.1) then 0
  else 4

/-- What remains of the frames a port's witness has to finish once frame w is done: tiles of it that went unchecked hold back LIVE at the head's
other port too (R295, spec/10 R316). -/
def HeadSt.endWit (x : HeadSt) (p : Nat) (w : WitEnt) : List WitEnt :=
  (x.wit.filter fun v => !(v.port == p && v.num == w.num)).map fun v =>
    if v.num = w.num ∧ !w.tiles.isEmpty then { v with unseen := true } else v

/-- WITNESS_TILE_CHECK: the witness of port p checks a tile of its oldest frame from what it decoded at the pads: TILE32, and the digest and
DOUBT of STAMP (R294 to R297) (DEDUCED, log 38). -/
def State.witTile (s : State) (p tile t32 digest : Nat) (fill : Bool) : State :=
  match s.plan.headOfPort p with
  | none => s
  | some e =>
    let h := e.head
    match (s.head h).witOf p with
    | none => s
    | some w =>
      match w.tiles.find? fun v => v.1 == tile with
      | none => if tile / max 1 (s.tileCols h) < w.arrived then s else (s.setHead h ((s.head h).putWit { w with late := true })).witReport
      | some v =>
        let check := tileCheck v t32 digest fill
        let w := { w with tiles := w.tiles.filter fun q => q.1 != tile }
        let s := (s.setHead h ((s.head h).putWit w)).witReport
        if check = 0 then s.flagTile h tile false
        else
          let s := s.flagTile h tile true
          if w.fail = 0 then s.mismatch h w check tile else s

/-- A fully live frame: composed, without doubt, every tile checked at every port (spec/10 R316). -/
def State.goLive (s : State) (h : Nat) (w : WitEnt) : State :=
  if s.output h = 2 ∧ w.composed ∧ !w.doubt ∧ w.tiles.isEmpty ∧ !w.unseen then (s.setOutput h 3 0).headEvent h 0x1403 0 (pay [w.since])
  else s

/-- The tile rows of a FRAME_END with row checks `rows` whose row check differs from the compare memory's (R294, check 3); none without a FRAME_END. -/
def WitEnt.badRows (w : WitEnt) (rows : List Nat) : List Nat :=
  if rows = [] then []
  else (List.range (max w.rows.length rows.length)).filter fun r => rows[r]? != w.rows[r]?

/-- Check 1: LINK32 of a packet's header and payload, recomputed (spec/13 R396). -/
def linkSound (raw : List Byte) : Bool :=
  let len := leAt raw 6 2
  decide (16 ≤ raw.length) && leAt raw 12 4 == link32 (raw.take 12) &&
    (len == 0 || (raw.length == 20 + len && leAt raw (16 + len) 4 == link32 (slice raw 16 len)))

/-- The failing checks of a frame among 1, 3 and 5 to 8 (R294, R295); 8 also where a tile reached the pads before its compare record: `last` the port's previous frame as (frame counter, latch time, arrival
of FRAME_END), `period` the frame period in ns, doubled at half cadence. A new baseline leaves out check 5 and the timing of check 7. -/
def WitEnt.failing (w : WitEnt) (rows : List Nat) (o : WitObs) (last : Option (Word × Word × Word)) (period : Nat) : List Nat :=
  let p : Int := if w.half then 2 * period else period
  let step : Word := if w.half then 2 else 1
  let before := if w.baseline then none else last
  let stamp := match before with
    | none => false
    | some q => o.num != q.1 + step || decide (sdiff o.time q.2.1 ≤ 0) || decide (2 * p < sdiff o.time q.2.1)
  let late := match before with
    | none => false
    | some q => decide (3 * p < 2 * sdiff o.at_ q.2.2)
  (if o.pkts.all linkSound then [] else [1]) ++ (if (w.badRows rows).isEmpty then [] else [3]) ++ (if stamp then [5] else []) ++
    (if o.until_ = w.until_ then [] else [6]) ++ (if !o.whole || late then [7] else []) ++ (if o.compare && !w.late then [] else [8])

/-- WITNESS_FRAME_CHECK: the witness of port p checks its oldest frame from what it decoded at the pads (R294 to R297) (DEDUCED, log 38). -/
def State.witFrame (s : State) (p : Nat) (rows : List Nat) (o : WitObs) : State :=
  match s.plan.headOfPort p with
  | none => s
  | some e =>
    let h := e.head
    match (s.head h).witOf p with
    | none => s
    | some w =>
      if !w.ended then s
      else
        let fails := w.failing rows o (assocGet (s.head h).witLast p) (framePs (s.reg .grpRate 0 e.group).toNat / 1000)
        let cols := s.tileCols h
        let s := (s.bump .witFramesChecked h 0 1).witReport
        let s := s.setHead h { s.head h with witLast := assocSet (s.head h).witLast p (o.num, o.time, o.at_) }
        let flagged := (w.badRows rows).flatMap fun r => (List.range (w.span.2 - w.span.1)).map fun i => r * cols + w.span.1 + i
        let s := forEach flagged (fun i s => s.flagTile h i true) s
        let s : State := match fails with
          | [] => s
          | c :: cs => if w.fail = 0 then s.mismatch h w (cs.foldl min c) (flagged.headD 0) else s
        let bad := w.fail ≠ 0 ∨ fails ≠ []
        let y := s.head h
        let wit := y.endWit p w
        let first := if w.fail ≠ 0 then w.fail else fails.foldl min 8
        let prev := if !decide bad then assocDel y.witPrev p else if s.output h = 4 then y.witPrev else assocSet y.witPrev p first
        let x : HeadSt := { y with wit := wit, witPrev := prev }
        let s := s.setHead h x
        if bad then s
        else
          let s := if s.output h = 4 ∨ !x.witPrev.isEmpty then s else s.setWit h 0
          if x.witBad == some w.num || x.wit.any (fun v => v.num == w.num) then s else s.goLive h w

/-! ### The island (R299) -/

/-- Every out-port is driven to SAFE with cause ISLAND; each running head's giving-up is a decision record that names the event raised
(R282, spec/01 R28) (DEDUCED, log 38). -/
def State.islandSafeBy (s : State) (code : Nat) : State :=
  let outs := (List.range 64).filter fun p => s.plan.role p == 1
  let s := forEach (s.plan.heads.map HeadEnt.head) (fun h s =>
    let s := s.setHead h { s.head h with rearm := false }
    if s.output h = 0 then s
    else if s.output h = 4 then (s.setFld .headStatus h 0 4 2 3).setWit h 2
    else ((s.giveUp 0x13 h 1 (s.safeGives h) code (some (s.reg .headFrame h 0))).headSafe h 3
      ((s.plan.head h).map HeadEnt.primary |>.getD 0)).setWit h 2) s
  forEach outs (fun p s => if (s.link p).safe = some 1 then s else s.safeWire p 1) s

/-- The same for the loss of the island, which WITNESS_ISLAND tells. -/
def State.islandSafe (s : State) : State := s.islandSafeBy 0x1309

/-- ISLAND_OK as every head shows it. -/
def State.showIsland (s : State) (ok : Bool) : State :=
  forEach (s.plan.heads.map HeadEnt.head) (fun h s => s.setFld .witStatus h 0 6 1 (b2n ok)) (s.setWdn { s.wdn with island := ok })

/-- The island is lost: reason 0 power-good, 1 its reports. A fabric die that is held in reset has no out-port to drive (R299). -/
def State.islandLost (s : State) (reason : Nat) : State :=
  let n := if s.fabricUp then ((List.range 64).filter fun p => s.plan.role p == 1).length else 0
  let s := s.showIsland false
  let s := if s.fabricUp then s.islandSafe else s
  s.emit 0x1309 0xFFFF 2 (pay [reason, n])

/-- WITNESS_ISLAND_POWER_LOSS. -/
def State.islandPowerLoss (s : State) : State := s.islandLost 0

/-- WITNESS_REPORT_TIMEOUT: no report for 1 ms, in all of which an out-port sent frames (DEDUCED, log 38). -/
def State.reportTimeout (s : State) : State :=
  let sending := s.plan.heads.any fun e =>
    match (s.head e.head).frame with
    | some f => f.sent && (decide ((1000000 : Int) ≤ sdiff s.now f.time) || decide (1 < (s.head e.head).sinceMode))
    | none => false
  if s.fabricUp ∧ sending ∧ s.wdn.witTick + tickMs ≤ s.ticks then s.islandLost 1 else s

/-- WITNESS_ISLAND_RESTORED: ISLAND_OK is set, and REARM can succeed again (R298, R299). -/
def State.islandRestored (s : State) : State := (s.showIsland true).witReport

def execWitnessTileCheck (p tile : Nat) (o : TileObs) (s : State) : Answer :=
  s.fabric fun s => s.witTile p tile o.t32.toNat o.digest.toNat o.fill
def execWitnessIslandPowerLoss (s : State) : Answer := s.warden State.islandPowerLoss
def execWitnessReportTimeout (s : State) : Answer := s.warden State.reportTimeout
def execWitnessIslandRestored (s : State) : Answer := s.warden State.islandRestored

end Sys2Proof.Machine
end

