-- ==== Sys2Proof/Machine/CheckUnit.lean ====
section
/-! DEFINITION. The check units of the CHECK capability (spec/13 R431 to R434). -/

namespace Sys2Proof.Machine

/-- The parameters a unit computes with: its preset, or at expert level the expert registers (R431, R434). -/
def State.chkSpec (s : State) (u : Nat) : CrcSpec :=
  let x (r : FReg) : Word := s.reg r u 0
  match s.fld .chkPreset u 0 0 3 with
  | 2 => jrnl64Spec
  | 3 => touch16Spec
  | 7 =>
    if s.expert 7 u then
      let sh := x .chkXShape
      let two (lo hi : FReg) : Nat := (x lo).toNat + (x hi).toNat * 2 ^ 32
      let w := bf sh 0 7
      ⟨w, two .chkXPolyLo .chkXPolyHi % 2 ^ w, two .chkXInitLo .chkXInitHi % 2 ^ w, (bit sh 8, bit sh 9),
        two .chkXXoroutLo .chkXXoroutHi % 2 ^ w⟩
    else link32Spec
  | _ => link32Spec

/-- The shared part of both commands: the data, its check value in CHK_RESULT, and what follows with the value's bytes. -/
def checkCmd (f : Nat → FEntry → Nat → List Byte → State → State × Option (Nat × Nat)) : Perf := fun host _ e s =>
  let n := e.arg 40 4
  checked 7 (e.object == 0xFFFF) (decide (1 ≤ n ∧ n ≤ 16777216) && e.zeroFrom 44 56) false e s fun s =>
    match s.load host (e.arg 32 8) n with
    | (s, .refused) => done s stAccess
    | (s, .ue _) => done s stEcc
    | (s, .ok d) =>
      let c := s.chkSpec e.inst
      let v := crc c d
      f host e (e.arg 32 8 + n) (le (cdiv c.width 8) v) (s.setPair .chkResultLo .chkResultHi e.inst 0 v)

/-- CHECK_APPEND. -/
def checkAppend : Perf := checkCmd fun host _ at_ v s =>
  match s.store host at_ v with
  | (s, true) => done s stOk
  | (s, false) => done s stAccess

/-- CHECK_VERIFY. -/
def checkVerify : Perf := checkCmd fun host e at_ v s =>
  match s.load host at_ v.length with
  | (s, .refused) => done s stAccess
  | (s, .ue _) => done s stEcc
  | (s, .ok d) =>
    if d = v then done (s.bump .chkPass e.inst 0 1) stOk
    else
      let s := (s.bump .chkFail e.inst 0 1).setFld .chkStatus e.inst 0 1 1 1
      done (s.emit 0x0701 e.inst 1 (pay [e.inst, e.arg 32 8, leNat v % 2 ^ 32])) stFailed 1

def execCheckAppend (r k : Nat) (s : State) : Answer := s.fabric fun s => s.runCmd 0x0701 checkAppend r k
def execCheckVerify (r k : Nat) (s : State) : Answer := s.fabric fun s => s.runCmd 0x0702 checkVerify r k

end Sys2Proof.Machine
end

