-- ==== Sys2Proof/Machine/Encode.lean ====
section
/-! DEFINITION. Coded video output (spec/11): encode instants, the input picture, rate control, the output ring. The bits of H.265
are Config's (log 34); everything the spec states about them is here. -/

namespace Sys2Proof.Machine

def State.enc (s : State) (c : Nat) : EncSt := tabGet EncSt.init s.encs c
def State.setEnc (s : State) (c : Nat) (x : EncSt) : State := { s with encs := tabSet EncSt.init s.encs c x }

/-- The master of an encoder core. -/
def encMaster (c : Nat) : Nat := 28 + c

/-! ### Settings -/

def State.encGroup (s : State) (c : Nat) : Nat := s.fld .encCtl c 0 4 3
def State.encDiv (s : State) (c : Nat) : Nat := max 1 (s.fld .encCtl c 0 8 4)
def State.encW (s : State) (c : Nat) : Nat := s.fld .encSize c 0 0 16
def State.encH (s : State) (c : Nat) : Nat := s.fld .encSize c 0 16 16
def State.encTen (s : State) (c : Nat) : Bool := bit (s.reg .encCtl c 0) 2 && bit (s.reg .encCfg c 0) 10
def State.encCols (s : State) (c : Nat) : Nat := cdiv (s.encW c) 64
def State.encCtus (s : State) (c : Nat) : Nat := s.encCols c * cdiv (s.encH c) 64

/-- F of R348, the encode rate in whole pictures a second. -/
def State.encF (s : State) (c : Nat) : Nat := cdiv (s.reg .grpRate 0 (s.encGroup c)).toNat (1000 * s.encDiv c)

/-- The floor of the present size (R348). -/
def State.encFloor (s : State) (c : Nat) : Nat := if s.encCtus c = 0 then 0 else 64 + s.encCtus c

/-- ENC_FLOOR follows the size. -/
def State.showFloor (s : State) (c : Nat) : State := s.setReg .encFloor c 0 (w32 (s.encFloor c))

/-- One reference area in bytes, and the next multiple of 4 KiB (R344, the register table). -/
def State.refLen (s : State) (c : Nat) : Nat :=
  let n := s.encCols c * 64 * (cdiv (s.encH c) 64 * 64)
  if s.encTen c then n * 3 else n * 3 / 2
def State.refArea (s : State) (c : Nat) : Nat := cdiv (s.refLen c) 4096 * 4096
def State.refBase (s : State) (c : Nat) (second : Bool) : Nat :=
  s.pair .encRefBaseLo .encRefBaseHi c 0 + if second then s.refArea c else 0

/-- The levels of H.265 up to 5.1, Main tier, lowest first: ten times the level, most luma samples of a picture, luma samples a second,
bits a second (R352) (PRESUMED, log 76). -/
def levelLimits : List (Nat × Nat × Nat × Nat) :=
  [(10, 36864, 552960, 128000), (20, 122880, 3686400, 1500000), (21, 245760, 7372800, 3000000), (30, 552960, 16588800, 6000000),
    (31, 983040, 33177600, 10000000), (40, 2228224, 66846720, 12000000), (41, 2228224, 133693440, 20000000),
    (50, 8912896, 267386880, 25000000), (51, 8912896, 534773760, 40000000)]

/-- The lowest level whose limits hold for a size, a rate in mHz over a divisor, and a bit rate (R352); a side is at most the root of
eight times the picture's limit (PRESUMED, log 76). -/
def lowestLevel (w h rate div bits : Nat) : Nat :=
  ((levelLimits.find? fun l => decide (w * h ≤ l.2.1 ∧ w * w ≤ 8 * l.2.1 ∧ h * h ≤ 8 * l.2.1 ∧ w * h * rate ≤ l.2.2.1 * 1000 * div ∧
    bits ≤ l.2.2.2)).map Prod.fst).getD 51

/-- What the stream of a core says of itself (R343, R352). -/
def State.vidInfo (s : State) (c : Nat) : VidInfo :=
  let rate := (s.reg .grpRate 0 (s.encGroup c)).toNat
  { profile := 1 + b2n (s.encTen c), tier := 0,
    level := lowestLevel (s.encW c) (s.encH c) rate (s.encDiv c) ((s.reg .encSecCap c 0).toNat * 8),
    width := s.encW c, height := s.encH c, matrix := s.fld .encCtl c 0 3 1, fullRange := false, chromaLoc := 0,
    rateMhz := rate, div := s.encDiv c }

/-- Width and height to be scaled: the crop's, exchanged at 90° and 270° (R341). -/
def turned (rotate w h : Nat) : Nat × Nat := if rotate % 2 = 1 then (h, w) else (w, h)

/-- Each ratio lies from 1/8 to 1 (R341 step 3) (DEDUCED, log 39). -/
def encRatio (rotate w h outW outH : Nat) : Bool :=
  let t := turned rotate w h
  decide (outW ≤ t.1 ∧ t.1 ≤ 8 * outW ∧ outH ≤ t.2 ∧ t.2 ≤ 8 * outH)

/-- The checks STARTING makes (R340, R348, R355): the reason of the first that fails. -/
def State.encCheck (s : State) (c : Nat) : Option Nat :=
  match s.plan.enc c with
  | none => some 1
  | some e =>
    let r := s.fld .encRing c 0 0 9
    let out := s.pair .encOutBaseLo .encOutBaseHi c 0
    let size := (s.reg .encOutSize c 0).toNat
    let n := s.fld .encSrc c 0 0 7
    let w := s.encW c
    let h := s.encH c
    let rate := (s.reg .grpRate 0 (s.encGroup c)).toNat
    let input := s.fld .encCropSize c 0 0 16 * s.fld .encCropSize c 0 16 16
    -- seconds a picture × pictures a second, in units of 1/8,000,000,000
    let busy := max (w * h * 8000000000 * rate) (input * 497664000 * rate)
    let sizeOk := decide (64 ≤ w ∧ w ≤ 4096 ∧ w % 8 = 0 ∧ 64 ≤ h ∧ h ≤ 4096 ∧ h % 8 = 0 ∧ w * h ≤ 8912896)
    if 256 ≤ r ∨ s.plan.ringHost r ≠ some e.host ∨ s.bus.ringKind r ≠ 3 ∨ !s.isOn 2 r then some 1
    else if !(s.bus.passes (encMaster c) out size false true && s.bus.passes (encMaster c) (s.refBase c false) (s.refLen c) true true &&
        s.bus.passes (encMaster c) (s.refBase c true) (s.refLen c) true true) then some 2
    else if (s.plan.source n).isNone then some 3
    else if !sizeOk ∨ e.maxWidth < w ∨ e.maxHeight < h ∨ rate = 0 ∨ e.maxRate * s.encDiv c < rate ∨
        8000000000 * 497664000 * 1000 * s.encDiv c < busy ∨
        !encRatio (s.fld .encCtl c 0 0 2) (s.fld .encCropSize c 0 0 16) (s.fld .encCropSize c 0 16 16) w h then some 4
    else if (s.reg .encPicCap c 0).toNat < s.encFloor c ∨ (s.reg .encSecCap c 0).toNat < s.encF c * s.encFloor c then some 5
    else none

/-- The encode instant after `t`, the `n`-th frame instant of the group (R336). -/
def State.encNext (s : State) (c n : Nat) (t : Word) : Word :=
  s.instant (s.encGroup c) (s.firstK (s.encGroup c) t 1 + ((n : Int) - 1))

/-- INPUT_STATE follows the last entry (R357) (DEDUCED, log 39). -/
def State.encState (s : State) (c st tag : Nat) : State :=
  let old := s.fld .encStatus c 0 9 2
  if old = st then s
  else (s.setFld .encStatus c 0 9 2 st).emit 0x1504 c (if st = 0 ∨ st = 3 then 1 else 0) (pay [old, st, tag])

/-- A core enters ON: its first encode instant is the first frame instant that follows (R336), its first picture an IDR (R347). The 100 ms of its events run on (R357). -/
def State.encOn (s : State) (c : Nat) : State :=
  let s := s.encState c 0 0
  let s := s.setEnc c { EncSt.init with next := some (s.encNext c 1 s.now), idr := some 0, capEv := (s.enc c).capEv, lateEv := (s.enc c).lateEv }
  let s := (s.setReg .encStatus c 0 (s.reg .encStatus c 0 &&& 0x800)).setReg .encWindowBytes c 0 0
  s.showFloor c

/-- The core releases its input buffer as a head does (R336). -/
def State.encRelease (s : State) (j : EncJob) : State :=
  match j.input with
  | some (n, b) => if j.pic.isNone then s.releaseBuf n b else s
  | none => s

/-- A picture in progress is abandoned: no entry; the next picture is an IDR with cause 3 (spec/16 R509). -/
def State.encAbandon (s : State) (c : Nat) : State :=
  match (s.enc c).job with
  | none => s
  | some j => ((s.encRelease j).setEnc c { s.enc c with job := none, idr := some 3 }).setFld .encStatus c 0 12 1 0

/-- A core leaves ON (R355); the 100 ms of its events run on (R357). -/
def State.encOff (s : State) (c : Nat) : State :=
  (s.encAbandon c).setEnc c { EncSt.init with capEv := (s.enc c).capEv, lateEv := (s.enc c).lateEv }

/-- The ring, the source's writer and the host port of a core are all in ON (R355). -/
def State.encFed (s : State) (c : Nat) : Bool :=
  let n := s.fld .encSrc c 0 0 7
  let r := s.fld .encRing c 0 0 9
  let a := s.srcAttach n
  let writer := match s.srcKind n with
    | 0 | 1 => s.isOn 0x20 a
    | 2 => !(s.bus.hostSt a).underReset
    | 3 => s.isOn 0x11 n
    | 4 => s.isOn 0x14 a
    | _ => true
  s.isOn 2 r && writer && !(s.bus.hostSt ((s.plan.ringHost r).getD 0)).underReset

/-- Cores in ON that had all of these in `z` and have no longer: only repeat pictures until their own FN_CTL changes (R355). -/
def State.encCuts (s z : State) : State :=
  forEach (List.range 8) (fun c s =>
    if s.isOn 0x15 c && z.encFed c && !s.encFed c then s.setEnc c { s.enc c with cut := true } else s) s

/-! ### Encode instants (R336 to R339, R347 to R353) -/

/-- Entries of the output ring that the host has not freed; a ring that is not ON holds none (DEDUCED, log 39). -/
def State.encOuts (s : State) (c : Nat) : List (Nat × Nat × Nat) :=
  let r := s.fld .encRing c 0 0 9
  if !s.isOn 2 r then []
  else (s.enc c).outs.filter fun o => decide ((w32 o.1 - s.bus.ringCons r).toNat < 2 ^ 31)

/-- Bytes [a, a+n) of the output area are free. -/
def areaFree (outs : List (Nat × Nat × Nat)) (a n : Nat) : Bool :=
  outs.all fun o => decide (o.2.1 + o.2.2 ≤ a ∨ a + n ≤ o.2.1)

/-- Why a picture cannot be coded (R353): 0 ring full, 1 area full; an area smaller than the cap never has it free. -/
def State.encBlocked (s : State) (c limit : Nat) : Option Nat :=
  let r := s.fld .encRing c 0 0 9
  let size := (s.reg .encOutSize c 0).toNat
  let x := s.enc c
  let outs := s.encOuts c
  if s.isOn 2 r && decide (s.bus.ringSize r ≤ s.bus.ringUsed r) then some 0
  else if decide (limit ≤ size) && areaFree outs x.pos (min limit (size - x.pos)) && (decide (x.pos + limit ≤ size) || areaFree outs 0 (min limit size)) then none
  else some 1

/-- The cap of the next picture (R349). -/
def State.encCap (s : State) (c : Nat) : Nat :=
  let f := s.encF c
  let sum := (((s.enc c).sizes.take (f - 1)).map fun n => max n (s.encFloor c)).sum
  min (s.reg .encPicCap c 0).toNat ((s.reg .encSecCap c 0).toNat - sum)

/-- An instant is passed over (R339, R357) (DEDUCED, log 39). -/
def State.encPass (s : State) (c : Nat) (t : Word) : State :=
  let x := s.enc c
  let s := s.codingRec 0x15 c 4 c 0 0 t
  let s := s.bump .encLate c 0 1
  let n := (x.lateEv.map Prod.snd).getD 0 + 1
  let due := match x.lateEv with | none => true | some (q, _) => decide (q + 100 * tickMs ≤ s.ticks)
  let x := { x with late := x.late + 1 }
  if due then (s.setEnc c { x with lateEv := some (s.ticks, 0) }).emit 0x1503 c 1 (pay [x.late, n])
  else s.setEnc c { x with lateEv := x.lateEv.map fun q => (q.1, n) }

/-- A performed SELECT takes effect (R356). -/
def State.encSelect (s : State) (c : Nat) : State :=
  match (s.enc c).sel with
  | none => s
  | some (n, x, y, w, h) =>
    let s := (s.setReg .encSrc c 0 (w32 n)).setReg .encCropPos c 0 (w32 (x + y * 65536))
    (s.setReg .encCropSize c 0 (w32 (w + h * 65536))).setEnc c { s.enc c with sel := none }

/-- ENCODE_INSTANT: core c reaches an encode instant (DEDUCED, log 39). -/
def State.encInstant (s : State) (c : Nat) : State :=
  match (s.enc c).next with
  | none => s
  | some t =>
    if !s.isOn 0x15 c ∨ (s.reg .grpRate 0 (s.encGroup c)).toNat = 0 ∨ !atOrAfter s.now t then s
    else
      let s := s.setEnc c { s.enc c with next := some (s.encNext c (s.encDiv c) t) }
      let s := s.encSelect c
      if s.follows then s
      else if (s.enc c).job.isSome then s.encPass c t
      else
        let x := s.enc c
        let limit := s.encCap c
        match s.encBlocked c limit with
        | some why =>
          let s := (s.codingRec 0x15 c 5 c 0 0 t).bump .encDropped c 0 1
          let s := s.setEnc c { x with idr := some 3, lost := true, poc := x.poc + 1 }
          let s := if why = 0 then s.onBus fun b => b.ringFull (s.fld .encRing c 0 0 9) 1 else s
          s.emit 0x1502 c 1 (pay [why, t.toNat])
        | none =>
          let n := s.fld .encSrc c 0 0 7
          let r := s.fld .encRing c 0 0 9
          let writer := !x.cut && s.isOn 2 r && !s.writerAbsent n && !((s.bus.hostSt ((s.plan.ringHost r).getD 0)).underReset)
          let cand := if writer then s.latchable n t else none
          let fresh := match cand with
            | some b => match x.last with
              | some (tag, _, _) => if (s.reg .srcBufTag n b).toNat = tag then none else some b
              | none => some b
            | none => none
          let stamps := match fresh with
            | some b => ((s.reg .srcBufTag n b).toNat, s.reg .srcBufTime n b, s.fld .srcBufAlive n b 0 16)
            | none => x.last.getD (0, 0, 0)
          let period := s.fld .encCtl c 0 16 16
          let idr := match x.idr with
            | some q => some q
            | none => if period ≠ 0 ∧ x.pics % period = 0 then some 4 else none
          let taint := s.srcKind n == 3 && s.syncState n == 2
          let degraded := taint || (match fresh with | some b => bit (s.reg .srcBufState n b) 4 | none => false)
          let j : EncJob :=
            { instant := t, input := fresh.map fun b => (n, b), pic := none, again := fresh.isNone, absent := (s.newest n).isNone,
              cap := stamps.2.1, alive := stamps.2.2, tag := stamps.1, st := s.fld .srcState n 0 0 2, degraded := degraded,
              idr := idr, crop := (s.fld .encCropPos c 0 0 16, s.fld .encCropPos c 0 16 16, s.fld .encCropSize c 0 0 16, s.fld .encCropSize c 0 16 16),
              qp := min 51 (s.fld .encQp c 0 0 6 + s.fld .encStatus c 0 0 8), limit := limit,
              poc := if idr.isSome then 0 else x.poc + x.late + 1, late := decide (0 < x.late), lost := x.lost }
          let s := match fresh with
            | some b => s.holdBuf n b
            | none => s
          let s := s.codingRec 0x15 c 3 c j.alive j.tag t
          (s.setEnc c { x with job := some j, idr := none, late := 0, lost := false, poc := j.poc }).setFld .encStatus c 0 12 1 1

/-! ### The input picture (R341 to R343) -/

/-- A pixel of the crop at (x, y) of the turned picture, clockwise (R341 step 2) (DESIGN CHOICE, log 35). -/
def turnAt (rotate w h x y : Nat) : Nat × Nat :=
  match rotate with
  | 1 => (y, h - 1 - x)
  | 2 => (w - 1 - x, h - 1 - y)
  | 3 => (w - 1 - y, x)
  | _ => (x, y)

/-- Step 4 for an RGB input (R342) (DESIGN CHOICE, log 35). -/
def encYuv (matrix : Bool) (p : Px) : Px :=
  let f (a b c : Int) (o : Int) : Int := clampI 0 4095 ((a * p.r + b * p.g + c * p.b + 2048) / 4096 + o)
  if matrix then ⟨f 924 2385 209 256, f (-502) (-1297) 1799 2048, f 1799 (-1654) (-145) 2048, p.a⟩
  else ⟨f 748 2516 254 256, f (-412) (-1387) 1799 2048, f 1799 (-1634) (-165) 2048, p.a⟩

/-- Step 6. -/
def encDepth (ten : Bool) (v : Int) : Nat := if ten then min 1023 ((v + 2) / 4).toNat else min 255 ((v + 8) / 16).toNat

/-- Step 5 (R343): chroma sample (i, j) from the 4:4:4 samples. -/
def encChroma (w : Nat) (sample : Nat → Nat → Int) (i j : Nat) : Int :=
  let v (x : Int) : Int := let q := (clampI 0 ((w : Int) - 1) x).toNat; (sample q (2 * j) + sample q (2 * j + 1) + 1) / 2
  (v (2 * i - 1) + 2 * v (2 * i) + v (2 * i + 1) + 2) / 4

/-- The coded picture: luma, Cb and Cr rows (R341). -/
def encPicture (g : Geo) (bs : Blocks) (ctl : Word) (cx cy cw ch w h : Nat) (ten : Bool) : List (List (List Nat)) :=
  let rot := bf ctl 0 2
  let t := turned rot cw ch
  let src (x y : Nat) : Px :=
    let q := turnAt rot cw ch x y
    let sx := cx + q.1
    let sy := cy + q.2
    if g.w ≤ sx ∨ g.h ≤ sy then
      let o (k : Nat) : Int := Config.outsideSample sx sy k % 4096
      ⟨o 0, o 1, o 2, 1023⟩
    else
      let p := unpackAt bs g.fmt g.w g.h sx sy
      ⟨p.r, p.g, p.b, 1023⟩
  let bank : BankSt := { cropW := t.1, dstW := w, cropH := t.2, dstH := h, table := [] }
  let scaled (x y : Nat) : Px :=
    let hp := scalePos 0 t.1 w x
    let vp := scalePos 0 t.2 h y
    let column (sx : Nat) : Px :=
      filterOut ((List.range 6).map fun k => (bank.vert vp.2 k, src sx (tapAt 0 t.2 (vp.1 - 2 + k))))
    let p := filterOut ((List.range 8).map fun k => (bank.horiz hp.2 k, column (tapAt 0 t.1 (hp.1 - 3 + k))))
    if isYuv g.fmt then p else encYuv (bit ctl 3) p
  let px := (List.range h).map fun y => (List.range w).map fun x => scaled x y
  let at_ (x y : Nat) : Px := (px.getD y []).getD x ⟨0, 0, 0, 0⟩
  let chroma (f : Px → Int) : List (List Nat) := (List.range (h / 2)).map fun j => (List.range (w / 2)).map fun i =>
    encDepth ten (encChroma w (fun x y => f (at_ x y)) i j)
  [px.map fun row => row.map fun p => encDepth ten p.r, chroma Px.g, chroma Px.b]

/-- The blocks of buffer b of source n that a crop (x, y, width, height) needs, fetched as core c's master (R341); the chroma of R228
reaches two pixels further. -/
def State.encBlocks (s : State) (c n b : Nat) (crop : Nat × Nat × Nat × Nat) : State × Fetch Blocks :=
  let g := s.geo n
  let more := if isYuv g.fmt then 2 else 0
  let bx := (List.range g.bw).filter fun x => decide (crop.1 < 8 * x + 8 + more ∧ 8 * x < crop.1 + crop.2.2.1 + more)
  let bY := (List.range g.bh).filter fun y => decide (crop.2.1 < 4 * y + 4 + more ∧ 4 * y < crop.2.1 + crop.2.2.2 + more)
  (bY.flatMap fun y => bx.map fun x => (x, y)).foldl (fun acc q =>
    match acc with
    | (s, .ok bs) =>
      match s.fetchBlock (encMaster c) (s.bufAddr n b) g q.1 q.2 with
      | (s, .ok d) => (s, .ok (bs ++ [(q.2 * 65536 + q.1, d)]))
      | (s, .refused) => (s, .refused)
      | (s, .ue) => (s, .ue)
      | (s, .bad a k) => (s, .bad a k)
    | other => other) (s, .ok [])

/-- ENC_INPUT_RELEASE: the core has read the last input row and releases the buffer (R336). -/
def State.encInput (s : State) (c : Nat) : State :=
  match (s.enc c).job with
  | none => s
  | some j =>
    match j.input with
    | none => s
    | some (n, b) =>
      if j.pic.isSome then s
      else
        match s.encBlocks c n b j.crop with
        | (s, .ok bs) =>
          let pic := encPicture (s.geo n) bs (s.reg .encCtl c 0) j.crop.1 j.crop.2.1 j.crop.2.2.1 j.crop.2.2.2 (s.encW c) (s.encH c) (s.encTen c)
          (s.releaseBuf n b).setEnc c { s.enc c with job := some { j with pic := some pic } }
        | (s, _) => s.encAbandon c

/-! ### The coded picture (R345 to R354) -/

/-- Rate control of R350 over the CTUs in order: the bytes kept, the CTUs kept, and the first skipped CTU. `choose` is the next CTU after
those kept, `code` the bytes of the last of its list. -/
def keepCtus (limit : Nat) (choose : List CtuCode → CtuCode) (code : List CtuCode → List Byte) :
    Nat → List Byte → List CtuCode → List Byte × List CtuCode × Option Nat
  | 0, kept, l => (kept, l, none)
  | left + 1, kept, l =>
    let l' := l ++ [choose l]
    let d := code l'
    if kept.length + d.length + left ≤ limit then keepCtus limit choose code left (kept ++ d) l' else (kept, l, some l.length)

/-- The CTUs that follow as skip CTUs, at most one byte each (R348, R350). -/
def skipCtus (choose : List CtuCode → CtuCode) (code : List CtuCode → List Byte) : Nat → List Byte → List CtuCode → List Byte × List CtuCode
  | 0, kept, l => (kept, l)
  | left + 1, kept, l =>
    let l' := l ++ [choose l]
    skipCtus choose code left (kept ++ (code l').take 1) l'

/-- The intra-refresh band of the next P picture (R347) (DEDUCED, log 39). -/
def State.encBand (s : State) (c : Nat) : Nat × Nat :=
  if !bit (s.reg .encCtl c 0) 12 then (0, 0)
  else
    let n := s.fld .encXRefresh c 0 0 8
    let cols := s.encCols c
    let w := if n = 0 then 1 else cdiv cols n
    (((s.enc c).band * w) % (cdiv cols w * w), w)

/-- A CAPPED picture: the counter, ENC_CAPPED at most once per 100 ms (R350, R357). -/
def State.encCapped (s : State) (c poc first limit : Nat) : State :=
  let s := s.bump .encCapped c 0 1
  let x := s.enc c
  let n := (x.capEv.map Prod.snd).getD 0 + 1
  let due := match x.capEv with | none => true | some (q, _) => decide (q + 100 * tickMs ≤ s.ticks)
  if due then (s.setEnc c { x with capEv := some (s.ticks, 0) }).emit 0x1501 c 1 (pay [poc, first, limit, s.fld .encStatus c 0 0 8, n])
  else s.setEnc c { x with capEv := x.capEv.map fun q => (q.1, n) }

/-! The search window of R345. A reference area is held as its luma plane, then Cb, then Cr (DESIGN CHOICE, log 34). -/

/-- Byte of a sample of plane k (0 luma, 1 Cb, 2 Cr) in the reference area, with the bytes of a sample. -/
def State.refSample (s : State) (c k x y : Nat) : Nat :=
  let b := 1 + b2n (s.encTen c)
  let pw := s.encCols c * 64
  let n := pw * (cdiv (s.encH c) 64 * 64)
  if k = 0 then (y * pw + x) * b else (n + (k - 1) * (n / 4) + y * (pw / 2) + x) * b

/-- The luma rows of the windows of CTU row r that lie in the picture: first row, and the row after the last. -/
def State.windowRows (s : State) (c r : Nat) : Nat × Nat := (64 * r - 128, min (s.encH c) (64 * r + 192))

/-- The luma columns of the loads of one CTU row, as (first, columns): the whole window at its start, then a column of 64 for each CTU to
the right, as far as the picture goes. -/
def State.windowLoads (s : State) (c : Nat) : List (Nat × Nat) :=
  (0, min 320 (s.encW c)) :: ((List.range (s.encCols c)).map fun i => (320 + 64 * i, min 64 (s.encW c - (320 + 64 * i)))).filter fun q => q.2 != 0

/-- The reads of one load of CTU row r, as (offset in the area, bytes): its luma rows, then those of Cb and of Cr. -/
def State.loadReads (s : State) (c r : Nat) (q : Nat × Nat) : List (Nat × Nat) :=
  let rows := s.windowRows c r
  let b := 1 + b2n (s.encTen c)
  ((List.range (rows.2 - rows.1)).map fun j => (s.refSample c 0 q.1 (rows.1 + j), q.2 * b)) ++
    [1, 2].flatMap fun k => (List.range ((rows.2 - rows.1) / 2)).map fun j => (s.refSample c k (q.1 / 2) (rows.1 / 2 + j), q.2 / 2 * b)

/-- Reads made in order by master m, up to the first that fails. -/
def State.fetchEach (s : State) (m base : Nat) (reads : List (Nat × Nat)) : State × Fetch (List (List Byte)) :=
  reads.foldl (fun acc q =>
    match acc with
    | (s, .ok l) =>
      match s.fetchBytes m (base + q.1) q.2 with
      | (s, .ok d) => (s, .ok (l ++ [d]))
      | (s, .refused) => (s, .refused)
      | (s, .ue) => (s, .ue)
      | (s, .bad a k) => (s, .bad a k)
    | other => other) (s, .ok [])

/-- A CTU's window from the rows loaded for its CTU row: 576 × 320 luma samples and their chroma, centred on the CTU, samples beyond the
picture edge repeating the edge. -/
def State.ctuWindow (s : State) (c x r : Nat) (rows : List (List Byte)) : List Byte :=
  let span := s.windowRows c r
  let b := 1 + b2n (s.encTen c)
  [0, 1, 2].flatMap fun k =>
    let d := if k = 0 then 1 else 2
    let first := if k = 0 then 0 else (span.2 - span.1) + (k - 1) * ((span.2 - span.1) / 2)
    (List.range (320 / d)).flatMap fun j => (List.range (576 / d)).flatMap fun i =>
      let at_ (o n p : Int) : Nat := (clampI 0 (n - 1) (o + p)).toNat
      let y := at_ ((64 * (r : Int) - 128) / d) (s.encH c / d : Nat) j
      let q := at_ ((64 * (x : Int) - 256) / d) (s.encW c / d : Nat) i
      slice (rows.getD (first + (y - span.1 / d)) []) (q * b) b

/-- The windows of every CTU of a picture, with the loads that R345 makes for them. -/
def State.encWindows (s : State) (c base : Nat) : State × Fetch (List (List Byte)) :=
  (List.range (cdiv (s.encH c) 64)).foldl (fun acc r =>
    match acc with
    | (s, .ok l) =>
      let loads := s.windowLoads c
      match s.fetchEach (encMaster c) base (loads.flatMap (s.loadReads c r)) with
      | (s, .ok d) =>
        let per := d.length / loads.length
        let rows := (List.range per).map fun j => (List.range loads.length).flatMap fun i => d.getD (i * per + j) []
        (s, .ok (l ++ (List.range (s.encCols c)).map fun x => s.ctuWindow c x r rows))
      | other => other
    | other => other) (s, .ok [])

/-- First and last reference sample on one axis that a block at `a` of `n` samples with a vector of `v` quarter samples reads, the eight
taps of a fractional vector among them (R346) (PRESUMED, log 76). -/
def reach (a n : Nat) (v : Int) : Int × Int :=
  let p : Int := a + v / 4
  if v % 4 = 0 then (p, p + n - 1) else (p - 3, p + n + 3)

/-- The block, with its taps, lies in the window of CTU (x, r) (R345, R346). -/
def inWindow (x r : Nat) (b : PredBlock) (v : Int × Int) : Bool :=
  let h := reach b.x b.w v.1
  let u := reach b.y b.h v.2
  decide (64 * (x : Int) - 256 ≤ h.1 ∧ h.2 < 64 * (x : Int) + 320 ∧ 64 * (r : Int) - 128 ≤ u.1 ∧ u.2 < 64 * (r : Int) + 192)

/-- The vector a block may keep: none in an IDR or in the band of intra refresh, only one inside its window, and left of the band only
one that reaches no column that the cycle has not refreshed (R346, R347). -/
def keptVec (idr : Bool) (band : Nat × Nat) (x r : Nat) (b : PredBlock) : Option (Int × Int) :=
  match b.vec with
  | none => none
  | some v =>
    if idr || (decide (band.1 ≤ x) && decide (x < band.1 + band.2)) || !inWindow x r b v ||
        (decide (x < band.1) && decide (64 * (band.1 : Int) ≤ (reach b.x b.w v.1).2)) then none
    else some v

/-- Samples of a CTU's own window that a block's prediction takes: its rectangle with the taps, of each plane (log 76). -/
def State.predBytes (s : State) (c x r : Nat) (window : List Byte) (b : PredBlock) (v : Int × Int) : List Byte :=
  let n := 1 + b2n (s.encTen c)
  [0, 1, 2].flatMap fun k =>
    let d := if k = 0 then 1 else 2
    let first := if k = 0 then 0 else 576 * 320 + (k - 1) * (288 * 160)
    let h := reach b.x b.w v.1
    let u := reach b.y b.h v.2
    (List.range ((u.2 - u.1).toNat / d + 1)).flatMap fun j => (List.range ((h.2 - h.1).toNat / d + 1)).flatMap fun i =>
      let y := (clampI 0 (320 / d - 1 : Nat) ((u.1 - (64 * (r : Int) - 128)) / d + j)).toNat
      let q := (clampI 0 (576 / d - 1 : Nat) ((h.1 - (64 * (x : Int) - 256)) / d + i)).toNat
      slice window ((first + y * (576 / d) + q) * n) n

/-- The CTU that the search chooses after those of `l` (R346, R347). -/
def State.chooseCtu (s : State) (c : Nat) (j : EncJob) (band : Nat × Nat) (ref : List (List Byte)) (l : List CtuCode) : CtuCode :=
  let idr := j.idr.isSome
  let i := l.length
  let x := i % s.encCols c
  let r := i / s.encCols c
  let window := ref.getD i []
  { qp := j.qp, skip := false,
    blocks := (Config.search idr j.qp (j.pic.getD []) window l i).map fun b =>
      match keptVec idr band x r b with
      | none => ({ b with vec := none }, [])
      | some v => (b, s.predBytes c x r window b v) }

/-- The skip CTU after those of `l` (R348): intra DC in an IDR, else the candidate with a zero vector, or the first where none has one. -/
def State.skipCtu (s : State) (c : Nat) (j : EncJob) (ref : List (List Byte)) (l : List CtuCode) : CtuCode :=
  let i := l.length
  let x := i % s.encCols c
  let r := i / s.encCols c
  let b : PredBlock := ⟨64 * x, 64 * r, 64, 64, none⟩
  { qp := 51, skip := true,
    blocks :=
      if j.idr.isSome then [(b, [])]
      else
        let m := Config.mergeCands l i
        let v := if m.contains (0, 0) then (0, 0) else m.headD (0, 0)
        [({ b with vec := some v }, s.predBytes c x r (ref.getD i []) b v)] }

/-- The coded picture's bytes and reconstruction, and the first skipped CTU (R350, R352): a delimiter, in an IDR the parameter sets, one
slice; at most 64 bytes before the first CTU (R348) (DESIGN CHOICE, log 34). -/
def State.encCode (s : State) (c : Nat) (j : EncJob) (band : Nat × Nat) (ref : List (List Byte)) : List Byte × Option Nat × List Byte :=
  let idr := j.idr.isSome
  let info := s.vidInfo c
  let n := s.encCtus c
  let pic := j.pic.getD []
  let head := (((if idr then [0, 1, 2, 3, 4] else [0, 4]).flatMap fun k => Config.nalUnit k idr info j.qp j.poc)).take 64
  let code := Config.codeCtu idr info pic
  let kept := if j.again then (head, [], some 0) else keepCtus j.limit (s.chooseCtu c j band ref) code n head []
  let all := skipCtus (s.skipCtu c j ref) code (n - kept.2.1.length) kept.1 kept.2.1
  (all.1, kept.2.2, fit (s.refLen c) (Config.recon idr info pic all.2))

/-- A coded picture in memory is posted: entry, counters, the rate control's offset, the events (R350 to R354). `pos` its offset, `first`
the first skipped CTU. -/
def State.encPost (s : State) (c : Nat) (j : EncJob) (au : List Byte) (first : Option Nat) (pos : Nat) : State :=
  let x := s.enc c
  let capped := first.isSome && !j.again
  let base := s.pair .encOutBaseLo .encOutBaseHi c 0
  let r := s.fld .encRing c 0 0 9
  let st := if (capped || j.degraded) && j.st == 1 then 2 else j.st
  let seq := aliveNext x.seq
  let flags := b2n j.idr.isSome + 2 * b2n capped + 4 * b2n j.again + 8 * b2n (j.again && j.absent) + 16 * b2n j.lost + 32 * b2n j.late
  let entry := le 8 (base + pos) ++ le 4 au.length ++ le 4 j.cap.toNat ++ le 2 j.alive ++ le 1 flags ++ le 1 st ++ le 4 j.poc ++
    le 4 j.instant.toNat ++ le 1 j.qp ++ le 1 0 ++ le 2 (if capped then first.getD 0 else 0xFFFF) ++ le 4 j.tag ++
    le 4 j.limit ++ le 2 seq ++ List.replicate 22 0
  let k := (s.bus.ringProd r).toNat
  let host := (s.plan.ringHost r).getD 0
  let p := s.bus.post host r entry
  let s := { s with bus := p.1 }
  let sizes := (au.length :: x.sizes).take (s.encF c)
  let s := s.setEnc c { x with
    job := none, last := if j.again then x.last else some (j.tag, j.cap, j.alive), pics := x.pics + 1,
    band := if j.idr.isSome then 0 else x.band + 1, sizes := sizes,
    outs := if p.2 then s.encOuts c ++ [(k, pos, au.length)] else s.encOuts c, pos := pos + au.length, seq := seq, refB := !x.refB }
  let s := (s.setFld .encStatus c 0 12 1 0).setReg .encWindowBytes c 0 (w32 sizes.sum)
  let s := (s.bump .encPictures c 0 1).bump .encRepeats c 0 (b2n j.again)
  let s := s.setFld .encStatus c 0 8 1 (b2n capped)
  let s := match j.idr with
    | some cause => s.emit 0x1505 c 0 (pay [cause])
    | none => s
  let off := s.fld .encStatus c 0 0 8
  let s := if capped then (s.setFld .encStatus c 0 0 8 (min 255 (off + s.fld .encXRate c 0 0 4))).encCapped c j.poc (first.getD 0) j.limit
    else if au.length * 4 < j.limit * 3 then s.setFld .encStatus c 0 0 8 (off - 1) else s
  s.encState c st j.tag

/-- ENCODE_PICTURE_END: the core finishes its picture (R350 to R354) (DEDUCED, log 39). -/
def State.encEnd (s : State) (c : Nat) : State :=
  match (s.enc c).job with
  | none => s
  | some j =>
    if !j.again ∧ j.pic.isNone then s
    else
      let x := s.enc c
      let m := encMaster c
      let q := if j.idr.isSome then (s, Fetch.ok []) else s.encWindows c (s.refBase c x.refB)
      let s := q.1
      match q.2 with
      | .ok ref =>
        let band := if j.idr.isSome then (0, 0) else s.encBand c
        let out := s.encCode c j band ref
        let au := out.1
        let size := (s.reg .encOutSize c 0).toNat
        let pos := if x.pos + au.length ≤ size then x.pos else 0
        let base := s.pair .encOutBaseLo .encOutBaseHi c 0
        let w1 := s.store m (s.refBase c (!x.refB)) out.2.2
        let w2 := w1.1.store m (base + pos) au
        let s := w2.1
        if !(w1.2 && w2.2) then s.encAbandon c
        else s.encPost c j au out.2.1 pos
      | _ => s.encAbandon c

/-! ### Host writes and commands (R348, R356) -/

/-- ENC_CAP_WRITE: a write to ENC_PIC_CAP (`sec` false) or ENC_SEC_CAP. -/
def State.encCapWrite (s : State) (host c : Nat) (sec : Bool) (v : Word) : State :=
  s.hostWrite host 0x15 c 0 (if sec then 0x28 else 0x24) v fun s =>
    let least := if sec then s.encF c * s.encFloor c else s.encFloor c
    let low := s.fnState 0x15 c != 0 && decide (v.toNat < least)
    if low || (sec && decide (5000000 < v.toNat)) then s.setFld .encStatus c 0 11 1 1
    else s.setReg (if sec then .encSecCap else .encPicCap) c 0 v

/-- SELECT. -/
def select : Perf := fun _ _ e s =>
  let c := e.inst
  let w := e.arg 40 2
  let h := e.arg 42 2
  let argOk := (s.plan.source (e.arg 32 1)).isSome && e.zeroFrom 33 36 && e.zeroFrom 44 56 &&
    encRatio (s.fld .encCtl c 0 0 2) w h (s.encW c) (s.encH c)
  checked 0x15 (e.object == 0xFFFF) argOk false e s fun s =>
    let x := s.enc c
    done (s.setEnc c { x with sel := some (e.arg 32 1, e.arg 36 2, e.arg 38 2, w, h), idr := some (min (x.idr.getD 1) 1) }) stOk

/-- REQUEST_IDR. -/
def requestIdr : Perf := fun _ _ e s =>
  checked 0x15 (e.object == 0xFFFF) (e.zeroFrom 32 56) false e s fun s =>
    let x := s.enc e.inst
    done (s.setEnc e.inst { x with idr := some (min (x.idr.getD 2) 2) }) stOk

/-- HOST_PORT_RESET; encoders of the port code repeat pictures from then on (R355). -/
def execHostPortReset (port : Nat) (s : State) : Answer := s.fabric fun s => (s.hostPortReset port).encCuts s
def execEncodeInstant (c : Nat) (s : State) : Answer := s.fabric fun s => s.encInstant c
def execEncodePictureEnd (c : Nat) (s : State) : Answer := s.fabric fun s => s.encEnd c
def execEncInputRelease (c : Nat) (s : State) : Answer := s.fabric fun s => s.encInput c
def execEncCapWrite (host c : Nat) (sec : Bool) (v : Word) (s : State) : Answer := s.fabric fun s => s.encCapWrite host c sec v
def execSelect (r k : Nat) (s : State) : Answer := s.fabric fun s => s.runCmd 0x1501 select r k
def execRequestIdr (r k : Nat) (s : State) : Answer := s.fabric fun s => s.runCmd 0x1502 requestIdr r k

end Sys2Proof.Machine
end

