-- ==== Sys2Proof/Machine/Touch.lean ====
section
/-! DEFINITION. The touch engine (spec/14): measurements, baselines, contacts, keys, self-tests, and its commands. -/

namespace Sys2Proof.Machine

/-! ### Records, registers and settings -/

def PanelSt.freqOf (x : PanelSt) (f : Nat) : PanFreq := tabGet PanFreq.init x.freqs f

/-- What the engine holds of a frequency, with TOUCH_NOISE_i.ESTABLISHED. -/
def State.panSetFreq (s : State) (p f : Nat) (v : PanFreq) : State :=
  let x := s.pan p
  (s.setPan p { x with freqs := tabSet PanFreq.init x.freqs f v }).setFld .touchNoise p f 16 1 (b2n v.src.isSome)

/-- A TOUCH decision record (spec/16 R500): 1 hop, 2 baseline source, 3 snap, 4 adaptation, 5 rebaseline. -/
def State.panRecord (s : State) (p what f src : Nat) (stamp : Word) (up down check : Nat) : State :=
  s.journal 0x0B 0x21 p (le 1 what ++ le 1 f ++ le 1 src ++ le 1 0 ++ le 4 stamp.toNat ++ le 2 up ++ le 2 down ++ le 2 check ++ le 2 0)

/-- TOUCH16 of a baseline, its values as 16-bit words (R451). -/
def baseCheck (v : List Nat) : Nat := touch16 (v.flatMap fun n => le 2 n)

/-- The settings a panel's registers hold, in the order of `PanelSt.f`. -/
def State.panSettings (s : State) (p : Nat) : List Word :=
  [s.reg .touchCtl p 0, s.reg .touchLimits p 0, s.reg .touchXThresh p 0, s.reg .touchXSelf p 0, s.reg .touchXSuspect p 0,
   s.reg .touchXHop p 0, s.reg .touchXAdapt p 0, s.reg .touchXCycles p 0, s.reg .touchXTest p 0, s.reg .touchXRefcapNom p 0] ++
  (List.range 8).map fun i => s.reg .touchXFreq p i

/-- The frequencies with an established baseline (R440). -/
def PanelSt.established (x : PanelSt) : List Nat := (List.range 8).filter fun f => (x.freqOf f).src.isSome

/-- The last noise measured at a frequency (R437). -/
def State.panNoise (s : State) (p f : Nat) : Nat := s.fld .touchNoise p f 0 16

/-- The quietest of some frequencies, the lowest index among equals. -/
def State.panQuietest (s : State) (p : Nat) (fs : List Nat) : Option Nat :=
  fs.foldl (fun b f => match b with
    | none => some f
    | some g => if s.panNoise p f < s.panNoise p g then some f else some g) none

/-- The current frequency is chosen: the quietest established one, or the quietest of all (R440). -/
def State.panChoose (s : State) (p : Nat) : State :=
  let est := (s.pan p).established
  let f := (s.panQuietest p (if est.isEmpty then List.range 8 else est)).getD 0
  (s.setFld .touchStatus p 0 5 3 f).panShow p

/-- What was written since the last cycle comes into force (R468, R469): a frequency that changed loses its baseline, and a current
one is first left by R440. -/
def State.panForce (s : State) (p : Nat) : State :=
  let x := s.pan p
  let new := s.panSettings p
  let moved := if x.force.isEmpty then [] else
    (List.range 8).filter fun i => bf (x.force.getD (10 + i) 0) 0 16 != bf (new.getD (10 + i) 0) 0 16
  let s := s.setPan p { x with force := new }
  let s := forEach moved (fun f s => s.panSetFreq p f PanFreq.init) s
  if moved.contains (s.panFreq p) then s.panChoose p else s

/-! ### TOUCH_CMD (spec/13 R420) -/

/-- The payload of a TOUCH_CMD before its TOUCH16. -/
def touchCmd (op kind f seg khz cycles : Nat) (start : Word) (cols rows id segs : Nat) (extra : List Byte) : List Byte :=
  let b := le 1 op ++ le 1 kind ++ le 1 f ++ le 1 seg ++ le 2 khz ++ le 2 cycles ++ le 4 start.toNat ++ le 1 cols ++ le 1 rows ++
    le 2 id ++ le 1 segs ++ le 3 0 ++ extra
  b ++ le 2 (touch16 b)

/-- A command without values leaves; `cyc` gets the frame it asks for as one more to come. -/
def State.panSend (s : State) (p op kind f : Nat) (start : Word) (answer : Nat) (cyc : PanCyc) : State × PanCyc :=
  let x := s.pan p
  let e := s.panEnt p
  let id := (x.cmdId + 1) % 65536
  let cycles := if kind = 0 ∨ kind = 4 then x.f 7 0 12 else x.f 7 16 12
  let s := s.setPan p { x with cmdId := id }
  (s.sendNew e.port 0x0B 0 2 (touchCmd op kind f 0 (x.f (10 + f) 0 16) cycles start e.cols e.rows id 1 []),
   { cyc with want := cyc.want ++ [(id, answer, f)] })

/-- MEASURE_US last reported for a kind, in ns (R438) (DESIGN CHOICE, log 40). -/
def PanelSt.measureNs (x : PanelSt) (p kind : Nat) : Nat :=
  ((assocGet x.measure kind).getD (Config.firstMeasure p kind)) * 1000

/-- Where the measurements of a chain start, and where the last ends (R438). -/
def PanelSt.chain (x : PanelSt) (p : Nat) (start : Word) : List (Nat × Nat) → List (Nat × Nat × Word) × Word
  | [] => ([], start)
  | m :: ms =>
    let stop := start + w32 (x.measureNs p m.1)
    match ms with
    | [] => ([(m.1, m.2, start)], stop)
    | _ => let r := PanelSt.chain x p (stop + w32 50000) ms
           ((m.1, m.2, start) :: r.1, r.2)

/-- Send a chain of measurements. -/
def State.panMeasure (s : State) (p : Nat) (ms : List (Nat × Nat × Word)) (cyc : PanCyc) : State × PanCyc :=
  ms.foldl (fun y m => y.1.panSend p 1 m.1 m.2.1 m.2.2 m.1 y.2) (s, cyc)

/-- The self-test of a panel's size (R455, R456): 4 RAW_TEST or 3 REFCAP. -/
def PanelEnt.testKind (e : PanelEnt) : Nat := if e.cols ≤ 32 ∧ e.rows ≤ 20 then 4 else 3

/-- Keep a cycle whose frames are outstanding; those before the last two are given up. -/
def State.panOpen (s : State) (p : Nat) (c : PanCyc) : State :=
  let x := s.pan p
  s.setPan p { x with cycNo := c.no, cycs := (x.cycs.filter fun d => decide (c.no ≤ d.no + 1)) ++ [c] }

/-- A new cycle's record. -/
def State.panCyc (s : State) (p f : Nat) (first test : Bool) (start : Word) : PanCyc :=
  { no := (s.pan p).cycNo + 1, start := s.ticks + (sdiff start s.now / 5).toNat, freq := f, first := first, test := test, want := [], got := [] }

/-- 200 µs ahead of a measurement (R438). -/
def State.panLead (s : State) : Word := s.now + w32 200000

/-- PANEL_START (R464, R448, R440): BASELINE_LOAD and LISTEN for the eight frequencies. -/
def State.panStart (s : State) (p : Nat) : State :=
  let e := s.panEnt p
  if s.panState p ≠ 1 ∨ (s.pan p).started ∨ s.portState e.port ≠ 2 ∨ s.fld .linkState e.port 0 3 1 = 0 ∨ !s.drives then s
  else
    let s := s.setPan p { s.pan p with force := s.panSettings p, started := true, chosen := false, item := none }
    let c := s.panCyc p 0 true false s.panLead
    let y := (List.range 8).foldl (fun (y : State × PanCyc) f => y.1.panSend p 3 0 f y.1.now 5 y.2) (s, c)
    let y := y.1.panMeasure p ((y.1.pan p).chain p y.1.panLead ((List.range 8).map fun f => (2, f))).1 y.2
    y.1.panOpen p y.2

/-- The self-test of the start sequence, at the frequency chosen (R457, R464). -/
def State.panStartTest (s : State) (p : Nat) : State :=
  let f := s.panFreq p
  let y := s.panMeasure p ((s.pan p).chain p s.panLead [((s.panEnt p).testKind, f)]).1 (s.panCyc p f true true s.panLead)
  y.1.panOpen p y.2

/-- CYCLE_OVERRUN, at most once a second, with the count since the last (R439, R471). -/
def State.panOverrun (s : State) (p us : Nat) : State :=
  let x := s.pan p
  let n := (x.overEv.map Prod.snd).getD 0 + 1
  let due : Bool := match x.overEv with | none => true | some e => decide (e.1 + tickS ≤ s.ticks)
  if due then (s.setPan p { x with overEv := some (s.ticks, 0) }).emit 0x2108 p 1 (pay [us, n])
  else s.setPan p { x with overEv := x.overEv.map fun e => (e.1, n) }

/-- The panel runs cycles (R438). -/
def State.panCycles (s : State) (p : Nat) : Bool :=
  let x := s.pan p
  s.drives && s.portState (s.panEnt p).port == 2 &&
  ((s.panState p == 1 && x.chosen) || s.panState p == 2 || (s.panState p == 3 && x.chosen))

/-- When the next cycle is due (R439): the later of its period instant and the end of the one before; a first cycle at once (DEDUCED, log 50). -/
def State.panDue (s : State) (p : Nat) : Word :=
  match (s.pan p).nextAt with
  | none => s.panLead
  | some t => match (s.pan p).endAt with
    | some u => if atOrAfter u t then u else t
    | none => t

/-- A cycle that starts at an instant: its measurements, without the candidate's from the first cycle that would end too late (R438, R439,
R457), and its commands (DEDUCED, log 50). -/
def State.panCycle (s : State) (p : Nat) (start : Word) : State :=
  let e := s.panEnt p
  let period := 1000000000 / e.reportHz
  let grid := (s.pan p).nextAt.getD start
  let next := grid + w32 (period * ((sdiff start grid).toNat / period + 1))
  let s := s.panForce p
  let f := s.panFreq p
  let x := s.pan p
  let c0 := (x.cand + 1) % 8
  let cand := if c0 = f then (c0 + 1) % 8 else c0
  let test := s.panState p != 1 && x.contacts.isEmpty && x.pressed.isEmpty && (x.testDue || x.testCmd.isSome)
  let rest := [(0, f)] ++ (if x.f 0 1 2 ≠ 0 then [(1, f)] else []) ++ (if test then [(e.testKind, f)] else [])
  let full := if x.noCand then (2, f) :: rest else (2, f) :: (2, cand) :: rest
  let end1 := (x.chain p start full).2
  let late : Bool := decide (((period * 9 / 10 : Nat) : Int) < sdiff end1 start)
  let ms := if late then (2, f) :: rest else full
  let ch := x.chain p start ms
  let s := s.setPan p { x with cand := cand, noCand := x.noCand || late, nextAt := some next, endAt := some ch.2 }
  let s := if late then s.panOverrun p ((sdiff end1 start).toNat / 1000) else s
  let y := s.panMeasure p ch.1 (s.panCyc p f false test start)
  y.1.panOpen p y.2

/-- TOUCH_CYCLE_START (R438, R439, R457): the commands of a cycle leave 200 µs ahead (DEDUCED, log 50). -/
def State.panCycleStart (s : State) (p : Nat) : State :=
  let due := s.panDue p
  if !s.panCycles p ∨ !atOrAfter s.panLead due then s else s.panCycle p (if atOrAfter due s.panLead then due else s.panLead)

/-! ### Self-tests (R455 to R457) -/

def insertNat (x : Nat) : List Nat → List Nat
  | [] => [x]
  | y :: ys => if x ≤ y then x :: y :: ys else y :: insertNat x ys

def natSort (l : List Nat) : List Nat := l.foldr insertNat []

/-- Twice the median, the mean of the middle two for an even count (DEDUCED, log 12). -/
def median2 (l : List Nat) : Nat :=
  let m := natSort l
  let n := m.length
  if n % 2 = 1 then 2 * m.getD (n / 2) 0 else m.getD (n / 2 - 1) 0 + m.getD (n / 2) 0

/-- The values of line j: columns from 0, then rows from COLS. -/
def panLine (cols rows j : Nat) (v : List Nat) : List Nat :=
  if j < cols then (List.range rows).map fun r => v.getD (r * cols + j) 0
  else (List.range cols).map fun c => v.getD ((j - cols) * cols + c) 0

/-- RAW_TEST's result (R455): 0 pass, 1 OPEN with its node, 2 SHORT with its line. -/
def rawTest (cols rows : Nat) (v : List Nat) : Nat × Nat :=
  let m2 := median2 v
  match (List.range v.length).find? fun n => decide (8 * v.getD n 0 < m2) with
  | some n => (1, n)
  | none =>
    match (List.range (cols + rows)).find? fun j =>
        let l := panLine cols rows j v
        decide (7 * m2 * l.length < 8 * l.sum) with
    | some j => (2, j)
    | none => (0, 0)

/-- |a − b| -/
def natDist (a b : Nat) : Nat := (a - b) + (b - a)

/-- REFCAP's result (R456): 0 pass, 3 with the first node outside; 0xFFFF for a median off the nominal value. -/
def refcapTest (tol nom : Nat) (v : List Nat) : Nat × Nat :=
  let m2 := median2 v
  match (List.range v.length).find? fun n => decide (tol * m2 < 100 * natDist (2 * v.getD n 0) m2) with
  | some n => (3, n)
  | none => if nom ≠ 0 ∧ tol * 2 * nom < 100 * natDist m2 (2 * nom) then (3, 0xFFFF) else (0, 0)

/-- A doubt condition (R463): counted and raised, and rank 2 kept over rank 6 as a decision record (spec/01 R28); the panel becomes UNAVAILABLE. -/
def State.panDoubt (s : State) (p cond id : Nat) (stamp : Word) (cause : Nat) : State :=
  let s := s.giveUp 0x21 p 2 6 0x210A none
  let s := (s.bump .touchDoubt p 0 1).emit 0x210A p 2 (pay [cond, id, stamp.toNat])
  let s := if cause = 4 then s.setPan p { s.pan p with doubtTick := some s.ticks } else s
  s.panUnavail p cause

/-- A self-test's frame (R455 to R457): the result in TOUCH_TEST, doubt at a failure, the SELF_TEST command completed. -/
def State.panTest (s : State) (p kind id : Nat) (stamp : Word) (v : List Nat) : State :=
  let e := s.panEnt p
  let x := s.pan p
  let r := if kind = 4 then rawTest e.cols e.rows v else refcapTest (x.f 8 16 8) (x.f 9 0 16) v
  let fail : Bool := r.1 != 0
  let show_ := if fail then r.1 else if kind = 4 then 0 else 3
  let s := s.setReg .touchTest p 0 (w32 ((if fail then 2 else 1) + 4 * show_ + 65536 * (if fail then r.2 else 0)))
  let s := s.setPan p { x with testDue := false, testCmd := none, testTick := s.ticks,
                               causes := if fail then x.causes else delSet x.causes 5 }
  let s := if fail then (s.emit 0x2106 p 2 (pay [r.1, r.2])).panDoubt p 6 id stamp 5 else s.panShow p
  match x.testCmd with
  | some c => if fail then s.complete c.1 c.2 stFailed r.1 else s.complete c.1 c.2 stOk 0
  | none => s

/-- SELF_TEST_DUE (R457): SELFTEST_S after the last test, 10 s while the cause TEST lasts (DEDUCED, log 51). -/
def State.panTestDue (s : State) (p : Nat) : State :=
  let x := s.pan p
  if 2 ≤ s.panState p ∧ x.testTick + (if x.causes.contains 5 then 10 else x.f 8 0 16) * tickS ≤ s.ticks then s.setPan p { x with testDue := true } else s

/-! ### The start sequence's answers (R448, R440, R464) -/

/-- A stored copy of the device for a frequency, for the panel's size (R448). -/
def State.panCopy (s : State) (p f : Nat) : Option (List Nat) :=
  let e := s.panEnt p
  ((tabGet [] s.flash.baselines p).find? fun b => b.1 == e.cols && b.2.1 == e.rows && b.2.2.1 == f).map fun b => b.2.2.2

/-- The baselines and noises of the start sequence are in: R448's choice, R440's, then the self-test. -/
def State.panStarted (s : State) (p : Nat) (c : PanCyc) : State :=
  let e := s.panEnt p
  let s := forEach c.got (fun g s => if g.1 = 2 then
      (s.setFld .touchNoise p g.2.1 0 16 (g.2.2.2.2.foldl max 0)).panSetFreq p g.2.1
        { (s.pan p).freqOf g.2.1 with noiseCycle := some c.no }
    else s) s
  let s := forEach (List.range 8) (fun f s =>
    let v := ((c.got.find? fun g => g.1 == 5 && g.2.1 == f).map fun g => g.2.2.2.2).getD []
    let y := (s.pan p).freqOf f
    if v.length = e.cols * e.rows then
      (s.panRecord p 2 f 0 s.now 0 0 (baseCheck v)).panSetFreq p f { y with base := v, sbase := [], src := some 0, check := true }
    else match s.panCopy p f with
      | some v => (s.panRecord p 2 f 1 s.now 0 0 (baseCheck v)).panSetFreq p f { y with base := v, sbase := [], src := some 1, check := true }
      | none => s.panRecord p 2 f 2 s.now 0 0 0) s
  (s.panChoose p).panStartTest p

/-- The start sequence's self-test is in (R464): a failure makes the panel UNAVAILABLE for cause TEST, and the function ON. -/
def State.panStartTested (s : State) (p : Nat) (c : PanCyc) : State :=
  let s := forEach c.got (fun g s => s.panTest p g.1 g.2.2.1 g.2.2.2.1 g.2.2.2.2) s
  let x := s.pan p
  let s := s.setPan p { x with chosen := true, adaptTick := s.ticks, saveTick := s.ticks, quietTick := s.ticks }
  if x.causes.contains 5 then
    let s := (s.onBus fun b => b.enter 0x21 p 2).setFld .touchStatus p 0 0 2 3
    let s := (s.panShow p).emit 0x2101 p 1 (pay [1, 3, 5])
    (s.setPan p { s.pan p with repTick := s.ticks }).panPost p 1 5 none
  else s

/-! ### Contacts and keys (R443 to R447) -/

/-- A delta is a local maximum by R443's neighbour comparison. -/
def localMax (cols rows : Nat) (d : List Int) (n : Nat) : Bool :=
  let c := n % cols
  let r := n / cols
  let v := d.getD n 0
  let at_ := fun (dc dr : Int) (strict : Bool) =>
    let cc := (c : Int) + dc
    let rr := (r : Int) + dr
    if cc < 0 ∨ rr < 0 ∨ (cols : Int) ≤ cc ∨ (rows : Int) ≤ rr then true
    else
      let o := d.getD (rr.toNat * cols + cc.toNat) 0
      if strict then decide (o < v) else decide (o ≤ v)
  at_ (-1) 0 true && at_ (-1) (-1) true && at_ 0 (-1) true && at_ 1 (-1) true &&
  at_ 1 0 false && at_ (-1) 1 false && at_ 0 1 false && at_ 1 1 false

/-- X and Y of a contact over the 3 × 3 nodes round its peak (R444) (DEDUCED, log 49). -/
def peakPos (cols rows : Nat) (d : List Int) (n : Nat) : Nat × Nat :=
  let ns := (nearNodes cols rows 1 n).filter fun m => decide (0 ≤ d.getD m 0)
  let w := fun m => (d.getD m 0).toNat
  let sum := (ns.map w).sum
  (32 + (64 * (ns.map fun m => m % cols * w m).sum + sum / 2) / sum, 32 + (64 * (ns.map fun m => m / cols * w m).sum + sum / 2) / sum)

/-- A peak of a cycle. -/
structure Peak where
  node : Nat
  x : Nat
  y : Nat
  strength : Nat
  delta : Int
  self : Bool
  deriving DecidableEq, Repr

/-- The deltas of a cycle as R443 uses them: mutual by node, self by line. -/
def deltasOf (base raw : List Nat) : List Int := (List.range raw.length).map fun n => (base.getD n 0 : Int) - raw.getD n 0
def selfDeltas (base raw : List Nat) : List Int :=
  if base.isEmpty then [] else (List.range raw.length).map fun n => (raw.getD n 0 : Int) - base.getD n 0

/-- The local maxima down to the level at which a contact may still be followed (R443, R445), outside key areas and SUSPECT nodes (DEDUCED, log 49). -/
def PanelSt.peaks (x : PanelSt) (e : PanelEnt) (md sd : List Int) : List Peak :=
  let glove : Bool := x.f 0 2 1 == 1
  let low := if glove then min (x.f 2 16 16) (x.f 3 16 16 / 2) else x.f 2 16 16
  let out := x.suspect ++ x.keys.flatMap fun k => k.area e.cols
  (List.range (e.cols * e.rows)).filterMap fun n =>
    let d := md.getD n 0
    if out.contains n ∨ d < (max 1 low : Nat) ∨ !localMax e.cols e.rows md n then none
    else
      let q := peakPos e.cols e.rows md n
      let th : Int := x.f 3 0 16
      some { node := n, x := q.1, y := q.2, strength := min 255 (d.toNat / 4), delta := d,
             self := decide (th ≤ sd.getD (n % e.cols) 0) && decide (th ≤ sd.getD (e.cols + n / e.cols) 0) }

/-- The pairs of contact and peak of R445: by increasing squared distance up to 256 units, the lower ID first. Peaks by index (DEDUCED, log 49). -/
def matchPeaks (cs : List Contact) (ps : List Peak) : List (Nat × Nat) :=
  let keys := natSort (cs.flatMap fun c => (List.range ps.length).filterMap fun i =>
    match ps[i]? with
    | none => none
    | some q =>
      let d := natDist c.x q.x * natDist c.x q.x + natDist c.y q.y * natDist c.y q.y
      if d ≤ 65536 then some ((d * 16 + c.id) * 16384 + i) else none)
  keys.foldl (fun m k =>
    let id := k / 16384 % 16
    let i := k % 16384
    if m.any fun y => y.1 == id || y.2 == i then m else m ++ [(id, i)]) []

/-- A contact is kept with its peak (R445): above the release level, and its self condition where it has one. -/
def PanelSt.keeps (x : PanelSt) (c : Contact) (q : Peak) : Bool :=
  if c.glove then decide (((x.f 3 16 16 : Nat) : Int) ≤ 2 * q.delta) && q.self
  else decide (((x.f 2 16 16 : Nat) : Int) ≤ q.delta) && (x.f 0 1 1 == 0 || q.self)

/-- A peak that may become a contact (R443): `some true` for a glove peak. -/
def PanelSt.counts (x : PanelSt) (q : Peak) : Option Bool :=
  if ((x.f 2 0 16 : Nat) : Int) ≤ q.delta then (if x.f 0 1 1 = 0 ∨ q.self then some false else none)
  else if x.f 0 2 1 = 1 ∧ ((x.f 3 16 16 : Nat) : Int) ≤ q.delta ∧ q.self then some true
  else none

/-- CONTACT_EXPIRED (R452): contacts and keys past MAX_CONTACT_S are released, and their areas become SUSPECT. -/
def State.panExpire (s : State) (p : Nat) : State :=
  let e := s.panEnt p
  let x := s.pan p
  let old := fun (t : Nat) => decide (t + x.f 1 16 11 * tickS < s.ticks)
  let cs := x.contacts.filter fun c => old c.since
  let ks := x.pressed.filter fun k => old k.2
  let s := s.setPan p { x with contacts := x.contacts.filter fun c => !old c.since,
                               ups := x.ups ++ cs.map fun c => c.slot 3 1,
                               pressed := x.pressed.filter fun k => !old k.2, keysChanged := x.keysChanged || !ks.isEmpty }
  let s := forEach cs (fun c s => (s.panSuspect p (nearNodes e.cols e.rows 1 c.node) []).emit 0x2103 p 1 (pay [c.id, c.x, c.y])) s
  let s := forEach ks (fun k s =>
    let a := (x.keys.getD k.1 ⟨0, 0, 0, 0, 0, 0⟩)
    (s.panSuspect p (a.area e.cols) []).emit 0x2103 p 1 (pay [k.1, 64 * a.col0, 64 * a.row0])) s
  (s.bump .touchExpired p 0 (cs.length + ks.length)).panShow p

/-- The contacts follow the peaks of a cycle (R445) (DEDUCED, log 49). -/
def State.panContacts (s : State) (p : Nat) (md sd : List Int) (stamp : Word) : State :=
  let e := s.panEnt p
  let x := s.pan p
  let ps := x.peaks e md sd
  let m := matchPeaks x.contacts ps
  let peakOf := fun (c : Contact) => (assocGet m c.id).bind fun i => ps[i]?
  let held := x.contacts.filterMap fun c => match peakOf c with
    | some q => if x.keeps c q then some { c with x := q.x, y := q.y, strength := q.strength, node := q.node } else none
    | none => none
  let lifted := x.contacts.filter fun c => match peakOf c with
    | some q => !x.keeps c q
    | none => true
  let s := s.setPan p { x with contacts := held, ups := x.ups ++ lifted.map fun c => c.slot 3 0 }
  let since := s.ticks - (max 0 (sdiff s.now stamp) / 5).toNat
  forEach (List.range ps.length) (fun i s =>
    if m.any fun y => y.2 == i then s
    else
      match (ps[i]?).bind fun q => (x.counts q).map fun g => (q, g) with
      | none => s
      | some (q, g) =>
        let y := s.pan p
        let busy := (y.contacts.map Contact.id) ++ y.ups.map fun u => byteAt u 0
        match (List.range e.maxContacts).find? fun j => !busy.contains (j + 1) with
        | none => s.bump .touchOverflow p 0 1
        | some j => s.setPan p { y with contacts := y.contacts ++ [⟨j + 1, q.x, q.y, q.strength, g, since, true, q.node⟩] }) s

/-- The keys follow their signals (R446, R447): releases first, then presses. -/
def State.panKeys (s : State) (p : Nat) (md : List Int) (stamp : Word) : State :=
  let e := s.panEnt p
  let x := s.pan p
  let n := x.keys.length
  let key := fun (j : Nat) => x.keys.getD j ⟨0, 0, 0, 0, 0, 0⟩
  let sig := fun (j : Nat) => (((key j).area e.cols).map fun a => md.getD a 0).foldl (fun a b => a + b) 0
  let over_ := fun (j : Nat) => decide (((key j).th : Int) ≤ sig j)
  let kept := x.pressed.filter fun k => decide (3 * ((key k.1).th : Int) ≤ 4 * sig k.1)
  let since := s.ticks - (max 0 (sdiff s.now stamp) / 5).toNat
  let best := fun (g : Nat) => ((List.range n).filter fun j => (key j).group == g && over_ j).foldl (fun (b : Option Nat) j =>
    match b with
    | none => some j
    | some i => if sig i < sig j then some j else some i) none
  let now := (List.range n).foldl (fun (l : List (Nat × Nat)) j =>
    let g := (key j).group
    if l.any (fun k => k.1 == j) ∨ !over_ j ∨ ((key j).area e.cols).any (fun a => x.suspect.contains a) then l
    else if g = 0 then l ++ [(j, since)]
    else if l.any (fun k => (key k.1).group == g) ∨ best g ≠ some j then l
    else l ++ [(j, since)]) kept
  if now = x.pressed then s else s.setPan p { x with pressed := now, keysChanged := true }

/-! ### A cycle's frames are in (R440 to R454, R460) -/

/-- R453: BASELINE_SAVE of every established frequency in segments of at most 2,032 nodes, and the device's own copy (DEDUCED, log 49). -/
def State.panSave (s : State) (p : Nat) : State :=
  let e := s.panEnt p
  let x := s.pan p
  let est := x.established
  let s := forEach est (fun f s =>
    let v := (x.freqOf f).base
    let segs := cdiv v.length 2032
    let y := s.pan p
    let id := (y.cmdId + 1) % 65536
    let s := s.setPan p { y with cmdId := id }
    let l := s.link e.port
    let a := aliveNext ((assocGet l.tx 2).getD 0)
    let s := s.setLink e.port { l with tx := assocSet l.tx 2 a }
    forEach (List.range segs) (fun i s =>
      let w := (v.drop (2032 * i)).take 2032
      s.sendItem e.port 0x0B (if i + 1 = segs then 2 else 0) 2 a s.now
        (touchCmd 2 0 f i (x.f (10 + f) 0 16) (x.f 7 0 12) s.now e.cols e.rows id segs
          (le 2 (2032 * i) ++ le 2 w.length ++ w.flatMap fun n => le 2 n))) s) s
  let ok : Bool := s.fld .thmState 0 0 10 1 == 1
  let s := if ok then
      { s with flash := { s.flash with baselines := tabSet [] s.flash.baselines p (est.map fun f => (e.cols, e.rows, f, (x.freqOf f).base)) } }
    else s.storeRefused 2
  let s := s.setPan p { s.pan p with saveTick := s.ticks }
  s.emit 0x2107 p 0 (pay [(est.map fun f => 2 ^ f).sum, b2n !ok])

/-- BASELINE_SAVED (R453): SAVE_S has passed and the panel has been quiet for 1 s. -/
def State.panSaveDue (s : State) (p : Nat) : State :=
  let x := s.pan p
  if s.panState p = 2 ∧ x.saveTick + x.f 6 16 16 * tickS ≤ s.ticks ∧ x.quietTick + tickS ≤ s.ticks then s.panSave p else s

/-- A hop (R441), which applies from the next cycle (R467) (DEDUCED, log 49). -/
def State.panHop (s : State) (p : Nat) (c : PanCyc) (stamp : Word) : State :=
  let x := s.pan p
  let f := c.freq
  let cur := s.panNoise p f
  let run := if x.f 5 0 12 ≤ cur then x.hopRun + 1 else 0
  let s := s.setPan p { x with hopRun := run }
  let quiet : Bool := x.contacts.isEmpty && x.pressed.isEmpty && x.suspect.isEmpty
  let cands := (List.range 8).filter fun g =>
    g != f && (match (x.freqOf g).noiseCycle with | some n => decide (c.no < n + 8) | none => false) &&
    decide (s.panNoise p g + x.f 5 12 12 ≤ cur) && ((x.freqOf g).src.isSome || quiet)
  match if x.f 5 24 4 ≤ run then s.panQuietest p cands else none with
  | none => s
  | some g =>
    let s := s.panRecord p 1 g (((x.freqOf g).src).getD 2) stamp 0 0 0
    let s := (s.emit 0x2105 p 0 (pay [f, g, cur, s.panNoise p g])).bump .touchHops p 0 1
    ((s.setPan p { s.pan p with hopRun := 0 }).setFld .touchStatus p 0 5 3 g).panShow p

/-- The first MUTUAL and SELF frames of a frequency become its baseline, or those of REBASELINE (R448, R441, R454). -/
def State.panTake (s : State) (p f : Nat) (raw sraw : List Nat) (stamp : Word) (reb : Bool) : State :=
  let src := if reb then 3 else 2
  let s := s.panRecord p (if reb then 5 else 2) f src stamp 0 0 (baseCheck raw)
  let s := s.panSetFreq p f { (s.pan p).freqOf f with base := raw, sbase := sraw, src := some src, check := false }
  if !reb then s
  else
    let s := forEach (List.range 8) (fun g s => if g = f then s else
      s.panSetFreq p g { (s.pan p).freqOf g with base := [], sbase := [], src := none, check := false }) s
    let s := (s.panSuspect p [] (s.pan p).suspect).panSave p
    match (s.pan p).rebase with
    | none => s
    | some c => (s.setPan p { s.pan p with rebase := none }).complete c.1 c.2 stOk 0

/-- The baseline of a cycle's frequency (R448 to R450): taken, compared for the first time, snapped. -/
def State.panBaseline (s : State) (p : Nat) (c : PanCyc) (raw sraw : List Nat) (stamp : Word) (noisy : Bool) : State :=
  let x := s.pan p
  let f := c.freq
  let y := x.freqOf f
  let reb : Bool := x.rebase.isSome && !noisy && decide (x.rebaseFrom ≤ c.no)
  if y.src = none ∨ reb then s.panTake p f raw sraw stamp reb
  else
    let s := if y.sbase.isEmpty ∧ !sraw.isEmpty then s.panSetFreq p f { y with sbase := sraw } else s
    let y := (s.pan p).freqOf f
    let s := if y.check then
        (s.panSetFreq p f { y with check := false }).panSuspect p
          ((List.range raw.length).filter fun n => decide (x.f 4 0 16 ≤ natDist (y.base.getD n 0) (raw.getD n 0))) []
      else s
    if noisy then s
    else
      let y := (s.pan p).freqOf f
      let s := s.panSuspect p [] ((s.pan p).suspect.filter fun n => decide (natDist (y.base.getD n 0) (raw.getD n 0) ≤ x.f 4 16 16))
      let snap := if y.src = some 2 then
          (List.range raw.length).filter fun n => decide (y.base.getD n 0 + x.f 4 0 16 < raw.getD n 0)
        else []
      if snap.isEmpty then s
      else
        let b := (List.range raw.length).map fun n => if snap.contains n then raw.getD n 0 else y.base.getD n 0
        (s.panRecord p 3 f 2 stamp snap.length 0 (baseCheck b)).panSetFreq p f { y with base := b }

/-- The release of R460 and R461; `frame` where the report is built on a frame (R458, R460). -/
def State.panStale (s : State) (p : Nat) (stamp : Word) (frame : Bool) : State :=
  let x := s.pan p
  let s := s.bump .touchStale p 0 1
  let s := s.giveUp 0x21 p 2 6 0x2102 none
  let s := s.emit 0x2102 p 1 (pay [x.contacts.length + x.pressed.length, (sdiff s.now stamp).toNat / 1000])
  s.panFall p 3 (if frame then some stamp else none)

/-- A new key table applies, and every key pressed is released (R446). -/
def State.panNewKeys (s : State) (p no : Nat) : State :=
  let x := s.pan p
  match x.keysNext with
  | some (n, t) =>
    if n ≤ no then
      s.setPan p { x with keys := t, keysNext := none, pressed := [], keysChanged := x.keysChanged || !x.pressed.isEmpty }
    else s
  | none => s

/-- Every cause has ended and the cycle's frames are in: the panel is AVAILABLE, and its function ON (R464) (DEDUCED, log 51). -/
def State.panAvailable (s : State) (p : Nat) : State :=
  let old := s.panState p
  if old == 1 || (old == 3 && (s.pan p).causes.isEmpty) then
    let s := if old = 1 then s.onBus fun b => b.enter 0x21 p 2 else s
    ((s.setFld .touchStatus p 0 0 2 2).emit 0x2101 p 0 (pay [old, 2, 0])).panWatch p
  else s

/-- Contacts and keys follow a cycle that is neither noisy nor stale, and its report is posted (R445, R447, R457, R460). -/
def State.panTrack (s : State) (p : Nat) (test : Bool) (md sd : List Int) (stamp : Word) : State :=
  let s := if s.panState p = 2 then ((s.panKeys p md stamp).panContacts p md sd stamp).panExpire p else s
  let x := s.pan p
  let s := if x.contacts.isEmpty && x.pressed.isEmpty && x.suspect.isEmpty then s
    else s.setPan p { x with quietTick := s.ticks }
  (if s.panState p == 2 && !test then s.panPost p 0 0 (some stamp) else s).panShow p

/-- The noises and the self-test of a cycle (R437, R457). -/
def State.panNoises (s : State) (p : Nat) (c : PanCyc) : State :=
  forEach c.got (fun g s =>
    if g.1 = 2 then
      (s.setFld .touchNoise p g.2.1 0 16 (g.2.2.2.2.foldl max 0)).panSetFreq p g.2.1
        { (s.pan p).freqOf g.2.1 with noiseCycle := some c.no }
    else if g.1 = 3 ∨ g.1 = 4 then s.panTest p g.1 g.2.2.1 g.2.2.2.1 g.2.2.2.2 else s) s

/-- The causes that this cycle ends: DOUBT when it started after the condition (R463), STALE when it is within the limit. -/
def State.panClear (s : State) (p : Nat) (c : PanCyc) (fresh : Bool) : State :=
  let x := s.pan p
  let after : Bool := match x.doubtTick with
    | some t => decide (t < c.start)
    | none => true
  (s.setPan p { x with causes := x.causes.filter fun k => !(k == 4 && after) && !(k == 3 && fresh) }).panShow p

/-- Every frame of a cycle has been accepted (R440 to R454, R460, R464) (DEDUCED, log 49). -/
def State.panProcess (s : State) (p : Nat) (c : PanCyc) : State :=
  let s := s.panNoises p c
  match c.got.find? fun g => g.1 == 0 with
  | none => s
  | some mu =>
    let self := c.got.find? fun g => g.1 == 1
    let raw := mu.2.2.2.2
    let sraw := (self.map fun g => g.2.2.2.2).getD []
    let t0 := mu.2.2.2.1
    let t1 := (self.map fun g => g.2.2.2.1).getD t0
    let stamp := if atOrAfter t1 t0 then t0 else t1
    let s := s.panNewKeys p c.no
    let noisy : Bool := decide ((s.pan p).f 2 16 16 ≤ 2 * s.panNoise p c.freq)
    let fresh : Bool := decide (sdiff s.now stamp ≤ ((s.pan p).f 1 0 10 * 1000000 : Nat))
    let s := (s.panClear p c fresh).panBaseline p c raw sraw stamp noisy
    let y := (s.pan p).freqOf c.freq
    let md := deltasOf y.base raw
    let s := s.setPan p { s.pan p with raw := raw, deltas := md, last := if noisy then none else some (c.freq, stamp, raw, sraw) }
    let s := s.panAvailable p
    let s := if noisy then ((s.bump .touchNoisy p 0 1).setPan p { s.pan p with quietTick := s.ticks }).panShow p
      else if s.panState p == 2 && !fresh then s.panStale p stamp true
      else s.panTrack p c.test md (selfDeltas y.sbase sraw) stamp
    s.panHop p c stamp

/-- BASELINE_ADAPT (R450, R451): every ADAPT_MS each free node moves its baseline one count towards its raw value. -/
def State.panAdapt (s : State) (p : Nat) : State :=
  let e := s.panEnt p
  let x := s.pan p
  if s.panState p < 2 ∨ s.ticks < x.adaptTick + x.f 6 0 16 * tickMs then s
  else
    let s := s.setPan p { x with adaptTick := s.ticks }
    match x.last with
    | none => s
    | some (f, stamp, raw, sraw) =>
      let y := x.freqOf f
      let rel : Int := x.f 2 16 16
      let near := (x.contacts.map Contact.node) ++ x.pressed.flatMap fun k => (x.keys.getD k.1 ⟨0, 0, 0, 0, 0, 0⟩).area e.cols
      let held := x.suspect ++ near.flatMap fun n => nearNodes e.cols e.rows 2 n
      let move := fun (b r : Nat) (free : Bool) =>
        let d := (b : Int) - r
        if free && decide (Int.neg rel < d) && decide (d < rel) then (if b < r then b + 1 else if r < b then b - 1 else b) else b
      let nb := (List.range y.base.length).map fun n => move (y.base.getD n 0) (raw.getD n 0) (!held.contains n)
      let lines := held.flatMap fun n => [n % e.cols, e.cols + n / e.cols]
      let ns := if sraw.isEmpty then y.sbase else
        (List.range y.sbase.length).map fun n => move (y.sbase.getD n 0) (sraw.getD n 0) (!lines.contains n)
      let up := ((List.range nb.length).filter fun n => decide (y.base.getD n 0 < nb.getD n 0)).length
      let down := ((List.range nb.length).filter fun n => decide (nb.getD n 0 < y.base.getD n 0)).length
      (s.panRecord p 4 f (y.src.getD 0) stamp up down (baseCheck nb)).panSetFreq p f { y with base := nb, sbase := ns }

/-- TOUCH_AGE_TIMEOUT (R461) (DEDUCED, log 51). -/
def State.panAge (s : State) (p : Nat) : State :=
  let x := s.pan p
  match x.lastStamp with
  | none => s
  | some t => if s.panState p = 2 ∧ (x.f 1 0 10 : Int) * 1000000 < sdiff s.now t then s.panStale p t false else s

/-- UNAVAILABLE_REPEAT (R464) (DEDUCED, log 51). -/
def State.panRepeat (s : State) (p : Nat) : State :=
  let x := s.pan p
  if s.panState p = 3 ∧ x.repTick + tickS ≤ s.ticks then
    (s.setPan p { x with repTick := s.ticks }).panPost p 1 (s.fld .touchStatus p 0 2 3) none
  else s

/-! ### TOUCH_FRAME (R399, R421, R463) -/

/-- The values a frame of a kind holds (R421). -/
def PanelEnt.count (e : PanelEnt) (kind : Nat) : Nat :=
  match kind with
  | 1 => e.cols + e.rows
  | 2 => e.rows
  | _ => e.cols * e.rows

/-- A whole frame: its segments' values in the order of FIRST_NODE. -/
def PanItem.values (i : PanItem) : List Nat :=
  (natSort (i.segs.map fun g => g.1)).flatMap fun n => ((i.segs.find? fun g => g.1 == n).map fun g => g.2.2).getD []

/-- A whole frame has arrived. -/
def State.panFrame (s : State) (p : Nat) (pk : Pkt) (v : List Nat) : State :=
  let e := s.panEnt p
  let x := s.pan p
  let id := leAt pk.payload 0 2
  let kind := byteAt pk.payload 2
  let f := byteAt pk.payload 3
  let size : Bool := byteAt pk.payload 6 == e.cols && byteAt pk.payload 7 == e.rows
  match x.cycs.find? fun c => c.want.any fun w => w == (id, kind, f) with
  | none => s.panDoubt p 3 id pk.stamp 4
  | some c =>
    if (kind ≠ 5 ∧ !size) ∨ (kind ≠ 5 ∧ v.length ≠ e.count kind) then s.panDoubt p 3 id pk.stamp 4
    else if 1000000 < sdiff pk.stamp s.now then s.panDoubt p 1 id pk.stamp 4
    else if (match x.lastFrame with | some t => atOrAfter t pk.stamp | none => false) then s.panDoubt p 2 id pk.stamp 4
    else
      let us := leAt pk.payload 12 4
      let v := if kind = 5 ∧ !size then [] else v
      let c' := { c with want := c.want.filter fun w => w.1 != id, got := c.got ++ [(kind, f, id, pk.stamp, v)] }
      let ended := c'.want.isEmpty
      let cycs := if ended then x.cycs.filter fun d => d.no != c.no else x.cycs.map fun d => if d.no = c.no then c' else d
      let measure := if kind < 5 then assocSet x.measure kind us else x.measure
      let s := s.setPan p { x with lastFrame := some pk.stamp, measure := measure, cycs := cycs }
      if !ended then s
      else if c.first then (if c.test then s.panStartTested p c' else s.panStarted p c')
      else s.panProcess p c'

/-- The item in reception turns out cullet (R421): its cycle posts no report. -/
def State.panCull (s : State) (p port alive : Nat) : State :=
  let x := s.pan p
  let it : PanItem := match x.item with
    | some i => if i.alive = alive ∧ !i.ended then { i with bad := true } else { alive := alive, segs := [], bad := true, ended := false }
    | none => { alive := alive, segs := [], bad := true, ended := false }
  (s.setPan p { x with item := some it }).linkCull port 2 alive

/-- A segment of the item in reception (R421); the last makes the frame whole (DEDUCED, log 50). -/
def State.panSegment (s : State) (p port : Nat) (pk : Pkt) (it : PanItem) (bufOk : Bool) : State :=
  let s := s.setPan p { s.pan p with item := some it }
  let n := pk.payload.length
  let seg := byteAt pk.payload 4
  let nodes := leAt pk.payload 10 2
  if it.bad then s
  else if n < 18 ∨ leAt pk.payload (n - 2) 2 ≠ touch16 (pk.payload.take (n - 2)) ∨ n ≠ 18 + 2 * nodes ∨ 2032 < nodes then
    s.panCull p port pk.alive
  else if it.segs.any fun g => g.2.1 == seg then s.linkCull port 2 pk.alive
  else
    let v := (List.range nodes).map fun i => leAt pk.payload (16 + 2 * i) 2
    let it := { it with segs := it.segs ++ [(leAt pk.payload 8 2, seg, v)] }
    let whole : Bool := decide (max 1 (byteAt pk.payload 5) ≤ it.segs.length)
    let s := s.setPan p { s.pan p with item := some { it with ended := whole } }
    if !whole then s
    else if !bufOk then s.panDoubt p 5 (leAt pk.payload 0 2) pk.stamp 4
    else s.panFrame p pk it.values

/-- TOUCH_FRAME_RX: a TOUCH_FRAME arrives on a port; `bufOk` whether the engine's accesses to the panel's raw and baseline buffers
succeeded (R463; the spec does not place them in memory, so it is the environment that tells) (DEDUCED, log 50). -/
def State.panRx (s : State) (port : Nat) (sync : Bool) (raw : List Byte) (bufOk : Bool) : State :=
  let t := s.receive port sync raw
  match t.1.plan.panels.find? fun e => e.port == port with
  | none => t.1
  | some e =>
    let p := e.panel
    match t with
    | (s, .nothing) => s
    | (s, .badPayload stream alive) => if stream = 2 ∧ s.panState p ≠ 0 then s.panCull p port alive else s
    | (s, .good pk) =>
      if pk.typ ≠ 0x0C ∨ s.panState p = 0 ∨ !(s.pan p).started then s
      else
        let x := s.pan p
        let fresh : Bool := match x.item with
          | some i => i.alive != pk.alive || i.ended
          | none => true
        let r : State × Bool := if fresh then s.aliveCheck port 2 pk.alive else (s, true)
        let s := r.1
        if !r.2 then s.panDoubt p 0 (leAt pk.payload 0 2) pk.stamp 4
        else
          s.panSegment p port pk (if fresh then { alive := pk.alive, segs := [], bad := false, ended := false }
            else x.item.getD { alive := pk.alive, segs := [], bad := false, ended := false }) bufOk

/-! ### Lifecycle -/

/-- The check of STARTING (R464): TOUCH_RING names a ring of KIND 4, owned by HOST, that is ON. -/
def State.panCheck (s : State) (p : Nat) : Option Nat :=
  let r := s.fld .touchRing p 0 0 9
  if r < 256 && s.isOn 2 r && s.bus.ringKind r == 4 && s.plan.ringHost r == some (s.panEnt p).host then none else some 1

/-- A panel enters STARTING (DEDUCED, log 51). -/
def State.panEnter (s : State) (p : Nat) : State :=
  (s.setPan p { PanelSt.init with keys := (s.pan p).keys, seq := (s.pan p).seq }).setReg .touchStatus p 0 1

/-- The function leaves ON (R464): everything is released with reason UNAVAILABLE, and raw data and baselines are scrubbed. -/
def State.panOff (s : State) (p : Nat) : State :=
  let s := if 2 ≤ s.panState p then
      let low := s.fld .touchStatus p 0 2 3
      (s.panRelease p 3).panPost p 1 low none
    else s
  let s := s.setPan p { PanelSt.init with keys := (s.pan p).keys, seq := (s.pan p).seq }
  let s := forEach (List.range 8) (fun i s => s.setReg .touchNoise p i 0) s
  (s.setReg .touchStatus p 0 0).setReg .touchSuspect p 0 0

/-! ### Ring commands (R446, R454, R457, R470) -/

/-- The key table's entries. -/
def keyTable (d : List Byte) (n : Nat) : List KeyEnt :=
  (List.range n).map fun j =>
    let b := slice d (8 * j) 8
    { col0 := byteAt b 0, row0 := byteAt b 1, cols := byteAt b 2, rows := byteAt b 3, group := byteAt b 4, th := leAt b 6 2 }

/-- The areas of a table are sized right, inside the panel and apart (R446). -/
def keysOk (e : PanelEnt) (d : List Byte) (n : Nat) : Bool :=
  let t := keyTable d n
  let cells := t.flatMap fun k => k.area e.cols
  (List.range n).all (fun j => byteAt d (8 * j + 5) == 0) &&
  t.all (fun k => 1 ≤ k.cols && k.cols ≤ 16 && 1 ≤ k.rows && k.rows ≤ 16 && k.col0 + k.cols ≤ e.cols && k.row0 + k.rows ≤ e.rows) &&
  decide (cells.eraseDups.length = cells.length)

/-- KEYS_LOAD (R446). -/
def keysLoad : Perf := fun _ _ e s =>
  let p := e.inst
  let n := byteAt e.data 40
  checked 0x21 (e.object == 0xFFFF) (e.zeroFrom 41 56 && e.arg 32 8 % 64 == 0) false e s fun s =>
    if (s.panEnt p).maxKeys < n then done s stLimit
    else
      match s.load 149 (e.arg 32 8) (8 * n) with
      | (s, .refused) => done s stAccess
      | (s, .ue _) => done s stEcc
      | (s, .ok d) =>
        if !keysOk (s.panEnt p) d n then done s stBadArgument
        else
          let x := s.pan p
          done (s.setPan p { x with keysNext := some (x.cycNo + 1, keyTable d n) }) stOk

/-- REBASELINE (R454): completes once the new baseline is taken and saved. -/
def rebaseline : Perf := fun _ r e s =>
  let p := e.inst
  checked 0x21 (e.object == 0xFFFF) (e.zeroFrom 32 56) false e s fun s =>
    if (s.pan p).rebase.isSome then done s stBusy
    else
      let s := s.panRelease p 4
      let x := s.pan p
      let from_ := (x.cycs.filter fun c => c.got.any fun g => g.1 == 0).foldl (fun n c => max n (c.no + 1)) 0
      ((s.setPan p { x with rebase := some (r, e.k), rebaseFrom := from_ }).panShow p, none)

/-- SELF_TEST (R457): completes with the test that runs at the next quiet cycle. -/
def selfTest : Perf := fun _ r e s =>
  let p := e.inst
  checked 0x21 (e.object == 0xFFFF) (e.zeroFrom 32 56) false e s fun s =>
    if (s.pan p).testCmd.isSome then done s stBusy
    else (s.setPan p { s.pan p with testCmd := some (r, e.k) }, none)

/-- RAW_READ (R470). -/
def rawRead : Perf := fun _ _ e s =>
  let p := e.inst
  checked 0x21 (e.object == 0xFFFF) (e.zeroFrom 40 56) false e s fun s =>
    let x := s.pan p
    if x.raw.isEmpty then done s stState
    else
      match s.store 149 (e.arg 32 8) ((x.raw.flatMap fun n => le 2 n) ++ x.deltas.flatMap fun d => le 2 (code 16 d)) with
      | (s, true) => done s stOk
      | (s, false) => done s stAccess

def execPanelStart (p : Nat) (s : State) : Answer := s.fabric fun s => s.panStart p
def execTouchCycleStart (p : Nat) (s : State) : Answer := s.fabric fun s => s.panCycleStart p
def execTouchFrameRx (port : Nat) (skew : List Nat) (lines : List (List Bool)) (bufOk : Bool) (s : State) : Answer :=
  s.fabric fun s => s.arrives port skew lines fun s sync raw => s.panRx port sync raw bufOk
def execTouchAgeTimeout (p : Nat) (s : State) : Answer := s.fabric fun s => s.panAge p
def execUnavailableRepeat (p : Nat) (s : State) : Answer := s.fabric fun s => s.panRepeat p
def execBaselineAdapt (p : Nat) (s : State) : Answer := s.fabric fun s => s.panAdapt p
def execBaselineSaved (p : Nat) (s : State) : Answer := s.fabric fun s => s.panSaveDue p
def execContactExpired (p : Nat) (s : State) : Answer :=
  s.fabric fun s => if s.panState p = 2 then s.panExpire p else s
def execSelfTestDue (p : Nat) (s : State) : Answer := s.fabric fun s => s.panTestDue p
def execKeysLoad (r k : Nat) (s : State) : Answer := s.fabric fun s => s.runCmd 0x2101 keysLoad r k
def execRebaseline (r k : Nat) (s : State) : Answer := s.fabric fun s => s.runCmd 0x2102 rebaseline r k
def execSelfTest (r k : Nat) (s : State) : Answer := s.fabric fun s => s.runCmd 0x2103 selfTest r k
def execRawRead (r k : Nat) (s : State) : Answer := s.fabric fun s => s.runCmd 0x2104 rawRead r k

end Sys2Proof.Machine
end

