-- ==== Sys2Proof/Machine/Journal.lean ====
section
/-! DEFINITION. The journal engine (spec/16 R499 to R508): the ring, checkpoints, the flight recorder and its commands. -/

namespace Sys2Proof.Machine

/-! ### Checkpoint data (R504) -/

/-- The layout of checkpoint data is Efrix's own (R504; log 42): what a committed state is written as, and what data reads back as. -/
opaque ckptEncode : Ckpt → List Byte
/-- DESIGN CHOICE, log 42. -/
opaque ckptDecode : List Byte → Option Ckpt

/-- The committed state (DESIGN CHOICE, log 42). -/
def State.ckpt (s : State) : Ckpt :=
  { regs := s.bus.regs, fregs := s.fregs, srcs := s.srcs, decs := s.decs, heads := s.heads, encs := s.encs, rings := s.bus.rings,
    acc := s.bus.acc, tim := s.tim, freqs := s.panels.map fun e => (e.1, e.2.freqs),
    absent := (List.range 8).filter fun z => decide (2 ≤ s.fld .structZone 0 0 (4 * z) 4), plan := s.plan }

/-! ### Records (R499) -/

/-- The bytes of a record. -/
def JRec.bytes (r : JRec) : List Byte :=
  let b := fit (r.length - 8) (le 2 r.kind ++ le 1 (r.length / 16) ++ le 1 r.flags ++ le 4 r.seq.toNat ++ le 4 r.time.toNat ++
    le 2 r.cap ++ le 2 r.inst ++ r.body)
  b ++ le 8 (jrnl64 b)

/-- The record that bytes spell, when its check is good. -/
def readRec (b : List Byte) : Option JRec :=
  let n := 16 * byteAt b 2
  if n < 32 ∨ 256 < n ∨ b.length < n ∨ leAt b (n - 8) 8 ≠ jrnl64 (b.take (n - 8)) then none
  else some { kind := leAt b 0 2, flags := byteAt b 3, seq := w32 (leAt b 4 4), time := w32 (leAt b 8 4), cap := leAt b 12 2,
              inst := leAt b 14 2, body := slice b 16 (n - 24) }

/-! ### The ring (R501 to R503) -/

def State.jrnBase (s : State) : Nat := s.bus.pair .jrnBaseLo .jrnBaseHi 0 0
def State.jrnSize (s : State) : Nat := s.bus.fld .jrnSize 0 0 0 16 * 1048576

def State.setJrn (s : State) (j : JrnSt) : State := { s with jrn := j }

/-- Bytes of the ring from a place counted since start, over the end where need be (R503). -/
def State.jrnRead (s : State) (pos n : Nat) : State × Option (List Byte) :=
  let size := max 1 s.jrnSize
  let o := pos % size
  let k := min n (size - o)
  match s.load 150 (s.jrnBase + o) k with
  | (s, .ok a) =>
    if n ≤ k then (s, some a)
    else match s.load 150 s.jrnBase (n - k) with
      | (s, .ok b) => (s, some (a ++ b))
      | (s, _) => (s, none)
  | (s, _) => (s, none)

/-- JRN_RATE counts whole seconds; JRN_HEAD, WRAPPED and the checkpoints still in the ring follow `n` bytes written (DEDUCED, log 52). -/
def State.jrnAdvance (s : State) (n : Nat) : State :=
  let j := s.jrn
  let size := max 1 s.jrnSize
  let span := j.span + n
  let s := if j.secTick + tickS ≤ s.ticks then
      (s.onBus fun b => b.setReg .jrnRate 0 0 (w32 (if s.ticks < j.secTick + 2 * tickS then j.secBytes else 0))).setJrn
        { j with secTick := s.ticks / tickS * tickS, secBytes := n }
    else s.setJrn { j with secBytes := j.secBytes + n }
  let s := s.setJrn { s.jrn with span := span, ckpts := s.jrn.ckpts.filter fun c => decide (span ≤ c.pos + size) }
  s.onBus fun b => (b.setReg .jrnHead 0 0 (w32 (span % size))).setFld .jrnStatus 0 0 0 1 (b2n (decide (size ≤ span)))

/-- Bytes go to the ring, over its end where need be; true when memory took them (DESIGN CHOICE, log 41). -/
def State.jrnWrite (s : State) (data : List Byte) : State × Bool :=
  let size := max 1 s.jrnSize
  let o := s.jrn.span % size
  let k := min data.length (size - o)
  let a := s.store 150 (s.jrnBase + o) (data.take k)
  let b := if data.length ≤ k then a else
    let r := a.1.store 150 s.jrnBase (data.drop k)
    (r.1, r.2 && a.2)
  (b.1.jrnAdvance data.length, b.2)

/-- A record goes to the ring; one that would straddle its end goes to JRN_BASE after a PAD (R503). -/
def State.jrnPut (s : State) (r : List Byte) : State × Bool :=
  let size := max 1 s.jrnSize
  let left := size - s.jrn.span % size
  let s := if left < r.length then (s.jrnWrite (fit left (le 2 0 ++ le 1 (left / 16) ++ Config.padRecord left))).1 else s
  s.jrnWrite r

/-! ### The flight recorder (R506, R507) -/

def State.frSize (s : State) : Nat := s.bus.fld .frSlotSize 0 0 0 16 * 1048576
def State.frAddr (s : State) (slot : Nat) : Nat := s.bus.pair .frBaseLo .frBaseHi 0 0 + slot * s.frSize

/-- New journal bytes are copied into the slot being filled, up to T + POST_S, until it is full (R506). -/
def State.frCopy (s : State) : State :=
  match s.jrn.fr with
  | none => s
  | some f =>
    let post := s.bus.fld .jrnXFr 0 0 16 16 * tickS
    if f.full ∨ f.tick + post < s.ticks ∨ s.jrn.span ≤ f.pos then s
    else
      let len := f.pos - f.start
      let n := min (s.jrn.span - f.pos) (s.frSize - len)
      match s.jrnRead f.pos n with
      | (s, none) => s.setJrn { s.jrn with fr := some { f with full := true } }
      | (s, some d) =>
        let w := s.store 150 (s.frAddr f.slot + len) d
        let s := w.1
        let len := len + n
        let full : Bool := !w.2 || decide (f.pos + n < s.jrn.span)
        let f := { f with pos := f.pos + n, full := full, len2 := if s.ticks ≤ f.tick + 2 * tickS then len else f.len2 }
        let s := s.setJrn { s.jrn with fr := some f }
        s.onBus fun b => (b.setReg .frSlotLen 0 f.slot (w32 len)).setFld .frSlotCause 0 f.slot 17 1 (b2n full)

/-- The lowest free slot of the flight recorder (R506). -/
def State.frFree (s : State) : Option Nat :=
  let busy := s.bus.fld .frStatus 0 0 0 8
  if s.bus.fld .frSlotSize 0 0 0 16 = 0 ∨ !s.isOn 0x31 0 then none
  else (List.range 4).find? fun i => !busy.testBit i && !busy.testBit (i + 4)

/-- Slot i opens at the latest checkpoint that lies PRE_S before the trigger; SHORT where there is none (R506). -/
def State.frOpen (s : State) (i cause : Nat) (t : Word) (tick : Nat) (wait : Option (Nat × Nat)) : State :=
  let early := s.jrn.ckpts.filter fun c => decide (c.tick + s.bus.fld .jrnXFr 0 0 0 16 * tickS ≤ tick)
  let c := early.getLast?.orElse fun _ => s.jrn.ckpts.head?
  let start := (c.map CkptRef.pos).getD s.jrn.span
  let s := s.onBus fun b =>
    let b := b.setReg .frSlotTrigger 0 i t
    let b := b.setReg .frSlotCause 0 i (w32 (cause + 256 + 65536 * b2n early.isEmpty))
    let b := (b.setReg .frSlotLen 0 i 0).setReg .frSlotSeq 0 i ((c.map CkptRef.cut).getD 0)
    b.setFld .frStatus 0 0 (4 + i) 1 1
  let offs := (s.jrn.ckpts.filter fun d => decide (start ≤ d.pos)).map fun d => d.pos - start
  let f : FrRun := { slot := i, tick := tick, start := start, pos := start, len2 := 0, full := false, waits := wait.toList }
  (s.setJrn { s.jrn with fr := some f, frCkpts := assocSet s.jrn.frCkpts i offs }).frCopy

/-- A trigger while a slot is being filled counts in it (R506). -/
def State.frCount (s : State) (f : FrRun) (wait : Option (Nat × Nat)) : State :=
  let s := s.setJrn { s.jrn with fr := some { f with waits := f.waits ++ wait.toList } }
  let n := s.bus.fld .frSlotCause 0 f.slot 8 8
  s.onBus fun b => b.setFld .frSlotCause 0 f.slot 8 8 (min 255 (n + 1))

/-- A trigger that finds no free slot (R506). -/
def State.frLost (s : State) (cause : Nat) (wait : Option (Nat × Nat)) : State :=
  let s := s.emit 0x3103 0 1 (pay [cause])
  match wait with
  | some w => s.complete w.1 w.2 stNoSpace 0
  | none => s

/-- A trigger takes the lowest free slot. -/
def State.frStart (s : State) (cause : Nat) (t : Word) (tick : Nat) (wait : Option (Nat × Nat)) : State :=
  match s.frFree with
  | none => s.frLost cause wait
  | some i => s.frOpen i cause t tick wait

/-- FR_TRIGGER (R506): the oldest trigger not yet taken opens the lowest free slot, or counts in the slot being filled (DEDUCED, log 52). -/
def State.frTrigger (s : State) : State :=
  match s.jrn.trigs with
  | [] => s
  | (cause, t, tick, wait) :: rest =>
    let s := s.setJrn { s.jrn with trigs := rest }
    match s.jrn.fr with
    | some f => s.frCount f wait
    | none => s.frStart cause t tick wait

/-- With DUMP_ON_FREEZE, each slot frozen and still so is dumped in turn to the older dump slot, which DUMP_NEXT names (R508). -/
def State.dumpNext (s : State) : State :=
  if s.jrn.dump.isSome then s
  else
    match s.jrn.dumpQ.filter fun i => (s.bus.fld .frStatus 0 0 0 4).testBit i with
    | [] => s.setJrn { s.jrn with dumpQ := [] }
    | i :: rest =>
      let ok : Bool := s.fld .thmState 0 0 10 1 == 1
      let s := if ok then s else s.storeRefused 3
      s.setJrn { s.jrn with dump := some { slot := i, which := s.bus.fld .frStatus 0 0 8 2, cmd := none, held := !ok }, dumpQ := rest }

/-- A dump ends: DUMP_NEXT names the dump slot it did not write, and a slot that waits is next (R508). -/
def State.dumpEnds (s : State) (written : Option Nat) : State :=
  let s := match written with
    | some w => s.onBus fun b => b.setFld .frStatus 0 0 8 2 (1 - w)
    | none => s
  (s.setJrn { s.jrn with dump := none }).dumpNext

/-- FR_FROZEN (R506, R508): copying has reached T + POST_S, or the slot is full. -/
def State.frFrozen (s : State) : State :=
  match s.jrn.fr with
  | none => s
  | some f =>
    let post := s.bus.fld .jrnXFr 0 0 16 16 * tickS
    if !f.full ∧ s.ticks < f.tick + post then s
    else
      let s := s.setJrn { s.jrn with fr := none, frLen2 := assocSet s.jrn.frLen2 f.slot f.len2 }
      let s := s.onBus fun b => (b.setFld .frStatus 0 0 (4 + f.slot) 1 0).setFld .frStatus 0 0 f.slot 1 1
      let s := s.emit 0x3102 0 0 (pay [f.slot, s.bus.fld .frSlotCause 0 f.slot 0 8, (s.bus.reg .frSlotLen 0 f.slot).toNat])
      let s := forEach f.waits (fun w s => s.complete w.1 w.2 stOk 0) s
      if s.bus.fld .jrnCtl 0 0 2 1 = 1 then (s.setJrn { s.jrn with dumpQ := s.jrn.dumpQ ++ [f.slot] }).dumpNext else s

/-- Bytes of a dump (R508): from the latest checkpoint of the slot from which the span up to T + 2 s fits in 48 MiB. -/
def State.dumpSpan (s : State) (slot : Nat) : Nat × Nat :=
  let stop := (assocGet s.jrn.frLen2 slot).getD 0
  let offs := ((assocGet s.jrn.frCkpts slot).getD []).filter fun o => decide (o ≤ stop)
  let fits := offs.filter fun o => decide (stop - o ≤ 48 * 1048576)
  let start := fits.head?.getD (offs.getLast?.getD 0)
  (start, min (stop - start) (48 * 1048576))

/-- FR_DUMPED (R508): the warden has copied the slot into the configuration store. -/
def State.frDumped (s : State) : State :=
  match s.jrn.dump with
  | none => s
  | some d =>
    if s.fld .thmState 0 0 10 1 = 0 then
      match d.cmd with
      | none => if d.held then s else (s.setJrn { s.jrn with dump := some { d with held := true } }).storeRefused 3
      | some w => (s.dumpEnds none |>.storeRefused 3).complete w.1 w.2 stTemp 0
    else
      let q := s.dumpSpan d.slot
      match s.load 152 (s.frAddr d.slot + q.1) q.2 with
      | (s, .ok bytes) =>
        let s := { s with flash := { s.flash with dumps := s.flash.dumps.set d.which bytes } }
        let s := (s.dumpEnds (some d.which)).emit 0x3104 0 0 (pay [d.slot, d.which, bytes.length])
        match d.cmd with
        | some w => s.complete w.1 w.2 stOk 0
        | none => s
      | (s, r) =>
        let s := s.dumpEnds none
        match d.cmd with
        | some w => s.complete w.1 w.2 (match r with | .ue _ => stEcc | _ => stAccess) 0
        | none => s

/-! ### Draining the buffer and checkpoints (R501, R504, R505, R509) -/

/-- The GAP record for records overwritten, which takes the SEQ of the last of them (log 43). -/
def State.gapRec (s : State) : JRec :=
  { kind := 0x14, flags := 0, seq := s.bus.jlostFirst + w32 (s.bus.jlost - 1), time := s.now, cap := 0x31, inst := 0,
    body := le 4 s.bus.jlost ++ le 4 s.bus.jlostFirst.toNat }

/-- Write the buffered records, after a GAP record when some were overwritten (R501); those of its own
series queue for a partner that is fed (DEDUCED, log 43). -/
def State.jrnDrain (s : State) : State :=
  if !s.isOn 0x31 0 then s
  else
    let lost := s.bus.jlost
    let gap := if lost = 0 then [] else [s.gapRec]
    let s := if lost = 0 then s else
      (s.onBus fun b => (b.bump .jrnGaps 0 0 lost).setFld .jrnStatus 0 0 1 1 1).emit 0x3101 0 1 (pay [lost, s.bus.jlostFirst.toNat])
    let recs := match s.bus.jbuf with
      | [] => []
      | r :: rest => (if lost = 0 then r else { r with flags := r.flags ||| 2 }) :: rest
    let s := s.onBus fun b => { b with jbuf := [], jlost := 0 }
    let out := (gap ++ recs).foldl (fun (a : State × List JRec) r =>
      let w := a.1.jrnPut r.bytes
      if w.2 then (w.1, a.2 ++ [r])
      else
        let b := w.1.bus
        (w.1.onBus fun _ => { b with jlost := b.jlost + 1, jlostFirst := if b.jlost = 0 then r.seq else b.jlostFirst, jgap := true }, a.2)) (s, [])
    let s := out.1.frCopy
    if s.tnd.feed = 0 then s
    else { s with tnd := { s.tnd with outq := s.tnd.outq ++ out.2.filter fun r => r.flags % 2 == 0 } }

/-- CHECKPOINT_START (R504): CKPT_BEGIN, then the data of the committed state (DEDUCED, log 52). -/
def State.ckptStart (s : State) : State :=
  if !s.isOn 0x31 0 ∨ s.jrn.run.isSome ∨ s.ticks < s.jrn.nextTick then s
  else
    let s := s.setJrn { s.jrn with nextTick := s.ticks + s.bus.fld .jrnXCkpt 0 0 0 16 * tickMs }
    let cut := s.bus.reg .jrnSeq 0 0
    let data := ckptEncode s.ckpt
    let s := s.jrnDrain
    let s := s.journal 0x11 0x31 0 (le 4 cut.toNat ++ le 4 data.length ++ le 4 (s.reg .structHash 0 0).toNat ++
      le 4 (s.reg .structHash 0 1).toNat ++ le 4 s.epoch ++ le 4 0)
    let size := max 1 s.jrnSize
    let left := size - s.jrn.span % size
    let pos := if left < 48 then s.jrn.span + left else s.jrn.span
    let s := s.jrnDrain
    let w := s.jrnWrite (padTo 16 data)
    let s := w.1.onBus fun b => b.setFld .jrnStatus 0 0 2 1 1
    (s.setJrn { s.jrn with run := some { pos := pos, cut := cut, tick := s.ticks, data := data, sound := w.2 } }).frCopy

/-- CHECKPOINT_END (R504): CKPT_END closes it within CKPT_MS (DEDUCED, log 52). -/
def State.ckptEnd (s : State) : State :=
  match s.jrn.run with
  | none => s
  | some c =>
    if !c.sound ∨ c.tick + s.bus.fld .jrnXCkpt 0 0 0 16 * tickMs < s.ticks then s
    else
      let s := s.journal 0x12 0x31 0 (le 8 (jrnl64 c.data) ++ le 4 c.data.length)
      let s := s.jrnDrain
      let offs := match s.jrn.fr with
        | some f => if f.start ≤ c.pos then assocSet s.jrn.frCkpts f.slot (((assocGet s.jrn.frCkpts f.slot).getD []) ++ [c.pos - f.start])
          else s.jrn.frCkpts
        | none => s.jrn.frCkpts
      let s := s.setJrn { s.jrn with run := none, ckpts := s.jrn.ckpts ++ [⟨c.pos, c.cut, c.tick⟩], frCkpts := offs }
      s.onBus fun b =>
        let b := (b.setFld .jrnStatus 0 0 2 1 0).setReg .jrnCkptSeq 0 0 c.cut
        (b.setReg .jrnCkptOfs 0 0 (w32 (c.pos % max 1 s.jrnSize))).setReg .jrnCkptLen 0 0 (w32 c.data.length)

/-- CKPT_ABANDONED (R505): not finished within CKPT_MS. -/
def State.ckptAbandoned (s : State) : State :=
  match s.jrn.run with
  | none => s
  | some c =>
    if s.ticks ≤ c.tick + s.bus.fld .jrnXCkpt 0 0 0 16 * tickMs then s
    else
      ((s.setJrn { s.jrn with run := none }).onBus fun b => b.setFld .jrnStatus 0 0 2 1 0).emit 0x3105 0 1 (pay [c.cut.toNat])

/-! ### Lifecycle and commands (R502, R507, R508, R530) -/

/-- The checks of STARTING (R502). -/
def State.jrnCheck (s : State) : Option Nat :=
  let rb := s.jrnBase
  let rn := s.jrnSize
  let fb := s.bus.pair .frBaseLo .frBaseHi 0 0
  let fn := 4 * s.frSize
  if s.bus.passes 150 rb rn true true && (fn == 0 || s.bus.passes 150 fb fn true true) &&
      (decide (rb + rn ≤ fb) || decide (fb + fn ≤ rb) || fn == 0) && decide (64 * 1048576 ≤ rn) then none
  else some 1

/-- FREEZE (R506): completes when the slot is frozen (DEDUCED, log 52). -/
def freeze : Perf := fun _ r e s =>
  checked 0x31 (e.object == 0xFFFF) (e.zeroFrom 32 56) false e s fun s => (s.trigger 3 (some (r, e.k)), none)

/-- RELEASE (R507) (DEDUCED, log 52). -/
def release : Perf := fun _ _ e s =>
  let i := byteAt e.data 32
  checked 0x31 (e.object == 0xFFFF) (e.zeroFrom 33 56 && decide (i < 4)) false e s fun s =>
    let st := s.bus.fld .frStatus 0 0 0 8
    if st.testBit (i + 4) then done s stBusy
    else if !st.testBit i then done s stState
    else done (s.onBus fun b => b.setFld .frStatus 0 0 i 1 0) stOk

/-- DUMP (R508): completes once the warden has copied the slot (DEDUCED, log 52). -/
def dump : Perf := fun _ r e s =>
  let i := byteAt e.data 32
  let d := byteAt e.data 33
  checked 0x31 (e.object == 0xFFFF) (e.zeroFrom 34 56 && decide (i < 4) && decide (d < 2)) false e s fun s =>
    if !(s.bus.fld .frStatus 0 0 0 4).testBit i then done s stState
    else if s.jrn.dump.isSome then done s stBusy
    else if s.fld .thmState 0 0 10 1 = 0 then done (s.storeRefused 3) stTemp
    else (s.setJrn { s.jrn with dump := some { slot := i, which := d, cmd := some (r, e.k), held := false } }, none)

/-- MARK (R530). -/
def mark : Perf := fun host _ e s =>
  checked 0x31 (e.object == 0xFFFF) (e.zeroFrom 48 56) false e s fun s =>
    done (s.journal 0x13 0x31 0 (le 1 host ++ le 3 0 ++ slice e.data 32 16)) stOk

def execCheckpointStart (s : State) : Answer := s.fabric fun s => s.ckptStart
def execCkptAbandoned (s : State) : Answer := s.fabric fun s => s.ckptAbandoned
def execFrTrigger (s : State) : Answer := s.fabric fun s => s.frTrigger
def execFrFrozen (s : State) : Answer := s.fabric fun s => s.frFrozen
def execFrDumped (s : State) : Answer := s.fabric fun s => s.frDumped
def execFreeze (r k : Nat) (s : State) : Answer := s.fabric fun s => s.runCmd 0x3101 freeze r k
def execRelease (r k : Nat) (s : State) : Answer := s.fabric fun s => s.runCmd 0x3102 release r k
def execDump (r k : Nat) (s : State) : Answer := s.fabric fun s => s.runCmd 0x3103 dump r k
def execMark (r k : Nat) (s : State) : Answer := s.fabric fun s => s.runCmd 0x3104 mark r k

end Sys2Proof.Machine
end

