-- ==== Sys2Proof/Machine/Start.lean ====
section
/-! DEFINITION. What lets a function instance start: the thermal steps in force (spec/17 R546, R548) and the fail-safe. -/

namespace Sys2Proof.Machine

/-- THM_STATE.LEVEL: 0 NORMAL, 1 GRACE, 2 ENFORCING, 3 FAILSAFE, 4 CUTOFF. -/
def State.level (s : State) : Nat := s.fld .thmState 0 0 0 3
/-- THM_STATE.STEP. -/
def State.thmStep (s : State) : Nat := s.fld .thmState 0 0 3 5

/-- An enabled layer of a critical head names source n (R546 step 2). -/
def State.criticalShows (s : State) (n : Nat) : Bool :=
  s.plan.heads.any fun e => e.critical && (List.range 32).any fun l => (s.layer e.head l).enabled && (s.layer e.head l).src == n

/-- A step covers an instance (R546, R548). -/
def State.thmCovers (s : State) (step cap i : Nat) : Bool :=
  match cap with
  | 0x15 => decide (1 ≤ step)
  | 0x11 => decide (2 ≤ step) && !s.criticalShows i
  | 0x14 => decide (18 ≤ step) && (match s.plan.head i with | some e => !e.critical | _ => false)
  | _ => false

/-- The functions that the fail-safe stops (R549 step 5). -/
def safeCaps : List Nat := [0x10, 0x11, 0x12, 0x13, 0x14, 0x15, 0x20, 0x21]

/-- An instance enters STARTING (spec/03 R91). A start fails at once while a thermal step covers it (R548), in the fail-safe, which lasts
until a reset (R552), and on a panel whose ring is not right (spec/14 R464). -/
def State.toStarting (s : State) (cap i : Nat) : State :=
  let s := s.onBus fun b => b.enter cap i 1
  if s.thmCovers s.thmStep cap i then s.onBus fun b => b.startFailed cap i 0xF0
  else if 3 ≤ s.level ∧ safeCaps.contains cap then s.onBus fun b => b.startFailed cap i 0
  else if cap = 0x21 then
    match s.panCheck i with
    | some r => s.onBus fun b => b.startFailed cap i r
    | none => s.panEnter i
  else s

end Sys2Proof.Machine
end

