-- ==== Sys2Proof/Machine/Load.lean ====
section
/-! DEFINITION. What a structure gives the registers when it is loaded (the "From plan" values of the register tables), the
reset of one function instance, and the start of all of them (spec/17 R537 step 7). -/

namespace Sys2Proof.Machine

/-! ### Values from the plan -/

/-- A value that the structure gives a register of an instance: register, sub-index, value. -/
abbrev PlanVal := AnyReg × Nat × Nat

/-- A ZONE field of a register: the zone, or 0xF for none. -/
def zoneField (z : Nat) : Nat := z % 16

/-- A 64-bit value in a pair of registers. -/
def planPair (lo hi : BReg) (j v : Nat) : List PlanVal := [(.bus lo, j, v % 2 ^ 32), (.bus hi, j, v / 2 ^ 32)]

/-- SOURCES (spec/06 R185 for SRC_LIMIT; buffers past BUFFERS are absent). -/
def Plan.srcVals (p : Plan) (n : Nat) : List PlanVal :=
  match p.source n with
  | some e =>
    [(.fn .srcCfg, 0, e.kind + 8 + e.attach * 2 ^ 8 + e.buffers * 2 ^ 16 + e.store * 2 ^ 22 + e.partition * 2 ^ 24 +
        zoneField e.zone * 2 ^ 28),
     (.fn .srcSize, 0, e.maxWidth + e.maxHeight * 2 ^ 16), (.fn .srcLimit, 0, (p.freshFor 0xFF n).1)] ++
    ((List.range 16).filter fun b => decide (e.buffers ≤ b)).map fun b => (.fn .srcBufState, b, 7)
  | _ => []

/-- DECODE. -/
def Plan.decVals (p : Plan) (n : Nat) : List PlanVal :=
  match p.stream n with
  | some e => [(.fn .decCfg, 0, 1 + e.codec * 2 + e.host * 4 + e.dpb * 16), (.fn .decLumaKps, 0, e.lumaKps)]
  | _ => []

/-- COMPOSE. -/
def Plan.composeVals (p : Plan) (h : Nat) : List PlanVal :=
  match p.head h with
  | some e =>
    let units := (p.units.filter fun u => u.owner == h).length
    [(.fn .composeCfg, 0, e.maxDepth + units * 2 ^ 8 + b2n e.writeback * 2 ^ 16 + b2n e.critical * 2 ^ 17)]
  | _ => []

/-- Tiles of the heads before one, in head order: the first entry of its run (spec/09 R284). -/
def Plan.tileBase (p : Plan) (h : Nat) : Nat :=
  ((p.heads.filter fun e => decide (e.head < h)).map fun e => tileCount e.maxWidth e.maxHeight).sum

/-- FRESH. -/
def Plan.freshVals (p : Plan) (h : Nat) : List PlanVal :=
  match p.head h with
  | some e =>
    [(.fn .freshCfg, 0, p.tileBase h + cdiv e.maxWidth 64 * 2 ^ 17 + cdiv e.maxHeight 64 * 2 ^ 24),
     (.fn .freshStaleColour, 0, p.staleColour), (.fn .freshDegradedColour, 0, p.degradedColour)] ++
    (List.range 32).map fun l => (.fn .freshLayerLimit, l, (p.freshFor h 0xFF).1 + 0x8000)
  | _ => []

/-- HEADS. -/
def Plan.headVals (p : Plan) (h : Nat) : List PlanVal :=
  match p.head h with
  | some e =>
    [(.fn .headCfg, 0, e.primary + e.secondary * 2 ^ 8 + e.group * 2 ^ 16 + b2n (e.bits == 10) * 2 ^ 19 +
        b2n e.degradedOk * 2 ^ 20 + zoneField e.zone * 2 ^ 24),
     (.fn .headMax, 0, e.maxWidth + e.maxHeight * 2 ^ 16), (.fn .headMinLinePs, 0, e.minLinePs),
     (.fn .headCtl, 0, b2n e.degradedOk + b2n e.critical * 16)]
  | _ => []

/-- ENCODE. -/
def Plan.encVals (p : Plan) (c : Nat) : List PlanVal :=
  match p.enc c with
  | some e =>
    [(.fn .encCfg, 0, e.input + e.host * 2 ^ 8 + b2n e.main10 * 2 ^ 10 + zoneField e.zone * 2 ^ 12),
     (.fn .encMax, 0, e.maxWidth + e.maxHeight * 2 ^ 16), (.fn .encMaxRate, 0, e.maxRate)]
  | _ => []

/-- This end is the clock master of a port (spec/12 R358); `id` is TANDEM_ID. -/
def Plan.clockMaster (p : Plan) (n id : Nat) : Bool :=
  match p.role n with
  | 1 => true
  | 3 => match p.tandem with
    | some t => if n = t.portA then id == 0 else id == 1
    | _ => false
  | _ => false

/-- PORTS. -/
def Plan.portVals (p : Plan) (n id : Nat) : List PlanVal :=
  match p.port n with
  | some e =>
    [(.fn .portCfg, 0, e.role + e.rate * 4 + b2n (p.clockMaster n id) * 16 + zoneField e.zone * 2 ^ 8),
     (.fn .portXRateCap, 0, e.rate), (.fn .linkHoldCap, 0, e.holdCap)]
  | _ => []

/-- TOUCH. -/
def Plan.touchVals (p : Plan) (n : Nat) : List PlanVal :=
  match p.panel n with
  | some e =>
    [(.fn .touchCfg, 0, e.port + e.host * 2 ^ 6 + e.head * 2 ^ 8 + zoneField e.zone * 2 ^ 16 + e.maxContacts * 2 ^ 20),
     (.fn .touchGeom, 0, e.cols + e.rows * 2 ^ 8 + e.maxKeys * 2 ^ 16),
     (.fn .touchLimits, 0, e.ageLimit + e.maxContactS * 2 ^ 16)]
  | _ => []

/-- Cadence groups in TIMING (spec/15 R489). -/
def Plan.groupVals (p : Plan) (g : Nat) : List PlanVal :=
  match p.cad g with
  | some e => [(.fn .grpRate, g, e.rateMax), (.fn .grpPhase, g, e.phaseNs)]
  | _ => []

/-- Partitions in MEMORY: 0 is the staging partition (spec/02 R43), whose values are those of reset. -/
def PartEnt.vals (e : PartEnt) : List PlanVal :=
  planPair .memPartBaseLo .memPartBaseHi e.part e.base ++ planPair .memPartSizeLo .memPartSizeHi e.part e.size ++
  [(.bus .memPartCtl, e.part, 1 + e.stks * 2 + (e.grain - 8) * 16 + b2n e.zeroAtLoad * 2 ^ 8 + zoneField e.zone * 2 ^ 16)]

/-- Regions of a master (spec/02 R45, spec/04 R123). -/
def Plan.accVals (p : Plan) (m : Nat) : List PlanVal :=
  let es := p.access.filter fun e => e.master == m
  (es.flatMap fun e =>
    planPair .regBaseLo .regBaseHi e.region e.base ++ planPair .regSizeLo .regSizeHi e.region e.size ++
    [(.bus .regCtl, e.region, 1 + b2n e.read * 2 + b2n e.write * 4 + b2n e.lock * 8)]) ++
  [(.bus .accEnabled, 0, (es.map fun e => 2 ^ e.region).sum)]

/-- The regions of NO_STRUCTURE (spec/04 R123): region 0 of HOST0 to HOST3 covers the staging partition. -/
def noStructureVals : List PlanVal :=
  planPair .regSizeLo .regSizeHi 0 0x08000000 ++ [(.bus .regCtl, 0, 7), (.bus .accEnabled, 0, 1)]

/-- The highest ring of a port, which is its event ring at reset (spec/03 R113). -/
def Plan.eventRing (p : Plan) (h : Nat) : Option Nat := ((List.range 256).filter fun r => p.ringHost r == some h).getLast?

/-- RINGS: the event ring's KIND resets to EVENT. -/
def Plan.ringVals (p : Plan) (r : Nat) : List PlanVal :=
  if (List.range 4).any fun h => p.eventRing h == some r then
    [(.bus .ringCtl, 0, 0x601 + (r % 64 + 1) * 2 ^ 16)]
  else []

/-- TANDEM: TANDEM_ID is the strap, PREFERRED the plan's. -/
def Plan.tandemVals (p : Plan) (id : Nat) : List PlanVal :=
  match p.tandem with
  | some t => [(.fn .tndCfg, 0, t.pairId + t.portA * 2 ^ 16 + t.portB * 2 ^ 24),
               (.fn .tndState, 0, 0x38 + id * 2 ^ 9 + b2n (t.preferred == id) * 2 ^ 10)]
  | _ => []

/-- The values that the plan gives an instance; `id` is TANDEM_ID. -/
def Plan.vals (p : Plan) (id cap i : Nat) : List PlanVal :=
  match cap with
  | 0x02 => p.ringVals i
  | 0x04 => p.accVals i
  | 0x05 => p.parts.flatMap PartEnt.vals
  | 0x10 => p.srcVals i
  | 0x11 => p.decVals i
  | 0x12 => p.composeVals i
  | 0x13 => p.freshVals i
  | 0x14 => p.headVals i
  | 0x15 => p.encVals i
  | 0x20 => p.portVals i id
  | 0x21 => p.touchVals i
  | 0x30 => (List.range 8).flatMap p.groupVals
  | 0x32 => p.tandemVals id
  | _ => []

/-! ### Resetting an instance -/

/-- Write a value that the plan gives. -/
def State.putVal (s : State) (i : Nat) (v : PlanVal) : State :=
  match v.1 with
  | .bus r => s.onBus fun b => b.setReg r i v.2.1 (w32 v.2.2)
  | .fn r => s.setReg r i v.2.1 (w32 v.2.2)

/-- The names of a function's registers, of the bus side and of the other. -/
def busNames (cap : Nat) : List Nat := (rowsOf cap).filterMap fun r => match r.reg with | .bus x => some x.ctorIdx | .fn _ => none
def fnNames (cap : Nat) : List Nat := (rowsOf cap).filterMap fun r => match r.reg with | .fn x => some x.ctorIdx | .bus _ => none

/-- Drop the entries of one instance of the named registers. -/
def dropInst (names : List Nat) (i : Nat) (t : Tab Word) : Tab Word :=
  t.filter fun e => !((Nat.unpair (Nat.unpair e.1).1).2 == i && names.contains (Nat.unpair (Nat.unpair e.1).1).1)

/-- Every register of an instance takes its reset value, from the table or the plan. -/
def State.resetRegs (s : State) (cap i : Nat) : State :=
  let s := s.onBus fun b => { b with regs := dropInst (busNames cap) i b.regs }
  let s := { s with fregs := dropInst (fnNames cap) i s.fregs }
  forEach (s.plan.vals (s.wdn.straps % 2) cap i) (fun v s => s.putVal i v) s

/-- What an instance holds beside its registers starts afresh. An out-port is harmless until its head starts (spec/17 R555). -/
def State.resetHidden (s : State) (cap i : Nat) : State :=
  match cap with
  | 0x02 => s.onBus fun b => b.setRing i RingSt.init
  | 0x04 => s.onBus fun b => b.setAcc i AccSt.init
  | 0x10 => { s with wbs := tabSet none s.wbs i none }.setSrc i SrcSt.init
  | 0x11 => s.setDec i DecSt.init
  | 0x14 => s.setHead i HeadSt.init
  | 0x15 => s.setEnc i EncSt.init
  | 0x20 => (s.setLane i LaneSt.init).setLink i { LinkSt.init with safe := if s.plan.role i = 1 then some 3 else none }
  | 0x21 => s.setPan i PanelSt.init
  | 0x31 => s.setJrn JrnSt.init
  | 0x32 => { s with tnd := TndSt.init }
  | _ => s

/-- An instance as the load leaves it. -/
def State.resetInst (s : State) (cap i : Nat) : State := (s.resetRegs cap i).resetHidden cap i

/-- The instances of a function. -/
def Plan.insts (p : Plan) (cap : Nat) : List Nat := (List.range (capSlots cap)).filter fun i => p.has cap i

/-- Functions that are always ON (spec/04 R118, spec/05 R164, spec/15 R488, spec/17 Registers). -/
def alwaysOn (cap : Nat) : Bool := cap == 0x04 || cap == 0x05 || cap == 0x30 || cap == 0x33

/-- COMPOSE and FRESH are ON exactly while their head is (spec/08 R245, spec/09 R300). -/
def followsHead (cap : Nat) : Bool := cap == 0x12 || cap == 0x13

/-- An instance whose ENABLE is 1 enters STARTING (spec/17 R537 step 7); one that is always ON is ON. -/
def State.startInst (s : State) (cap i : Nat) : State :=
  if followsHead cap then s
  else if alwaysOn cap then s.onBus fun b => b.setFld .fnCtl cap i 2 3 2
  else if bit (s.bus.reg .fnCtl cap i) 0 ∧ s.fnState cap i = 0 then s.toStarting cap i
  else s

/-- Every enabled cadence group has its next frame instant (spec/15 R489). -/
def State.startGroups (s : State) : State :=
  forEach (List.range 8) (fun g s =>
    if (s.plan.cad g).isSome then
      let s := s.setGroup g { s.group g with k := 0 }
      s.setNext g (s.firstK g s.now 0)
    else s) s

/-- The registers that a host port's place and the unit's identity give (spec/03 and spec/04, Registers). -/
def State.identity (s : State) : State :=
  let life := s.lifecycle
  let s := s.onBus fun b => (List.range 4).foldl (fun b h => b.setReg .corePort h 0 (w32 (h + s.wdn.straps % 2 * 4 + life * 16))) b
  let s := (s.setReg .debugSerialLo 0 0 (w32 s.otp.serial)).setReg .debugSerialHi 0 0 (w32 (s.otp.serial / 2 ^ 32))
  let key (n : Nat) : Nat := if s.otp.revoked.getD n false then 2 else if (s.otp.hashes.getD n []).isEmpty then 0 else 1
  let s := s.setReg .structKeys 0 0 (w32 ((List.range 4).map fun n => key n * 4 ^ n).sum)
  s.setReg .structFloor 0 0 (w32 s.otp.floor)

/-- The functions that a load brings up with their reset values: those which the structure instantiates. -/
def loadedCaps : List Nat :=
  [0x02, 0x03, 0x04, 0x05, 0x06, 0x07, 0x10, 0x11, 0x12, 0x13, 0x14, 0x15, 0x20, 0x21, 0x30, 0x31, 0x32]

/-- The routing of the structure is loaded: every value that the plan gives is in its register. -/
def State.instantiate (s : State) : State :=
  let s := forEach loadedCaps (fun cap s => forEach (s.plan.insts cap) (fun i s =>
    forEach (s.plan.vals (s.wdn.straps % 2) cap i) (fun v s => s.putVal i v) s) s) s
  let s := if s.plan.loaded then s else
    forEach (List.range 4) (fun h s => forEach noStructureVals (fun v s => s.putVal h v) s) s
  let s := s.onBus fun b => (List.range 4).foldl (fun b h =>
    b.setReg .coreEvtRing h 0 (w32 ((s.plan.eventRing h).getD 0x100))) b
  let s := forEach (s.plan.insts 0x20) (fun i s => s.resetHidden 0x20 i) s
  s.startGroups

/-- The structure runs: functions enter STARTING (spec/17 R537 step 7). -/
def State.startAll (s : State) : State :=
  forEach capIds (fun cap s => forEach (s.plan.insts cap) (fun i s => s.startInst cap i) s) s

/-- In a cold start, every function starts from the structure's reset values (spec/16 R511); links, journal, tandem and the functions
that are always ON but TIMING's groups run on. -/
def coldCaps : List Nat := [0x02, 0x03, 0x06, 0x07, 0x10, 0x11, 0x12, 0x13, 0x14, 0x15, 0x21]

def State.coldStart (s : State) : State :=
  let s := forEach coldCaps (fun cap s => forEach (s.plan.insts cap) (fun i s =>
    (s.resetInst cap i).onBus fun b => b.setReg .fnCtl cap i (BReg.fnCtl.reset cap i)) s) s
  let s := { s with cores := [], wbs := [] }
  let s := s.onBus fun b => { b with fns := [] }
  let s := s.startGroups
  forEach coldCaps (fun cap s => forEach (s.plan.insts cap) (fun i s => s.startInst cap i) s) s

end Sys2Proof.Machine
end

