-- ==== Sys2Proof/Machine/Tandem.lean ====
section
/-! DEFINITION. The tandem pair (spec/16 R510 to R525): roles and epochs, heartbeats, the replay buffer, what an ACTIVE feeds a
partner, and what a joining unit takes of it; and STATUS packets, which carry the epochs that endpoints hold (spec/13 R416). -/

namespace Sys2Proof.Machine

def State.setTnd (s : State) (x : TndSt) : State := { s with tnd := x }

/-- TND_STATE.ROLE: 0 LISTENING, 1 JOINING, 2 STANDBY, 3 ACTIVE, 4 FAILED, 5 HANDING_OVER. -/
def State.role (s : State) : Nat := s.fld .tndState 0 0 0 3
def State.inSync (s : State) : Bool := bit (s.reg .tndState 0 0) 6
/-- The TANDEM_ID strap. -/
def State.tandemId (s : State) : Nat := s.wdn.straps % 2

/-- The tandem ports. -/
def Plan.tandemPorts (p : Plan) : List Nat :=
  match p.tandem with
  | some t => if t.portB = 0xFF then [t.portA] else [t.portA, t.portB]
  | _ => []

/-- The port whose data lanes this unit drives; unit 1 with PORT_A alone has only its back lane (spec/12 R358). -/
def State.dataPort (s : State) : Nat :=
  match s.plan.tandem with
  | some t => if s.tandemId = 0 ∨ t.portB = 0xFF then t.portA else t.portB
  | none => 64

def Plan.outPorts (p : Plan) : List Nat := (List.range 64).filter fun n => p.role n == 1

/-! ### Sending (R512, R514) -/

def tndStream (typ : Nat) : Nat := match typ with | 0x81 => 0x101 | 0x82 => 0x102 | 0x83 => 0x103 | _ => 0x100

/-- HEARTBEAT, ACK and SYNC_REQ, which are not replayed. -/
def State.tndControl (s : State) (p typ : Nat) (payload : List Byte) : State := s.sendNew p typ 0 0x100 payload

/-- Bytes the replay buffer holds. -/
def TndSt.held (x : TndSt) : Nat := (x.replay.map fun r => r.payload.length + 20).sum

/-- Keep the newest packets within 4 MiB (R514). -/
def trimReplay : Nat → List Replay → List Replay
  | 0, l => l
  | fuel + 1, l => if 4194304 < (l.map fun r => r.payload.length + 20).sum then trimReplay fuel (l.drop 1) else l

/-- A JOURNAL, MIRROR or CHECKPOINT packet leaves, and stays in the replay buffer until it is acknowledged (R514). While the port is
down it is kept all the same and counts on its stream (DEDUCED, log 55). -/
def State.tndData (s : State) (typ : Nat) (payload : List Byte) : State :=
  let p := s.dataPort
  let q := tndStream typ
  let x := s.link p
  let a := aliveNext ((assocGet x.tx q).getD 0)
  let s := (s.setLink p { x with tx := assocSet x.tx q a }).sendItem p typ 2 q a s.now payload
  let l := s.tnd.replay ++ [⟨q, a, typ, payload⟩]
  s.setTnd { s.tnd with replay := trimReplay l.length l }

/-- Pack records into payloads of whole records, at most 4,096 bytes each (R512). -/
def packRecs (rs : List JRec) : List (List Byte) :=
  rs.foldl (fun acc r =>
    let b := r.bytes
    match acc.getLast? with
    | some l => if l.length + b.length ≤ 4096 then acc.dropLast ++ [l ++ b] else acc ++ [b]
    | none => [b]) []

/-- The records on their way out leave. -/
def State.feedRecords (s : State) : State :=
  if s.tnd.feed ≠ 2 then s
  else
    let ps := packRecs s.tnd.outq
    let s := s.setTnd { s.tnd with outq := [], sent := (s.tnd.outq.getLast?.map JRec.seq).getD s.tnd.sent }
    forEach ps (fun b s => s.tndData 0x81 b) s

/-- The enabled mirror windows as (base, size, HOSTS) (R520). -/
def State.windows (s : State) : List (Nat × Nat × Nat) :=
  ((List.range 16).filter fun w => bit (s.reg .tndMirCtl 0 w) 0).map fun w =>
    (s.pair .tndMirBaseLo .tndMirBaseHi 0 w, s.fld .tndMirSize 0 w 0 24 * 65536, s.fld .tndMirCtl 0 w 4 4)

/-- The 4 KiB block n of the windows, counted through them in order. -/
def blockAt : Nat → List (Nat × Nat × Nat) → Option Nat
  | _, [] => none
  | n, w :: ws => if n < w.2.1 / 4096 then some (w.1 + 4096 * n) else blockAt (n - w.2.1 / 4096) ws

/-- Bytes mirrored count in TND_MIRROR_KB by whole KiB. -/
def State.countMirror (s : State) (n : Nat) : State :=
  let t := s.tnd.mirRem + n
  (s.setTnd { s.tnd with mirRem := t % 1024 }).bump .tndMirrorKb 0 0 (t / 1024)

/-- MIRROR packets for bytes at an address: at most 4,080 bytes of data each (R396, R512). -/
def State.mirrorOut (s : State) (a : Nat) (data : List Byte) : State :=
  let s := forEach (List.range (cdiv data.length 4080)) (fun i s =>
    let d := slice data (4080 * i) 4080
    s.tndData 0x82 (le 8 (a + 4080 * i) ++ le 4 d.length ++ le 4 0 ++ d)) s
  s.countMirror data.length

/-- Window blocks leave while the replay buffer has room, each read and queued in one step (R521) (DEDUCED, log 55). -/
def State.feedBlocks : Nat → State → State
  | 0, s => s
  | fuel + 1, s =>
    match s.tnd.winPos with
    | none => s
    | some n =>
      match blockAt n s.windows with
      | none => s.setTnd { s.tnd with winPos := none }
      | some a =>
        if 4194304 < s.tnd.held + 4200 then s
        else
          let s := s.setTnd { s.tnd with winPos := some (n + 1) }
          match s.load 151 a 4096 with
          | (s, .ok d) => State.feedBlocks fuel (s.mirrorOut a d)
          | (s, _) => State.feedBlocks fuel s

/-- A checkpoint goes to a joining partner, then the journal from its CUT_SEQ, then every window (R521) (DEDUCED, log 55). -/
def State.feedCkpt (s : State) (cut : Word) (data : List Byte) : State :=
  let s := forEach (List.range (max 1 (cdiv data.length 4080))) (fun i s =>
    s.tndData 0x83 (le 4 cut.toNat ++ le 4 (4080 * i) ++ le 8 0 ++ slice data (4080 * i) 4080)) s
  let s := s.setTnd { s.tnd with feed := 2, winPos := some 0, outq := s.tnd.outq.filter fun r => decide (0 < sdiff r.seq cut) }
  s.feedRecords.feedBlocks 1100

/-- CHECKPOINT_END (R504, R521): a partner that waits for the next checkpoint is fed it. -/
def State.ckptEndFeed (s : State) : State :=
  match s.jrn.run with
  | none => s
  | some c =>
    let t := s.ckptEnd
    if t.jrn.run.isNone ∧ t.tnd.feed = 1 then t.feedCkpt c.cut c.data else t.feedRecords

/-- JOURNAL_RING_WRITE (R501): the buffer drains into the ring and towards the partner. -/
def State.ringWrite (s : State) : State := s.jrnDrain.feedRecords

/-- A host's write that passed its check and lies in a window of that port goes to the partner, ahead of any later record (R520). -/
def State.mirrorWrite (s : State) (port a : Nat) (data : List Byte) : State :=
  if (s.role = 3 ∨ s.role = 5) ∧ s.plan.tandem.isSome ∧ s.tnd.feed = 2 ∧
      (s.windows.any fun w => decide (w.1 ≤ a) && decide (a + data.length ≤ w.1 + w.2.1) && w.2.2.testBit port) then
    (s.ringWrite).mirrorOut a data
  else s

/-- SYNC_REQ leaves, with FULL (R512, R521). -/
def State.syncReq (s : State) : State := s.tndControl s.dataPort 0x85 (le 4 s.tnd.applied.toNat ++ le 1 1 ++ le 3 0)

/-! ### Roles (R511) -/

/-- IN_SYNC changes (R531): reason 0 joined, 1 replay overflow, 2 RESYNC (DEDUCED, log 55). -/
def State.setInSync (s : State) (v : Bool) (reason : Nat) : State :=
  if s.inSync = v then s
  else
    let s := (s.setFld .tndState 0 0 6 1 (b2n v)).setFld .tndState 0 0 7 1 (b2n (v && s.role == 2))
    s.emit 0x3205 0 1 (pay [b2n v, reason])

/-- A transition of the role, with its record before it takes effect (R500, R511); `cause` is that of TAKEOVER (DEDUCED, log 54). -/
def State.setRole (s : State) (r cause : Nat) : State :=
  let old := s.role
  let e := (s.reg .tndEpoch 0 0).toNat
  let s := s.journal 0x10 0x32 0 (le 1 old ++ le 1 r ++ le 1 cause ++ le 1 0 ++ le 4 e ++ le 4 s.tnd.applied.toNat)
  let s := (s.setFld .tndState 0 0 0 3 r).setFld .tndState 0 0 7 1 (b2n (r == 2 && s.inSync))
  let s := s.setTnd { s.tnd with roleTick := s.ticks }
  s.emit 0x3201 0 (if r = 4 then 2 else 0) (pay [old, r, e])

/-- The epochs that a new one must exceed (R515, R517). -/
def State.epochsSeen (s : State) : Nat :=
  s.plan.outPorts.foldl (fun m p => max m (s.reg .linkPartnerEpoch p 0).toNat)
    (max (s.reg .tndEpoch 0 0).toNat (s.reg .tndPartnerEpoch 0 0).toNat)

/-- The smallest epoch of the unit's parity above `m` (R515). -/
def epochAbove (id m : Nat) : Nat := if (m + 1) % 2 = id then m + 1 else m + 2

/-- A new epoch; every out-port sends it before its next frame (R515, R517). -/
def State.takeEpoch (s : State) : State :=
  let s := s.setReg .tndEpoch 0 0 (w32 (epochAbove s.tandemId s.epochsSeen))
  forEach s.plan.outPorts (fun p s => s.setLink p { s.link p with needEpoch := true }) s

/-- What a unit that becomes ACTIVE sends at once on an out-port: EPOCH and HOLD_CAP, and SAFE where the port is harmless (R412, R523). -/
def State.portDrives (s : State) (p : Nat) : State :=
  if s.portState p ≠ 2 then s.setLink p { s.link p with needEpoch := true, needHold := true }
  else
    let s := (s.sendEpoch p true).sendHold p
    match (s.link p).safe with
    | some reason => s.safe p reason
    | none => s

/-- A head that goes on under a new ACTIVE: at its next latch instant MODE_CHANGE of the present mode and the frame, with no blank
frames, and the witness's new baseline (R523). One whose port is in SAFE by the witness or the island stays there until REARM (spec/09 R298,
R299, spec/01 R27); SAFE in place of frames is a decision record (spec/01 R28). -/
def State.headDrives (s : State) (h : Nat) : State :=
  if !s.isOn 0x14 h then s
  else
    match s.plan.head h with
    | none => s
    | some e =>
      let s := s.setFld .headStatus h 0 13 1 1
      let wit := e.ports.any s.witSafe
      let s := if wit then s else s.setOutput h 2 0
      let r := s.laneCheck h
      let s := s.setHead h { s.head h with fresh := false, blanks := 0, lane := r, baseline := true, hold := none }
      if wit then
        (s.giveUp 0x14 h 1 (s.safeGives h) 0x1407 (some (s.reg .headFrame h 0))).headSafe h (s.witCause e) e.primary
      else if r = 3 then (s.giveUp 0x14 h 1 (s.safeGives h) 0x1407 (some (s.reg .headFrame h 0))).headSafe h 2 e.primary
      else s

/-- The zone of an instance; 0xFF for none. -/
def Plan.zoneOf (p : Plan) (cap i : Nat) : Nat :=
  match cap with
  | 0x02 => ((p.rings[i]?).map RingEnt.zone).getD 0xFF
  | 0x10 => ((p.source i).map SrcEnt.zone).getD 0xFF
  | 0x11 => ((p.source i).map SrcEnt.zone).getD 0xFF
  | 0x12 => ((p.head i).map HeadEnt.zone).getD 0xFF
  | 0x13 => ((p.head i).map HeadEnt.zone).getD 0xFF
  | 0x14 => ((p.head i).map HeadEnt.zone).getD 0xFF
  | 0x15 => ((p.enc i).map EncEnt.zone).getD 0xFF
  | 0x20 => ((p.port i).map PortEnt.zone).getD 0xFF
  | 0x21 => ((p.panel i).map PanelEnt.zone).getD 0xFF
  | _ => 0xFF

/-- The plan entries of zone z are the same in two structures (spec/02 R75). -/
def Plan.sameIn (z : Nat) (a b : Plan) : Bool :=
  let at_ {α : Type} (zone : α → Nat) (l : List α) : List (Nat × α) := (l.mapIdx fun i e => (i, e)).filter fun q => zone q.2 == z
  let in_ {α : Type} (zone : α → Nat) (l : List α) : List α := l.filter fun e => zone e == z
  let st (p : Plan) : List StreamEnt := p.streams.filter fun e => ((p.source e.source).map SrcEnt.zone).getD 0xFF == z
  at_ PortEnt.zone a.ports == at_ PortEnt.zone b.ports && in_ HeadEnt.zone a.heads == in_ HeadEnt.zone b.heads &&
  at_ CadEnt.zone a.cadence == at_ CadEnt.zone b.cadence && at_ UnitEnt.zone a.units == at_ UnitEnt.zone b.units &&
  in_ SrcEnt.zone a.sources == in_ SrcEnt.zone b.sources && st a == st b && at_ EncEnt.zone a.encs == at_ EncEnt.zone b.encs &&
  in_ PartEnt.zone a.parts == in_ PartEnt.zone b.parts && at_ RingEnt.zone a.rings == at_ RingEnt.zone b.rings &&
  in_ PanelEnt.zone a.panels == in_ PanelEnt.zone b.panels && in_ ZoneEnt.zone a.zones == in_ ZoneEnt.zone b.zones

/-- A zone that differs from the late partner's starts afresh (spec/02 R75): its functions from the structure's reset values, its out-ports
harmless until their heads start (DEDUCED, log 56). -/
def State.zoneAfresh (s : State) (z : Nat) : State :=
  let mine (cap : Nat) : List Nat := (s.plan.insts cap).filter fun i => s.plan.zoneOf cap i == z
  let s := forEach coldCaps (fun cap s => forEach (mine cap) (fun i s =>
    (s.resetInst cap i).onBus fun b => b.setReg .fnCtl cap i (BReg.fnCtl.reset cap i)) s) s
  let s := forEach ((mine 0x20).filter fun p => s.plan.role p == 1) (fun p s => if s.witSafe p then s else s.setLink p { s.link p with safe := some 3 }) s
  forEach coldCaps (fun cap s => forEach (mine cap) (fun i s => s.startInst cap i) s) s

/-- The unit becomes ACTIVE (R511, R515, R523): TAKEOVER cause 0 heartbeat lost, 1 partner FAILED, 2 handover, 3 alone. After a handover the
partner, which becomes a STANDBY with IN_SYNC, is fed from here on (R511, R520) (DEDUCED, log 54). -/
def State.goActive (s : State) (cause : Nat) (cold : Bool) : State :=
  let reload : Bool := cold && s.tnd.joinLoaded
  let s := if cause = 2 then s.jrnDrain else s
  let s := if cause < 2 then s.giveUp 0x32 0 3 4 0x3202 none else s
  let s := (s.takeEpoch).setFld .tndState 0 0 11 1 (b2n cold)
  let s := s.setRole 3 cause
  let s := s.setReg .tndTakeovers 0 0 (if (s.reg .tndTakeovers 0 0).toNat = 2 ^ 32 - 1 then 0xFFFFFFFF else s.reg .tndTakeovers 0 0 + 1)
  let s := s.setReg .tndLastTakeover 0 0 s.now
  let s := s.emit 0x3202 0 1 (pay [cause, (s.reg .tndEpoch 0 0).toNat, b2n cold, s.tnd.applied.toNat])
  let s := s.trigger 1 none
  let s := s.setTnd { s.tnd with hoRx := none, records := [], latches := [], streams := [], rxLast := [], rxJump := [],
                                 feed := if cause = 2 then 2 else 0, winPos := none }
  let s := if reload then s.coldStart
    else if !cold ∧ bit (s.reg .tndState 0 0) 8 then forEach s.tnd.differ (fun z s => s.zoneAfresh z) s
    else s
  let s := forEach s.plan.outPorts (fun p s => s.portDrives p) s
  if cold then s
  else
    let s := forEach s.plan.heads (fun e s => s.headDrives e.head) s
    let s := forEach (s.plan.insts 0x15) (fun c s => if s.isOn 0x15 c then s.setEnc c { s.enc c with idr := some 0 } else s) s
    forEach s.plan.panels (fun e s => s.setPan e.panel { s.pan e.panel with lost := true }) s

/-- Out-ports take the standby form (R412): the idle marker stream, no SAFE, no frame. -/
def State.standbyForm (s : State) : State :=
  let s := forEach s.plan.heads (fun e s =>
    let s := if s.isOn 0x14 e.head then s.setOutput e.head 0 0 else s
    s.setHead e.head { s.head e.head with fresh := true }) s
  forEach s.plan.outPorts (fun p s =>
    let s := s.startIdle p
    if s.portState p = 2 then s.sendEpoch p false else s) s

/-- A joining unit starts afresh and asks for everything (R521). -/
def State.askFull (s : State) : State :=
  (s.setTnd { s.tnd with joinCut := none, joinData := [], joinLoaded := false, blocks := 0, stepped := false, records := [],
                         latches := [], streams := [], rxLast := [], rxJump := [] }).syncReq

/-- Entry to JOINING (R511, R521); IN_SYNC of an earlier role ends (DEDUCED, log 54). -/
def State.toJoining (s : State) : State := ((s.setRole 1 0).setInSync false 0).askFull

/-- A HANDOVER that this unit cannot finish ends (R550). -/
def State.handoverFails (s : State) : State :=
  match s.tnd.handover with
  | some (r, k, _) => (s.setTnd { s.tnd with handover := none }).complete r k stFailed 0
  | none => s

/-- A higher epoch steps this unit down (R516); `source` is 0xFF for a heartbeat, else the out-port that showed it (DEDUCED, log 54). -/
def State.stepDown (s : State) (epoch source : Nat) : State :=
  let s := (s.handoverFails).giveUp 0x32 0 3 4 0x3206 none
  let s := (s.toJoining).emit 0x3206 0 2 (pay [epoch, source])
  let s := s.setTnd { s.tnd with feed := 0, winPos := none, outq := [], replay := [] }
  s.standbyForm

/-- Entry to FAILED (R511): heartbeats with ROLE FAILED for 10 ms, then none. -/
def State.toFailed (s : State) : State :=
  if s.plan.tandem.isNone ∨ s.role = 4 then s
  else
    let s := s.handoverFails
    let s := s.setRole 4 0
    s.setTnd { s.tnd with failTick := some s.ticks, feed := 0, winPos := none }

/-- FAILED_HEARTBEAT_END (R511): the 10 ms are over. -/
def State.failedEnds (s : State) : State :=
  match s.tnd.failTick with
  | none => s
  | some t => if t + 10 * tickMs ≤ s.ticks then s.setTnd { s.tnd with failTick := none, silent := true } else s

/-! ### Heartbeats (R512, R513) -/

/-- HEARTBEAT_SEND: every 1 ms on every tandem port (DEDUCED, log 54). -/
def State.heartbeatSend (s : State) : State :=
  match s.plan.tandem with
  | none => s
  | some t =>
    if s.tnd.silent ∨ s.ticks < s.tnd.sendTick + tickMs then s
    else
      let seq := if s.role = 2 ∨ s.role = 1 then s.tnd.applied else s.tnd.sent
      let ho := match s.tnd.handover with | some (_, _, w) => w | none => 0
      let body := le 2 t.pairId ++ le 1 s.tandemId ++ le 1 s.role ++ le 4 (s.reg .tndEpoch 0 0).toNat ++
        le 4 (s.reg .structHash 0 0).toNat ++ le 4 (s.reg .structHash 0 1).toNat ++ le 4 seq.toNat ++
        le 1 (b2n s.inSync + 2 * b2n s.tnd.handover.isSome) ++ le 3 0 ++ le 4 ho.toNat ++ le 4 0
      let s := s.setTnd { s.tnd with sendTick := s.ticks }
      forEach s.plan.tandemPorts (fun p s => s.tndControl p 0x80 body) s

/-- HASH_MISMATCH follows the partner's STRUCTURE_HASH (spec/02 R75, R78). -/
def State.hashMatch (s : State) (same : Bool) : State :=
  let s := if same then s.setTnd { s.tnd with differ := [] } else s
  if bit (s.reg .tndState 0 0) 8 = !same then s
  else
    (s.setFld .tndState 0 0 8 1 (b2n !same)).emit 0x3409 0 (if same then 0 else 1)
      (pay [0xFF, 0, (s.reg .structHash 0 0).toNat, (s.reg .structHash 0 1).toNat])

/-- What a valid heartbeat does to the role (R511, R516, R523): the partner's role and epoch. -/
def State.heartbeatRole (s : State) (t : TandemEnt) (role epoch : Nat) : State :=
  let me := s.role
  if me = 5 ∧ role = 3 then
    let s := match s.tnd.handover with
      | some (r, k, _) => (s.setTnd { s.tnd with handover := none }).complete r k stOk 0
      | none => s
    let s := (s.setRole 2 2).setInSync true 0
    let s := s.setTnd { s.tnd with joinLoaded := true, stepped := true, latches := [], streams := [],
                                   feed := 0, winPos := none, outq := [], replay := [], appliedTime := s.now,
                                   applied := ((s.tnd.records.head?).map fun r => r.seq - 1).getD s.tnd.pSeq }
    s.standbyForm
  else if (me = 3 ∨ me = 5) ∧ (s.reg .tndEpoch 0 0).toNat < epoch then s.stepDown epoch 0xFF
  else if me = 0 ∧ role = 3 then s.toJoining
  else if me = 0 ∧ role = 0 ∧ t.preferred = s.tandemId then s.goActive 3 true
  else if me = 1 ∧ role = 4 then s.goActive 1 true
  else if me = 2 ∧ s.inSync ∧ role = 4 then s.goActive 1 false
  else s

/-- HEARTBEAT_RX (R513) (DEDUCED, log 54). -/
def State.heartbeatRx (s : State) (p : Nat) (sync : Bool) (raw : List Byte) : State :=
  match s.plan.tandem, s.receiveItem p 0x80 sync raw with
  | some t, (s, some pk) =>
    let d := pk.payload
    let role := byteAt d 3
    if d.length ≠ 32 ∨ !zeros (slice d 21 3) ∨ !zeros (slice d 28 4) ∨ 4 ≤ byteAt d 20 ∨ 5 < role ∨ 1 < byteAt d 2 then s.rxUnknown p
    else if leAt d 0 2 ≠ t.pairId then s
    else if byteAt d 2 = s.tandemId then s.emit 0x3207 0 2 (pay [p, byteAt d 2])
    else
      let epoch := leAt d 4 4
      let s := (s.setFld .tndState 0 0 3 3 role).setReg .tndPartnerEpoch 0 0 (w32 epoch)
      let same : Bool := slice d 8 8 == le 4 (s.reg .structHash 0 0).toNat ++ le 4 (s.reg .structHash 0 1).toNat
      let s := s.hashMatch same
      let ho : Option Word := if (byteAt d 20).testBit 1 ∧ s.role = 2 then some (w32 (leAt d 24 4)) else none
      let s := s.setTnd { s.tnd with hbTick := some s.ticks, pRole := role, pSync := (byteAt d 20).testBit 0, pSeq := w32 (leAt d 16 4),
                                     hoRx := ho }
      let s := if role = 4 then (s.emit 0x3204 0 2 (pay [epoch])).trigger 2 none else s
      s.heartbeatRole t role epoch
  | _, (s, _) => s

def State.takeoverMs (s : State) : Nat := s.fld .tndXTimes 0 0 0 8

/-- HEARTBEAT_TIMEOUT (R511, R523): TAKEOVER_MS without a valid heartbeat. -/
def State.heartbeatTimeout (s : State) : State :=
  match s.tnd.hbTick with
  | none => s
  | some t =>
    if s.ticks < t + s.takeoverMs * tickMs then s
    else
      let last := s.tnd.pRole
      let s := (s.setFld .tndState 0 0 3 3 7).setTnd { s.tnd with hbTick := none, pRole := 7, pSync := false, hoRx := none }
      match s.role with
      | 1 => s.goActive 0 true
      | 2 => if s.inSync then s.goActive 0 false else s
      | 3 => (s.setTnd { s.tnd with feed := 0, winPos := none, outq := [] }).emit 0x3203 0 2 (pay [last])
      | 5 => (s.setTnd { s.tnd with feed := 0, winPos := none, outq := [] }).emit 0x3203 0 2 (pay [last])
      | _ => s

/-- JOIN_TIMEOUT (R511): JOIN_MS in LISTENING with no valid heartbeat. -/
def State.joinTimeout (s : State) : State :=
  let since := max s.tnd.roleTick (s.tnd.hbTick.getD 0)
  if s.plan.tandem.isSome ∧ s.role = 0 ∧ since + s.fld .tndXTimes 0 0 16 16 * tickMs ≤ s.ticks then s.goActive 3 true else s

/-- HANDOVER_TIME_REACHED (R523): the partner's HANDOVER_TIME. -/
def State.handoverReached (s : State) : State :=
  match s.tnd.hoRx with
  | none => s
  | some t => if s.role = 2 ∧ s.inSync ∧ atOrAfter s.now t then s.goActive 2 false else s

/-- HANDOVER (R525): only on an ACTIVE whose partner is STANDBY with IN_SYNC; HANDOVER_TIME is 20 ms on. -/
def handover : Perf := fun _ r e s =>
  checked 0x32 (e.object == 0xFFFF) (e.zeroFrom 32 56) false e s fun s =>
    if s.role ≠ 3 ∨ s.tnd.pRole ≠ 2 ∨ !s.tnd.pSync then done s stState
    else
      let s := s.setTnd { s.tnd with handover := some (r, e.k, s.now + 20000000) }
      (s.setRole 5 0, none)

/-- RESYNC (R530): a STANDBY sends SYNC_REQ with FULL. -/
def resync : Perf := fun _ _ e s =>
  checked 0x32 (e.object == 0xFFFF) (e.zeroFrom 32 56) false e s fun s =>
    if s.role ≠ 2 then done s stState else done ((s.setInSync false 2).askFull) stOk

/-- RESYNC as entry k of ring r. A STANDBY performs it as it performs its partner's commands, from step 3 on its own copy of the ring (R519);
any other unit as its own (DEDUCED, log 58). -/
def State.resyncCmd (s : State) (r k : Nat) : State :=
  if s.role = 2 then
    match s.entry r k with
    | none => s
    | some e =>
      if e.opcode ≠ 0x3202 ∨ e.phase = .done ∨ e.phase = .running ∨ !s.isOn 2 r then s
      else
        let s := (s.setTnd { s.tnd with applying := true }).perform r e resync
        s.setTnd { s.tnd with applying := false }
  else s.runCmd 0x3202 resync r k

/-! ### Acknowledgement (R514) -/

/-- An ACK for one stream. -/
def State.ack (s : State) (q : Nat) (nak : Bool) : State :=
  s.tndControl s.dataPort 0x84 (le 2 q ++ le 2 ((assocGet s.tnd.rxLast q).getD 0) ++ le 1 (b2n nak) ++ le 3 0)

/-- ACK_SEND: every 100 µs, for each stream received. -/
def State.ackSend (s : State) : State :=
  if s.tnd.rxLast.isEmpty ∨ s.ticks < s.tnd.ackTick + 20000 then s
  else
    let s := s.setTnd { s.tnd with ackTick := s.ticks }
    forEach (s.tnd.rxLast.map Prod.fst) (fun q s => s.ack q (assocGet s.tnd.rxJump q).isSome) s

/-- ACK_RX: packets acknowledged leave the replay buffer; on NAK the rest of the stream is sent again (DEDUCED, log 55). -/
def State.ackRx (s : State) (p : Nat) (sync : Bool) (raw : List Byte) : State :=
  match s.receiveItem p 0x84 sync raw with
  | (s, none) => s
  | (s, some pk) =>
    let d := pk.payload
    let q := leAt d 0 2
    let a := leAt d 2 2
    if d.length ≠ 8 ∨ !zeros (slice d 5 3) ∨ 2 ≤ byteAt d 4 then s.rxUnknown p
    else
      let keep := s.tnd.replay.filter fun r => r.stream != q || (a != 0 && decide (32767 < aliveAhead r.alive a)) || a == 0
      let s := s.setTnd { s.tnd with replay := keep }
      let s := if byteAt d 4 = 1 then
          forEach (keep.filter fun r => r.stream == q) (fun r s => s.sendItem s.dataPort r.typ 2 r.stream r.alive s.now r.payload) s
        else s
      s.feedBlocks 1100

/-- A packet of a replayed stream: in order it is taken; a jump is answered at once with NAK and the packet left to be sent again; a
resend that starts later than the first item missed tells that the replay buffer has overflowed (R514) (DEDUCED, log 55). -/
def State.tndTake (s : State) (p q a : Nat) : State × Bool :=
  let x := s.tnd
  let accept (s : State) : State × Bool :=
    (s.setTnd { s.tnd with rxLast := assocSet s.tnd.rxLast q a, rxJump := assocDel s.tnd.rxJump q }, true)
  match assocGet x.rxLast q with
  | none => if a = 0 then (s.linkCull p q a, false) else accept s
  | some last =>
    let n := aliveAhead last a
    if a = 0 then (s.linkCull p q a, false)
    else if n = 1 then accept s
    else if n = 0 ∨ 32767 < n then (s, false)
    else
      match assocGet x.rxJump q with
      | none => ((s.setTnd { x with rxJump := assocSet x.rxJump q a }).ack q true, false)
      | some j =>
        if aliveAhead j a = 1 then (s.setTnd { x with rxJump := assocSet x.rxJump q a }, false)
        else if 0 < aliveAhead j a ∧ aliveAhead j a ≤ 32767 then
          ((s.setTnd { x with rxJump := assocSet x.rxJump q a }).ack q true, false)
        else
          let s := (s.bump .linkLost p 0 (n - 1)).emit 0x2012 p 0 (pay [q, n - 1])
          ((s.setInSync false 1).askFull, false)

/-- A good packet of a tandem data type that is taken; a HANDING_OVER keeps what its partner sends once ACTIVE until it follows itself (R511). -/
def State.tndItem (s : State) (p typ : Nat) (sync : Bool) (raw : List Byte) : State × Option Pkt :=
  match s.receive p sync raw with
  | (s, .good pk) =>
    if pk.typ ≠ typ ∨ !(s.follows || s.role == 5) then (s, none)
    else
      match s.tndTake p pk.stream pk.alive with
      | (s, true) => (s, some pk)
      | (s, false) => (s, none)
  | (s, _) => (s, none)

/-- SYNC_REQ_RX (R521): the partner asks for a checkpoint, the journal and the windows (DEDUCED, log 55). -/
def State.syncReqRx (s : State) (p : Nat) (sync : Bool) (raw : List Byte) : State :=
  match s.receiveItem p 0x85 sync raw with
  | (s, none) => s
  | (s, some pk) =>
    let d := pk.payload
    if d.length ≠ 8 ∨ !zeros (slice d 5 3) ∨ 2 ≤ byteAt d 4 then s.rxUnknown p
    else if byteAt d 4 = 1 ∧ (s.role = 3 ∨ s.role = 5) then
      s.setTnd { s.tnd with feed := 1, outq := [], replay := [], winPos := none }
    else s

/-- MIRROR_RX (R520): the data is written as master MIRROR; window blocks of a joining unit count as they come (R521). -/
def State.mirrorRx (s : State) (p : Nat) (sync : Bool) (raw : List Byte) : State :=
  match s.tndItem p 0x82 sync raw with
  | (s, none) => s
  | (s, some pk) =>
    let d := pk.payload
    let a := leAt d 0 8
    let n := leAt d 8 4
    if d.length ≠ 16 + n ∨ n = 0 ∨ !zeros (slice d 12 4) then s.rxUnknown p
    else
      let s := (s.store 151 a (d.drop 16)).1
      let next := (blockAt (s.tnd.blocks / 2) s.windows).map fun b => if s.tnd.blocks % 2 = 0 then (b, 4080) else (b + 4080, 16)
      if s.tnd.joinLoaded ∧ !s.inSync ∧ next = some (a, n) then s.setTnd { s.tnd with blocks := s.tnd.blocks + 1 } else s

/-! ### A checkpoint is taken over (R504, R521) -/

/-- Registers without write access that belong to the committed state of R504: stamps, tags and states of buffers, DPB marks and sync
states, active layer and cursor state, frame counters, group rates and anchors, fence values, ring pointers, regions. -/
def ckptRo : List AnyReg :=
  [.fn .srcState, .fn .srcNewestTime, .fn .srcPool, .fn .srcBufState, .fn .srcBufTag, .fn .srcBufTime, .fn .srcBufAlive,
   .fn .srcBufCheck, .fn .decStatus, .fn .decMarks, .fn .decFlags, .fn .decLastPicture, .fn .cursorSize, .fn .layerSrc,
   .fn .layerAlpha, .fn .layerCropPos, .fn .layerCropSize, .fn .layerDstPos, .fn .layerDstSize, .fn .layerTag, .fn .layerState,
   .fn .freshLayerLimit, .fn .freshLayerPolicy, .fn .headModeH0, .fn .headModeH1, .fn .headModeV0, .fn .headModeV1,
   .fn .headModeFlags, .fn .headPhaseNs, .fn .headLinePs, .fn .headFrame, .fn .grpRate, .fn .grpPhase, .fn .grpAnchor,
   .fn .grpNext, .fn .encStatus, .bus .fenceValueLo, .bus .fenceValueHi, .bus .ringProd, .bus .ringCons, .bus .ringStatus, .bus .accEnabled]

/-- Functions whose registers a checkpoint replaces; those of the unit itself stay its own, but for the mirror windows (DEDUCED, log 56). -/
def ckptCaps : List Nat :=
  [0x01, 0x02, 0x03, 0x04, 0x06, 0x07, 0x10, 0x11, 0x12, 0x13, 0x14, 0x15, 0x20, 0x21, 0x30]

/-- DEDUCED, log 56. -/
def RegRow.inCkpt (r : RegRow) : Bool := r.acc == .rw || r.acc == .ringPtr || ckptRo.contains r.reg

/-- The registers replaced, with their functions. -/
def ckptRows : List (Nat × AnyReg) :=
  (ckptCaps.flatMap fun cap => ((rowsOf cap).filter RegRow.inCkpt).map fun r => (cap, r.reg)) ++
  [(0x32, .fn .tndMirBaseLo), (0x32, .fn .tndMirBaseHi), (0x32, .fn .tndMirSize), (0x32, .fn .tndMirCtl)]

/-- Take the entries that `sel` selects from another table, keeping the keys in order. -/
def tabMerge {α : Type} (sel : Nat → Bool) (own other : Tab α) : Tab α :=
  (other.filter fun e => sel e.1).foldl (fun t e => tabIns e.1 e.2 t) (own.filter fun e => !sel e.1)

/-- The function of a register that a checkpoint replaces, by its place among the names. -/
def ckptBusCap (n : Nat) : Option Nat :=
  (ckptRows.find? fun r => match r.2 with | .bus x => x.ctorIdx == n | .fn _ => false).map Prod.fst
def ckptFnCap (n : Nat) : Option Nat :=
  (ckptRows.find? fun r => match r.2 with | .fn x => x.ctorIdx == n | .bus _ => false).map Prod.fst

/-- Whether a checkpoint replaces the register of a key; `mine` are the instances left alone. The ports' FN_CTL stays, since their lanes do. -/
def ckptBusSel (mine : Nat → Nat → Bool) (k : Nat) : Bool :=
  let u := Nat.unpair k
  let r := Nat.unpair u.1
  if r.1 = BReg.fnCtl.ctorIdx then ckptCaps.contains r.2 && r.2 != 0x20 && !mine r.2 u.2
  else match ckptBusCap r.1 with
    | some cap => !mine cap r.2
    | none => false

def ckptFnSel (mine : Nat → Nat → Bool) (k : Nat) : Bool :=
  let r := Nat.unpair (Nat.unpair k).1
  match ckptFnCap r.1 with
  | some cap => !mine cap r.2
  | none => false

/-- The committed state of a checkpoint replaces this unit's (R504): no picture, frame or job is in progress, and each unit selects its
own references (R522). Zones recorded as absent, and those in which the partner's structure differs (spec/02 R75), stay as they are (DEDUCED, log 56). -/
def State.loadCkpt (s : State) (c : Ckpt) : State :=
  let differ := (s.plan.zones.map ZoneEnt.zone).filter fun z => !Plan.sameIn z s.plan c.plan
  let out : List Nat := c.absent ++ differ
  let s := s.setTnd { s.tnd with differ := differ }
  let mine (cap i : Nat) : Bool := out.contains (s.plan.zoneOf cap i)
  let merge {α : Type} (cap : Nat) (own other : Tab α) (f : α → α) : Tab α :=
    tabMerge (fun i => !mine cap i) own (other.map fun e => (e.1, f e.2))
  let s := s.onBus fun b => { b with regs := tabMerge (ckptBusSel mine) b.regs c.regs, rings := merge 0x02 b.rings c.rings id, acc := c.acc }
  let tim : TimSt := { s.tim with groups := c.tim.groups, pulses := c.tim.pulses, caps := c.tim.caps }
  let heads := merge 0x14 s.heads c.heads fun x =>
    { x with frame := none, wit := [], witLast := [], nextDoubt := [], hold := none, fresh := true, lane := 0, doubtWin := none }
  let s := { s with
    fregs := tabMerge (ckptFnSel mine) s.fregs c.fregs, tim := tim, heads := heads, cores := [], wbs := [],
    srcs := merge 0x10 s.srcs c.srcs (fun x => { x with fill := none, win := none, waiting := [] }),
    decs := merge 0x11 s.decs c.decs id,
    encs := merge 0x15 s.encs c.encs (fun x => { x with job := none }) }
  let s := forEach c.freqs (fun e s =>
    if mine 0x21 e.1 then s else s.setPan e.1 { s.pan e.1 with freqs := e.2 }) s
  forEach s.plan.heads (fun e s => if mine 0x14 e.head then s else s.setFld .headStatus e.head 0 0 3 0) s

/-- The checkpoint data received so far, in order from its start. -/
def joinBytes (l : List (Nat × List Byte)) : List Byte := l.foldl (fun d e => if e.1 = d.length then d ++ e.2 else d) []

/-- CHECKPOINT_RX (R521): data of the checkpoint arrives; the CKPT_BEGIN record that follows gives its length. -/
def State.checkpointRx (s : State) (p : Nat) (sync : Bool) (raw : List Byte) : State :=
  match s.tndItem p 0x83 sync raw with
  | (s, none) => s
  | (s, some pk) =>
    let d := pk.payload
    let cut := w32 (leAt d 0 4)
    if d.length < 16 ∨ !zeros (slice d 8 8) then s.rxUnknown p
    else
      let x := s.tnd
      let fresh : Bool := x.joinCut != some cut || leAt d 4 4 == 0
      let data := if fresh then [] else x.joinData
      let s := s.setTnd { x with joinCut := some cut, joinData := data ++ [(leAt d 4 4, d.drop 16)],
                                 joinLoaded := x.joinLoaded && !fresh, applied := if fresh then cut else x.applied }
      s

/-- The joining unit loads the checkpoint once its CKPT_BEGIN record tells that all of it has come (R521) (DESIGN CHOICE, log 42). -/
def State.joinLoad (s : State) (r : JRec) : State :=
  let x := s.tnd
  let data := joinBytes x.joinData
  if r.kind ≠ 0x11 ∨ x.joinLoaded ∨ x.joinCut ≠ some (w32 (leAt r.body 0 4)) ∨ data.length ≠ leAt r.body 4 4 then s
  else
    match ckptDecode data with
    | none => s
    | some c =>
      let s := s.loadCkpt c
      s.setTnd { s.tnd with joinLoaded := true, joinData := [], blocks := 0, appliedTime := s.now,
                            applied := w32 (leAt r.body 0 4) }

/-- JOIN_COMPLETE (R511, R521): every window is copied and the last record applied is within 2 ms of the ACTIVE's last (DEDUCED, log 55). -/
def State.joinComplete (s : State) : State :=
  let copied : Bool := (blockAt (s.tnd.blocks / 2) s.windows).isNone
  let near : Bool := s.tnd.applied == s.tnd.pSeq || decide (sdiff s.now s.tnd.appliedTime ≤ 2000000)
  if (s.role = 1 ∨ s.role = 2 ∧ !s.inSync) ∧ s.tnd.joinLoaded ∧ copied ∧ near ∧ s.tnd.records.isEmpty then
    let s := if s.role = 1 then s.setRole 2 0 else s
    s.setInSync true 0
  else s

/-! ### STATUS (spec/13 R416; R515 to R517, R580) -/

/-- The epoch that an endpoint holds bears on this unit's (R516, R517, R580) (DEDUCED, log 54). -/
def State.epochReport (s : State) (p held : Nat) (refused : Bool) : State :=
  let own := (s.reg .tndEpoch 0 0).toNat
  if s.plan.tandem.isNone then
    if own = 0 ∨ own < held ∨ refused then
      let s := s.takeEpoch
      let e := (s.reg .tndEpoch 0 0).toNat
      s.journal 0x10 0x32 0xFFFF (le 1 3 ++ le 1 3 ++ le 1 3 ++ le 1 0 ++ le 4 e ++ le 4 0)
    else s
  else if (s.role = 3 ∨ s.role = 5) ∧ (own < held ∨ refused) then s.stepDown held p
  else s

/-- STATUS_RX (R416, R434, R435). -/
def State.statusRx (s : State) (p : Nat) (sync : Bool) (raw : List Byte) : State :=
  match s.receiveItem p 0x0D sync raw with
  | (s, none) => s
  | (s, some pk) =>
    let d := pk.payload
    let st := byteAt d 1
    let flags := byteAt d 2
    if d.length ≠ 16 ∨ byteAt d 3 ≠ 0 ∨ 32 ≤ flags ∨ 2 < st then s.rxUnknown p
    else
      let x := s.link p
      let old := s.fld .linkState p 0 4 2
      let changed : Bool := x.status4 != d.take 4
      let held := leAt d 4 4
      let refused := flags.testBit 2
      let rise : Bool := refused && !bit (s.reg .linkState p 0) 6
      let s := s.setLink p { x with statusTick := some s.ticks, statusSeen := true, silent := false, status4 := d.take 4 }
      let s := ((s.setFld .linkState p 0 4 2 st).setFld .linkState p 0 6 1 (b2n refused)).setFld .linkState p 0 7 1 (b2n (flags.testBit 4))
      let s := s.setReg .linkPartner p 0 (w32 (byteAt d 0 + flags * 2 ^ 8 + leAt d 8 2 * 2 ^ 16))
      let s := (s.setReg .linkPartnerEpoch p 0 (w32 held)).setReg .linkPartnerFrame p 0 (w32 (leAt d 12 4))
      let s := if changed then s.emit 0x2014 p (if st = 0 then 0 else 1) (pay [old, st, flags]) else s
      let s := if rise then s.emit 0x2016 p 2 (pay [held, (s.reg .linkEpoch p 0).toNat]) else s
      let s := match s.plan.headOfPort p with
        | some e => if flags.testBit 0 ∧ e.primary = p then s.ambient e.head (leAt d 8 2) else s
        | none => s
      if s.plan.role p = 1 then s.epochReport p held rise else s

/-- EPOCH_STATUS_WAIT_TIMEOUT (R517, R580): no STATUS since LINK_UP, so the epoch held counts as 0. -/
def State.epochWaitOver (s : State) (p : Nat) : State :=
  let x := s.link p
  if s.plan.role p = 1 ∧ s.portState p = 2 ∧ !x.statusSeen ∧ x.upTick + s.fld .linkXStatusMs p 0 0 10 * tickMs ≤ s.ticks then
    let s := (s.setLink p { x with statusSeen := true }).setReg .linkPartnerEpoch p 0 0
    s.epochReport p 0 false
  else s

/-! ### The commands -/

def execCheckpointEnd (s : State) : Answer := s.fabric fun s => s.ckptEndFeed
def execJournalRingWrite (s : State) : Answer := s.fabric fun s => s.ringWrite
def execHandover (r k : Nat) (s : State) : Answer := s.fabric fun s => s.runCmd 0x3201 handover r k
def execResync (r k : Nat) (s : State) : Answer := s.fabric fun s => s.resyncCmd r k
def execHeartbeatSend (s : State) : Answer := s.warden fun s => s.heartbeatSend
def execHeartbeatRx (p : Nat) (skew : List Nat) (lines : List (List Bool)) (s : State) : Answer :=
  s.fabric fun s => s.arrives p skew lines fun s sync raw => s.heartbeatRx p sync raw
def execHeartbeatTimeout (s : State) : Answer := s.fabric fun s => s.heartbeatTimeout
def execJoinTimeout (s : State) : Answer := s.fabric fun s => s.joinTimeout
def execHandoverTimeReached (s : State) : Answer := s.fabric fun s => s.handoverReached
def execAckSend (s : State) : Answer := s.fabric fun s => s.ackSend
def execAckRx (p : Nat) (skew : List Nat) (lines : List (List Bool)) (s : State) : Answer :=
  s.fabric fun s => s.arrives p skew lines fun s sync raw => s.ackRx p sync raw
def execSyncReqRx (p : Nat) (skew : List Nat) (lines : List (List Bool)) (s : State) : Answer :=
  s.fabric fun s => s.arrives p skew lines fun s sync raw => s.syncReqRx p sync raw
def execCheckpointRx (p : Nat) (skew : List Nat) (lines : List (List Bool)) (s : State) : Answer :=
  s.fabric fun s => s.arrives p skew lines fun s sync raw => s.checkpointRx p sync raw
def execJoinComplete (s : State) : Answer := s.fabric fun s => s.joinComplete
def execStatusRx (p : Nat) (skew : List Nat) (lines : List (List Bool)) (s : State) : Answer :=
  s.fabric fun s => s.arrives p skew lines fun s sync raw => s.statusRx p sync raw
def execEpochStatusWaitTimeout (p : Nat) (s : State) : Answer := s.fabric fun s => s.epochWaitOver p

end Sys2Proof.Machine
end

