-- ==== Sys2Proof/Machine/Ports.lean ====
section
/-! DEFINITION. What follows a change of a port's lanes: the head, source and epoch on it (spec/10 R318, R320, spec/06 R185, spec/13
R412); and the commands of the lane layer. -/

namespace Sys2Proof.Machine

/-- The functions on port p follow its state; on a unit that does not drive, an out-port that comes up takes the standby form. -/
def State.portFollow (s : State) (p old : Nat) : State :=
  let s := s.headFollows p
  let s := match s.portSource p with
    | some e => s.evalSource e.source
    | none => s
  if s.portState p = 2 ∧ old ≠ 2 ∧ old ≠ 3 ∧ s.plan.role p = 1 ∧ !s.drives then
    (s.startIdle p).sendEpoch p false
  else s

/-- A command of the lane layer, then what follows on every port that it changed. -/
def State.withPorts (f : State → State) (s : State) : State :=
  let t := f s
  forEach ((List.range 64).filter fun p => s.portState p != t.portState p || s.reg .portLaneMap p 0 != t.reg .portLaneMap p 0)
    (fun p u => u.portFollow p (s.portState p)) t

def execTrainingStart (p : Nat) (s : State) : Answer := s.fabric (State.withPorts fun s => s.trainingStart p)
def execTrainBlockRx (p lane : Nat) (bits : List Bool) (locked ask : Nat) (sweep : List (Nat × Nat × Nat)) (s : State) :
    Answer := s.fabric (State.withPorts fun s => s.trainBlockRx p lane bits ⟨locked, ask, sweep⟩)
def execPhaseTimeout (p : Nat) (s : State) : Answer := s.fabric (State.withPorts fun s => s.phaseTimeout p)
def execTrainingLimit (p : Nat) (s : State) : Answer := s.fabric (State.withPorts fun s => s.trainingLimit p)
def execTrainingRetry (p : Nat) (s : State) : Answer := s.fabric (State.withPorts fun s => s.trainingRetry p)
def execLaneLoss (p lane : Nat) (test : LossTest) (s : State) : Answer := s.fabric (State.withPorts fun s => s.laneLoss p lane test)
def execLaneFaultMarkerRx (p : Nat) (bits : List Bool) (s : State) : Answer := s.fabric (State.withPorts fun s => s.laneFaultRx p bits)
def execRepairDone (p : Nat) (s : State) : Answer := s.fabric (State.withPorts fun s => s.repairDone p)
def execRepairTimeout (p : Nat) (s : State) : Answer := s.fabric (State.withPorts fun s => s.repairTimeout p)
def execTxIslandLoss (p : Nat) (s : State) : Answer := s.fabric (State.withPorts fun s => s.txIslandLoss p)
def execRetrain (r k : Nat) (s : State) : Answer := s.fabric (State.withPorts fun s => s.runCmd 0x2001 retrain r k)
def execPower (r k : Nat) (s : State) : Answer := s.fabric (State.withPorts fun s => s.runCmd 0x2002 power r k)
def execPowerState (p : Nat) (s : State) : Answer := s.fabric (State.withPorts fun s => s.powerState p)
def execTest (r k : Nat) (s : State) : Answer := s.fabric (State.withPorts fun s => s.runCmd 0x2003 laneTest r k)
def execTestDone (p : Nat) (rx : List (List Bool)) (heard : Nat) (s : State) : Answer := s.fabric (State.withPorts fun s => s.testDone p rx heard)
def execInject (r k : Nat) (s : State) : Answer := s.fabric (State.withPorts fun s => s.runCmd 0x2004 inject r k)
end Sys2Proof.Machine
end

