-- ==== Sys2Proof/Machine/Lifecycle.lean ====
section
/-! DEFINITION. Function instances (spec/03 R88 to R93): enabling, starting, stopping, levels; what each function does when it
leaves ON and what its shut-down scrubs. -/

namespace Sys2Proof.Machine

/-- A port takes the harmless state of its kind (spec/17 R555). -/
def State.portHarmless (s : State) (p : Nat) : State :=
  match s.plan.role p with
  | 1 => if (s.link p).safe.isSome then s else s.safe p 3
  | 2 => s.creditStop p
  | _ => s

/-- Commands of a function and of those that follow it end (R93). -/
def State.abortAll (s : State) (cap i : Nat) : State :=
  if cap = 0x14 then ((s.abortRunning 0x14 i).abortRunning 0x12 i).abortRunning 0x13 i else s.abortRunning cap i

/-- What a function does as it leaves ON: its interfaces become harmless (R91) (DEDUCED, log 59). -/
def State.offAction (s : State) (cap i : Nat) : State :=
  match cap with
  | 0x10 => s.sourceOff i
  | 0x11 => s.streamOff i
  | 0x14 => s.headOff i
  | 0x15 => s.encOff i
  | 0x20 => State.withPorts (fun s => (s.portHarmless i).portOff i) s
  | 0x21 => s.panOff i
  | _ => s

/-- One instance leaves ON or STARTING for STOPPING (R91). A start abandoned keeps the CAUSE of the last time it left ON (DEDUCED, log 59). -/
def State.leaveOne (s : State) (cap i cause : Nat) : State :=
  let was := s.isOn cap i
  let cause := if was then cause else s.bus.fld .fnCtl cap i 8 4
  match cap with
  | 0x02 => s.onBus fun b => b.ringStop ((s.plan.ringHost i).getD 0) i cause
  | 0x14 =>
    let s := s.onBus fun b => b.toStopping 0x14 i cause
    let s := if was then s.onBus fun b => (b.toStopping 0x12 i cause).toStopping 0x13 i cause else s
    if was then (s.abortAll 0x14 i).headOff i else s
  | _ =>
    let s := s.onBus fun b => b.toStopping cap i cause
    let s := s.abortAll cap i
    if was ∨ cap = 0x21 then s.offAction cap i else s

/-- An instance leaves ON or STARTING; the stream of a source that leaves ON goes with it, with CAUSE 2 (spec/07 R219).
An encoder that it fed codes repeat pictures from then on (spec/11 R355). -/
def State.leave (s : State) (cap i cause : Nat) : State :=
  let was := s.isOn cap i
  let z := s
  let s := s.leaveOne cap i cause
  let s := if cap = 0x10 ∧ was ∧ s.srcKind i = 3 ∧ s.isOn 0x11 i then s.leaveOne 0x11 i 2 else s
  s.encCuts z

/-- An instance in ON or STARTING goes to STOPPING. -/
def State.stop (s : State) (cap i cause : Nat) : State :=
  if s.fnState cap i = 2 ∨ s.fnState cap i = 1 then s.leave cap i cause else s

/-- Bit of a register that says a write of ENABLE 0 was ignored (spec/04 R118, spec/05 R164). -/
def State.enableRefused (s : State) (cap i : Nat) : State :=
  match cap with
  | 0x04 => s.onBus fun b => b.accFlag i 2
  | 0x05 => s.onBus fun b => b.setFld .memStatus 0 0 1 1 1
  | _ => s

/-- ENABLE written 1 (R91). -/
def State.enable (s : State) (cap i : Nat) : State :=
  if alwaysOn cap ∨ followsHead cap then s
  else
    match s.fnState cap i with
    | 0 => (s.onBus fun b => b.setFld .fnCtl cap i 0 1 1).toStarting cap i
    | 3 => (s.onBus fun b => (b.setFld .fnCtl cap i 5 1 1).setFld .fnCtl cap i 0 1 1).emit 0x0103 i 0 (payCap cap [])
    | _ => s

/-- ENABLE written 0 (R91); ignored where the owning chapter keeps the function ON. -/
def State.disable (s : State) (cap i : Nat) : State :=
  if alwaysOn cap then s.enableRefused cap i
  else if followsHead cap ∨ (cap = 0x31 ∧ s.isOn 0x31 0) then s
  else
    match s.fnState cap i with
    | 1 => s.leave cap i 0
    | 2 => s.leave cap i 0
    | 3 => s.onBus fun b => (b.setFld .fnCtl cap i 5 1 0).setFld .fnCtl cap i 0 1 0
    | _ => if bit (s.bus.reg .fnCtl cap i) 0 then s.onBus fun b => b.setFld .fnCtl cap i 0 1 0 else s

/-- The expert registers of an instance return to the basic values (R89), those of DEVICE_CORE at all four ports; counters stay. -/
def State.basicValues (s : State) (cap i : Nat) : State :=
  let is := if cap = 1 then List.range 4 else [i]
  let s := forEach is (fun i s => forEach ((rowsOf cap).filter fun r => r.expert && r.acc == .rw) (fun r s =>
    forEach (List.range r.count) (fun j s => match r.reg with
      | .bus x => s.onBus fun b => b.setReg x i j (x.reset i j)
      | .fn x => s.setReg x i j (x.reset i j)) s) s) s
  let xs := ((rowsOf cap).filter fun r => r.expert).map RegRow.reg
  forEach ((s.plan.vals (s.wdn.straps % 2) cap i).filter fun v => xs.contains v.1) (fun v s => s.putVal i v) s

/-- LEVEL is written (R88, R89). -/
def State.setLevel (s : State) (cap i : Nat) (v : Bool) : State :=
  let old := s.expert cap i
  let s := s.onBus fun b => b.setFld .fnCtl cap i 1 1 (b2n v)
  if old && !v then s.basicValues cap i else s

/-- A host writes FN_CTL (R90): LEVEL, then ENABLE. -/
def State.fnCtlWrite (s : State) (port cap i : Nat) (v : Word) : State :=
  s.hostWrite port cap i 2 (4 * i) v fun s =>
    if cap = 0x02 ∧ s.plan.ringHost i ≠ some port then s.notOwner port
    else
      let s := s.setLevel cap i (bit v 1)
      if bit v 0 then s.enable cap i else s.disable cap i

/-- The ENABLE that a read-modify-write of LEVEL leaves as it is. -/
def State.enableNow (s : State) (cap i : Nat) : Bool :=
  bit (s.bus.reg .fnCtl cap i) 0 || bit (s.bus.reg .fnCtl cap i) 5

/-- FN_ENABLE, FN_DISABLE and FN_LEVEL_SET: a write of FN_CTL that changes one field. -/
def State.fnEnable (s : State) (port cap i : Nat) (v : Bool) : State :=
  s.fnCtlWrite port cap i (w32 (b2n v + 2 * b2n (s.expert cap i)))

def State.fnLevelSet (s : State) (port cap i : Nat) (v : Bool) : State :=
  s.fnCtlWrite port cap i (w32 (b2n (s.enableNow cap i) + 2 * b2n v))

/-- A start ends: ON, or OFF with a reason (R91). -/
def State.startEnds (s : State) (cap i : Nat) (r : Option Nat) : State :=
  match r with
  | some r => s.onBus fun b => b.startFailed cap i r
  | none => s.onBus fun b => b.enter cap i 2

/-- Streams, heads with COMPOSE and FRESH, and ports start by commands of their own, panels by their first cycle. -/
def ownStart (cap : Nat) : Bool := cap == 0x11 || cap == 0x12 || cap == 0x13 || cap == 0x14 || cap == 0x20 || cap == 0x21

/-- A source on an in-port waits until the port is ACTIVE (spec/12 R384). -/
def State.linkWaits (s : State) (n : Nat) : Bool :=
  match s.plan.source n with
  | some e => (e.kind == 0 || e.kind == 1) && s.portState e.attach != 2
  | none => false

/-- TANDEM waits until one of its ports is ACTIVE (spec/12 R384) (DESIGN CHOICE, log 77). -/
def State.tandemWaits (s : State) : Bool := !s.plan.tandemPorts.any fun p => s.portState p == 2

/-- FUNCTION_STARTED (R91): the checks of the owning chapter. A ring that goes ON takes queued events, or fetches what PROD already
covers (R97, R114). -/
def State.functionStarted (s : State) (cap i : Nat) : State :=
  if s.fnState cap i ≠ 1 ∨ ownStart cap then s
  else if cap = 0x02 then
    let s := s.startEnds cap i (s.bus.ringCheck s.plan i)
    let s := s.onBus fun b => b.flushAll s.plan
    if s.isOn 2 i ∧ hostProduced (s.bus.ringKind i) then s.fetchUpTo (s.bus.ringSize i) ((s.plan.ringHost i).getD 0) i else s
  else if cap = 0x10 then
    if s.linkWaits i then s
    else
      match s.sourceCheck i with
      | some r => s.startEnds cap i (some r)
      | none => (s.startEnds cap i none).sourceOn i
  else if cap = 0x15 then
    match s.encCheck i with
    | some r => s.startEnds cap i (some r)
    | none => (s.startEnds cap i none).encOn i
  else if cap = 0x31 then
    if s.jrnSize = 0 then s
    else
      match s.jrnCheck with
      | some r => s.startEnds cap i (some r)
      | none => (s.startEnds cap i none).setJrn { s.jrn with nextTick := s.ticks, secTick := s.ticks }
  else if cap = 0x32 ∧ s.tandemWaits then s
  else s.startEnds cap i none

/-- What the scrub of a function leaves (R92). -/
def State.scrub (s : State) (cap i : Nat) : State :=
  match cap with
  | 0x02 => s.onBus fun b =>
      let x := b.ringSt i
      ((b.setReg .ringProd i 0 0).setReg .ringCons i 0 0).setRing i { RingSt.init with seq := x.seq, lostBefore := x.lostBefore }
  | 0x03 => s.onBus fun b => { b with regs := dropInst [BReg.fenceValueLo.ctorIdx, BReg.fenceValueHi.ctorIdx] 0 b.regs }
  | 0x20 => if s.portState i = 0 then s else State.withPorts (fun s => s.portOff i) s
  | _ => s

/-- The shut-down may complete: a ring finishes the entry in step 3 first (R99). -/
def State.shutDown (s : State) (cap i : Nat) : Bool :=
  cap != 0x02 || (s.bus.ringSt i).fetched.all fun e => e.phase != .running

/-- SHUTDOWN_COMPLETE (R91, R92). COMPOSE and FRESH complete with their head. -/
def State.shutdownComplete (s : State) (cap i : Nat) : State :=
  if s.fnState cap i ≠ 3 ∨ followsHead cap ∨ !s.shutDown cap i then s
  else
    let s := s.scrub cap i
    let s := if cap = 0x14 then s.onBus fun b =>
        let b := if b.fnState 0x12 i = 3 then b.enter 0x12 i 0 else b
        if b.fnState 0x13 i = 3 then b.enter 0x13 i 0 else b
      else s
    if s.bus.fld .fnCtl cap i 5 1 = 1 then
      (s.onBus fun b => (b.setFld .fnCtl cap i 5 1 0).setFld .fnCtl cap i 0 1 1).toStarting cap i
    else s.onBus fun b => b.enter cap i 0

/-- STOP_SLOW (R92). -/
def State.stopSlow (s : State) (cap i : Nat) : State :=
  let x := tabGet FnSt.init s.bus.fns (Nat.pair cap i)
  if s.fnState cap i = 3 ∧ !x.slow ∧ x.stopTick + 100 * tickMs ≤ s.ticks then
    (s.onBus fun b => { b with fns := tabSet FnSt.init b.fns (Nat.pair cap i) { x with slow := true } }).emit 0x0105 i 1 (payCap cap [])
  else s

def execFnEnable (port cap i : Nat) (s : State) : Answer := s.window fun s => s.fnEnable port cap i true
def execFnDisable (port cap i : Nat) (s : State) : Answer := s.window fun s => s.fnEnable port cap i false
def execFnLevelSet (port cap i : Nat) (expert : Bool) (s : State) : Answer := s.window fun s => s.fnLevelSet port cap i expert
def execFunctionStarted (cap i : Nat) (s : State) : Answer := s.fabric fun s => s.functionStarted cap i
def execStopSlow (cap i : Nat) (s : State) : Answer := s.fabric fun s => s.stopSlow cap i

end Sys2Proof.Machine
end

