-- ==== Sys2Proof/Machine/TimeStep.lean ====
section
/-! DEFINITION. STEP (spec/15 R474, R475; spec/09 R269; spec/13 R415): TIME_NS is stepped, and every stored instant with it. -/

namespace Sys2Proof.Machine

/-- Add a signed step to an instant. -/
def addNs (t : Word) (d : Int) : Word := t + BitVec.ofInt 32 d

/-- DEDUCED, log 23. -/
def State.shiftReg (s : State) (d : Int) (r : FReg) (i j : Nat) : State := s.setReg r i j (addNs (s.reg r i j) d)

/-- Cadence anchors and next frame instants, with what is pending on them. -/
def State.shiftGroups (s : State) (d : Int) : State :=
  forEach (List.range 8) (fun g s =>
    if (s.plan.cad g).isNone then s
    else
      let x := s.group g
      ((s.shiftReg d .grpAnchor 0 g).shiftReg d .grpNext 0 g).setGroup g
        { x with rate := x.rate.map fun q => (q.1, addNs q.2 d), align := x.align.map fun q => (addNs q.1 d, addNs q.2 d),
                 rateDue := x.rateDue.map fun q => (q.1, addNs q.2 d), alignDue := x.alignDue.map fun q => (addNs q.1 d, addNs q.2 d) }) s

/-- Pulse starts and scheduled edges; the start of a FRAME output is an offset from the frame instant and stays (R493) (DEDUCED, log 23). -/
def State.shiftPulses (s : State) (d : Int) : State :=
  forEach (List.range 4) (fun p s =>
    let x := s.pulse p
    let s := if s.fld .pulseCtl 0 p 0 2 = 2 then s else s.shiftReg d .pulseStart 0 p
    s.setPulse p { x with next := x.next.map (addNs · d), fall := x.fall.map (addNs · d), last := x.last.map (addNs · d),
                          align := x.align.map (addNs · d) }) s

/-- Capture results not yet read, with STEPPED. -/
def State.shiftCaps (s : State) (d : Int) : State :=
  forEach (List.range 16) (fun c s =>
    if (tabGet CapSt.init s.tim.caps c).unread then (s.shiftReg d .capTime 0 c).setFld .capSub 0 c 5 1 1 else s) s

/-- Capture times of sources and of pictures on their way into them. -/
def State.shiftSources (s : State) (d : Int) : State :=
  let s := forEach s.plan.sources (fun e s =>
    let n := e.source
    let s := if (s.newest n).isSome then s.shiftReg d .srcNewestTime n 0 else s
    let s := forEach ((List.range 16).filter fun b => s.bufState n b == 1 || s.bufState n b == 2 || s.bufState n b == 3)
      (fun b s => s.shiftReg d .srcBufTime n b) s
    let x := s.src n
    let s := s.setSrc n { x with
      fill := x.fill.map fun f => { f with cap := addNs f.cap d }, last := x.last.map fun q => (q.1, addNs q.2.1 d, q.2.2),
      readyAt := x.readyAt.map fun q => (q.1, addNs q.2 d), choice := x.choice.map fun q => (addNs q.1 d, q.2),
      refused := x.refused.map (addNs · d) }
    match s.wb n with
    | some w => { s with wbs := tabSet none s.wbs n (some { w with time := addNs w.time d }) }
    | none => s) s
  let s := forEach s.plan.streams (fun e s =>
    let x := s.dec e.source
    s.setDec e.source { x with dpb := x.dpb.map fun q => { q with cap := addNs q.cap d } }) s
  forEach (List.range 24) (fun c s => match s.core c with
    | some x => s.setCore c (some { x with cap := addNs x.cap d })
    | none => s) s

/-- Latch instants, DONE_TIMEs, the frame in progress, expiries and valid-untils of heads. -/
def State.shiftHeads (s : State) (d : Int) : State :=
  forEach s.plan.heads (fun e s =>
    let h := e.head
    let x := s.head h
    let s := if s.isOn 0x14 h then
        forEach (List.range 32) (fun l s => s.shiftReg d .freshLayerExpiry h l) (s.shiftReg d .freshValidUntil h 0)
      else s
    let lay (y : LatLayer) : LatLayer := { y with cap := addNs y.cap d }
    s.setHead h { x with
      modeNext := x.modeNext.map fun q => (q.1, addNs q.2.1 d, q.2.2), cad := x.cad.map fun q => (addNs q.1 d, q.2),
      next := x.next.map (addNs · d), commits := x.commits.map fun c => { c with at_ := addNs c.at_ d },
      lutLoads := x.lutLoads.map fun c => { c with at_ := addNs c.at_ d },
      limits := x.limits.map fun q => (addNs q.1 d, q.2), policies := x.policies.map fun q => (addNs q.1 d, q.2),
      wit := x.wit.map fun w => { w with until_ := addNs w.until_ d },
      witLast := x.witLast.map fun q => (q.1, q.2.1, addNs q.2.2.1 d, addNs q.2.2.2 d),
      frame := x.frame.map fun f => { f with time := addNs f.time d, layers := f.layers.map lay } }) s

/-- Encode instants and capture times of encoder cores. -/
def State.shiftEncs (s : State) (d : Int) : State :=
  forEach (List.range 8) (fun c s =>
    if (s.plan.enc c).isNone then s
    else
      let x := s.enc c
      s.setEnc c { x with next := x.next.map (addNs · d), last := x.last.map fun q => (q.1, addNs q.2.1 d, q.2.2),
                          job := x.job.map fun j => { j with instant := addNs j.instant d, cap := addNs j.cap d } }) s

/-- Stamps and period instants of panels; a TOUCH_CMD already sent keeps its START_AT. -/
def State.shiftPanels (s : State) (d : Int) : State :=
  forEach s.plan.panels (fun e s =>
    let x := s.pan e.panel
    s.setPan e.panel { x with lastFrame := x.lastFrame.map (addNs · d), lastStamp := x.lastStamp.map (addNs · d),
                              nextAt := x.nextAt.map (addNs · d), endAt := x.endAt.map (addNs · d) }) s

/-- TIME_NS is stepped by `d` ns at this tick, by a command with a TAG or with 0 where none does it, and TIME_STEPPED is raised (R474, R475, R498)
(DEDUCED, log 23). -/
def State.timeStep (s : State) (d : Int) (tag : Nat) : State :=
  let old := s.now
  let s := s.timingRec 1 0 0 (i32 d).toNat 0
  let s := s.onBus fun b => { b with time := addNs b.time d }
  let s := if 0 < d ∧ bit old 31 ∧ !bit s.now 31 then s.wrapBy true
    else if d < 0 ∧ !bit old 31 ∧ bit s.now 31 then s.wrapBy false else s
  let s := ((s.shiftGroups d).shiftPulses d).shiftCaps d
  let s := (((s.shiftSources d).shiftHeads d).shiftEncs d).shiftPanels d
  let s := s.setTnd { s.tnd with appliedTime := addNs s.tnd.appliedTime d }
  let s := s.setTim { s.tim with stepNs := d, stepSeq := (s.tim.stepSeq + 1) % 256 }
  let s := forEach ((List.range 64).filter fun p => s.plan.role p != 0) (fun p s => s.setLink p { s.link p with stepLeft := 3 }) s
  let s := s.onBus fun b => (List.range 4).foldl (fun b h => b.setFld .corePtmStatus h 0 0 1 0) b
  s.emit 0x3006 0 1 (pay [(i32 d).toNat, tag])

/-- The TIME packets of the last step have not all gone out (R474). -/
def State.stepBusy (s : State) : Bool :=
  (List.range 64).any fun p => s.portState p == 2 && (s.link p).stepLeft != 0

/-- STEP (R474). A unit that follows records steps on the TIMING record of the step (spec/16 R519, R527). -/
def stepCmd : Perf := fun _ _ e s =>
  let d := sext 32 (e.arg 32 4)
  checked 0x30 (e.object == 0xFFFF) (e.zeroFrom 36 56 && decide (-1000000000 ≤ d ∧ d ≤ 1000000000)) true e s fun s =>
    if !s.chooses then done s stOk
    else if s.stepBusy then done s stBusy else done (s.timeStep d e.tag) stOk

def execStep (r k : Nat) (s : State) : Answer := s.fabric fun s => s.runCmd 0x3001 stepCmd r k

end Sys2Proof.Machine
end

