-- ==== Sys2Proof/Machine/FailSafe.lean ====
section
/-! DEFINITION. The slot status record, the state of a structure command, and the fail-safe (spec/02 R53, R54, R59, R74; spec/17 R549,
R550, R554). -/

namespace Sys2Proof.Machine

/-! ### The slot status record -/

/-- THM_STATE.STORE_OK: the configuration store may be written now (R553). -/
def State.storeOk (s : State) : Bool := bit (s.reg .thmState 0 0) 10

/-- What the check value of a slot status record covers, in the order of R53 (PRESUMED, log 6). -/
def SlotRec.bytes (r : SlotRec) : List Byte :=
  le 4 r.gen.toNat ++ le 1 r.preferred ++ r.states.flatMap (le 1) ++ r.seqs.flatMap (le 4) ++ r.hashes.flatMap (fit 48) ++ le 1 r.trialBoots

/-- JRNL64 covers the record: a copy is valid when it agrees, and an update carries it (R53). -/
def SlotRec.valid (r : SlotRec) : Bool := r.check == jrnl64 r.bytes
def SlotRec.seal (r : SlotRec) : SlotRec := { r with check := jrnl64 r.bytes }

/-- The second copy is in force: it is valid, and the first is not or has the lower generation (R53). -/
def StoreSt.second (f : StoreSt) : Bool := f.recB.valid && (!f.recA.valid || decide (f.recA.gen < f.recB.gen))

/-- The record in force: an update that is held, else the valid copy with the higher generation (R53); with no valid copy the factory's
(DESIGN CHOICE, log 6). -/
def State.slotRec (s : State) : SlotRec :=
  match s.wdn.statusHeld with
  | some r => r
  | none => if s.flash.second then s.flash.recB else if s.flash.recA.valid then s.flash.recA else SlotRec.init

/-- Write an update into the copy that is not in force (R53). -/
def StoreSt.putRec (f : StoreSt) (r : SlotRec) : StoreSt :=
  if f.second then { f with recA := r.seal } else { f with recB := r.seal }

/-- STRUCT_SLOT shows the slots. -/
def State.showSlots (s : State) : State :=
  let r := s.slotRec
  let st (i : Nat) : Nat := r.states.getD i 0
  let keep := s.fld .structSlot 0 0 2 1
  s.setReg .structSlot 0 0 (w32 (s.wdn.slot + keep * 4 + s.wdn.straps / 8 % 2 * 8 + st 0 * 16 + st 1 * 256 + st 2 * 4096 +
    (if r.preferred = 2 then 1 else 0) * 32768))

/-- A slot status update: written, or held outside the store's temperature range (R53, R59). -/
def State.putSlots (s : State) (f : SlotRec → SlotRec) : State :=
  let old := s.slotRec
  let gen := match s.wdn.statusHeld with | some r => r.gen | none => old.gen + 1
  let r := { f old with gen := gen }
  let s := if s.storeOk then { s with flash := s.flash.putRec r, wdn := { s.wdn with statusHeld := none } }
    else (s.setWdn { s.wdn with statusHeld := some r }).storeRefused 1
  s.showSlots

/-- Slot states (R54): 0 EMPTY, 1 WRITTEN, 2 TRIAL, 3 CONFIRMED, 4 FAILED. -/
def State.slotState (s : State) (k : Nat) : Nat := s.slotRec.states.getD k 0
def State.setSlotState (s : State) (k v : Nat) : State := s.putSlots fun r => { r with states := r.states.set k v }

/-! ### Structure commands (R74, R578) -/

/-- STRUCT_STATUS.STATE: 0 IDLE, 1 BUSY, 2 DONE, 3 FAILED. -/
def State.structBusy (s : State) : Bool := s.fld .structStatus 0 0 0 2 == 1

/-- A structure command ends. -/
def State.structEnd (s : State) (st reason : Nat) : State :=
  let s := (s.setFld .structStatus 0 0 0 2 st).setFld .structStatus 0 0 8 8 reason
  s.setWdn { s.wdn with cmd := none }

/-- STRUCT_FAIL: reason, slot (3 staged), record. -/
def State.structFail (s : State) (reason slot rec : Nat) : State :=
  s.setReg .structFail 0 0 (w32 (reason + slot * 2 ^ 8 + rec % 65536 * 2 ^ 10))

/-- STRUCT_ZONE: 0 absent, 1 RUNNING, 2 RELOADING, 3 HALTED. -/
def State.setZoneState (s : State) (z v : Nat) : State := s.setFld .structZone 0 0 (4 * z) 4 v

/-- The first 8 bytes of the running STRUCTURE_HASH, as two words. -/
def State.hash8 (s : State) : List Nat := [(s.reg .structHash 0 0).toNat, (s.reg .structHash 0 1).toNat]

/-- The ZONE record of a step of R70 (spec/16 R500). -/
def State.zoneRec (s : State) (z step result : Nat) : State :=
  s.journal 0x15 0x34 0 (le 1 z ++ le 1 step ++ le 1 result ++ le 1 0)

/-- A reload that fails after step 1 leaves the zone HALTED (R72, R74). -/
def State.zoneHalt (s : State) (reason : Nat) : State :=
  match s.wdn.zone with
  | none => s
  | some z =>
    let s := s.zoneRec z.zone z.step 1
    let s := (s.setZoneState z.zone 3).setFld .structState 0 0 0 3 2
    let s := (s.structFail reason 3 0xFFFF).structEnd 3 reason
    (s.setWdn { s.wdn with zone := none }).emit 0x3405 0 2 (pay (z.zone :: reason :: s.hash8))

/-! ### The fail-safe -/

/-- TEMP_MAX in quarters of a degree. -/
def State.tempMax (s : State) : Int := sext 16 (s.fld .thmTemp 0 0 0 16)

/-- THM_VDD shows the highest request of the last 24 h: the changes of that time, and the request in force when it began (DEDUCED, log 64). -/
def State.vddShow (s : State) : State :=
  let day := 86400 * tickS
  let new := s.wdn.dayReqs.filter fun r => decide (s.ticks < r.1 + day)
  let old := (s.wdn.dayReqs.filter fun r => decide (r.1 + day ≤ s.ticks)).getLast?.toList
  let s := s.setWdn { s.wdn with dayReqs := old ++ new }
  s.setFld .thmVdd 0 0 16 10 (((old ++ new).map Prod.snd).foldl max 0)

/-- A request for VDD_FAB over AVSBus (spec/01 R14, spec/18 R570). -/
def State.vddRequest (s : State) (mv : Nat) : State :=
  let s := (s.send (.avsRequest mv)).setFld .thmVdd 0 0 0 10 mv
  let top : Nat × Int := if s.wdn.dayMax.1 < mv then (mv, s.tempMax) else s.wdn.dayMax
  (s.setWdn { s.wdn with vddTick := s.ticks, dayReqs := s.wdn.dayReqs ++ [(s.ticks, mv)], dayMax := top }).vddShow

/-- FAULT_N is low (spec/18 R572): LEVEL is FAILSAFE or CUTOFF, or a WARM or FABRIC reset lasts, which it does until the die is released
(DESIGN CHOICE, log 74). -/
def State.faultLow (s : State) : Bool :=
  s.powered && (decide (3 ≤ s.level) || (s.fld .thmReset 0 0 0 4 != 0 && s.wdn.waitStep != 0 && s.wdn.waitStep != 6))

/-- FAULT_N follows a change from state `was`. -/
def State.faultPin (s was : State) : State := if s.faultLow = was.faultLow then s else s.send (.faultN s.faultLow)

/-- The thermal level changes; SMB_ALERT_N goes low while it is not NORMAL (spec/18 R574), and FAULT_N follows. -/
def State.thmLevel (s : State) (l : Nat) : State :=
  ((s.setFld .thmState 0 0 0 3 l).setWdn { s.wdn with alertLevel := l != 0 }).faultPin s

/-- A zone reload stops at the step it has reached, or in its checks (R74, R550). -/
def State.reloadEnds (s : State) (reason : Nat) : State :=
  let s := s.zoneHalt reason
  match s.wdn.cmd with
  | some c => if c.op = 4 then (s.structFail reason 3 0xFFFF).structEnd 3 reason else s
  | none => s

/-- What the fail-safe ends (R550); REASON is 0x11 TEMP for the cause CRIT, else 0x12 STATE (DESIGN CHOICE, log 74). -/
def State.failSafeEnds (s : State) : State :=
  let reason := if s.wdn.cause = 1 then 0x11 else 0x12
  let s := s.reloadEnds reason
  let s := match s.wdn.cmd with
    | some c => if c.op = 1 then s.structEnd 3 reason else s
    | none => s
  match s.wdn.serviceStep with
  | some _ => (s.setWdn { s.wdn with serviceStep := none }).setReg .debugStatus 0 0 3
  | none => s

/-- PORTS of the tandem go on until the heartbeats have ended (R549 steps 1, 4 and 5) (DEDUCED, log 61). -/
def State.keepsPort (s : State) (p : Nat) : Bool := s.tnd.failTick.isSome && s.plan.tandemPorts.contains p

/-- Every instance of the functions that touch the outside leaves ON (R549 step 5). -/
def State.failSafeStops (s : State) : State :=
  let cause := if s.wdn.cause = 1 then 3 else 2
  forEach safeCaps (fun cap s => forEach (s.plan.insts cap) (fun i s =>
    if followsHead cap || (cap == 0x20 && s.keepsPort i) then s else s.stop cap i cause) s) s

/-- PULSE_A to PULSE_D are driven low (R555). -/
def State.pulsesLow (s : State) : State :=
  forEach (List.range 4) (fun p s =>
    let x := s.pulse p
    let s := if x.level then s.drivePulse p false s.now else s
    s.setPulse p { x with level := false, fall := none }) s

/-- The outside becomes harmless at once, each running head's giving-up being a decision record (R549 steps 1 and 2, R555, spec/01 R28). -/
def State.failSafeWires (s : State) : State :=
  let s := forEach s.plan.heads (fun e s =>
    let h := e.head
    if !s.isOn 0x14 h then s
    else
      let s := if s.output h = 0 ∨ s.output h = 4 then s
        else s.giveUp 0x14 h 1 (s.safeGives h) 0x3304 (some (s.reg .headFrame h 0))
      s.setOutput h 4 3) s
  let s := forEach s.plan.outPorts (fun p s => if s.witSafe p then s else s.safeWire p 3) s
  let s := s.toFailed
  let s := forEach ((List.range 64).filter fun p => s.plan.role p == 2) (fun p s => s.creditStop p) s
  let s := s.pulsesLow
  let s := s.setTim { s.tim with ignoreRefs := true }
  if s.selected = 7 then s else s.deselect

/-- A condition of R554 that is marked for the fail-safe; once there, further conditions only count, but CRIT still stops a zone reload
(R74). -/
def State.failSafe (s : State) (code : Nat) : State :=
  if 3 ≤ s.level then
    let s := s.fault 0x33 0 code
    if code = 1 then s.reloadEnds 0x11 else s
  else
    let s := s.setWdn { s.wdn with cause := code }
    let s := s.thmLevel 3
    let s := if s.fabricUp then s.failSafeWires else s
    let s := (s.fault 0x33 0 code).emit 0x3304 0 2 (pay [code, s.fld .thmTemp 0 0 0 16])
    let s := s.failSafeEnds
    if s.fabricUp then s.failSafeStops else s

/-- The fabric die stops: every spoke port falls to electrical idle, and the other pins take a column of R556 (R555). -/
def State.dieOff (s : State) (column : Nat) : State :=
  let s := if s.fabricUp then
      forEach ((List.range 64).filter fun p => s.plan.role p != 0) (fun p s => s.send (.electricalIdle p)) s
    else s
  s.send (.pins column)

/-- Faults that do not concern a running start: the fabric die stays in, or goes back to, reset (R568, R569). -/
def State.holdDie (s : State) : State :=
  { s.dieOff 1 with fabricUp := false, wdn := { s.wdn with waitStep := 0 } }

end Sys2Proof.Machine
end

