-- ==== Sys2Proof/Machine/Startup.lean ====
section
/-! DEFINITION. Resets and the order of start-up (spec/17 R532 to R541, R568; spec/02 R54, R55, R67, R68; spec/05 R146, R160). -/

namespace Sys2Proof.Machine

/-! ### Resets -/

/-- The NONCE is drawn afresh (spec/04 R134): free values. -/
def State.drawNonce (s : State) : State :=
  forEach (List.range 4) (fun i s => (s.free.2).setReg .debugNonce 0 i s.free.1) s

/-- Registers of the warden: THERMAL, STRUCTURE, DEBUG. -/
def wardenNames : List Nat := fnNames 0x33 ++ fnNames 0x34 ++ fnNames 0x35

/-- What outlives any reset of a powered module: the store and the training values in it, OTP, what has left the device, the count of
free values, elapsed ticks, PERST# of the ports, the commands waiting (DESIGN CHOICE, log 2; DEDUCED, log 62). -/
def State.bare (s : State) : State :=
  { State.reset with
    bus := { Bus.init with ticks := s.bus.ticks, free := s.bus.free, wire := s.bus.wire, mx := { MemX.init with stored := s.bus.mx.stored },
                           hosts := s.bus.hosts.map fun e => (e.1, { HostSt.init with perst := e.2.perst }) },
    flash := s.flash, otp := s.otp, pending := s.pending }

/-- The life record's values (R558, R559) (DEDUCED, log 64). -/
def State.showLife (s : State) : State :=
  let hours := s.flash.lifeHours + s.wdn.lifeHeld.1
  let eq := (s.flash.lifeEq + s.wdn.lifeHeld.2) / 2 ^ 32
  let s := (s.setReg .lifeHours 0 0 (w32 hours)).setReg .lifeEqHours 0 0 (w32 eq)
  let s := s.setReg .lifeUsed 0 0 (w32 (eq * 10000 / 350640 % 65536))
  match (s.flash.wear ++ s.wdn.wearHeld).getLast? with
  | some w => s.setFld .thmWear 0 0 0 10 (850 - w.1)
  | none => s

/-- A reset (R532): KIND 0 POWER_ON, 1 WARM, 2 FABRIC; its cause; the start-up order begins, but for a FABRIC reset in CUTOFF, which holds the
fabric die in reset (R551, R552). SERVICE ends at any reset (spec/04 R132) (DEDUCED, log 62). -/
def State.resetTo (s : State) (kind cause straps : Nat) : State :=
  let b := (s.dieOff (if kind = 0 then 0 else 1)).bare
  let resets := if kind = 0 then 0 else min 65535 (s.fld .thmReset 0 0 16 16 + 1)
  let b := if kind = 2 then
      { b with fregs := s.fregs.filter fun e => wardenNames.contains (Nat.unpair (Nat.unpair e.1).1).1,
               wdn := { s.wdn with waitStep := if s.level = 4 then 0 else 1, load := none, cmd := none, zone := none, serviceStep := none, dbgWrites := none } }
    else { b with wdn := { WdnSt.init with straps := straps } }
  let recov := if kind = 2 then s.fld .thmReset 0 0 8 8 else 0
  let b := b.setReg .thmReset 0 0 (w32 (kind + cause * 16 + recov * 256 + resets * 65536))
  let b := b.setWdn { b.wdn with resetTick := s.ticks, waitTick := s.ticks, order := if kind = 2 then (if s.wdn.slot = 3 ∨ s.wdn.slot = 0 then [0] else [s.wdn.slot, 0]) else [] }
  let b := if kind = 2 then ((b.setReg .structStatus 0 0 0).setReg .structZone 0 0 0).setReg .debugStatus 0 0 0 else b
  let b := (b.setReg .debugState 0 0 (if b.otp.field then 1 else 0)).drawNonce
  let b := ((b.setFld .structState 0 0 0 3 1).identity.showSlots.showLife).faultPin s
  if kind ≠ 2 ∧ !b.otp.sound then (b.setWdn { b.wdn with waitStep := 0 }).failSafe 9 else b

/-- POWER_ON_RESET: every warden rail is good after one was not; the straps are sampled (R57, R573) (DESIGN CHOICE, log 5). -/
def State.powerOn (s : State) (straps : Nat) : State := { (s.resetTo 0 0 (straps % 16)) with powered := true }

/-- A WARM or FABRIC reset written on a unit that is ACTIVE in a tandem waits for the heartbeats of FAILED (R536) (DEDUCED, log 61). -/
def State.writtenReset (s : State) (kind cause : Nat) : State :=
  if s.plan.tandem.isSome ∧ (s.role = 3 ∨ s.role = 5) ∧ s.fabricUp then
    let s := s.toFailed
    s.setTnd { s.tnd with resetDue := some (kind, cause) }
  else s.resetTo kind cause s.wdn.straps

/-- FAILED_HEARTBEAT_END (spec/16 R511): the 10 ms are over; a reset that waited for them follows (R536), and the tandem ports of a unit in
the fail-safe leave ON (R549) (DEDUCED, log 61). -/
def State.failedHeartbeatEnd (s : State) : State :=
  let t := s.failedEnds
  if s.tnd.failTick.isNone ∨ t.tnd.failTick.isSome then t
  else
    match t.tnd.resetDue with
    | some (kind, cause) => t.resetTo kind cause t.wdn.straps
    | none => if 3 ≤ t.level then t.failSafeStops else t

/-- A write of THM_CMD by a host (R560). -/
def State.thmCmd (s : State) (port : Nat) (v : Word) : State :=
  if bf v 16 16 ≠ 0x7264 ∨ (bf v 0 8 ≠ 1 ∧ bf v 0 8 ≠ 2) then s.onBus fun b => b.bump .coreBadAccess port 0 1
  else s.writtenReset (bf v 0 8) 2

/-- WARM_RESET and FABRIC_RESET: a host writes THM_CMD. -/
def State.thmCmdWrite (s : State) (port : Nat) (v : Word) : State :=
  s.hostWrite port 0x33 0 0 0x1C v fun s => s.thmCmd port v

/-- LOCKSTEP_MISMATCH (R554): fault 0x03, and an automatic WARM reset. -/
def State.lockstep (s : State) : State := (s.fault 0x33 0 3).resetTo 1 4 s.wdn.straps

/-! ### Loading a structure (R537 step 4) -/

/-- The order of slots to try (spec/02 R55), with what it records (DEDUCED, log 62). -/
def State.slotOrder (s : State) : State × List Nat :=
  if s.wdn.straps.testBit 3 then (s, [0])
  else
    let p := s.slotRec.preferred
    if s.slotState p = 2 ∧ s.slotRec.trialBoots = 1 then (s.setSlotState p 4, [0])
    else if s.slotState p = 2 then (s.putSlots fun r => { r with trialBoots := 1 }, [p, 0])
    else if s.slotState p = 3 then (s, [p, 0])
    else (s, [0])

/-- Try the slots in order until one passes every check (spec/02 R54, R55, R64). -/
def State.trySlots : List Nat → State → State × Option Loaded
  | [], s => (s, none)
  | k :: rest, s =>
    let d := s.flash.slots.getD k []
    match checkContainer s.otp s.lifecycle d with
    | .inr l => (s.setWdn { s.wdn with slot := k }, some l)
    | .inl (reason, rec) =>
      let s := if k ≠ 0 ∧ (s.slotState k = 2 ∨ s.slotState k = 3) then s.setSlotState k 4 else s
      let s := s.structFail reason k rec
      let s := if rest = [] then s else s.emit 0x3402 0 1 (pay [k, reason, leAt d 12 4, leAt d 16 4])
      State.trySlots rest s

/-- The fabric die is released (R537 step 5): the structure's values stand in its registers, and TIME_NS counts from 0 (spec/15 R472) (DEDUCED, log 62). -/
def State.release (s : State) : State :=
  let was := s
  let p := match s.wdn.load with | some l => l.1 | none => Plan.none
  let s := { s with fabricUp := true, plan := p, wdn := { s.wdn with waitStep := 6, waitTick := s.ticks, hourTick := s.ticks, dayTick := s.ticks } }
  let s := s.faultPin was
  let s := s.onBus fun b => { b with time := 0, frac := 0 }
  let s := s.instantiate.identity
  match s.wdn.load with
  | some (p, hash, seq, _) =>
    let s := forEach (List.range 12) (fun i s => s.setReg .structHash 0 i (w32 (leAt hash (4 * i) 4))) s
    let s := s.setReg .structSeq 0 0 (w32 seq)
    forEach p.zones (fun z s => s.setZoneState z.zone 1) s
  | none => s

/-- Step 5 (R537, R568): VDD_FAB is requested at 0.80 V; the die is released once every rail is inside its window. `out` are the rails
outside theirs at that moment. After a FABRIC reset the request is 0.80 V whatever TEMP_MAX is by then, as R537 step 5 has it without a
condition (DESIGN CHOICE, log 75). -/
def State.toSupplies (s : State) (out : List Nat) : State :=
  let s := s.vddRequest 800
  if out = [] then s.release else s.setWdn { s.wdn with waitStep := 5, waitTick := s.ticks }

/-- No slot passes: NO_STRUCTURE (spec/02 R55) (DEDUCED, log 62). -/
def State.noStructure (s : State) (out : List Nat) : State :=
  let s := s.setWdn { s.wdn with slot := 3, load := none }
  let s := ((s.setFld .structState 0 0 0 4 0).showSlots).fault 0x34 0 0x0A
  (s.emit 0x3403 0 2 (pay [3, s.fld .structFail 0 0 0 8, 0, 0])).toSupplies out

/-- A structure is taken (spec/02 R54, R55, R67); `fresh` when the slots were tried in the order of R55 (DEDUCED, log 62). -/
def State.takeStructure (s : State) (l : Loaded) (fresh : Bool) (out : List Nat) : State :=
  let s := (s.setWdn { s.wdn with load := some (l.plan, l.hash, l.seq, l.image) }).showSlots
  let s := s.setFld .structSlot 0 0 2 1 0
  let s := if s.slotState s.wdn.slot = 2 ∧ (fresh ∨ s.wdn.confirm.isNone) then
      s.setWdn { s.wdn with confirm := some (s.wdn.slot, s.ticks) } else s
  let s := match l.discarded with
    | some rec => (s.structFail 0x0F s.wdn.slot rec).emit 0x340A 0 1 (pay [s.wdn.slot, 0x0F, leAt l.hash 0 4, leAt l.hash 4 4])
    | none => s
  let s := s.setFld .structState 0 0 3 1 (b2n (!l.image))
  if l.image then s.toSupplies out
  else s.setWdn { s.wdn with waitStep := 4, waitTick := s.ticks }

/-- STRUCTURE_LOAD (spec/02 R55, R64, R67, R68). A FABRIC reset takes the slot it last started from, then GOLDEN (R534) (DESIGN CHOICE, log 5). -/
def State.structureLoad (s : State) (out : List Nat) : State :=
  if s.wdn.waitStep ≠ 3 then s
  else
    let r := if s.wdn.order = [] then s.slotOrder else (s, s.wdn.order)
    match State.trySlots r.2 (r.1.setWdn { r.1.wdn with order := [] }) with
    | (t, none) => t.noStructure out
    | (t, some l) => t.takeStructure l s.wdn.order.isEmpty out

/-- ROUTING_COMPUTED (spec/02 R67). -/
def State.routingComputed (s : State) (out : List Nat) : State := if s.wdn.waitStep = 4 then s.toSupplies out else s

/-- SUPPLY_WAIT_TIMEOUT (R568): the wait of step 5 ends. `out` are the rails still outside their windows: with none the die is released, and
after 1 s with some it is held in reset with fault 0x06. -/
def State.supplyWait (s : State) (out : List Nat) : State :=
  if s.wdn.waitStep ≠ 5 then s
  else if out = [] then s.release
  else if s.wdn.waitTick + tickS ≤ s.ticks then (s.holdDie).failSafe 6
  else s

/-! ### Memory (spec/05 R160, R161) -/

/-- STACK_TEMP_READING (spec/05 R157, R158, R160): the readings of both stacks in °C. The first after the release of the die starts the memory. -/
def State.stackTemps (s : State) (t0 t1 : Int) : State :=
  let s := s.onBus fun b => (b.stackReading 0 t0).stackReading 1 t1
  match s.bus.fld .memState 0 0 0 3 with
  | 0 => if s.wdn.waitStep = 6 then s.onBus fun b => b.memStart t0 t1 else s
  | 1 => s.onBus fun b => b.warmed t0 t1
  | _ => s

/-- WARMING_TIMEOUT: 120 s without reaching 0 °C; MEM_FAILED then carries pseudo-channel 0 and step 0 (DESIGN CHOICE, log 75). -/
def State.warmingTimeout (s : State) (stack : Nat) : State :=
  if s.bus.fld .memState 0 0 0 3 = 1 ∧ s.bus.mx.trainTick + 120 * tickS ≤ s.ticks then
    (s.onBus fun b => b.memFailed stack 0 0).failSafe 8
  else s

/-- TRAINING_COMPLETE: every pseudo-channel has trained, with the lanes repaired as (pseudo-channel, lane), or one has failed at a step; one
that needs a second lane repaired fails too (spec/05 R160), at step 0 (DESIGN CHOICE, log 75). The
values are stored for the band, or held outside the store's range (R553). -/
def State.trainingComplete (s : State) (fullSearch : Bool) (repairs : List (Nat × Nat)) (failed : Option (Nat × Nat)) : State :=
  if s.bus.fld .memState 0 0 0 3 ≠ 2 then s
  else
    match failed with
    | some (pc, step) => (s.onBus fun b => b.trainFailed pc step).failSafe 8
    | none =>
      match twiceRepaired repairs with
      | some pc => (s.onBus fun b => b.trainFailed pc 0).failSafe 8
      | none =>
        let band := s.bus.fld .memState 0 0 7 2
        let old := s.bus.mx.stored
        let s := s.onBus fun b => b.trained fullSearch repairs
        if s.storeOk then s
        else
          let s := s.onBus fun b => { b with mx := { b.mx with stored := old } }
          (s.setWdn { s.wdn with trainHeld := addSet s.wdn.trainHeld band }).storeRefused 4

/-- ZEROING_COMPLETE (spec/05 R146, R160; R537 step 7): the memory is READY and the structure runs. -/
def State.zeroingComplete (s : State) : State :=
  if s.bus.fld .memState 0 0 0 3 ≠ 3 then s
  else
    let ms := (s.bus.mx.trainEnd - s.bus.mx.trainTick) / tickMs
    let s := s.onBus fun b => ((b.zeroParts).setFld .memState 0 0 0 3 4).emit 0x0501 0 0 (pay [b.fld .memState 0 0 7 2, b.fld .memState 0 0 9 1, ms])
    let s := s.setWdn { s.wdn with waitStep := 0 }
    let s := s.setReg .structLoadMs 0 0 (w32 ((s.ticks - s.wdn.resetTick) / tickMs))
    let s := if s.plan.loaded then
        (s.setFld .structState 0 0 0 3 2).emit 0x3401 0 0 (pay (s.wdn.slot :: 0 :: s.hash8))
      else s
    let s := s.setTnd { s.tnd with roleTick := s.ticks }
    let s := s.startAll
    match s.wdn.recovered with
    | some code => (s.setWdn { s.wdn with recovered := none }).emit 0x3306 0 1 (pay [s.fld .thmReset 0 0 8 8, code])
    | none => s

/-- RETRAINED (spec/05 R162, R163): a pseudo-channel that fails is fault 0x08. -/
def State.retrainEnds (s : State) (pc : Nat) (ok : Bool) : State :=
  let held := (assocGet s.bus.mx.held pc).isSome
  let s := s.onBus fun b => b.retrained pc ok
  if held && !ok then s.failSafe 8 else s

def execPowerOnReset (straps : Nat) (s : State) : Answer := .next (s.powerOn straps).watch.settle
def execSysResetNAssert (s : State) : Answer := s.warden fun s => s.resetTo 1 1 s.wdn.straps
def execWarmReset (port : Nat) (key : Nat) (s : State) : Answer := s.fabric fun s => s.thmCmdWrite port (w32 (key * 65536 + 1))
def execFabricReset (port : Nat) (key : Nat) (s : State) : Answer := s.fabric fun s => s.thmCmdWrite port (w32 (key * 65536 + 2))
def execLockstepMismatch (s : State) : Answer := s.warden State.lockstep
def execStructureLoad (out : List Nat) (s : State) : Answer := s.warden fun s => s.structureLoad out
def execRoutingComputed (out : List Nat) (s : State) : Answer := s.warden fun s => s.routingComputed out
def execSupplyWaitTimeout (out : List Nat) (s : State) : Answer := s.warden fun s => s.supplyWait out
def execStackTempReading (t0 t1 : Int) (s : State) : Answer := s.fabric fun s => s.stackTemps t0 t1
def execWarmingTimeout (stack : Nat) (s : State) : Answer := s.fabric fun s => s.warmingTimeout stack
def execTrainingComplete (fullSearch : Bool) (repairs : List (Nat × Nat)) (failed : Option (Nat × Nat)) (s : State) : Answer :=
  s.fabric fun s => s.trainingComplete fullSearch repairs failed
def execZeroingComplete (s : State) : Answer := s.fabric State.zeroingComplete
def execRetrained (pc : Nat) (ok : Bool) (s : State) : Answer := s.fabric fun s => s.retrainEnds pc ok

end Sys2Proof.Machine
end

