-- ==== Sys2Proof/Machine/Thermal.lean ====
section
/-! DEFINITION. Sensors, throttling, the fail-safe's conditions, CUTOFF and recovery, VDD_FAB, the life record, SMBus (spec/17, spec/18
R570 and R574, spec/01 R14 to R17), and a handshake completion timeout (spec/01 R13). -/

namespace Sys2Proof.Machine

/-! ### Settings and temperatures, in quarters of a degree -/

/-- A field of the expert registers in force (R561): 0 THM_X_LEVELS, 1 THM_X_TIMES, 2 THM_X_RELEASE, 3 THM_X_RECOVER, 4 THM_X_WEAR. -/
def State.thmF (s : State) (i lo n : Nat) : Nat := bf (s.wdn.force.getD i 0) lo n

def State.warnTemp (s : State) : Int := 4 * (s.thmF 0 0 8 : Int)
def State.critTemp (s : State) : Int := 4 * (s.thmF 0 8 8 : Int)
def State.hystTemp (s : State) : Int := 4 * (s.thmF 2 0 8 : Int)

/-- The reading of sensor n: 0 to 31 TS00 to TS31, 32 TSW. -/
def State.sensor (s : State) (n : Nat) : Int := sext 16 (if n < 32 then s.fld .thmSensor 0 n 0 16 else s.fld .thmWardenTemp 0 0 16 16)

/-- The reading of a stack in °C. -/
def State.stackTemp (s : State) (stack : Nat) : Int := sext 8 (bf (s.bus.reg .memTemp 0 0) (8 * stack) 8)

/-- TEMP_MAX as throttling takes it: a stack at 105 °C counts as WARN, at 110 °C as CRIT (R544). -/
def State.effTemp (s : State) : Int :=
  let st := max (s.stackTemp 0) (s.stackTemp 1)
  let up : Int := if 110 ≤ st then max s.warnTemp s.critTemp else if 105 ≤ st then s.warnTemp else s.tempMax
  max s.tempMax up

/-! ### Readings (R542, R543, R553) -/

/-- Take one sensor's reading; a sensor without one keeps the last. -/
def State.takeSensor (s : State) (n : Nat) (t : Option Int) : State :=
  match t with
  | none => s
  | some q =>
    let s := s.setWdn { s.wdn with sensTick := assocSet s.wdn.sensTick n s.ticks }
    if n < 32 then s.setFld .thmSensor 0 n 0 16 (code 16 q)
    else if n = 32 then s.setFld .thmWardenTemp 0 0 16 16 (code 16 q)
    else s.setWdn { s.wdn with wTemps := setAt s.wdn.wTemps (n - 33) q }

/-- A sensor has failed by R543. Only fabric sensors have neighbours in the list (log 46). -/
def State.sensorBad (s : State) (n : Nat) : Bool :=
  let v : Int := if n < 33 then s.sensor n else s.wdn.wTemps.getD (n - 33) 0
  let far (m : Nat) : Bool := 80 < (v - s.sensor m).natAbs
  decide ((assocGet s.wdn.sensTick n).getD s.wdn.resetTick + 5 * tickMs ≤ s.ticks) || decide (v < -240) || decide (600 < v) ||
    (decide (n < 32) && far (Config.neighbours n).1 && far (Config.neighbours n).2)

/-- SENSOR_FAILED, at most once a second with the count since the last (R562). -/
def State.sensorEvent (s : State) (n : Nat) : State :=
  let k := (s.wdn.sensEv.map Prod.snd).getD 0 + 1
  let due : Bool := match s.wdn.sensEv with | none => true | some e => decide (e.1 + tickS ≤ s.ticks)
  if due then
    (s.setWdn { s.wdn with sensEv := some (s.ticks, 0) }).emit 0x3307 0 1
      (pay [n, code 16 (if n < 33 then s.sensor n else s.wdn.wTemps.getD (n - 33) 0), k])
  else s.setWdn { s.wdn with sensEv := s.wdn.sensEv.map fun e => (e.1, k) }

/-- Which sensors have failed, with the event of each that newly has, and the fail-safe above 4 fabric sensors (R543). -/
def State.judgeSensors (s : State) : State :=
  let bad := (List.range 35).filter fun n => s.sensorBad n
  let fabric (l : List Nat) : Nat := (l.filter fun n => n < 32).length
  let old := s.wdn.sensBad
  let s := s.setWdn { s.wdn with sensBad := bad }
  let s := forEach (List.range 32) (fun n s => s.setFld .thmSensor 0 n 16 1 (b2n (bad.contains n))) s
  let s := s.setReg .thmSensorFail 0 0 (w32 (((bad.filter fun n => n < 32).map fun n => 2 ^ n).sum))
  let s := forEach (bad.filter fun n => !old.contains n) (fun n s => s.sensorEvent n) s
  if fabric old ≤ 4 ∧ 4 < fabric bad then s.failSafe 2 else s

/-- The sound sensor of TS00 to TS31 and TSW that reads highest. -/
def State.hottest (s : State) : Option Nat :=
  ((List.range 33).filter fun n => !s.wdn.sensBad.contains n).foldl (fun best n =>
    match best with
    | none => some n
    | some m => if s.sensor m < s.sensor n then some n else some m) none

/-- TEMP_MAX, the highest since reset, and the warden die temperature. -/
def State.showTemps (s : State) (first : Bool) : State :=
  let s := s.setFld .thmWardenTemp 0 0 0 16 (code 16 (max (s.wdn.wTemps.getD 0 0) (s.wdn.wTemps.getD 1 0)))
  match s.hottest with
  | none => s
  | some n =>
    let t := s.sensor n
    let high := sext 16 (s.fld .thmTemp 0 0 16 16)
    let s := s.setFld .thmTemp 0 0 0 16 (code 16 t)
    if first ∨ high < t then s.setFld .thmTemp 0 0 16 16 (code 16 t) else s

/-- STORE_OK: TEMP_MAX and the warden die lie from 0 to 85 °C (R553). What was held is written once the range is regained;
a WRITE_SLOT in progress stops with the slot EMPTY. -/
def State.storeRange (s : State) : State :=
  let ok (t : Int) : Bool := decide (0 ≤ t) && decide (t ≤ 340)
  let now : Bool := ok s.tempMax && ok (sext 16 (s.fld .thmWardenTemp 0 0 0 16))
  let was := s.storeOk
  let s := s.setFld .thmState 0 0 10 1 (b2n now)
  if was ∧ !now then
    match s.wdn.cmd with
    | some c => if c.op = 1 then ((s.storeRefused 0).structFail 0x11 3 0xFFFF).structEnd 3 0x11 else s
    | none => s
  else if was ∨ !now then s
  else
    let s := match s.wdn.statusHeld with
      | some r => { s with flash := s.flash.putRec r, wdn := { s.wdn with statusHeld := none } }
      | none => s
    let s := s.onBus fun b => { b with mx := { b.mx with stored := s.wdn.trainHeld.foldl addSet b.mx.stored } }
    s.setWdn { s.wdn with trainHeld := [] }

/-! ### Levels and steps (R545 to R548) -/

/-- GRACE begins (R545). -/
def State.grace (s : State) : State :=
  let s := (s.thmLevel 1).setWdn { (s.thmLevel 1).wdn with graceTick := s.ticks, peak := s.effTemp }
  s.emit 0x3301 0 1 (pay [s.fld .thmTemp 0 0 0 16, s.hottest.getD 0, s.thmF 1 0 16])

/-- The step changes: ENFORCE_STEP, its decision record, and T on every head (R546, R547). A step up gives up rank 6 where it sheds layers
and rank 7 elsewhere, for rank 5 (spec/01 R27, R28) (DEDUCED, log 64). -/
def State.putStep (s : State) (n : Nat) : State :=
  let old := s.thmStep
  let s := if old < n then s.giveUp 0x33 0 5 (if 3 ≤ n ∧ n ≤ 17 then 6 else 7) 0x3302 none else s
  let s := s.setFld .thmState 0 0 3 5 n
  let s := forEach s.plan.heads (fun e s => s.setFld .composeStatus e.head 0 14 4 (thermalRank n)) s
  s.emit 0x3302 0 1 (pay [old, n, s.fld .thmTemp 0 0 0 16])

/-- What a step stops (R546): running instances it covers leave ON with CAUSE 3, starts it covers fail (R548). -/
def State.stepStops (s : State) (n : Nat) : State :=
  let stop (cap i : Nat) (s : State) : State :=
    if !s.thmCovers n cap i then s
    else if s.fnState cap i = 2 then s.leave cap i 3
    else if s.fnState cap i = 1 then s.onBus fun b => b.startFailed cap i 0xF0
    else s
  let s := forEach (s.plan.insts 0x15) (fun i s => stop 0x15 i s) s
  let s := forEach (s.plan.insts 0x11) (fun i s => stop 0x11 i s) s
  forEach (s.plan.insts 0x14) (fun i s => stop 0x14 i s) s

/-- A further step applies (DEDUCED, log 64). -/
def State.enforce (s : State) : State :=
  let n := s.thmStep + 1
  let s := (s.putStep n).stepStops n
  s.setWdn { s.wdn with stepTick := s.ticks, lowTick := none }

/-- What a reading does to the level: GRACE from NORMAL, the timers of ENFORCING, the timers of the fail-safe, CRIT (R545 to R552) (DEDUCED, log 64). -/
def State.judgeLevel (s : State) : State :=
  let t := s.effTemp
  let now := s.ticks
  let w := s.wdn
  let keep (on : Bool) (old : Option Nat) : Option Nat := if on then some (old.getD now) else none
  let hot : Bool := decide (s.critTemp ≤ t)
  let newly : Bool := hot && w.critTick.isNone
  let w := { w with critTick := keep hot w.critTick,
                    lowTick := keep (s.level == 2 && decide (t ≤ s.warnTemp - s.hystTemp)) w.lowTick,
                    coolTick := keep (decide (3 ≤ s.level) && decide (s.tempMax ≤ 4 * (s.thmF 3 8 8 : Int))) w.coolTick,
                    stepTick := if t < s.warnTemp then now else w.stepTick,
                    peak := if s.level = 1 ∨ s.level = 2 then max w.peak t else w.peak }
  let s := s.setWdn w
  if newly then s.failSafe 1
  else if s.level = 0 ∧ s.warnTemp ≤ t ∧ s.wdn.waitStep ≠ 1 ∧ s.wdn.waitStep ≠ 2 then s.grace
  else s

/-! ### Start-up (R537 steps 2 and 3, R539, R541) -/

/-- The first reading after a reset sets the band and applies the start hold. -/
def State.startBand (s : State) : State :=
  if s.wdn.waitStep ≠ 1 then s
  else
    let t := s.tempMax
    let s := s.setFld .thmState 0 0 8 2 (if t < 0 then 0 else if t ≤ 280 then 1 else 2)
    if s.warnTemp ≤ t then
      ((s.setFld .thmState 0 0 12 1 1).setWdn { s.wdn with waitStep := 2, waitTick := s.ticks }).emit 0x330B 0 1
        (pay [s.fld .thmTemp 0 0 0 16])
    else s.setWdn { s.wdn with waitStep := 3, waitTick := s.ticks }

/-- START_HOLD_RELEASE (R541). -/
def State.holdRelease (s : State) : State :=
  if s.wdn.waitStep = 2 ∧ s.tempMax < s.warnTemp - s.hystTemp then
    (s.setFld .thmState 0 0 12 1 0).setWdn { s.wdn with waitStep := 3, waitTick := s.ticks }
  else s

/-- THM_RESET.RECOVERIES: those of the last 3,600 s (R552). -/
def State.showRecoveries (s : State) : State :=
  s.setFld .thmReset 0 0 8 8 (s.wdn.recoveries.filter fun t => decide (s.ticks < t + 3600 * tickS)).length

/-- SENSOR_READING: all 35 sensors, in quarters of a degree, `none` where one gives no reading: TS00 to TS31, TSW, the two of the warden die (DEDUCED, log 64). -/
def State.sensorReading (s : State) (ts : List (Option Int)) : State :=
  let first : Bool := s.wdn.sensTick.isEmpty
  let regs : List Word := [s.reg .thmXLevels 0 0, s.reg .thmXTimes 0 0, s.reg .thmXRelease 0 0, s.reg .thmXRecover 0 0, s.reg .thmXWear 0 0]
  let s := s.setWdn { s.wdn with force := regs }
  let s := forEach ((List.range 35).zip ts) (fun e s => s.takeSensor e.1 e.2) s
  let s := (s.judgeSensors).showTemps first
  let s := s.storeRange.vddShow.showRecoveries
  let s := s.setFld .thmState 0 0 11 1 (b2n (decide (105 ≤ max (s.stackTemp 0) (s.stackTemp 1))))
  let s := if s.fabricUp then s.setWdn { s.wdn with tempSum := s.wdn.tempSum + s.tempMax, tempCount := s.wdn.tempCount + 1 } else s
  s.judgeLevel.startBand

/-- SENSOR_TIMEOUT: sensor n has given no reading for 5 ms (R543). -/
def State.sensorTimeout (s : State) (n : Nat) : State :=
  if n < 35 ∧ (assocGet s.wdn.sensTick n).getD s.wdn.resetTick + 5 * tickMs ≤ s.ticks then (s.judgeSensors).showTemps false else s

/-- GRACE_END (R545). -/
def State.graceEnd (s : State) : State :=
  if s.level ≠ 1 ∨ s.ticks < s.wdn.graceTick + s.thmF 1 0 16 * tickMs then s
  else if s.effTemp < s.warnTemp then s.thmLevel 0
  else (s.thmLevel 2).enforce

/-- ENFORCE_STEP (R546). -/
def State.enforceStep (s : State) : State :=
  if s.level = 2 ∧ s.thmStep < 18 ∧ s.warnTemp ≤ s.effTemp ∧ s.wdn.stepTick + s.thmF 1 16 16 * tickMs ≤ s.ticks then s.enforce else s

/-- ENFORCE_RELEASE (R547). -/
def State.enforceRelease (s : State) : State :=
  match s.wdn.lowTick with
  | none => s
  | some t0 =>
    if s.level ≠ 2 ∨ s.ticks < t0 + s.thmF 2 16 16 * tickS then s
    else
      let s := (s.putStep (s.thmStep - 1)).setWdn { s.wdn with lowTick := some s.ticks }
      if s.thmStep = 0 then (s.thmLevel 0).emit 0x3303 0 0 (pay [code 16 s.wdn.peak]) else s

/-! ### The fail-safe, CUTOFF, recovery (R549 to R554) -/

/-- CUTOFF (R551). -/
def State.cutoff (s : State) : State :=
  let long : Bool := match s.wdn.critTick with | some t => decide (t + 5 * tickS ≤ s.ticks) | none => false
  if s.level = 3 ∧ (s.critTemp + 20 ≤ s.tempMax ∨ long) then
    ((s.thmLevel 4).emit 0x3305 0 2 (pay [s.fld .thmTemp 0 0 0 16])).settle.holdDie
  else s

/-- AUTO_RECOVERY (R552). -/
def State.autoRecovery (s : State) : State :=
  let recent := s.wdn.recoveries.filter fun t => decide (s.ticks < t + 3600 * tickS)
  match s.wdn.coolTick with
  | none => s
  | some t0 =>
    if s.level < 3 ∨ s.wdn.cause ≠ 1 ∨ s.thmF 3 0 1 = 0 ∨ s.ticks < t0 + s.thmF 3 16 16 * tickS ∨ 3 ≤ recent.length then s
    else
      let w := { s.wdn with recoveries := recent ++ [s.ticks], recovered := some s.wdn.cause, cause := 0, coolTick := none, lowTick := none }
      let s := ((s.thmLevel 0).setFld .thmState 0 0 3 5 0).setWdn { w with alertLevel := false }
      (s.resetTo 2 5 s.wdn.straps).setFld .thmReset 0 0 8 8 (recent.length + 1)

/-- REFCLK_LOSS: fault 0x04, and the timing core is unsound (R554, spec/15 R487). -/
def State.refclkLoss (s : State) : State := ((if s.fabricUp then s.unsound 1 else s)).failSafe 4

/-- WCLK_LOSS: fault 0x05. -/
def State.wclkLoss (s : State) : State := s.failSafe 5

/-- SUPPLY_OUT_OF_WINDOW: fault 0x06. `rail` numbers the table of spec/18 R567 from 0; the rails before VDD_WDN are those of the fabric, and
one of them holds the die in reset (R554, R569), but for the witness island's, rail 1, whose power-good falls (spec/09 R299). At a fault of
VDD_FAB the witness reports the loss of its comparison stream first, and every out-port goes to SAFE (spec/01 R10, spec/09 R282) (DEDUCED,
log 64). -/
def State.supplyOut (s : State) (rail : Nat) : State :=
  if 12 ≤ rail then s
  else
    let s := if rail = 0 ∧ s.fabricUp then s.islandSafeBy 0x3304 else if rail = 1 then s.islandLost 0 else s
    let s := s.failSafe 6
    if rail < 10 ∧ rail ≠ 1 then s.settle.holdDie else s

/-- WARDEN_RAIL_LOSS (spec/18 R569, R556): the module is unpowered, FAULT_N released. -/
def State.wardenRailLoss (s : State) : State :=
  let t := { s.send (.pins 0) with powered := false, fabricUp := false }
  t.faultPin s

/-- AVS_READBACK_FAULT: fault 0x06 (spec/18 R570). -/
def State.avsFault (s : State) : State := s.failSafe 6

/-! ### VDD_FAB (spec/01 R14 to R17) -/

/-- VDD_FAB_REQUEST_RAISE: completion-time monitor `monitor` has fallen inside its guard (DEDUCED, log 64). -/
def State.vddRaise (s : State) (monitor : Nat) : State :=
  let mv := s.fld .thmVdd 0 0 0 10
  if !s.fabricUp then s
  else if 850 ≤ mv then
    if s.fld .thmWear 0 0 16 1 = 1 then s
    else (s.setFld .thmWear 0 0 16 1 1).emit 0x330A 0 2 (pay [monitor, mv])
  else if s.warnTemp ≤ s.tempMax then s
  else s.vddRequest (min 850 (mv + 5))

/-- VDD_FAB_REQUEST_LOWER: 100 ms have passed since the last request in either direction, that of the start included, and every monitor
would still keep its guard (DESIGN CHOICE, log 74). -/
def State.vddLower (s : State) : State :=
  let mv := s.fld .thmVdd 0 0 0 10
  if !s.fabricUp ∨ s.ticks < s.wdn.vddTick + 100 * tickMs ∨ mv ≤ 680 then s else s.vddRequest (max 680 (mv - 5))

/-! ### The life record (R558, R559) -/

/-- 2^((T − 85) / 10) for T = q / 4 °C, in units of 2^-32: the greatest x with x^40 ≤ 2^(1280 + q − 340). -/
def lifeGain (q : Int) : Nat :=
  let e := (940 + q).toNat
  (List.range 60).foldr (fun i x => if (x + 2 ^ i) ^ 40 ≤ 2 ^ e then x + 2 ^ i else x) 0

/-- The life record is written with what was held, or held (R553). -/
def State.writeLife (s : State) : State :=
  if s.storeOk then
    let f := s.flash
    let w := s.wdn
    ({ s with flash := { f with lifeHours := f.lifeHours + w.lifeHeld.1, lifeEq := f.lifeEq + w.lifeHeld.2, wear := f.wear ++ w.wearHeld },
              wdn := { w with lifeHeld := (0, 0), wearHeld := [] } }).showLife
  else (s.storeRefused 5).showLife

/-- LIFE_HOUR (R558) (DEDUCED, log 64). -/
def State.lifeHour (s : State) : State :=
  if !s.fabricUp ∨ s.ticks < s.wdn.hourTick + 3600 * tickS then s
  else
    let mean := if s.wdn.tempCount = 0 then s.tempMax else s.wdn.tempSum / (s.wdn.tempCount : Int)
    let held := (s.wdn.lifeHeld.1 + 1, s.wdn.lifeHeld.2 + lifeGain mean)
    (s.setWdn { s.wdn with hourTick := s.wdn.hourTick + 3600 * tickS, tempSum := 0, tempCount := 0, lifeHeld := held }).writeLife

/-- WEAR_DAY (R559, R540): WEAR_WARN when the margin falls to WARN_MV against the last record of the same band (DEDUCED, log 64). -/
def State.wearDay (s : State) : State :=
  if !s.fabricUp ∨ s.ticks < s.wdn.dayTick + 86400 * tickS then s
  else
    let (mv, t) := s.wdn.dayMax
    let band := s.fld .thmState 0 0 8 2
    let margin := 850 - mv
    let last := ((s.flash.wear ++ s.wdn.wearHeld).filter fun w => w.2.2 == band).getLast?
    let warn : Bool := decide (margin ≤ s.thmF 4 0 8) && (match last with | some w => decide (s.thmF 4 0 8 < 850 - w.1) | none => true)
    let s := s.setWdn { s.wdn with dayTick := s.wdn.dayTick + 86400 * tickS, wearHeld := s.wdn.wearHeld ++ [(mv, t, band)],
                                   dayMax := (s.fld .thmVdd 0 0 0 10, s.tempMax) }
    let s := s.writeLife
    if warn then s.emit 0x3309 0 1 (pay [margin, code 16 t, band]) else s

/-! ### SMBus (spec/18 R574) -/

/-- An answer of the SMBus target. -/
def State.smb (s : State) (ack : Bool) (d : List Byte) : State := s.send (.smbus ack d)

/-- Block Write 0x01: the pointer (DEDUCED, log 60). -/
def State.smbPointer (s : State) (off : Nat) (pec : Bool) : State :=
  if pec then (s.setWdn { s.wdn with pointer := off % 2 ^ 32 }).smb true [] else s.smb false []

/-- Block Read 0x02: the register at the pointer; where none stands, 0 (spec/00 R4) (DEDUCED, log 60). -/
def State.smbRead (s : State) : State :=
  let v : Word := match findReg 0x33 false s.wdn.pointer with
    | some (row, j) => if row.acc = .wo then 0 else match row.reg with | .fn r => s.reg r 0 j | .bus r => s.bus.reg r 0 j
    | none => 0
  (s.setWdn { s.wdn with pointer := (s.wdn.pointer + 4) % 2 ^ 32 }).smb true (le 4 v.toNat)

/-- Block Write 0x03: only THM_CMD accepts one, under R560 (DEDUCED, log 60). -/
def State.smbWrite (s : State) (v : Word) (pec : Bool) : State :=
  if !pec ∨ s.wdn.pointer ≠ 0x1C then s.smb false []
  else if bf v 16 16 ≠ 0x7264 ∨ (bf v 0 8 ≠ 1 ∧ bf v 0 8 ≠ 2) then s.smb true []
  else (s.smb true []).writtenReset (bf v 0 8) 2

/-- Write Byte 0x10: the reset command (R532) (DEDUCED, log 61). -/
def State.smbReset (s : State) (data : Nat) (pec : Bool) : State :=
  if pec ∧ data = 0x72 then (s.smb true []).writtenReset 1 3 else s.smb false []

/-- The Alert Response Address is read: a target that holds SMB_ALERT_N low answers with its address (R573) and releases it. -/
def State.smbAlert (s : State) : State :=
  if s.wdn.alertFault ∨ s.wdn.alertLevel then
    let a := 0x58 + 2 * (s.wdn.straps / 4 % 2) + s.wdn.straps / 2 % 2
    (s.setWdn { s.wdn with alertFault := false, alertLevel := false }).smb true (le 1 (2 * a))
  else s.smb false []

/-! ### A handshake completion timeout (spec/01 R13) -/

/-- A decoder core is cut off (spec/16 R509): it decodes the access unit again, or after a second timeout in a row is out of service and its streams
are rebound (DEDUCED, log 65). -/
def State.rebind (s : State) (n : Nat) : State :=
  match s.plan.stream n with
  | none => s
  | some e =>
    match s.pickCore e.lumaKps with
    | none => s.leave 0x11 n 2
    | some c =>
      let left := s.coreLeft c - e.lumaKps
      ((s.codingRec 0x11 n 1 c 0 0 s.now).setFld .decStatus n 0 2 5 c).emit 0x1106 n 0 (pay [c, left])

/-- A core's handshake times out. Out of service, it leaves its entry waiting for the core its stream is bound to next, or aborted with the stream
(spec/07 R205, R219) (DEDUCED, log 65). -/
def State.coreTimeout (s : State) (c : Nat) : State :=
  match s.core c with
  | none => s
  | some x =>
    if !s.coreBad.contains c then
      { s with coreBad := addSet s.coreBad c }.codingRec 0x11 x.stream 6 c x.alive x.tag s.now
    else
      let ns := s.streamsOf c
      let r := s.fld .decRing x.stream 0 0 9
      let s := { s.setCore c none with coreBad := delSet s.coreBad c, coreOut := addSet s.coreOut c }
      let s := if x.culled then s else s.setBufState x.stream x.buf 0
      let s := s.fault 0x11 x.stream 0x21
      let s := forEach ns (fun n s => s.rebind n) s
      if s.isOn 0x11 x.stream then s.onBus fun b => b.setPhase r x.k .ready else s.complete r x.k stAborted 0

/-- A journal write is cut off: its records are lost, and a GAP record and GAP_BEFORE follow (spec/16 R509). A checkpoint in
progress is not sound (R505) (DEDUCED, log 65). -/
def State.journalCut (s : State) : State :=
  let b := s.bus
  let s := match s.jrn.run with
    | some c => s.setJrn { s.jrn with run := some { c with sound := false } }
    | none => s
  match b.jbuf with
  | [] => s
  | r :: rest =>
    s.onBus fun b => { b with jbuf := [], jgap := true, jlost := b.jlost + rest.length + 1, jlostFirst := if b.jlost = 0 then r.seq else b.jlostFirst }

/-- What spoke port p was receiving is lost as its elastic buffer overflows (R12): the picture of its source, its panel's cycle, tandem data,
which is sent again (spec/16 R514), or a packet of the back lane or of no item, which counts as cullet; the items whose packets wait in the receive buffer
come in doubt too (R13) (DEDUCED, log 65). -/
def State.rxOverflow (s : State) (p : Nat) : State :=
  let s := match s.portSource p with
    | some e =>
      let x := s.src e.source
      (match x.fill with
       | some f => s.setSrc e.source { x with fill := some { f with fault := true }, waitBad := (x.waiting.map Pkt.alive).eraseDups }
       | none =>
         if x.waiting.isEmpty then s.linkCull p 0 0 else s.setSrc e.source { x with waitBad := (x.waiting.map Pkt.alive).eraseDups })
    | none => if s.plan.role p = 2 then s.linkCull p 0 0 else s
  let s := match s.plan.panels.find? fun e => e.port == p with
    | some e => if s.panState e.panel ≠ 0 then s.panDoubt e.panel 4 0 0 4 else s
    | none => s
  match s.plan.role p with
  | 1 => s.linkCull p 0 0
  | 3 => forEach (s.tnd.rxLast.map Prod.fst) (fun q s => s.ack q true) s
  | _ => s

/-- Source n is written by a spoke port. -/
def State.portSourceOf (s : State) (n : Nat) : Bool :=
  match s.plan.source n with
  | some e => e.kind == 0 || e.kind == 1
  | none => false

/-- HANDSHAKE_COMPLETION_TIMEOUT: the stage that went unacknowledged, and what follows for the items passing through it. A writer whose
picture is formed within one command, as the compression engine's, has its timeout told before it (spec/06 R179, R188) (DEDUCED, log 65). -/
def State.handshake (s : State) (g : Stage) : State :=
  match g with
  | .column h c unit => s.columnDone h c unit true false
  | .fill n =>
    match (s.src n).fill with
    | some f => s.setSrc n { s.src n with fill := some { f with fault := true } }
    | none => if s.portSourceOf n then s else s.setSrc n { s.src n with engFault := true }
  | .writeBack n => s.wbDrop n 1
  | .decoder c => s.coreTimeout c
  | .encoder c => s.encAbandon c
  | .panel p => if s.panState p ≠ 0 then s.panDoubt p 4 0 0 4 else s
  | .tandem => forEach s.tnd.replay (fun r s => s.sendItem s.dataPort r.typ 2 r.stream r.alive s.now r.payload) s
  | .receive p => s.rxOverflow p
  | .command r k =>
    match s.entry r k with
    | some e =>
      let cap := e.opcode / 256
      if e.phase = .running then s.stop (if followsHead cap then 0x14 else cap) e.inst 2 else s
    | none => s
  | .journal => s.journalCut
  | .timing => (s.unsound 0).failSafe 7
  | .engine => s.journalCut.failSafe 7
  | .memory => s.failSafe 7
  | .tiles => s.failSafe 7
  | .mailbox => s.failSafe 7

def execSensorReading (ts : List (Option Int)) (s : State) : Answer := s.warden fun s => s.sensorReading ts
def execSensorTimeout (n : Nat) (s : State) : Answer := s.warden fun s => s.sensorTimeout n
def execStartHoldRelease (s : State) : Answer := s.warden State.holdRelease
def execGraceEnd (s : State) : Answer := s.warden State.graceEnd
def execEnforceStep (s : State) : Answer := s.warden State.enforceStep
def execEnforceRelease (s : State) : Answer := s.warden State.enforceRelease
def execCutoff (s : State) : Answer := s.warden State.cutoff
def execAutoRecovery (s : State) : Answer := s.warden State.autoRecovery
def execRefclkLoss (s : State) : Answer := s.warden State.refclkLoss
def execWclkLoss (s : State) : Answer := s.warden State.wclkLoss
def execSupplyOutOfWindow (rail : Nat) (s : State) : Answer := s.warden fun s => s.supplyOut rail
def execWardenRailLoss (s : State) : Answer := .next s.wardenRailLoss
def execAvsReadbackFault (s : State) : Answer := s.warden State.avsFault
def execVddFabRequestRaise (monitor : Nat) (s : State) : Answer := s.warden fun s => s.vddRaise monitor
def execVddFabRequestLower (s : State) : Answer := s.warden State.vddLower
def execLifeHour (s : State) : Answer := s.warden State.lifeHour
def execWearDay (s : State) : Answer := s.warden State.wearDay
def execSmbusSetPointer (off : Nat) (pec : Bool) (s : State) : Answer := s.warden fun s => s.smbPointer off pec
def execSmbusRead (s : State) : Answer := s.warden State.smbRead
def execSmbusWrite (v : Word) (pec : Bool) (s : State) : Answer := s.warden fun s => s.smbWrite v pec
def execSmbusReset (data : Nat) (pec : Bool) (s : State) : Answer := s.warden fun s => s.smbReset data pec
def execSmbusAlertResponse (s : State) : Answer := s.warden State.smbAlert
def execHandshakeCompletionTimeout (g : Stage) (s : State) : Answer := s.fabric fun s => s.handshake g

end Sys2Proof.Machine
end

