-- ==== Sys2Proof/Machine/Structure.lean ====
section
/-! DEFINITION. Structure commands (spec/02 R54, R58 to R63, R69 to R74, R76, R578): slots, keys, and the reload of a zone. -/

namespace Sys2Proof.Machine

/-! ### Commands -/

/-- A command is taken: BUSY, with its port and OP; REFUSED stays (the STRUCT_STATUS table). -/
def State.structTake (s : State) (port op : Nat) : State :=
  let keep := s.fld .structStatus 0 0 4 1
  s.setReg .structStatus 0 0 (w32 (1 + port * 4 + keep * 16 + op * 65536))

/-- The staged container, read by the warden as master WARDEN (spec/04 R117); `none` where it does not lie in the staging partition (R76). What
the unit refuses or memory cannot give reads as ones (spec/04 R124, spec/05 R153). -/
def State.staged (s : State) : State × Option (List Byte) :=
  let a := s.pair .structSrcLo .structSrcHi 0 0
  let n := (s.reg .structSrcLen 0 0).toNat
  if 0x08000000 < a + n then (s, none)
  else
    match s.load 152 a n with
    | (s, .ok d) => (s, some d)
    | (s, _) => (s, some (List.replicate n 0xFF))

/-- A command fails on a staged container (DEDUCED, log 66). -/
def State.structFails (s : State) (reason rec : Nat) : State := (s.structFail reason 3 rec).structEnd 3 reason

/-- The slot the device runs from: 0 GOLDEN, 1 SLOT_A, 2 SLOT_B, 3 none. -/
def State.runSlot (s : State) : Nat := s.wdn.slot

/-- WRITE_SLOT (R54, R58, R59) (DEDUCED, log 66). -/
def State.writeSlot (s : State) (k : Nat) : State :=
  if k = s.runSlot ∨ (k = 0 ∧ s.lifecycle = 1) then s.structFails 0x12 0xFFFF
  else if !s.storeOk then (s.storeRefused 0).structFails 0x11 0xFFFF
  else
    match s.staged with
    | (s, none) => s.structFails 0x10 0xFFFF
    | (s, some d) =>
      match firstFailure [checkForm d, checkTrust s.otp s.lifecycle d, failIf ((byteAt d 61).testBit 1) 7 0xFFFF] with
      | some f => s.structFails f.1 f.2
      | none =>
        let s := { s with flash := { s.flash with slots := s.flash.slots.set k [] } }
        let s := s.putSlots fun r => { r with states := r.states.set k 0, seqs := r.seqs.set k 0, hashes := r.hashes.set k [] }
        s.setWdn { s.wdn with cmd := some { op := 1, arg := k, data := d.take (leAt d 8 4) } }

/-- SLOT_WRITTEN: the write ends; `same` when the slot reads back equal to the staged container (R54). -/
def State.slotWritten (s : State) (same : Bool) : State :=
  match s.wdn.cmd with
  | none => s
  | some c =>
    if c.op ≠ 1 then s
    else if !same then s.structFails 0x13 0xFFFF
    else
      let s := { s with flash := { s.flash with slots := s.flash.slots.set c.arg c.data } }
      let s := s.putSlots fun r => { r with states := r.states.set c.arg 1, seqs := r.seqs.set c.arg (leAt c.data 64 4),
                                            hashes := r.hashes.set c.arg (slice c.data 12 48) }
      (s.structEnd 2 0).emit 0x3406 0 0 (pay [c.arg, 0, leAt c.data 12 4, leAt c.data 16 4])

/-- SET_PREFERRED (R54, R578). -/
def State.setPreferred (s : State) (k : Nat) : State :=
  if s.slotState k ≠ 1 ∧ s.slotState k ≠ 3 then s.structEnd 3 0x12
  else (s.putSlots fun r => { r with states := r.states.set k 2, preferred := k, trialBoots := 0 }).structEnd 2 0

/-- CONFIRM (R54, R578). -/
def State.confirmSlot (s : State) : State :=
  if s.runSlot = 3 ∨ s.slotState s.runSlot ≠ 2 then s.structEnd 3 0x12
  else
    let s := s.setSlotState s.runSlot 3
    (s.setWdn { s.wdn with confirm := none }).structEnd 2 0

/-- CONFIRM_TIMEOUT (R54, R534). -/
def State.confirmTimeout (s : State) : State :=
  match s.wdn.confirm with
  | none => s
  | some (k, t0) =>
    if s.ticks < t0 + s.fld .structXConfirm 0 0 0 16 * tickS then s
    else
      let s := s.setWdn { s.wdn with confirm := none }
      if s.slotState k = 2 then (s.setSlotState k 4).emit 0x3407 0 1 (pay (k :: 0 :: s.hash8)) else s

/-- RAISE_FLOOR (R63) (DEDUCED, log 66). A GOLDEN slot with no container has no SEQUENCE, so it allows no floor above 0 (DESIGN CHOICE, log 74). -/
def State.raiseFloor (s : State) : State :=
  let seq := (s.reg .structSeq 0 0).toNat
  if s.runSlot = 3 ∨ s.slotState s.runSlot ≠ 3 ∨ leAt (s.flash.slots.getD 0 []) 64 4 < seq then s.structEnd 3 0x12
  else
    let s := { s with otp := { s.otp with floor := max s.otp.floor seq } }
    s.identity.structEnd 2 0

/-- VERIFY, ZONE_RELOAD and REVOKE_KEY read the staged container, and PROVISION_KEY the staged hash; the checks follow (DEDUCED, log 66). -/
def State.structRead (s : State) (op arg : Nat) : State :=
  let r : State × Option (List Byte) := if op = 8 then
      (match s.load 152 0 48 with | (s, .ok d) => (s, some d) | (s, _) => (s, some (List.replicate 48 0xFF)))
    else s.staged
  match r.2 with
  | none => r.1.structFails 0x10 0xFFFF
  | some d => r.1.setWdn { r.1.wdn with cmd := some { op := op, arg := arg, data := d } }

/-- The ARG of an OP is out of its range (R578). -/
def structRange (op arg : Nat) : Bool :=
  match op with
  | 1 => decide (2 < arg)
  | 2 => arg != 1 && arg != 2
  | 3 => false
  | 4 => decide (7 < arg)
  | 5 => false
  | 6 => decide (3 < arg)
  | 7 => false
  | 8 => decide (3 < arg)
  | _ => true

/-- A write of STRUCT_CMD (R74, R578) (DEDUCED, log 66). -/
def State.structCmd (s : State) (port op arg : Nat) : State :=
  if s.structBusy then s.setFld .structStatus 0 0 4 1 1
  else
    let s := s.structTake port op
    if structRange op arg then s.structEnd 3 9
    else
      match op with
      | 1 => s.writeSlot arg
      | 2 => s.setPreferred arg
      | 3 => s.confirmSlot
      | 4 => if s.critTemp ≤ s.effTemp then s.structFails 0x11 0xFFFF else s.structRead 4 arg
      | 5 => s.structRead 5 arg
      | 6 => s.structRead 6 arg
      | 7 => s.raiseFloor
      | _ => if s.lifecycle ≠ 0 ∨ !(s.otp.hashes.getD arg []).isEmpty then s.structFails 0x12 0xFFFF else s.structRead 8 arg

/-- A host writes STRUCT_CMD. -/
def State.structCmdWrite (s : State) (port : Nat) (v : Word) : State :=
  s.hostWrite port 0x34 0 0 0x40 v fun s => s.structCmd port (bf v 0 8) (bf v 8 4)

/-! ### A zone reload: what may differ (R69, R147) -/

/-- Every entry of a list outside zone z stands in both. -/
def sameOutside {α : Type} [DecidableEq α] (z : Nat) (zone : α → Nat) (a b : List α) : Bool :=
  let out (l : List α) : List α := l.filter fun e => zone e != z
  (out a).all (fun e => b.contains e) && (out b).all fun e => a.contains e

/-- The same for lists whose entries stand at their index. -/
def sameAt {α : Type} [DecidableEq α] (z : Nat) (zone : α → Nat) (a b : List α) : Bool :=
  a.length == b.length && (a.zip b).all fun e => e.1 == e.2 || (zone e.1 == z && zone e.2 == z)

/-- Every plan entry outside zone z is identical (R69). A stream's zone is its source's (DEDUCED, log 67). -/
def Plan.sameOutside (z : Nat) (a b : Plan) : Bool :=
  let st (p : Plan) (e : StreamEnt) : Nat := ((p.source e.source).map SrcEnt.zone).getD 0xFF
  let mask (i : Nat) : Bool := a.encMask.testBit i == b.encMask.testBit i ||
    (((a.encs[i]?).map EncEnt.zone).getD 0xFF == z && ((b.encs[i]?).map EncEnt.zone).getD 0xFF == z)
  sameAt z PortEnt.zone a.ports b.ports && Machine.sameOutside z HeadEnt.zone a.heads b.heads &&
  sameAt z CadEnt.zone a.cadence b.cadence && sameAt z UnitEnt.zone a.units b.units &&
  Machine.sameOutside z SrcEnt.zone a.sources b.sources && a.decMask == b.decMask &&
  (a.streams.filter fun e => st a e != z).all (fun e => b.streams.contains e) &&
  (b.streams.filter fun e => st b e != z).all (fun e => a.streams.contains e) &&
  (List.range 8).all mask && sameAt z EncEnt.zone a.encs b.encs && Machine.sameOutside z PartEnt.zone a.parts b.parts &&
  sameAt z RingEnt.zone a.rings b.rings && a.access == b.access && a.freshLimit == b.freshLimit && a.freshFloor == b.freshFloor &&
  a.freshCeiling == b.freshCeiling && a.staleColour == b.staleColour && a.degradedColour == b.degradedColour && a.fresh == b.fresh &&
  Machine.sameOutside z PanelEnt.zone a.panels b.panels && a.tandem == b.tandem && a.zones == b.zones

/-- The partitions of the zone keep BASE, SIZE and STACKS (R147). -/
def Plan.samePlaces (z : Nat) (a b : Plan) : Bool :=
  let place (p : Plan) : List (Nat × Nat × Nat × Nat) :=
    (p.parts.filter fun e => e.zone == z).map fun e => (e.part, e.base, e.size, e.stks)
  (place a).all (fun e => (place b).contains e) && (place b).all fun e => (place a).contains e

/-- The zone may be reloaded in both structures. -/
def Plan.reloads (p : Plan) (z : Nat) : Bool := p.zones.any fun e => e.zone == z && e.allowed

/-! ### Tile table runs (spec/09 R284) -/

/-- Where a head's run stands, by its register: first entry and length. -/
def State.tileRun (s : State) (p : Plan) (h : Nat) : Nat × Nat :=
  (s.fld .freshCfg h 0 0 17, ((p.head h).map fun e => tileCount e.maxWidth e.maxHeight).getD 0)

/-- Take n entries from the first free run that has them. -/
def takeRun (n : Nat) : List (Nat × Nat) → Option (Nat × List (Nat × Nat))
  | [] => none
  | f :: rest =>
    if n ≤ f.2 then some (f.1, (f.1 + n, f.2 - n) :: rest)
    else (takeRun n rest).map fun r => (r.1, f :: r.2)

/-- Join a run with those it touches, in a list by first entry. -/
def joinRuns : List (Nat × Nat) → List (Nat × Nat)
  | [] => []
  | a :: l => match joinRuns l with
    | [] => [a]
    | b :: m => if a.1 + a.2 = b.1 then (a.1, a.2 + b.2) :: m else a :: b :: m

/-- Insert a run by its first entry. -/
def insertRun (r : Nat × Nat) : List (Nat × Nat) → List (Nat × Nat)
  | [] => [r]
  | a :: l => if r.1 ≤ a.1 then r :: a :: l else a :: insertRun r l

/-- The new runs of the zone's heads, in head order, within the space that the old ones held: (head, first entry), or nothing where
one does not fit (DEDUCED, log 67). -/
def State.zoneRuns (s : State) (z : Nat) (p q : Plan) : Option (List (Nat × Nat)) :=
  let old := (p.heads.filter fun e => e.zone == z).map fun e => s.tileRun p e.head
  let free := joinRuns (old.foldr insertRun [])
  let heads := (List.range 48).filterMap fun h => (q.head h).bind fun e => if e.zone = z then some e else none
  (heads.foldl (fun (acc : Option (List (Nat × Nat) × List (Nat × Nat))) e => acc.bind fun a =>
    (takeRun (tileCount e.maxWidth e.maxHeight) a.2).map fun r => (a.1 ++ [(e.head, r.1)], r.2)) (some ([], free))).map Prod.fst

/-- The checks of R69 after those of R64. -/
def State.zoneCheck (s : State) (z : Nat) (q : Plan) : Failure :=
  let p := s.plan
  firstFailure [
    failIf (!p.reloads z || !q.reloads z || !Plan.sameOutside z p q) 0x0B 0xFFFF,
    failIf (!Plan.samePlaces z p q) 0x0A 0xFFFF,
    failIf (s.zoneRuns z p q).isNone 0x0C 0xFFFF]

/-! ### The steps of R70 -/

/-- Instances of the zone. -/
def State.inZone (s : State) (cap z : Nat) : List Nat := (s.plan.insts cap).filter fun i => s.plan.zoneOf cap i == z

/-- An instance of the zone leaves ON or STARTING with CAUSE 1 (DEDUCED, log 67). -/
def State.zoneStop (s : State) (cap z : Nat) : State :=
  forEach (s.inZone cap z) (fun i s =>
    if s.fnState cap i = 2 ∨ s.fnState cap i = 1 then
      (s.leave cap i 1).onBus fun b => b.setFld .fnCtl cap i 8 4 1
    else s) s

/-- Every function that the reload stops has reached OFF. -/
def State.zoneQuiet (s : State) (z : Nat) : Bool :=
  [0x14, 0x10, 0x21, 0x11, 0x15, 0x02].all fun cap => (s.inZone cap z).all fun i => s.fnState cap i == 0

/-- The frame period of the slowest head of the zone, in ticks, rounded up. -/
def State.zonePeriod (s : State) (z : Nat) : Nat :=
  ((s.plan.heads.filter fun e => e.zone == z).map fun e =>
    match (s.reg .grpRate 0 e.group).toNat with
    | 0 => 0
    | r => cdiv (framePs r) 5000).foldl max 0

/-- Frames of the drain of step 3. -/
def State.drainFrames (s : State) : Nat := s.fld .structXDrain 0 0 0 4

/-- Step 1 has ended at every head of the zone: step 2. Step 2 ends once the functions are OFF, and the drain of step 3 begins. -/
def State.zoneProgress (s : State) : State :=
  match s.wdn.zone with
  | none => s
  | some z =>
    let s : State := if z.step = 1 ∧ (z.heads.all fun h => !s.isOn 0x14 h) then
        let s := s.zoneRec z.zone 1 0
        let s := ((s.zoneStop 0x11 z.zone).zoneStop 0x15 z.zone).zoneStop 0x02 z.zone
        s.setWdn { s.wdn with zone := some { z with step := 2 } }
      else s
    match s.wdn.zone with
    | none => s
    | some z =>
      if z.step = 2 ∧ s.zoneQuiet z.zone then
        let s := s.zoneRec z.zone 2 0
        s.setWdn { s.wdn with zone := some { z with step := 3, drainTick := s.ticks + s.drainFrames * s.zonePeriod z.zone } }
      else s

/-- A head of the zone at its latch instant sends SAFE and leaves ON (step 1). -/
def State.zoneLatch (s : State) (h : Nat) : State :=
  match s.wdn.zone with
  | none => s
  | some z =>
    if z.step ≠ 1 ∨ !z.heads.contains h then s
    else
      let s := if s.isOn 0x14 h then s.leave 0x14 h 1 else s
      (s.setWdn { s.wdn with zone := some { z with heads := delSet z.heads h } }).zoneProgress

/-- Step 1 begins: in-ports, panels and sources at once, heads at their latch instants. -/
def State.zoneBegin (s : State) (z : Nat) (l : Loaded) : State :=
  let heads := (s.inZone 0x14 z).filter fun h => s.isOn 0x14 h
  let s := (s.setZoneState z 2).setFld .structState 0 0 0 3 3
  let s := s.setWdn { s.wdn with
    zone := some { zone := z, step := 1, plan := l.plan, hash := l.hash, seq := l.seq, image := l.image, heads := heads, drainTick := 0 } }
  let s := forEach ((s.inZone 0x20 z).filter fun p => s.plan.role p == 2) (fun p s => s.creditStop p) s
  let s := forEach ((s.inZone 0x14 z).filter fun h => s.fnState 0x14 h == 1) (fun h s =>
    (s.leave 0x14 h 1).onBus fun b => b.setFld .fnCtl 0x14 h 8 4 1) s
  let s := (s.zoneStop 0x21 z).zoneStop 0x10 z
  s.zoneProgress

/-- ZONE_DRAIN_END (R70 step 3). -/
def State.zoneDrainEnd (s : State) : State :=
  match s.wdn.zone with
  | none => s
  | some z =>
    if z.step ≠ 3 ∨ s.ticks < z.drainTick then s
    else (s.zoneRec z.zone 3 0).setWdn { (s.zoneRec z.zone 3 0).wdn with zone := some { z with step := 4 } }

/-- Values of an instance that the new structure gives otherwise than the old one. -/
def State.putChanges (s : State) (old : Plan) (cap i : Nat) : State :=
  let id := s.wdn.straps % 2
  let was := old.vals id cap i
  forEach ((s.plan.vals id cap i).filter fun v => !was.contains v) (fun v s => s.putVal i v) s

/-- The partitions of the zone: their entries, and their contents where the grain changed (R146, R147; log 2). -/
def State.zoneParts (s : State) (z : Nat) (old : Plan) : State :=
  forEach (s.plan.parts.filter fun e => e.zone == z) (fun e s =>
    let s := forEach e.vals (fun v s => s.putVal 0 v) s
    let inP (a : Nat) : Bool := decide (e.base ≤ a) && decide (a < e.base + e.size)
    if (old.part e.part).any fun q => q.grain != e.grain || (e.zeroAtLoad && (!q.zeroAtLoad || q.base != e.base || q.size != e.size)) then
      s.onBus fun b => { b with mem := b.mem.filter fun c => !inP c.1, wq := b.wq.filter fun w => !inP w.addr,
                                mx := { b.mx with poison := b.mx.poison.filter (fun w => !inP (w * 64)), soft := b.mx.soft.filter fun w => !inP (w * 8) } }
    else s) s

/-- The cadence groups of the zone whose entry changed start afresh (spec/15 R489). -/
def State.zoneGroups (s : State) (z : Nat) (old : Plan) : State :=
  forEach ((List.range 8).filter fun g => old.cadence[g]? != s.plan.cadence[g]? && ((s.plan.cadence[g]?).map CadEnt.zone).getD 0xFF == z)
    (fun g s =>
      let s := (s.putChanges old 0x30 0).setGroup g GroupSt.init
      if (s.plan.cad g).isSome then s.setNext g (s.firstK g s.now 0) else s) s

/-- Ports whose ROLE or RATE changed retrain from the first phase, their commands ABORTED (R391); the others stay trained (R71). -/
def State.zonePorts (s : State) (z : Nat) (old : Plan) : State :=
  forEach ((List.range 64).filter fun p => s.plan.zoneOf 0x20 p == z) (fun p s =>
    let same : Bool := old.role p == s.plan.role p && (old.port p).map PortEnt.rate == (s.plan.port p).map PortEnt.rate
    let s := s.putChanges old 0x20 p
    if same then s
    else if old.role p = 0 then (s.resetInst 0x20 p).startInst 0x20 p
    else
      let s := (s.abortAll 0x20 p).portOff p
      if s.isOn 0x20 p ∧ s.plan.role p ≠ 0 then s.startTraining p false else s) s

/-- An instance of the zone in the new structure: a new one as a load leaves it, an old one with the values that changed (DEDUCED, log 67). -/
def State.zoneInst (s : State) (old : Plan) (cap i : Nat) : State :=
  if old.has cap i then
    let s := s.putChanges old cap i
    if cap = 0x14 then
      let s := (s.putChanges old 0x12 i).putChanges old 0x13 i
      s.setHead i { s.head i with unitsOut := [], unitBad := [] }
    else s
  else
    let s := (s.resetInst cap i).startInst cap i
    if cap = 0x14 then (s.resetInst 0x12 i).resetInst 0x13 i else s

/-- The functions that the reload stopped go to STARTING; a ring's checks follow at once (DEDUCED, log 67). -/
def State.zoneStart (s : State) (cap z : Nat) : State :=
  forEach (s.inZone cap z) (fun i s =>
    let s := if s.fnState cap i = 0 ∧ s.bus.fld .fnCtl cap i 8 4 = 1 then
        (s.onBus fun b => b.setFld .fnCtl cap i 0 1 1).toStarting cap i
      else s
    if cap = 0x02 then s.functionStarted 0x02 i else s) s

/-- The reload ends once every head it started has had its first fully live frame, which a unit that drives no endpoint never sends: there, once
every head is ON again (R70, R73, R78; spec/16 R505) (DEDUCED, log 67). -/
def State.zoneDone (s : State) : State :=
  match s.wdn.zone with
  | none => s
  | some z =>
    let left := z.heads.filter fun h =>
      if s.drives then s.output h != 3 && s.fnState 0x14 h != 0 && s.fnState 0x14 h != 3 else s.fnState 0x14 h == 1
    if z.step ≠ 5 ∨ left ≠ [] then s
    else
      let s := s.zoneRec z.zone 5 0
      let s := forEach (List.range 12) (fun i s => s.setReg .structHash 0 i (w32 (leAt z.hash (4 * i) 4))) s
      let s := (s.setReg .structSeq 0 0 (w32 z.seq)).setFld .structSlot 0 0 2 1 1
      let s := (s.setZoneState z.zone 1).setFld .structState 0 0 0 3 2
      let s := (s.setWdn { s.wdn with zone := none }).structEnd 2 0
      let s := s.setJrn { s.jrn with nextTick := s.ticks }
      let s := if s.plan.tandem.isSome then { s with tnd := { s.tnd with differ := addSet s.tnd.differ z.zone } } else s
      s.emit 0x3404 0 0 (pay (z.zone :: 0 :: s.hash8))

/-- ZONE_ROUTING_LOADED (R70 steps 4 and 5); `fail` is the reason of a failure, 0 for none (R72) (DEDUCED, log 67).
STRUCT_STATE.ROUTED_AT_LOAD stays as the last load set it (DESIGN CHOICE, log 74). -/
def State.zoneRouted (s : State) (fail : Nat) : State :=
  match s.wdn.zone with
  | none => s
  | some z =>
    if z.step ≠ 4 then s
    else if fail ≠ 0 then s.zoneHalt fail
    else
      let old := s.plan
      let runs := (s.zoneRuns z.zone old z.plan).getD []
      let s := s.zoneRec z.zone 4 0
      let s := { s with plan := z.plan }
      let s := ((s.zoneParts z.zone old).zoneGroups z.zone old).zonePorts z.zone old
      let s := forEach [0x02, 0x10, 0x11, 0x14, 0x15, 0x21] (fun cap s => forEach (s.inZone cap z.zone) (fun i s => s.zoneInst old cap i) s) s
      let s := forEach runs (fun r s => s.setFld .freshCfg r.1 0 0 17 r.2) s
      let s := forEach [0x02, 0x10, 0x11, 0x14, 0x15, 0x21] (fun cap s => s.zoneStart cap z.zone) s
      let s := forEach ((s.inZone 0x20 z.zone).filter fun p => s.plan.role p == 2) (fun p s => s.creditResume p) s
      let heads := (s.inZone 0x14 z.zone).filter fun h => s.fnState 0x14 h == 1 && (s.head h).mode.isSome
      (s.setWdn { s.wdn with zone := some { z with step := 5, heads := heads } }).zoneDone

/-! ### The end of the warden's checks -/

/-- The event and STRUCT_FAIL of an image that check 15 discards (R67). -/
def State.imageGone (s : State) (l : Loaded) (at_ : Nat) : State :=
  match l.discarded with
  | some rec => (s.structFail 0x0F 3 rec).emit 0x340A 0 1 (pay [at_, 0x0F, leAt l.hash 0 4, leAt l.hash 4 4])
  | none => s

/-- STRUCT_CMD_DONE: the warden's checks for VERIFY, ZONE_RELOAD, REVOKE_KEY or PROVISION_KEY end. -/
def State.structChecked (s : State) : State :=
  match s.wdn.cmd with
  | none => s
  | some c =>
    match c.op with
    | 4 =>
      if s.critTemp ≤ s.effTemp then s.structFails 0x11 0xFFFF
      else
        match checkContainer s.otp s.lifecycle c.data with
        | .inl f => s.structFails f.1 f.2
        | .inr l =>
          let s := s.imageGone l c.arg
          match s.zoneCheck c.arg l.plan with
          | some f => s.structFails f.1 f.2
          | none => (s.setWdn { s.wdn with cmd := none }).zoneBegin c.arg l
    | 5 =>
      match checkContainer s.otp s.lifecycle c.data with
      | .inl f => s.structFails f.1 f.2
      | .inr l => (s.imageGone l 3).structEnd 2 0
    | 6 =>
      match checkRevoke s.otp s.lifecycle c.arg c.data with
      | some f => s.structFails f.1 f.2
      | none =>
        let s := { s with otp := { s.otp with revoked := s.otp.revoked.set c.arg true } }
        (s.identity.structEnd 2 0).emit 0x3408 0 1 (pay [c.arg, 0, leAt c.data 12 4, leAt c.data 16 4])
    | 8 =>
      let s := { s with otp := { s.otp with hashes := s.otp.hashes.set c.arg (fit 48 c.data) } }
      s.identity.structEnd 2 0
    | _ => s

def execWriteSlot (port slot : Nat) (s : State) : Answer := s.window fun s => s.structCmdWrite port (w32 (slot % 16 * 256 + 1))
def execSlotWritten (same : Bool) (s : State) : Answer := s.warden fun s => s.slotWritten same
def execSetPreferred (port slot : Nat) (s : State) : Answer := s.window fun s => s.structCmdWrite port (w32 (slot % 16 * 256 + 2))
def execConfirm (port : Nat) (s : State) : Answer := s.window fun s => s.structCmdWrite port 3
def execConfirmTimeout (s : State) : Answer := s.warden State.confirmTimeout
def execZoneReload (port zone : Nat) (s : State) : Answer := s.window fun s => s.structCmdWrite port (w32 (zone % 16 * 256 + 4))
def execZoneDrainEnd (s : State) : Answer := s.fabric State.zoneDrainEnd
def execZoneRoutingLoaded (fail : Nat) (s : State) : Answer := s.fabric fun s => s.zoneRouted fail
def execVerify (port : Nat) (s : State) : Answer := s.window fun s => s.structCmdWrite port 5
def execRevokeKey (port key : Nat) (s : State) : Answer := s.window fun s => s.structCmdWrite port (w32 (key % 16 * 256 + 6))
def execRaiseFloor (port : Nat) (s : State) : Answer := s.window fun s => s.structCmdWrite port 7
def execProvisionKey (port key : Nat) (s : State) : Answer := s.window fun s => s.structCmdWrite port (w32 (key % 16 * 256 + 8))
def execStructCmdDone (s : State) : Answer := s.warden State.structChecked

end Sys2Proof.Machine
end

