-- ==== Sys2Proof/Machine/Debug.lean ====
section
/-! DEFINITION. Lifecycle states, SERVICE and the debug master (spec/04 R131 to R138), and the two commands that advance a zone reload or the entry
to SERVICE. -/

namespace Sys2Proof.Machine

/-! ### Entering SERVICE (R133 to R135) -/

/-- DEBUG_STATUS. -/
def State.debugEnds (s : State) (st reason : Nat) : State := s.setReg .debugStatus 0 0 (w32 (st + reason * 256))

/-- The reason of the first check of R134 that fails; 0 when all pass (PRESUMED, log 44). -/
def State.tokenCheck (s : State) (a : Nat) (d : List Byte) : Nat :=
  let k := byteAt d 5
  let key := slice d 64 96
  let hash := s.otp.hashes.getD k []
  let nonce := (List.range 4).flatMap fun i => le 4 (s.reg .debugNonce 0 i).toNat
  let busy : Bool := s.plan.tandem.isSome && (s.role == 3 || s.role == 5 || s.tnd.handover.isSome || s.tnd.hoRx.isSome)
  if 0x08000000 < a + 256 then 1
  else if s.lifecycle ≠ 1 then 2
  else if s.structBusy then 3
  else if slice d 0 4 ≠ [0x56, 0x5A, 0x53, 0x54] ∨ byteAt d 4 ≠ 1 ∨ !zeros (slice d 6 2) ∨ !zeros (slice d 32 32) then 4
  else if 3 < k ∨ hash = [] ∨ s.otp.revoked.getD k false = true ∨ sha384 key ≠ hash then 5
  else if !ecdsaOk key (sha384 (d.take 160)) (slice d 160 96) then 6
  else if leAt d 8 8 ≠ s.pair .debugSerialLo .debugSerialHi 0 0 then 7
  else if slice d 16 16 ≠ nonce then 8
  else if busy then 9
  else 0

/-- Functions that SERVICE entry stops: those that are not always ON, the journal among the latter (spec/16 R502) (DEDUCED, log 68). -/
def serviceCaps : List Nat := [0x02, 0x03, 0x06, 0x07, 0x10, 0x11, 0x14, 0x15, 0x20, 0x21, 0x32]

/-- Every instance that is ON goes to STOPPING with CAUSE 4 (R135); one that is starting fails its start; a tandem port goes on until the
heartbeats of FAILED have ended (spec/17 R555) (DEDUCED, log 68). -/
def State.serviceStop (s : State) (cap : Nat) : State :=
  forEach (s.plan.insts cap) (fun i s =>
    match s.fnState cap i with
    | 2 => if cap = 0x20 ∧ s.keepsPort i then s else s.leave cap i 4
    | 1 => s.onBus fun b => b.startFailed cap i 0
    | _ => s) s

/-- Steps 3 to 5 of R135, as far as they have come. -/
def State.serviceProgress (s : State) : State :=
  match s.wdn.serviceStep with
  | some (k, serial, 0, heads) =>
    if heads.any fun h => s.isOn 0x14 h then s
    else
      let s := s.toFailed
      let s := forEach serviceCaps (fun cap s => s.serviceStop cap) s
      s.setWdn { s.wdn with serviceStep := some (k, serial, 1, []) }
  | some (k, serial, 1, _) =>
    let s := if s.tnd.failTick.isNone ∧ (s.plan.tandemPorts.any fun p => s.isOn 0x20 p) then s.serviceStop 0x20 else s
    let done : Bool := s.tnd.failTick.isNone && serviceCaps.all fun cap => (s.plan.insts cap).all fun i => s.fnState cap i != 3
    if done then
      let s := ((s.setWdn { s.wdn with serviceStep := none }).setReg .debugState 0 0 6).debugEnds 2 0
      s.identity.emit 0x3501 0 1 (pay [k, serial % 2 ^ 32, serial / 2 ^ 32])
    else s
  | _ => s

/-- The entry to SERVICE begins (R135 steps 1 and 2): the decision record, and every interface to its harmless state. -/
def State.serviceBegin (s : State) (d : List Byte) : State :=
  let s := (s.debugEnds 1 0).journal 0x0E 0x35 0 (slice d 5 1 ++ le 7 0 ++ slice d 8 8)
  let heads := (s.plan.insts 0x14).filter fun h => s.isOn 0x14 h
  let s := s.setWdn { s.wdn with serviceStep := some (byteAt d 5, leAt d 8 8, 0, heads) }
  let s := forEach ((List.range 64).filter fun p => s.plan.role p == 2) (fun p s => s.creditStop p) s
  let s := forEach ((s.plan.insts 0x21).filter fun i => s.isOn 0x21 i) (fun i s => s.leave 0x21 i 4) s
  let s := forEach ((s.plan.insts 0x15).filter fun i => s.isOn 0x15 i) (fun i s => s.leave 0x15 i 4) s
  let s := s.pulsesLow
  let s := s.setTim { s.tim with ignoreRefs := true }
  (if s.selected = 7 then s else s.deselect).serviceProgress

/-- ENTER_SERVICE. -/
def State.enterService (s : State) : State :=
  let a := s.pair .debugTokenLo .debugTokenHi 0 0
  let r : State × List Byte := if 0x08000000 < a + 256 then (s, []) else
    (match s.load 152 a 256 with | (s, .ok d) => (s, d) | (s, _) => (s, List.replicate 256 0xFF))
  let d := r.2
  let reason := r.1.tokenCheck a d
  let s := r.1.drawNonce
  if reason ≠ 0 then
    let s := if reason = 9 then s.giveUp 0x35 0 3 6 0x3502 none else s
    ((s.debugEnds 3 reason).bump .debugRefused 0 0 1).emit 0x3502 0 1 (pay [reason])
  else s.serviceBegin d

/-- SERVICE is being entered and a head reaches its latch instant: it sends SAFE and leaves ON. -/
def State.serviceLatch (s : State) (h : Nat) : State :=
  match s.wdn.serviceStep with
  | some (k, serial, 0, heads) =>
    if heads.contains h then
      let s := if s.isOn 0x14 h then s.leave 0x14 h 4 else s
      (s.setWdn { s.wdn with serviceStep := some (k, serial, 0, delSet heads h) }).serviceProgress
    else s
  | _ => s

/-! ### SET_FIELD (R132, R137) -/

/-- Key slots other than the development key's, programmed and not revoked. -/
def OtpSt.qualifying (o : OtpSt) : List Nat :=
  (List.range 4).filter fun k => !(o.hashes.getD k []).isEmpty && !o.revoked.getD k false && !(k == 0 && o.devKey)

/-- DEDUCED, log 68. -/
def State.setField (s : State) : State :=
  let ks := s.otp.qualifying
  if s.lifecycle ≠ 0 then s.debugEnds 3 2
  else if ks = [] then s.debugEnds 3 5
  else
    let s := { s with otp := { s.otp with field := true } }
    ((s.setReg .debugState 0 0 1).debugEnds 2 0).identity.emit 0x3503 0 0 (pay [(ks.map fun k => 2 ^ k).sum])

/-- A host writes DEBUG_CMD: 1 ENTER_SERVICE, 2 SET_FIELD; another code is ignored and counted in CORE_BAD_ACCESS (spec/03 R577) (DEDUCED, log 68). -/
def State.debugCmd (s : State) (port : Nat) (v : Word) : State :=
  s.hostWrite port 0x35 0 0 0x04 v fun s =>
    if s.fld .debugStatus 0 0 0 2 = 1 then s
    else
      match bf v 0 8 with
      | 1 => s.enterService
      | 2 => s.setField
      | _ => s.notOwner port

/-! ### The debug master (R131, R136) -/

/-- DEBUG_MASTER_ACCESS: a read of n bytes (`data` empty), or a write. -/
def State.debugAccess (s : State) (write : Bool) (a n : Nat) (data : List Byte) : State :=
  if write then
    let r := s.bus.debugWrite s.lifecycle a data
    let s := ({ s with bus := r.1 }).send (.memWritten 153 r.2)
    if s.lifecycle = 2 ∧ r.2 ∧ data ≠ [] then s.debugCount a data.length else s
  else
    let r := s.bus.debugRead s.lifecycle a n
    let s := { s with bus := r.1 }
    match r.2 with
    | .ok d => s.send (.memRead 153 true d)
    | .ue d => s.send (.memRead 153 false d)
    | .refused => s.send (.memRead 153 false (List.replicate n 0xFF))

/-! ### Commands that advance the reload of a zone or the entry to SERVICE -/

def execShutdownComplete (cap i : Nat) (s : State) : Answer :=
  s.fabric fun s => (s.shutdownComplete cap i).zoneProgress.zoneDone.serviceProgress
def execFailedHeartbeatEnd (s : State) : Answer := s.warden fun s => s.failedHeartbeatEnd.serviceProgress
def execWitnessFrameCheck (p : Nat) (rows : List Nat) (o : WitObs) (s : State) : Answer :=
  s.fabric fun s => (s.witFrame p rows o).zoneDone
def execEnterService (port : Nat) (s : State) : Answer := s.fabric fun s => s.debugCmd port 1
def execSetField (port : Nat) (s : State) : Answer := s.fabric fun s => s.debugCmd port 2
def execDebugMasterAccess (write : Bool) (a n : Nat) (data : List Byte) (s : State) : Answer :=
  s.fabric fun s => s.debugAccess write a n data
def execDebugAccessRecord (s : State) : Answer := s.fabric State.debugRecord

end Sys2Proof.Machine
end

