-- ==== Sys2Proof/Machine/Window.lean ====
section
/-! DEFINITION. What a host reads in the control window (spec/00 R4, spec/03 R79, R83, R84, R87, R90): capability records, the MSI-X table,
function control words and registers. -/

namespace Sys2Proof.Machine

/-! ### Capability records (R83 to R86) -/

/-- Window offset of the record of the function at place `k` of R86's table: DEVICE_CORE at 0, each later one further on (R84; log 10). The
bound keeps 21 records below 0x03FE_FFE0. -/
def recordOffset : Nat → Nat
  | 0 => 0
  | k + 1 => recordOffset k + 32 + 4 * (Config.recordGap k % 0x3FC00)

/-- The place of a function in R86's table. -/
def capPlace (cap : Nat) : Nat := (capIds.takeWhile fun c => c != cap).length

/-- The functions whose records a host finds: the chain, and before step 7 of R537 DEVICE_CORE and STRUCTURE alone. -/
def State.chainNow (s : State) : List Nat := s.plan.chain.filter s.holds

/-- The eight words of a function's record (R83): `next` is the function that follows in the chain. -/
def capRecord (cap : Nat) (next : Option Nat) : List Nat :=
  let expert : Bool := (rowsOf cap).any fun r => r.expert
  let n := capSlots cap
  [cap + 0x10000 + (1 + 2 * b2n expert) * 2 ^ 24, (next.map fun c => recordOffset (capPlace c)).getD 0,
   Config.blockOffset cap 0 % 2 ^ 32, if expert then Config.blockOffset cap 1 % 2 ^ 32 else 0, n,
   if n = 1 then 0 else capStride cap 0, if n = 1 then 0 else capStride cap 1, Config.blockOffset cap 2 % 2 ^ 32]

/-- The records of the chain with their offsets, in rising order. -/
def chainRecords : List Nat → List (Nat × List Nat)
  | [] => []
  | c :: rest => (recordOffset (capPlace c), capRecord c rest.head?) :: chainRecords rest

/-- The word of a capability record that stands at a window offset. -/
def State.recordWord (s : State) (off : Nat) : Option Nat :=
  (chainRecords s.chainNow).findSome? fun r => if r.1 ≤ off ∧ off < r.1 + 32 then r.2[(off - r.1) / 4]? else none

/-- MSI-X table and pending-bit array in the control window (R79). -/
def msixTable : Nat := 0x03FF0000
def msixPba : Nat := 0x03FF2000

/-- The word at a window offset: a record's, the MSI-X table's, the pending-bit array's; elsewhere reserved, 0 (R4). -/
def State.windowWord (s : State) (port off : Nat) : Nat :=
  match s.recordWord off with
  | some w => w
  | none =>
    let x := s.bus.hostSt port
    if msixTable ≤ off ∧ off < msixTable + 8192 then (tabGet 0 x.msix ((off - msixTable) / 4)).toNat
    else if msixPba ≤ off ∧ off < msixPba + 64 then
      ((List.range 32).map fun i => if x.pba.contains ((off - msixPba) * 8 + i) then 2 ^ i else 0).sum
    else 0

/-! ### Registers -/

/-- Rings and fence objects take writes only from the port that owns them (R87). -/
def State.owns (s : State) (port cap i j : Nat) : Bool :=
  if cap = 2 then s.plan.ringHost i == some port
  else if cap = 3 then j % 4 == port
  else true

/-- FN_CTL as a port reads it (R90): STATE 7 ABSENT for a ring that another port owns and for an instance that does not exist (spec/06,
spec/07 and the other register sections); else the word held. -/
def State.ctlShown (s : State) (port cap i : Nat) : Word :=
  if !s.plan.has cap i ∨ (cap = 2 ∧ s.plan.ringHost i ≠ some port) then w32 (7 * 4) else s.bus.reg .fnCtl cap i

/-- What a register of either side shows: the ages of LINK_STATUS_AGE, TND_HB_AGE and, on a STANDBY, TND_LAG_US count on (spec/13, spec/16). -/
def State.regView (s : State) (r : AnyReg) (i j : Nat) : Word :=
  match r with
  | .fn .linkStatusAge => match (s.link i).statusTick with
    | some t => w32 (min 65535 ((s.ticks - t) / tickMs))
    | none => 0xFFFF
  | .fn .tndHbAge => match s.tnd.hbTick with
    | some t => w32 (min 0xFFFFFFFF ((s.ticks - t) / 200))
    | none => 0xFFFFFFFF
  | .fn .tndLagUs => if s.fld .tndState 0 0 0 3 = 2 then w32 ((max 0 (sdiff s.now s.tnd.appliedTime)).toNat / 1000) else s.reg .tndLagUs 0 0
  | .bus r => s.bus.reg r i j
  | .fn r => s.reg r i j

/-- What a host port reads at an offset of a block: 0 where nothing exists, where the offset is reserved (R4), in a write-only register
and in a ring that another port owns (R87); an unused port's PORT_STATE shows DEEP (spec/12 R384); else what the register shows. -/
def State.regShown (s : State) (port cap i blk off : Nat) : Word :=
  if blk = 3 then w32 (s.windowWord port off)
  else if blk = 2 then (if off % 4 = 0 ∧ s.holds cap then s.ctlShown port cap (off / 4) else 0)
  else if cap = 0x20 ∧ s.plan.loaded ∧ i < 64 ∧ s.plan.role i = 0 ∧ blk = 0 ∧ off = 4 then 7
  else if !s.plan.has cap i ∨ !s.holds cap then 0
  else
    match findReg cap (blk == 1) off with
    | none => 0
    | some (row, j) =>
      if row.acc = .wo ∨ (cap = 2 ∧ s.plan.ringHost i ≠ some port) then 0
      else s.regView row.reg (if cap = 1 then port else i) j

end Sys2Proof.Machine
end

