-- ==== Sys2Proof/Machine/RegWrite.lean ====
section
/-! DEFINITION. Host writes of registers: which bits a write sets, which values it refuses (spec/03 R577), and the registers whose
write has a meaning of its own. -/

namespace Sys2Proof.Machine

/-! ### Bits and ranges -/

/-- The bits of a bus register that a write sets; the others are reserved or read-only. -/
def BReg.mask : BReg → Nat
  | .coreMwinBaseLo => 0xC0000000
  | .coreEvtRing => 0x1FF
  | .coreEvtSeverity => 0x3
  | .coreXPtmPeriod => 0x3FF
  | .ringBaseLo => 0xFFFFF000
  | .ringHoldoff => 0xFFFF
  | .ringXBatch => 0x7F
  | .accXNoticeWindow => 0x3FF
  | .memXScrubHours => 0xFF
  | .memXTrackMs => 0x3FF
  | .memXWeakRow => 0xFF
  | .jrnCtl => 0x7
  | .jrnBaseLo => 0xFFF00000
  | .jrnSize => 0xFFFF
  | .frBaseLo => 0xFFF00000
  | .frSlotSize => 0xFFFF
  | .jrnXCkpt => 0xFFFF
  | _ => 0xFFFFFFFF

/-- The same for the other registers. -/
def FReg.mask : FReg → Nat
  | .structXConfirm => 0xFFFF
  | .structXDrain => 0xF
  | .srcFormat => 0xF
  | .srcLimit => 0x7FF
  | .srcTest => 0x03FF000F
  | .srcTestColour => 0xFFFFFF
  | .srcBufAddrLo => 0xFFFFF000
  | .srcXFillMs => 0x7FF
  | .cmpXEffort => 0x3
  | .cmpXNoGainPct => 0x7F
  | .decRing => 0x1FF
  | .decXConcealMax => 0x3FF
  | .decXSkip => 0x1
  | .composeBg => 0x3FFFFFFF
  | .composeWb => 0x7FF3
  | .cursorCtl => 0x07FF0003
  | .composeXShed => 0x000F1F1F
  | .composeXRecompose => 0x1
  | .composeXM4 => 0xFFFF
  | .composeXOfs0 => 0x1FFF1FFF
  | .composeXOfs1 => 0x1FFF
  | .freshStaleColour => 0xFFFFFF
  | .freshDegradedColour => 0xFFFFFF
  | .freshXNoLiveHold => 0x7FF
  | .freshXFlagFill => 0x1
  | .headCtl => 0xF
  | .headXAmbDwell => 0xFFFF
  | .encCtl => 0xFFFF1F7F
  | .encSrc => 0x7F
  | .encQp => 0x3F
  | .encRing => 0x1FF
  | .encOutBaseLo => 0xFFFFF000
  | .encRefBaseLo => 0xFFFFF000
  | .encXRate => 0xF
  | .encXRefresh => 0xFF
  | .portRetry => 0xFFFF
  | .portXPhaseMs => 0xFF
  | .portXRateCap => 0x3
  | .portXEqFix => 0xFFF1
  | .portXLock => 0xFF0F
  | .linkXTimeMs => 0x7F
  | .linkXStatusMs => 0x3FF
  | .chkPreset => 0x7
  | .chkXShape => 0x37F
  | .touchCtl => 0x7
  | .touchRing => 0x1FF
  | .touchLimits => 0x07FF03FF
  | .touchXHop => 0x0FFFFFFF
  | .touchXCycles => 0x0FFF0FFF
  | .touchXTest => 0x00FFFFFF
  | .touchXRefcapNom => 0xFFFF
  | .touchXFreq => 0xFFFF
  | .capCtl => 0xFF
  | .clkoutCtl => 0x1
  | .timXSlew => 0x1FFFF
  | .timXHostMs => 0xFFFF
  | .tndMirBaseLo => 0xFFFF0000
  | .tndMirSize => 0xFFFFFF
  | .tndMirCtl => 0xF1
  | .tndXTimes => 0xFFFF00FF
  | .tndXTimeTol => 0x1FFFF
  | .thmXLevels => 0xFFFF
  | .thmXRelease => 0xFFFF00FF
  | .thmXRecover => 0xFFFFFF01
  | .thmXWear => 0xFF
  | _ => 0xFFFFFFFF

/-- Field `lo`, `n` of a value lies from `a` to `b`. -/
def inField (v : Word) (lo n a b : Nat) : Bool := decide (a ≤ bf v lo n ∧ bf v lo n ≤ b)

/-- A bus register takes the value (R577 with the ranges of its table). -/
def BReg.inRange (r : BReg) (v : Word) : Bool :=
  match r with
  | .coreEvtRing => inField v 0 9 0 256
  | .coreEvtSeverity => inField v 0 2 0 2
  | .coreXPtmPeriod => inField v 0 10 1 1000
  | .ringXBatch => inField v 0 7 1 64
  | .accXNoticeWindow => inField v 0 10 1 1000
  | .memXScrubHours => inField v 0 8 1 168
  | .memXTrackMs => inField v 0 10 10 1000
  | .memXWeakRow => inField v 0 8 1 255
  | .jrnXCkpt => inField v 0 16 100 10000
  | .jrnXFr => inField v 0 16 1 600 && inField v 16 16 0 600
  | _ => true

/-- HEAD_X_AMB_LOW and HEAD_X_AMB_HIGH as they would stand (spec/10 R333). -/
def ambOk (low high : Word) : Bool :=
  decide (bf low 16 16 < bf low 0 16 ∧ bf high 16 16 < bf high 0 16 ∧ bf low 0 16 < bf high 16 16)

/-- TOUCH_X_THRESH and TOUCH_X_SELF as they would stand (spec/14 R469). -/
def threshOk (th self : Word) : Bool := decide (bf th 16 16 < bf th 0 16 ∧ bf self 16 16 < bf th 0 16)

/-- CAP_CTL.INPUT names an input (spec/15 R492). -/
def capInput (v : Word) : Bool := inField v 0 5 0 16 || bf v 0 5 == 31

/-- Another register takes the value (R577 with the ranges of its table and of the rules that name it). -/
def State.inRange (s : State) (r : FReg) (i : Nat) (v : Word) : Bool :=
  match r with
  | .structXConfirm => inField v 0 16 60 65535
  | .structXDrain => inField v 0 4 2 15
  | .srcLimit => inField v 0 11 1 2000 && inField v 0 11 (s.plan.freshFor 0xFF i).2.1 (s.plan.freshFor 0xFF i).2.2
  | .srcTest => inField v 0 4 0 4 && inField v 16 10 1 1000
  | .srcXFillMs => inField v 0 11 1 2000
  | .cmpXNoGainPct => inField v 0 7 1 100
  | .decRing => inField v 0 9 0 256
  | .decXConcealMax => inField v 0 10 0 1000
  | .cursorCtl => inField v 16 11 0 2000
  | .composeXShed => inField v 0 5 1 31 && inField v 8 5 1 31 && inField v 16 4 1 15
  | .freshXNoLiveHold => inField v 0 11 0 1000
  | .headCtl => inField v 2 2 0 2
  | .headXAmbLow => ambOk v (s.reg .headXAmbHigh i 0)
  | .headXAmbHigh => ambOk (s.reg .headXAmbLow i 0) v
  | .headXAmbDwell => inField v 0 16 100 60000
  | .encSize =>
    let w := bf v 0 16
    let h := bf v 16 16
    decide (64 ≤ w ∧ w ≤ 4096 ∧ w % 8 = 0 ∧ 64 ≤ h ∧ h ≤ 4096 ∧ h % 8 = 0 ∧ w * h ≤ 8912896)
  | .encQp => inField v 0 6 0 51
  | .encRing => inField v 0 9 0 256
  | .encOutSize => decide (v.toNat % 4096 = 0 ∧ 1048576 ≤ v.toNat ∧ v.toNat ≤ 268435456)
  | .encXRate => inField v 0 4 1 15
  | .encXRefresh => bf v 0 8 != 1
  | .portRetry => inField v 0 16 100 60000
  | .portXPhaseMs => inField v 0 8 1 200
  | .portXRateCap => inField v 0 2 0 (((s.plan.port i).map PortEnt.rate).getD 0)
  | .portXEqFix => inField v 8 4 0 12 && inField v 12 4 0 9
  | .portXLock => inField v 0 4 2 15 && inField v 8 8 1 255
  | .linkXTimeMs => inField v 0 7 1 100
  | .linkXStatusMs => inField v 0 10 20 1000
  | .chkPreset => inField v 0 3 0 3 || bf v 0 3 == 7
  | .chkXShape => inField v 0 7 8 64
  | .touchRing => inField v 0 9 0 256
  | .touchLimits => inField v 0 10 1 (((s.plan.panel i).map PanelEnt.ageLimit).getD 0) &&
      inField v 16 11 1 (((s.plan.panel i).map PanelEnt.maxContactS).getD 0)
  | .touchXThresh => threshOk v (s.reg .touchXSelf i 0)
  | .touchXSelf => threshOk (s.reg .touchXThresh i 0) v
  | .touchXSuspect => decide (bf v 16 16 < bf v 0 16)
  | .touchXHop => inField v 24 4 1 15
  | .touchXAdapt => inField v 0 16 10 10000 && inField v 16 16 60 65535
  | .touchXTest => inField v 0 16 60 65535 && inField v 16 8 1 50
  | .touchXFreq => inField v 0 16 50 1000
  | .capCtl => capInput v
  | .clkoutFreq => decide (1 ≤ v.toNat ∧ v.toNat ≤ 100000000)
  | .timXLimits => decide (bf v 0 16 < bf v 16 16)
  | .timXTimes => inField v 0 16 1 3600 && inField v 16 16 0 3600
  | .timXSlew => inField v 0 17 10 100000
  | .timXHold => inField v 0 16 60 65535 && inField v 16 16 1 3600
  | .timXHostMs => inField v 0 16 100 60000
  | .tndXTimes => inField v 0 8 3 50 && inField v 16 16 500 60000
  | .tndXTimeTol => inField v 0 17 100 100000
  | .thmXLevels => inField v 0 8 70 100 && inField v 8 8 80 110 && decide (bf v 0 8 + 5 ≤ bf v 8 8)
  | .thmXTimes => inField v 0 16 0 10000 && inField v 16 16 100 10000
  | .thmXRelease => inField v 0 8 2 20 && inField v 16 16 1 600
  | .thmXRecover => inField v 8 8 40 95 && inField v 16 16 10 3600
  | .thmXWear => inField v 0 8 10 100
  | _ => true

/-! ### States in which a write takes effect -/

/-- A bus register may change now: JRN_BASE, JRN_SIZE, FR_BASE and FR_SLOT_SIZE only in OFF and STARTING (spec/16 R502). -/
def State.busOpen (s : State) (r : BReg) : Bool :=
  match r with
  | .jrnBaseLo => s.fnState 0x31 0 < 2
  | .jrnBaseHi => s.fnState 0x31 0 < 2
  | .jrnSize => s.fnState 0x31 0 < 2
  | .frBaseLo => s.fnState 0x31 0 < 2
  | .frBaseHi => s.fnState 0x31 0 < 2
  | .frSlotSize => s.fnState 0x31 0 < 2
  | _ => true

/-- Another register may change now (spec/06 R195, spec/07 R219, spec/11 R344 and its table, spec/14, spec/15 R493, R495); in
another state the write is ignored. -/
def State.regOpen (s : State) (r : FReg) (i j : Nat) : Bool :=
  match r with
  | .srcFormat => s.fnState 0x10 i == 0
  | .srcSize => s.fnState 0x10 i == 0
  | .srcBufAddrLo => s.fnState 0x10 i == 0
  | .srcBufAddrHi => s.fnState 0x10 i == 0
  | .decRing => s.fnState 0x11 i < 2
  | .encSrc => s.fnState 0x15 i == 0
  | .encSize => s.fnState 0x15 i == 0
  | .encRing => s.fnState 0x15 i == 0
  | .encOutSize => s.fnState 0x15 i == 0
  | .touchRing => s.fnState 0x21 i == 0
  | .pulseStart => s.fld .pulseCtl 0 j 0 2 == 0
  | .pulsePeriod => s.fld .pulseCtl 0 j 0 2 == 0
  | .pulseWidth => s.fld .pulseCtl 0 j 0 2 == 0
  | .clkoutFreq => s.fld .clkoutCtl 0 j 0 1 == 0
  | _ => true

/-- The bits of a write-one-to-clear register that clear. -/
def AnyReg.clears : AnyReg → Nat
  | .bus .ringStatus => 0x7
  | .bus .accStatus => 0x7
  | .bus .memStatus => 0x3
  | .bus .jrnStatus => 0x2
  | .fn .structStatus => 0x10
  | .fn .cmpStatus => 0x2
  | .fn .composeStatus => 0x100000
  | .fn .encStatus => 0x800
  | .fn .chkStatus => 0x2
  | _ => 0

/-- The low register of the pair whose high half this is (spec/00 R3). -/
def AnyReg.lowOf : AnyReg → Option AnyReg
  | .bus .coreMwinBaseHi => some (.bus .coreMwinBaseLo)
  | .bus .ringBaseHi => some (.bus .ringBaseLo)
  | .bus .jrnBaseHi => some (.bus .jrnBaseLo)
  | .bus .frBaseHi => some (.bus .frBaseLo)
  | .fn .structSrcHi => some (.fn .structSrcLo)
  | .fn .debugTokenHi => some (.fn .debugTokenLo)
  | .fn .srcBufAddrHi => some (.fn .srcBufAddrLo)
  | .fn .encOutBaseHi => some (.fn .encOutBaseLo)
  | .fn .encRefBaseHi => some (.fn .encRefBaseLo)
  | .fn .chkXPolyHi => some (.fn .chkXPolyLo)
  | .fn .chkXInitHi => some (.fn .chkXInitLo)
  | .fn .chkXXoroutHi => some (.fn .chkXXoroutLo)
  | .fn .tndMirBaseHi => some (.fn .tndMirBaseLo)
  | _ => none

/-- The low halves of the pairs. -/
def lowHalves : List AnyReg :=
  [.bus .coreMwinBaseLo, .bus .ringBaseLo, .bus .jrnBaseLo, .bus .frBaseLo, .bus .fenceSignalLo, .fn .structSrcLo, .fn .debugTokenLo,
   .fn .srcBufAddrLo, .fn .encOutBaseLo, .fn .encRefBaseLo, .fn .chkXPolyLo, .fn .chkXInitLo, .fn .chkXXoroutLo, .fn .tndMirBaseLo,
   .fn .timHostIncrLo]

/-! ### Access to a register of either side -/

def AnyReg.fkey : AnyReg → Nat → Nat → Nat
  | .bus r, i, j => r.fkey i j
  | .fn r, i, j => r.fkey i j

def State.getAny (s : State) (r : AnyReg) (i j : Nat) : Word :=
  match r with
  | .bus r => s.bus.reg r i j
  | .fn r => s.reg r i j

def State.putAny (s : State) (r : AnyReg) (i j : Nat) (v : Word) : State :=
  match r with
  | .bus r => s.onBus fun b => b.setReg r i j v
  | .fn r => s.setReg r i j v

def AnyReg.mask : AnyReg → Nat
  | .bus r => r.mask
  | .fn r => r.mask

/-- `v` with the bits that `mask` leaves out as `old` has them. -/
def underMask (mask : Nat) (old v : Word) : Word := (v &&& w32 mask) ||| (old &&& ~~~(w32 mask))

/-! ### Writes that are ignored -/

/-- The ignored-write counter of a function's expert block; none for a function without one. -/
def ignoredCounter (cap : Nat) : Option AnyReg :=
  match cap with
  | 0x01 => some (.bus .coreXIgnored)
  | 0x02 => some (.bus .ringXIgnored)
  | 0x04 => some (.bus .accXIgnored)
  | 0x05 => some (.bus .memXIgnored)
  | 0x06 => some (.fn .cmpXIgnored)
  | 0x07 => some (.fn .chkXIgnored)
  | 0x10 => some (.fn .srcXIgnored)
  | 0x11 => some (.fn .decXIgnored)
  | 0x12 => some (.fn .composeXIgnored)
  | 0x13 => some (.fn .freshXIgnored)
  | 0x14 => some (.fn .headXIgnored)
  | 0x15 => some (.fn .encXIgnored)
  | 0x20 => some (.fn .portXIgnored)
  | 0x21 => some (.fn .touchXIgnored)
  | 0x30 => some (.fn .timXIgnored)
  | 0x31 => some (.bus .jrnXIgnored)
  | 0x32 => some (.fn .tndXIgnored)
  | 0x33 => some (.fn .thmXIgnored)
  | 0x34 => some (.fn .structXIgnored)
  | _ => none

/-- Count a write that is ignored (R88, R577). -/
def State.ignored (s : State) (port cap i : Nat) : State :=
  match ignoredCounter cap with
  | some r => s.putAny r i 0 (s.getAny r i 0 + 1)
  | none => s.notOwner port

/-! ### What a write does -/

/-- A write of RING_CTL (R99, R577): VECTOR at any time, KIND and SIZE_LOG2 in OFF (DEDUCED, log 18). -/
def State.ringCtlWrite (s : State) (port r : Nat) (v : Word) : State :=
  if bf v 16 9 = 0 then s.ignored port 2 r
  else
    let old := s.bus.reg .ringCtl r 0
    let held := bf old 0 3 + bf old 8 5 * 256
    let new := bf v 0 3 + bf v 8 5 * 256
    let off : Bool := s.fnState 2 r == 0
    let s := if !off && held != new then s.onBus fun b => b.setFld .ringStatus r 0 2 1 1 else s
    s.onBus fun b => (b.setReg .ringCtl r 0 (w32 ((if off then new else held) + bf v 16 9 * 65536))).flushAll s.plan

/-- COMPOSE_WB: a DIV of 0 is taken as 1. -/
def divOne (lo : Nat) (v : Word) : Word := if bf v lo 4 = 0 then setBf v lo 4 1 else v

/-- A write of ENC_CTL (spec/11 R344): INTRA_REFRESH and IDR_PERIOD at any time, the others in OFF (DEDUCED, log 18). -/
def State.encCtlWrite (s : State) (c : Nat) (v : Word) : State :=
  let mask := if s.fnState 0x15 c = 0 then 0xFFFF1F7F else 0xFFFF1000
  s.setReg .encCtl c 0 (underMask mask (s.reg .encCtl c 0) (divOne 8 v))

/-- A write of CLKOUT_CTL (spec/15 R495): the output runs while ENABLE is 1 and the core is sound. -/
def State.clkoutWrite (s : State) (k : Nat) (v : Word) : State :=
  let on := bit v 0 && bit (s.reg .timState 0 0) 11
  s.setReg .clkoutCtl 0 k (w32 (b2n (bit v 0) + 2 * b2n on))

/-- What follows a register that has taken a value. -/
def State.taken (s : State) (r : AnyReg) (i : Nat) : State :=
  match r with
  | .bus .coreEvtRing => s.onBus fun b => b.flushAll s.plan
  | .fn .srcLimit => if s.isOn 0x10 i then s.evalSource i else s
  | .fn .encSize => s.showFloor i
  | _ => s

/-- The register takes the value; with a high half, the low half written before it (spec/00 R3). A high half with no low half written
since the last one leaves the low half in force (DESIGN CHOICE, log 74). -/
def State.takeValue (s : State) (r : AnyReg) (i j : Nat) (v : Word) : State :=
  if lowHalves.contains r then
    s.onBus fun b => { b with pairLo := assocSet b.pairLo (r.fkey i j) (v &&& w32 r.mask) }
  else
    let s : State := match r.lowOf with
      | some lo =>
        match assocGet s.bus.pairLo (lo.fkey i j) with
        | some x => (s.putAny lo i j x).onBus fun b => { b with pairLo := assocDel b.pairLo (lo.fkey i j) }
        | none => s
      | none => s
    (s.putAny r i j (underMask r.mask (s.getAny r i j) v)).taken r i

/-- The write is in range and the register may change (DEDUCED, log 18). -/
def State.takes (s : State) (r : AnyReg) (i : Nat) (v : Word) : Bool :=
  match r with
  | .bus r => r.inRange v
  | .fn r => s.inRange r i v

def State.mayChange (s : State) (r : AnyReg) (i j : Nat) : Bool :=
  match r with
  | .bus r => s.busOpen r
  | .fn r => s.regOpen r i j

/-- A write of a read-write register without a meaning of its own (DEDUCED, log 18). -/
def State.writeRw (s : State) (port : Nat) (row : RegRow) (i j : Nat) (v : Word) : State :=
  match row.reg with
  | .bus .ringCtl => s.ringCtlWrite port i v
  | .bus .regBaseLo => s.onBus fun b => b.regionHalf i j 0 v
  | .bus .regBaseHi => s.onBus fun b => b.regionHalf i j 1 v
  | .bus .regSizeLo => s.onBus fun b => b.regionHalf i j 2 v
  | .bus .regSizeHi => s.onBus fun b => b.regionHalf i j 3 v
  | .fn .pulseCtl => s.pulseCtlWrite j v
  | .fn .clkoutCtl => s.clkoutWrite j v
  | .fn .encCtl => s.encCtlWrite i v
  | .fn .composeWb => s.setReg .composeWb i 0 (divOne 4 (underMask 0x7FF3 0 v))
  | reg =>
    let ringBase := reg == .bus .ringBaseLo || reg == .bus .ringBaseHi
    if ringBase && s.fnState 2 i != 0 then s.onBus fun b => b.setFld .ringStatus i 0 2 1 1
    else if !s.takes reg i v then s.ignored port row.cap i
    else if !s.mayChange reg i j then s
    else s.takeValue reg i j v

/-- A write of a register (spec/00 R3, R4, the access codes; R87, R88, R577). DEVICE_CORE's registers are one set for each port (DEDUCED, log 16). -/
def State.writeRow (s : State) (port i : Nat) (row : RegRow) (j : Nat) (v : Word) : State :=
  let at_ := if row.cap = 1 then port else i
  if !s.owns port row.cap i j then s.notOwner port
  else if row.expert && !s.expert row.cap i then
    if row.acc == .rw then s.ignored port row.cap at_ else s
  else
    match row.acc with
    | .rw => s.writeRw port row at_ j v
    | .wo => if lowHalves.contains row.reg then s.takeValue row.reg at_ j v else s
    | .w1c => s.putAny row.reg at_ j (s.getAny row.reg at_ j &&& ~~~(v &&& w32 row.reg.clears))
    | _ => s

/-- A write by a host at an offset of the control window that is no register's (`blk` 3): a word of the port's MSI-X table (R79); capability
records and the pending-bit array are read-only, and the rest is reserved (R4, R83). -/
def State.windowWrite (s : State) (port off : Nat) (v : Word) : State :=
  if port < 4 ∧ !(s.bus.hostSt port).underReset ∧ off % 4 = 0 ∧ msixTable ≤ off ∧ off < msixTable + 8192 then
    s.onBus fun b => b.msixWrite port ((off - msixTable) / 4) v
  else s

/-- REGISTER_WRITE: a host writes `v` at offset `off` of the basic (`blk` 0) or expert (1) block of an instance, among the
function's control words (2), or elsewhere in the control window (3). -/
def State.regWrite (s : State) (port cap i blk off : Nat) (v : Word) : State :=
  if blk = 3 then s.windowWrite port off v
  else if blk = 2 then (if off % 4 = 0 then s.fnCtlWrite port cap (off / 4) v else s)
  else
    match findReg cap (blk == 1) off with
    | none => s.hostReach port cap i fun s => s
    | some (row, j) =>
      match row.reg with
      | .bus .ringProd => s.doorbell port i v
      | .bus .ringCons => s.consWrite port i v
      | .bus .ringWaitLimit => s.waitLimitWrite port i v
      | .bus .coreBarrier => s.barrier port v
      | .bus .fenceSignalHi => s.fenceSignalWrite port j v
      | .bus .regCtl => s.regionUpdate port i j v
      | .bus .accSync => s.accSync port i (bf v 0 16)
      | .fn .timCtl => s.timCtlWrite port v
      | .fn .refCfg => s.refCfgWrite port j false v
      | .fn .refNom => s.refCfgWrite port j true v
      | .fn .timHostIncrHi => s.hostIncrWrite port v
      | .fn .encPicCap => s.encCapWrite port i false v
      | .fn .encSecCap => s.encCapWrite port i true v
      | .fn .cursorPos => s.cursorPosWrite port i v
      | .fn .freshTileIndex => s.tileSnapshot port i v
      | .fn .linkHoldCap => s.holdCapWrite port i v
      | .fn .thmCmd => s.thmCmdWrite port v
      | .fn .structCmd => s.structCmdWrite port v
      | .fn .debugCmd => s.debugCmd port v
      | _ =>
        if row.acc = .rw ∨ row.acc = .wo then s.hostWrite port cap i blk off v fun s => s.writeRow port i row j v
        else s.hostReach port cap i fun s => s.writeRow port i row j v

def execRegisterWrite (port cap inst blk off : Nat) (v : Word) (s : State) : Answer :=
  s.window fun s => s.regWrite port cap inst blk off v

/-! ### Reads (spec/00 R3, R4 and the access codes; R87, R90) -/

/-- RC_REGISTER_READ, and the read of any other register: a register whose read freezes or clears has its own meaning; every other offset
answers what it shows, and a register of access RC then clears. -/
def State.rcRead (s : State) (port cap i blk off : Nat) : State :=
  if 4 ≤ port then s
  else
    let plain (s : State) : State := s.onBus fun b => b.answer port (s.regShown port cap i blk off)
    if 2 ≤ blk ∨ !s.plan.has cap i ∨ !s.holds cap then plain s
    else
      match findReg cap (blk == 1) off with
      | none => plain s
      | some (row, j) =>
        match row.reg with
        | .bus .fenceValueLo => s.fenceValueRead port j false
        | .bus .fenceValueHi => s.fenceValueRead port j true
        | .bus .corePtmHostLo => s.ptmRead port 0
        | .bus .corePtmHostHi => s.ptmRead port 1
        | .bus .corePtmDev => s.ptmRead port 2
        | .bus .memBytesS0Lo => s.onBus fun b => b.memBytesRead port 0 false
        | .bus .memBytesS0Hi => s.onBus fun b => b.memBytesRead port 0 true
        | .bus .memBytesS1Lo => s.onBus fun b => b.memBytesRead port 1 false
        | .bus .memBytesS1Hi => s.onBus fun b => b.memBytesRead port 1 true
        | .fn .headFrame => s.headFrameRead port i false
        | .fn .headLatchTime => s.headFrameRead port i true
        | .fn .capTime => s.capTimeRead port j
        | .fn .capSub => s.capSubRead port j
        | .fn .timNow => s.timNowRead port false
        | .fn .timNowFrac => s.timNowRead port true
        | _ =>
          if row.acc = .rc ∧ (cap ≠ 2 ∨ s.plan.ringHost i = some port) then
            (plain s).putAny row.reg (if cap = 1 then port else i) j 0
          else plain s

def execRcRegisterRead (port cap inst blk off : Nat) (s : State) : Answer := s.window fun s => s.rcRead port cap inst blk off

end Sys2Proof.Machine
end

