-- ==== Sys2Proof/Machine/Follow.lean ====
section
/-! DEFINITION. Following (spec/16 R518 to R528): every command by its opcode, the records of a partner or of a recording as a unit
applies them, the latch instant of a head, the re-run, and the step of TIME_NS to the partner's. -/

namespace Sys2Proof.Machine

/-! ### The re-run's own commands (R526, R528) -/

/-- The first 8 bytes of the running STRUCTURE_HASH as a record carries them. -/
def State.hashHead (s : State) : List Byte := le 4 (s.reg .structHash 0 0).toNat ++ le 4 (s.reg .structHash 0 1).toNat

/-- The bytes of checkpoint data that follow a CKPT_BEGIN record, padding included (R504). -/
def JRec.dataLength (r : JRec) : Nat := cdiv (leAt r.body 4 4) 16 * 16

/-- The length of a record as its UNITS byte gives it. -/
def recUnits (b : List Byte) : Nat := 16 * byteAt b 2

/-- A CKPT_END that closes `data` with a good check stands among the records of `b` (R505). -/
def closes : Nat → List Byte → List Byte → Bool
  | 0, _, _ => false
  | fuel + 1, data, b =>
    match readRec b with
    | none => false
    | some r =>
      if r.kind = 0x12 then leAt r.body 0 8 == jrnl64 data && leAt r.body 8 4 == data.length
      else if r.kind = 0x11 then false
      else closes fuel data (b.drop (recUnits b))

/-- The checkpoint that a recording begins with: its CKPT_BEGIN record, the committed state, and where its records go on (DEDUCED, log 53). -/
def State.recordingStart (s : State) (b : List Byte) : Option (JRec × Ckpt × Nat) :=
  match readRec b with
  | none => none
  | some r =>
    let n := recUnits b
    let data := slice b n (leAt r.body 4 4)
    if r.kind ≠ 0x11 ∨ slice r.body 8 8 ≠ s.hashHead ∨ data.length ≠ leAt r.body 4 4 ∨
        !closes (b.length / 32 + 1) data (b.drop (n + r.dataLength)) then none
    else (ckptDecode data).map fun c => (r, c, n + r.dataLength)

/-- RERUN_LOAD (R526): only in DEVELOPMENT on a unit that is not ACTIVE in a tandem, for a recording that begins with a good checkpoint of
the running structure (DESIGN CHOICE, log 42; DEDUCED, log 53). -/
def rerunLoad : Perf := fun _ _ e s =>
  checked 0x31 (e.object == 0xFFFF) (e.zeroFrom 44 56) false e s fun s =>
    let a := e.arg 32 8
    let n := e.arg 40 4
    if s.lifecycle ≠ 0 ∨ (s.plan.tandem.isSome ∧ s.role = 3) then done s stState
    else if s.bus.fld .rerunState 0 0 0 2 = 1 ∨ s.rerunning then done s stBusy
    else
      match s.load 150 a n with
      | (s, .refused) => done s stAccess
      | (s, .ue _) => done s stEcc
      | (s, .ok b) =>
        match s.recordingStart b with
        | none => done s stFailed 1
        | some _ =>
          let s := s.setRerun { addr := a, len := n, pos := 0, next := none, rows := [], own := [], ingested := [], missed := [], bad := [], diffEv := none }
          let s := s.onBus fun b => (((b.setReg .rerunState 0 0 1).setReg .rerunEqual 0 0 0).setReg .rerunDiffRows 0 0 0).setReg .rerunNc 0 0 0
          done s stOk

/-- Every instance that is ON goes to STOPPING with CAUSE 0 (R528); the journal stays ON (R502) (DEDUCED, log 53). -/
def State.rerunStops (s : State) (cap : Nat) : State :=
  forEach (s.plan.insts cap) (fun i s =>
    match s.fnState cap i with
    | 2 => s.leave cap i 0
    | 1 => s.leave cap i 0
    | _ => s) s

/-- The re-run ends (R528). -/
def State.rerunEnds (s : State) : State :=
  let s := forEach serviceCaps (fun cap s => s.rerunStops cap) s
  let n (r : BReg) : Nat := (s.bus.reg r 0 0).toNat
  let ev := pay [n .rerunEqual, n .rerunDiffRows, n .rerunNc]
  ({ s with jrn := { s.jrn with rerun := none } }.onBus fun b => b.setReg .rerunState 0 0 3).emit 0x3107 0 0 ev

/-- RERUN_STOP (R528) (DEDUCED, log 53). -/
def rerunStop : Perf := fun _ _ e s =>
  checked 0x31 (e.object == 0xFFFF) (e.zeroFrom 32 56) false e s fun s =>
    if s.jrn.rerun.isNone then done s stState else done s.rerunEnds stOk

/-! ### Every command (R100) -/

/-- What performs an opcode; BAD_OPCODE for one the device does not know. -/
def performOf (op : Nat) : Perf :=
  match op with
  | 0x0100 => nop
  | 0x0601 => compress
  | 0x0602 => decompress
  | 0x0701 => checkAppend
  | 0x0702 => checkVerify
  | 0x1001 => submit
  | 0x1201 => layerSet
  | 0x1202 => layerFence
  | 0x1203 => loadCoeff
  | 0x1204 => readCoeff
  | 0x1205 => cursorLoad
  | 0x1206 => commit
  | 0x1301 => limitSet
  | 0x1302 => policySet
  | 0x1303 => rearm
  | 0x1401 => modeCommit
  | 0x1402 => lutLoad
  | 0x1403 => lutRead
  | 0x1501 => select
  | 0x1502 => requestIdr
  | 0x2001 => retrain
  | 0x2002 => power
  | 0x2003 => laneTest
  | 0x2004 => inject
  | 0x2101 => keysLoad
  | 0x2102 => rebaseline
  | 0x2103 => selfTest
  | 0x2104 => rawRead
  | 0x3001 => stepCmd
  | 0x3002 => align
  | 0x3003 => groupRate
  | 0x3101 => freeze
  | 0x3102 => release
  | 0x3103 => dump
  | 0x3104 => mark
  | 0x3105 => rerunLoad
  | 0x3106 => rerunStop
  | 0x3201 => handover
  | 0x3202 => resync
  | _ => fun _ _ _ s => done s stBadOpcode

/-- COMMAND_WAIT_END (spec/03 R101, R107): the wait of entry k is met and it goes on to step 3; one that an earlier command on the same object
still holds goes on once that has completed. An entry of an unknown opcode, which has no row of its own, comes to its BAD_OPCODE here
(DEDUCED, log 69). -/
def State.waitEnd (s : State) (r k : Nat) : State :=
  match s.entry r k with
  | none => s
  | some e =>
    if !(e.phase.waits || (e.phase == .ready && !knownOps.contains e.opcode)) ∨ !s.isOn 2 r ∨ s.bus.ringKind r ≠ 0 ∨ !beforeMet (s.bus.ringSt r).fetched e then s
    else if !s.bus.waitMet e then s.onBus fun b => b.setPhase r k .waitFence
    else if s.mayRun r e then State.withPorts (fun s => s.perform r e (performOf e.opcode)) s
    else s.onBus fun b => (b.setPhase r k .ready).stalled r

/-! ### Records applied (R519, R527) -/

/-- A following unit misses a picture (R519, R527, R531): the FOLLOW_MISS record, the count, and the event at most once a second. -/
def State.followMiss (s : State) (h l frame src alive : Nat) : State :=
  let s := if s.fabricUp then
      s.onBus fun b => b.journal 0x16 0x14 h (le 4 frame ++ le 1 l ++ le 1 src ++ le 2 alive) else s
  let s := if s.plan.tandem.isSome then s.bump .tndFollowMiss 0 0 1 else s
  let s : State := match s.jrn.rerun with
    | some r => if s.rerunning then s.setRerun { r with missed := if r.missed.contains (h, l) then r.missed else r.missed ++ [(h, l)] } else s
    | none => s
  let n := (s.tnd.missEv.map Prod.snd).getD 0 + 1
  let due : Bool := match s.tnd.missEv with | none => true | some e => decide (e.1 + tickS ≤ s.ticks)
  if due then (s.setTnd { s.tnd with missEv := some (s.ticks, 0) }).emit 0x3208 0 1 (pay [h, l, alive, n])
  else s.setTnd { s.tnd with missEv := s.tnd.missEv.map fun e => (e.1, n) }

/-- The unit's own buffer of a source with an ALIVE, READY or SHOWN; in a re-run only one that an INGEST record names (DEDUCED, log 57). -/
def State.followBuf (s : State) (n alive : Nat) : Option Nat :=
  let named (b : Nat) : Bool := match s.jrn.rerun with
    | some r => !s.rerunning || r.ingested.contains (n, alive, (s.reg .srcBufTime n b).toNat, (s.reg .srcBufCheck n b).toNat)
    | none => true
  (List.range 16).find? fun b =>
    let st := s.fld .srcBufState n b 0 3
    (st == 2 || st == 3) && s.fld .srcBufAlive n b 0 16 == alive && named b

/-- One entry of a LATCH record: the layer flips to the unit's own buffer of the same picture (DEDUCED, log 57). -/
def State.followFlip (s : State) (h frame : Nat) (q : Nat × Nat × Nat) : State :=
  let l := q.1
  let n := tagSrc (w32 q.2.2)
  match s.followBuf n q.2.1 with
  | none => s.followMiss h l frame n q.2.1
  | some b =>
    let s := s.flip h ⟨l, { s.layer h l with src := n }, true, true, 0, some b⟩
    let s := s.setFld .layerState h l 2 1 0
    match s.jrn.rerun with
    | some r => s.setRerun { r with missed := r.missed.filter fun m => m != (h, l) }
    | none => s

/-- The layers that flipped, all where commands came late, are latched afresh for the frame; the cursor stands where the record says, and the LUT bank is its (DEDUCED, log 57). -/
def State.relatch (s : State) (h : Nat) (c : LatchRec) (late : Bool) : State :=
  let s := forEach (if late then List.range (s.depth h) else c.entries.map Prod.fst) (fun l s =>
    let r := s.latchLayer h l
    match (r.1.head h).frame with
    | none => r.1
    | some f => r.1.setHead h { r.1.head h with frame := some { f with layers := f.layers.map fun y => if y.l = l then r.2 else y } }) s
  let s := s.setFld .headStatus h 0 6 2 c.bank
  let x := s.head h
  let place (f : FrameSt) : FrameSt :=
    { f with lut := tabGet [] x.luts c.bank,
             cursor := f.cursor.map fun q => (sext 16 (c.pos % 65536), sext 16 (c.pos / 65536 % 65536), q.2.2.1,
               if late then x.curFront.getD q.2.2.2 else q.2.2.2) }
  s.setHead h { x with frame := x.frame.map place }

/-- What the ACTIVE performed before the latch instant t, and this unit only after its own latch, applies before the layers flip (R311, R519). A
mode does so at the next latch instant. -/
def State.lateCommands (s : State) (h : Nat) (t : Word) : State × List CommitSt :=
  let r := s.applyCommits h t
  (((r.1.basicBanks h).applyFresh h t).applyLuts h t, r.2)

/-- The LATCH records of the frame in progress are whole: exactly the layers named flip, and composition goes on (R519) (DEDUCED, log 57). -/
def State.followLatch (s : State) (c : LatchRec) : State :=
  let h := c.head
  let num := s.reg .headFrame h 0
  let t := s.reg .headLatchTime h 0
  let (s, late) := s.lateCommands h t
  let asked := (s.head h).flips &&& c.flipped
  let s := forEach c.entries (fun q s => s.followFlip h c.frame q) s
  let s := s.relatch h c (!late.isEmpty)
  let s := s.setHead h { s.head h with hold := none }
  let s := s.setTnd { s.tnd with latches := s.tnd.latches.filter fun q => q != c, followed := assocSet s.tnd.followed h c.frame }
  if (asked ≠ 0 ∨ !late.isEmpty) ∧ s.reg .headFlipFrame h 0 ≠ num then
    ((s.setReg .headFlipFrame h 0 num).setReg .headFlipTime h 0 t).emitAt t (some num) 0x1401 h 0
      (payB (le 4 c.flipped ++ le 4 (s.head h).flips ++ le 4 (((late.getLast?).map CommitSt.tag).getD 0) ++ le 2 late.length))
  else s

/-- The layers that a FLIPPED mask names. -/
def maskLayers (m : Nat) : List Nat := (List.range 32).filter fun l => m.testBit l

/-- All entries of the records have come. -/
def LatchRec.whole (c : LatchRec) : Bool := (maskLayers c.flipped).length == c.entries.length

/-- A head that waits takes the records of its frame, if they are whole; those of frames gone by are dropped (DEDUCED, log 57). -/
def State.tryLatch (s : State) (h : Nat) : State :=
  let num := s.reg .headFrame h 0
  let gone (c : LatchRec) : Bool := c.head == h && decide (sdiff (w32 c.frame) num < 0)
  let s := s.setTnd { s.tnd with latches := s.tnd.latches.filter fun c => !gone c }
  match s.tnd.latches.find? fun c => c.head == h && c.frame == num.toNat && c.whole with
  | some c => if (s.head h).hold.isSome then s.followLatch c else s
  | none => s

/-- The n entries of a LATCH or LATCH_CONT body: layer, ALIVE, buffer tag. -/
def latchEntries (b : List Byte) (off n : Nat) : List (Nat × Nat × Nat) :=
  (List.range n).map fun i => (byteAt b (off + 8 * i), leAt b (off + 8 * i + 2) 2, leAt b (off + 8 * i + 4) 4)

/-- LATCH and LATCH_CONT: held until the head has latched that frame; a frame composed without them takes no more. -/
def State.applyLatch (s : State) (r : JRec) : State :=
  let h := r.inst
  let b := r.body
  let frame := leAt b 0 4
  if assocGet s.tnd.followed h = some frame then s
  else
    let l := s.tnd.latches
    let l := if r.kind = 1 then
        l.filter (fun c => c.head != h || c.frame != frame) ++
          [{ head := h, frame := frame, flipped := leAt b 4 4, pos := leAt b 12 4, bank := byteAt b 21, entries := latchEntries b 24 (byteAt b 22) }]
      else l.map fun c => if c.head = h ∧ c.frame = frame then { c with entries := c.entries ++ latchEntries b 8 (byteAt b 4) } else c
    (s.setTnd { s.tnd with latches := l }).tryLatch h

/-- STRIP: sheds and restores; in a re-run also recorded underruns, recompositions and columns left in doubt (DEDUCED, log 57). -/
def State.applyStrip (s : State) (r : JRec) : State :=
  let h := r.inst
  let b := r.body
  let layers := maskLayers (leAt b 8 4)
  let j := leAt b 4 2
  let cols := (List.range 128).filter fun c => (leAt b 12 16).testBit c
  let here : Bool := match (s.head h).frame with | some f => f.num.toNat == leAt b 0 4 | none => false
  match byteAt b 6 with
  | 1 =>
    let s := forEach layers (fun l s =>
      let x := s.head h
      let s := s.setHead h (if byteAt b 7 = 1 then { x with tShed := addSet x.tShed l } else { x with dShed := addSet x.dShed l })
      s.shedNote h l j (byteAt b 7) true) s
    s.showSheds h
  | 2 =>
    let s := forEach layers (fun l s =>
      let x := s.head h
      let s := s.setHead h (if byteAt b 7 = 1 then { x with tShed := delSet x.tShed l } else { x with dShed := delSet x.dShed l })
      s.shedNote h l j (byteAt b 7) false) s
    s.showSheds h
  | 3 =>
    if !s.rerunning ∨ !here then s
    else s.onFrame h fun f => { f with under := f.under ++ (cols.map fun c => (j, c)).filter fun q => !f.under.contains q }
  | 4 => if s.rerunning then s.bump .composeRecomposed h 0 1 else s
  | 5 =>
    if !s.rerunning ∨ !here then s
    else
      let s := s.noteDoubts h (cols.map fun c => (j / 4 * s.tileCols h + c, 3))
      let held := ((s.head h).frame.map FrameSt.cols).getD []
      forEach (cols.filter fun c => !(held.any fun q => q.strip == j && q.col == c))
        (fun c s => s.columnLeaves h { strip := j, col := c, tags := [], words := [], bare := [] }) s
  | _ => s

/-- DOUBT in a re-run: the recorded tiles of the frame come in doubt. -/
def State.applyDoubt (s : State) (r : JRec) : State :=
  let here : Bool := match (s.head r.inst).frame with | some f => f.num.toNat == leAt r.body 0 4 | none => false
  if !s.rerunning ∨ !here then s
  else s.noteDoubts r.inst ((List.range (byteAt r.body 4)).map fun i => (leAt r.body (8 + 4 * i) 2, byteAt r.body (10 + 4 * i)))

/-- ROWCHK in a re-run. -/
def State.applyRowchk (s : State) (r : JRec) : State :=
  if !s.rerunning then s
  else s.rerunRecorded r.inst (leAt r.body 0 4) (byteAt r.body 4) (leAt r.body 6 2)
    ((List.range (byteAt r.body 5)).map fun i => leAt r.body (8 + 4 * i) 4)

/-- INGEST in a re-run: the picture it names becomes latchable. -/
def State.applyIngest (s : State) (r : JRec) : State :=
  match s.jrn.rerun with
  | some x =>
    if s.rerunning then
      s.setRerun { x with ingested := x.ingested ++ [(byteAt r.body 0, leAt r.body 2 2, leAt r.body 4 4, leAt r.body 12 4)] } else s
  | none => s

/-- A command to a head that a record brought counts as performed when the ACTIVE performed it, which the record tells (R499, R519). -/
def State.backdate (s : State) (h : Nat) (t : Word) : State :=
  let at_ (w : Word) : Word := if w = s.now then t else w
  let x := s.head h
  s.setHead h { x with
    commits := x.commits.map fun c => { c with at_ := at_ c.at_ }, lutLoads := x.lutLoads.map fun c => { c with at_ := at_ c.at_ },
    limits := x.limits.map fun q => (at_ q.1, q.2), policies := x.policies.map fun q => (at_ q.1, q.2),
    modeNext := x.modeNext.map fun q => (q.1, at_ q.2.1, q.2.2) }

/-- COMMAND: the entry is performed from step 3 of R101 on the unit's own copy of the ring; fences are not waited on (DEDUCED, log 56). -/
def State.applyCommand (s : State) (r : JRec) : State :=
  let q := leAt r.body 0 2
  let k := leAt r.body 4 4
  let x := s.bus.ringSt q
  let data := slice r.body 8 56 ++ List.replicate 8 0
  let s : State := match x.fetched.find? fun e => e.k == k with
    | some _ => s
    | none => s.onBus fun b => b.setRing q { x with fetched := x.fetched ++ [{ k := k, data := data, phase := .ready, since := b.ticks, met := true }] }
  match s.entry q k with
  | none => s
  | some e =>
    if e.phase = .done ∨ e.phase = .running ∨ !s.isOn 2 q then s
    else
      let s := State.withPorts (fun s => s.perform q { e with data := data } (performOf (leAt data 0 2))) s
      if r.cap = 0x12 ∨ r.cap = 0x13 ∨ r.cap = 0x14 then s.backdate r.inst r.time else s

/-- The register that stands at an offset of the control window, as block and offset; `none` where none stands (log 10). -/
def ctlTarget (cap inst off : Nat) : Option (Nat × Nat) :=
  let regs := (rowsOf cap).flatMap fun r => (List.range r.count).map fun j => (b2n r.expert, r.off + j * r.stride)
  ((2, 4 * inst) :: regs).find? fun q => ctlOffset cap inst q.1 q.2 == off

/-- REG_WRITE: the write is performed as from that host port (DEDUCED, log 56). -/
def State.applyWrite (s : State) (r : JRec) : State :=
  match ctlTarget r.cap r.inst (leAt r.body 4 4) with
  | some q => s.regWrite (byteAt r.body 0) r.cap r.inst q.1 q.2 (w32 (leAt r.body 8 4))
  | none => s

/-- TIMING: a step (1) or a group's new rate and anchor (4). -/
def State.applyTiming (s : State) (r : JRec) : State :=
  let g := byteAt r.body 1
  match byteAt r.body 0 with
  | 1 => s.timeStep (sext 32 (leAt r.body 4 4)) 0
  | 4 =>
    if 8 ≤ g then s
    else
      let s := (s.setReg .grpAnchor 0 g (w32 (leAt r.body 4 4))).setReg .grpRate 0 g (w32 (leAt r.body 8 4))
      let s := s.setGroup g { s.group g with k := 0, rate := none, align := none, rateDue := none, alignDue := none }
      let s := s.setNext g (s.firstK g r.time (framePs (leAt r.body 8 4) / 1000))
      (s.emit 0x3008 0 0 (pay [g, (s.reg .grpNext 0 g).toNat])).alignNotes g
  | _ => s

/-- One record (R519, R527); every other kind is stored, not applied (DEDUCED, log 56). -/
def State.applyRec (s : State) (r : JRec) : State :=
  let s := s.setTnd { s.tnd with applying := true }
  let s : State := match r.kind with
    | 1 => s.applyLatch r
    | 2 => s.applyLatch r
    | 3 => s.applyStrip r
    | 4 => s.applyDoubt r
    | 5 => s.applyRowchk r
    | 6 => s.applyIngest r
    | 7 => s.applyCommand r
    | 8 => s.setTnd { s.tnd with streams := s.tnd.streams ++ [(leAt r.body 0 2, leAt r.body 4 4)] }
    | 9 => s.applyWrite r
    | 10 => s.applyTiming r
    | 0x15 => if byteAt r.body 1 = 5 ∧ byteAt r.body 2 = 0 then s.setTnd { s.tnd with differ := addSet s.tnd.differ (byteAt r.body 0) } else s
    | _ => s
  s.setTnd { s.tnd with applying := false }

/-! ### The partner's journal (R512, R519, R521) -/

/-- A partner's record is stored with its own SEQ and the PARTNER flag (R499) (DEDUCED, log 56). -/
def State.storeRec (s : State) (r : JRec) : State :=
  s.onBus fun b => Bus.jtrim 16 { b with jbuf := b.jbuf ++ [{ r with flags := r.flags ||| 1 }] }

/-- The oldest record waiting is due: the checkpoint is loaded or this record completes it, and every MIRROR packet sent before has reached
memory (R520, R521). -/
def State.recordReady (s : State) : Bool := s.tnd.joinLoaded && (assocGet s.tnd.rxJump 0x102).isNone

/-- Apply the records that wait, in SEQ order; one that the checkpoint holds already is passed over. -/
def State.drainRecs : Nat → State → State
  | 0, s => s
  | fuel + 1, s =>
    match s.tnd.records with
    | [] => s
    | r :: rest =>
      if !s.follows ∨ !s.recordReady then s
      else
        let s := s.setTnd { s.tnd with records := rest }
        if sdiff r.seq s.tnd.applied ≤ 0 then State.drainRecs fuel s
        else
          let s := s.applyRec r
          let s := s.setTnd { s.tnd with applied := r.seq, appliedTime := r.time }
          State.drainRecs fuel (s.setReg .tndLagUs 0 0 (w32 ((max 0 (sdiff s.now r.time)).toNat / 1000)))

/-- The records of a payload, none when a part of it is no record with a good check. -/
def splitRecs : Nat → List Byte → Option (List JRec)
  | 0, _ => none
  | fuel + 1, b =>
    if b.isEmpty then some []
    else
      match readRec b with
      | none => none
      | some r => (splitRecs fuel (b.drop (recUnits b))).map fun l => r :: l

/-- JOURNAL_PACKET_RX: the records are stored and wait their turn; a CKPT_BEGIN tells a joining unit how long its checkpoint is. -/
def State.journalRx (s : State) (p : Nat) (sync : Bool) (raw : List Byte) : State :=
  match s.tndItem p 0x81 sync raw with
  | (s, none) => s
  | (s, some pk) =>
    match splitRecs 130 pk.payload with
    | none => s.rxUnknown p
    | some rs =>
      let s := forEach rs (fun r s => (s.storeRec r).joinLoad r) s
      let s := s.setTnd { s.tnd with records := s.tnd.records ++ rs }
      s.drainRecs (s.tnd.records.length + 1)

/-- MIRROR_RX, and the records that waited for it. -/
def State.mirrorThenRecs (s : State) (p : Nat) (sync : Bool) (raw : List Byte) : State :=
  let s := s.mirrorRx p sync raw
  s.drainRecs (s.tnd.records.length + 1)

/-- FOLLOW_HOLD_TIMEOUT (R519): a head has held composition 2 ms for its LATCH records, and goes on without them (DEDUCED, log 57). -/
def State.holdTimeout (s : State) (h : Nat) : State :=
  match (s.head h).hold with
  | none => s
  | some t =>
    if t + 2 * tickMs ≤ s.ticks then
      let s := s.setHead h { s.head h with hold := none }
      s.setTnd { s.tnd with followed := assocSet s.tnd.followed h (s.reg .headFrame h 0).toNat }
    else s

/-- TANDEM_TIME_STEP (R522): the offset to the partner's TIME_NS as measured. A joining unit steps by it once it holds 8 echoes, a STANDBY
when it has exceeded TIME_TOL for 1 s; the ACTIVE never steps for its partner. -/
def State.tandemTime (s : State) (ofs : Int) : State :=
  if s.plan.tandem.isNone then s
  else
    let s := s.setReg .tndTimeOfs 0 0 (i32 ofs)
    let echoes : Bool := s.plan.tandemPorts.any fun p => decide (8 ≤ (s.link p).echoes.length)
    let step (s : State) : State := (s.timeStep ofs 0).setReg .tndTimeOfs 0 0 0
    if s.role = 1 ∧ !s.tnd.stepped ∧ echoes then (step s).setTnd { (step s).tnd with stepped := true, ofsTick := none }
    else if s.role ≠ 2 ∨ ofs.natAbs ≤ s.fld .tndXTimeTol 0 0 0 17 then s.setTnd { s.tnd with ofsTick := none }
    else
      match s.tnd.ofsTick with
      | none => s.setTnd { s.tnd with ofsTick := some s.ticks }
      | some t => if t + tickS ≤ s.ticks then (step s).setTnd { (step s).tnd with ofsTick := none } else s

/-! ### The latch instant of a head -/

/-- A zone reload or the entry to SERVICE waits for the head's latch instant, at which it sends SAFE in place of a frame (spec/02 R70,
spec/04 R135). -/
def State.leavesAtLatch (s : State) (h : Nat) : Bool :=
  (match s.wdn.zone with | some z => z.step == 1 && z.heads.contains h | none => false) ||
    (match s.wdn.serviceStep with | some (_, _, 0, heads) => heads.contains h | _ => false)

/-- The head's latch instant has come, or the head is no longer ON. -/
def State.latchDue (s : State) (h : Nat) : Bool :=
  !s.isOn 0x14 h || ((s.head h).next.map fun t => atOrAfter s.now t).getD false

/-- HEAD_LATCH, and what waits for a head's latch instant: a zone reload, the entry to SERVICE, the LATCH records of the frame. -/
def State.latchInstant (s : State) (h : Nat) : State :=
  if s.leavesAtLatch h then (if s.latchDue h then (s.zoneLatch h).serviceLatch h else s)
  else
    let t := s.headLatch h
    if t.reg .headFrame h 0 = s.reg .headFrame h 0 then t
    else (t.tryLatch h).zoneDone

/-! ### The re-run (R526 to R528) -/

/-- The record of the recording that is next is read, as master JOURNAL; none where no sound record can be read (DEDUCED, log 53). -/
def State.rerunFetch (s : State) : State :=
  match s.jrn.rerun with
  | none => s
  | some x =>
    let n := min 256 (x.len - x.pos)
    if n = 0 then s.setRerun { x with next := none }
    else
      match s.load 150 (x.addr + x.pos) n with
      | (s, .ok b) => s.setRerun { x with next := (readRec b).map fun r => (r, r.length + (if r.kind = 0x11 then r.dataLength else 0)) }
      | (s, _) => s.setRerun { x with next := none }

/-- RERUN_LOADED (R526): the checkpoint is loaded and TIME_NS stepped to its CUT time. -/
def State.rerunLoaded (s : State) : State :=
  match s.jrn.rerun with
  | none => s
  | some x =>
    if s.bus.fld .rerunState 0 0 0 2 ≠ 1 then s
    else
      match s.load 150 x.addr x.len with
      | (s, .ok b) =>
        match s.recordingStart b with
        | none => s
        | some (r, c, pos) =>
          let s := s.loadCkpt c
          let s := s.timeStep (sdiff r.time s.now) 0
          ((s.setRerun { x with pos := pos }).rerunFetch).onBus fun b => b.setReg .rerunState 0 0 2
      | (s, _) => s

/-- The record of the recording that is next, with its length there; `none` at the end. -/
def State.rerunNext (s : State) : Option (JRec × Nat) := s.jrn.rerun.bind RerunSt.next

/-- Apply the records whose instant has come (DEDUCED, log 53). -/
def State.rerunApply : Nat → State → State
  | 0, s => s
  | fuel + 1, s =>
    if !s.rerunning then s
    else
      match s.rerunNext with
      | none => s
      | some (r, n) =>
        if !atOrAfter s.now r.time then s
        else
          let s : State := match s.jrn.rerun with
            | some x => (s.setRerun { x with pos := x.pos + n }).rerunFetch
            | none => s
          State.rerunApply fuel (s.applyRec r)

/-- RERUN_DONE (R528): no record is left. -/
def State.rerunDone (s : State) : State :=
  if s.rerunning && s.rerunNext.isNone then s.rerunEnds else s

/-! ### The memory window -/

/-- MEMORY_WINDOW_WRITE (spec/03 R81, spec/04 R125): the write is checked and taken or dropped; what an ACTIVE takes of a mirror window goes to
the partner (R520). -/
def State.mwinWrite (s : State) (port off : Nat) (data : List Byte) : State :=
  let a := s.bus.mwinAddr port off
  match s.store port a data with
  | (s, true) => s.mirrorWrite port a data
  | (s, false) => s

/-! ### Idle -/

/-- What a tick does that no command names (log 1): TIME_NS counts, the array takes the oldest queued write, and a re-run goes on (DEDUCED, log 13; DESIGN CHOICE, log 72). -/
def State.idle (s : State) : State :=
  if !(s.powered && s.fabricUp) then s.onBus fun b => { b with ticks := b.ticks + 1 }
  else
    let s := s.countTick.onBus fun b => b.drainOne
    if s.rerunning then (State.rerunApply 64 s).settle else s.settle

/-! ### The commands -/

def execRerunLoad (r k : Nat) (s : State) : Answer := s.fabric fun s => s.runCmd 0x3105 rerunLoad r k
def execRerunStop (r k : Nat) (s : State) : Answer := s.fabric fun s => s.runCmd 0x3106 rerunStop r k
def execRerunLoaded (s : State) : Answer := s.fabric State.rerunLoaded
def execRerunDone (s : State) : Answer := s.fabric State.rerunDone
def execCommandWaitEnd (r k : Nat) (s : State) : Answer := s.fabric fun s => s.waitEnd r k
def execJournalPacketRx (p : Nat) (skew : List Nat) (lines : List (List Bool)) (s : State) : Answer :=
  s.fabric fun s => s.arrives p skew lines fun s sync raw => s.journalRx p sync raw
def execMirrorRx (p : Nat) (skew : List Nat) (lines : List (List Bool)) (s : State) : Answer :=
  s.fabric fun s => s.arrives p skew lines fun s sync raw => s.mirrorThenRecs p sync raw
def execFollowHoldTimeout (h : Nat) (s : State) : Answer := s.fabric fun s => s.holdTimeout h
def execTandemTimeStep (ofs : Int) (s : State) : Answer := s.fabric fun s => s.tandemTime ofs
def execHeadLatch (h : Nat) (s : State) : Answer := s.fabric fun s => s.latchInstant h
def execMemoryWindowWrite (port off : Nat) (data : List Byte) (s : State) : Answer := s.window fun s => s.mwinWrite port off data

end Sys2Proof.Machine
end

