-- ==== Sys2Proof/Machine/Dispatch.lean ====
section
/-! DEFINITION. One arm per command: each is one direct call of its meaning. -/

namespace Sys2Proof.Machine

/-- The effect of a command on everything but the queue (spec/opcode_table.json). -/
def exec (i : Instr) (s : State) : Host.Outcome State Fault Refusal :=
  match i with
  | .powerOnReset straps => Sys2Proof.Machine.execPowerOnReset straps s
  | .sysResetNAssert => Sys2Proof.Machine.execSysResetNAssert s
  | .warmReset port key => Sys2Proof.Machine.execWarmReset port key s
  | .fabricReset port key => Sys2Proof.Machine.execFabricReset port key s
  | .smbusReset data pec => Sys2Proof.Machine.execSmbusReset data pec s
  | .lockstepMismatch => Sys2Proof.Machine.execLockstepMismatch s
  | .startHoldRelease => Sys2Proof.Machine.execStartHoldRelease s
  | .supplyWaitTimeout out => Sys2Proof.Machine.execSupplyWaitTimeout out s
  | .perstDeassert port => Sys2Proof.Machine.execPerstDeassert port s
  | .structureLoad out => Sys2Proof.Machine.execStructureLoad out s
  | .routingComputed out => Sys2Proof.Machine.execRoutingComputed out s
  | .writeSlot port slot => Sys2Proof.Machine.execWriteSlot port slot s
  | .slotWritten same => Sys2Proof.Machine.execSlotWritten same s
  | .setPreferred port slot => Sys2Proof.Machine.execSetPreferred port slot s
  | .confirm port => Sys2Proof.Machine.execConfirm port s
  | .confirmTimeout => Sys2Proof.Machine.execConfirmTimeout s
  | .zoneReload port zone => Sys2Proof.Machine.execZoneReload port zone s
  | .zoneDrainEnd => Sys2Proof.Machine.execZoneDrainEnd s
  | .zoneRoutingLoaded fail => Sys2Proof.Machine.execZoneRoutingLoaded fail s
  | .verify port => Sys2Proof.Machine.execVerify port s
  | .revokeKey port key => Sys2Proof.Machine.execRevokeKey port key s
  | .raiseFloor port => Sys2Proof.Machine.execRaiseFloor port s
  | .provisionKey port key => Sys2Proof.Machine.execProvisionKey port key s
  | .handshakeCompletionTimeout g => Sys2Proof.Machine.execHandshakeCompletionTimeout g s
  | .vddFabRequestRaise monitor => Sys2Proof.Machine.execVddFabRequestRaise monitor s
  | .vddFabRequestLower => Sys2Proof.Machine.execVddFabRequestLower s
  | .avsReadbackFault => Sys2Proof.Machine.execAvsReadbackFault s
  | .fnEnable port cap n => Sys2Proof.Machine.execFnEnable port cap n s
  | .fnDisable port cap n => Sys2Proof.Machine.execFnDisable port cap n s
  | .fnLevelSet port cap n expert => Sys2Proof.Machine.execFnLevelSet port cap n expert s
  | .functionStarted cap n => Sys2Proof.Machine.execFunctionStarted cap n s
  | .shutdownComplete cap n => Sys2Proof.Machine.execShutdownComplete cap n s
  | .stopSlow cap n => Sys2Proof.Machine.execStopSlow cap n s
  | .hostPortReset port => Sys2Proof.Machine.execHostPortReset port s
  | .hostPortResetEnd port => Sys2Proof.Machine.execHostPortResetEnd port s
  | .controlWindowBadAccess port write => Sys2Proof.Machine.execControlWindowBadAccess port write s
  | .memoryWindowRead port off n => Sys2Proof.Machine.execMemoryWindowRead port off n s
  | .memoryWindowWrite port off data => Sys2Proof.Machine.execMemoryWindowWrite port off data s
  | .registerWrite port cap inst blk off v => Sys2Proof.Machine.execRegisterWrite port cap inst blk off v s
  | .rcRegisterRead port cap inst blk off => Sys2Proof.Machine.execRcRegisterRead port cap inst blk off s
  | .ringDoorbell port r v => Sys2Proof.Machine.execRingDoorbell port r v s
  | .ringConsWrite port r v => Sys2Proof.Machine.execRingConsWrite port r v s
  | .ringWaitLimitWrite port r v => Sys2Proof.Machine.execRingWaitLimitWrite port r v s
  | .commandWaitEnd r k => Sys2Proof.Machine.execCommandWaitEnd r k s
  | .fenceTimeout r k => Sys2Proof.Machine.execFenceTimeout r k s
  | .nop r k => Sys2Proof.Machine.execNop r k s
  | .barrier port v => Sys2Proof.Machine.execBarrier port v s
  | .barrierDone port => Sys2Proof.Machine.execBarrierDone port s
  | .fenceSignalWrite port obj hi => Sys2Proof.Machine.execFenceSignalWrite port obj hi s
  | .fenceValueRead port obj high => Sys2Proof.Machine.execFenceValueRead port obj high s
  | .holdoffExpiry r => Sys2Proof.Machine.execHoldoffExpiry r s
  | .ptmDialogue port enabled hostTime delay ok => Sys2Proof.Machine.execPtmDialogue port enabled hostTime delay ok s
  | .ptmSnapshotRead port part => Sys2Proof.Machine.execPtmSnapshotRead port part s
  | .regionUpdate port m r v => Sys2Proof.Machine.execRegionUpdate port m r v s
  | .accSync port m token => Sys2Proof.Machine.execAccSync port m token s
  | .syncDone m => Sys2Proof.Machine.execSyncDone m s
  | .noticeWindowClose m write => Sys2Proof.Machine.execNoticeWindowClose m write s
  | .enterService port => Sys2Proof.Machine.execEnterService port s
  | .setField port => Sys2Proof.Machine.execSetField port s
  | .debugMasterAccess write a n data => Sys2Proof.Machine.execDebugMasterAccess write a n data s
  | .debugAccessRecord => Sys2Proof.Machine.execDebugAccessRecord s
  | .memoryRead m a n ce ue => Sys2Proof.Machine.execMemoryRead m a n ce ue s
  | .memoryWrite m a data => Sys2Proof.Machine.execMemoryWrite m a data s
  | .scrubRead result => Sys2Proof.Machine.execScrubRead result s
  | .scrubPass => Sys2Proof.Machine.execScrubPass s
  | .ceSummary => Sys2Proof.Machine.execCeSummary s
  | .memBytesRead port stack high => Sys2Proof.Machine.execMemBytesRead port stack high s
  | .stackTempReading t0 t1 => Sys2Proof.Machine.execStackTempReading t0 t1 s
  | .warmingTimeout stack => Sys2Proof.Machine.execWarmingTimeout stack s
  | .trainingComplete fullSearch repairs failed => Sys2Proof.Machine.execTrainingComplete fullSearch repairs failed s
  | .zeroingComplete => Sys2Proof.Machine.execZeroingComplete s
  | .eyeDriftCheck low => Sys2Proof.Machine.execEyeDriftCheck low s
  | .retrained pc ok => Sys2Proof.Machine.execRetrained pc ok s
  | .submit r k => Sys2Proof.Machine.execSubmit r k s
  | .fillTimeout n => Sys2Proof.Machine.execFillTimeout n s
  | .sourceStateEval n => Sys2Proof.Machine.execSourceStateEval n s
  | .srcCull n => Sys2Proof.Machine.execSrcCull n s
  | .testPatternRegen n => Sys2Proof.Machine.execTestPatternRegen n s
  | .compress r k => Sys2Proof.Machine.execCompress r k s
  | .decompress r k => Sys2Proof.Machine.execDecompress r k s
  | .decodeStreamBind n => Sys2Proof.Machine.execDecodeStreamBind n s
  | .decodePictureStart c n => Sys2Proof.Machine.execDecodePictureStart c n s
  | .decodePictureEnd c o => Sys2Proof.Machine.execDecodePictureEnd c o s
  | .headStartReady h => Sys2Proof.Machine.execHeadStartReady h s
  | .cadenceFrameInstant g => Sys2Proof.Machine.execCadenceFrameInstant g s
  | .headLatch h => Sys2Proof.Machine.execHeadLatch h s
  | .stripStart h => Sys2Proof.Machine.execStripStart h s
  | .tileColumnDone h c unit timeout parity => Sys2Proof.Machine.execTileColumnDone h c unit timeout parity s
  | .stripComplete h => Sys2Proof.Machine.execStripComplete h s
  | .stripReadoutStart h => Sys2Proof.Machine.execStripReadoutStart h s
  | .stripSlotFree o => Sys2Proof.Machine.execStripSlotFree o s
  | .frameReadoutEnd h => Sys2Proof.Machine.execFrameReadoutEnd h s
  | .layerSet r k => Sys2Proof.Machine.execLayerSet r k s
  | .layerFence r k => Sys2Proof.Machine.execLayerFence r k s
  | .loadCoeff r k => Sys2Proof.Machine.execLoadCoeff r k s
  | .readCoeff r k => Sys2Proof.Machine.execReadCoeff r k s
  | .cursorLoad r k => Sys2Proof.Machine.execCursorLoad r k s
  | .commit r k => Sys2Proof.Machine.execCommit r k s
  | .cursorPosWrite host h v => Sys2Proof.Machine.execCursorPosWrite host h v s
  | .cursorHidden h => Sys2Proof.Machine.execCursorHidden h s
  | .tileDoubt h => Sys2Proof.Machine.execTileDoubt h s
  | .tileSnapshotWrite host h v => Sys2Proof.Machine.execTileSnapshotWrite host h v s
  | .witnessTileCheck p tile o => Sys2Proof.Machine.execWitnessTileCheck p tile o s
  | .witnessFrameCheck p rows o => Sys2Proof.Machine.execWitnessFrameCheck p rows o s
  | .witnessIslandPowerLoss => Sys2Proof.Machine.execWitnessIslandPowerLoss s
  | .witnessReportTimeout => Sys2Proof.Machine.execWitnessReportTimeout s
  | .limitSet r k => Sys2Proof.Machine.execLimitSet r k s
  | .policySet r k => Sys2Proof.Machine.execPolicySet r k s
  | .rearm r k => Sys2Proof.Machine.execRearm r k s
  | .modeCommit r k => Sys2Proof.Machine.execModeCommit r k s
  | .lutLoad r k => Sys2Proof.Machine.execLutLoad r k s
  | .lutRead r k => Sys2Proof.Machine.execLutRead r k s
  | .headFrameRead port h time => Sys2Proof.Machine.execHeadFrameRead port h time s
  | .ambientDwellMet h => Sys2Proof.Machine.execAmbientDwellMet h s
  | .ambientTimeout h => Sys2Proof.Machine.execAmbientTimeout h s
  | .encodeInstant c => Sys2Proof.Machine.execEncodeInstant c s
  | .encodePictureEnd c => Sys2Proof.Machine.execEncodePictureEnd c s
  | .encInputRelease c => Sys2Proof.Machine.execEncInputRelease c s
  | .encCapWrite host c sec v => Sys2Proof.Machine.execEncCapWrite host c sec v s
  | .select r k => Sys2Proof.Machine.execSelect r k s
  | .requestIdr r k => Sys2Proof.Machine.execRequestIdr r k s
  | .trainingStart p => Sys2Proof.Machine.execTrainingStart p s
  | .trainBlockRx p lane bits locked ask sweep => Sys2Proof.Machine.execTrainBlockRx p lane bits locked ask sweep s
  | .phaseTimeout p => Sys2Proof.Machine.execPhaseTimeout p s
  | .trainingLimit p => Sys2Proof.Machine.execTrainingLimit p s
  | .trainingRetry p => Sys2Proof.Machine.execTrainingRetry p s
  | .laneLoss p lane loss => Sys2Proof.Machine.execLaneLoss p lane loss s
  | .laneFaultMarkerRx p bits => Sys2Proof.Machine.execLaneFaultMarkerRx p bits s
  | .repairDone p => Sys2Proof.Machine.execRepairDone p s
  | .repairTimeout p => Sys2Proof.Machine.execRepairTimeout p s
  | .txIslandLoss p => Sys2Proof.Machine.execTxIslandLoss p s
  | .retrain r k => Sys2Proof.Machine.execRetrain r k s
  | .power r k => Sys2Proof.Machine.execPower r k s
  | .powerState p => Sys2Proof.Machine.execPowerState p s
  | .test r k => Sys2Proof.Machine.execTest r k s
  | .testDone p rx heard => Sys2Proof.Machine.execTestDone p rx heard s
  | .inject r k => Sys2Proof.Machine.execInject r k s
  | .rasterFrameStartRx p skew lines => Sys2Proof.Machine.execRasterFrameStartRx p skew lines s
  | .rasterLineRx p skew lines => Sys2Proof.Machine.execRasterLineRx p skew lines s
  | .rasterFrameEndRx p skew lines => Sys2Proof.Machine.execRasterFrameEndRx p skew lines s
  | .surfaceTileRx p skew lines => Sys2Proof.Machine.execSurfaceTileRx p skew lines s
  | .damageRx p skew lines => Sys2Proof.Machine.execDamageRx p skew lines s
  | .fenceSignalRx p skew lines => Sys2Proof.Machine.execFenceSignalRx p skew lines s
  | .statusRx p skew lines => Sys2Proof.Machine.execStatusRx p skew lines s
  | .partnerSilent p => Sys2Proof.Machine.execPartnerSilent p s
  | .timeSend p => Sys2Proof.Machine.execTimeSend p s
  | .timeEchoRx p skew lines => Sys2Proof.Machine.execTimeEchoRx p skew lines s
  | .creditSend p => Sys2Proof.Machine.execCreditSend p s
  | .safeRepeat p => Sys2Proof.Machine.execSafeRepeat p s
  | .epochRepeat p => Sys2Proof.Machine.execEpochRepeat p s
  | .linkHoldCapWrite host p v => Sys2Proof.Machine.execLinkHoldCapWrite host p v s
  | .checkAppend r k => Sys2Proof.Machine.execCheckAppend r k s
  | .checkVerify r k => Sys2Proof.Machine.execCheckVerify r k s
  | .panelStart p => Sys2Proof.Machine.execPanelStart p s
  | .touchCycleStart p => Sys2Proof.Machine.execTouchCycleStart p s
  | .touchFrameRx port skew lines bufOk => Sys2Proof.Machine.execTouchFrameRx port skew lines bufOk s
  | .touchAgeTimeout p => Sys2Proof.Machine.execTouchAgeTimeout p s
  | .unavailableRepeat p => Sys2Proof.Machine.execUnavailableRepeat p s
  | .baselineAdapt p => Sys2Proof.Machine.execBaselineAdapt p s
  | .baselineSaved p => Sys2Proof.Machine.execBaselineSaved p s
  | .contactExpired p => Sys2Proof.Machine.execContactExpired p s
  | .selfTestDue p => Sys2Proof.Machine.execSelfTestDue p s
  | .keysLoad r k => Sys2Proof.Machine.execKeysLoad r k s
  | .rebaseline r k => Sys2Proof.Machine.execRebaseline r k s
  | .selfTest r k => Sys2Proof.Machine.execSelfTest r k s
  | .rawRead r k => Sys2Proof.Machine.execRawRead r k s
  | .incrementSlewStep => Sys2Proof.Machine.execIncrementSlewStep s
  | .wrap => Sys2Proof.Machine.execWrap s
  | .step r k => Sys2Proof.Machine.execStep r k s
  | .refInactive r => Sys2Proof.Machine.execRefInactive r s
  | .refActive r => Sys2Proof.Machine.execRefActive r s
  | .refMeasurement r edges n phase => Sys2Proof.Machine.execRefMeasurement r edges n phase s
  | .refQualified r => Sys2Proof.Machine.execRefQualified r s
  | .refCfgWrite host r nom v => Sys2Proof.Machine.execRefCfgWrite host r nom v s
  | .timCtlWrite host v => Sys2Proof.Machine.execTimCtlWrite host v s
  | .wtrExpiry r => Sys2Proof.Machine.execWtrExpiry r s
  | .lockTestMet => Sys2Proof.Machine.execLockTestMet s
  | .holdExpired => Sys2Proof.Machine.execHoldExpired s
  | .timHostIncrWrite host hi => Sys2Proof.Machine.execTimHostIncrWrite host hi s
  | .hostRefTimeout => Sys2Proof.Machine.execHostRefTimeout s
  | .align r k => Sys2Proof.Machine.execAlign r k s
  | .groupRate r k => Sys2Proof.Machine.execGroupRate r k s
  | .capture c t sub => Sys2Proof.Machine.execCapture c t sub s
  | .capTimeRead port c => Sys2Proof.Machine.execCapTimeRead port c s
  | .capSubRead port c => Sys2Proof.Machine.execCapSubRead port c s
  | .timNowRead port frac => Sys2Proof.Machine.execTimNowRead port frac s
  | .pulseEdge p => Sys2Proof.Machine.execPulseEdge p s
  | .journalRingWrite => Sys2Proof.Machine.execJournalRingWrite s
  | .checkpointStart => Sys2Proof.Machine.execCheckpointStart s
  | .checkpointEnd => Sys2Proof.Machine.execCheckpointEnd s
  | .ckptAbandoned => Sys2Proof.Machine.execCkptAbandoned s
  | .frTrigger => Sys2Proof.Machine.execFrTrigger s
  | .frFrozen => Sys2Proof.Machine.execFrFrozen s
  | .freeze r k => Sys2Proof.Machine.execFreeze r k s
  | .release r k => Sys2Proof.Machine.execRelease r k s
  | .dump r k => Sys2Proof.Machine.execDump r k s
  | .frDumped => Sys2Proof.Machine.execFrDumped s
  | .mark r k => Sys2Proof.Machine.execMark r k s
  | .rerunLoad r k => Sys2Proof.Machine.execRerunLoad r k s
  | .rerunStop r k => Sys2Proof.Machine.execRerunStop r k s
  | .rerunDone => Sys2Proof.Machine.execRerunDone s
  | .handover r k => Sys2Proof.Machine.execHandover r k s
  | .resync r k => Sys2Proof.Machine.execResync r k s
  | .heartbeatSend => Sys2Proof.Machine.execHeartbeatSend s
  | .heartbeatRx p skew lines => Sys2Proof.Machine.execHeartbeatRx p skew lines s
  | .heartbeatTimeout => Sys2Proof.Machine.execHeartbeatTimeout s
  | .joinTimeout => Sys2Proof.Machine.execJoinTimeout s
  | .handoverTimeReached => Sys2Proof.Machine.execHandoverTimeReached s
  | .failedHeartbeatEnd => Sys2Proof.Machine.execFailedHeartbeatEnd s
  | .journalPacketRx p skew lines => Sys2Proof.Machine.execJournalPacketRx p skew lines s
  | .followHoldTimeout h => Sys2Proof.Machine.execFollowHoldTimeout h s
  | .mirrorRx p skew lines => Sys2Proof.Machine.execMirrorRx p skew lines s
  | .checkpointRx p skew lines => Sys2Proof.Machine.execCheckpointRx p skew lines s
  | .ackSend => Sys2Proof.Machine.execAckSend s
  | .ackRx p skew lines => Sys2Proof.Machine.execAckRx p skew lines s
  | .syncReqRx p skew lines => Sys2Proof.Machine.execSyncReqRx p skew lines s
  | .joinComplete => Sys2Proof.Machine.execJoinComplete s
  | .tandemTimeStep ofs => Sys2Proof.Machine.execTandemTimeStep ofs s
  | .epochStatusWaitTimeout p => Sys2Proof.Machine.execEpochStatusWaitTimeout p s
  | .sensorReading ts => Sys2Proof.Machine.execSensorReading ts s
  | .sensorTimeout n => Sys2Proof.Machine.execSensorTimeout n s
  | .graceEnd => Sys2Proof.Machine.execGraceEnd s
  | .enforceStep => Sys2Proof.Machine.execEnforceStep s
  | .enforceRelease => Sys2Proof.Machine.execEnforceRelease s
  | .cutoff => Sys2Proof.Machine.execCutoff s
  | .autoRecovery => Sys2Proof.Machine.execAutoRecovery s
  | .refclkLoss => Sys2Proof.Machine.execRefclkLoss s
  | .wclkLoss => Sys2Proof.Machine.execWclkLoss s
  | .supplyOutOfWindow rail => Sys2Proof.Machine.execSupplyOutOfWindow rail s
  | .wardenRailLoss => Sys2Proof.Machine.execWardenRailLoss s
  | .lifeHour => Sys2Proof.Machine.execLifeHour s
  | .wearDay => Sys2Proof.Machine.execWearDay s
  | .smbusSetPointer off pec => Sys2Proof.Machine.execSmbusSetPointer off pec s
  | .smbusRead => Sys2Proof.Machine.execSmbusRead s
  | .smbusWrite v pec => Sys2Proof.Machine.execSmbusWrite v pec s
  | .smbusAlertResponse => Sys2Proof.Machine.execSmbusAlertResponse s
  | .witnessIslandRestored => Sys2Proof.Machine.execWitnessIslandRestored s
  | .structCmdDone => Sys2Proof.Machine.execStructCmdDone s
  | .rerunLoaded => Sys2Proof.Machine.execRerunLoaded s

end Sys2Proof.Machine
end

