-- ==== Sys2Proof/Safety.lean ====
section
/-! DEFINITION. The terms that claims use: what every step keeps (the canonical form of device memory, what OTP holds, what has left
the device, elapsed time, the commands that wait), and when a command reaches the device. -/

namespace Sys2Proof.Machine

/-- Device memory is in its canonical form: addresses strictly rising, no byte listed that an unlisted address reads as. -/
def Memory.wf (mem : List Host.Cell) : Bool := tabWf (0 : Byte) mem

/-- What one-time programmable memory allows between two instants (spec/02 R62, R63; spec/04 R132): a revoke bit that is set stays
set, the SEQUENCE floor never falls, FIELD stays blown. -/
structure OtpKeeps (a b : OtpSt) : Prop where
  revoked : ∀ i, a.revoked.getD i false = true → b.revoked.getD i false = true
  floor : a.floor ≤ b.floor
  field : a.field = true → b.field = true

/-- What the shared part keeps: the form of memory; elapsed ticks and the count of free values never fall; what has left the device is
never taken back. -/
structure BusKeeps (a b : Bus) : Prop where
  mem : Memory.wf a.mem = true → Memory.wf b.mem = true
  ticks : a.ticks ≤ b.ticks
  free : a.free ≤ b.free
  wire : a.wire <+: b.wire

/-- What a command keeps of the whole state; a command never touches the queue. -/
structure Keeps (s t : State) : Prop where
  bus : BusKeeps s.bus t.bus
  otp : OtpKeeps s.otp t.otp
  queue : t.pending = s.pending

/-- An answer that is a next state keeps what `Keeps` says. -/
def AnswerKeeps (s : State) (a : Answer) : Prop := ∀ t, a = .next t → Keeps s t

/-- The fabric die is powered and out of reset, so that commands to it take effect. -/
def State.live (s : State) : Prop := s.powered = true ∧ s.fabricUp = true

/-- A host's register write reaches a function instance: from one of the four ports, not under reset (spec/03 R82), on a unit that does not
follow a partner (spec/16 R518), to an instance that the structure has (spec/03 R84) and that the window holds (spec/17 R538). -/
def State.reached (s : State) (port cap inst : Nat) : Prop :=
  port < 4 ∧ (s.bus.hostSt port).underReset = false ∧ s.follows = false ∧ s.plan.has cap inst = true ∧ s.holds cap = true

/-- Entry k of ring r is the command `e` of opcode `op`, may enter step 3 of spec/03 R101, and the head of its record is as R100 gives. -/
def State.ripe (s : State) (op r k : Nat) (e : FEntry) : Prop :=
  s.live ∧ s.entry r k = some e ∧ e.opcode = op ∧ s.mayRun r e = true ∧ e.headOk = true

end Sys2Proof.Machine
end

