-- ==== Sys2Proof/Certificates/Slice0/Obligations.lean ====
section
/-! DEFINITION. The statements about the machine, in the terms of spec/'s rules. In each, a command's answer is the state after its
effect, followed by `State.watch` (panels follow) and `State.settle` (events are delivered). -/

open Sys2Proof Sys2Proof.Machine

/-- The table's steps are taken one at a time, first in, first out (spec/95_what_each_step_holds.md; the queue is the model's). -/
def Obligations.StepRunsTheFrontCommand : Prop :=
  ∀ (c : Instr) (rest : List Instr) (s : State), step { s with pending := c :: rest } = exec c { s with pending := rest }

/-- R472: at each REFCLK tick the increment is added. That an idle step is one tick is the model's choice (log 1). -/
def Obligations.IdleStepIsOneTick : Prop :=
  ∀ s : State, s.pending = [] →
    ∃ t, step s = .next t ∧ t.pending = [] ∧ s.bus.ticks + 1 = t.bus.ticks ∧
      (s.live → s.rerunning = false →
        t.bus.time.toNat * 2 ^ 32 + t.bus.frac.toNat = (s.bus.time.toNat * 2 ^ 32 + s.bus.frac.toNat + s.incr) % 2 ^ 64)

/-- Every row of the table has an effect, so no command ends in a fault or a refusal (the rule for an event whose condition does not hold is
the model's, log 4). -/
def Obligations.EveryCommandAnswersANextState : Prop := ∀ (c : Instr) (s : State), ∃ t, exec c s = .next t

/-- Memory stays a function of the address: strictly rising addresses, nothing listed that an unlisted address reads as (log 2). -/
def Obligations.StepKeepsMemoryForm : Prop :=
  ∀ s t : State, Memory.wf s.bus.mem = true → step s = .next t → Memory.wf t.bus.mem = true

/-- What reset leaves: R472 (time and increment), R115 (reset ENABLE of the FENCES instance), R537 (the fabric die waits for the warden). -/
def Obligations.ResetMeetsTheInvariants : Prop :=
  State.reset.pending = [] ∧ State.reset.bus.mem = [] ∧ Memory.wf State.reset.bus.mem = true ∧ State.reset.powered = true ∧
    State.reset.fabricUp = false ∧ State.reset.bus.time = 0 ∧ State.reset.bus.frac = 0 ∧ State.reset.incr = 0x500000000 ∧
    (∀ cap inst, State.reset.bus.fnState cap inst = 0) ∧
    bit (State.reset.bus.reg .fnCtl 3 0) 0 = true

/-- R62 (revoke bits), R63 (the SEQUENCE floor only rises), R132 (FIELD): no step of any kind undoes them. -/
def Obligations.StepNeverUndoesOtp : Prop := ∀ s t : State, step s = .next t → OtpKeeps s.otp t.otp

/-- What every command keeps: the queue, elapsed time, and the order of what has left the device. -/
def Obligations.CommandKeepsQueueTimeAndWire : Prop :=
  ∀ (c : Instr) (s t : State), exec c s = .next t →
    t.pending = s.pending ∧ s.bus.ticks ≤ t.bus.ticks ∧ s.bus.free ≤ t.bus.free ∧ s.bus.wire <+: t.bus.wire

/-- The frame of the end of a command: what `watch` and `settle` leave, so that what a command's effect gives stands in the next state. -/
def Obligations.DeliveryLeavesEverythingElse : Prop :=
  ∀ s t : State, t = s.watch.settle →
    t.bus.time = s.bus.time ∧ t.bus.frac = s.bus.frac ∧ t.bus.ticks = s.bus.ticks ∧ t.bus.pairLo = s.bus.pairLo ∧
    t.bus.froz = s.bus.froz ∧ t.bus.jbuf = s.bus.jbuf ∧ t.bus.jlost = s.bus.jlost ∧
    (∀ r i j, r ≠ .touchStatus → r ≠ .touchSuspect → r ≠ .touchDropped → r ≠ .touchReports → r ≠ .touchLastAge →
      t.reg r i j = s.reg r i j) ∧
    (∀ r i j, (r ≠ .fnCtl ∨ i ≠ 2) → r ∉ [BReg.ringProd, .ringCons, .ringStatus, .coreEvtLost, .accWriteRefused, .memUnmapped,
        .memBytesS0Lo, .memBytesS0Hi, .memBytesS1Lo, .memBytesS1Hi, .fenceValueLo, .fenceValueHi] →
      t.bus.reg r i j = s.bus.reg r i j) ∧
    t.powered = s.powered ∧ t.fabricUp = s.fabricUp ∧ t.plan = s.plan ∧ t.lanes = s.lanes ∧ t.links = s.links ∧ t.tim = s.tim ∧
    t.srcs = s.srcs ∧ t.decs = s.decs ∧ t.cores = s.cores ∧ t.heads = s.heads.map (fun q => (q.1, s.bus.meetLayers q.2)) ∧ t.wbs = s.wbs ∧ t.encs = s.encs ∧ t.jrn = s.jrn ∧
    t.tnd = s.tnd ∧ t.wdn = s.wdn ∧ t.flash = s.flash ∧ t.otp = s.otp ∧ t.pending = s.pending

/-- R101 and R102 for a NOP, a wait past its limit and a new limit; R110 for the end of a holdoff. -/
def Obligations.NopAndWaitLimitsComplete : Prop :=
  (∀ (s : State) (r k : Nat) (e : FEntry), s.ripe 0x0100 r k e → s.plan.has 1 e.inst = true → e.object = 0xFFFF → e.zeroFrom 32 56 = true →
    s.isOn 1 e.inst = true →
    exec (.nop r k) s = .next ((s.begun r e).complete r e.k 0 0).watch.settle) ∧
  (∀ (s : State) (r k : Nat) (e : FEntry), s.live → s.entry r k = some e → s.bus.waitedOut r e = true →
    exec (.fenceTimeout r k) s =
      .next ((s.emit 0x0203 r 1 (pay [r, e.k, e.tag, e.waitFence])).complete r e.k 0x8009 0).watch.settle) ∧
  (∀ (s : State) (port r : Nat) (v : Word), s.live → s.reached port 2 r → s.plan.ringHost r = some port → bf v 0 11 ≤ 2000 →
    ∃ u : State, exec (.ringWaitLimitWrite port r v) s =
        .next (forEach ((u.bus.ringSt r).fetched.filter fun e => u.bus.waitedOut r e) (fun e s => s.timeOut r e) u).watch.settle ∧
      u.bus.reg .ringWaitLimit r 0 = w32 (bf v 0 11) ∧
      (∀ q i j, q ≠ .ringWaitLimit → q ≠ .jrnSeq → u.bus.reg q i j = s.bus.reg q i j)) ∧
  (∀ (s : State) (r h : Nat), s.live → s.plan.ringHost r = some h → (s.bus.ringSt r).holdUntil ≤ s.ticks → (s.bus.ringSt r).due = true →
    exec (.holdoffExpiry r) s = .next (s.onBus fun b => b.signal h r).watch.settle)

/-- R95, R97: the owner's doorbell and its freeing of entries. -/
def Obligations.DoorbellsMoveTheRing : Prop :=
  (∀ (s : State) (port r : Nat) (v : Word), s.live → s.reached port 2 r → s.plan.ringHost r = some port →
    hostProduced (s.bus.ringKind r) = true → (v - s.bus.ringCons r).toNat ≤ s.bus.ringSize r →
    ∃ u : State, exec (.ringDoorbell port r v) s = .next (State.fetchUpTo (u.bus.ringSize r) u port r).watch.settle ∧
      u.bus.ringProd r = v ∧ u.bus.ringSize r = s.bus.ringSize r ∧
      (∀ q i j, q ≠ .jrnSeq → (q = .ringProd → i ≠ r) → u.bus.reg q i j = s.bus.reg q i j)) ∧
  (∀ (s : State) (port r : Nat) (v : Word), s.live → s.reached port 2 r → s.plan.ringHost r = some port →
    hostProduced (s.bus.ringKind r) = false →
    ∃ u : State, exec (.ringConsWrite port r v) s = .next (u.onBus fun b => b.flushAll u.plan).watch.settle ∧
      u.bus.ringCons r = v ∧ u.plan = s.plan ∧
      (∀ q i j, q ≠ .jrnSeq → (q = .ringCons → i ≠ r) → u.bus.reg q i j = s.bus.reg q i j))

/-- R96. -/
def Obligations.BadProdStopsTheRing : Prop :=
  ∀ (s : State) (port r : Nat) (v : Word), s.live → s.reached port 2 r → s.plan.ringHost r = some port →
    hostProduced (s.bus.ringKind r) = true → s.bus.ringSize r < (v - s.bus.ringCons r).toNat → s.isOn 2 r = true →
    ∃ u : State, exec (.ringDoorbell port r v) s = .next u.watch.settle ∧ bit (u.bus.reg .ringStatus r 0) 1 = true ∧
      u.fnState 2 r = 3 ∧ u.bus.fld .fnCtl 2 r 8 4 = 2 ∧ u.bus.ringProd r = s.bus.ringProd r ∧
      (∃ e ∈ u.bus.outbox, e.typ = 0x0202 ∧ e.inst = r ∧ e.sev = 2) ∧
      (u.bus.ringSt r).fetched.length ≤ (s.bus.ringSt r).fetched.length

/-- R105 (barriers), R106 and R115 (signals by the owner), R3 (a frozen pair). -/
def Obligations.BarriersAndFenceObjects : Prop :=
  (∀ (s : State) (port : Nat) (v : Word), s.served = true → s.reached port 1 0 →
    let u := s.regWriteRec port 1 0 0 0x08 v
    let waits := if bit v 1 then (List.range 256).flatMap fun r =>
        if u.plan.ringHost r = some port ∧ u.bus.ringKind r = 0 then
          let l := (u.bus.ringSt r).fetched
          ((l.filter fun e => e.phase != .done).map fun e => (r, e.k)) ++
            (List.range (u.bus.ringUsed r - l.length)).map fun i => (r, (u.bus.ringCons r + w32 (l.length + i)).toNat)
        else [] else []
    let hs := u.bus.hostSt port
    exec (.barrier port v) s = .next (u.onBus fun b =>
      (b.setHost port { hs with barriers := hs.barriers ++ [⟨bf v 16 16, waits⟩] }).setFld .coreBarrierDone port 0 0 1 1).watch.settle) ∧
  (∀ (s : State) (port : Nat) (x : Barrier) (rest : List Barrier), s.served = true → (s.bus.hostSt port).barriers = x :: rest →
    s.bus.barrierMet x = true →
    exec (.barrierDone port) s = .next (s.onBus fun b => (b.setHost port { b.hostSt port with barriers := rest }).setReg .coreBarrierDone
      port 0 (w32 (b2n (!rest.isEmpty) + x.token * 65536))).watch.settle) ∧
  (∀ (s : State) (port obj : Nat) (hi : Word), s.live → s.reached port 3 0 → obj < 4096 → obj % 4 = port →
    let u := s.regWriteRec port 3 0 0 (16 * obj + 12) hi
    exec (.fenceSignalWrite port obj hi) s = .next (u.onBus fun b => b.fenceSignal obj
      (((assocGet u.bus.pairLo (BReg.fkey .fenceSignalLo 0 obj)).getD 0).toNat + hi.toNat * 2 ^ 32)).watch.settle) ∧
  (∀ (s : State) (port obj : Nat), s.live →
    exec (.fenceValueRead port obj false) s =
        .next (s.onBus fun b => (b.answer port (b.reg .fenceValueLo 0 obj)).freeze .fenceValueHi 0 obj).watch.settle ∧
      exec (.fenceValueRead port obj true) s =
        .next (s.onBus fun b => (b.answer port (b.frozen .fenceValueHi 0 obj)).thaw .fenceValueHi 0 obj).watch.settle)

/-- R80 to R82 and R538 (host ports), R111 and R112 (PTM). -/
def Obligations.HostPortCommandsTakeEffect : Prop :=
  (∀ (s : State) (port : Nat), s.live →
    ∃ u : State, exec (.hostPortReset port) s = .next u.watch.settle ∧ (u.bus.hostSt port).underReset = true ∧
      (u.bus.hostSt port).evq = [] ∧ (u.bus.hostSt port).msix = [] ∧ (u.bus.hostSt port).pba = [] ∧
      (u.bus.hostSt port).barriers = (s.bus.hostSt port).barriers ∧ (∀ q, q ≠ port → u.bus.hostSt q = s.bus.hostSt q) ∧
      u.bus.reg .coreEvtLost port 0 = s.bus.reg .coreEvtLost port 0 + w32 (s.bus.hostSt port).evq.length) ∧
  (∀ (s : State) (port : Nat), s.live →
    exec (.hostPortResetEnd port) s =
      .next (s.onBus fun b => b.setHost port { b.hostSt port with underReset := false }).watch.settle) ∧
  (∀ (s : State) (port : Nat), s.powered = true →
    exec (.perstDeassert port) s = .next (s.onBus fun b => b.setHost port { b.hostSt port with perst := false }).watch.settle) ∧
  (∀ (s : State) (port : Nat) (write : Bool), s.served = true →
    exec (.controlWindowBadAccess port write) s = .next (s.onBus fun b =>
      let b := b.setReg .coreBadAccess port 0 (b.reg .coreBadAccess port 0 + 1)
      if write then b else b.send (.hostRead port .unsupported [])).watch.settle) ∧
  (∀ (s u : State) (port off n : Nat) (res : MemRes), s.served = true → s.load port (s.bus.mwinAddr port off) n = (u, res) →
    let a := s.bus.mwinAddr port off
    exec (.memoryWindowRead port off n) s = .next (match res with
      | .ok d => u.send (.hostRead port .ok d)
      | .refused => (u.onBus fun b => b.aerLog port 1 a).send (.hostRead port .abort (List.replicate n 0xFF))
      | .ue d => (u.onBus fun b => b.aerLog port 2 a).send (.hostRead port .poisoned d)).watch.settle) ∧
  (∀ (s : State) (port hostTime delay : Nat), s.live →
    (∀ t, (s.bus.hostSt port).ptmTick = some t → t + s.bus.fld .coreXPtmPeriod port 0 0 10 * 200000 ≤ s.ticks) →
    ∃ u : State, exec (.ptmDialogue port true hostTime delay true) s = .next u.watch.settle ∧
      u.bus.reg .corePtmHostLo port 0 = w32 hostTime ∧ u.bus.reg .corePtmHostHi port 0 = w32 (hostTime / 2 ^ 32) ∧
      u.bus.reg .corePtmDev port 0 = s.now ∧ u.bus.reg .corePtmLinkDelay port 0 = w32 delay ∧ u.bus.fld .corePtmStatus port 0 0 1 = 1) ∧
  (∀ (s : State) (port hostTime delay : Nat), s.live →
    (∀ t, (s.bus.hostSt port).ptmTick = some t → t + s.bus.fld .coreXPtmPeriod port 0 0 10 * 200000 ≤ s.ticks) →
    ∃ u : State, exec (.ptmDialogue port true hostTime delay false) s = .next u.watch.settle ∧
      u.bus.fld .corePtmStatus port 0 8 8 = min 255 (s.bus.fld .corePtmStatus port 0 8 8 + 1) ∧
      (s.bus.fld .corePtmStatus port 0 8 8 = 2 → ∃ e ∈ u.bus.outbox, e.typ = 0x0106) ∧
      (∀ q i j, q ≠ .corePtmStatus → u.bus.reg q i j = s.bus.reg q i j)) ∧
  (∀ (s : State) (port hostTime delay t : Nat) (ok : Bool), s.live → (s.bus.hostSt port).ptmTick = some t →
    s.ticks < t + s.bus.fld .coreXPtmPeriod port 0 0 10 * 200000 →
    exec (.ptmDialogue port true hostTime delay ok) s = .next (s.onBus fun b => b.setFld .corePtmStatus port 0 1 1 1).watch.settle) ∧
  (∀ (s : State) (port hostTime delay : Nat) (ok : Bool), s.live →
    exec (.ptmDialogue port false hostTime delay ok) s = .next (s.onBus fun b =>
      let b := b.setFld .corePtmStatus port 0 1 1 0
      b.setHost port { b.hostSt port with ptmTick := none }).watch.settle) ∧
  (∀ (s : State) (port : Nat), s.live →
    ((assocGet s.bus.froz (BReg.fkey .corePtmDev port 0)).isSome = true → exec (.ptmSnapshotRead port 0) s =
      .next (s.onBus fun b => b.answer port (b.frozen .corePtmHostLo port 0)).watch.settle) ∧
    exec (.ptmSnapshotRead port 1) s = .next (s.onBus fun b => b.answer port (b.frozen .corePtmHostHi port 0)).watch.settle ∧
    exec (.ptmSnapshotRead port 2) s = .next (s.onBus fun b => (((b.answer port (b.frozen .corePtmDev port 0)).thaw
      .corePtmHostLo port 0).thaw .corePtmHostHi port 0).thaw .corePtmDev port 0).watch.settle) ∧
  (∀ (s : State) (port : Nat), s.live → assocGet s.bus.froz (BReg.fkey .corePtmDev port 0) = none →
    exec (.ptmSnapshotRead port 0) s = .next (s.onBus fun b =>
      let b := ((b.freeze .corePtmHostLo port 0).freeze .corePtmHostHi port 0).freeze .corePtmDev port 0
      b.answer port (b.frozen .corePtmHostLo port 0)).watch.settle)

/-- R120 to R122 (regions), R127 and R128 (syncs), R126 (notices). -/
def Obligations.AccessCommandsTakeEffect : Prop :=
  (∀ (s : State) (port m r : Nat) (v : Word), s.live → s.reached port 4 m → r < 32 →
    let b := s.bus
    let base := (b.pendHalf m r 0).toNat + (b.pendHalf m r 1).toNat * 2 ^ 32
    let size := (b.pendHalf m r 2).toNat + (b.pendHalf m r 3).toNat * 2 ^ 32
    bit (b.reg .regCtl m r) 3 = false →
    ((bit v 3 = true → bit v 0 = true) →
      (bit v 0 = true → size ≠ 0 ∧ base + size ≤ 0xC00000000 ∧ b.overlapping m r base size = none) →
      ∃ u : State, exec (.regionUpdate port m r v) s = .next u.watch.settle ∧
        u.bus.pair .regBaseLo .regBaseHi m r = base ∧ u.bus.pair .regSizeLo .regSizeHi m r = size ∧
        u.bus.reg .regCtl m r = w32 (bf v 0 4) ∧ bf (u.bus.reg .accEnabled m 0) r 1 = b2n (bit v 0) ∧
        (∀ q, q < 4 → u.bus.pendHalf m r q = match q with
          | 0 => u.bus.reg .regBaseLo m r | 1 => u.bus.reg .regBaseHi m r
          | 2 => u.bus.reg .regSizeLo m r | _ => u.bus.reg .regSizeHi m r) ∧
        (∀ q k, (m, r) ≠ (q, k) → ∀ x ∈ [BReg.regCtl, .regBaseLo, .regBaseHi, .regSizeLo, .regSizeHi], u.bus.reg x q k = s.bus.reg x q k)) ∧
    ((bit v 3 = true ∧ bit v 0 = false) ∨ (bit v 0 = true ∧ (size = 0 ∨ 0xC00000000 < base + size)) →
      exec (.regionUpdate port m r v) s =
        .next ((s.regWriteRec port 4 m 0 (0x30 + 0x20 * r) v).onBus fun b => b.accFlag m 2).watch.settle) ∧
    (∀ q, bit v 0 = true → size ≠ 0 → base + size ≤ 0xC00000000 → b.overlapping m r base size = some q →
      exec (.regionUpdate port m r v) s = .next ((s.regWriteRec port 4 m 0 (0x30 + 0x20 * r) v).onBus fun b =>
        (b.accFlag m 0).emit 0x0403 m 1 (pay [m, r, q])).watch.settle)) ∧
  (∀ (s : State) (port m token : Nat), s.live → s.reached port 4 m →
    ∃ u : State, exec (.accSync port m token) s = .next u.watch.settle ∧
      (u.bus.accSt m).syncs = (s.bus.accSt m).syncs ++ [(token % 65536, s.ticks)] ∧ bit (u.bus.reg .accSyncDone m 0) 0 = true ∧
      (∀ q i j, q ≠ .accSyncDone → q ≠ .jrnSeq → u.bus.reg q i j = s.bus.reg q i j) ∧ u.bus.mem = s.bus.mem ∧ u.bus.wq = s.bus.wq) ∧
  (∀ (s : State) (m t t0 : Nat) (rest : List (Nat × Nat)), s.live → (s.bus.accSt m).syncs = (t, t0) :: rest →
    (∀ w ∈ s.bus.wq, w.master = m → s.bus.heldAt w.addr = false) →
    ∃ u : State, exec (.syncDone m) s = .next u.watch.settle ∧ (u.bus.accSt m).syncs = rest ∧ (∀ w ∈ u.bus.wq, w.master ≠ m) ∧
      u.bus.reg .accSyncDone m 0 = w32 (b2n (!rest.isEmpty) + t * 65536) ∧
      (∀ q i j, (q, i, j) ≠ (.accSyncDone, m, 0) → u.bus.reg q i j = s.bus.reg q i j)) ∧
  (∀ (s : State) (m : Nat) (n : Notice), s.live → (s.bus.accSt m).rwin = some n →
    n.opened + s.bus.fld .accXNoticeWindow m 0 0 10 * 200000 ≤ s.ticks →
    exec (.noticeWindowClose m false) s = .next (s.onBus fun b => (b.setAcc m { b.accSt m with rwin := none }).emit 0x0401 m 1
      (payB (le 2 m ++ le 2 0 ++ le 4 n.count ++ le 8 n.first))).watch.settle) ∧
  (∀ (s : State) (m : Nat) (n : Notice), s.live → (s.bus.accSt m).wwin = some n →
    n.opened + s.bus.fld .accXNoticeWindow m 0 0 10 * 200000 ≤ s.ticks →
    exec (.noticeWindowClose m true) s = .next (s.onBus fun b => (b.setAcc m { b.accSt m with wwin := none }).emit 0x0402 m 1
      (payB (le 2 m ++ le 2 ((List.range 32).filter fun r => bit (b.reg .regCtl m r) 0).length ++ le 4 n.count ++
        le 4 n.start.toNat ++ le 4 b.time.toNat))).watch.settle)

/-- R148 to R153 (reads and writes), R154 to R156 (scrub), R162 (eye drift), R165 and R166 (counters). -/
def Obligations.MemoryCommandsTakeEffect : Prop :=
  (∀ (s : State) (m a n ce : Nat) (ue : Bool), s.live →
    let v := s.onBus fun b => b.inject a n ce ue
    let q := if m = 153 then v.bus.debugRead v.lifecycle a n else v.bus.load m a n
    exec (.memoryRead m a n ce ue) s = .next (State.send { v with bus := q.1 } (match q.2 with
      | .ok d => .memRead m true d
      | .ue d => .memRead m false d
      | .refused => .memRead m false (List.replicate n 0xFF))).watch.settle) ∧
  (∀ (s : State) (m a : Nat) (data : List Byte), s.live →
    let q := if m = 153 then s.bus.debugWrite s.lifecycle a data else s.bus.store m a data
    let u := State.send { s with bus := q.1 } (.memWritten m q.2)
    exec (.memoryWrite m a data) s =
      .next (if m = 153 ∧ s.lifecycle = 2 ∧ q.2 = true ∧ data ≠ [] then u.debugCount a data.length else u).watch.settle) ∧
  (∀ s : State, s.live → let a := s.bus.nextMapped s.bus.mx.scrubAddr
    a < 0xC00000000 → a % 64 = 0 → s.bus.badWord a = false → (s.bus.rowOf a).isSome = true → (∀ x ∈ words8 a 64, x ∉ s.bus.mx.soft) →
    ∃ u : State, exec (.scrubRead 1) s = .next u.watch.settle ∧
      u.bus.reg .memCeCount 0 0 = s.bus.reg .memCeCount 0 0 + 1 ∧ u.bus.mx.scrubCe = s.bus.mx.scrubCe + 1 ∧
      u.bus.mx.scrubAddr = s.bus.nextMapped (a + 64) ∧ u.bus.mem = s.bus.mem ∧ u.bus.wq = s.bus.wq) ∧
  (∀ s : State, s.live → let a := s.bus.nextMapped s.bus.mx.scrubAddr
    a < 0xC00000000 →
    ∃ u : State, exec (.scrubRead 2) s = .next u.watch.settle ∧
      u.bus.reg .memUeCount 0 0 = s.bus.reg .memUeCount 0 0 + 1 ∧ u.bus.mx.scrubUe = s.bus.mx.scrubUe + 1 ∧
      (s.bus.fullQueued a = false → a / 64 ∈ u.bus.mx.poison) ∧ (s.bus.fullQueued a = true → u.bus.mx.poison = s.bus.mx.poison) ∧
      u.bus.mx.scrubAddr = s.bus.nextMapped (a + 64) ∧ u.bus.mem = s.bus.mem ∧ u.bus.wq = s.bus.wq) ∧
  (∀ s : State, s.live → 0xC00000000 ≤ s.bus.nextMapped s.bus.mx.scrubAddr →
    ∃ u : State, exec .scrubPass s = .next u.watch.settle ∧ u.bus.reg .memScrubPass 0 0 = s.bus.reg .memScrubPass 0 0 + 1 ∧
      u.bus.mx.scrubAddr = 0 ∧ u.bus.mx.rowCe = [] ∧ u.bus.mx.weak = [] ∧ u.bus.mx.scrubHours = s.bus.fld .memXScrubHours 0 0 0 8) ∧
  (∀ s : State, s.live → s.bus.mx.ceTick + 200000000 ≤ s.bus.ticks → s.bus.mx.ceSec.1 + s.bus.mx.ceSec.2 ≠ 0 →
    ∃ u : State, exec .ceSummary s = .next u.watch.settle ∧ u.bus.mx.ceSec = (0, 0) ∧ u.bus.mx.ceTick = s.bus.ticks ∧
      u.bus.outbox = s.bus.outbox ++ [⟨0x0504, 0, s.now, none, 0, pay [s.bus.mx.ceSec.1, s.bus.mx.ceSec.2]⟩]) ∧
  (∀ (s : State) (port : Nat), s.live →
    exec (.memBytesRead port 0 false) s = .next (s.onBus fun b =>
      (b.answer port (b.reg .memBytesS0Lo 0 0)).freeze .memBytesS0Hi 0 0).watch.settle ∧
    exec (.memBytesRead port 1 true) s = .next (s.onBus fun b =>
      (b.answer port (b.frozen .memBytesS1Hi 0 0)).thaw .memBytesS1Hi 0 0).watch.settle) ∧
  (∀ (s : State) (low : List Nat), s.live → s.bus.memReady = true →
    s.bus.mx.trackTick + s.bus.fld .memXTrackMs 0 0 0 10 * 200000 ≤ s.bus.ticks →
    exec (.eyeDriftCheck low) s = .next (s.onBus fun b => { b with mx := { b.mx with trackTick := b.ticks, held := b.mx.held ++
      ((low.filter fun pc => pc < 64 && !b.pcFailed pc && !b.mx.held.any fun x => x.1 == pc).map fun pc => (pc, b.ticks)) } }).watch.settle)

/-- R129: a locked region ignores writes; they are reported. -/
def Obligations.LockedRegionIgnoresWrites : Prop :=
  ∀ (b : Bus) (m r q : Nat) (v : Word), bit (b.reg .regCtl m r) 3 = true →
    ∀ c, (c = b.regionUpdate m r v ∨ c = b.regionHalf m r q v) →
      (∀ x i j, x ≠ .accStatus → c.reg x i j = b.reg x i j) ∧ c.acc = b.acc ∧ bit (c.reg .accStatus m 0) 1 = true ∧
        c.outbox = b.outbox ++ [⟨0x0404, m, b.time, none, 1, pay [m, r]⟩]

/-- R148: from the moment the write queue has accepted a write, every read returns the written bytes; the frame of a store. -/
def Obligations.WrittenBytesReadBack : Prop :=
  ∀ (b c : Bus) (m a : Nat) (data : List Byte), strictMaster m = false → b.store m a data = (c, true) →
    (∀ i, i < data.length → c.byte (a + i) = data.getD i 0) ∧ (∀ x, x < a ∨ a + data.length ≤ x → c.byte x = b.byte x) ∧
    (∀ m' d d' n i, strictMaster m' = false → i + n ≤ data.length → c.load m' (a + i) n = (d, .ok d') → d' = (data.drop i).take n)

/-- R90 to R92 and R89: what a write of FN_CTL does in each state, and STOP_SLOW. -/
def Obligations.FunctionControlTakesEffect : Prop :=
  (∀ (s : State) (port cap i : Nat), s.served = true → s.reached port cap i → (cap = 2 → s.plan.ringHost i = some port) →
    let u := (s.regWriteRec port cap i 2 (4 * i) (w32 (1 + 2 * b2n (s.expert cap i)))).onBus fun b =>
      b.setFld .fnCtl cap i 1 1 (b2n (s.expert cap i))
    (alwaysOn cap = true ∨ followsHead cap = true ∨ (u.fnState cap i ≠ 0 ∧ u.fnState cap i ≠ 3) →
      exec (.fnEnable port cap i) s = .next u.watch.settle) ∧
    (alwaysOn cap = false → followsHead cap = false → u.fnState cap i = 0 → exec (.fnEnable port cap i) s =
      .next ((u.onBus fun b => b.setFld .fnCtl cap i 0 1 1).toStarting cap i).watch.settle) ∧
    (alwaysOn cap = false → followsHead cap = false → u.fnState cap i = 3 → exec (.fnEnable port cap i) s =
      .next ((u.onBus fun b => (b.setFld .fnCtl cap i 5 1 1).setFld .fnCtl cap i 0 1 1).emit 0x0103 i 0 (payCap cap [])).watch.settle)) ∧
  (∀ (s : State) (port cap i : Nat), s.served = true → s.reached port cap i → (cap = 2 → s.plan.ringHost i = some port) →
    let u := (s.regWriteRec port cap i 2 (4 * i) (w32 (2 * b2n (s.expert cap i)))).onBus fun b =>
      b.setFld .fnCtl cap i 1 1 (b2n (s.expert cap i))
    (alwaysOn cap = true → exec (.fnDisable port cap i) s = .next (u.enableRefused cap i).watch.settle) ∧
    (alwaysOn cap = false → followsHead cap = true ∨ (cap = 0x31 ∧ u.isOn 0x31 0 = true) →
      exec (.fnDisable port cap i) s = .next u.watch.settle) ∧
    (alwaysOn cap = false → followsHead cap = false → ¬ (cap = 0x31 ∧ u.isOn 0x31 0 = true) →
      (u.fnState cap i = 1 ∨ u.fnState cap i = 2 → exec (.fnDisable port cap i) s = .next (u.leave cap i 0).watch.settle) ∧
      (u.fnState cap i = 3 → exec (.fnDisable port cap i) s = .next (u.onBus fun b =>
        (b.setFld .fnCtl cap i 5 1 0).setFld .fnCtl cap i 0 1 0).watch.settle) ∧
      (u.fnState cap i = 0 ∨ 3 < u.fnState cap i → exec (.fnDisable port cap i) s =
        .next (if bit (u.bus.reg .fnCtl cap i) 0 then u.onBus fun b => b.setFld .fnCtl cap i 0 1 0 else u).watch.settle))) ∧
  (∀ (s : State) (port i : Nat), s.served = true → s.reached port 2 i → s.plan.ringHost i ≠ some port →
    exec (.fnEnable port 2 i) s =
      .next ((s.regWriteRec port 2 i 2 (4 * i) (w32 (1 + 2 * b2n (s.expert 2 i)))).notOwner port).watch.settle ∧
    exec (.fnDisable port 2 i) s =
      .next ((s.regWriteRec port 2 i 2 (4 * i) (w32 (2 * b2n (s.expert 2 i)))).notOwner port).watch.settle) ∧
  (∀ (s : State) (port cap i : Nat) (v : Bool), s.served = true → s.reached port cap i → (cap = 2 → s.plan.ringHost i = some port) →
    (s.isOn cap i = true ∧ bit (s.bus.reg .fnCtl cap i) 0 = true) ∨
      (s.fnState cap i = 0 ∧ s.enableNow cap i = false ∧ alwaysOn cap = false) →
    exec (.fnLevelSet port cap i v) s =
      .next ((s.regWriteRec port cap i 2 (4 * i) (w32 (b2n (s.enableNow cap i) + 2 * b2n v))).setLevel cap i v).watch.settle) ∧
  (∀ (s : State) (cap i : Nat) (v : Bool), let t := s.onBus fun b => b.setFld .fnCtl cap i 1 1 (b2n v)
    s.setLevel cap i v = if s.expert cap i = true ∧ v = false then t.basicValues cap i else t) ∧
  (∀ (s : State) (port cap i : Nat), s.served = true → s.reached port cap i → (cap = 2 → s.plan.ringHost i = some port) →
    s.isOn cap i = true → bit (s.bus.reg .fnCtl cap i) 0 = true →
    ∃ u : State, exec (.fnLevelSet port cap i true) s = .next u.watch.settle ∧ u.expert cap i = true ∧
      (∀ r k j, u.reg r k j = s.reg r k j) ∧ (∀ r k j, r ≠ .fnCtl → r ≠ .jrnSeq → u.bus.reg r k j = s.bus.reg r k j)) ∧
  (∀ (s : State) (cap i : Nat), s.live → s.fnState cap i = 3 → (tabGet FnSt.init s.bus.fns (Nat.pair cap i)).slow = false →
    (tabGet FnSt.init s.bus.fns (Nat.pair cap i)).stopTick + 20000000 ≤ s.ticks →
    let x : FnSt := { tabGet FnSt.init s.bus.fns (Nat.pair cap i) with slow := true }
    exec (.stopSlow cap i) s = .next ((s.onBus fun b => { b with fns := tabSet FnSt.init b.fns (Nat.pair cap i) x }).emit
      0x0105 i 1 (payCap cap [])).watch.settle)

/-- R91, R92 and R99: the end of a start and of a shut-down. -/
def Obligations.StartsAndShutDownsEnd : Prop :=
  (∀ (s : State) (cap i : Nat), s.live → ownStart cap = false → cap ∉ [0x02, 0x10, 0x15, 0x31] →
    (cap = 0x32 → s.tandemWaits = false) → s.fnState cap i = 1 →
    ∃ u : State, exec (.functionStarted cap i) s = .next u.watch.settle ∧ u.fnState cap i = 2 ∧
      (∀ r k j, u.reg r k j = s.reg r k j) ∧ (∀ r k j, (r, k, j) ≠ (.fnCtl, cap, i) → u.bus.reg r k j = s.bus.reg r k j)) ∧
  (∀ (s : State) (i : Nat), s.live → s.fnState 2 i = 1 → s.bus.ringCheck s.plan i = none →
    let v := (s.onBus fun b => b.enter 2 i 2).onBus fun b => b.flushAll s.plan
    exec (.functionStarted 2 i) s = .next (if v.isOn 2 i ∧ hostProduced (v.bus.ringKind i) then
      State.fetchUpTo (v.bus.ringSize i) v ((v.plan.ringHost i).getD 0) i else v).watch.settle) ∧
  (∀ (s : State) (i r : Nat), s.live → s.fnState 2 i = 1 → s.bus.ringCheck s.plan i = some r →
    exec (.functionStarted 2 i) s = .next ((s.onBus fun b => b.startFailed 2 i r).onBus fun b => b.flushAll s.plan).watch.settle) ∧
  (∀ (s : State) (n : Nat), s.live → s.fnState 0x10 n = 1 →
    (s.linkWaits n = true → exec (.functionStarted 0x10 n) s = .next s.watch.settle) ∧
    (s.linkWaits n = false → exec (.functionStarted 0x10 n) s = .next (match s.sourceCheck n with
      | none => (s.onBus fun b => b.enter 0x10 n 2).sourceOn n
      | some r => s.onBus fun b => b.startFailed 0x10 n r).watch.settle)) ∧
  (∀ (s : State) (i : Nat), s.live → s.tandemWaits = true → exec (.functionStarted 0x32 i) s = .next s.watch.settle) ∧
  (∀ (s : State) (c : Nat), s.live → s.fnState 0x15 c = 1 →
    exec (.functionStarted 0x15 c) s = .next (match s.encCheck c with
      | none => (s.onBus fun b => b.enter 0x15 c 2).encOn c
      | some r => s.onBus fun b => b.startFailed 0x15 c r).watch.settle) ∧
  (∀ (s : State) (i : Nat), s.live → s.fnState 0x31 i = 1 →
    (s.jrnSize = 0 → exec (.functionStarted 0x31 i) s = .next s.watch.settle) ∧
    (s.jrnSize ≠ 0 → exec (.functionStarted 0x31 i) s = .next (match s.jrnCheck with
      | none => (s.onBus fun b => b.enter 0x31 i 2).setJrn { s.jrn with nextTick := s.ticks, secTick := s.ticks }
      | some r => s.onBus fun b => b.startFailed 0x31 i r).watch.settle)) ∧
  (∀ (s : State) (cap i : Nat), s.live → ownStart cap = true →
    exec (.functionStarted cap i) s = .next s.watch.settle) ∧
  (∀ (s : State) (cap i : Nat), s.live → s.fnState cap i = 3 → cap ≠ 0x12 → cap ≠ 0x13 →
    (cap = 2 → ((s.bus.ringSt i).fetched.all fun e => e.phase != .running) = true) →
    let v := s.scrub cap i
    let w := if cap = 0x14 then v.onBus fun b =>
        let b := if b.fnState 0x12 i = 3 then b.enter 0x12 i 0 else b
        if b.fnState 0x13 i = 3 then b.enter 0x13 i 0 else b
      else v
    ∃ u : State, exec (.shutdownComplete cap i) s = .next u.zoneProgress.zoneDone.serviceProgress.watch.settle ∧
      (w.bus.fld .fnCtl cap i 5 1 ≠ 1 → u = (w.onBus fun b => b.enter cap i 0) ∧ u.fnState cap i = 0) ∧
      (w.bus.fld .fnCtl cap i 5 1 = 1 →
        u = (w.onBus fun b => (b.setFld .fnCtl cap i 5 1 0).setFld .fnCtl cap i 0 1 1).toStarting cap i) ∧
      (u.wdn.zone = none → u.wdn.serviceStep = none → exec (.shutdownComplete cap i) s = .next u.watch.settle)) ∧
  (∀ (s : State) (i : Nat), (s.scrub 2 i).bus.ringProd i = 0 ∧ (s.scrub 2 i).bus.ringCons i = 0 ∧
    ((s.scrub 2 i).bus.ringSt i).fetched = [] ∧ (∀ j, j ≠ i → (s.scrub 2 i).bus.ringSt j = s.bus.ringSt j)) ∧
  (∀ (s : State) (cap i : Nat), cap ∉ [2, 3, 0x20] → s.scrub cap i = s)

/-- The access codes of spec/00, R87, R88 and R577. -/
def Obligations.RegisterAccessTakesEffect : Prop :=
  (∀ (s : State) (port cap i blk off : Nat) (v : Word) (row : RegRow) (j : Nat), s.served = true → s.reached port cap i → blk < 2 →
    findReg cap (blk == 1) off = some (row, j) →
    row.reg ∉ [.bus .ringProd, .bus .ringCons, .bus .ringWaitLimit, .bus .coreBarrier, .bus .fenceSignalHi, .bus .regCtl, .bus .accSync,
      .fn .timCtl, .fn .refCfg, .fn .refNom, .fn .timHostIncrHi, .fn .encPicCap, .fn .encSecCap, .fn .cursorPos, .fn .freshTileIndex,
      .fn .linkHoldCap, .fn .thmCmd, .fn .structCmd, .fn .debugCmd] →
    exec (.registerWrite port cap i blk off v) s =
      .next ((if row.acc = .rw ∨ row.acc = .wo then s.regWriteRec port cap i blk off v else s).writeRow port i row j v).watch.settle) ∧
  (∀ (s : State) (port i j : Nat) (row : RegRow) (v : Word), row.acc = .w1c → row.cap ≠ 1 → row.cap ≠ 2 → row.cap ≠ 3 → row.expert = false →
    s.writeRow port i row j v = s.putAny row.reg i j (s.getAny row.reg i j &&& ~~~(v &&& w32 row.reg.clears))) ∧
  (∀ (s : State) (port i j : Nat) (row : RegRow) (v : Word) (r : FReg), row.acc = .rw → row.reg = .fn r → row.cap ≠ 1 → row.cap ≠ 2 →
    row.cap ≠ 3 → (row.expert = true → s.expert row.cap i = true) →
    r ∉ [.pulseCtl, .clkoutCtl, .encCtl, .composeWb, .srcLimit] → lowHalves.contains (.fn r) = false → (AnyReg.fn r).lowOf = none →
    (s.inRange r i v = true → s.regOpen r i j = true →
      s.writeRow port i row j v = s.setReg r i j ((v &&& w32 r.mask) ||| (s.reg r i j &&& ~~~(w32 r.mask)))) ∧
    (s.inRange r i v = false → s.writeRow port i row j v = s.ignored port row.cap i)) ∧
  (∀ (s : State) (port cap i blk off : Nat) (row : RegRow) (j : Nat), s.served = true → port < 4 → s.plan.has cap i = true →
    s.holds cap = true → blk < 2 → findReg cap (blk == 1) off = some (row, j) → row.acc = .rc → s.owns port cap i j = true →
    let k := if cap = 1 then port else i
    exec (.rcRegisterRead port cap i blk off) s =
      .next ((s.onBus fun b => b.answer port (s.getAny row.reg k j)).putAny row.reg k j 0).watch.settle) ∧
  (∀ (s : State) (port cap i blk off : Nat), s.served = true → port < 4 → blk < 2 → findReg cap (blk == 1) off = none →
    exec (.rcRegisterRead port cap i blk off) s = .next (s.onBus fun b => b.answer port 0).watch.settle) ∧
  (∀ (s : State) (port cap i off : Nat) (v : Word), s.served = true → off % 4 = 0 →
    exec (.registerWrite port cap i 2 off v) s = .next (s.fnCtlWrite port cap (off / 4) v).watch.settle) ∧
  (∀ (s : State) (port cap i off : Nat) (v : Word), s.served = true → port < 4 → (s.bus.hostSt port).underReset = false → off % 4 = 0 →
    (msixTable ≤ off → off < msixTable + 8192 →
      exec (.registerWrite port cap i 3 off v) s = .next (s.onBus fun b => b.msixWrite port ((off - msixTable) / 4) v).watch.settle) ∧
    ((off < msixTable ∨ msixTable + 8192 ≤ off) → exec (.registerWrite port cap i 3 off v) s = .next s.watch.settle))

/-- R489 to R491 (cadence groups), R474 and R475 (STEP). -/
def Obligations.CadenceGroupsAndStep : Prop :=
  (∀ (s : State) (r k : Nat) (e : FEntry) (c : CadEnt), s.ripe 0x3003 r k e → s.plan.has 0x30 e.inst = true → e.object < 8 →
    s.plan.cad e.object = some c → e.zeroFrom 36 56 = true → c.rateMin ≤ e.arg 32 4 → e.arg 32 4 ≤ c.rateMax →
    exec (.groupRate r k) s = .next (((s.begun r e).setGroup e.object
      { s.group e.object with
        rate := some (e.arg 32 4, s.now)
        -- one that applies at a frame instant already met is not replaced
        rateDue := ((s.group e.object).rate.filter fun q => s.groupMet e.object q.2) <|> (s.group e.object).rateDue }).complete
          r e.k 1 0).watch.settle) ∧
  (∀ (s : State) (r k : Nat) (e : FEntry) (c : CadEnt), s.ripe 0x3003 r k e → s.plan.has 0x30 e.inst = true → e.object < 8 →
    s.plan.cad e.object = some c → e.zeroFrom 36 56 = true → (e.arg 32 4 < c.rateMin ∨ c.rateMax < e.arg 32 4) →
    exec (.groupRate r k) s = .next ((s.begun r e).complete r e.k 0x8007 0).watch.settle) ∧
  (∀ (s : State) (r k : Nat) (e : FEntry), s.ripe 0x3002 r k e → s.plan.has 0x30 e.inst = true → e.object < 8 →
    (s.plan.cad e.object).isSome = true → e.arg 32 1 = 1 → e.arg 33 1 < 16 → e.zeroFrom 34 36 = true → e.zeroFrom 44 56 = true →
    let c := tabGet CapSt.init s.tim.caps (e.arg 33 1)
    (c.valid = true → exec (.align r k) s = .next (((s.begun r e).setGroup e.object
      { s.group e.object with
        align := some (s.reg .capTime 0 (e.arg 33 1) + w32 (e.arg 40 4), s.now)
        alignDue := ((s.group e.object).align.filter fun q => s.groupMet e.object q.2) <|> (s.group e.object).alignDue }).complete
          r e.k 1 0).watch.settle) ∧
    (c.valid = false → exec (.align r k) s = .next ((s.begun r e).complete r e.k 0x8008 0).watch.settle)) ∧
  (∀ (s : State) (r k : Nat) (e : FEntry), s.ripe 0x3002 r k e → s.plan.has 0x30 e.inst = true → e.object < 8 →
    (s.plan.cad e.object).isSome = true → e.arg 32 1 = 0 → e.zeroFrom 34 36 = true → e.zeroFrom 44 56 = true →
    exec (.align r k) s = .next (((s.begun r e).setGroup e.object
      { s.group e.object with
        align := some (w32 (e.arg 36 4), s.now)
        alignDue := ((s.group e.object).align.filter fun q => s.groupMet e.object q.2) <|> (s.group e.object).alignDue }).complete
          r e.k 1 0).watch.settle) ∧
  (∀ (s : State) (g : Nat), s.live → g < 8 → (s.reg .grpRate 0 g).toNat ≠ 0 → atOrAfter s.now (s.reg .grpNext 0 g) = true →
    -- the capture channels that record the group's frame instants do so, exactly (R492)
    let c := s.captureAt (9 + g) none (s.reg .grpNext 0 g)
    (c.group g).rate = none → (c.group g).align = none → (c.group g).rateDue = none → (c.group g).alignDue = none →
    exec (.cadenceFrameInstant g) s = .next (c.setNext g ((c.group g).k + 1)).watch.settle) ∧
  (∀ (s : State) (g : Nat), s.live → g < 8 → (s.reg .grpRate 0 g).toNat ≠ 0 → atOrAfter s.now (s.reg .grpNext 0 g) = true →
    let t := s.reg .grpNext 0 g
    let c := s.captureAt (9 + g) none t
    c.chooses = true →
    let x := c.group g
    let rate := ((x.rate.filter fun q => decide (sdiff q.2 t < 0)) <|> x.rateDue.filter fun q => decide (sdiff q.2 t < 0)).map Prod.fst
    let anchor := ((x.align.filter fun q => decide (sdiff q.2 t < 0)) <|> x.alignDue.filter fun q => decide (sdiff q.2 t < 0)).map Prod.fst
    (rate = none → anchor = none → exec (.cadenceFrameInstant g) s = .next (c.setNext g (x.k + 1)).watch.settle) ∧
    (rate.isSome = true ∨ anchor.isSome = true →
      ∃ u : State, exec (.cadenceFrameInstant g) s = .next u.watch.settle ∧
        u.reg .grpRate 0 g = (rate.map w32).getD (c.reg .grpRate 0 g) ∧
        u.reg .grpAnchor 0 g = anchor.getD (if rate.isSome then t - c.reg .grpPhase 0 g else c.reg .grpAnchor 0 g) ∧
        -- what entered at or after this instant waits for the next one
        (u.group g).rate = (x.rate.filter fun q => !decide (sdiff q.2 t < 0)) ∧
        (u.group g).align = (x.align.filter fun q => !decide (sdiff q.2 t < 0)))) ∧
  (∀ (s : State) (g rate : Nat) (d : Word), s.live → g < 8 → (s.reg .grpRate 0 g).toNat ≠ 0 →
    atOrAfter s.now (s.reg .grpNext 0 g) = true →
    let c := s.captureAt (9 + g) none (s.reg .grpNext 0 g)
    (c.group g).rate = some (rate, d) → sdiff d (s.reg .grpNext 0 g) < 0 →
    (c.group g).align = none → (c.group g).alignDue = none → c.chooses = true →
    ∃ u : State, exec (.cadenceFrameInstant g) s = .next u.watch.settle ∧ u.reg .grpRate 0 g = w32 rate ∧
      u.reg .grpAnchor 0 g = s.reg .grpNext 0 g - c.reg .grpPhase 0 g ∧ (u.group g).rate = none) ∧
  (∀ (s : State) (r k : Nat) (e : FEntry), s.ripe 0x3001 r k e → s.plan.has 0x30 e.inst = true → e.object = 0xFFFF →
    e.zeroFrom 36 56 = true → -1000000000 ≤ sext 32 (e.arg 32 4) → sext 32 (e.arg 32 4) ≤ 1000000000 → s.stepBusy = false →
    ∃ u : State, exec (.step r k) s = .next (u.complete r e.k 0 0).watch.settle ∧ u.now = s.now + BitVec.ofInt 32 (sext 32 (e.arg 32 4)) ∧
      (∀ h, h < 4 → u.bus.fld .corePtmStatus h 0 0 1 = 0) ∧
      (∀ g, g < 8 → (s.plan.cad g).isSome = true →
        u.reg .grpAnchor 0 g = s.reg .grpAnchor 0 g + BitVec.ofInt 32 (sext 32 (e.arg 32 4))))

/-- R476 to R482: references. -/
def Obligations.ReferencesAreQualifiedAndSelected : Prop :=
  (∀ (s : State) (r : Nat), s.live → r < 6 → bit (s.reg .refStatus 0 r) 2 = true →
    exec (.refInactive r) s = .next ((s.setFld .refStatus 0 r 2 1 0).setQual r 0 0).watch.settle) ∧
  (∀ (s : State) (r : Nat), s.live → r < 6 → bit (s.reg .refStatus 0 r) 2 = false → s.fld .refCfg 0 r 0 2 ≠ 0 →
    exec (.refActive r) s = .next (((s.setFld .refStatus 0 r 2 1 1).setFld .refStatus 0 r 8 8
      (min 255 (s.fld .timXTimes 0 0 0 16))).setQual r 1 0).watch.settle) ∧
  (∀ (s : State) (r edges n : Nat) (phase : Int), s.live → r < 5 → bit (s.reg .refStatus 0 r) 2 = true → s.refQual r = 2 →
    s.selected ≠ r → s.nomMhz r * n ≠ 0 →
    (((edges * 200000000000 : Nat) : Int) - (s.nomMhz r * n : Nat)).natAbs * 1000000000 ≤ s.fld .timXLimits 0 0 0 16 * (s.nomMhz r * n) →
    s.fld .timXLimits 0 0 0 16 ≤ s.fld .timXLimits 0 0 16 16 →
    ∃ u : State, exec (.refMeasurement r edges n phase) s = .next u.watch.settle ∧ u.refQual r = 2 ∧
      u.reg .refOffset 0 r = i32 ((((edges * 200000000000 : Nat) : Int) - (s.nomMhz r * n : Nat)) * 1000000000 / (s.nomMhz r * n : Nat)) ∧
      bit (u.reg .refStatus 0 r) 3 = true ∧ bit (u.reg .refStatus 0 r) 4 = true ∧ (u.refSt r).phase = phase) ∧
  (∀ (s : State) (r : Nat), s.live → r < 6 → s.refQual r = 1 →
    -- as many good seconds as QUAL_S was when this count of them started (R496)
    (s.refSt r).qualS ≤ (s.refSt r).goodSecs →
    exec (.refQualified r) s = .next (s.setQual r 2 0).watch.settle) ∧
  (∀ (s : State) (host r : Nat) (v : Word), s.live → s.reached host 0x30 0 → r < 6 → kindAllowed r (bf v 0 2) = true →
    bf (s.reg .refCfg 0 r) 0 2 ≠ bf v 0 2 →
    exec (.refCfgWrite host r false v) s = .next (((s.regWriteRec host 0x30 0 0 (0x40 + 0x10 * r) v).setReg .refCfg 0 r
      (w32 (bf v 0 2 + bf v 4 4 * 16 + bf v 8 1 * 256))).requalify r).watch.settle) ∧
  (∀ (s : State) (host : Nat) (v : Word), s.live → s.reached host 0x30 0 → bf v 4 3 ≤ 5 →
    exec (.timCtlWrite host v) s = .next (((s.regWriteRec host 0x30 0 0 0x04 v).setReg .timCtl 0 0
      (w32 (bf v 0 2 + bf v 4 3 * 16))).reselect 2).watch.settle) ∧
  -- the best of the better references whose own timer of wait-to-restore, from its qualification, has expired
  (∀ (s : State) (r : Nat), s.live → s.timState = 2 → bit (s.reg .timCtl 0 0) 0 = true → bit (s.reg .timCtl 0 0) 1 = false →
    s.bestOf ((List.range 6).filter fun q => s.refBetter q && s.wtrLeft q == 0) = some r →
    exec (.wtrExpiry r) s = .next (s.selectRef r 1).watch.settle) ∧
  (∀ (s : State) (host : Nat) (hi : Word), s.live → s.reached host 0x30 0 →
    let lo := (assocGet s.bus.pairLo (FReg.fkey .timHostIncrLo 0 0)).getD (s.reg .timHostIncrLo 0 0)
    let v := lo.toNat + hi.toNat * 2 ^ 32
    0x500000000 - 0x500000000 / 10000 ≤ v → v ≤ 0x500000000 + 0x500000000 / 10000 →
    ∃ u : State, exec (.timHostIncrWrite host hi) s = .next u.watch.settle ∧ u.reg .timHostIncrLo 0 0 = lo ∧
      u.reg .timHostIncrHi 0 0 = hi ∧ u.tim.hostTick = some s.ticks) ∧
  (∀ (s : State) (t : Nat), s.live → s.tim.hostTick = some t → t + s.fld .timXHostMs 0 0 0 16 * 200000 ≤ s.ticks →
    exec .hostRefTimeout s = .next (s.refInactive 5).watch.settle)

/-- R473 (slewing), R484 (lock), R486 (holdover), R475 (wrap). -/
def Obligations.TimingCoreMoves : Prop :=
  (∀ s : State, s.live → s.tim.slewTick + 200000 ≤ s.ticks →
    let step : Int := 0x500000000 * s.fld .timXSlew 0 0 0 17 / 1000000000000
    ∃ u : State, exec .incrementSlewStep s = .next u.watch.settle ∧
      u.incr = ((s.incr : Int) + clampI (-step) step ((s.tim.target : Int) - s.incr)).toNat % 2 ^ 64 ∧ u.tim.slewTick = s.ticks ∧
      u.timState = s.timState ∧ u.selected = s.selected) ∧
  (∀ (s : State) (t : Nat), s.live → s.tim.within = some t → s.timState = 3 → t + 200000000 ≤ s.ticks →
    exec .lockTestMet s = .next (((s.takeD0 s.selected).setFld .timState 0 0 12 1 1).setTimState 2).watch.settle) ∧
  (∀ (s : State) (t : Nat), s.live → s.tim.within = some t → s.timState = 1 → t + 200000000 ≤ s.ticks →
    exec .lockTestMet s = .next (((s.takeD0 s.selected).setFld .timState 0 0 12 1 1).setTimState 2).watch.settle) ∧
  -- D0 is the selected reference's present phase, TIM_PHASE_ERR starts from 0, and the target is the one from there
  (∀ (s : State) (r : Nat), let u := s.takeD0 r
    u.tim.d0 = (s.refSt r).phase ∧ u.reg .timPhaseErr 0 0 = 0 ∧ u.tim.target = u.refTarget r) ∧
  (∀ s : State, s.live → s.timState = 4 → s.fld .timXHold 0 0 0 16 ≤ (s.ticks - s.tim.holdTick) / 200000000 →
    ∃ u : State, exec .holdExpired s = .next u.watch.settle ∧ u.timState = 5 ∧
      u.reg .timHoldS 0 0 = w32 ((s.ticks - s.tim.holdTick) / 200000000)) ∧
  (∀ s : State, s.live → bit s.bus.time 31 = true → bit s.countTick.bus.time 31 = false →
    exec .wrap s = .next s.countTick.watch.settle ∧
      s.countTick.fld .timWrap 0 0 0 16 = (s.fld .timWrap 0 0 0 16 + 1) % 65536)

/-- R492 (capture), R472 (TIM_NOW), R493 and R494 (pulse outputs). -/
def Obligations.CaptureAndPulsesTakeEffect : Prop :=
  (∀ (s : State) (c : Nat) (t : Word) (sub : Nat), s.live → c < 16 → bit (s.reg .capCtl 0 c) 7 = true → bf (s.reg .capCtl 0 c) 0 5 < 5 →
    ∃ u : State, exec (.capture c t sub) s = .next u.watch.settle ∧ u.reg .capTime 0 c = t ∧
      u.reg .capSub 0 c = w32 (sub % 16 + b2n ((tabGet CapSt.init s.tim.caps c).unread || bit (s.reg .capSub 0 c) 4) * 16) ∧
      u.reg .capCount 0 c = s.reg .capCount 0 c + 1 ∧ (tabGet CapSt.init u.tim.caps c).unread = true ∧
      (tabGet CapSt.init u.tim.caps c).valid = true) ∧
  -- a channel that is off, or that records what the device itself drives, takes no edge from a pin
  (∀ (s : State) (c : Nat) (t : Word) (sub : Nat), s.live → c < 16 → bit (s.reg .capCtl 0 c) 7 = false ∨ 5 ≤ bf (s.reg .capCtl 0 c) 0 5 →
    exec (.capture c t sub) s = .next s.watch.settle) ∧
  (∀ (s : State) (port c : Nat), s.live → c < 16 →
    exec (.capTimeRead port c) s = .next (((s.answer port (s.reg .capTime 0 c)).freeze .capSub 0 c).setTim
      { s.tim with caps := tabSet CapSt.init s.tim.caps c { tabGet CapSt.init s.tim.caps c with unread := false } }).watch.settle) ∧
  (∀ (s : State) (port c : Nat), s.live → c < 16 →
    exec (.capSubRead port c) s =
      -- OVERRUN and STEPPED are cleared where the value returned shows them
      (let u := (s.answer port (s.frozen .capSub 0 c)).thaw .capSub 0 c
       .next (u.setReg .capSub 0 c (u.reg .capSub 0 c &&& ~~~(s.frozen .capSub 0 c &&& 0x30))).watch.settle)) ∧
  (∀ (s : State) (port : Nat), s.live →
    ∃ u : State, exec (.timNowRead port false) s = .next u.watch.settle ∧
      u.bus.wire = s.bus.wire ++ [.hostRead port .ok (le 4 s.now.toNat)] ∧
      assocGet u.bus.froz (FReg.fkey .timNowFrac 0 0) = some s.bus.frac) ∧
  (∀ (s : State) (port : Nat), s.live → exec (.timNowRead port true) s = .next
    ((s.answer port ((assocGet s.bus.froz (FReg.fkey .timNowFrac 0 0)).getD s.bus.frac)).thaw .timNowFrac 0 0).watch.settle) ∧
  (∀ (s : State) (p : Nat) (t : Word), s.live → p < 4 → s.fld .thmState 0 0 0 3 < 3 → s.wdn.serviceStep = none →
    s.fld .debugState 0 0 0 2 ≠ 2 → s.fld .timState 0 0 11 1 ≠ 0 → (s.pulse p).level = false → (s.pulse p).next = some t →
    atOrAfter s.now t = true →
    let near := match (s.pulse p).last with | some l => decide (sdiff t l < (s.reg .pulseWidth 0 p).toNat + 10) | none => false
    let u := if near = true then s else (s.drivePulse p true t).setPulse p
      { s.pulse p with level := true, fall := some (t + s.reg .pulseWidth 0 p), last := some t }
    let x := u.pulse p
    (∀ a : Word, s.fld .pulseCtl 0 p 0 2 = 1 → x.align = some a →
      let v := (u.setReg .pulseStart 0 p a).setPulse p { x with align := none }
      let v := v.setPulse p { v.pulse p with next := some (v.firstEdge p 1) }
      exec (.pulseEdge p) s = .next (v.emit 0x3008 0 0 (pay [p + 8, (((v.pulse p).next).getD 0).toNat])).watch.settle) ∧
    (s.fld .pulseCtl 0 p 0 2 = 2 →
      let g := u.fld .pulseCtl 0 p 4 3
      let k := u.firstK g (t - u.reg .pulseStart 0 p) 1
      exec (.pulseEdge p) s = .next (u.setPulse p { x with next := some (u.instant g k + u.reg .pulseStart 0 p) }).watch.settle) ∧
    (s.fld .pulseCtl 0 p 0 2 = 3 →
      exec (.pulseEdge p) s = .next ((u.setPulse p { x with next := none }).setFld .pulseCtl 0 p 0 2 0).watch.settle)) ∧
  (∀ (s : State) (p : Nat) (t : Word), s.live → p < 4 → s.fld .thmState 0 0 0 3 < 3 → s.wdn.serviceStep = none →
    s.fld .debugState 0 0 0 2 ≠ 2 → s.fld .timState 0 0 11 1 ≠ 0 → (s.pulse p).fall = some t → (s.pulse p).level = true →
    atOrAfter s.now t = true →
    exec (.pulseEdge p) s = .next ((s.drivePulse p false t).setPulse p { s.pulse p with level := false, fall := none }).watch.settle) ∧
  -- an edge driven is sent, and recorded by the channels that watch that output
  (∀ (s : State) (p : Nat) (level : Bool) (t : Word), s.drivePulse p level t = (s.send (.pulse p level)).captureAt (5 + p) (some (!level)) t) ∧
  (∀ (s : State) (p : Nat) (t : Word), s.live → p < 4 → s.fld .thmState 0 0 0 3 < 3 → s.wdn.serviceStep = none →
    s.fld .debugState 0 0 0 2 ≠ 2 → s.fld .timState 0 0 11 1 ≠ 0 → (s.pulse p).level = false → (s.pulse p).last = none →
    (s.pulse p).next = some t → atOrAfter s.now t = true → s.fld .pulseCtl 0 p 0 2 = 1 → (s.pulse p).align = none →
    ∃ u : State, exec (.pulseEdge p) s = .next u.watch.settle ∧ u.bus.wire = (s.drivePulse p true t).bus.wire ∧ (u.pulse p).level = true ∧
      (u.pulse p).fall = some (t + s.reg .pulseWidth 0 p) ∧ (u.pulse p).next = some (t + (s.drivePulse p true t).reg .pulsePeriod 0 p))

/-- R369, R370, R372, R374 and R375: what starts a training, moves it through its phases and ends it. -/
def Obligations.TrainingTakesEffect : Prop :=
  let noted (s : State) (p : Nat) (corr : Bool) (t : TrainBlock) (obs : LaneObs) : State :=
    let u := (if corr then s.bump .portMarkerCorr p 0 1 else s).setReg .portPartner p 0 (w32 (t.kind + (t.rates % 16) * 256))
    let u := u.setFld .portLaneMap p 0 16 1 (b2n (u.clockMaster p || obs.locked.testBit 5))
    u.setFld .portLaneMap p 0 17 1 (b2n (if u.clockMaster p then obs.locked.testBit 4 else t.laneStatus.testBit 4))
  (∀ (s : State) (p : Nat), s.bondMate p = none → let u := s.startTraining p false
    u.portState p = 1 ∧ u.portPhase p = 1 ∧ u.fld .portState p 0 13 2 = 1 ∧ u.fld .portLaneMap p 0 12 4 = 0 ∧
      (u.lane p).startTick = s.ticks ∧ (u.lane p).phaseMs = s.fld .portXPhaseMs p 0 0 8 ∧
      (∃ lines, u.bus.wire = s.bus.wire ++ [.marker p 1 (u.blockOf p 1 0xFF).bytes lines]) ∧
      (∀ q, q ≠ p → u.portState q = s.portState q ∧ u.lane q = s.lane q)) ∧
  (∀ (s : State) (p : Nat), s.live → s.fnState 0x20 p = 1 → s.portState p = 0 →
    exec (.trainingStart p) s = .next (State.withPorts (fun s => s.startTraining p false) s).watch.settle) ∧
  (∀ (s : State) (p t : Nat), s.live → (s.lane p).failedAt = some t → s.portState p = 4 →
    t + s.fld .portRetry p 0 0 16 * 200000 ≤ s.ticks →
    exec (.trainingRetry p) s = .next (State.withPorts (fun s => s.startTraining p false) s).watch.settle) ∧
  (∀ (s : State) (p lane locked ask : Nat) (bits : List Bool) (sweep : List (Nat × Nat × Nat)), s.live → s.portState p = 1 ∨ s.portState p = 3 →
    markRx 1 lane bits = .bad false ∨ (∃ raw, markRx 1 lane bits = .block raw false ∧ trainBlock raw = none) →
    exec (.trainBlockRx p lane bits locked ask sweep) s = .next (State.withPorts (fun s =>
      let u := s.codeError p lane 1
      u.setLane p { u.lane p with goodRun := 0 }) s).watch.settle) ∧
  (∀ (s : State) (p lane locked ask : Nat) (bits : List Bool) (sweep : List (Nat × Nat × Nat)) (raw : List Byte) (corr : Bool) (t : TrainBlock),
    s.live → s.portState p = 1 ∨ s.portState p = 3 → markRx 1 lane bits = .block raw corr → trainBlock raw = some t →
    let obs : LaneObs := ⟨locked, ask, sweep⟩
    let u := noted s p corr t obs
    exec (.trainBlockRx p lane bits locked ask sweep) s = .next (State.withPorts (fun _ =>
      if kindFits (s.plan.role p) t.kind = true then u.blockRx p lane t obs
      else if u.portState p = 3 then u.repairFailed p else u.attemptOver p) s).watch.settle) ∧
  (∀ (u : State) (p lane : Nat) (t : TrainBlock) (obs : LaneObs), u.chooser p = true →
    let x := u.lane p
    let status := if u.clockMaster p = true then t.laneStatus % 16 else obs.locked % 16
    let fails (w : State) : State := if w.portState p = 3 then w.repairFailed p else w.attemptOver p
    (u.portPhase p = 1 → u.clockMaster p = true → u.blockRx p lane t obs = if lane ≠ 4 then u
      else if x.goodRun + 1 < 8 then u.setLane p { x with goodRun := x.goodRun + 1 } else u.nextPhase p) ∧
    (u.portPhase p = 1 → u.clockMaster p = false → u.blockRx p lane t obs = if 2 ≤ t.phase then u.nextPhase p else u) ∧
    (u.portPhase p = 2 →
      let allowed := status &&& (15 - u.fld .portLaneMap p 0 12 4)
      let run := if status = x.lastStatus then x.goodRun + 1 else 1
      let w := u.setLane p { x with lastStatus := status, goodRun := run, rates := t.rates % 16, locked := allowed }
      u.blockRx p lane t obs = if run < 8 ∨ (w.portState p = 1 ∧ (w.mateRate p).isNone = true) then w
        else if allowed = 0 then fails w else w.nextPhase p) ∧
    (u.portPhase p = 3 → u.blockRx p lane t obs =
      if status &&& x.locked = x.locked ∧ (if u.clockMaster p then obs.locked.testBit 4 else t.laneStatus.testBit 4) = true
      then u.nextPhase p else u) ∧
    (u.portPhase p = 4 → u.portState p = 3 → x.returning = false →
      let sweep := x.sweep ++ obs.sweep
      let w := u.setLane p { x with sweep := sweep }
      let wide := x.locked &&& wideLanes sweep
      u.blockRx p lane t obs = if sweptLanes sweep &&& x.locked ≠ x.locked ∨ wide = 0 then w
        else (w.setLane p { x with sweep := sweep, healthy := wide }).nextPhase p) ∧
    (u.portPhase p = 5 → x.sentZero = true → u.blockRx p lane t obs =
      if t.phase = 0 ∧ max x.phaseTick x.cleanTick + 200000 ≤ u.ticks then u.nextPhase p else u)) ∧
  (∀ (s : State) (p : Nat), s.portState p = 1 → (s.lane p).short = false →
    (s.portPhase p = 1 → s.nextPhase p = s.enterPhase p 2) ∧ (s.portPhase p = 3 → s.nextPhase p = s.enterPhase p 4) ∧
    (s.portPhase p = 4 → s.nextPhase p = s.phase4Passed p) ∧ (s.portPhase p = 5 → s.nextPhase p = s.linkUp p)) ∧
  (∀ (s : State) (p : Nat), s.live → s.portState p = 1 ∨ s.portState p = 3 →
    (s.lane p).phaseTick + (s.lane p).phaseMs * 200000 ≤ s.ticks →
    exec (.phaseTimeout p) s = .next (State.withPorts (fun s =>
      if s.portState p = 3 then s.repairFailed p else s.attemptOver p) s).watch.settle) ∧
  (∀ (s : State) (p : Nat), s.live → s.portState p = 1 → (s.lane p).startTick + 40000000 ≤ s.ticks →
    exec (.trainingLimit p) s = .next (State.withPorts (fun s =>
      if (s.lane p).short = true then s.startTraining p false else s.trainingFailed p true) s).watch.settle)

/-- R376 to R379, R381 and R390: a lane lost, a repair that ends or overruns, a transmit island without power. -/
def Obligations.LaneRepairTakesEffect : Prop :=
  let lose (s : State) (p lane cause : Nat) : State :=
    let u := s.setFld .portLaneMap p 0 12 4 (s.fld .portLaneMap p 0 12 4 + 2 ^ lane)
    let u := (u.bump .portLaneFaults p 0 1).emit 0x2004 p 1 (pay [lane, cause])
    let left := u.fld .portLaneMap p 0 8 4 &&& (15 - u.fld .portLaneMap p 0 12 4)
    let u := if s.clockMaster p then u else u.sendLaneFault p
    if left = 0 then u.linkDown p (u.fld .portLaneMap p 0 12 4) false false else u.startRepair p
  (∀ (s : State) (p lane n : Nat), s.live → s.portState p = 2 → lane < 4 → (s.fld .portLaneMap p 0 12 4).testBit lane = false →
    exec (.laneLoss p lane .clock) s = .next (State.withPorts (fun s => lose s p lane 1) s).watch.settle ∧
    (max 1 (s.fld .portXLock p 0 0 4) ≤ n →
      exec (.laneLoss p lane (.markers n)) s = .next (State.withPorts (fun s => lose s p lane 0) s).watch.settle) ∧
    (n < max 1 (s.fld .portXLock p 0 0 4) →
      exec (.laneLoss p lane (.markers n)) s = .next (State.withPorts (fun s => s) s).watch.settle)) ∧
  (∀ (s : State) (p lane n : Nat), s.live → s.portState p = 2 → lane < 4 →
    let u := s.codeError p lane n
    let sum := (((u.lane p).errMs.filter fun e => e.1 == lane && decide (u.ticks < e.2.1 + 200000)).map fun e => e.2.2).sum
    exec (.laneLoss p lane (.errors n)) s = .next (State.withPorts (fun _ =>
      if max 1 (u.fld .portXLock p 0 8 8) ≤ sum then u.laneLost p lane 2 else u) s).watch.settle) ∧
  (∀ (s : State) (p lane : Nat), s.live → s.portState p = 2 → 4 ≤ lane →
    exec (.laneLoss p lane .clock) s = .next (State.withPorts (fun s => s.linkDown p 0 (lane == 5) (lane == 4)) s).watch.settle) ∧
  (∀ (s : State) (p : Nat), (s.lane p).txDead = false →
    let left := s.fld .portLaneMap p 0 8 4 &&& (15 - s.fld .portLaneMap p 0 12 4)
    ∃ lines, (s.sendLaneFault p).bus.wire = s.bus.wire ++
      [.marker p 2 { s.blockOf p 0 0xFF with laneStatus := left + s.fld .portLaneMap p 0 16 1 * 32 }.bytes lines]) ∧
  (∀ (s : State) (p lane : Nat) (bits : List Bool) (raw : List Byte) (t : TrainBlock), s.live → s.portState p = 2 → s.clockMaster p = true →
    markRx 2 4 bits = .block raw false → trainBlock raw = some t →
    ((List.range 4).filter fun l => (s.fld .portLaneMap p 0 8 4).testBit l && !t.laneStatus.testBit l) = [lane] →
    exec (.laneFaultMarkerRx p bits) s = .next (State.withPorts (fun s => s.laneLost p lane 0) s).watch.settle) ∧
  (∀ (s : State) (p : Nat), s.live → s.portState p = 3 → (s.lane p).repairPassed = true → (s.link p).safe = none →
    s.ticks < (s.lane p).repairTick.getD s.ticks + s.repairLimit p →
    ∃ u : State, exec (.repairDone p) s = .next (State.withPorts (fun _ => u) s).watch.settle ∧
      u.portState p = 2 ∧ u.portPhase p = 0 ∧ (u.lane p).repairTick = none ∧ (u.lane p).repairPassed = false ∧
      (∀ r k j, r ≠ .portState → u.reg r k j = s.reg r k j) ∧ (∀ q, q ≠ p → u.portState q = s.portState q)) ∧
  (∀ (s : State) (p : Nat), s.live → s.portState p = 3 → (s.lane p).repairTick.getD s.ticks + s.repairLimit p ≤ s.ticks →
    exec (.repairTimeout p) s = .next (State.withPorts (fun s =>
      ((s.emit 0x2006 p 2 (pay [s.fld .portLaneMap p 0 8 4 &&& (15 - s.fld .portLaneMap p 0 12 4),
        (s.ticks - (s.lane p).repairTick.getD s.ticks) / 200])).bump .portLinkDown p 0 1).startTraining p false) s).watch.settle) ∧
  (∀ (s : State) (p : Nat), s.live →
    exec (.txIslandLoss p) s = .next (State.withPorts (fun s =>
      (s.setLane p { s.lane p with txDead := true }).send (.electricalIdle p)) s).watch.settle) ∧
  (∀ (s : State) (p typ flags stream alive : Nat) (stamp : Word) (payload : List Byte), (s.lane p).txDead = true →
    s.sendItem p typ flags stream alive stamp payload = s)

/-- R382 to R387 and R391: the commands of SPOKE_PORT and the events that end them. -/
def Obligations.PortCommandsTakeEffect : Prop :=
  (∀ (s : State) (r k : Nat) (e : FEntry), s.ripe 0x2001 r k e → s.plan.has 0x20 e.inst = true → e.object = 0xFFFF →
    e.zeroFrom 32 56 = true → (s.begun r e).fnState 0x20 e.inst = 2 → (s.begun r e).portState e.inst = 2 →
    exec (.retrain r k) s = .next (State.withPorts (fun s =>
      let u := ((s.begun r e).bump .portLinkDown e.inst 0 1).startTraining e.inst false
      u.setLane e.inst { u.lane e.inst with retrain := some (r, e.k) }) s).watch.settle) ∧
  (∀ (s : State) (r k : Nat) (e : FEntry), s.ripe 0x2002 r k e → s.plan.has 0x20 e.inst = true → e.object = 0xFFFF →
    0 < e.arg 32 1 → e.arg 32 1 < 3 → e.zeroFrom 33 56 = true → (s.begun r e).fnState 0x20 e.inst = 2 →
    (s.begun r e).mayRest e.inst = true →
    exec (.power r k) s = .next (State.withPorts (fun s => let u := s.begun r e
      u.setLane e.inst { u.lane e.inst with power := some (r, e.k, e.arg 32 1), powerTick := u.ticks }) s).watch.settle) ∧
  (∀ (s : State) (p r k : Nat), s.live → s.portState p = 2 →
    let done (u : State) (st : Nat) : State :=
      let v := (u.setPortState p st).emit 0x2008 p 0 (pay [2, st, (u.ticks - (u.lane p).powerTick) / 200])
      (v.setLane p { v.lane p with power := none }).complete r k 0 0
    let data := (List.range 4).filter fun l => s.drivesLane p l
    (s.mayRest p = true → (s.lane p).power = some (r, k, 1) → exec (.powerState p) s = .next (State.withPorts (fun s =>
      done (if data.isEmpty then s else (s.sendMarker p 3 data []).send (.dataIdle p)) 6) s).watch.settle) ∧
    (s.mayRest p = true → (s.lane p).power = some (r, k, 2) →
      exec (.powerState p) s = .next (State.withPorts (fun s => done (s.send (.electricalIdle p)) 7) s).watch.settle) ∧
    (∀ st, s.mayRest p = false → (s.lane p).power = some (r, k, st) → exec (.powerState p) s = .next (State.withPorts (fun s =>
      (s.setLane p { s.lane p with power := none }).complete r k 0x8008 0) s).watch.settle)) ∧
  (∀ (s : State) (r k : Nat) (e : FEntry), s.ripe 0x2003 r k e → s.plan.has 0x20 e.inst = true → s.isOn 0x20 e.inst = true →
    e.object = 0xFFFF → e.arg 32 1 < 4 → e.arg 33 1 < 2 → e.arg 34 1 < 32 → e.arg 35 1 = 0 → 1 ≤ e.arg 36 4 → e.arg 36 4 ≤ 2000 →
    e.zeroFrom 40 56 = true → (s.begun r e).mayRest e.inst = true →
    exec (.test r k) s = .next (State.withPorts (fun s =>
      let u := ((s.begun r e).setPortState e.inst 5).setFld .portTestStatus e.inst 0 0 6 1
      let u := if e.arg 33 1 = 0 then u.sendMarker e.inst 5 (u.bitLanes e.inst) (u.blockOf e.inst 0 (e.arg 32 1)).bytes else u
      let u := u.send (.testPattern e.inst (e.arg 32 1) (e.arg 33 1 == 1) (u.patternLines e.inst (e.arg 32 1) (e.arg 34 1)))
      u.setLane e.inst { u.lane e.inst with
        test := some ⟨r, e.k, e.arg 32 1, e.arg 33 1, e.arg 34 1, u.ticks + e.arg 36 4 * 200000⟩ }) s).watch.settle) ∧
  (∀ (s : State) (p heard : Nat) (rx : List (List Bool)) (t : LaneTest), s.live → (s.lane p).test = some t → t.until_ ≤ s.ticks →
    let got := (List.range 5).map fun l =>
      if heard.testBit l = true then if (t.lanes.testBit l && (t.mode == 1 || s.receivesLane p l)) = true
        then prbsCheck t.pattern (rx.getD l []) else none else none
    exec (.testDone p rx heard) s = .next (State.withPorts (fun s =>
      let u := forEach (List.range 5) (fun l s => s.bump .portPrbsErr p l ((got.getD l none).getD 0)) s
      let u := u.setReg .portTestStatus p 0 (w32 (((List.range 5).map fun l => b2n (got.getD l none).isSome * 2 ^ (l + 1)).sum))
      let u := u.emit 0x2009 p 0 (pay ([t.pattern, t.mode] ++ got.map fun n => min 65535 (n.getD 0)))
      let u := if t.mode = 0 then u.sendMarker p 6 (u.bitLanes p) [] else u
      let u := u.setPortState p 2
      ((u.setLane p { u.lane p with test := none }).complete t.ring t.k 0 0).safeIfDue p) s).watch.settle) ∧
  (∀ (s : State) (r k : Nat) (e : FEntry), s.ripe 0x2004 r k e → s.plan.has 0x20 e.inst = true → s.isOn 0x20 e.inst = true →
    e.object = 0xFFFF → e.arg 32 1 < 5 → (s.begun r e).drivesLane e.inst (e.arg 32 1) = true → 1 ≤ e.arg 33 1 → 1 ≤ e.arg 34 2 →
    e.zeroFrom 36 56 = true → (s.begun r e).portState e.inst = 5 →
    exec (.inject r k) s = .next (State.withPorts (fun s =>
      ((s.begun r e).send (.injected e.inst (e.arg 32 1) (e.arg 33 1) (e.arg 34 2))).complete r e.k 0 0) s).watch.settle)

/-- R395, R411 to R416 and R419: what the link layer sends by itself, and what it takes from packets and from hosts. -/
def Obligations.LinkLayerTakesEffect : Prop :=
  (∀ (s : State) (p reason : Nat), s.live → (s.link p).safe = some reason → s.drives = true → s.portState p = 2 →
    (s.link p).safeTick + 2000000 ≤ s.ticks →
    exec (.safeRepeat p) s = .next ((s.setLink p { s.link p with safeTick := s.ticks }).control p 2 (le 1 reason ++ [0, 0, 0])).watch.settle) ∧
  (∀ (s : State) (p : Nat), s.live → s.drives = false → s.plan.role p = 1 → s.portState p = 2 → (s.link p).epochTick + 20000000 ≤ s.ticks →
    exec (.epochRepeat p) s = .next (s.sendEpoch p false).watch.settle) ∧
  (∀ (s : State) (p : Nat), s.live → s.portState p = 2 → (s.link p).stage ≠ 2 → (s.link p).timeTick + s.fld .linkXTimeMs p 0 0 7 * 200000 ≤ s.ticks →
    (s.link p).stepLeft = 0 →
    exec (.timeSend p) s = .next (
      let u := s.sendNew p 0x06 0 0 (le 4 s.now.toNat ++ le 4 (s.reg .linkDelayNs p 0).toNat ++ [0, 0, 0, 0] ++
        le 1 (2 * b2n (s.fld .timState 0 0 0 3 == 4 || s.fld .timState 0 0 0 3 == 5) + 4 * b2n ((s.link p).timeCount % 10 == 0)) ++
        le 1 s.tim.stepSeq ++ [0, 0])
      u.setLink p { u.link p with timeTick := u.ticks, timeCount := (s.link p).timeCount + 1, stepLeft := 0 }).watch.settle) ∧
  (∀ (s r u : State) (p : Nat) (skew : List Nat) (lines : List (List Bool)) (sync : Bool) (raw : List Byte) (pk : Pkt), s.live →
    s.arrive p skew lines = (r, some (sync, raw)) → r.receiveItem p 0x06 sync raw = (u, some pk) →
    pk.payload.length = 16 → zeros (slice pk.payload 8 8) = true → 7 ≤ (u.link p).echoes.length →
    exec (.timeEchoRx p skew lines) s = .next (
      let v := (sdiff u.now (w32 (leAt pk.payload 0 4)) - leAt pk.payload 4 4) / 2
      let es := (v :: (u.link p).echoes).take 8
      ((u.setLink p { u.link p with echoes := es }).setReg .linkDelayNs p 0 (i32 (median8 es))).setFld .linkState p 0 3 1 1).watch.settle) ∧
  (∀ (s r u : State) (p : Nat) (skew : List Nat) (lines : List (List Bool)) (sync : Bool) (raw : List Byte) (pk : Pkt), s.live →
    s.arrive p skew lines = (r, some (sync, raw)) → r.receiveItem p 0x09 sync raw = (u, some pk) →
    pk.payload.length = 16 → leAt pk.payload 0 2 < 4096 → zeros (slice pk.payload 2 6) = true →
    let signalled := u.onBus fun b => b.fenceSignal (leAt pk.payload 0 2) (leAt pk.payload 8 8)
    (u.portSource p = none → exec (.fenceSignalRx p skew lines) s = .next signalled.watch.settle) ∧
    (∀ e, u.portSource p = some e → (u.src e.source).waiting = [] →
      exec (.fenceSignalRx p skew lines) s = .next (
        if (u.src e.source).fill = none ∨ (u.srcKind e.source = 0 ∧ (u.geo e.source).store = 0) then signalled
        else u.setSrc e.source { u.src e.source with signals := (u.src e.source).signals ++ [(leAt pk.payload 0 2, leAt pk.payload 8 8)] }).watch.settle) ∧
    (∀ e, u.portSource p = some e → (u.src e.source).waiting ≠ [] →
      exec (.fenceSignalRx p skew lines) s =
        .next (u.setSrc e.source { u.src e.source with waiting := (u.src e.source).waiting ++ [pk] }).watch.settle)) ∧
  (∀ (s : State) (p : Nat), s.live → s.portState p = 2 → (s.link p).silent = false →
    max (s.link p).upTick ((s.link p).statusTick.getD 0) + s.fld .linkXStatusMs p 0 0 10 * 200000 ≤ s.ticks →
    exec (.partnerSilent p) s = .next ((s.setLink p { s.link p with silent := true }).emit 0x2015 p 1
      (pay [min 65535 ((s.ticks - (s.link p).statusTick.getD 0) / 200000)])).watch.settle) ∧
  (∀ (s : State) (host p : Nat) (v : Word), s.live → s.reached host 0x20 p → 1 ≤ bf v 0 10 → bf v 0 10 ≤ 1000 →
    exec (.linkHoldCapWrite host p v) s =
      .next (((s.regWriteRec host 0x20 p 0 0x88 v).setReg .linkHoldCap p 0 (w32 (bf v 0 10))).sendHold p).watch.settle)

/-- R431 to R434 for the check units, R190 to R193 for the engine: what each command leaves where nothing is refused. -/
def Obligations.CheckAndCompressTakeEffect : Prop :=
  (∀ (s u t : State) (r k : Nat) (e : FEntry) (d : List Byte), s.ripe 0x0701 r k e → s.plan.has 7 e.inst = true →
    s.isOn 7 e.inst = true → e.object = 0xFFFF → 1 ≤ e.arg 40 4 → e.arg 40 4 ≤ 16777216 → e.zeroFrom 44 56 = true →
    let host := (s.plan.ringHost r).getD 0
    (s.begun r e).load host (e.arg 32 8) (e.arg 40 4) = (u, .ok d) →
    let v := crc (u.chkSpec e.inst) d
    (u.setPair .chkResultLo .chkResultHi e.inst 0 v).store host (e.arg 32 8 + e.arg 40 4) (le (cdiv (u.chkSpec e.inst).width 8) v) = (t, true) →
    exec (.checkAppend r k) s = .next (t.complete r e.k 0 0).watch.settle) ∧
  (∀ (s u t : State) (r k : Nat) (e : FEntry) (d d' : List Byte), s.ripe 0x0702 r k e → s.plan.has 7 e.inst = true →
    s.isOn 7 e.inst = true → e.object = 0xFFFF → 1 ≤ e.arg 40 4 → e.arg 40 4 ≤ 16777216 → e.zeroFrom 44 56 = true →
    let host := (s.plan.ringHost r).getD 0
    (s.begun r e).load host (e.arg 32 8) (e.arg 40 4) = (u, .ok d) →
    let v := crc (u.chkSpec e.inst) d
    let w := le (cdiv (u.chkSpec e.inst).width 8) v
    (u.setPair .chkResultLo .chkResultHi e.inst 0 v).load host (e.arg 32 8 + e.arg 40 4) w.length = (t, .ok d') →
    (d' = w → exec (.checkVerify r k) s = .next ((t.bump .chkPass e.inst 0 1).complete r e.k 0 0).watch.settle) ∧
    (d' ≠ w → exec (.checkVerify r k) s = .next ((((t.bump .chkFail e.inst 0 1).setFld .chkStatus e.inst 0 1 1 1).emit
      0x0701 e.inst 1 (pay [e.inst, e.arg 32 8, leNat w % 2 ^ 32])).complete r e.k 0x800E 1).watch.settle)) ∧
  (∀ (s u : State) (r k : Nat) (e : FEntry) (pic : List (List Byte)), s.ripe 0x0601 r k e → s.plan.has 6 e.inst = true →
    s.isOn 6 e.inst = true → e.object = 0xFFFF → cmpArgs e true = true →
    let host := (s.plan.ringHost r).getD 0
    let g := cmpGeo e
    (s.begun r e).fetchRows host (e.arg 32 8) (e.arg 52 2 * 64) g.rows g.rowLen = (u, .ok pic) →
    let coded := g.coded (e.arg 55 1 % 4) pic
    let raw := (coded.filter fun c => c.2.1 == 1).length
    (u.fld .cmpXNoGainPct 0 0 0 7 * coded.length ≤ raw * 100 →
      exec (.compress r k) s = .next ((u.bump .cmpNoGain 0 0 1).complete r e.k 2 0).watch.settle) ∧
    (∀ t : State, raw * 100 < u.fld .cmpXNoGainPct 0 0 0 7 * coded.length →
      u.writePicture host (e.arg 40 8) g (e.arg 55 1 % 4) pic = (t, true) →
      exec (.compress r k) s = .next (t.complete r e.k 0 0).watch.settle)) ∧
  (∀ (s u t x : State) (r k : Nat) (e : FEntry) (pic : List (List Byte)) (tr : List Byte), s.ripe 0x0602 r k e →
    s.plan.has 6 e.inst = true → s.isOn 6 e.inst = true → e.object = 0xFFFF → cmpArgs e false = true →
    let host := (s.plan.ringHost r).getD 0
    let g := cmpGeo e
    (s.begun r e).fetchPicture host (e.arg 32 8) g = (u, .ok pic) →
    u.writeAll host (pic.mapIdx fun y row => (e.arg 40 8 + y * (e.arg 52 2 * 64), row)) = (t, true) →
    t.fetchBytes host (e.arg 32 8 + g.trailerOff) 64 = (x, .ok tr) →
    exec (.decompress r k) s = .next (if leAt tr 12 4 = contentCheck (g.checks pic) then x.complete r e.k 0 0
      else x.complete r e.k 0x800E 2).watch.settle)

/-- R169, R179, R184, R187, R188, R194, R196 and R417: what moves a source without a packet. -/
def Obligations.SourcesTakeEffect : Prop :=
  (∀ (s : State) (r k : Nat) (e : FEntry), s.ripe 0x1001 r k e → s.plan.has 0x10 e.inst = true → s.isOn 0x10 e.inst = true →
    e.object = 0xFFFF →
    let v := s.begun r e
    (v.srcKind e.inst ≠ 2 → exec (.submit r k) s = .next (v.complete r e.k stBadOpcode 0).watch.settle) ∧
    (v.srcKind e.inst = 2 →
      (v.submitArgs e = false → exec (.submit r k) s = .next (v.complete r e.k stBadArgument 0).watch.settle) ∧
      (v.submitArgs e = true → v.bufState e.inst (e.arg 32 1) ≠ 0 →
        exec (.submit r k) s = .next ((v.poolNone e.inst 0).complete r e.k stBusy 0).watch.settle) ∧
      (v.submitArgs e = true → v.bufState e.inst (e.arg 32 1) = 0 → ∀ (u : State) (st reason : Nat),
        (if (v.geo e.inst).store = 0 then v.submitHere e else v.submitFrom e) = (u, some (st, reason)) →
        exec (.submit r k) s = .next (u.complete r e.k st reason).watch.settle))) ∧
  (∀ (s u : State) (e : FEntry) (reason : Nat), (e.arg 33 1).testBit 0 = false →
    s.finish e.inst (e.arg 32 1)
      { alive := e.arg 34 2, cap := w32 (e.arg 36 4), check := e.arg 40 4, given := none,
        degraded := (e.arg 33 1).testBit 2, fromHost := true, fault := false, incomplete := false, since := s.ticks,
        doubts := (s.src e.inst).doubts } = (u, reason) →
    s.submitHere e = (u, some (if reason = 0 then stOk else stFailed, reason))) ∧
  (∀ (s : State) (n : Nat), s.live →
    let gone : Bool := !s.isOn 0x10 n || (s.newest n).isNone || s.writerAbsent n
    let age := s.age (s.reg .srcNewestTime n 0)
    let old := s.fld .srcState n 0 0 2
    let v := if gone = false ∧ 2000000000 ≤ age then s.dropNewest n else s
    let st := if gone = true ∨ 2000000000 ≤ age then 0
      else if bit (s.reg .srcState n 0) 2 = true ∨ (s.fld .srcLimit n 0 0 11 : Int) * 1000000 < age then 3
      else if bit (s.reg .srcBufState n (s.fld .srcState n 0 4 4)) 4 = true then 2
      else 1
    let t := v.setFld .srcState n 0 0 2 st
    exec (.sourceStateEval n) s = .next (if st = old then v else
      t.emit 0x1001 n (if st = 0 ∨ st = 3 then 1 else 0)
        (pay [old, st, t.fld .srcState n 0 2 1, (t.reg .srcNewestTime n 0).toNat])).watch.settle) ∧
  (∀ (s : State) (n : Nat) (w : CullWin), s.live → (s.src n).win = some w → w.opened + 200000 ≤ s.ticks →
    exec (.srcCull n) s = .next ((s.setSrc n { s.src n with win := none }).emitAt w.time none 0x1002 n 1
      (pay [w.reason, w.alive, w.cap.toNat, w.count])).watch.settle) ∧
  (∀ (s : State) (n : Nat) (f : FillSt), s.live → (s.src n).fill = some f → f.since + s.fld .srcXFillMs n 0 0 11 * 200000 < s.ticks →
    s.wb n = none → (s.dec n).dpb = [] → (∀ c, s.core c = none) →
    exec (.fillTimeout n) s = .next (((s.setSrc n { s.src n with fill := none }).cull n f.buf 1 f.alive f.cap).signalsDue n).watch.settle) ∧
  (∀ (s : State) (n : Nat) (w : WbSt), s.live → (s.src n).fill = none → s.wb n = some w →
    w.since + s.fld .srcXFillMs n 0 0 11 * 200000 < s.ticks → (s.dec n).dpb = [] → (∀ c, s.core c = none) →
    exec (.fillTimeout n) s = .next ((s.setWb n none).cull n w.buf 1 w.alive w.time).watch.settle) ∧
  (∀ (s : State) (n : Nat), s.live → (s.src n).fill = none → s.wb n = none →
    let late (since : Nat) : Bool := decide (since + s.fld .srcXFillMs n 0 0 11 * 200000 < s.ticks)
    exec (.fillTimeout n) s = .next (forEach (List.range 24) (fun c s =>
      match s.core c with
      | some x => if x.stream = n ∧ late x.since = true ∧ x.culled = false then
          (s.setCore c (some { x with culled := true })).cull n x.buf 1 x.alive x.cap else s
      | none => s)
      (forEach ((s.dec n).dpb.filter fun d => d.pending && late d.since) (fun d s =>
        let x := s.dec n
        let s := s.setDec n { x with dpb := x.dpb.map fun e => if e.buf = d.buf then { e with pending := false } else e }
        (s.cull n d.buf 1 d.alive d.cap).showPending n) s)).watch.settle) ∧
  (∀ (s : State) (n : Nat), s.live → s.srcKind n = 5 → s.isOn 0x10 n = true → (s.src n).testAt ≤ s.ticks →
    let x := s.src n
    let v := s.setSrc n { x with testN := x.testN + 1, testAt := x.testAt + s.fld .srcTest n 0 16 10 * 200000 }
    let pic := testPicture (v.geo n) (v.fld .srcTest n 0 0 4) (v.fld .srcTestColour n 0 0 24) x.testN
    (v.freeBuf n (fun _ => true) = none → exec (.testPatternRegen n) s = .next (v.poolEmpty n).watch.settle) ∧
    (∀ (u : State) (b : Nat) (ok : Bool), v.freeBuf n (fun _ => true) = some b →
      v.writePicture 148 (v.bufAddr n b) (v.geo n) (v.fld .cmpXEffort 0 0 0 2) pic = (u, ok) →
      let q := u.engineFault n
      exec (.testPatternRegen n) s = .next (q.1.finish n b
        { alive := x.testN % 65535 + 1, cap := s.now, check := contentCheck ((v.geo n).checks pic), given := none, degraded := false,
          fromHost := false, fault := q.2 || !ok, incomplete := false, since := q.1.ticks, doubts := (q.1.src n).doubts }).1.watch.settle)) ∧
  (∀ (s : State) (p : Nat) (e : SrcEnt), s.live → s.portSource p = some e → s.portState p = 2 →
    (e.kind = 0 → exec (.creditSend p) s =
      .next (s.sendCredit p (((s.link p).used + 1024) % 2 ^ 32) (bit (s.reg .linkState p 0) 2)).watch.settle) ∧
    (e.kind = 1 → (s.src e.source).waiting = [] →
      (((List.range e.buffers).any fun b => s.bufState e.source b == 0 || s.bufState e.source b == 1) = true →
        exec (.creditSend p) s =
          .next (s.sendCredit p (((s.link p).used + 1024) % 2 ^ 32) (bit (s.reg .linkState p 0) 2)).watch.settle) ∧
      (((List.range e.buffers).any fun b => s.bufState e.source b == 0 || s.bufState e.source b == 1) = false →
        s.isOn 0x10 e.source = true →
        let v := s.poolNone e.source 0
        exec (.creditSend p) s =
          .next (v.sendCredit p (v.reg .linkCreditLimit p 0).toNat (bit (v.reg .linkState p 0) 2)).watch.settle)))

/-- R169, R177, R399 to R403 and R407 to R409: the packets of an in-port's pictures that pass the packet checks (R394 to R399). -/
def Obligations.InPortPicturesTakeEffect : Prop :=
  (∀ (s : State) (n b : Nat) (pk : Pkt) (broken : Bool), s.freeBuf n (fun _ => true) = some b →
    let v := s.moveBuf n b 1
    s.openFill n pk broken = v.setSrc n { v.src n with
      skipping := none, fill := some ⟨b, v.ticks, (v.src n).doubts, pk.alive, pk.stamp, pk.flags.testBit 0,
        (v.src n).waitBad.contains pk.alive, broken, []⟩, waitBad := (v.src n).waitBad.filter fun a => a != pk.alive }) ∧
  (∀ (s : State) (n : Nat) (pk : Pkt) (broken : Bool), s.freeBuf n (fun _ => true) = none →
    s.openFill n pk broken = (s.setSrc n { s.src n with fill := none, skipping := some pk.alive }).poolEmpty n) ∧
  (∀ (s t : State) (p n : Nat) (pk : Pkt) (broken : Bool),
    (s.aliveCheck p 1 pk.alive = (t, true) → s.openItem p n pk broken = (t.abandon n).openFill n pk broken) ∧
    (s.aliveCheck p 1 pk.alive = (t, false) →
      s.openItem p n pk broken = (t.breakFill n).setSrc n { (t.breakFill n).src n with skipping := some pk.alive })) ∧
  (∀ (s r u : State) (p n : Nat) (skew : List Nat) (lines : List (List Bool)) (sync : Bool) (raw : List Byte) (pk : Pkt), s.live →
    s.arrive p skew lines = (r, some (sync, raw)) → r.picRx p 0x02 0 sync raw = (u, some (n, pk)) →
    pk.payload.length = 16 → byteAt pk.payload 10 < 4 →
    let v := u.abandon n
    let g := v.geo n
    exec (.rasterFrameStartRx p skew lines) s = .next ((v.openItem p n pk (!(leAt pk.payload 4 2 == 0 && leAt pk.payload 6 2 == g.w &&
      leAt pk.payload 8 2 == g.h && byteAt pk.payload 11 == g.fmt && leAt pk.payload 12 4 == 0))).signalsDue n).watch.settle) ∧
  (∀ (s r u : State) (p n : Nat) (skew : List Nat) (lines : List (List Bool)) (sync : Bool) (raw : List Byte) (pk : Pkt), s.live →
    s.arrive p skew lines = (r, some (sync, raw)) → r.picRx p 0x01 0 sync raw = (u, some (n, pk)) →
    8 ≤ pk.payload.length → leAt pk.payload 6 2 = 0 →
    let g := u.geo n
    let line := leAt pk.payload 0 2
    let x0 := leAt pk.payload 2 2
    let count := leAt pk.payload 4 2
    ((u.src n).fill = none → exec (.rasterLineRx p skew lines) s = .next (u.strayPacket p n pk).watch.settle) ∧
    (∀ f : FillSt, (u.src n).fill = some f →
      (f.alive ≠ pk.alive → exec (.rasterLineRx p skew lines) s = .next (u.strayPacket p n pk).watch.settle) ∧
      (f.alive = pk.alive → (f.parts.any fun q => q.1 == line && q.2.1 == x0) = true →
        exec (.rasterLineRx p skew lines) s = .next (u.linkCull p pk.stream pk.alive).watch.settle) ∧
      (f.alive = pk.alive → (f.parts.any fun q => q.1 == line && q.2.1 == x0) = false →
        ((g.h ≤ line ∨ g.w < x0 + count ∨ pk.payload.length ≠ 8 + count * bppOf g.fmt) →
          exec (.rasterLineRx p skew lines) s = .next (u.breakFill n).watch.settle) ∧
        (∀ (t : State) (ok : Bool), line < g.h → x0 + count ≤ g.w → pk.payload.length = 8 + count * bppOf g.fmt →
          (if g.store = 0 then u.writeAll (84 + p) [(u.bufAddr n f.buf + line * g.pitch + x0 * bppOf g.fmt, pk.payload.drop 8)] else (u, true))
            = (t, ok) →
          exec (.rasterLineRx p skew lines) s = .next (t.setSrc n { t.src n with
            fill := some { f with parts := f.parts ++ [(line, x0, pk.payload.drop 8)], degraded := f.degraded || pk.flags.testBit 0,
                                  fault := f.fault || !ok } }).watch.settle)))) ∧
  (∀ (s r u : State) (p n : Nat) (skew : List Nat) (lines : List (List Bool)) (sync : Bool) (raw : List Byte) (pk : Pkt) (f : FillSt), s.live →
    s.arrive p skew lines = (r, some (sync, raw)) → r.picRx p 0x03 0 sync raw = (u, some (n, pk)) → (u.src n).fill = some f → f.alive = pk.alive →
    16 ≤ pk.payload.length → pk.payload.length = 16 + 4 * leAt pk.payload 12 2 → leAt pk.payload 14 2 = 0 → leAt pk.payload 4 4 = 0 →
    let g := u.geo n
    let rows := (List.range g.h).map fun y => lineOf f.parts (bppOf g.fmt) g.w y
    exec (.rasterFrameEndRx p skew lines) s = .next ((u.closeFill n p { f with degraded := f.degraded || pk.flags.testBit 0 }
      (if rows.all Option.isSome then some (rows.map fun r => r.getD []) else none) [] (leAt pk.payload 8 4) false).signalsDue n).watch.settle) ∧
  (∀ (s r u : State) (p n : Nat) (skew : List Nat) (lines : List (List Bool)) (sync : Bool) (raw : List Byte) (pk : Pkt), s.live →
    s.arrive p skew lines = (r, some (sync, raw)) → r.picRx p 0x07 1 sync raw = (u, some (n, pk)) → (u.src n).waiting = [] →
    ((u.src n).fill = none → u.freeBuf n (fun _ => true) = none →
      let v := u.poolNone n 0
      exec (.surfaceTileRx p skew lines) s = .next (v.setSrc n { v.src n with waiting := (v.src n).waiting ++ [pk] }).watch.settle) ∧
    (pk.typ = 0x07 → ((u.src n).fill.isSome = true ∨ (u.freeBuf n (fun _ => true)).isSome = true) →
      12 ≤ pk.payload.length → byteAt pk.payload 7 = 0 →
      let t := match (u.src n).fill with
        | none => if (u.src n).skipping = some pk.alive then u else u.openItem p n pk false
        | some f => if f.alive = pk.alive ∨ (u.src n).skipping = some pk.alive then u else u.openItem p n pk false
      ∀ f : FillSt, (t.src n).fill = some f → f.alive = pk.alive →
      let g := u.geo n
      let tx := leAt pk.payload 0 2
      let ty := leAt pk.payload 2 2
      let row0 := byteAt pk.payload 5
      let rows := byteAt pk.payload 6
      (f.parts.any fun q => q.1 == ty * g.tw + tx && q.2.1 == row0) = false →
      tx < g.tw → ty < g.th → byteAt pk.payload 4 = g.fmt → row0 + rows ≤ min 64 (g.h - 64 * ty) →
      pk.payload.length = 12 + rows * min 64 (g.w - 64 * tx) * bppOf g.fmt →
      exec (.surfaceTileRx p skew lines) s = .next ((t.setSrc n { t.src n with
        fill := some { f with parts := f.parts ++ [(ty * g.tw + tx, row0, pk.payload.drop 12)],
                              degraded := f.degraded || pk.flags.testBit 0 } }).signalsDue n).watch.settle)) ∧
  (∀ (s r u : State) (p n : Nat) (skew : List Nat) (lines : List (List Bool)) (sync : Bool) (raw : List Byte) (pk : Pkt) (f : FillSt), s.live →
    s.arrive p skew lines = (r, some (sync, raw)) → r.picRx p 0x08 1 sync raw = (u, some (n, pk)) → (u.src n).waiting = [] → (u.src n).fill = some f → f.alive = pk.alive → pk.typ = 0x08 →
    pk.payload.length = 16 → leAt pk.payload 12 4 = 0 →
    let g := u.geo n
    let x := { f with cap := pk.stamp, degraded := f.degraded || pk.flags.testBit 0 }
    let carried := (List.range g.tiles).filter fun t => f.parts.any fun q => q.1 == t
    ((leAt pk.payload 4 4 ≠ carried.length ∨ leAt pk.payload 8 2 ≠ g.w ∨ leAt pk.payload 10 2 ≠ g.h) →
      exec (.damageRx p skew lines) s = .next ((u.closeFill n p x none [] (leAt pk.payload 0 4) false).signalsDue n).watch.settle) ∧
    (leAt pk.payload 4 4 = carried.length → leAt pk.payload 8 2 = g.w → leAt pk.payload 10 2 = g.h →
      (carried.length = g.tiles → exec (.damageRx p skew lines) s =
        .next ((u.closeFill n p x (g.update [] f.parts) [] (leAt pk.payload 0 4) false).signalsDue n).watch.settle) ∧
      (carried.length ≠ g.tiles → u.newest n = none →
        exec (.damageRx p skew lines) s = .next ((u.closeFill n p x none [] (leAt pk.payload 0 4) false).signalsDue n).watch.settle) ∧
      (∀ (t v : State) (old : Nat) (pic : List (List Byte)) (c : List Byte), carried.length ≠ g.tiles → u.newest n = some old →
        u.fetchPicture (84 + p) (u.bufAddr n old) g = (t, .ok pic) →
        t.fetchBytes (84 + p) (t.bufAddr n old + g.checkOff) (4 * g.tiles) = (v, .ok c) →
        exec (.damageRx p skew lines) s = .next ((v.closeFill n p x (g.update pic f.parts)
          ((List.range g.tiles).map fun t => if carried.contains t then none else some (leAt c (4 * t) 4)) (leAt pk.payload 0 4)
          false).signalsDue n).watch.settle)))

/-- R198 to R212 and R218: the three events of DECODE. -/
def Obligations.DecodingTakesEffect : Prop :=
  (∀ (s : State) (n c : Nat) (e : StreamEnt), s.live → s.plan.stream n = some e → s.fnState 0x11 n = 1 → s.fld .decRing n 0 0 9 < 256 →
    s.plan.ringHost (s.fld .decRing n 0 0 9) = some e.host → s.isOn 2 (s.fld .decRing n 0 0 9) = true →
    s.bus.ringKind (s.fld .decRing n 0 0 9) = 2 → s.isOn 0x10 n = true →
    (s.fld .srcFormat n 0 0 4 = 6 ∨ s.fld .srcFormat n 0 0 4 = 7) → s.pickCore e.lumaKps = some c →
    exec (.decodeStreamBind n) s = .next (
      let u := (s.codingRec 0x11 n 1 c 0 0 s.now).setReg .decStatus n 0 (w32 (c * 4))
      let u := ((u.setReg .decMarks n 0 0).setReg .decFlags n 0 0).setDec n { DecSt.init with secTick := u.ticks }
      ((u.onBus fun b => b.enter 0x11 n 2).emit 0x1106 n 0 (pay [c, s.coreLeft c - e.lumaKps])).evalSource n).watch.settle) ∧
  (∀ (s : State) (n : Nat) (e : StreamEnt), s.live → s.plan.stream n = some e → s.fnState 0x11 n = 1 → s.fld .decRing n 0 0 9 < 256 →
    let r := s.fld .decRing n 0 0 9
    let fmt := s.fld .srcFormat n 0 0 4
    ((s.plan.ringHost r ≠ some e.host ∨ s.bus.ringKind r ≠ 2) →
      exec (.decodeStreamBind n) s = .next (s.onBus fun b => b.startFailed 0x11 n 1).watch.settle) ∧
    (s.plan.ringHost r = some e.host → s.bus.ringKind r = 2 →
      (fmt ≠ 6 → fmt ≠ 7 → exec (.decodeStreamBind n) s = .next (s.onBus fun b => b.startFailed 0x11 n 3).watch.settle) ∧
      (fmt = 6 ∨ fmt = 7 →
        ((s.isOn 2 r = false ∨ s.isOn 0x10 n = false) → exec (.decodeStreamBind n) s = .next s.watch.settle) ∧
        (s.isOn 2 r = true → s.isOn 0x10 n = true → s.pickCore e.lumaKps = none →
          exec (.decodeStreamBind n) s = .next (s.onBus fun b => b.startFailed 0x11 n 2).watch.settle)))) ∧
  (∀ (s : State) (c : Nat) (i : AuInfo), s.live →
    ((s.core c).isSome = true → exec (.decodePictureStart c i) s = .next s.watch.settle) ∧
    (s.core c = none → (s.countWaits c).pickStream c = none → exec (.decodePictureStart c i) s = .next (s.countWaits c).watch.settle) ∧
    (∀ (n : Nat) (e : FEntry), s.core c = none → (s.countWaits c).pickStream c = some (n, e) →
      exec (.decodePictureStart c i) s = .next ((s.countWaits c).startUnit c n e i).watch.settle)) ∧
  (∀ (s : State) (c n : Nat) (e : FEntry) (i : AuInfo),
    let r := s.fld .decRing n 0 0 9
    let v := { s with tnd := { s.tnd with streams := s.tnd.streams.filter fun q => q != (r, e.k) } }
    let v := v.journal 8 0x11 n (le 2 r ++ le 2 0 ++ le 4 e.k ++ slice e.data 0 24)
    (entryOk e = false → s.startUnit c n e i = v.complete r e.k stBadArgument 0) ∧
    (entryOk e = true → ∀ (u : State) (fault : Nat) (d : List Byte), v.readUnit c e = (u, fault, d) →
      let j := if fault = 0 ∧ startCode d = false then { i with reason := 1 } else i
      (j.irap = 0 → u.syncState n = 0 → s.startUnit c n e i = u.discard n r e.k fault 8) ∧
      (u.syncState n = 3 → (j.irap = 0 ∨ j.reason ≠ 0) → s.startUnit c n e i = u.discard n r e.k fault (u.fld .decStatus n 0 8 8)) ∧
      (u.syncState n = 1 ∨ u.syncState n = 2 → j.reason = 0 → u.spsReason n j.sps ≠ 0 →
        s.startUnit c n e i =
          ((u.reject n j (u.spsReason n j.sps) (e.arg 20 4)).showSps n j.sps).discard n r e.k fault (u.spsReason n j.sps)) ∧
      (u.syncState n = 1 ∨ u.syncState n = 2 → j.irap = 0 → j.reason = 0 → u.spsReason n j.sps = 0 →
        (bit (u.reg .decXSkip n 0) 0 = false →
          s.startUnit c n e i = u.coreTake c n r e j fault) ∧
        (bit (u.reg .decXSkip n 0) 0 = true → j.nonRef = true → fault = 0 →
          (u.fld .srcLimit n 0 0 11 : Int) * 1000000 < u.age (w32 (e.arg 12 4)) → byteAt e.data 18 = 0 →
          s.startUnit c n e i =
            ((u.codingRec 0x11 n 2 c (e.arg 16 2) (e.arg 20 4) u.now).bump .decSkipped n 0 1).complete r e.k stNoGain 0)))) ∧
  (∀ (s : State) (c n r b fault : Nat) (e : FEntry) (i : AuInfo), s.freeBuf n (s.decodable n) = some b →
    let v := (s.moveBuf n b 1).onBus fun q => q.setPhase r e.k .running
    let u := s.coreTake c n r e i fault
    u.core c = some {
      stream := n, k := e.k, buf := b, alive := e.arg 16 2, cap := w32 (e.arg 12 4), flags := byteAt e.data 18,
      tag := e.arg 20 4, irap := i.irap, dataFault := fault, since := v.ticks, doubts := (v.src n).doubts, culled := false,
      hidden := i.rasl && (v.dec n).dropRasl, depth := i.sps.depth, codedW := i.sps.codedW, codedH := i.sps.codedH,
      concealMax := v.fld .decXConcealMax n 0 0 10 } ∧
      u.fld .decStatus n 0 16 8 = i.sps.level % 256 ∧ u.fld .decStatus n 0 24 4 = i.sps.depth % 16 ∧
      (∀ c', c' ≠ c → u.core c' = s.core c')) ∧
  (∀ (s : State) (c : Nat) (o : PicObs), s.live → s.core c = none → exec (.decodePictureEnd c o) s = .next s.watch.settle) ∧
  (∀ (s u v w : State) (c : Nat) (x : CoreSt) (o : PicObs) (bad lost wrote : Bool) (rows : List (List Byte)), s.live → s.core c = some x →
    (s.freeCore c).refReads c x.stream o = (u, bad) → u.picRows c x o = (v, rows, lost) →
    v.writePicture (4 + c) (v.bufAddr x.stream x.buf) (v.geo x.stream) 1 rows = (w, wrote) →
    exec (.decodePictureEnd c o) s = .next (w.picTake x (s.fld .decRing x.stream 0 0 9) o
      ⟨s.refsAbsent x.stream o, bad || lost, picConcealed x o⟩ rows wrote).watch.settle) ∧
  (∀ (s : State) (c bx bY : Nat) (x : CoreSt) (o : PicObs), picLost x o bx bY = true →
    let g := s.geo x.stream
    (s.subst x.stream = none → s.picBlock c x o bx bY = (s, greyBlock g.fmt, false)) ∧
    (∀ (b : Nat) (u : State) (d : List Byte), s.subst x.stream = some b →
      s.fetchBlock (4 + c) (s.bufAddr x.stream b) g bx bY = (u, .ok d) → s.picBlock c x o bx bY = (u, d, false)))

/-- R231 to R252 for the commands of COMPOSE: each changes only what is pending of its head. -/
def Obligations.LayerCommandsTakeEffect : Prop :=
  (∀ (s : State) (r k : Nat) (e : FEntry), s.ripe 0x1201 r k e → s.plan.has 0x12 e.inst = true → s.isOn 0x12 e.inst = true →
    e.object < s.depth e.inst → layerArgsOk s.plan e = true →
    let c := layerArgs e
    let u := s.begun r e
    let x := u.head e.inst
    ((ratioOk c.cropW c.dstW && ratioOk c.cropH c.dstH) = true → exec (.layerSet r k) s = .next ((u.setHead e.inst
      { x with pend := { x.pend with layers := assocSet x.pend.layers e.object c } }).complete r e.k 0 0).watch.settle) ∧
    ((ratioOk c.cropW c.dstW && ratioOk c.cropH c.dstH) = false →
      exec (.layerSet r k) s = .next (u.complete r e.k 0x8007 0).watch.settle)) ∧
  (∀ (s : State) (r k : Nat) (e : FEntry), s.ripe 0x1202 r k e → s.plan.has 0x12 e.inst = true → s.isOn 0x12 e.inst = true →
    e.object < s.depth e.inst → (e.arg 32 2 < 4096 ∨ e.arg 32 2 = 0xFFFF) → e.zeroFrom 34 40 = true → e.zeroFrom 48 56 = true →
    let u := s.begun r e
    let x := u.head e.inst
    exec (.layerFence r k) s = .next ((u.setHead e.inst
      { x with pend := { x.pend with fences := assocSet x.pend.fences e.object (e.arg 32 2, e.arg 40 8) } }).complete r e.k 0 0).watch.settle) ∧
  (∀ (s u : State) (r k : Nat) (e : FEntry) (d : List Byte) (t : List Int), s.ripe 0x1203 r k e → s.plan.has 0x12 e.inst = true →
    s.isOn 0x12 e.inst = true → e.object < s.depth e.inst → e.arg 32 8 % 64 = 0 → e.zeroFrom 40 56 = true →
    (s.begun r e).expert 0x12 e.inst = true → (s.begun r e).load (headMaster e.inst) (e.arg 32 8) 1792 = (u, .ok d) → coeffTable d = some t →
    let x := u.head e.inst
    exec (.loadCoeff r k) s = .next ((u.setHead e.inst
      { x with pend := { x.pend with coeffs := assocSet x.pend.coeffs e.object t } }).complete r e.k 0 0).watch.settle) ∧
  (∀ (s u : State) (r k : Nat) (e : FEntry), s.ripe 0x1204 r k e → s.plan.has 0x12 e.inst = true → s.isOn 0x12 e.inst = true →
    e.object < s.depth e.inst → e.arg 32 8 % 64 = 0 → e.zeroFrom 40 56 = true →
    (s.begun r e).store (headMaster e.inst) (e.arg 32 8) (tabGet BankSt.init ((s.begun r e).head e.inst).banks e.object).bytes = (u, true) →
    exec (.readCoeff r k) s = .next (u.complete r e.k 0 0).watch.settle) ∧
  (∀ (s u : State) (r k : Nat) (e : FEntry) (rows : List (List Byte)), s.ripe 0x1205 r k e → s.plan.has 0x12 e.inst = true →
    s.isOn 0x12 e.inst = true → e.object = 32 → e.arg 32 8 % 64 = 0 → 1 ≤ e.arg 40 1 → e.arg 40 1 ≤ 128 → 1 ≤ e.arg 41 1 →
    e.arg 41 1 ≤ 128 → cdiv (e.arg 40 1 * 4) 64 ≤ e.arg 42 2 → e.zeroFrom 44 56 = true →
    (s.begun r e).fetchRows (headMaster e.inst) (e.arg 32 8) (e.arg 42 2 * 64) (e.arg 41 1) (e.arg 40 1 * 4) = (u, .ok rows) →
    let x := u.head e.inst
    exec (.cursorLoad r k) s = .next ((u.setHead e.inst
      { x with pend := { x.pend with cursor := some ⟨e.arg 40 1, e.arg 41 1, rows.flatten⟩ } }).complete r e.k 0 0).watch.settle) ∧
  (∀ (s : State) (r k : Nat) (e : FEntry), s.ripe 0x1206 r k e → s.plan.has 0x12 e.inst = true → s.isOn 0x12 e.inst = true →
    e.object = 33 → e.arg 32 4 < 2 ^ s.depth e.inst → e.zeroFrom 36 56 = true →
    let u := s.begun r e
    let x := u.head e.inst
    let weight := ((((List.range (u.depth e.inst)).map fun l => u.layerNext e.inst l).filter LayerCfg.enabled).map LayerCfg.weight).sum
    (u.depth e.inst < weight → exec (.commit r k) s = .next (u.complete r e.k 0x8007 0).watch.settle) ∧
    (weight ≤ u.depth e.inst → exec (.commit r k) s = .next (((u.setHead e.inst { x with
      pend := PendSt.init, commits := x.commits ++ [⟨u.now, e.tag, e.arg 32 4, x.pend⟩] }).setFld .composeStatus e.inst 0 18 1 1).complete
        r e.k 1 0).watch.settle))

/-- R273, R275, R286, R298, R302, R253 and R313. -/
def Obligations.FreshnessCommandsTakeEffect : Prop :=
  (∀ (s : State) (r k : Nat) (e : FEntry), s.ripe 0x1301 r k e → s.plan.has 0x13 e.inst = true → s.isOn 0x13 e.inst = true →
    e.object < s.depth e.inst → e.arg 34 1 = 0 → e.zeroFrom 35 56 = true → 1 ≤ e.arg 32 2 → e.arg 32 2 ≤ 2000 →
    let u := s.begun r e
    let x := u.head e.inst
    let f := s.plan.freshFor e.inst (u.layer e.inst e.object).src
    (f.2.1 ≤ e.arg 32 2 → e.arg 32 2 ≤ f.2.2 → exec (.limitSet r k) s = .next ((u.setHead e.inst
      { x with limits := x.limits ++ [(u.now, e.object, e.arg 32 2, false)] }).complete r e.k 0 0).watch.settle) ∧
    (e.arg 32 2 < f.2.1 ∨ f.2.2 < e.arg 32 2 → exec (.limitSet r k) s = .next (u.complete r e.k 0x8007 0).watch.settle)) ∧
  (∀ (s : State) (r k : Nat) (e : FEntry), s.ripe 0x1301 r k e → s.plan.has 0x13 e.inst = true → s.isOn 0x13 e.inst = true →
    e.object < s.depth e.inst → e.arg 34 1 = 1 → e.zeroFrom 35 56 = true →
    let u := s.begun r e
    let x := u.head e.inst
    exec (.limitSet r k) s = .next ((u.setHead e.inst
      { x with limits := x.limits ++ [(u.now, e.object, e.arg 32 2, true)] }).complete r e.k 0 0).watch.settle) ∧
  (∀ (s : State) (r k : Nat) (e : FEntry), s.ripe 0x1302 r k e → s.plan.has 0x13 e.inst = true → s.isOn 0x13 e.inst = true →
    e.object < s.depth e.inst → e.arg 33 1 < 8 → e.arg 33 1 % 4 < 3 → e.zeroFrom 34 56 = true →
    let u := s.begun r e
    let x := u.head e.inst
    exec (.policySet r k) s = .next ((u.setHead e.inst
      { x with policies := x.policies ++ [(u.now, e.object, e.arg 32 1 + e.arg 33 1 * 256)] }).complete r e.k 0 0).watch.settle) ∧
  (∀ (s : State) (r k : Nat) (e : FEntry) (p : HeadEnt), s.ripe 0x1303 r k e → s.plan.has 0x13 e.inst = true → s.isOn 0x13 e.inst = true →
    e.object = 0xFFFF → e.zeroFrom 32 56 = true → s.plan.head e.inst = some p → p.ports.any (s.begun r e).witSafe = true →
    bit ((s.begun r e).reg .witStatus e.inst 0) 6 = true →
    exec (.rearm r k) s = .next (
      let u := s.begun r e
      let u := u.setHead e.inst { u.head e.inst with rearm := true, witPrev := [] }
      ((u.setFld .witStatus e.inst 0 0 2 0).emit 0x1308 e.inst 0 (pay [p.primary, u.fld .witStatus e.inst 0 16 16])).complete
        r e.k 0 0).watch.settle) ∧
  (∀ (s : State) (r k : Nat) (e : FEntry) (p : HeadEnt), s.ripe 0x1303 r k e → s.plan.has 0x13 e.inst = true → s.isOn 0x13 e.inst = true →
    e.object = 0xFFFF → e.zeroFrom 32 56 = true → s.plan.head e.inst = some p →
    (p.ports.any (s.begun r e).witSafe = false → exec (.rearm r k) s = .next ((s.begun r e).complete r e.k stState 0).watch.settle) ∧
    (p.ports.any (s.begun r e).witSafe = true → bit ((s.begun r e).reg .witStatus e.inst 0) 6 = false →
      exec (.rearm r k) s = .next ((s.begun r e).complete r e.k stFailed 1).watch.settle)) ∧
  (∀ (s : State) (host h : Nat) (v : Word), s.live → s.reached host 0x12 h →
    let u := s.regWriteRec host 0x12 h 0 0x2C v
    exec (.cursorPosWrite host h v) s = .next ((u.setReg .cursorPos h 0 v).setHead h
      { u.head h with posTick := u.ticks, curHide := false }).watch.settle) ∧
  (∀ (s : State) (h : Nat), s.live → s.isOn 0x12 h = true → s.fld .cursorCtl h 0 16 11 ≠ 0 → (s.head h).curHide = false →
    (s.head h).posTick + s.fld .cursorCtl h 0 16 11 * 200000 ≤ s.ticks →
    exec (.cursorHidden h) s = .next ((s.setHead h { s.head h with curHide := true }).emit 0x1207 h 0
      (pay [(s.reg .cursorPos h 0).toNat])).watch.settle) ∧
  (∀ (s : State) (host h : Nat) (v : Word), s.live → s.reached host 0x13 h →
    let i := bf v 0 14
    let w := s.regWriteRec host 0x13 h 0 0x24 v
    let u := if w.tileBad h i = true then w.parityFound h i else w
    exec (.tileSnapshotWrite host h v) s = .next (((u.setReg .freshTileIndex h 0 (w32 i)).setReg .freshTileLo h 0
      (w32 (tabGet 0 (u.head h).tiles i))).setReg .freshTileHi h 0 (w32 (tabGet 0 (u.head h).tiles i / 2 ^ 32))).watch.settle) ∧
  (∀ (s : State) (port h : Nat), s.live →
    exec (.headFrameRead port h false) s = .next ((s.answer port (s.reg .headFrame h 0)).freeze .headLatchTime h 0).watch.settle ∧
    exec (.headFrameRead port h true) s = .next ((s.answer port (s.frozen .headLatchTime h 0)).thaw .headLatchTime h 0).watch.settle)

/-- R304 to R307, R314, R319, R320 and R326 to R328. -/
def Obligations.HeadCommandsTakeEffect : Prop :=
  (∀ (s : State) (r k : Nat) (e : FEntry) (p : HeadEnt), s.ripe 0x1401 r k e → s.plan.has 0x14 e.inst = true →
    s.plan.head e.inst = some p → e.object = 0xFFFF → e.zeroFrom 49 52 = true →
    let u := s.begun r e
    let m := modeArgs e
    let rate := (u.reg .grpRate 0 p.group).toNat
    modeRanges p m rate = true → modeBeyond p m rate = false →
    (s.isOn 0x14 e.inst = true → (p.ports.all fun q => 4 ≤ u.lanesOf q) = true →
      (p.ports.all fun q => loadFits m (p.portWidth m) rate 4 (u.rateOf q) false) = true →
      -- an earlier MODE_COMMIT that applies at the latch instant already reached still does (R311)
      exec (.modeCommit r k) s = .next (((u.setHead e.inst { u.head e.inst with
          modeNext := some (m, u.now, e.tag), modeDue := u.modeMet e.inst }).setFld
        .headStatus e.inst 0 8 1 1).complete r e.k 1 0).watch.settle) ∧
    ((s.isOn 0x14 e.inst = true → (p.ports.any fun q => decide (u.lanesOf q < 4)) = true →
      exec (.modeCommit r k) s = .next (u.complete r e.k stState 0).watch.settle)) ∧
    ((u.fnState 0x14 e.inst = 0 ∨ u.fnState 0x14 e.inst = 1) →
      (p.ports.all fun q => loadFits m (p.portWidth m) rate 4 (((s.plan.port q).map PortEnt.rate).getD 0) false) = true →
      exec (.modeCommit r k) s = .next ((u.setMode e.inst m false).complete r e.k 0 0).watch.settle)) ∧
  (∀ (s : State) (r k : Nat) (e : FEntry) (p : HeadEnt), s.ripe 0x1401 r k e → s.plan.has 0x14 e.inst = true →
    s.plan.head e.inst = some p → e.object = 0xFFFF → e.zeroFrom 49 52 = true →
    let u := s.begun r e
    let m := modeArgs e
    let rate := (u.reg .grpRate 0 p.group).toNat
    (modeRanges p m rate = false → exec (.modeCommit r k) s = .next (u.complete r e.k stBadArgument 0).watch.settle) ∧
    (modeRanges p m rate = true → u.fnState 0x14 e.inst ≠ 3 → modeBeyond p m rate = true →
      exec (.modeCommit r k) s = .next (u.complete r e.k stLimit 0).watch.settle)) ∧
  (∀ (s u : State) (r k : Nat) (e : FEntry) (d : List Byte) (t : List Nat), s.ripe 0x1402 r k e → s.plan.has 0x14 e.inst = true →
    e.object < 3 → e.arg 32 8 % 64 = 0 → e.zeroFrom 40 56 = true →
    (s.begun r e).load (headMaster e.inst) (e.arg 32 8) 6144 = (u, .ok d) → lutTable d = some t →
    let x := u.head e.inst
    exec (.lutLoad r k) s = .next ((u.setHead e.inst { x with
      lutLoads := x.lutLoads.filter (fun y => y.bank != e.object || u.latchMet e.inst y.at_) ++ [⟨e.object, t, u.now, e.tag⟩] }).complete r e.k 1 0).watch.settle) ∧
  (∀ (s u : State) (r k : Nat) (e : FEntry), s.ripe 0x1403 r k e → s.plan.has 0x14 e.inst = true → e.object < 3 →
    e.arg 32 8 % 64 = 0 → e.zeroFrom 40 56 = true →
    let t := tabGet [] ((s.begun r e).head e.inst).luts e.object
    let t := if t.isEmpty then (List.range 3072).map fun i => i % 1024 else t
    (s.begun r e).store (headMaster e.inst) (e.arg 32 8) (t.flatMap fun v => le 2 v) = (u, true) →
    exec (.lutRead r k) s = .next (u.complete r e.k 0 0).watch.settle) ∧
  (∀ (s : State) (h : Nat) (e : HeadEnt) (m : ModeSt), s.live → s.plan.head h = some e → s.fnState 0x14 h = 1 → (s.head h).mode = some m →
    (e.ports.all fun p => s.portState p == 2) = true → s.reg .grpRate 0 e.group ≠ 0 →
    ∃ u : State, exec (.headStartReady h) s = .next u.watch.settle ∧ u.fnState 0x14 h = 2 ∧ u.fnState 0x12 h = 2 ∧ u.fnState 0x13 h = 2 ∧
      (u.head h).mode = some m ∧ (u.head h).fresh = true ∧ (u.head h).frame = none ∧ u.reg .headFrame h 0 = 0 ∧
      (∀ h', h' ≠ h → u.head h' = s.head h')) ∧
  (∀ (s : State) (h i n t : Nat), s.live → s.isOn 0x14 h = true → bit (s.reg .headCtl h 0) 1 = false →
    -- the dwell time in force when the last reading arrived (R333)
    let dwell := (s.head h).ambDwell
    let bank := (s.head h).bankNext.getD (s.fld .headStatus h 0 6 2)
    (∀ t', (s.head h).stepTick = some t' → t' + dwell ≤ s.ticks) →
    ((bank = 0 ∧ i = 0 ∧ n = 1) ∨ (bank = 1 ∧ i = 2 ∧ n = 2) ∨ (bank = 1 ∧ i = 1 ∧ n = 0 ∧ (s.head h).amb.getD 2 none = none) ∨
      (bank = 2 ∧ i = 3 ∧ n = 1)) → (s.head h).amb.getD i none = some t → t + dwell ≤ s.ticks →
    exec (.ambientDwellMet h) s =
      .next (s.setHead h { s.head h with bankNext := some n, stepTick := some s.ticks }).watch.settle) ∧
  (∀ (s : State) (h t : Nat), s.live → (s.head h).ambTick = some t → t + 200000000 ≤ s.ticks →
    exec (.ambientTimeout h) s = .next ((s.setFld .headAmbient h 0 16 1 0).setHead h
      { s.head h with ambTick := none, amb := [none, none, none, none] }).watch.settle)

/-- R222, R223, R226, R246, R257, R261, R286, R308, R310 and R332. -/
def Obligations.FrameBeginsAndIsComposed : Prop :=
  (∀ (s : State) (h : Nat) (e : HeadEnt) (t : Word) (m : ModeSt), s.live → s.plan.head h = some e → (s.head h).next = some t →
    (s.head h).mode = some m → s.isOn 0x14 h = true → s.leavesAtLatch h = false →
    (atOrAfter s.now t = false → exec (.headLatch h) s = .next s.watch.settle) ∧
    (atOrAfter s.now t = true →
      let u := s.setReg .headFrame h 0 (s.reg .headFrame h 0 + 1)
      let v := if bit (u.reg .headStatus h 0) 3 = true ∧ (s.head h).skip = true
        then (u.setHead h { u.head h with skip := false }).nextLatch h e.group m.phase t false else u.latchFull h e t m
      exec (.headLatch h) s =
        .next (if v.reg .headFrame h 0 = s.reg .headFrame h 0 then v else (v.tryLatch h).zoneDone).watch.settle)) ∧
  (∀ (s : State) (h : Nat), s.live → s.leavesAtLatch h = true →
    exec (.headLatch h) s = .next (if s.latchDue h = true then (s.zoneLatch h).serviceLatch h else s).watch.settle) ∧
  (∀ (s : State) (h b : Nat) (f : FlipSt), f.buf = some b →
    let w := s.showBuf h f.l f.cfg.src b
    let v := if s.shown h f.l = some (f.cfg.src, b) then w else w.unshow h f.l
    let u := s.flip h f
    u.reg .layerTag h f.l = v.reg .srcBufTag f.cfg.src b ∧ u.fld .layerState h f.l 0 1 = 1 ∧ u.fld .layerState h f.l 16 16 = 0 ∧
      (u.head h).flips.testBit f.l = false ∧ f.l ∉ (u.head h).met) ∧
  (∀ (s : State) (h : Nat) (f : FrameSt), s.live → (s.head h).frame = some f → (s.head h).hold = none → f.blank = false →
    f.started < f.strips → f.complete = f.started → f.started < f.freed + 3 → atOrAfter s.now f.time = true →
    -- the sheds, the margins and the retry of the strip are those in force as it starts (R257, R261, R264)
    let u := s.setHead h { s.head h with stripNo := (s.head h).stripNo + 1 }
    exec (.stripStart h) s = .next ((u.setFrame h { f with
      started := f.started + 1, masks := f.masks ++ [(s.reg .composeShedMask h 0).toNat],
      shed := s.fld .composeXShed h 0 0 5, again := bit (s.reg .composeXRecompose h 0) 0,
      rest := f.rest ++ [s.fld .composeXShed h 0 8 5], restFrames := s.fld .composeXShed h 0 16 4 }).readRow h (f.started / 4)).watch.settle) ∧
  (∀ (s : State) (h c unit : Nat) (timeout parity : Bool) (f : FrameSt), s.live → (s.head h).frame = some f →
    let j := f.started - 1
    s.mayCompose h j c unit f = false → exec (.tileColumnDone h c unit timeout parity) s = .next s.watch.settle) ∧
  (∀ (s : State) (h c unit : Nat) (parity : Bool) (f : FrameSt), s.live → (s.head h).frame = some f → 0 < f.started →
    f.complete ≠ f.started → c < f.colsN →
    let j := f.started - 1
    let tile := j / 4 * s.tileCols h + c
    (f.cols.any fun q => q.strip == j && q.col == c) = false → s.mayCompose h j c unit f = true →
    exec (.tileColumnDone h c unit true parity) s = .next (s.columnTimeout h f j c unit).watch.settle ∧
    (let u := if parity = true ∨ s.tileBad h tile = true then s.parityFound h tile else s
     ((((u.head h).frame.map fun g => g.doubts.any fun d => d.1 == tile).getD false) = true →
       exec (.tileColumnDone h c unit false parity) s = .next (u.columnLeaves h ⟨j, c, [], [], []⟩).watch.settle) ∧
     ((((u.head h).frame.map fun g => g.doubts.any fun d => d.1 == tile).getD false) = false →
       let r := u.fetchColumn h f j c (f.visible c (j / 4) (f.masks.getD j 0))
       exec (.tileColumnDone h c unit false parity) s =
         .next ((if r.2.2 = 0 then r.1 else r.1.addDoubt h tile r.2.2).columnLeaves h (f.compose j c r.2.1)).watch.settle))) ∧
  (∀ (s : State) (h : Nat) (f : FrameSt), s.live → (s.head h).frame = some f → f.started = f.complete + 1 →
    ((List.range f.colsN).all fun c => f.cols.any fun q => q.strip == f.complete && q.col == c) = true →
    exec (.stripComplete h) s = .next (s.stripDone h f.complete (sdiff (f.readAt f.complete) s.now).toNat).watch.settle)

/-- R223, R254, R257, R283, R284, R287, R321 and R322. -/
def Obligations.FrameIsReadOut : Prop :=
  (∀ (s : State) (h : Nat) (f : FrameSt), s.live → (s.head h).frame = some f → f.readBegun < f.strips → f.freed = f.readBegun →
    atOrAfter s.now (f.readAt f.readBegun) = true →
    let j := f.readBegun
    let u := s.setFrame h { f with readBegun := j + 1 }
    (f.blank = true ∨ j < f.complete → exec (.stripReadoutStart h) s = .next (u.readRow h (j / 4)).watch.settle) ∧
    (f.blank = false → f.complete ≤ j →
      let missing := (List.range f.colsN).filter fun c => !(f.cols.any fun q => q.strip == j && q.col == c)
      let v := (if f.started ≤ j then u.startFrameStrip h j else u).readRow h (j / 4)
      exec (.stripReadoutStart h) s = .next ((if missing = [] then v else v.underrun h j missing).stripDone h j 0).watch.settle)) ∧
  (∀ (s : State) (h : Nat) (late : Bool) (e : HeadEnt) (f : FrameSt), s.live → s.plan.head h = some e → (s.head h).frame = some f →
    f.readBegun = f.freed + 1 → atOrAfter s.now (f.freeAt f.freed) = true →
    let j := f.freed
    (f.wb = none →
      let u := (s.sendStrip e j).onFrame h fun f => { f with freed := j + 1 }
      exec (.stripSlotFree ⟨h, late⟩) s =
        .next (if (j + 1) % 4 = 0 ∨ j + 1 = f.strips then u.rowEnd e (j / 4) else u).watch.settle) ∧
    (∀ (n x y : Nat) (cursor : Bool), f.wb = some (n, x, y, cursor) →
      let u := s.sendStrip e j
      let u := (if late = true then u.wbDrop n 0 else u.wbStrip e j).onFrame h fun f => { f with freed := j + 1 }
      exec (.stripSlotFree ⟨h, late⟩) s =
        .next ((if (j + 1) % 4 = 0 ∨ j + 1 = f.strips then u.rowEnd e (j / 4) else u).wbEnd n).watch.settle)) ∧
  (∀ (s : State) (h : Nat) (late : Bool) (e : HeadEnt) (f : FrameSt), s.live → s.plan.head h = some e → (s.head h).frame = some f →
    (f.readBegun ≠ f.freed + 1 ∨ atOrAfter s.now (f.freeAt f.freed) = false) →
    exec (.stripSlotFree ⟨h, late⟩) s = .next s.watch.settle) ∧
  (∀ (s : State) (h : Nat) (e : HeadEnt) (f : FrameSt), s.live → s.plan.head h = some e → (s.head h).frame = some f → f.ended = false →
    f.freed = f.strips →
    ∃ u : State, exec (.frameReadoutEnd h) s = .next u.watch.settle ∧
      u.reg .freshStaleTiles h 0 = w32 (f.states.filter fun q => q.2 == 0 || q.2 == 3).length ∧
      u.reg .freshDegradedTiles h 0 = w32 (f.states.filter fun q => q.2 == 2).length ∧
      u.reg .freshDoubtTiles h 0 = w32 f.doubts.length ∧ (∀ h', h' ≠ h → u.head h' = s.head h')) ∧
  (∀ (s : State) (h t tile reason n : Nat) (w : Word), s.live → (s.head h).doubtWin = some (t, w, tile, reason, n) → t + 200000 ≤ s.ticks →
    exec (.tileDoubt h) s = .next ((s.setHead h { s.head h with doubtWin := none }).emitAt w none 0x1304 h 1
      (pay [tile, reason, n])).watch.settle)

/-- R294 to R299, and R316 for a fully live frame. -/
def Obligations.WitnessTakesEffect : Prop :=
  (∀ (s : State) (p tile : Nat) (t32 digest : Word) (fill : Bool) (e : HeadEnt) (w : WitEnt) (v : Nat × Nat × Nat × Bool), s.live →
    s.plan.headOfPort p = some e → (s.head e.head).witOf p = some w → w.tiles.find? (fun q => q.1 == tile) = some v →
    let check := if t32.toNat ≠ v.2.1 then 2 else if (fill = true ∧ v.2.2.2 = true) ∨ (fill = false ∧ digest.toNat = v.2.2.1) then 0 else 4
    let x := { w with tiles := w.tiles.filter fun q => q.1 != tile }
    let u := (s.setHead e.head ((s.head e.head).putWit x)).witReport
    exec (.witnessTileCheck p tile ⟨t32, digest, fill⟩) s = .next (if check = 0 then u.flagTile e.head tile false
      else if w.fail = 0 then (u.flagTile e.head tile true).mismatch e.head x check tile
      else u.flagTile e.head tile true).watch.settle) ∧
  (∀ (s : State) (h check tile : Nat) (w : WitEnt), assocGet (s.head h).witPrev w.port = none →
    let u := s.setHead h { (s.head h).putWit { w with fail := check, tile := tile } with witBad := some w.num }
    let u := (u.bump .witMismatchCount h 0 1).setFld .witStatus h 0 2 4 check
    let u := (u.setFld .witLastTile h 0 0 14 tile).setFld .witLastTile h 0 16 8 (w.num.toNat % 256)
    s.mismatch h w check tile = (u.setWit h 1).emit 0x1306 h 1 (pay [w.port, check, tile, w.num.toNat])) ∧
  (∀ (s : State) (p : Nat) (rows : List Nat) (o : WitObs) (e : HeadEnt) (w : WitEnt), s.live → s.plan.headOfPort p = some e →
    (s.head e.head).witOf p = some w → w.ended = true →
    let h := e.head
    let fails := w.failing rows o (assocGet (s.head h).witLast p) (framePs (s.reg .grpRate 0 e.group).toNat / 1000)
    let v := (s.bump .witFramesChecked h 0 1).witReport
    let v := v.setHead h { v.head h with witLast := assocSet (v.head h).witLast p (o.num, o.time, o.at_) }
    (w.fail = 0 → fails = [] →
      let x := { v.head h with wit := (v.head h).endWit p w, witPrev := assocDel (v.head h).witPrev p }
      let u := v.setHead h x
      let u := if u.output h = 4 ∨ x.witPrev.isEmpty = false then u else u.setWit h 0
      exec (.witnessFrameCheck p rows o) s = .next (if (x.witBad == some w.num || x.wit.any fun q => q.num == w.num) = true then u
        else u.goLive h w).zoneDone.watch.settle) ∧
    (∀ (c : Nat) (cs : List Nat), w.fail = 0 → fails = c :: cs → w.badRows rows = [] →
      let m := v.mismatch h w (cs.foldl min c) 0
      exec (.witnessFrameCheck p rows o) s = .next (m.setHead h { m.head h with
        wit := (m.head h).endWit p w
        witPrev := if m.output h = 4 then (m.head h).witPrev else assocSet (m.head h).witPrev p (fails.foldl min 8) }).zoneDone.watch.settle)) ∧
  -- a tile that reaches the pads before its compare record fails check 8 of the frame (R294)
  (∀ (s : State) (p tile : Nat) (t32 digest : Word) (fill : Bool) (e : HeadEnt) (w : WitEnt), s.live →
    s.plan.headOfPort p = some e → (s.head e.head).witOf p = some w → w.tiles.find? (fun q => q.1 == tile) = none →
    w.arrived ≤ tile / max 1 (s.tileCols e.head) →
    exec (.witnessTileCheck p tile ⟨t32, digest, fill⟩) s =
      .next (s.setHead e.head ((s.head e.head).putWit { w with late := true })).witReport.watch.settle) ∧
  -- a fully live frame (spec/10 R316)
  (∀ (s : State) (h : Nat) (w : WitEnt), s.output h = 2 → w.composed = true → w.doubt = false → w.tiles = [] → w.unseen = false →
    s.goLive h w = (s.setOutput h 3 0).headEvent h 0x1403 0 (pay [w.since])) ∧
  (∀ s : State, s.powered = true → exec .witnessIslandPowerLoss s = .next (s.islandLost 0).watch.settle) ∧
  (∀ (s : State) (reason : Nat), s.islandLost reason = (if s.fabricUp = true then (s.showIsland false).islandSafe else s.showIsland false).emit
    0x1309 0xFFFF 2 (pay [reason, if s.fabricUp = true then ((List.range 64).filter fun p => s.plan.role p == 1).length else 0])) ∧
  (∀ s : State, s.live → s.wdn.witTick + 200000 ≤ s.ticks →
    (∃ e ∈ s.plan.heads, ∃ f : FrameSt, (s.head e.head).frame = some f ∧ f.sent = true ∧
      (1000000 ≤ sdiff s.now f.time ∨ 1 < (s.head e.head).sinceMode)) →
    exec .witnessReportTimeout s = .next (s.islandLost 1).watch.settle) ∧
  (∀ s : State, s.powered = true → (s.ticks < s.wdn.witTick + 200000) → exec .witnessReportTimeout s = .next s.watch.settle) ∧
  (∀ s : State, s.powered = true → exec .witnessIslandRestored s = .next (s.showIsland true).witReport.watch.settle) ∧
  (∀ (s : State) (ok : Bool), (s.showIsland ok).wdn.island = ok ∧ (∀ e ∈ s.plan.heads, (s.showIsland ok).fld .witStatus e.head 0 6 1 = b2n ok) ∧
    (∀ r k j, r ≠ .witStatus → (s.showIsland ok).reg r k j = s.reg r k j))

/-- R336 to R357: encode instants, the input, the end of a picture, SELECT, REQUEST_IDR and the caps. -/
def Obligations.EncodingTakesEffect : Prop :=
  (∀ (s : State) (c : Nat) (t : Word), s.live → (s.enc c).next = some t → s.isOn 0x15 c = true →
    (s.reg .grpRate 0 (s.encGroup c)).toNat ≠ 0 → atOrAfter s.now t = true → s.follows = false →
    let u := s.setEnc c { s.enc c with next := some (s.encNext c (s.encDiv c) t) }
    ((s.enc c).job.isSome = true → exec (.encodeInstant c) s = .next ((u.encSelect c).encPass c t).watch.settle) ∧
    (∀ why : Nat, (s.enc c).job = none →
      let v := u.encSelect c
      v.encBlocked c (v.encCap c) = some why →
      let w := ((v.codingRec 0x15 c 5 c 0 0 t).bump .encDropped c 0 1).setEnc c
        { v.enc c with idr := some 3, lost := true, poc := (v.enc c).poc + 1 }
      let w := if why = 0 then w.onBus fun b => b.ringFull (w.fld .encRing c 0 0 9) 1 else w
      exec (.encodeInstant c) s = .next (w.emit 0x1502 c 1 (pay [why, t.toNat])).watch.settle) ∧
    ((s.enc c).job = none →
      let v := u.encSelect c
      v.encBlocked c (v.encCap c) = none → ∀ (fresh : Option Nat) (idr : Option Nat),
      let x := v.enc c
      let n := v.fld .encSrc c 0 0 7
      let r := v.fld .encRing c 0 0 9
      -- once its ring, its source's writer or its host port has been out, the core repeats until its own FN_CTL changes (R355)
      let live := !x.cut && v.isOn 2 r && !v.writerAbsent n && !(v.bus.hostSt ((v.plan.ringHost r).getD 0)).underReset
      -- the buffer that can be latched, unless the last picture showed the same tag
      fresh = ((if live then v.latchable n t else none).filter fun b => x.last.map Prod.fst != some (v.reg .srcBufTag n b).toNat) →
      -- an IDR as asked for, or by the period
      idr = (if x.idr.isSome then x.idr
        else if v.fld .encCtl c 0 16 16 ≠ 0 ∧ x.pics % v.fld .encCtl c 0 16 16 = 0 then some 4 else none) →
      let st := match fresh with
        | some b => ((v.reg .srcBufTag n b).toNat, v.reg .srcBufTime n b, v.fld .srcBufAlive n b 0 16)
        | none => x.last.getD (0, 0, 0)
      let poc := if idr.isSome then 0 else x.poc + x.late + 1
      let degraded := (v.srcKind n == 3 && v.syncState n == 2) || (fresh.map fun b => bit (v.reg .srcBufState n b) 4).getD false
      let w := (fresh.map (v.holdBuf n)).getD v
      exec (.encodeInstant c) s = .next (((w.codingRec 0x15 c 3 c st.2.2 st.1 t).setEnc c { x with
        job := some ⟨t, fresh.map fun b => (n, b), none, fresh.isNone, (v.newest n).isNone, st.2.1, st.2.2, st.1,
          v.fld .srcState n 0 0 2, degraded, idr,
          (v.fld .encCropPos c 0 0 16, v.fld .encCropPos c 0 16 16, v.fld .encCropSize c 0 0 16, v.fld .encCropSize c 0 16 16),
          min 51 (v.fld .encQp c 0 0 6 + v.fld .encStatus c 0 0 8), v.encCap c, poc,
          decide (0 < x.late), x.lost⟩,
        idr := none, late := 0, lost := false, poc := poc }).setFld .encStatus c 0 12 1 1).watch.settle)) ∧
  (∀ (s u : State) (c n b : Nat) (j : EncJob) (bs : Blocks), s.live → (s.enc c).job = some j → j.input = some (n, b) → j.pic = none →
    s.encBlocks c n b j.crop = (u, .ok bs) →
    exec (.encInputRelease c) s = .next (
      let pic := encPicture (u.geo n) bs (u.reg .encCtl c 0) j.crop.1 j.crop.2.1 j.crop.2.2.1 j.crop.2.2.2
        (u.encW c) (u.encH c) (u.encTen c)
      (u.releaseBuf n b).setEnc c { u.enc c with job := some { j with pic := some pic } }).watch.settle) ∧
  (∀ (s u : State) (c n b : Nat) (j : EncJob) (f : Fetch Blocks), s.live → (s.enc c).job = some j → j.input = some (n, b) →
    j.pic = none → s.encBlocks c n b j.crop = (u, f) → (∀ bs, f ≠ .ok bs) →
    exec (.encInputRelease c) s = .next (u.encAbandon c).watch.settle) ∧
  -- the end of a picture: an IDR reads no reference, a P picture the windows of its CTUs
  (∀ (s0 s : State) (c : Nat) (j : EncJob) (ref : List (List Byte)), s0.live → (s0.enc c).job = some j →
    (j.again = true ∨ j.pic.isSome = true) →
    (if j.idr.isSome then s0 = s ∧ ref = [] else s0.encWindows c (s0.refBase c (s0.enc c).refB) = (s, .ok ref)) →
    let x := s0.enc c
    let out := s.encCode c j (if j.idr.isSome then (0, 0) else s.encBand c) ref
    let pos := if x.pos + out.1.length ≤ (s.reg .encOutSize c 0).toNat then x.pos else 0
    let w1 := s.store (encMaster c) (s.refBase c (!x.refB)) out.2.2
    let w2 := w1.1.store (encMaster c) (s.pair .encOutBaseLo .encOutBaseHi c 0 + pos) out.1
    exec (.encodePictureEnd c) s0 =
      .next (if w1.2 && w2.2 then w2.1.encPost c j out.1 out.2.1 pos else w2.1.encAbandon c).watch.settle) ∧
  (∀ (s u : State) (c : Nat) (j : EncJob) (f : Fetch (List (List Byte))), s.live → (s.enc c).job = some j →
    (j.again = true ∨ j.pic.isSome = true) → j.idr = none → s.encWindows c (s.refBase c (s.enc c).refB) = (u, f) →
    (∀ ref, f ≠ .ok ref) → exec (.encodePictureEnd c) s = .next (u.encAbandon c).watch.settle) ∧
  (∀ (s : State) (c pos : Nat) (j : EncJob) (au : List Byte), j.idr = none → s.fld .encStatus c 0 9 2 = j.st → j.degraded = false →
    j.again = false → j.limit * 3 ≤ au.length * 4 →
    let u := s.encPost c j au none pos
    (u.enc c).job = none ∧ (u.enc c).last = some (j.tag, j.cap, j.alive) ∧ (u.enc c).pics = (s.enc c).pics + 1 ∧
      (u.enc c).pos = pos + au.length ∧ (u.enc c).refB = !(s.enc c).refB ∧
      u.reg .encPictures c 0 = s.reg .encPictures c 0 + 1 ∧ u.fld .encStatus c 0 8 1 = 0 ∧ u.fld .encStatus c 0 12 1 = 0) ∧
  (∀ (s : State) (r k : Nat) (e : FEntry), s.ripe 0x1501 r k e → s.plan.has 0x15 e.inst = true → s.isOn 0x15 e.inst = true →
    e.object = 0xFFFF → (s.plan.source (e.arg 32 1)).isSome = true → e.zeroFrom 33 36 = true → e.zeroFrom 44 56 = true →
    let u := s.begun r e
    let x := u.enc e.inst
    encRatio (u.fld .encCtl e.inst 0 0 2) (e.arg 40 2) (e.arg 42 2) (u.encW e.inst) (u.encH e.inst) = true →
    exec (.select r k) s = .next ((u.setEnc e.inst { x with sel := some (e.arg 32 1, e.arg 36 2, e.arg 38 2, e.arg 40 2, e.arg 42 2),
                                                            idr := some (min (x.idr.getD 1) 1) }).complete r e.k 0 0).watch.settle) ∧
  (∀ (s : State) (r k : Nat) (e : FEntry), s.ripe 0x1502 r k e → s.plan.has 0x15 e.inst = true → s.isOn 0x15 e.inst = true →
    e.object = 0xFFFF → e.zeroFrom 32 56 = true →
    let u := s.begun r e
    let x := u.enc e.inst
    exec (.requestIdr r k) s = .next ((u.setEnc e.inst { x with idr := some (min (x.idr.getD 2) 2) }).complete r e.k 0 0).watch.settle) ∧
  (∀ (s : State) (host c : Nat) (sec : Bool) (v : Word), s.live → s.reached host 0x15 c →
    let u := s.regWriteRec host 0x15 c 0 (if sec then 0x28 else 0x24) v
    let least := if sec then u.encF c * u.encFloor c else u.encFloor c
    ((u.fnState 0x15 c ≠ 0 ∧ v.toNat < least ∨ sec = true ∧ 5000000 < v.toNat) →
      exec (.encCapWrite host c sec v) s = .next (u.setFld .encStatus c 0 11 1 1).watch.settle) ∧
    ((u.fnState 0x15 c = 0 ∨ least ≤ v.toNat) → (sec = true → v.toNat ≤ 5000000) →
      exec (.encCapWrite host c sec v) s = .next (u.setReg (if sec then .encSecCap else .encPicCap) c 0 v).watch.settle))

/-- R438 to R440, R446, R448, R452, R454, R457 and R470: the start of a panel, its cycles, expiry, and its commands. -/
def Obligations.TouchCyclesTakeEffect : Prop :=
  (∀ (s : State) (p : Nat), s.live → s.panState p = 1 → (s.pan p).started = false → s.portState (s.panEnt p).port = 2 →
    s.fld .linkState (s.panEnt p).port 0 3 1 = 1 → s.drives = true →
    exec (.panelStart p) s = .next (
      let u := s.setPan p { s.pan p with force := s.panSettings p, started := true, chosen := false, item := none }
      let y := (List.range 8).foldl (fun (y : State × PanCyc) f => y.1.panSend p 3 0 f y.1.now 5 y.2) (u, u.panCyc p 0 true false u.panLead)
      let z := y.1.panMeasure p ((y.1.pan p).chain p y.1.panLead ((List.range 8).map fun f => (2, f))).1 y.2
      z.1.panOpen p z.2).watch.settle) ∧
  (∀ (s : State) (p : Nat), s.live → s.panCycles p = true →
    ((s.pan p).nextAt = none → exec (.touchCycleStart p) s = .next (s.panCycle p s.panLead).watch.settle) ∧
    (∀ t0 t1 : Word, (s.pan p).nextAt = some t0 → (s.pan p).endAt = some t1 →
      let due := if atOrAfter t1 t0 then t1 else t0
      atOrAfter s.panLead due = true →
      exec (.touchCycleStart p) s = .next (s.panCycle p (if atOrAfter due s.panLead then due else s.panLead)).watch.settle)) ∧
  (∀ (x : PanelSt) (p : Nat) (start : Word) (f g : Nat),
    let t1 := start + w32 (x.measureNs p 2) + w32 50000
    let t2 := t1 + w32 (x.measureNs p 2) + w32 50000
    x.chain p start [(2, f), (2, g), (0, f)] = ([(2, f, start), (2, g, t1), (0, f, t2)], t2 + w32 (x.measureNs p 0))) ∧
  (∀ (s : State) (p : Nat), s.live → 2 ≤ s.panState p →
    -- SELFTEST_S after the last test, 10 s after it while the cause TEST stands
    (s.pan p).testTick + (if (s.pan p).causes.contains 5 then 10 else (s.pan p).f 8 0 16) * tickS ≤ s.ticks →
    exec (.selfTestDue p) s = .next (s.setPan p { s.pan p with testDue := true }).watch.settle) ∧
  (∀ (s : State) (p : Nat), s.live → s.panState p = 2 →
    exec (.contactExpired p) s = .next (s.panExpire p).watch.settle ∧
    ∀ c ∈ ((s.panExpire p).pan p).contacts, c ∈ (s.pan p).contacts ∧ s.ticks ≤ c.since + (s.pan p).f 1 16 11 * tickS) ∧
  (∀ (s u : State) (r k : Nat) (e : FEntry) (d : List Byte), s.ripe 0x2101 r k e → s.plan.has 0x21 e.inst = true →
    s.isOn 0x21 e.inst = true → e.object = 0xFFFF → e.zeroFrom 41 56 = true → e.arg 32 8 % 64 = 0 →
    byteAt e.data 40 ≤ ((s.begun r e).panEnt e.inst).maxKeys →
    (s.begun r e).load 149 (e.arg 32 8) (8 * byteAt e.data 40) = (u, .ok d) →
    keysOk (u.panEnt e.inst) d (byteAt e.data 40) = true →
    exec (.keysLoad r k) s = .next ((u.setPan e.inst { u.pan e.inst with
      keysNext := some ((u.pan e.inst).cycNo + 1, keyTable d (byteAt e.data 40)) }).complete r e.k 0 0).watch.settle) ∧
  (∀ (s : State) (r k : Nat) (e : FEntry), s.ripe 0x2102 r k e → s.plan.has 0x21 e.inst = true → s.isOn 0x21 e.inst = true →
    e.object = 0xFFFF → e.zeroFrom 32 56 = true → ((s.begun r e).pan e.inst).rebase = none →
    let u := (s.begun r e).panRelease e.inst 4
    let x := u.pan e.inst
    exec (.rebaseline r k) s = .next ((u.setPan e.inst { x with
      rebase := some (r, e.k),
      rebaseFrom := (x.cycs.filter fun c => c.got.any fun g => g.1 == 0).foldl (fun n c => max n (c.no + 1)) 0 }).panShow e.inst).watch.settle) ∧
  (∀ (s : State) (r k : Nat) (e : FEntry), s.ripe 0x2103 r k e → s.plan.has 0x21 e.inst = true → s.isOn 0x21 e.inst = true →
    e.object = 0xFFFF → e.zeroFrom 32 56 = true → ((s.begun r e).pan e.inst).testCmd = none →
    exec (.selfTest r k) s = .next ((s.begun r e).setPan e.inst { (s.begun r e).pan e.inst with testCmd := some (r, e.k) }).watch.settle) ∧
  (∀ (s u : State) (r k : Nat) (e : FEntry), s.ripe 0x2104 r k e → s.plan.has 0x21 e.inst = true → s.isOn 0x21 e.inst = true →
    e.object = 0xFFFF → e.zeroFrom 40 56 = true →
    let x := (s.begun r e).pan e.inst
    x.raw.isEmpty = false →
    (s.begun r e).store 149 (e.arg 32 8) ((x.raw.flatMap fun n => le 2 n) ++ x.deltas.flatMap fun d => le 2 (code 16 d)) = (u, true) →
    exec (.rawRead r k) s = .next (u.complete r e.k 0 0).watch.settle)

/-- R421, R451, R453, R460, R461, R463 and R464: what a panel makes of frames, and the timers of its reports and baselines. -/
def Obligations.TouchFramesTakeEffect : Prop :=
  (∀ (s w u v : State) (port : Nat) (skew : List Nat) (lines : List (List Bool)) (sync : Bool) (raw : List Byte) (ok : Bool) (e : PanelEnt)
      (pk : Pkt), s.live → s.arrive port skew lines = (w, some (sync, raw)) →
    (u.plan.panels.find? fun e => e.port == port) = some e → w.receive port sync raw = (u, .good pk) → pk.typ = 0x0C →
    u.panState e.panel ≠ 0 → (u.pan e.panel).started = true →
    ((u.pan e.panel).item = none → u.aliveCheck port 2 pk.alive = (v, true) →
      exec (.touchFrameRx port skew lines ok) s =
        .next (v.panSegment e.panel port pk { alive := pk.alive, segs := [], bad := false, ended := false } ok).watch.settle) ∧
    ((u.pan e.panel).item = none → u.aliveCheck port 2 pk.alive = (v, false) →
      exec (.touchFrameRx port skew lines ok) s =
        .next (v.panDoubt e.panel 0 (leAt pk.payload 0 2) pk.stamp 4).watch.settle) ∧
    (∀ i : PanItem, (u.pan e.panel).item = some i → i.alive = pk.alive → i.ended = false →
      exec (.touchFrameRx port skew lines ok) s = .next (u.panSegment e.panel port pk i ok).watch.settle)) ∧
  (∀ (s : State) (p port : Nat) (pk : Pkt) (i : PanItem), i.bad = false →
    let n := pk.payload.length
    let nodes := leAt pk.payload 10 2
    leAt pk.payload (n - 2) 2 = touch16 (pk.payload.take (n - 2)) → n = 18 + 2 * nodes → nodes ≤ 2032 →
    (i.segs.any fun g => g.2.1 == byteAt pk.payload 4) = false →
    let it := { i with segs := i.segs ++ [(leAt pk.payload 8 2, byteAt pk.payload 4,
      (List.range nodes).map fun i => leAt pk.payload (16 + 2 * i) 2)] }
    max 1 (byteAt pk.payload 5) ≤ it.segs.length →
    ∃ u : State, (u.pan p).item = some { it with ended := true } ∧ (u.pan p).cycs = (s.pan p).cycs ∧ (u.pan p).raw = (s.pan p).raw ∧
      (∀ q, q ≠ p → u.pan q = s.pan q) ∧ u.fregs = s.fregs ∧ u.bus = s.bus ∧
      s.panSegment p port pk i true = u.panFrame p pk it.values ∧
      s.panSegment p port pk i false = u.panDoubt p 5 (leAt pk.payload 0 2) pk.stamp 4) ∧
  (∀ (s : State) (p : Nat) (pk : Pkt) (v : List Nat),
    let key := (leAt pk.payload 0 2, byteAt pk.payload 2, byteAt pk.payload 3)
    (((s.pan p).cycs.find? fun c => c.want.any fun w => w == key) = none →
      s.panFrame p pk v = s.panDoubt p 3 (leAt pk.payload 0 2) pk.stamp 4) ∧
    (∀ c : PanCyc, ((s.pan p).cycs.find? fun c => c.want.any fun w => w == key) = some c → byteAt pk.payload 2 < 5 →
      byteAt pk.payload 6 = (s.panEnt p).cols → byteAt pk.payload 7 = (s.panEnt p).rows →
      v.length = (s.panEnt p).count (byteAt pk.payload 2) →
      (1000000 < sdiff pk.stamp s.now → s.panFrame p pk v = s.panDoubt p 1 (leAt pk.payload 0 2) pk.stamp 4) ∧
      (∀ t : Word, sdiff pk.stamp s.now ≤ 1000000 → (s.pan p).lastFrame = some t → atOrAfter t pk.stamp = true →
        s.panFrame p pk v = s.panDoubt p 2 (leAt pk.payload 0 2) pk.stamp 4) ∧
      (sdiff pk.stamp s.now ≤ 1000000 → (∀ t, (s.pan p).lastFrame = some t → atOrAfter t pk.stamp = false) →
        let c' := { c with want := c.want.filter fun w => w.1 != leAt pk.payload 0 2,
                           got := c.got ++ [(byteAt pk.payload 2, byteAt pk.payload 3, leAt pk.payload 0 2, pk.stamp, v)] }
        (c'.want.isEmpty = false →
          s.panFrame p pk v = s.setPan p { s.pan p with
            lastFrame := some pk.stamp, measure := assocSet (s.pan p).measure (byteAt pk.payload 2) (leAt pk.payload 12 4),
            cycs := (s.pan p).cycs.map fun d => if d.no = c.no then c' else d }) ∧
        (c'.want.isEmpty = true → c.first = false →
          s.panFrame p pk v = (s.setPan p { s.pan p with
            lastFrame := some pk.stamp, measure := assocSet (s.pan p).measure (byteAt pk.payload 2) (leAt pk.payload 12 4),
            cycs := (s.pan p).cycs.filter fun d => d.no != c.no }).panProcess p c')))) ∧
  (∀ (s : State) (p cond id : Nat) (stamp : Word), s.panState p = 2 →
    let u := s.panDoubt p cond id stamp 4
    (u.pan p).contacts = [] ∧ (u.pan p).pressed = [] ∧ 4 ∈ (u.pan p).causes) ∧
  (∀ (s : State) (p : Nat) (t : Word), s.live → s.panState p = 2 → (s.pan p).lastStamp = some t →
    ((s.pan p).f 1 0 10 : Int) * 1000000 < sdiff s.now t →
    exec (.touchAgeTimeout p) s = .next (s.panStale p t false).watch.settle) ∧
  (∀ (s : State) (p : Nat), s.live → s.panState p = 3 → (s.pan p).repTick + tickS ≤ s.ticks →
    exec (.unavailableRepeat p) s =
      .next ((s.setPan p { s.pan p with repTick := s.ticks }).panPost p 1 (s.fld .touchStatus p 0 2 3) none).watch.settle) ∧
  (∀ (s : State) (p : Nat), s.live → 2 ≤ s.panState p → (s.pan p).adaptTick + (s.pan p).f 6 0 16 * tickMs ≤ s.ticks →
    ∃ u : State, exec (.baselineAdapt p) s = .next u.watch.settle ∧
      (u.pan p).adaptTick = s.ticks ∧ (u.pan p).contacts = (s.pan p).contacts ∧
      (u.pan p).pressed = (s.pan p).pressed ∧ (u.pan p).suspect = (s.pan p).suspect ∧ (∀ q, q ≠ p → u.pan q = s.pan q) ∧
      ((s.pan p).last = none → (u.pan p).freqs = (s.pan p).freqs)) ∧
  (∀ (s : State) (p : Nat), s.live → s.panState p = 2 → (s.pan p).saveTick + (s.pan p).f 6 16 16 * tickS ≤ s.ticks → (s.pan p).quietTick + tickS ≤ s.ticks →
    exec (.baselineSaved p) s = .next (s.panSave p).watch.settle)

/-- R501, R504, R505 and R521: the journal's buffer and its checkpoints. -/
def Obligations.CheckpointsTakeEffect : Prop :=
  -- the buffer drains into the ring, and towards the partner
  (∀ s : State, s.live → exec .journalRingWrite s = .next s.jrnDrain.feedRecords.watch.settle) ∧
  -- CKPT_BEGIN with the cut, the length, the structure's hash and the epoch, then the data padded to 16, all in the ring
  (∀ s : State, s.live → s.isOn 0x31 0 = true → s.jrn.run = none → s.jrn.nextTick ≤ s.ticks →
    let due := s.setJrn { s.jrn with nextTick := s.ticks + s.bus.fld .jrnXCkpt 0 0 0 16 * tickMs }
    let cut := s.bus.reg .jrnSeq 0 0
    let data := ckptEncode due.ckpt
    let u := due.jrnDrain
    let begun := u.journal 0x11 0x31 0 (le 4 cut.toNat ++ le 4 data.length ++ le 4 (u.reg .structHash 0 0).toNat ++
      le 4 (u.reg .structHash 0 1).toNat ++ le 4 u.epoch ++ le 4 0)
    -- the record of 48 bytes does not run over the ring's end
    let left := max 1 begun.jrnSize - begun.jrn.span % max 1 begun.jrnSize
    let pos := if left < 48 then begun.jrn.span + left else begun.jrn.span
    let w := begun.jrnDrain.jrnWrite (padTo 16 data)
    let v := w.1.onBus fun b => b.setFld .jrnStatus 0 0 2 1 1
    exec .checkpointStart s = .next
      ((v.setJrn { v.jrn with run := some ⟨pos, cut, v.ticks, data, w.2⟩ }).frCopy).watch.settle) ∧
  -- CKPT_END with JRNL64 of the data and its length; the registers show the checkpoint, and a partner that waits for one is fed it
  (∀ (s : State) (c : CkptRun), s.live → s.jrn.run = some c → c.sound = true →
    s.ticks ≤ c.tick + s.bus.fld .jrnXCkpt 0 0 0 16 * tickMs →
    let v := (s.journal 0x12 0x31 0 (le 8 (jrnl64 c.data) ++ le 4 c.data.length)).jrnDrain
    let inSlot (f : FrRun) := assocSet v.jrn.frCkpts f.slot (((assocGet v.jrn.frCkpts f.slot).getD []) ++ [c.pos - f.start])
    let offs := match v.jrn.fr with
      | some f => if f.start ≤ c.pos then inSlot f else v.jrn.frCkpts
      | none => v.jrn.frCkpts
    let t := v.setJrn { v.jrn with run := none, ckpts := v.jrn.ckpts ++ [⟨c.pos, c.cut, c.tick⟩], frCkpts := offs }
    let u := t.onBus fun b => (((b.setFld .jrnStatus 0 0 2 1 0).setReg .jrnCkptSeq 0 0 c.cut).setReg .jrnCkptOfs 0 0
      (w32 (c.pos % max 1 t.jrnSize))).setReg .jrnCkptLen 0 0 (w32 c.data.length)
    exec .checkpointEnd s = .next (if u.tnd.feed = 1 then u.feedCkpt c.cut c.data else u.feedRecords).watch.settle) ∧
  -- not finished within CKPT_MS: no CKPT_END, and the event
  (∀ (s : State) (c : CkptRun), s.live → s.jrn.run = some c → c.tick + s.bus.fld .jrnXCkpt 0 0 0 16 * tickMs < s.ticks →
    exec .ckptAbandoned s = .next
      (((s.setJrn { s.jrn with run := none }).onBus fun b => b.setFld .jrnStatus 0 0 2 1 0).emit 0x3105 0 1 (pay [c.cut.toNat])).watch.settle)

/-- R506 and R508: the flight recorder takes a trigger, freezes a slot and has it dumped. -/
def Obligations.FlightRecorderTakesEffect : Prop :=
  (∀ (s : State) (cause tick : Nat) (t : Word) (wait : Option (Nat × Nat)) (rest : List (Nat × Word × Nat × Option (Nat × Nat))), s.live →
    s.jrn.trigs = (cause, t, tick, wait) :: rest →
    let u := s.setJrn { s.jrn with trigs := rest }
    (∀ f : FrRun, s.jrn.fr = some f → exec .frTrigger s = .next (
      -- the slot being filled counts it
      let n := s.bus.fld .frSlotCause 0 f.slot 8 8
      (s.setJrn { s.jrn with trigs := rest, fr := some { f with waits := f.waits ++ wait.toList } }).onBus fun b =>
        b.setFld .frSlotCause 0 f.slot 8 8 (min 255 (n + 1))).watch.settle) ∧
    (∀ i : Nat, s.jrn.fr = none → s.frFree = some i → -- the lowest free slot, from the latest checkpoint at or before T - PRE_S, else SHORT from the oldest
      let early := s.jrn.ckpts.filter fun c => decide (c.tick + s.bus.fld .jrnXFr 0 0 0 16 * tickS ≤ tick)
      ∀ c : Option CkptRef, c = (early.getLast?.orElse fun _ => s.jrn.ckpts.head?) →
      let start := (c.map CkptRef.pos).getD s.jrn.span
      let v := s.onBus fun b => ((((b.setReg .frSlotTrigger 0 i t).setReg .frSlotCause 0 i (w32 (cause + 256 + 65536 * b2n early.isEmpty))).setReg
        .frSlotLen 0 i 0).setReg .frSlotSeq 0 i ((c.map CkptRef.cut).getD 0)).setFld .frStatus 0 0 (4 + i) 1 1
      exec .frTrigger s = .next ((v.setJrn { s.jrn with
        trigs := rest, fr := some ⟨i, tick, start, start, 0, false, wait.toList⟩
        frCkpts := assocSet s.jrn.frCkpts i ((s.jrn.ckpts.filter fun d => decide (start ≤ d.pos)).map fun d => d.pos - start) }).frCopy).watch.settle) ∧
    (s.jrn.fr = none → s.frFree = none → exec .frTrigger s = .next (
      -- no free slot: FR_FULL, and a FREEZE completes NO_SPACE
      let v := u.emit 0x3103 0 1 (pay [cause])
      match wait with
      | some w => v.complete w.1 w.2 stNoSpace 0
      | none => v).watch.settle)) ∧
  (∀ (s : State) (f : FrRun), s.live → s.jrn.fr = some f →
    (f.full = true ∨ f.tick + s.bus.fld .jrnXFr 0 0 16 16 * tickS ≤ s.ticks) →
    let u := s.setJrn { s.jrn with fr := none, frLen2 := assocSet s.jrn.frLen2 f.slot f.len2 }
    let u := u.onBus fun b => (b.setFld .frStatus 0 0 (4 + f.slot) 1 0).setFld .frStatus 0 0 f.slot 1 1
    let u := u.emit 0x3102 0 0 (pay [f.slot, u.bus.fld .frSlotCause 0 f.slot 0 8, (u.bus.reg .frSlotLen 0 f.slot).toNat])
    let u := forEach f.waits (fun w s => s.complete w.1 w.2 0 0) u
    (u.bus.fld .jrnCtl 0 0 2 1 = 0 → exec .frFrozen s = .next u.watch.settle) ∧
    -- DUMP_ON_FREEZE: the slot is dumped in its turn
    (u.bus.fld .jrnCtl 0 0 2 1 = 1 →
      exec .frFrozen s = .next (u.setJrn { u.jrn with dumpQ := u.jrn.dumpQ ++ [f.slot] }).dumpNext.watch.settle)) ∧
  -- the next slot that waits and is still frozen goes to the dump slot that DUMP_NEXT names
  (∀ u : State,
    let waits := u.jrn.dumpQ.filter fun i => (u.bus.fld .frStatus 0 0 0 4).testBit i
    (u.jrn.dump.isSome = true → u.dumpNext = u) ∧
    (u.jrn.dump = none → waits = [] → u.dumpNext = u.setJrn { u.jrn with dumpQ := [] }) ∧
    (∀ (i : Nat) (rest : List Nat), u.jrn.dump = none → waits = i :: rest → u.fld .thmState 0 0 10 1 = 1 →
      u.dumpNext = u.setJrn { u.jrn with
        dump := some { slot := i, which := u.bus.fld .frStatus 0 0 8 2, cmd := none, held := false }, dumpQ := rest })) ∧
  (∀ (s u : State) (d : DumpRun) (b : List Byte), s.live → s.jrn.dump = some d → s.fld .thmState 0 0 10 1 = 1 →
    s.load 152 (s.frAddr d.slot + (s.dumpSpan d.slot).1) (s.dumpSpan d.slot).2 = (u, .ok b) →
    exec .frDumped s = .next (
      let v := { u with flash := { u.flash with dumps := u.flash.dumps.set d.which b } }
      -- DUMP_NEXT names the other dump slot from now on
      let v := v.onBus fun b => b.setFld .frStatus 0 0 8 2 (1 - d.which)
      let v := (v.setJrn { v.jrn with dump := none }).dumpNext.emit 0x3104 0 0 (pay [d.slot, d.which, b.length])
      match d.cmd with
      | some w => v.complete w.1 w.2 0 0
      | none => v).watch.settle)

/-- R506 to R508 and R530: FREEZE, RELEASE, DUMP and MARK. -/
def Obligations.JournalCommandsTakeEffect : Prop :=
  (∀ (s : State) (r k : Nat) (e : FEntry), s.ripe 0x3101 r k e → s.plan.has 0x31 e.inst = true → s.isOn 0x31 e.inst = true →
    e.object = 0xFFFF → e.zeroFrom 32 56 = true →
    exec (.freeze r k) s = .next ((s.begun r e).trigger 3 (some (r, e.k))).watch.settle) ∧
  (∀ (s : State) (r k : Nat) (e : FEntry), s.ripe 0x3102 r k e → s.plan.has 0x31 e.inst = true → s.isOn 0x31 e.inst = true →
    e.object = 0xFFFF → e.zeroFrom 33 56 = true → byteAt e.data 32 < 4 →
    let i := byteAt e.data 32
    let st := (s.begun r e).bus.fld .frStatus 0 0 0 8
    (st.testBit (i + 4) = false → st.testBit i = true →
      exec (.release r k) s = .next (((s.begun r e).onBus fun b => b.setFld .frStatus 0 0 i 1 0).complete r e.k 0 0).watch.settle) ∧
    (st.testBit (i + 4) = true → exec (.release r k) s = .next ((s.begun r e).complete r e.k stBusy 0).watch.settle) ∧
    (st.testBit (i + 4) = false → st.testBit i = false →
      exec (.release r k) s = .next ((s.begun r e).complete r e.k stState 0).watch.settle)) ∧
  (∀ (s : State) (r k : Nat) (e : FEntry), s.ripe 0x3103 r k e → s.plan.has 0x31 e.inst = true → s.isOn 0x31 e.inst = true →
    e.object = 0xFFFF → e.zeroFrom 34 56 = true → byteAt e.data 32 < 4 → byteAt e.data 33 < 2 →
    let u := s.begun r e
    let frozen := (u.bus.fld .frStatus 0 0 0 4).testBit (byteAt e.data 32)
    (frozen = true → u.jrn.dump = none → u.fld .thmState 0 0 10 1 = 1 →
      exec (.dump r k) s = .next (u.setJrn { u.jrn with
        dump := some { slot := byteAt e.data 32, which := byteAt e.data 33, cmd := some (r, e.k), held := false } }).watch.settle) ∧
    (frozen = false → exec (.dump r k) s = .next (u.complete r e.k stState 0).watch.settle) ∧
    (frozen = true → u.jrn.dump.isSome = true → exec (.dump r k) s = .next (u.complete r e.k stBusy 0).watch.settle) ∧
    (frozen = true → u.jrn.dump = none → u.fld .thmState 0 0 10 1 = 0 →
      exec (.dump r k) s = .next ((u.storeRefused 3).complete r e.k stTemp 0).watch.settle)) ∧
  (∀ (s : State) (r k host : Nat) (e : FEntry), s.ripe 0x3104 r k e → s.plan.ringHost r = some host → s.plan.has 0x31 e.inst = true →
    s.isOn 0x31 e.inst = true → e.object = 0xFFFF → e.zeroFrom 48 56 = true →
    exec (.mark r k) s = .next
      (((s.begun r e).journal 0x13 0x31 0 (le 1 host ++ le 3 0 ++ slice e.data 32 16)).complete r e.k 0 0).watch.settle)

/-- R511 to R517, R521, R523, R525, R580 and R416: the roles of the tandem, their events, and epochs. -/
def Obligations.TandemRolesTakeEffect : Prop :=
  (∀ (s : State) (t : TandemEnt), s.powered = true → s.plan.tandem = some t → s.tnd.silent = false → s.tnd.sendTick + tickMs ≤ s.ticks →
    exec .heartbeatSend s = .next (
      let seq := if s.role = 2 ∨ s.role = 1 then s.tnd.applied else s.tnd.sent -- the last record sent to the partner
      let ho := match s.tnd.handover with | some (_, _, w) => w | none => 0
      forEach s.plan.tandemPorts (fun p u => u.tndControl p 0x80
        (le 2 t.pairId ++ le 1 s.tandemId ++ le 1 s.role ++ le 4 (s.reg .tndEpoch 0 0).toNat ++
          le 4 (s.reg .structHash 0 0).toNat ++ le 4 (s.reg .structHash 0 1).toNat ++ le 4 seq.toNat ++
          le 1 (b2n s.inSync + 2 * b2n s.tnd.handover.isSome) ++ le 3 0 ++ le 4 ho.toNat ++ le 4 0))
        (s.setTnd { s.tnd with sendTick := s.ticks })).watch.settle) ∧
  (∀ (s r u : State) (t : TandemEnt) (p : Nat) (skew : List Nat) (lines : List (List Bool)) (sync : Bool) (raw : List Byte) (pk : Pkt), s.live →
    s.arrive p skew lines = (r, some (sync, raw)) → r.plan.tandem = some t → r.receiveItem p 0x80 sync raw = (u, some pk) →
    let d := pk.payload
    d.length = 32 → zeros (slice d 21 3) = true → zeros (slice d 28 4) = true → byteAt d 20 < 4 → byteAt d 3 ≤ 5 → byteAt d 2 ≤ 1 →
    (leAt d 0 2 = t.pairId → byteAt d 2 = u.tandemId →
      exec (.heartbeatRx p skew lines) s = .next (u.emit 0x3207 0 2 (pay [p, byteAt d 2])).watch.settle) ∧
    (leAt d 0 2 = t.pairId → byteAt d 2 ≠ u.tandemId →
      let v := (u.setFld .tndState 0 0 3 3 (byteAt d 3)).setReg .tndPartnerEpoch 0 0 (w32 (leAt d 4 4))
      let v := v.hashMatch (slice d 8 8 == le 4 (v.reg .structHash 0 0).toNat ++ le 4 (v.reg .structHash 0 1).toNat)
      let v := v.setTnd { v.tnd with
        hbTick := some v.ticks, pRole := byteAt d 3, pSync := (byteAt d 20).testBit 0, pSeq := w32 (leAt d 16 4),
        hoRx := if (byteAt d 20).testBit 1 ∧ v.role = 2 then some (w32 (leAt d 24 4)) else none }
      let v := if byteAt d 3 = 4 then (v.emit 0x3204 0 2 (pay [leAt d 4 4])).trigger 2 none else v
      exec (.heartbeatRx p skew lines) s = .next (v.heartbeatRole t (byteAt d 3) (leAt d 4 4)).watch.settle)) ∧
  (∀ (s : State) (t : TandemEnt) (epoch : Nat),
    (s.role = 0 → s.heartbeatRole t 3 epoch = s.toJoining) ∧
    (s.role = 0 → t.preferred = s.tandemId → s.heartbeatRole t 0 epoch = s.goActive 3 true) ∧
    (s.role = 1 → s.heartbeatRole t 4 epoch = s.goActive 1 true) ∧
    (s.role = 2 → s.inSync = true → s.heartbeatRole t 4 epoch = s.goActive 1 false) ∧
    (∀ r : Nat, s.role = 3 → (s.reg .tndEpoch 0 0).toNat < epoch → s.heartbeatRole t r epoch = s.stepDown epoch 0xFF) ∧
    (∀ r : Nat, s.role = 2 → r ≠ 4 → s.heartbeatRole t r epoch = s)) ∧
  (∀ (s : State) (t : Nat), s.live → s.tnd.hbTick = some t → t + s.takeoverMs * tickMs ≤ s.ticks →
    let u := (s.setFld .tndState 0 0 3 3 7).setTnd { s.tnd with hbTick := none, pRole := 7, pSync := false, hoRx := none }
    (s.role = 1 → exec .heartbeatTimeout s = .next (u.goActive 0 true).watch.settle) ∧
    (s.role = 2 → s.inSync = true → exec .heartbeatTimeout s = .next (u.goActive 0 false).watch.settle) ∧
    (s.role = 3 → exec .heartbeatTimeout s =
      .next ((u.setTnd { u.tnd with feed := 0, winPos := none, outq := [] }).emit 0x3203 0 2 (pay [s.tnd.pRole])).watch.settle)) ∧
  (∀ s : State, s.live → s.plan.tandem.isSome = true → s.role = 0 →
    max s.tnd.roleTick (s.tnd.hbTick.getD 0) + s.fld .tndXTimes 0 0 16 16 * tickMs ≤ s.ticks →
    exec .joinTimeout s = .next (s.goActive 3 true).watch.settle) ∧
  (∀ (s : State) (t : Word), s.live → s.tnd.hoRx = some t → s.role = 2 → s.inSync = true → atOrAfter s.now t = true →
    exec .handoverTimeReached s = .next (s.goActive 2 false).watch.settle) ∧
  (∀ (s : State) (r k : Nat) (e : FEntry), s.ripe 0x3201 r k e → s.plan.has 0x32 e.inst = true → s.isOn 0x32 e.inst = true →
    e.object = 0xFFFF → e.zeroFrom 32 56 = true →
    let u := s.begun r e
    (u.role = 3 → u.tnd.pRole = 2 → u.tnd.pSync = true →
      exec (.handover r k) s =
        .next ((u.setTnd { u.tnd with handover := some (r, e.k, u.now + 20000000) }).setRole 5 0).watch.settle) ∧
    (u.role ≠ 3 → exec (.handover r k) s = .next (u.complete r e.k 0x8008 0).watch.settle)) ∧
  (∀ (s : State) (r k : Nat) (e : FEntry), s.live → s.role = 2 → s.entry r k = some e → e.opcode = 0x3202 → e.phase = .ready →
    s.isOn 2 r = true → e.headOk = true → s.plan.has 0x32 e.inst = true → s.isOn 0x32 e.inst = true → e.object = 0xFFFF →
    e.zeroFrom 32 56 = true →
    let u := ((((s.setTnd { s.tnd with applying := true }).begun r e).setInSync false 2).askFull).complete r e.k 0 0
    exec (.resync r k) s = .next (u.setTnd { u.tnd with applying := false }).watch.settle) ∧
  (∀ (s : State) (r k : Nat) (e : FEntry), s.ripe 0x3202 r k e → s.plan.has 0x32 e.inst = true → s.isOn 0x32 e.inst = true →
    e.object = 0xFFFF → e.zeroFrom 32 56 = true → s.role ≠ 2 → (s.begun r e).role ≠ 2 →
    exec (.resync r k) s = .next ((s.begun r e).complete r e.k 0x8008 0).watch.settle) ∧
  (∀ s : State, s.live → s.role = 1 → s.tnd.joinLoaded = true → blockAt (s.tnd.blocks / 2) s.windows = none →
    (s.tnd.applied = s.tnd.pSeq ∨ sdiff s.now s.tnd.appliedTime ≤ 2000000) → s.tnd.records = [] →
    exec .joinComplete s = .next ((s.setRole 2 0).setInSync true 0).watch.settle) ∧
  (∀ id m : Nat, id < 2 → m < epochAbove id m ∧ epochAbove id m % 2 = id ∧ ∀ n, m < n → n % 2 = id → epochAbove id m ≤ n) ∧
  (∀ s : State, s.takeEpoch.reg .tndEpoch 0 0 = w32 (epochAbove s.tandemId s.epochsSeen) ∧
    (s.reg .tndEpoch 0 0).toNat ≤ s.epochsSeen ∧ (s.reg .tndPartnerEpoch 0 0).toNat ≤ s.epochsSeen ∧
    ∀ p ∈ s.plan.outPorts, (s.reg .linkPartnerEpoch p 0).toNat ≤ s.epochsSeen ∧ (s.takeEpoch.link p).needEpoch = true) ∧
  (∀ (s r u : State) (p : Nat) (skew : List Nat) (lines : List (List Bool)) (sync : Bool) (raw : List Byte) (pk : Pkt), s.live →
    s.arrive p skew lines = (r, some (sync, raw)) → r.receiveItem p 0x0D sync raw = (u, some pk) →
    let d := pk.payload
    let flags := byteAt d 2
    d.length = 16 → byteAt d 3 = 0 → flags < 32 → byteAt d 1 ≤ 2 →
    let rise : Bool := flags.testBit 2 && !bit (u.reg .linkState p 0) 6
    let v := u.setLink p { u.link p with statusTick := some u.ticks, statusSeen := true, silent := false, status4 := d.take 4 }
    let v := ((v.setFld .linkState p 0 4 2 (byteAt d 1)).setFld .linkState p 0 6 1 (b2n (flags.testBit 2))).setFld .linkState p 0 7 1
      (b2n (flags.testBit 4))
    let v := v.setReg .linkPartner p 0 (w32 (byteAt d 0 + flags * 2 ^ 8 + leAt d 8 2 * 2 ^ 16))
    let v := (v.setReg .linkPartnerEpoch p 0 (w32 (leAt d 4 4))).setReg .linkPartnerFrame p 0 (w32 (leAt d 12 4))
    let v := if (u.link p).status4 != d.take 4 then
      v.emit 0x2014 p (if byteAt d 1 = 0 then 0 else 1) (pay [u.fld .linkState p 0 4 2, byteAt d 1, flags]) else v
    let v := if rise then v.emit 0x2016 p 2 (pay [leAt d 4 4, (v.reg .linkEpoch p 0).toNat]) else v
    (u.plan.headOfPort p = none →
      exec (.statusRx p skew lines) s = .next (if v.plan.role p = 1 then v.epochReport p (leAt d 4 4) rise else v).watch.settle) ∧
    (∀ e : HeadEnt, u.plan.headOfPort p = some e →
      let w := if flags.testBit 0 ∧ e.primary = p then v.ambient e.head (leAt d 8 2) else v
      exec (.statusRx p skew lines) s = .next (if w.plan.role p = 1 then w.epochReport p (leAt d 4 4) rise else w).watch.settle)) ∧
  (∀ (s : State) (p : Nat), s.live → s.plan.role p = 1 → s.portState p = 2 → (s.link p).statusSeen = false →
    (s.link p).upTick + s.fld .linkXStatusMs p 0 0 10 * tickMs ≤ s.ticks →
    exec (.epochStatusWaitTimeout p) s =
      .next (((s.setLink p { s.link p with statusSeen := true }).setReg .linkPartnerEpoch p 0 0).epochReport p 0 false).watch.settle)

/-- R512, R514 and R519 to R522, with R81, R101 and R107: what a unit sends and takes of its partner, and how it follows. -/
def Obligations.FollowingTakesEffect : Prop :=
  (∀ s : State, s.live → s.tnd.rxLast.isEmpty = false → s.tnd.ackTick + 20000 ≤ s.ticks →
    let u := s.setTnd { s.tnd with ackTick := s.ticks }
    exec .ackSend s =
      .next (forEach (u.tnd.rxLast.map Prod.fst) (fun q s => s.ack q (assocGet s.tnd.rxJump q).isSome) u).watch.settle) ∧
  (∀ (s r u : State) (p : Nat) (skew : List Nat) (lines : List (List Bool)) (sync : Bool) (raw : List Byte) (pk : Pkt), s.live →
    s.arrive p skew lines = (r, some (sync, raw)) → r.receiveItem p 0x84 sync raw = (u, some pk) →
    let d := pk.payload
    d.length = 8 → zeros (slice d 5 3) = true →
    let q := leAt d 0 2
    let a := leAt d 2 2
    let keep := u.tnd.replay.filter fun r => r.stream != q || (a != 0 && decide (32767 < aliveAhead r.alive a)) || a == 0
    let v := u.setTnd { u.tnd with replay := keep }
    (byteAt d 4 = 0 → exec (.ackRx p skew lines) s = .next (v.feedBlocks 1100).watch.settle) ∧
    (byteAt d 4 = 1 → exec (.ackRx p skew lines) s = .next (State.feedBlocks 1100 (forEach (keep.filter fun r => r.stream == q)
      (fun r s => s.sendItem s.dataPort r.typ 2 r.stream r.alive s.now r.payload) v)).watch.settle)) ∧
  (∀ (s r u : State) (p : Nat) (skew : List Nat) (lines : List (List Bool)) (sync : Bool) (raw : List Byte) (pk : Pkt), s.live →
    s.arrive p skew lines = (r, some (sync, raw)) → r.receiveItem p 0x85 sync raw = (u, some pk) →
    pk.payload.length = 8 → zeros (slice pk.payload 5 3) = true → byteAt pk.payload 4 = 1 → u.role = 3 →
    exec (.syncReqRx p skew lines) s =
      .next (u.setTnd { u.tnd with feed := 1, outq := [], replay := [], winPos := none }).watch.settle) ∧
  (∀ (s r u : State) (p : Nat) (skew : List Nat) (lines : List (List Bool)) (sync : Bool) (raw : List Byte) (pk : Pkt), s.live →
    s.arrive p skew lines = (r, some (sync, raw)) → r.tndItem p 0x83 sync raw = (u, some pk) →
    let d := pk.payload
    let cut := w32 (leAt d 0 4)
    16 ≤ d.length → zeros (slice d 8 8) = true →
    (u.tnd.joinCut = some cut → leAt d 4 4 ≠ 0 →
      exec (.checkpointRx p skew lines) s = .next (u.setTnd { u.tnd with joinData := u.tnd.joinData ++ [(leAt d 4 4, d.drop 16)] }).watch.settle) ∧
    (leAt d 4 4 = 0 →
      exec (.checkpointRx p skew lines) s = .next (u.setTnd { u.tnd with
        joinCut := some cut, joinData := [(0, d.drop 16)], joinLoaded := false, applied := cut }).watch.settle)) ∧
  (∀ (s r u : State) (p : Nat) (skew : List Nat) (lines : List (List Bool)) (sync : Bool) (raw : List Byte) (pk : Pkt) (rs : List JRec), s.live →
    s.arrive p skew lines = (r, some (sync, raw)) → r.tndItem p 0x81 sync raw = (u, some pk) →
    splitRecs 130 pk.payload = some rs →
    let v := forEach rs (fun r s => (s.storeRec r).joinLoad r) u
    let v := v.setTnd { v.tnd with records := v.tnd.records ++ rs }
    exec (.journalPacketRx p skew lines) s = .next (v.drainRecs (v.tnd.records.length + 1)).watch.settle) ∧
  (∀ (s r u : State) (p : Nat) (skew : List Nat) (lines : List (List Bool)) (sync : Bool) (raw : List Byte) (pk : Pkt), s.live →
    s.arrive p skew lines = (r, some (sync, raw)) → r.tndItem p 0x82 sync raw = (u, some pk) →
    let d := pk.payload
    d.length = 16 + leAt d 8 4 → 0 < leAt d 8 4 → zeros (slice d 12 4) = true →
    let v := (u.store 151 (leAt d 0 8) (d.drop 16)).1
    v.tnd.joinLoaded = false ∨ v.inSync = true →
    exec (.mirrorRx p skew lines) s = .next (v.drainRecs (v.tnd.records.length + 1)).watch.settle) ∧
  (∀ (s : State) (h t : Nat), s.live → (s.head h).hold = some t → t + 2 * tickMs ≤ s.ticks →
    let u := s.setHead h { s.head h with hold := none }
    exec (.followHoldTimeout h) s =
      .next (u.setTnd { u.tnd with followed := assocSet u.tnd.followed h (u.reg .headFrame h 0).toNat }).watch.settle) ∧
  (∀ (s : State) (ofs : Int), s.live → s.plan.tandem.isSome = true →
    let u := s.setReg .tndTimeOfs 0 0 (i32 ofs)
    let v := (u.timeStep ofs 0).setReg .tndTimeOfs 0 0 0
    (u.role = 1 → u.tnd.stepped = false → (∃ p ∈ u.plan.tandemPorts, 8 ≤ (u.link p).echoes.length) →
      exec (.tandemTimeStep ofs) s = .next (v.setTnd { v.tnd with stepped := true, ofsTick := none }).watch.settle) ∧
    (u.role = 2 → ofs.natAbs ≤ u.fld .tndXTimeTol 0 0 0 17 →
      exec (.tandemTimeStep ofs) s = .next (u.setTnd { u.tnd with ofsTick := none }).watch.settle) ∧
    (u.role = 2 → u.fld .tndXTimeTol 0 0 0 17 < ofs.natAbs → u.tnd.ofsTick = none →
      exec (.tandemTimeStep ofs) s = .next (u.setTnd { u.tnd with ofsTick := some u.ticks }).watch.settle) ∧
    (∀ t : Nat, u.role = 2 → u.fld .tndXTimeTol 0 0 0 17 < ofs.natAbs → u.tnd.ofsTick = some t → t + tickS ≤ u.ticks →
      exec (.tandemTimeStep ofs) s = .next (v.setTnd { v.tnd with ofsTick := none }).watch.settle)) ∧
  (∀ (s u : State) (port off : Nat) (data : List Byte), s.served = true → s.store port (s.bus.mwinAddr port off) data = (u, true) →
    exec (.memoryWindowWrite port off data) s = .next (u.mirrorWrite port (s.bus.mwinAddr port off) data).watch.settle) ∧
  (∀ (s u : State) (port off : Nat) (data : List Byte), s.served = true → s.store port (s.bus.mwinAddr port off) data = (u, false) →
    exec (.memoryWindowWrite port off data) s = .next u.watch.settle) ∧
  (∀ (s : State) (r k : Nat) (e : FEntry), s.live → s.entry r k = some e → e.phase.waits = true → s.isOn 2 r = true →
    s.bus.ringKind r = 0 → beforeMet (s.bus.ringSt r).fetched e = true → s.bus.waitMet e = true → s.mayRun r e = true →
    exec (.commandWaitEnd r k) s = .next (State.withPorts (fun s => s.perform r e (performOf e.opcode)) s).watch.settle)

/-- R526 and R528: the load of a recording, its start and its end. -/
def Obligations.RerunTakesEffect : Prop :=
  (∀ (s u : State) (r k : Nat) (e : FEntry) (b : List Byte), s.ripe 0x3105 r k e → s.plan.has 0x31 e.inst = true →
    s.isOn 0x31 e.inst = true → e.object = 0xFFFF → e.zeroFrom 44 56 = true → (s.begun r e).lifecycle = 0 →
    (s.begun r e).plan.tandem = none ∨ (s.begun r e).role ≠ 3 → (s.begun r e).bus.fld .rerunState 0 0 0 2 ≠ 1 →
    (s.begun r e).rerunning = false → (s.begun r e).load 150 (e.arg 32 8) (e.arg 40 4) = (u, .ok b) →
    (∀ q, u.recordingStart b = some q →
      let x : RerunSt :=
        { addr := e.arg 32 8, len := e.arg 40 4, pos := 0, next := none, rows := [], own := [], ingested := [], missed := [], bad := [],
          diffEv := none }
      let v := (u.setRerun x).onBus fun b =>
        (((b.setReg .rerunState 0 0 1).setReg .rerunEqual 0 0 0).setReg .rerunDiffRows 0 0 0).setReg .rerunNc 0 0 0
      exec (.rerunLoad r k) s = .next (v.complete r e.k 0 0).watch.settle) ∧
    (u.recordingStart b = none → exec (.rerunLoad r k) s = .next (u.complete r e.k 0x800E 1).watch.settle)) ∧
  (∀ (s : State) (r k : Nat) (e : FEntry), s.ripe 0x3105 r k e → s.plan.has 0x31 e.inst = true →
    s.isOn 0x31 e.inst = true → e.object = 0xFFFF → e.zeroFrom 44 56 = true → (s.begun r e).lifecycle ≠ 0 →
    exec (.rerunLoad r k) s = .next ((s.begun r e).complete r e.k 0x8008 0).watch.settle) ∧
  (∀ (s : State) (b : List Byte) (r : JRec) (c : Ckpt) (n : Nat), s.recordingStart b = some (r, c, n) →
    readRec b = some r ∧ r.kind = 0x11 ∧ slice r.body 8 8 = s.hashHead ∧ n = recUnits b + r.dataLength ∧
      ckptDecode (slice b (recUnits b) (leAt r.body 4 4)) = some c) ∧
  (∀ (s u : State) (x : RerunSt) (b : List Byte) (r : JRec) (c : Ckpt) (pos : Nat), s.live → s.jrn.rerun = some x →
    s.bus.fld .rerunState 0 0 0 2 = 1 → s.load 150 x.addr x.len = (u, .ok b) → u.recordingStart b = some (r, c, pos) →
    let v := u.loadCkpt c
    exec .rerunLoaded s = .next ((((v.timeStep (sdiff r.time v.now) 0).setRerun { x with pos := pos }).rerunFetch).onBus fun b =>
      b.setReg .rerunState 0 0 2).watch.settle) ∧
  (∀ s : State, s.live → s.rerunning = true → s.rerunNext = none →
    exec .rerunDone s = .next s.rerunEnds.watch.settle) ∧
  (∀ (s : State) (r k : Nat) (e : FEntry), s.ripe 0x3106 r k e → s.plan.has 0x31 e.inst = true → s.isOn 0x31 e.inst = true →
    e.object = 0xFFFF → e.zeroFrom 32 56 = true → (s.begun r e).jrn.rerun.isSome = true →
    exec (.rerunStop r k) s = .next ((s.begun r e).rerunEnds.complete r e.k 0 0).watch.settle) ∧
  (∀ s : State, s.rerunEnds.jrn.rerun = none ∧ s.rerunEnds.bus.reg .rerunState 0 0 = 3)

/-- R532 to R537 and R568, R55, R67, R68, R160 to R163 and R511: resets, and each stage of the start-up order. -/
def Obligations.ResetsAndStartTakeEffect : Prop :=
  (∀ (s : State) (straps : Nat),
    exec (.powerOnReset straps) s = .next (State.watch { (s.resetTo 0 0 (straps % 16)) with powered := true }).settle) ∧
  (∀ s : State, s.powered = true → exec .sysResetNAssert s = .next (s.resetTo 1 1 s.wdn.straps).watch.settle) ∧
  (∀ s : State, s.powered = true → exec .lockstepMismatch s = .next ((s.fault 0x33 0 3).resetTo 1 4 s.wdn.straps).watch.settle) ∧
  (∀ (s : State) (kind cause straps : Nat), kind ≤ 2 → (kind = 2 ∨ s.otp.sound = true) →
    let u := s.resetTo kind cause straps
    u.pending = s.pending ∧ u.fabricUp = false ∧ u.powered = true ∧ u.bus.ticks = s.bus.ticks ∧ u.bus.mem = [] ∧
      (kind = 2 → u.wdn.waitStep = 1 ∧ u.wdn.straps = s.wdn.straps) ∧ u.plan = Plan.none ∧ u.otp = s.otp) ∧
  (∀ (s : State) (out : List Nat), s.powered = true → s.wdn.waitStep = 3 →
    let r := if s.wdn.order = [] then s.slotOrder else (s, s.wdn.order)
    ∀ t : State,
      (∀ l : Loaded, State.trySlots r.2 (r.1.setWdn { r.1.wdn with order := [] }) = (t, some l) →
        exec (.structureLoad out) s = .next (t.takeStructure l s.wdn.order.isEmpty out).watch.settle) ∧
      (State.trySlots r.2 (r.1.setWdn { r.1.wdn with order := [] }) = (t, none) →
        exec (.structureLoad out) s = .next (t.noStructure out).watch.settle)) ∧
  (∀ (s t : State) (ks : List Nat) (l : Loaded), State.trySlots ks s = (t, some l) →
    t.wdn.slot ∈ ks ∧ checkContainer s.otp s.lifecycle (s.flash.slots.getD t.wdn.slot []) = .inr l) ∧
  (∀ (s : State) (out : List Nat), s.powered = true → s.wdn.waitStep = 4 →
    exec (.routingComputed out) s = .next (s.toSupplies out).watch.settle) ∧
  (∀ (s : State) (out : List Nat), s.powered = true → s.wdn.waitStep = 5 →
    (out = [] → exec (.supplyWaitTimeout out) s = .next s.release.watch.settle) ∧
    (out ≠ [] → s.wdn.waitTick + tickS ≤ s.ticks → exec (.supplyWaitTimeout out) s = .next ((s.holdDie).failSafe 6).watch.settle) ∧
    (out ≠ [] → s.ticks < s.wdn.waitTick + tickS → exec (.supplyWaitTimeout out) s = .next s.watch.settle)) ∧
  (∀ (s : State) (t0 t1 : Int), s.live →
    let u := s.onBus fun b => (b.stackReading 0 t0).stackReading 1 t1
    (u.bus.fld .memState 0 0 0 3 = 0 → u.wdn.waitStep = 6 →
      exec (.stackTempReading t0 t1) s = .next (u.onBus fun b => b.memStart t0 t1).watch.settle) ∧
    (u.bus.fld .memState 0 0 0 3 = 1 → exec (.stackTempReading t0 t1) s = .next (u.onBus fun b => b.warmed t0 t1).watch.settle) ∧
    (2 ≤ u.bus.fld .memState 0 0 0 3 → exec (.stackTempReading t0 t1) s = .next u.watch.settle)) ∧
  (∀ (s : State) (stack : Nat), s.live → s.bus.fld .memState 0 0 0 3 = 1 → s.bus.mx.trainTick + 120 * tickS ≤ s.ticks →
    exec (.warmingTimeout stack) s = .next ((s.onBus fun b => b.memFailed stack 0 0).failSafe 8).watch.settle) ∧
  (∀ (s : State) (full : Bool) (repairs : List (Nat × Nat)), s.live → s.bus.fld .memState 0 0 0 3 = 2 →
    (∀ pc step : Nat, exec (.trainingComplete full repairs (some (pc, step))) s =
      -- the full search has run by then
      .next ((s.onBus fun b => (b.setFld .memState 0 0 9 1 1).memFailed (pc / 32) pc step).failSafe 8).watch.settle) ∧
    (∀ pc : Nat, twiceRepaired repairs = some pc → exec (.trainingComplete full repairs none) s =
      .next ((s.onBus fun b => (b.setFld .memState 0 0 9 1 1).memFailed (pc / 32) pc 0).failSafe 8).watch.settle) ∧
    (twiceRepaired repairs = none →
      let u := s.onBus fun b => b.trained full repairs
      (u.storeOk = true → exec (.trainingComplete full repairs none) s = .next u.watch.settle) ∧
      (u.storeOk = false → exec (.trainingComplete full repairs none) s = .next (
        let v := u.onBus fun b => { b with mx := { b.mx with stored := s.bus.mx.stored } }
        (v.setWdn { v.wdn with trainHeld := addSet v.wdn.trainHeld (s.bus.fld .memState 0 0 7 2) }).storeRefused 4).watch.settle))) ∧
  (∀ (repairs : List (Nat × Nat)) (pc : Nat), twiceRepaired repairs = some pc →
    1 < (repairs.filter fun x => x.1 == pc).length) ∧
  (∀ s : State, s.live → s.bus.fld .memState 0 0 0 3 = 3 →
    ∃ u : State, exec .zeroingComplete s = .next u.watch.settle ∧
      ∃ v : State, u = (match v.wdn.recovered with
          | some code => (v.setWdn { v.wdn with recovered := none }).emit 0x3306 0 1 (pay [v.fld .thmReset 0 0 8 8, code])
          | none => v) ∧
        ∃ w : State, v = w.startAll ∧ w.wdn.waitStep = 0 ∧ (s.plan.loaded = true → w.fld .structState 0 0 0 3 = 2) ∧ w.tnd.roleTick = s.ticks ∧
          w.reg .structLoadMs 0 0 = w32 ((s.ticks - s.wdn.resetTick) / tickMs) ∧ w.plan = s.plan) ∧
  (∀ (s : State) (pc : Nat) (ok : Bool), s.live →
    let u := s.onBus fun b => b.retrained pc ok
    exec (.retrained pc ok) s = .next (if (assocGet s.bus.mx.held pc).isSome && !ok then u.failSafe 8 else u).watch.settle) ∧
  (∀ (s : State) (t : Nat), s.powered = true → s.tnd.failTick = some t → t + 10 * tickMs ≤ s.ticks →
    let u := s.setTnd { s.tnd with failTick := none, silent := true }
    (∀ kind cause : Nat, s.tnd.resetDue = some (kind, cause) →
      exec .failedHeartbeatEnd s = .next (u.resetTo kind cause u.wdn.straps).serviceProgress.watch.settle) ∧
    (s.tnd.resetDue = none →
      exec .failedHeartbeatEnd s = .next (if 3 ≤ u.level then u.failSafeStops else u).serviceProgress.watch.settle)) ∧
  (∀ (s : State) (port key : Nat) (kind : Nat), s.live → s.reached port 0x33 0 → kind = 1 ∨ kind = 2 →
    let i := if kind = 1 then Instr.warmReset port key else .fabricReset port key
    let u := s.regWriteRec port 0x33 0 0 0x1C (w32 (key * 65536 + kind))
    (key % 65536 = 0x7264 → exec i s = .next (u.writtenReset kind 2).watch.settle) ∧
    (key % 65536 ≠ 0x7264 → exec i s = .next (u.onBus fun b => b.bump .coreBadAccess port 0 1).watch.settle)) ∧
  (∀ (s : State) (kind cause : Nat), s.writtenReset kind cause =
    if s.plan.tandem.isSome ∧ (s.role = 3 ∨ s.role = 5) ∧ s.fabricUp then
      s.toFailed.setTnd { s.toFailed.tnd with resetDue := some (kind, cause) }
    else s.resetTo kind cause s.wdn.straps)

/-- R541 to R547, R551, R552 and R561: readings, levels and steps, CUTOFF, and recovery. -/
def Obligations.ThermalTakesEffect : Prop :=
  (∀ (s : State) (ts : List (Option Int)), s.powered = true →
    let u := s.setWdn { s.wdn with force :=
      [s.reg .thmXLevels 0 0, s.reg .thmXTimes 0 0, s.reg .thmXRelease 0 0, s.reg .thmXRecover 0 0, s.reg .thmXWear 0 0] }
    let u := forEach ((List.range 35).zip ts) (fun e s => s.takeSensor e.1 e.2) u
    let u := ((u.judgeSensors).showTemps s.wdn.sensTick.isEmpty).storeRange.vddShow.showRecoveries
    let u := u.setFld .thmState 0 0 11 1 (b2n (decide (105 ≤ max (u.stackTemp 0) (u.stackTemp 1))))
    let u := if u.fabricUp then
      u.setWdn { u.wdn with tempSum := u.wdn.tempSum + u.tempMax, tempCount := u.wdn.tempCount + 1 } else u
    exec (.sensorReading ts) s = .next u.judgeLevel.startBand.watch.settle) ∧
  (∀ (s : State) (n : Nat) (q : Int), n < 32 → -32768 ≤ q → q < 32768 → (s.takeSensor n (some q)).sensor n = q ∧
    ∀ m, m < 32 → m ≠ n → (s.takeSensor n (some q)).sensor m = s.sensor m) ∧
  (∀ (s : State) (n : Nat), s.powered = true → n < 35 → (assocGet s.wdn.sensTick n).getD s.wdn.resetTick + 5 * tickMs ≤ s.ticks →
    exec (.sensorTimeout n) s = .next ((s.judgeSensors).showTemps false).watch.settle ∧ s.sensorBad n = true) ∧
  (∀ s : State, s.powered = true → s.wdn.waitStep = 2 → s.tempMax < s.warnTemp - s.hystTemp →
    exec .startHoldRelease s =
      .next ((s.setFld .thmState 0 0 12 1 0).setWdn { s.wdn with waitStep := 3, waitTick := s.ticks }).watch.settle) ∧
  (∀ s : State, s.powered = true → s.level = 1 → s.wdn.graceTick + s.thmF 1 0 16 * tickMs ≤ s.ticks →
    (s.effTemp < s.warnTemp → exec .graceEnd s = .next (s.thmLevel 0).watch.settle) ∧
    (s.warnTemp ≤ s.effTemp → exec .graceEnd s = .next (s.thmLevel 2).enforce.watch.settle)) ∧
  (∀ s : State, s.powered = true → s.level = 2 → s.thmStep < 18 → s.warnTemp ≤ s.effTemp →
    s.wdn.stepTick + s.thmF 1 16 16 * tickMs ≤ s.ticks →
    let n := s.thmStep + 1
    let u := (s.putStep n).stepStops n
    exec .enforceStep s = .next (u.setWdn { u.wdn with stepTick := u.ticks, lowTick := none }).watch.settle) ∧
  (∀ (s : State) (t : Nat), s.powered = true → s.wdn.lowTick = some t → s.level = 2 → t + s.thmF 2 16 16 * tickS ≤ s.ticks →
    let v := s.putStep (s.thmStep - 1)
    let u := v.setWdn { v.wdn with lowTick := some v.ticks }
    (u.thmStep ≠ 0 → exec .enforceRelease s = .next u.watch.settle) ∧
    (u.thmStep = 0 → exec .enforceRelease s = .next ((u.thmLevel 0).emit 0x3303 0 0 (pay [code 16 u.wdn.peak])).watch.settle)) ∧
  (∀ s : State, s.powered = true → s.level = 3 →
    (s.critTemp + 20 ≤ s.tempMax ∨ ∃ t : Nat, s.wdn.critTick = some t ∧ t + 5 * tickS ≤ s.ticks) →
    exec .cutoff s = .next
      ((((s.thmLevel 4).emit 0x3305 0 2 (pay [s.fld .thmTemp 0 0 0 16])).settle.holdDie).watch.settle)) ∧
  (∀ (s : State) (t : Nat), s.powered = true → s.wdn.coolTick = some t → 3 ≤ s.level → s.wdn.cause = 1 → s.thmF 3 0 1 = 1 →
    t + s.thmF 3 16 16 * tickS ≤ s.ticks →
    let recent := s.wdn.recoveries.filter fun t => decide (s.ticks < t + 3600 * tickS)
    let u := ((s.thmLevel 0).setFld .thmState 0 0 3 5 0).setWdn { s.wdn with
      recoveries := recent ++ [s.ticks], recovered := some s.wdn.cause, cause := 0, coolTick := none, lowTick := none, alertLevel := false }
    (recent.length < 3 → exec .autoRecovery s =
      .next ((u.resetTo 2 5 u.wdn.straps).setFld .thmReset 0 0 8 8 (recent.length + 1)).watch.settle) ∧
    (3 ≤ recent.length → exec .autoRecovery s = .next s.watch.settle))

/-- R13 to R17, R509, R554, R556, R558, R559, R569 and R570: losses, the supply request, wear, and cut-off handshakes. -/
def Obligations.LossesTakeEffect : Prop :=
  (∀ s : State, s.powered = true →
    exec .refclkLoss s = .next ((if s.fabricUp then s.unsound 1 else s).failSafe 4).watch.settle ∧
    exec .wclkLoss s = .next (s.failSafe 5).watch.settle ∧ exec .avsReadbackFault s = .next (s.failSafe 6).watch.settle ∧
    exec (.supplyOutOfWindow 0) s =
      .next (((if s.fabricUp then s.islandSafeBy 0x3304 else s).failSafe 6).settle.holdDie).watch.settle ∧
    exec (.supplyOutOfWindow 1) s = .next ((s.islandLost 0).failSafe 6).watch.settle ∧
    (∀ rail : Nat, 2 ≤ rail → rail < 10 → exec (.supplyOutOfWindow rail) s = .next ((s.failSafe 6).settle.holdDie).watch.settle) ∧
    (∀ rail : Nat, 10 ≤ rail → rail < 12 → exec (.supplyOutOfWindow rail) s = .next (s.failSafe 6).watch.settle)) ∧
  (∀ (s : State) (code : Nat), s.level < 3 → s.fabricUp = false → s.wdn.zone = none → s.wdn.cmd = none → s.wdn.serviceStep = none →
    let u := s.failSafe code
    u.level = 3 ∧ u.wdn.cause = code ∧ u.fld .thmFault 0 0 8 8 = code % 256 ∧ u.wdn.alertLevel = true ∧ u.wdn.alertFault = true) ∧
  (∀ s : State, exec .wardenRailLoss s =
    .next (let t : State := { s.send (.pins 0) with powered := false, fabricUp := false }; if s.faultLow then t.send (.faultN false) else t)) ∧
  (∀ (s : State) (m : Nat), s.powered = true → s.fabricUp = true →
    let mv := s.fld .thmVdd 0 0 0 10
    (s.tempMax < s.warnTemp → mv < 850 →
      exec (.vddFabRequestRaise m) s = .next (s.vddRequest (min 850 (mv + 5))).watch.settle) ∧
    (850 ≤ mv → s.fld .thmWear 0 0 16 1 = 0 →
      exec (.vddFabRequestRaise m) s = .next ((s.setFld .thmWear 0 0 16 1 1).emit 0x330A 0 2 (pay [m, mv])).watch.settle) ∧
    (850 ≤ mv → s.fld .thmWear 0 0 16 1 = 1 → exec (.vddFabRequestRaise m) s = .next s.watch.settle) ∧
    (s.warnTemp ≤ s.tempMax → mv < 850 → exec (.vddFabRequestRaise m) s = .next s.watch.settle)) ∧
  (∀ s : State, s.powered = true → s.fabricUp = true →
    let mv := s.fld .thmVdd 0 0 0 10
    (680 < mv → s.wdn.vddTick + 100 * tickMs ≤ s.ticks →
      exec .vddFabRequestLower s = .next (s.vddRequest (max 680 (mv - 5))).watch.settle) ∧
    (mv ≤ 680 ∨ s.ticks < s.wdn.vddTick + 100 * tickMs → exec .vddFabRequestLower s = .next s.watch.settle)) ∧
  (∀ (s : State) (mv : Nat), mv < 1024 → (s.vddRequest mv).fld .thmVdd 0 0 0 10 = mv) ∧
  (∀ s : State, s.powered = true → s.fabricUp = true → s.wdn.hourTick + 3600 * tickS ≤ s.ticks →
    let mean := if s.wdn.tempCount = 0 then s.tempMax else s.wdn.tempSum / (s.wdn.tempCount : Int)
    exec .lifeHour s = .next ((s.setWdn { s.wdn with
      hourTick := s.wdn.hourTick + 3600 * tickS, tempSum := 0, tempCount := 0,
      lifeHeld := (s.wdn.lifeHeld.1 + 1, s.wdn.lifeHeld.2 + lifeGain mean) }).writeLife).watch.settle) ∧
  (∀ s : State, s.powered = true → s.fabricUp = true → s.wdn.dayTick + 86400 * tickS ≤ s.ticks → s.storeOk = true →
    ∃ u : State, exec .wearDay s = .next u.watch.settle ∧ u.wdn.wearHeld = [] ∧
      u.flash.wear = s.flash.wear ++ s.wdn.wearHeld ++ [(s.wdn.dayMax.1, s.wdn.dayMax.2, s.fld .thmState 0 0 8 2)] ∧
      u.wdn.dayTick = s.wdn.dayTick + 86400 * tickS ∧ u.wdn.dayMax = (s.fld .thmVdd 0 0 0 10, s.tempMax) ∧
      u.fld .thmWear 0 0 0 10 = (850 - s.wdn.dayMax.1) % 1024) ∧
  (∀ s : State, s.live →
    (∀ (n : Nat) (f : FillSt), (s.src n).fill = some f → exec (.handshakeCompletionTimeout (.fill n)) s =
      .next (s.setSrc n { s.src n with fill := some { f with fault := true } }).watch.settle) ∧
    (∀ h c unit : Nat, exec (.handshakeCompletionTimeout (.column h c unit)) s = .next (s.columnDone h c unit true false).watch.settle) ∧
    (∀ c : Nat, exec (.handshakeCompletionTimeout (.encoder c)) s = .next (s.encAbandon c).watch.settle) ∧
    (∀ n : Nat, exec (.handshakeCompletionTimeout (.writeBack n)) s = .next (s.wbDrop n 1).watch.settle) ∧
    (∀ c : Nat, exec (.handshakeCompletionTimeout (.decoder c)) s = .next (s.coreTimeout c).watch.settle) ∧
    (∀ p : Nat, s.panState p ≠ 0 →
      exec (.handshakeCompletionTimeout (.panel p)) s = .next (s.panDoubt p 4 0 0 4).watch.settle) ∧
    (∀ (r k : Nat) (e : FEntry), s.entry r k = some e → e.phase = .running →
      exec (.handshakeCompletionTimeout (.command r k)) s =
        .next (s.stop (if followsHead (e.opcode / 256) then 0x14 else e.opcode / 256) e.inst 2).watch.settle) ∧
    exec (.handshakeCompletionTimeout .tandem) s = .next (forEach s.tnd.replay
      (fun r s => s.sendItem s.dataPort r.typ 2 r.stream r.alive s.now r.payload) s).watch.settle ∧
    (∀ p : Nat, exec (.handshakeCompletionTimeout (.receive p)) s = .next (s.rxOverflow p).watch.settle) ∧
    exec (.handshakeCompletionTimeout .timing) s = .next ((s.unsound 0).failSafe 7).watch.settle ∧
    exec (.handshakeCompletionTimeout .engine) s = .next (s.journalCut.failSafe 7).watch.settle ∧
    (∀ g ∈ [Stage.memory, .tiles, .mailbox], exec (.handshakeCompletionTimeout g) s = .next (s.failSafe 7).watch.settle) ∧
    exec (.handshakeCompletionTimeout .journal) s = .next s.journalCut.watch.settle)

/-- R574, with R532, R536, R560 and R573: the SMBus target. The cause 2 that a reset by SMBus Block Write records is the model's reading
(log 60). -/
def Obligations.SmbusTakesEffect : Prop :=
  (∀ (s : State) (off : Nat), s.powered = true →
    exec (.smbusSetPointer off true) s = .next ((s.setWdn { s.wdn with pointer := off % 2 ^ 32 }).smb true []).watch.settle ∧
    exec (.smbusSetPointer off false) s = .next (s.smb false []).watch.settle) ∧
  (∀ s : State, s.powered = true →
    let u := s.setWdn { s.wdn with pointer := (s.wdn.pointer + 4) % 2 ^ 32 }
    (∀ (row : RegRow) (j : Nat) (r : FReg), findReg 0x33 false s.wdn.pointer = some (row, j) → row.acc ≠ .wo → row.reg = .fn r →
      exec .smbusRead s = .next (u.smb true (le 4 (s.reg r 0 j).toNat)).watch.settle) ∧
    (findReg 0x33 false s.wdn.pointer = none → exec .smbusRead s = .next (u.smb true (le 4 0)).watch.settle)) ∧
  (∀ (s : State) (v : Word), s.powered = true →
    exec (.smbusWrite v false) s = .next (s.smb false []).watch.settle ∧
    (s.wdn.pointer ≠ 0x1C → exec (.smbusWrite v true) s = .next (s.smb false []).watch.settle) ∧
    (s.wdn.pointer = 0x1C → bf v 16 16 = 0x7264 → bf v 0 8 = 1 ∨ bf v 0 8 = 2 →
      exec (.smbusWrite v true) s = .next ((s.smb true []).writtenReset (bf v 0 8) 2).watch.settle) ∧
    (s.wdn.pointer = 0x1C → bf v 16 16 ≠ 0x7264 ∨ (bf v 0 8 ≠ 1 ∧ bf v 0 8 ≠ 2) → exec (.smbusWrite v true) s = .next (s.smb true []).watch.settle)) ∧
  (∀ s : State, s.powered = true →
    exec (.smbusReset 0x72 true) s = .next ((s.smb true []).writtenReset 1 3).watch.settle ∧
    ∀ (d : Nat) (pec : Bool), (d ≠ 0x72 ∨ pec = false) → exec (.smbusReset d pec) s = .next (s.smb false []).watch.settle) ∧
  (∀ s : State, s.powered = true →
    ((s.wdn.alertFault = true ∨ s.wdn.alertLevel = true) →
      let a := 0x58 + 2 * (s.wdn.straps / 4 % 2) + s.wdn.straps / 2 % 2
      exec .smbusAlertResponse s =
        .next ((s.setWdn { s.wdn with alertFault := false, alertLevel := false }).smb true (le 1 (2 * a))).watch.settle) ∧
    (s.wdn.alertFault = false → s.wdn.alertLevel = false → exec .smbusAlertResponse s = .next (s.smb false []).watch.settle))

/-- R54, R58 to R63, R74, R76 to R78 and R578: the structure commands and what ends them. -/
def Obligations.StructureCommandsTakeEffect : Prop :=
  (∀ (s : State) (port : Nat) (v : Word) (op : Nat), s.served = true → s.reached port 0x34 0 → bf v 0 8 = op →
    let t := s.regWriteRec port 0x34 0 0 0x40 v
    let u := t.structTake port op
    (t.structBusy = true →
      (v = 3 → exec (.confirm port) s = .next (t.setFld .structStatus 0 0 4 1 1).watch.settle) ∧
      (v = 5 → exec (.verify port) s = .next (t.setFld .structStatus 0 0 4 1 1).watch.settle) ∧
      (v = 7 → exec (.raiseFloor port) s = .next (t.setFld .structStatus 0 0 4 1 1).watch.settle)) ∧
    (t.structBusy = false →
      (∀ k : Nat, v = w32 (k % 16 * 256 + 2) → (k = 1 ∨ k = 2) → u.slotState k = 1 ∨ u.slotState k = 3 →
        exec (.setPreferred port k) s = .next ((u.putSlots fun r =>
          { r with states := r.states.set k 2, preferred := k, trialBoots := 0 }).structEnd 2 0).watch.settle) ∧
      (∀ k : Nat, v = w32 (k % 16 * 256 + 2) → k % 16 = 0 ∨ 2 < k % 16 → exec (.setPreferred port k) s = .next (u.structEnd 3 9).watch.settle) ∧
      (v = 3 → u.runSlot ≠ 3 → u.slotState u.runSlot = 2 →
        let w := u.setSlotState u.runSlot 3
        exec (.confirm port) s = .next ((w.setWdn { w.wdn with confirm := none }).structEnd 2 0).watch.settle) ∧
      (∀ k : Nat, v = w32 (k % 16 * 256 + 1) → k < 3 → k = u.runSlot →
        exec (.writeSlot port k) s = .next (u.structFails 0x12 0xFFFF).watch.settle) ∧
      (∀ (k : Nat) (w : State) (d : List Byte), v = w32 (k % 16 * 256 + 1) → k < 3 → (k = 0 → u.lifecycle ≠ 1) → k ≠ u.runSlot → u.storeOk = true →
        u.staged = (w, some d) → checkForm d = none → checkTrust w.otp w.lifecycle d = none → (byteAt d 61).testBit 1 = false →
        let x := { w with flash := { w.flash with slots := w.flash.slots.set k [] } }
        let x := x.putSlots fun r => { r with states := r.states.set k 0, seqs := r.seqs.set k 0, hashes := r.hashes.set k [] }
        exec (.writeSlot port k) s =
          .next (x.setWdn { x.wdn with cmd := some { op := 1, arg := k, data := d.take (leAt d 8 4) } }).watch.settle) ∧
      (∀ z : Nat, v = w32 (z % 16 * 256 + 4) → z < 8 → u.effTemp < u.critTemp →
        exec (.zoneReload port z) s = .next (u.structRead 4 z).watch.settle) ∧
      (v = 5 → exec (.verify port) s = .next (u.structRead 5 0).watch.settle) ∧
      (∀ k : Nat, v = w32 (k % 16 * 256 + 6) → k < 4 → exec (.revokeKey port k) s = .next (u.structRead 6 k).watch.settle) ∧
      (v = 7 → u.runSlot ≠ 3 → u.slotState u.runSlot = 3 → (u.reg .structSeq 0 0).toNat ≤ leAt (u.flash.slots.getD 0 []) 64 4 →
        exec (.raiseFloor port) s = .next (State.structEnd (State.identity
          { u with otp := { u.otp with floor := max u.otp.floor (u.reg .structSeq 0 0).toNat } }) 2 0).watch.settle) ∧
      (∀ k : Nat, v = w32 (k % 16 * 256 + 8) → k < 4 → u.lifecycle = 0 → (u.otp.hashes.getD k []).isEmpty = true →
        exec (.provisionKey port k) s = .next (u.structRead 8 k).watch.settle))) ∧
  (∀ (s : State) (port k : Nat), s.served = true → s.reached port 0x34 0 →
    ∀ p ∈ [(Instr.writeSlot port k, 1, k % 16), (.setPreferred port k, 2, k % 16), (.confirm port, 3, 0), (.zoneReload port k, 4, k % 16),
      (.verify port, 5, 0), (.revokeKey port k, 6, k % 16), (.raiseFloor port, 7, 0), (.provisionKey port k, 8, k % 16)],
    let t := s.regWriteRec port 0x34 0 0 0x40 (w32 (p.2.2 * 256 + p.2.1))
    let u := t.structTake port p.2.1
    (t.structBusy = true → exec p.1 s = .next (t.setFld .structStatus 0 0 4 1 1).watch.settle) ∧
    (t.structBusy = false → structRange p.2.1 p.2.2 = true → exec p.1 s = .next (u.structEnd 3 9).watch.settle) ∧
    (t.structBusy = false → structRange p.2.1 p.2.2 = false →
      (p.2.1 = 1 → p.2.2 = 0 → u.lifecycle = 1 → exec p.1 s = .next (u.structFails 0x12 0xFFFF).watch.settle) ∧
      (p.2.1 = 1 → p.2.2 ≠ u.runSlot → ¬ (p.2.2 = 0 ∧ u.lifecycle = 1) →
        (u.storeOk = false → exec p.1 s = .next ((u.storeRefused 0).structFails 0x11 0xFFFF).watch.settle) ∧
        (u.storeOk = true → u.staged.2 = none → exec p.1 s = .next (u.staged.1.structFails 0x10 0xFFFF).watch.settle) ∧
        (∀ (w : State) (d : List Byte) (f : Nat × Nat), u.storeOk = true → u.staged = (w, some d) →
          firstFailure [checkForm d, checkTrust w.otp w.lifecycle d, failIf ((byteAt d 61).testBit 1) 7 0xFFFF] = some f →
          exec p.1 s = .next (w.structFails f.1 f.2).watch.settle)) ∧
      (p.2.1 = 2 → u.slotState p.2.2 ≠ 1 → u.slotState p.2.2 ≠ 3 → exec p.1 s = .next (u.structEnd 3 0x12).watch.settle) ∧
      (p.2.1 = 3 → u.runSlot = 3 ∨ u.slotState u.runSlot ≠ 2 → exec p.1 s = .next (u.structEnd 3 0x12).watch.settle) ∧
      (p.2.1 = 4 → u.critTemp ≤ u.effTemp → exec p.1 s = .next (u.structFails 0x11 0xFFFF).watch.settle) ∧
      (p.2.1 = 7 → u.runSlot = 3 ∨ u.slotState u.runSlot ≠ 3 ∨ leAt (u.flash.slots.getD 0 []) 64 4 < (u.reg .structSeq 0 0).toNat →
        exec p.1 s = .next (u.structEnd 3 0x12).watch.settle) ∧
      (p.2.1 = 8 → u.lifecycle ≠ 0 ∨ (u.otp.hashes.getD p.2.2 []).isEmpty = false →
        exec p.1 s = .next (u.structFails 0x12 0xFFFF).watch.settle))) ∧
  (∀ (s w : State) (arg : Nat) (d : List Byte), s.load 152 0 48 = (w, .ok d) →
    s.structRead 8 arg = w.setWdn { w.wdn with cmd := some { op := 8, arg := arg, data := d } }) ∧
  (∀ (s w : State) (op arg : Nat) (d : List Byte), op ≠ 8 → s.staged = (w, some d) →
    s.structRead op arg = w.setWdn { w.wdn with cmd := some { op := op, arg := arg, data := d } }) ∧
  (∀ s : State, 0x08000000 < s.pair .structSrcLo .structSrcHi 0 0 + (s.reg .structSrcLen 0 0).toNat →
    ∀ op arg : Nat, op ≠ 8 → s.structRead op arg = s.structFails 0x10 0xFFFF) ∧
  (∀ (s : State) (c : StructRun), s.powered = true → s.wdn.cmd = some c → c.op = 1 →
    exec (.slotWritten false) s = .next (s.structFails 0x13 0xFFFF).watch.settle ∧
    let x := { s with flash := { s.flash with slots := s.flash.slots.set c.arg c.data } }
    let x := x.putSlots fun r => { r with
      states := r.states.set c.arg 1, seqs := r.seqs.set c.arg (leAt c.data 64 4), hashes := r.hashes.set c.arg (slice c.data 12 48) }
    exec (.slotWritten true) s =
      .next ((x.structEnd 2 0).emit 0x3406 0 0 (pay [c.arg, 0, leAt c.data 12 4, leAt c.data 16 4])).watch.settle) ∧
  (∀ (s : State) (k t : Nat), s.powered = true → s.wdn.confirm = some (k, t) → t + s.fld .structXConfirm 0 0 0 16 * tickS ≤ s.ticks →
    let u := s.setWdn { s.wdn with confirm := none }
    (u.slotState k = 2 →
      exec .confirmTimeout s = .next ((u.setSlotState k 4).emit 0x3407 0 1 (pay (k :: 0 :: u.hash8))).watch.settle) ∧
    (u.slotState k ≠ 2 → exec .confirmTimeout s = .next u.watch.settle))

/-- R60 to R62, R64, R69 to R72 and R74: the ends of structure commands, and of the steps of a zone reload. -/
def Obligations.StructureEndsTakeEffect : Prop :=
  (∀ (s : State) (c : StructRun), s.powered = true → s.wdn.cmd = some c →
    (c.op = 5 →
      (∀ f : Nat × Nat, checkContainer s.otp s.lifecycle c.data = .inl f →
        exec .structCmdDone s = .next (s.structFails f.1 f.2).watch.settle) ∧
      (∀ l : Loaded, checkContainer s.otp s.lifecycle c.data = .inr l →
        exec .structCmdDone s = .next ((s.imageGone l 3).structEnd 2 0).watch.settle)) ∧
    (c.op = 4 → s.critTemp ≤ s.effTemp → exec .structCmdDone s = .next (s.structFails 0x11 0xFFFF).watch.settle) ∧
    (c.op = 4 → s.effTemp < s.critTemp →
      (∀ f : Nat × Nat, checkContainer s.otp s.lifecycle c.data = .inl f →
        exec .structCmdDone s = .next (s.structFails f.1 f.2).watch.settle) ∧
      ∀ l : Loaded, checkContainer s.otp s.lifecycle c.data = .inr l →
        let u := s.imageGone l c.arg
        (∀ f : Nat × Nat, u.zoneCheck c.arg l.plan = some f → exec .structCmdDone s = .next (u.structFails f.1 f.2).watch.settle) ∧
        (u.zoneCheck c.arg l.plan = none → exec .structCmdDone s =
          .next ((u.setWdn { u.wdn with cmd := none }).zoneBegin c.arg l).watch.settle)) ∧
    (c.op = 6 →
      (∀ f : Nat × Nat, checkRevoke s.otp s.lifecycle c.arg c.data = some f →
        exec .structCmdDone s = .next (s.structFails f.1 f.2).watch.settle) ∧
      (checkRevoke s.otp s.lifecycle c.arg c.data = none →
        let u : State := { s with otp := { s.otp with revoked := s.otp.revoked.set c.arg true } }
        exec .structCmdDone s =
          .next ((u.identity.structEnd 2 0).emit 0x3408 0 1 (pay [c.arg, 0, leAt c.data 12 4, leAt c.data 16 4])).watch.settle)) ∧
    (c.op = 8 →
      let u : State := { s with otp := { s.otp with hashes := s.otp.hashes.set c.arg (fit 48 c.data) } }
      exec .structCmdDone s = .next (u.identity.structEnd 2 0).watch.settle)) ∧
  (∀ (s : State) (z : ZoneRun), s.live → s.wdn.zone = some z → z.step = 3 → z.drainTick ≤ s.ticks →
    let u := s.zoneRec z.zone 3 0
    exec .zoneDrainEnd s = .next (u.setWdn { u.wdn with zone := some { z with step := 4 } }).watch.settle) ∧
  (∀ (s : State) (z : ZoneRun), s.live → s.wdn.zone = some z → z.step = 4 →
    (∀ reason : Nat, reason ≠ 0 →
      let u := (s.zoneRec z.zone 4 1).setZoneState z.zone 3
      let u := ((u.setFld .structState 0 0 0 3 2).structFail reason 3 0xFFFF).structEnd 3 reason
      exec (.zoneRoutingLoaded reason) s =
        .next ((u.setWdn { u.wdn with zone := none }).emit 0x3405 0 2 (pay (z.zone :: reason :: u.hash8))).watch.settle) ∧
    (let started : List Nat := [0x02, 0x10, 0x11, 0x14, 0x15, 0x21]
     let u := s.zoneRec z.zone 4 0
     let u : State := { u with plan := z.plan }
     let u := ((u.zoneParts z.zone s.plan).zoneGroups z.zone s.plan).zonePorts z.zone s.plan
     let u := forEach started (fun cap u => forEach (u.inZone cap z.zone) (fun i u => u.zoneInst s.plan cap i) u) u
     let u := forEach ((s.zoneRuns z.zone s.plan z.plan).getD []) (fun r u => u.setFld .freshCfg r.1 0 0 17 r.2) u
     let u := forEach started (fun cap u => u.zoneStart cap z.zone) u
     let u := forEach ((u.inZone 0x20 z.zone).filter fun p => u.plan.role p == 2) (fun p u => u.creditResume p) u
     let waits := (u.inZone 0x14 z.zone).filter fun h => u.fnState 0x14 h == 1 && (u.head h).mode.isSome
     exec (.zoneRoutingLoaded 0) s =
       .next ((u.setWdn { u.wdn with zone := some { z with step := 5, heads := waits } }).zoneDone).watch.settle))

/-- R131 to R137: lifecycle states, the token, and the debug master. -/
def Obligations.DebugTakesEffect : Prop :=
  (∀ (s : State) (port : Nat), s.live → s.reached port 0x35 0 →
    let t := s.regWriteRec port 0x35 0 0 0x04 1
    let a := t.pair .debugTokenLo .debugTokenHi 0 0
    (t.fld .debugStatus 0 0 0 2 = 1 → exec (.enterService port) s = .next t.watch.settle) ∧
    -- the token: none beyond the address space, all ones where the read fails
    ∀ (w : State) (d : List Byte), t.fld .debugStatus 0 0 0 2 ≠ 1 →
      (if 0x08000000 < a + 256 then w = t ∧ d = []
        else t.load 152 a 256 = (w, .ok d) ∨
          ((t.load 152 a 256).1 = w ∧ (∀ x, (t.load 152 a 256).2 ≠ .ok x) ∧ d = List.replicate 256 0xFF)) →
      (w.tokenCheck a d = 0 →
        let u := (w.drawNonce.debugEnds 1 0).journal 0x0E 0x35 0 (slice d 5 1 ++ le 7 0 ++ slice d 8 8)
        let heads := (u.plan.insts 0x14).filter fun h => u.isOn 0x14 h
        let u := u.setWdn { u.wdn with serviceStep := some (byteAt d 5, leAt d 8 8, 0, heads) }
        let u := forEach ((List.range 64).filter fun p => u.plan.role p == 2) (fun p s => s.creditStop p) u
        let u := forEach ((u.plan.insts 0x21).filter fun i => u.isOn 0x21 i) (fun i s => s.leave 0x21 i 4) u
        let u := (forEach ((u.plan.insts 0x15).filter fun i => u.isOn 0x15 i) (fun i s => s.leave 0x15 i 4) u).pulsesLow
        let u := u.setTim { u.tim with ignoreRefs := true }
        exec (.enterService port) s = .next (if u.selected = 7 then u else u.deselect).serviceProgress.watch.settle) ∧
      (∀ reason : Nat, w.tokenCheck a d = reason → reason ≠ 0 →
        let v := if reason = 9 then w.drawNonce.giveUp 0x35 0 3 6 0x3502 none else w.drawNonce
        exec (.enterService port) s =
        .next (((v.debugEnds 3 reason).bump .debugRefused 0 0 1).emit 0x3502 0 1 (pay [reason])).watch.settle)) ∧
  (∀ (s : State) (port : Nat), s.live → s.reached port 0x35 0 →
    let t := s.regWriteRec port 0x35 0 0 0x04 2
    (t.fld .debugStatus 0 0 0 2 = 1 → exec (.setField port) s = .next t.watch.settle) ∧
    (t.fld .debugStatus 0 0 0 2 ≠ 1 → t.lifecycle ≠ 0 → exec (.setField port) s = .next (t.debugEnds 3 2).watch.settle) ∧
    (t.fld .debugStatus 0 0 0 2 ≠ 1 → t.lifecycle = 0 →
    (t.otp.qualifying = [] → exec (.setField port) s = .next (t.debugEnds 3 5).watch.settle) ∧
    (t.otp.qualifying ≠ [] →
      let u : State := { t with otp := { t.otp with field := true } }
      exec (.setField port) s = .next
        (((u.setReg .debugState 0 0 1).debugEnds 2 0).identity.emit 0x3503 0 0 (pay [(t.otp.qualifying.map fun k => 2 ^ k).sum])).watch.settle))) ∧
  (∀ (s : State) (a n : Nat) (d : List Byte), s.live →
    ((s.bus.debugRead s.lifecycle a n).2 = .ok d → exec (.debugMasterAccess false a n []) s =
      .next (({ s with bus := (s.bus.debugRead s.lifecycle a n).1 } : State).send (.memRead 153 true d)).watch.settle) ∧
    ((s.bus.debugRead s.lifecycle a n).2 = .ue d → exec (.debugMasterAccess false a n []) s =
      .next (({ s with bus := (s.bus.debugRead s.lifecycle a n).1 } : State).send (.memRead 153 false d)).watch.settle) ∧
    ((s.bus.debugRead s.lifecycle a n).2 = .refused → exec (.debugMasterAccess false a n []) s =
      .next (({ s with bus := (s.bus.debugRead s.lifecycle a n).1 } : State).send
        (.memRead 153 false (List.replicate n 0xFF))).watch.settle) ∧
    (let r := s.bus.debugWrite s.lifecycle a d
     let u := ({ s with bus := r.1 } : State).send (.memWritten 153 r.2)
     exec (.debugMasterAccess true a n d) s =
       .next (if s.lifecycle = 2 ∧ r.2 = true ∧ d ≠ [] then u.debugCount a d.length else u).watch.settle) ∧
    (s.lifecycle = 1 → exec (.debugMasterAccess false a n []) s =
      .next (({ s with bus := s.bus.refuseRead 153 a } : State).send (.memRead 153 false (List.replicate n 0xFF))).watch.settle) ∧
    (s.lifecycle = 0 → s.bus.touchesLocked a d.length = false → exec (.debugMasterAccess true a n d) s =
      .next (({ s with bus := (s.bus.store 153 a d).1 } : State).send (.memWritten 153 (s.bus.store 153 a d).2)).watch.settle) ∧
    (s.lifecycle = 2 → s.bus.memReady = true → (s.bus.writeChecked 153 a d).2 = true → d ≠ [] → exec (.debugMasterAccess true a n d) s =
      .next ((({ s with bus := (s.bus.writeChecked 153 a d).1 } : State).send (.memWritten 153 true)).debugCount a d.length).watch.settle)) ∧
  (∀ (s : State) (t n lo hi : Nat), s.live → s.wdn.dbgWrites = some (t, n, lo, hi) → t + tickMs ≤ s.ticks →
    exec .debugAccessRecord s = .next
      ((s.setWdn { s.wdn with dbgWrites := none }).journal 0x0F 0x35 0 (le 4 n ++ le 4 0 ++ le 8 lo ++ le 8 hi)).watch.settle)

/-- R544: what a stack reading counts as. -/
def Obligations.HotStackCounts : Prop :=
  ∀ (s : State) (k : Nat), k < 2 →
    (105 ≤ s.stackTemp k → max s.tempMax s.warnTemp ≤ s.effTemp) ∧
    (110 ≤ s.stackTemp k → max s.tempMax s.critTemp ≤ s.effTemp) ∧
    (s.stackTemp 0 < 105 → s.stackTemp 1 < 105 → s.effTemp = s.tempMax)

/-- R560, with R536: the two resets that a host commands, and any other write of THM_CMD. -/
def Obligations.ThmCmdActs : Prop :=
  ∀ (s : State) (port key : Nat), s.live → s.reached port 0x33 0 → key < 65536 →
    let alone (t : State) : Prop := t.plan.tandem = none ∨ (t.role ≠ 3 ∧ t.role ≠ 5)
    let pair (t : State) : Prop := t.plan.tandem.isSome = true ∧ (t.role = 3 ∨ t.role = 5)
    (let t := s.regWriteRec port 0x33 0 0 0x1C (w32 (key * 65536 + 1))
     (key = 0x7264 → alone t → exec (.warmReset port key) s = .next (t.resetTo 1 2 t.wdn.straps).watch.settle) ∧
     (key = 0x7264 → pair t → t.fabricUp = true → exec (.warmReset port key) s =
       .next (t.toFailed.setTnd { t.toFailed.tnd with resetDue := some (1, 2) }).watch.settle) ∧
     (key ≠ 0x7264 → exec (.warmReset port key) s = .next (t.onBus fun b => b.bump .coreBadAccess port 0 1).watch.settle)) ∧
    (let t := s.regWriteRec port 0x33 0 0 0x1C (w32 (key * 65536 + 2))
     (key = 0x7264 → alone t → exec (.fabricReset port key) s = .next (t.resetTo 2 2 t.wdn.straps).watch.settle) ∧
     (key = 0x7264 → pair t → t.fabricUp = true → exec (.fabricReset port key) s =
       .next (t.toFailed.setTnd { t.toFailed.tnd with resetDue := some (2, 2) }).watch.settle) ∧
     (key ≠ 0x7264 → exec (.fabricReset port key) s = .next (t.onBus fun b => b.bump .coreBadAccess port 0 1).watch.settle)) ∧
    ∀ v : Word, (bf v 16 16 ≠ 0x7264 ∨ (bf v 0 8 ≠ 1 ∧ bf v 0 8 ≠ 2)) → s.thmCmdWrite port v =
      (s.regWriteRec port 0x33 0 0 0x1C v).onBus fun b => b.bump .coreBadAccess port 0 1
end

