-- ==== Sys2Proof/Laws/State.lean ====
section
/-! SUPPORT. What each named update of the state leaves of every field of it: one law per update and field. -/

namespace Sys2Proof.Machine

variable (s : State)

/-! ### setReg -/

@[simp] theorem State.setReg_powered (r : FReg) (i j : Nat) (v : Word) : (s.setReg r i j v).powered = s.powered := rfl
@[simp] theorem State.setReg_fabricUp (r : FReg) (i j : Nat) (v : Word) : (s.setReg r i j v).fabricUp = s.fabricUp := rfl
@[simp] theorem State.setReg_bus (r : FReg) (i j : Nat) (v : Word) : (s.setReg r i j v).bus = s.bus := rfl
@[simp] theorem State.setReg_plan (r : FReg) (i j : Nat) (v : Word) : (s.setReg r i j v).plan = s.plan := rfl
@[simp] theorem State.setReg_lanes (r : FReg) (i j : Nat) (v : Word) : (s.setReg r i j v).lanes = s.lanes := rfl
@[simp] theorem State.setReg_links (r : FReg) (i j : Nat) (v : Word) : (s.setReg r i j v).links = s.links := rfl
@[simp] theorem State.setReg_tim (r : FReg) (i j : Nat) (v : Word) : (s.setReg r i j v).tim = s.tim := rfl
@[simp] theorem State.setReg_srcs (r : FReg) (i j : Nat) (v : Word) : (s.setReg r i j v).srcs = s.srcs := rfl
@[simp] theorem State.setReg_decs (r : FReg) (i j : Nat) (v : Word) : (s.setReg r i j v).decs = s.decs := rfl
@[simp] theorem State.setReg_cores (r : FReg) (i j : Nat) (v : Word) : (s.setReg r i j v).cores = s.cores := rfl
@[simp] theorem State.setReg_coreBad (r : FReg) (i j : Nat) (v : Word) : (s.setReg r i j v).coreBad = s.coreBad := rfl
@[simp] theorem State.setReg_coreOut (r : FReg) (i j : Nat) (v : Word) : (s.setReg r i j v).coreOut = s.coreOut := rfl
@[simp] theorem State.setReg_heads (r : FReg) (i j : Nat) (v : Word) : (s.setReg r i j v).heads = s.heads := rfl
@[simp] theorem State.setReg_wbs (r : FReg) (i j : Nat) (v : Word) : (s.setReg r i j v).wbs = s.wbs := rfl
@[simp] theorem State.setReg_encs (r : FReg) (i j : Nat) (v : Word) : (s.setReg r i j v).encs = s.encs := rfl
@[simp] theorem State.setReg_panels (r : FReg) (i j : Nat) (v : Word) : (s.setReg r i j v).panels = s.panels := rfl
@[simp] theorem State.setReg_jrn (r : FReg) (i j : Nat) (v : Word) : (s.setReg r i j v).jrn = s.jrn := rfl
@[simp] theorem State.setReg_tnd (r : FReg) (i j : Nat) (v : Word) : (s.setReg r i j v).tnd = s.tnd := rfl
@[simp] theorem State.setReg_wdn (r : FReg) (i j : Nat) (v : Word) : (s.setReg r i j v).wdn = s.wdn := rfl
@[simp] theorem State.setReg_flash (r : FReg) (i j : Nat) (v : Word) : (s.setReg r i j v).flash = s.flash := rfl
@[simp] theorem State.setReg_otp (r : FReg) (i j : Nat) (v : Word) : (s.setReg r i j v).otp = s.otp := rfl
@[simp] theorem State.setReg_pending (r : FReg) (i j : Nat) (v : Word) : (s.setReg r i j v).pending = s.pending := rfl

/-! ### setFld -/

@[simp] theorem State.setFld_powered (r : FReg) (i j lo n v : Nat) : (s.setFld r i j lo n v).powered = s.powered := rfl
@[simp] theorem State.setFld_fabricUp (r : FReg) (i j lo n v : Nat) : (s.setFld r i j lo n v).fabricUp = s.fabricUp := rfl
@[simp] theorem State.setFld_bus (r : FReg) (i j lo n v : Nat) : (s.setFld r i j lo n v).bus = s.bus := rfl
@[simp] theorem State.setFld_plan (r : FReg) (i j lo n v : Nat) : (s.setFld r i j lo n v).plan = s.plan := rfl
@[simp] theorem State.setFld_lanes (r : FReg) (i j lo n v : Nat) : (s.setFld r i j lo n v).lanes = s.lanes := rfl
@[simp] theorem State.setFld_links (r : FReg) (i j lo n v : Nat) : (s.setFld r i j lo n v).links = s.links := rfl
@[simp] theorem State.setFld_tim (r : FReg) (i j lo n v : Nat) : (s.setFld r i j lo n v).tim = s.tim := rfl
@[simp] theorem State.setFld_srcs (r : FReg) (i j lo n v : Nat) : (s.setFld r i j lo n v).srcs = s.srcs := rfl
@[simp] theorem State.setFld_decs (r : FReg) (i j lo n v : Nat) : (s.setFld r i j lo n v).decs = s.decs := rfl
@[simp] theorem State.setFld_cores (r : FReg) (i j lo n v : Nat) : (s.setFld r i j lo n v).cores = s.cores := rfl
@[simp] theorem State.setFld_coreBad (r : FReg) (i j lo n v : Nat) : (s.setFld r i j lo n v).coreBad = s.coreBad := rfl
@[simp] theorem State.setFld_coreOut (r : FReg) (i j lo n v : Nat) : (s.setFld r i j lo n v).coreOut = s.coreOut := rfl
@[simp] theorem State.setFld_heads (r : FReg) (i j lo n v : Nat) : (s.setFld r i j lo n v).heads = s.heads := rfl
@[simp] theorem State.setFld_wbs (r : FReg) (i j lo n v : Nat) : (s.setFld r i j lo n v).wbs = s.wbs := rfl
@[simp] theorem State.setFld_encs (r : FReg) (i j lo n v : Nat) : (s.setFld r i j lo n v).encs = s.encs := rfl
@[simp] theorem State.setFld_panels (r : FReg) (i j lo n v : Nat) : (s.setFld r i j lo n v).panels = s.panels := rfl
@[simp] theorem State.setFld_jrn (r : FReg) (i j lo n v : Nat) : (s.setFld r i j lo n v).jrn = s.jrn := rfl
@[simp] theorem State.setFld_tnd (r : FReg) (i j lo n v : Nat) : (s.setFld r i j lo n v).tnd = s.tnd := rfl
@[simp] theorem State.setFld_wdn (r : FReg) (i j lo n v : Nat) : (s.setFld r i j lo n v).wdn = s.wdn := rfl
@[simp] theorem State.setFld_flash (r : FReg) (i j lo n v : Nat) : (s.setFld r i j lo n v).flash = s.flash := rfl
@[simp] theorem State.setFld_otp (r : FReg) (i j lo n v : Nat) : (s.setFld r i j lo n v).otp = s.otp := rfl
@[simp] theorem State.setFld_pending (r : FReg) (i j lo n v : Nat) : (s.setFld r i j lo n v).pending = s.pending := rfl

/-! ### bump -/

@[simp] theorem State.bump_powered (r : FReg) (i j n : Nat) : (s.bump r i j n).powered = s.powered := rfl
@[simp] theorem State.bump_fabricUp (r : FReg) (i j n : Nat) : (s.bump r i j n).fabricUp = s.fabricUp := rfl
@[simp] theorem State.bump_bus (r : FReg) (i j n : Nat) : (s.bump r i j n).bus = s.bus := rfl
@[simp] theorem State.bump_plan (r : FReg) (i j n : Nat) : (s.bump r i j n).plan = s.plan := rfl
@[simp] theorem State.bump_lanes (r : FReg) (i j n : Nat) : (s.bump r i j n).lanes = s.lanes := rfl
@[simp] theorem State.bump_links (r : FReg) (i j n : Nat) : (s.bump r i j n).links = s.links := rfl
@[simp] theorem State.bump_tim (r : FReg) (i j n : Nat) : (s.bump r i j n).tim = s.tim := rfl
@[simp] theorem State.bump_srcs (r : FReg) (i j n : Nat) : (s.bump r i j n).srcs = s.srcs := rfl
@[simp] theorem State.bump_decs (r : FReg) (i j n : Nat) : (s.bump r i j n).decs = s.decs := rfl
@[simp] theorem State.bump_cores (r : FReg) (i j n : Nat) : (s.bump r i j n).cores = s.cores := rfl
@[simp] theorem State.bump_coreBad (r : FReg) (i j n : Nat) : (s.bump r i j n).coreBad = s.coreBad := rfl
@[simp] theorem State.bump_coreOut (r : FReg) (i j n : Nat) : (s.bump r i j n).coreOut = s.coreOut := rfl
@[simp] theorem State.bump_heads (r : FReg) (i j n : Nat) : (s.bump r i j n).heads = s.heads := rfl
@[simp] theorem State.bump_wbs (r : FReg) (i j n : Nat) : (s.bump r i j n).wbs = s.wbs := rfl
@[simp] theorem State.bump_encs (r : FReg) (i j n : Nat) : (s.bump r i j n).encs = s.encs := rfl
@[simp] theorem State.bump_panels (r : FReg) (i j n : Nat) : (s.bump r i j n).panels = s.panels := rfl
@[simp] theorem State.bump_jrn (r : FReg) (i j n : Nat) : (s.bump r i j n).jrn = s.jrn := rfl
@[simp] theorem State.bump_tnd (r : FReg) (i j n : Nat) : (s.bump r i j n).tnd = s.tnd := rfl
@[simp] theorem State.bump_wdn (r : FReg) (i j n : Nat) : (s.bump r i j n).wdn = s.wdn := rfl
@[simp] theorem State.bump_flash (r : FReg) (i j n : Nat) : (s.bump r i j n).flash = s.flash := rfl
@[simp] theorem State.bump_otp (r : FReg) (i j n : Nat) : (s.bump r i j n).otp = s.otp := rfl
@[simp] theorem State.bump_pending (r : FReg) (i j n : Nat) : (s.bump r i j n).pending = s.pending := rfl

/-! ### setPair -/

@[simp] theorem State.setPair_powered (lo hi : FReg) (i j v : Nat) : (s.setPair lo hi i j v).powered = s.powered := rfl
@[simp] theorem State.setPair_fabricUp (lo hi : FReg) (i j v : Nat) : (s.setPair lo hi i j v).fabricUp = s.fabricUp := rfl
@[simp] theorem State.setPair_bus (lo hi : FReg) (i j v : Nat) : (s.setPair lo hi i j v).bus = s.bus := rfl
@[simp] theorem State.setPair_plan (lo hi : FReg) (i j v : Nat) : (s.setPair lo hi i j v).plan = s.plan := rfl
@[simp] theorem State.setPair_lanes (lo hi : FReg) (i j v : Nat) : (s.setPair lo hi i j v).lanes = s.lanes := rfl
@[simp] theorem State.setPair_links (lo hi : FReg) (i j v : Nat) : (s.setPair lo hi i j v).links = s.links := rfl
@[simp] theorem State.setPair_tim (lo hi : FReg) (i j v : Nat) : (s.setPair lo hi i j v).tim = s.tim := rfl
@[simp] theorem State.setPair_srcs (lo hi : FReg) (i j v : Nat) : (s.setPair lo hi i j v).srcs = s.srcs := rfl
@[simp] theorem State.setPair_decs (lo hi : FReg) (i j v : Nat) : (s.setPair lo hi i j v).decs = s.decs := rfl
@[simp] theorem State.setPair_cores (lo hi : FReg) (i j v : Nat) : (s.setPair lo hi i j v).cores = s.cores := rfl
@[simp] theorem State.setPair_coreBad (lo hi : FReg) (i j v : Nat) : (s.setPair lo hi i j v).coreBad = s.coreBad := rfl
@[simp] theorem State.setPair_coreOut (lo hi : FReg) (i j v : Nat) : (s.setPair lo hi i j v).coreOut = s.coreOut := rfl
@[simp] theorem State.setPair_heads (lo hi : FReg) (i j v : Nat) : (s.setPair lo hi i j v).heads = s.heads := rfl
@[simp] theorem State.setPair_wbs (lo hi : FReg) (i j v : Nat) : (s.setPair lo hi i j v).wbs = s.wbs := rfl
@[simp] theorem State.setPair_encs (lo hi : FReg) (i j v : Nat) : (s.setPair lo hi i j v).encs = s.encs := rfl
@[simp] theorem State.setPair_panels (lo hi : FReg) (i j v : Nat) : (s.setPair lo hi i j v).panels = s.panels := rfl
@[simp] theorem State.setPair_jrn (lo hi : FReg) (i j v : Nat) : (s.setPair lo hi i j v).jrn = s.jrn := rfl
@[simp] theorem State.setPair_tnd (lo hi : FReg) (i j v : Nat) : (s.setPair lo hi i j v).tnd = s.tnd := rfl
@[simp] theorem State.setPair_wdn (lo hi : FReg) (i j v : Nat) : (s.setPair lo hi i j v).wdn = s.wdn := rfl
@[simp] theorem State.setPair_flash (lo hi : FReg) (i j v : Nat) : (s.setPair lo hi i j v).flash = s.flash := rfl
@[simp] theorem State.setPair_otp (lo hi : FReg) (i j v : Nat) : (s.setPair lo hi i j v).otp = s.otp := rfl
@[simp] theorem State.setPair_pending (lo hi : FReg) (i j v : Nat) : (s.setPair lo hi i j v).pending = s.pending := rfl

/-! ### onBus -/

@[simp] theorem State.onBus_powered (f : Bus → Bus) : (s.onBus f).powered = s.powered := rfl
@[simp] theorem State.onBus_fabricUp (f : Bus → Bus) : (s.onBus f).fabricUp = s.fabricUp := rfl
@[simp] theorem State.onBus_plan (f : Bus → Bus) : (s.onBus f).plan = s.plan := rfl
@[simp] theorem State.onBus_fregs (f : Bus → Bus) : (s.onBus f).fregs = s.fregs := rfl
@[simp] theorem State.onBus_lanes (f : Bus → Bus) : (s.onBus f).lanes = s.lanes := rfl
@[simp] theorem State.onBus_links (f : Bus → Bus) : (s.onBus f).links = s.links := rfl
@[simp] theorem State.onBus_tim (f : Bus → Bus) : (s.onBus f).tim = s.tim := rfl
@[simp] theorem State.onBus_srcs (f : Bus → Bus) : (s.onBus f).srcs = s.srcs := rfl
@[simp] theorem State.onBus_decs (f : Bus → Bus) : (s.onBus f).decs = s.decs := rfl
@[simp] theorem State.onBus_cores (f : Bus → Bus) : (s.onBus f).cores = s.cores := rfl
@[simp] theorem State.onBus_coreBad (f : Bus → Bus) : (s.onBus f).coreBad = s.coreBad := rfl
@[simp] theorem State.onBus_coreOut (f : Bus → Bus) : (s.onBus f).coreOut = s.coreOut := rfl
@[simp] theorem State.onBus_heads (f : Bus → Bus) : (s.onBus f).heads = s.heads := rfl
@[simp] theorem State.onBus_wbs (f : Bus → Bus) : (s.onBus f).wbs = s.wbs := rfl
@[simp] theorem State.onBus_encs (f : Bus → Bus) : (s.onBus f).encs = s.encs := rfl
@[simp] theorem State.onBus_panels (f : Bus → Bus) : (s.onBus f).panels = s.panels := rfl
@[simp] theorem State.onBus_jrn (f : Bus → Bus) : (s.onBus f).jrn = s.jrn := rfl
@[simp] theorem State.onBus_tnd (f : Bus → Bus) : (s.onBus f).tnd = s.tnd := rfl
@[simp] theorem State.onBus_wdn (f : Bus → Bus) : (s.onBus f).wdn = s.wdn := rfl
@[simp] theorem State.onBus_flash (f : Bus → Bus) : (s.onBus f).flash = s.flash := rfl
@[simp] theorem State.onBus_otp (f : Bus → Bus) : (s.onBus f).otp = s.otp := rfl
@[simp] theorem State.onBus_pending (f : Bus → Bus) : (s.onBus f).pending = s.pending := rfl

/-! ### emit -/

@[simp] theorem State.emit_powered (typ inst sev : Nat) (p : Payload) : (s.emit typ inst sev p).powered = s.powered := rfl
@[simp] theorem State.emit_fabricUp (typ inst sev : Nat) (p : Payload) : (s.emit typ inst sev p).fabricUp = s.fabricUp := rfl
@[simp] theorem State.emit_plan (typ inst sev : Nat) (p : Payload) : (s.emit typ inst sev p).plan = s.plan := rfl
@[simp] theorem State.emit_fregs (typ inst sev : Nat) (p : Payload) : (s.emit typ inst sev p).fregs = s.fregs := rfl
@[simp] theorem State.emit_lanes (typ inst sev : Nat) (p : Payload) : (s.emit typ inst sev p).lanes = s.lanes := rfl
@[simp] theorem State.emit_links (typ inst sev : Nat) (p : Payload) : (s.emit typ inst sev p).links = s.links := rfl
@[simp] theorem State.emit_tim (typ inst sev : Nat) (p : Payload) : (s.emit typ inst sev p).tim = s.tim := rfl
@[simp] theorem State.emit_srcs (typ inst sev : Nat) (p : Payload) : (s.emit typ inst sev p).srcs = s.srcs := rfl
@[simp] theorem State.emit_decs (typ inst sev : Nat) (p : Payload) : (s.emit typ inst sev p).decs = s.decs := rfl
@[simp] theorem State.emit_cores (typ inst sev : Nat) (p : Payload) : (s.emit typ inst sev p).cores = s.cores := rfl
@[simp] theorem State.emit_coreBad (typ inst sev : Nat) (p : Payload) : (s.emit typ inst sev p).coreBad = s.coreBad := rfl
@[simp] theorem State.emit_coreOut (typ inst sev : Nat) (p : Payload) : (s.emit typ inst sev p).coreOut = s.coreOut := rfl
@[simp] theorem State.emit_heads (typ inst sev : Nat) (p : Payload) : (s.emit typ inst sev p).heads = s.heads := rfl
@[simp] theorem State.emit_wbs (typ inst sev : Nat) (p : Payload) : (s.emit typ inst sev p).wbs = s.wbs := rfl
@[simp] theorem State.emit_encs (typ inst sev : Nat) (p : Payload) : (s.emit typ inst sev p).encs = s.encs := rfl
@[simp] theorem State.emit_panels (typ inst sev : Nat) (p : Payload) : (s.emit typ inst sev p).panels = s.panels := rfl
@[simp] theorem State.emit_jrn (typ inst sev : Nat) (p : Payload) : (s.emit typ inst sev p).jrn = s.jrn := rfl
@[simp] theorem State.emit_tnd (typ inst sev : Nat) (p : Payload) : (s.emit typ inst sev p).tnd = s.tnd := rfl
@[simp] theorem State.emit_wdn (typ inst sev : Nat) (p : Payload) : (s.emit typ inst sev p).wdn = s.wdn := rfl
@[simp] theorem State.emit_flash (typ inst sev : Nat) (p : Payload) : (s.emit typ inst sev p).flash = s.flash := rfl
@[simp] theorem State.emit_otp (typ inst sev : Nat) (p : Payload) : (s.emit typ inst sev p).otp = s.otp := rfl
@[simp] theorem State.emit_pending (typ inst sev : Nat) (p : Payload) : (s.emit typ inst sev p).pending = s.pending := rfl

/-! ### emitAt -/

@[simp] theorem State.emitAt_powered (time : Word) (frame : Option Word) (typ inst sev : Nat) (p : Payload) : (s.emitAt time frame typ inst sev p).powered = s.powered := rfl
@[simp] theorem State.emitAt_fabricUp (time : Word) (frame : Option Word) (typ inst sev : Nat) (p : Payload) : (s.emitAt time frame typ inst sev p).fabricUp = s.fabricUp := rfl
@[simp] theorem State.emitAt_plan (time : Word) (frame : Option Word) (typ inst sev : Nat) (p : Payload) : (s.emitAt time frame typ inst sev p).plan = s.plan := rfl
@[simp] theorem State.emitAt_fregs (time : Word) (frame : Option Word) (typ inst sev : Nat) (p : Payload) : (s.emitAt time frame typ inst sev p).fregs = s.fregs := rfl
@[simp] theorem State.emitAt_lanes (time : Word) (frame : Option Word) (typ inst sev : Nat) (p : Payload) : (s.emitAt time frame typ inst sev p).lanes = s.lanes := rfl
@[simp] theorem State.emitAt_links (time : Word) (frame : Option Word) (typ inst sev : Nat) (p : Payload) : (s.emitAt time frame typ inst sev p).links = s.links := rfl
@[simp] theorem State.emitAt_tim (time : Word) (frame : Option Word) (typ inst sev : Nat) (p : Payload) : (s.emitAt time frame typ inst sev p).tim = s.tim := rfl
@[simp] theorem State.emitAt_srcs (time : Word) (frame : Option Word) (typ inst sev : Nat) (p : Payload) : (s.emitAt time frame typ inst sev p).srcs = s.srcs := rfl
@[simp] theorem State.emitAt_decs (time : Word) (frame : Option Word) (typ inst sev : Nat) (p : Payload) : (s.emitAt time frame typ inst sev p).decs = s.decs := rfl
@[simp] theorem State.emitAt_cores (time : Word) (frame : Option Word) (typ inst sev : Nat) (p : Payload) : (s.emitAt time frame typ inst sev p).cores = s.cores := rfl
@[simp] theorem State.emitAt_coreBad (time : Word) (frame : Option Word) (typ inst sev : Nat) (p : Payload) : (s.emitAt time frame typ inst sev p).coreBad = s.coreBad := rfl
@[simp] theorem State.emitAt_coreOut (time : Word) (frame : Option Word) (typ inst sev : Nat) (p : Payload) : (s.emitAt time frame typ inst sev p).coreOut = s.coreOut := rfl
@[simp] theorem State.emitAt_heads (time : Word) (frame : Option Word) (typ inst sev : Nat) (p : Payload) : (s.emitAt time frame typ inst sev p).heads = s.heads := rfl
@[simp] theorem State.emitAt_wbs (time : Word) (frame : Option Word) (typ inst sev : Nat) (p : Payload) : (s.emitAt time frame typ inst sev p).wbs = s.wbs := rfl
@[simp] theorem State.emitAt_encs (time : Word) (frame : Option Word) (typ inst sev : Nat) (p : Payload) : (s.emitAt time frame typ inst sev p).encs = s.encs := rfl
@[simp] theorem State.emitAt_panels (time : Word) (frame : Option Word) (typ inst sev : Nat) (p : Payload) : (s.emitAt time frame typ inst sev p).panels = s.panels := rfl
@[simp] theorem State.emitAt_jrn (time : Word) (frame : Option Word) (typ inst sev : Nat) (p : Payload) : (s.emitAt time frame typ inst sev p).jrn = s.jrn := rfl
@[simp] theorem State.emitAt_tnd (time : Word) (frame : Option Word) (typ inst sev : Nat) (p : Payload) : (s.emitAt time frame typ inst sev p).tnd = s.tnd := rfl
@[simp] theorem State.emitAt_wdn (time : Word) (frame : Option Word) (typ inst sev : Nat) (p : Payload) : (s.emitAt time frame typ inst sev p).wdn = s.wdn := rfl
@[simp] theorem State.emitAt_flash (time : Word) (frame : Option Word) (typ inst sev : Nat) (p : Payload) : (s.emitAt time frame typ inst sev p).flash = s.flash := rfl
@[simp] theorem State.emitAt_otp (time : Word) (frame : Option Word) (typ inst sev : Nat) (p : Payload) : (s.emitAt time frame typ inst sev p).otp = s.otp := rfl
@[simp] theorem State.emitAt_pending (time : Word) (frame : Option Word) (typ inst sev : Nat) (p : Payload) : (s.emitAt time frame typ inst sev p).pending = s.pending := rfl

/-! ### send -/

@[simp] theorem State.send_powered (o : Out) : (s.send o).powered = s.powered := rfl
@[simp] theorem State.send_fabricUp (o : Out) : (s.send o).fabricUp = s.fabricUp := rfl
@[simp] theorem State.send_plan (o : Out) : (s.send o).plan = s.plan := rfl
@[simp] theorem State.send_fregs (o : Out) : (s.send o).fregs = s.fregs := rfl
@[simp] theorem State.send_lanes (o : Out) : (s.send o).lanes = s.lanes := rfl
@[simp] theorem State.send_links (o : Out) : (s.send o).links = s.links := rfl
@[simp] theorem State.send_tim (o : Out) : (s.send o).tim = s.tim := rfl
@[simp] theorem State.send_srcs (o : Out) : (s.send o).srcs = s.srcs := rfl
@[simp] theorem State.send_decs (o : Out) : (s.send o).decs = s.decs := rfl
@[simp] theorem State.send_cores (o : Out) : (s.send o).cores = s.cores := rfl
@[simp] theorem State.send_coreBad (o : Out) : (s.send o).coreBad = s.coreBad := rfl
@[simp] theorem State.send_coreOut (o : Out) : (s.send o).coreOut = s.coreOut := rfl
@[simp] theorem State.send_heads (o : Out) : (s.send o).heads = s.heads := rfl
@[simp] theorem State.send_wbs (o : Out) : (s.send o).wbs = s.wbs := rfl
@[simp] theorem State.send_encs (o : Out) : (s.send o).encs = s.encs := rfl
@[simp] theorem State.send_panels (o : Out) : (s.send o).panels = s.panels := rfl
@[simp] theorem State.send_jrn (o : Out) : (s.send o).jrn = s.jrn := rfl
@[simp] theorem State.send_tnd (o : Out) : (s.send o).tnd = s.tnd := rfl
@[simp] theorem State.send_wdn (o : Out) : (s.send o).wdn = s.wdn := rfl
@[simp] theorem State.send_flash (o : Out) : (s.send o).flash = s.flash := rfl
@[simp] theorem State.send_otp (o : Out) : (s.send o).otp = s.otp := rfl
@[simp] theorem State.send_pending (o : Out) : (s.send o).pending = s.pending := rfl

/-! ### complete -/

@[simp] theorem State.complete_powered (r k st reason : Nat) : (s.complete r k st reason).powered = s.powered := rfl
@[simp] theorem State.complete_fabricUp (r k st reason : Nat) : (s.complete r k st reason).fabricUp = s.fabricUp := rfl
@[simp] theorem State.complete_plan (r k st reason : Nat) : (s.complete r k st reason).plan = s.plan := rfl
@[simp] theorem State.complete_fregs (r k st reason : Nat) : (s.complete r k st reason).fregs = s.fregs := rfl
@[simp] theorem State.complete_lanes (r k st reason : Nat) : (s.complete r k st reason).lanes = s.lanes := rfl
@[simp] theorem State.complete_links (r k st reason : Nat) : (s.complete r k st reason).links = s.links := rfl
@[simp] theorem State.complete_tim (r k st reason : Nat) : (s.complete r k st reason).tim = s.tim := rfl
@[simp] theorem State.complete_srcs (r k st reason : Nat) : (s.complete r k st reason).srcs = s.srcs := rfl
@[simp] theorem State.complete_decs (r k st reason : Nat) : (s.complete r k st reason).decs = s.decs := rfl
@[simp] theorem State.complete_cores (r k st reason : Nat) : (s.complete r k st reason).cores = s.cores := rfl
@[simp] theorem State.complete_coreBad (r k st reason : Nat) : (s.complete r k st reason).coreBad = s.coreBad := rfl
@[simp] theorem State.complete_coreOut (r k st reason : Nat) : (s.complete r k st reason).coreOut = s.coreOut := rfl
@[simp] theorem State.complete_heads (r k st reason : Nat) : (s.complete r k st reason).heads = s.heads := rfl
@[simp] theorem State.complete_wbs (r k st reason : Nat) : (s.complete r k st reason).wbs = s.wbs := rfl
@[simp] theorem State.complete_encs (r k st reason : Nat) : (s.complete r k st reason).encs = s.encs := rfl
@[simp] theorem State.complete_panels (r k st reason : Nat) : (s.complete r k st reason).panels = s.panels := rfl
@[simp] theorem State.complete_jrn (r k st reason : Nat) : (s.complete r k st reason).jrn = s.jrn := rfl
@[simp] theorem State.complete_tnd (r k st reason : Nat) : (s.complete r k st reason).tnd = s.tnd := rfl
@[simp] theorem State.complete_wdn (r k st reason : Nat) : (s.complete r k st reason).wdn = s.wdn := rfl
@[simp] theorem State.complete_flash (r k st reason : Nat) : (s.complete r k st reason).flash = s.flash := rfl
@[simp] theorem State.complete_otp (r k st reason : Nat) : (s.complete r k st reason).otp = s.otp := rfl
@[simp] theorem State.complete_pending (r k st reason : Nat) : (s.complete r k st reason).pending = s.pending := rfl

/-! ### settle -/

@[simp] theorem State.settle_powered : s.settle.powered = s.powered := rfl
@[simp] theorem State.settle_fabricUp : s.settle.fabricUp = s.fabricUp := rfl
@[simp] theorem State.settle_plan : s.settle.plan = s.plan := rfl
@[simp] theorem State.settle_fregs : s.settle.fregs = s.fregs := rfl
@[simp] theorem State.settle_lanes : s.settle.lanes = s.lanes := rfl
@[simp] theorem State.settle_links : s.settle.links = s.links := rfl
@[simp] theorem State.settle_tim : s.settle.tim = s.tim := rfl
@[simp] theorem State.settle_srcs : s.settle.srcs = s.srcs := rfl
@[simp] theorem State.settle_decs : s.settle.decs = s.decs := rfl
@[simp] theorem State.settle_cores : s.settle.cores = s.cores := rfl
@[simp] theorem State.settle_coreBad : s.settle.coreBad = s.coreBad := rfl
@[simp] theorem State.settle_coreOut : s.settle.coreOut = s.coreOut := rfl
@[simp] theorem State.settle_heads : s.settle.heads = s.heads := rfl
@[simp] theorem State.settle_wbs : s.settle.wbs = s.wbs := rfl
@[simp] theorem State.settle_encs : s.settle.encs = s.encs := rfl
@[simp] theorem State.settle_panels : s.settle.panels = s.panels := rfl
@[simp] theorem State.settle_jrn : s.settle.jrn = s.jrn := rfl
@[simp] theorem State.settle_tnd : s.settle.tnd = s.tnd := rfl
@[simp] theorem State.settle_wdn : s.settle.wdn = s.wdn := rfl
@[simp] theorem State.settle_flash : s.settle.flash = s.flash := rfl
@[simp] theorem State.settle_otp : s.settle.otp = s.otp := rfl
@[simp] theorem State.settle_pending : s.settle.pending = s.pending := rfl

/-! ### setLink -/

@[simp] theorem State.setLink_powered (p : Nat) (x : LinkSt) : (s.setLink p x).powered = s.powered := rfl
@[simp] theorem State.setLink_fabricUp (p : Nat) (x : LinkSt) : (s.setLink p x).fabricUp = s.fabricUp := rfl
@[simp] theorem State.setLink_bus (p : Nat) (x : LinkSt) : (s.setLink p x).bus = s.bus := rfl
@[simp] theorem State.setLink_plan (p : Nat) (x : LinkSt) : (s.setLink p x).plan = s.plan := rfl
@[simp] theorem State.setLink_fregs (p : Nat) (x : LinkSt) : (s.setLink p x).fregs = s.fregs := rfl
@[simp] theorem State.setLink_lanes (p : Nat) (x : LinkSt) : (s.setLink p x).lanes = s.lanes := rfl
@[simp] theorem State.setLink_tim (p : Nat) (x : LinkSt) : (s.setLink p x).tim = s.tim := rfl
@[simp] theorem State.setLink_srcs (p : Nat) (x : LinkSt) : (s.setLink p x).srcs = s.srcs := rfl
@[simp] theorem State.setLink_decs (p : Nat) (x : LinkSt) : (s.setLink p x).decs = s.decs := rfl
@[simp] theorem State.setLink_cores (p : Nat) (x : LinkSt) : (s.setLink p x).cores = s.cores := rfl
@[simp] theorem State.setLink_coreBad (p : Nat) (x : LinkSt) : (s.setLink p x).coreBad = s.coreBad := rfl
@[simp] theorem State.setLink_coreOut (p : Nat) (x : LinkSt) : (s.setLink p x).coreOut = s.coreOut := rfl
@[simp] theorem State.setLink_heads (p : Nat) (x : LinkSt) : (s.setLink p x).heads = s.heads := rfl
@[simp] theorem State.setLink_wbs (p : Nat) (x : LinkSt) : (s.setLink p x).wbs = s.wbs := rfl
@[simp] theorem State.setLink_encs (p : Nat) (x : LinkSt) : (s.setLink p x).encs = s.encs := rfl
@[simp] theorem State.setLink_panels (p : Nat) (x : LinkSt) : (s.setLink p x).panels = s.panels := rfl
@[simp] theorem State.setLink_jrn (p : Nat) (x : LinkSt) : (s.setLink p x).jrn = s.jrn := rfl
@[simp] theorem State.setLink_tnd (p : Nat) (x : LinkSt) : (s.setLink p x).tnd = s.tnd := rfl
@[simp] theorem State.setLink_wdn (p : Nat) (x : LinkSt) : (s.setLink p x).wdn = s.wdn := rfl
@[simp] theorem State.setLink_flash (p : Nat) (x : LinkSt) : (s.setLink p x).flash = s.flash := rfl
@[simp] theorem State.setLink_otp (p : Nat) (x : LinkSt) : (s.setLink p x).otp = s.otp := rfl
@[simp] theorem State.setLink_pending (p : Nat) (x : LinkSt) : (s.setLink p x).pending = s.pending := rfl

/-! ### setLane -/

@[simp] theorem State.setLane_powered (p : Nat) (x : LaneSt) : (s.setLane p x).powered = s.powered := rfl
@[simp] theorem State.setLane_fabricUp (p : Nat) (x : LaneSt) : (s.setLane p x).fabricUp = s.fabricUp := rfl
@[simp] theorem State.setLane_bus (p : Nat) (x : LaneSt) : (s.setLane p x).bus = s.bus := rfl
@[simp] theorem State.setLane_plan (p : Nat) (x : LaneSt) : (s.setLane p x).plan = s.plan := rfl
@[simp] theorem State.setLane_fregs (p : Nat) (x : LaneSt) : (s.setLane p x).fregs = s.fregs := rfl
@[simp] theorem State.setLane_links (p : Nat) (x : LaneSt) : (s.setLane p x).links = s.links := rfl
@[simp] theorem State.setLane_tim (p : Nat) (x : LaneSt) : (s.setLane p x).tim = s.tim := rfl
@[simp] theorem State.setLane_srcs (p : Nat) (x : LaneSt) : (s.setLane p x).srcs = s.srcs := rfl
@[simp] theorem State.setLane_decs (p : Nat) (x : LaneSt) : (s.setLane p x).decs = s.decs := rfl
@[simp] theorem State.setLane_cores (p : Nat) (x : LaneSt) : (s.setLane p x).cores = s.cores := rfl
@[simp] theorem State.setLane_coreBad (p : Nat) (x : LaneSt) : (s.setLane p x).coreBad = s.coreBad := rfl
@[simp] theorem State.setLane_coreOut (p : Nat) (x : LaneSt) : (s.setLane p x).coreOut = s.coreOut := rfl
@[simp] theorem State.setLane_heads (p : Nat) (x : LaneSt) : (s.setLane p x).heads = s.heads := rfl
@[simp] theorem State.setLane_wbs (p : Nat) (x : LaneSt) : (s.setLane p x).wbs = s.wbs := rfl
@[simp] theorem State.setLane_encs (p : Nat) (x : LaneSt) : (s.setLane p x).encs = s.encs := rfl
@[simp] theorem State.setLane_panels (p : Nat) (x : LaneSt) : (s.setLane p x).panels = s.panels := rfl
@[simp] theorem State.setLane_jrn (p : Nat) (x : LaneSt) : (s.setLane p x).jrn = s.jrn := rfl
@[simp] theorem State.setLane_tnd (p : Nat) (x : LaneSt) : (s.setLane p x).tnd = s.tnd := rfl
@[simp] theorem State.setLane_wdn (p : Nat) (x : LaneSt) : (s.setLane p x).wdn = s.wdn := rfl
@[simp] theorem State.setLane_flash (p : Nat) (x : LaneSt) : (s.setLane p x).flash = s.flash := rfl
@[simp] theorem State.setLane_otp (p : Nat) (x : LaneSt) : (s.setLane p x).otp = s.otp := rfl
@[simp] theorem State.setLane_pending (p : Nat) (x : LaneSt) : (s.setLane p x).pending = s.pending := rfl

/-! ### setPan -/

@[simp] theorem State.setPan_powered (p : Nat) (x : PanelSt) : (s.setPan p x).powered = s.powered := rfl
@[simp] theorem State.setPan_fabricUp (p : Nat) (x : PanelSt) : (s.setPan p x).fabricUp = s.fabricUp := rfl
@[simp] theorem State.setPan_bus (p : Nat) (x : PanelSt) : (s.setPan p x).bus = s.bus := rfl
@[simp] theorem State.setPan_plan (p : Nat) (x : PanelSt) : (s.setPan p x).plan = s.plan := rfl
@[simp] theorem State.setPan_fregs (p : Nat) (x : PanelSt) : (s.setPan p x).fregs = s.fregs := rfl
@[simp] theorem State.setPan_lanes (p : Nat) (x : PanelSt) : (s.setPan p x).lanes = s.lanes := rfl
@[simp] theorem State.setPan_links (p : Nat) (x : PanelSt) : (s.setPan p x).links = s.links := rfl
@[simp] theorem State.setPan_tim (p : Nat) (x : PanelSt) : (s.setPan p x).tim = s.tim := rfl
@[simp] theorem State.setPan_srcs (p : Nat) (x : PanelSt) : (s.setPan p x).srcs = s.srcs := rfl
@[simp] theorem State.setPan_decs (p : Nat) (x : PanelSt) : (s.setPan p x).decs = s.decs := rfl
@[simp] theorem State.setPan_cores (p : Nat) (x : PanelSt) : (s.setPan p x).cores = s.cores := rfl
@[simp] theorem State.setPan_coreBad (p : Nat) (x : PanelSt) : (s.setPan p x).coreBad = s.coreBad := rfl
@[simp] theorem State.setPan_coreOut (p : Nat) (x : PanelSt) : (s.setPan p x).coreOut = s.coreOut := rfl
@[simp] theorem State.setPan_heads (p : Nat) (x : PanelSt) : (s.setPan p x).heads = s.heads := rfl
@[simp] theorem State.setPan_wbs (p : Nat) (x : PanelSt) : (s.setPan p x).wbs = s.wbs := rfl
@[simp] theorem State.setPan_encs (p : Nat) (x : PanelSt) : (s.setPan p x).encs = s.encs := rfl
@[simp] theorem State.setPan_jrn (p : Nat) (x : PanelSt) : (s.setPan p x).jrn = s.jrn := rfl
@[simp] theorem State.setPan_tnd (p : Nat) (x : PanelSt) : (s.setPan p x).tnd = s.tnd := rfl
@[simp] theorem State.setPan_wdn (p : Nat) (x : PanelSt) : (s.setPan p x).wdn = s.wdn := rfl
@[simp] theorem State.setPan_flash (p : Nat) (x : PanelSt) : (s.setPan p x).flash = s.flash := rfl
@[simp] theorem State.setPan_otp (p : Nat) (x : PanelSt) : (s.setPan p x).otp = s.otp := rfl
@[simp] theorem State.setPan_pending (p : Nat) (x : PanelSt) : (s.setPan p x).pending = s.pending := rfl

/-! ### setSrc -/

@[simp] theorem State.setSrc_powered (n : Nat) (x : SrcSt) : (s.setSrc n x).powered = s.powered := rfl
@[simp] theorem State.setSrc_fabricUp (n : Nat) (x : SrcSt) : (s.setSrc n x).fabricUp = s.fabricUp := rfl
@[simp] theorem State.setSrc_bus (n : Nat) (x : SrcSt) : (s.setSrc n x).bus = s.bus := rfl
@[simp] theorem State.setSrc_plan (n : Nat) (x : SrcSt) : (s.setSrc n x).plan = s.plan := rfl
@[simp] theorem State.setSrc_fregs (n : Nat) (x : SrcSt) : (s.setSrc n x).fregs = s.fregs := rfl
@[simp] theorem State.setSrc_lanes (n : Nat) (x : SrcSt) : (s.setSrc n x).lanes = s.lanes := rfl
@[simp] theorem State.setSrc_links (n : Nat) (x : SrcSt) : (s.setSrc n x).links = s.links := rfl
@[simp] theorem State.setSrc_tim (n : Nat) (x : SrcSt) : (s.setSrc n x).tim = s.tim := rfl
@[simp] theorem State.setSrc_decs (n : Nat) (x : SrcSt) : (s.setSrc n x).decs = s.decs := rfl
@[simp] theorem State.setSrc_cores (n : Nat) (x : SrcSt) : (s.setSrc n x).cores = s.cores := rfl
@[simp] theorem State.setSrc_coreBad (n : Nat) (x : SrcSt) : (s.setSrc n x).coreBad = s.coreBad := rfl
@[simp] theorem State.setSrc_coreOut (n : Nat) (x : SrcSt) : (s.setSrc n x).coreOut = s.coreOut := rfl
@[simp] theorem State.setSrc_heads (n : Nat) (x : SrcSt) : (s.setSrc n x).heads = s.heads := rfl
@[simp] theorem State.setSrc_wbs (n : Nat) (x : SrcSt) : (s.setSrc n x).wbs = s.wbs := rfl
@[simp] theorem State.setSrc_encs (n : Nat) (x : SrcSt) : (s.setSrc n x).encs = s.encs := rfl
@[simp] theorem State.setSrc_panels (n : Nat) (x : SrcSt) : (s.setSrc n x).panels = s.panels := rfl
@[simp] theorem State.setSrc_jrn (n : Nat) (x : SrcSt) : (s.setSrc n x).jrn = s.jrn := rfl
@[simp] theorem State.setSrc_tnd (n : Nat) (x : SrcSt) : (s.setSrc n x).tnd = s.tnd := rfl
@[simp] theorem State.setSrc_wdn (n : Nat) (x : SrcSt) : (s.setSrc n x).wdn = s.wdn := rfl
@[simp] theorem State.setSrc_flash (n : Nat) (x : SrcSt) : (s.setSrc n x).flash = s.flash := rfl
@[simp] theorem State.setSrc_otp (n : Nat) (x : SrcSt) : (s.setSrc n x).otp = s.otp := rfl
@[simp] theorem State.setSrc_pending (n : Nat) (x : SrcSt) : (s.setSrc n x).pending = s.pending := rfl

/-! ### setDec -/

@[simp] theorem State.setDec_powered (n : Nat) (x : DecSt) : (s.setDec n x).powered = s.powered := rfl
@[simp] theorem State.setDec_fabricUp (n : Nat) (x : DecSt) : (s.setDec n x).fabricUp = s.fabricUp := rfl
@[simp] theorem State.setDec_bus (n : Nat) (x : DecSt) : (s.setDec n x).bus = s.bus := rfl
@[simp] theorem State.setDec_plan (n : Nat) (x : DecSt) : (s.setDec n x).plan = s.plan := rfl
@[simp] theorem State.setDec_fregs (n : Nat) (x : DecSt) : (s.setDec n x).fregs = s.fregs := rfl
@[simp] theorem State.setDec_lanes (n : Nat) (x : DecSt) : (s.setDec n x).lanes = s.lanes := rfl
@[simp] theorem State.setDec_links (n : Nat) (x : DecSt) : (s.setDec n x).links = s.links := rfl
@[simp] theorem State.setDec_tim (n : Nat) (x : DecSt) : (s.setDec n x).tim = s.tim := rfl
@[simp] theorem State.setDec_srcs (n : Nat) (x : DecSt) : (s.setDec n x).srcs = s.srcs := rfl
@[simp] theorem State.setDec_cores (n : Nat) (x : DecSt) : (s.setDec n x).cores = s.cores := rfl
@[simp] theorem State.setDec_coreBad (n : Nat) (x : DecSt) : (s.setDec n x).coreBad = s.coreBad := rfl
@[simp] theorem State.setDec_coreOut (n : Nat) (x : DecSt) : (s.setDec n x).coreOut = s.coreOut := rfl
@[simp] theorem State.setDec_heads (n : Nat) (x : DecSt) : (s.setDec n x).heads = s.heads := rfl
@[simp] theorem State.setDec_wbs (n : Nat) (x : DecSt) : (s.setDec n x).wbs = s.wbs := rfl
@[simp] theorem State.setDec_encs (n : Nat) (x : DecSt) : (s.setDec n x).encs = s.encs := rfl
@[simp] theorem State.setDec_panels (n : Nat) (x : DecSt) : (s.setDec n x).panels = s.panels := rfl
@[simp] theorem State.setDec_jrn (n : Nat) (x : DecSt) : (s.setDec n x).jrn = s.jrn := rfl
@[simp] theorem State.setDec_tnd (n : Nat) (x : DecSt) : (s.setDec n x).tnd = s.tnd := rfl
@[simp] theorem State.setDec_wdn (n : Nat) (x : DecSt) : (s.setDec n x).wdn = s.wdn := rfl
@[simp] theorem State.setDec_flash (n : Nat) (x : DecSt) : (s.setDec n x).flash = s.flash := rfl
@[simp] theorem State.setDec_otp (n : Nat) (x : DecSt) : (s.setDec n x).otp = s.otp := rfl
@[simp] theorem State.setDec_pending (n : Nat) (x : DecSt) : (s.setDec n x).pending = s.pending := rfl

/-! ### setCore -/

@[simp] theorem State.setCore_powered (c : Nat) (x : Option CoreSt) : (s.setCore c x).powered = s.powered := rfl
@[simp] theorem State.setCore_fabricUp (c : Nat) (x : Option CoreSt) : (s.setCore c x).fabricUp = s.fabricUp := rfl
@[simp] theorem State.setCore_bus (c : Nat) (x : Option CoreSt) : (s.setCore c x).bus = s.bus := rfl
@[simp] theorem State.setCore_plan (c : Nat) (x : Option CoreSt) : (s.setCore c x).plan = s.plan := rfl
@[simp] theorem State.setCore_fregs (c : Nat) (x : Option CoreSt) : (s.setCore c x).fregs = s.fregs := rfl
@[simp] theorem State.setCore_lanes (c : Nat) (x : Option CoreSt) : (s.setCore c x).lanes = s.lanes := rfl
@[simp] theorem State.setCore_links (c : Nat) (x : Option CoreSt) : (s.setCore c x).links = s.links := rfl
@[simp] theorem State.setCore_tim (c : Nat) (x : Option CoreSt) : (s.setCore c x).tim = s.tim := rfl
@[simp] theorem State.setCore_srcs (c : Nat) (x : Option CoreSt) : (s.setCore c x).srcs = s.srcs := rfl
@[simp] theorem State.setCore_decs (c : Nat) (x : Option CoreSt) : (s.setCore c x).decs = s.decs := rfl
@[simp] theorem State.setCore_coreBad (c : Nat) (x : Option CoreSt) : (s.setCore c x).coreBad = s.coreBad := rfl
@[simp] theorem State.setCore_coreOut (c : Nat) (x : Option CoreSt) : (s.setCore c x).coreOut = s.coreOut := rfl
@[simp] theorem State.setCore_heads (c : Nat) (x : Option CoreSt) : (s.setCore c x).heads = s.heads := rfl
@[simp] theorem State.setCore_wbs (c : Nat) (x : Option CoreSt) : (s.setCore c x).wbs = s.wbs := rfl
@[simp] theorem State.setCore_encs (c : Nat) (x : Option CoreSt) : (s.setCore c x).encs = s.encs := rfl
@[simp] theorem State.setCore_panels (c : Nat) (x : Option CoreSt) : (s.setCore c x).panels = s.panels := rfl
@[simp] theorem State.setCore_jrn (c : Nat) (x : Option CoreSt) : (s.setCore c x).jrn = s.jrn := rfl
@[simp] theorem State.setCore_tnd (c : Nat) (x : Option CoreSt) : (s.setCore c x).tnd = s.tnd := rfl
@[simp] theorem State.setCore_wdn (c : Nat) (x : Option CoreSt) : (s.setCore c x).wdn = s.wdn := rfl
@[simp] theorem State.setCore_flash (c : Nat) (x : Option CoreSt) : (s.setCore c x).flash = s.flash := rfl
@[simp] theorem State.setCore_otp (c : Nat) (x : Option CoreSt) : (s.setCore c x).otp = s.otp := rfl
@[simp] theorem State.setCore_pending (c : Nat) (x : Option CoreSt) : (s.setCore c x).pending = s.pending := rfl

/-! ### setHead -/

@[simp] theorem State.setHead_powered (h : Nat) (x : HeadSt) : (s.setHead h x).powered = s.powered := rfl
@[simp] theorem State.setHead_fabricUp (h : Nat) (x : HeadSt) : (s.setHead h x).fabricUp = s.fabricUp := rfl
@[simp] theorem State.setHead_bus (h : Nat) (x : HeadSt) : (s.setHead h x).bus = s.bus := rfl
@[simp] theorem State.setHead_plan (h : Nat) (x : HeadSt) : (s.setHead h x).plan = s.plan := rfl
@[simp] theorem State.setHead_fregs (h : Nat) (x : HeadSt) : (s.setHead h x).fregs = s.fregs := rfl
@[simp] theorem State.setHead_lanes (h : Nat) (x : HeadSt) : (s.setHead h x).lanes = s.lanes := rfl
@[simp] theorem State.setHead_links (h : Nat) (x : HeadSt) : (s.setHead h x).links = s.links := rfl
@[simp] theorem State.setHead_tim (h : Nat) (x : HeadSt) : (s.setHead h x).tim = s.tim := rfl
@[simp] theorem State.setHead_srcs (h : Nat) (x : HeadSt) : (s.setHead h x).srcs = s.srcs := rfl
@[simp] theorem State.setHead_decs (h : Nat) (x : HeadSt) : (s.setHead h x).decs = s.decs := rfl
@[simp] theorem State.setHead_cores (h : Nat) (x : HeadSt) : (s.setHead h x).cores = s.cores := rfl
@[simp] theorem State.setHead_coreBad (h : Nat) (x : HeadSt) : (s.setHead h x).coreBad = s.coreBad := rfl
@[simp] theorem State.setHead_coreOut (h : Nat) (x : HeadSt) : (s.setHead h x).coreOut = s.coreOut := rfl
@[simp] theorem State.setHead_wbs (h : Nat) (x : HeadSt) : (s.setHead h x).wbs = s.wbs := rfl
@[simp] theorem State.setHead_encs (h : Nat) (x : HeadSt) : (s.setHead h x).encs = s.encs := rfl
@[simp] theorem State.setHead_panels (h : Nat) (x : HeadSt) : (s.setHead h x).panels = s.panels := rfl
@[simp] theorem State.setHead_jrn (h : Nat) (x : HeadSt) : (s.setHead h x).jrn = s.jrn := rfl
@[simp] theorem State.setHead_tnd (h : Nat) (x : HeadSt) : (s.setHead h x).tnd = s.tnd := rfl
@[simp] theorem State.setHead_wdn (h : Nat) (x : HeadSt) : (s.setHead h x).wdn = s.wdn := rfl
@[simp] theorem State.setHead_flash (h : Nat) (x : HeadSt) : (s.setHead h x).flash = s.flash := rfl
@[simp] theorem State.setHead_otp (h : Nat) (x : HeadSt) : (s.setHead h x).otp = s.otp := rfl
@[simp] theorem State.setHead_pending (h : Nat) (x : HeadSt) : (s.setHead h x).pending = s.pending := rfl

/-! ### setWb -/

@[simp] theorem State.setWb_powered (n : Nat) (x : Option WbSt) : (s.setWb n x).powered = s.powered := rfl
@[simp] theorem State.setWb_fabricUp (n : Nat) (x : Option WbSt) : (s.setWb n x).fabricUp = s.fabricUp := rfl
@[simp] theorem State.setWb_bus (n : Nat) (x : Option WbSt) : (s.setWb n x).bus = s.bus := rfl
@[simp] theorem State.setWb_plan (n : Nat) (x : Option WbSt) : (s.setWb n x).plan = s.plan := rfl
@[simp] theorem State.setWb_fregs (n : Nat) (x : Option WbSt) : (s.setWb n x).fregs = s.fregs := rfl
@[simp] theorem State.setWb_lanes (n : Nat) (x : Option WbSt) : (s.setWb n x).lanes = s.lanes := rfl
@[simp] theorem State.setWb_links (n : Nat) (x : Option WbSt) : (s.setWb n x).links = s.links := rfl
@[simp] theorem State.setWb_tim (n : Nat) (x : Option WbSt) : (s.setWb n x).tim = s.tim := rfl
@[simp] theorem State.setWb_srcs (n : Nat) (x : Option WbSt) : (s.setWb n x).srcs = s.srcs := rfl
@[simp] theorem State.setWb_decs (n : Nat) (x : Option WbSt) : (s.setWb n x).decs = s.decs := rfl
@[simp] theorem State.setWb_cores (n : Nat) (x : Option WbSt) : (s.setWb n x).cores = s.cores := rfl
@[simp] theorem State.setWb_coreBad (n : Nat) (x : Option WbSt) : (s.setWb n x).coreBad = s.coreBad := rfl
@[simp] theorem State.setWb_coreOut (n : Nat) (x : Option WbSt) : (s.setWb n x).coreOut = s.coreOut := rfl
@[simp] theorem State.setWb_heads (n : Nat) (x : Option WbSt) : (s.setWb n x).heads = s.heads := rfl
@[simp] theorem State.setWb_encs (n : Nat) (x : Option WbSt) : (s.setWb n x).encs = s.encs := rfl
@[simp] theorem State.setWb_panels (n : Nat) (x : Option WbSt) : (s.setWb n x).panels = s.panels := rfl
@[simp] theorem State.setWb_jrn (n : Nat) (x : Option WbSt) : (s.setWb n x).jrn = s.jrn := rfl
@[simp] theorem State.setWb_tnd (n : Nat) (x : Option WbSt) : (s.setWb n x).tnd = s.tnd := rfl
@[simp] theorem State.setWb_wdn (n : Nat) (x : Option WbSt) : (s.setWb n x).wdn = s.wdn := rfl
@[simp] theorem State.setWb_flash (n : Nat) (x : Option WbSt) : (s.setWb n x).flash = s.flash := rfl
@[simp] theorem State.setWb_otp (n : Nat) (x : Option WbSt) : (s.setWb n x).otp = s.otp := rfl
@[simp] theorem State.setWb_pending (n : Nat) (x : Option WbSt) : (s.setWb n x).pending = s.pending := rfl

/-! ### setEnc -/

@[simp] theorem State.setEnc_powered (c : Nat) (x : EncSt) : (s.setEnc c x).powered = s.powered := rfl
@[simp] theorem State.setEnc_fabricUp (c : Nat) (x : EncSt) : (s.setEnc c x).fabricUp = s.fabricUp := rfl
@[simp] theorem State.setEnc_bus (c : Nat) (x : EncSt) : (s.setEnc c x).bus = s.bus := rfl
@[simp] theorem State.setEnc_plan (c : Nat) (x : EncSt) : (s.setEnc c x).plan = s.plan := rfl
@[simp] theorem State.setEnc_fregs (c : Nat) (x : EncSt) : (s.setEnc c x).fregs = s.fregs := rfl
@[simp] theorem State.setEnc_lanes (c : Nat) (x : EncSt) : (s.setEnc c x).lanes = s.lanes := rfl
@[simp] theorem State.setEnc_links (c : Nat) (x : EncSt) : (s.setEnc c x).links = s.links := rfl
@[simp] theorem State.setEnc_tim (c : Nat) (x : EncSt) : (s.setEnc c x).tim = s.tim := rfl
@[simp] theorem State.setEnc_srcs (c : Nat) (x : EncSt) : (s.setEnc c x).srcs = s.srcs := rfl
@[simp] theorem State.setEnc_decs (c : Nat) (x : EncSt) : (s.setEnc c x).decs = s.decs := rfl
@[simp] theorem State.setEnc_cores (c : Nat) (x : EncSt) : (s.setEnc c x).cores = s.cores := rfl
@[simp] theorem State.setEnc_coreBad (c : Nat) (x : EncSt) : (s.setEnc c x).coreBad = s.coreBad := rfl
@[simp] theorem State.setEnc_coreOut (c : Nat) (x : EncSt) : (s.setEnc c x).coreOut = s.coreOut := rfl
@[simp] theorem State.setEnc_heads (c : Nat) (x : EncSt) : (s.setEnc c x).heads = s.heads := rfl
@[simp] theorem State.setEnc_wbs (c : Nat) (x : EncSt) : (s.setEnc c x).wbs = s.wbs := rfl
@[simp] theorem State.setEnc_panels (c : Nat) (x : EncSt) : (s.setEnc c x).panels = s.panels := rfl
@[simp] theorem State.setEnc_jrn (c : Nat) (x : EncSt) : (s.setEnc c x).jrn = s.jrn := rfl
@[simp] theorem State.setEnc_tnd (c : Nat) (x : EncSt) : (s.setEnc c x).tnd = s.tnd := rfl
@[simp] theorem State.setEnc_wdn (c : Nat) (x : EncSt) : (s.setEnc c x).wdn = s.wdn := rfl
@[simp] theorem State.setEnc_flash (c : Nat) (x : EncSt) : (s.setEnc c x).flash = s.flash := rfl
@[simp] theorem State.setEnc_otp (c : Nat) (x : EncSt) : (s.setEnc c x).otp = s.otp := rfl
@[simp] theorem State.setEnc_pending (c : Nat) (x : EncSt) : (s.setEnc c x).pending = s.pending := rfl

/-! ### setTim -/

@[simp] theorem State.setTim_powered (x : TimSt) : (s.setTim x).powered = s.powered := rfl
@[simp] theorem State.setTim_fabricUp (x : TimSt) : (s.setTim x).fabricUp = s.fabricUp := rfl
@[simp] theorem State.setTim_bus (x : TimSt) : (s.setTim x).bus = s.bus := rfl
@[simp] theorem State.setTim_plan (x : TimSt) : (s.setTim x).plan = s.plan := rfl
@[simp] theorem State.setTim_fregs (x : TimSt) : (s.setTim x).fregs = s.fregs := rfl
@[simp] theorem State.setTim_lanes (x : TimSt) : (s.setTim x).lanes = s.lanes := rfl
@[simp] theorem State.setTim_links (x : TimSt) : (s.setTim x).links = s.links := rfl
@[simp] theorem State.setTim_srcs (x : TimSt) : (s.setTim x).srcs = s.srcs := rfl
@[simp] theorem State.setTim_decs (x : TimSt) : (s.setTim x).decs = s.decs := rfl
@[simp] theorem State.setTim_cores (x : TimSt) : (s.setTim x).cores = s.cores := rfl
@[simp] theorem State.setTim_coreBad (x : TimSt) : (s.setTim x).coreBad = s.coreBad := rfl
@[simp] theorem State.setTim_coreOut (x : TimSt) : (s.setTim x).coreOut = s.coreOut := rfl
@[simp] theorem State.setTim_heads (x : TimSt) : (s.setTim x).heads = s.heads := rfl
@[simp] theorem State.setTim_wbs (x : TimSt) : (s.setTim x).wbs = s.wbs := rfl
@[simp] theorem State.setTim_encs (x : TimSt) : (s.setTim x).encs = s.encs := rfl
@[simp] theorem State.setTim_panels (x : TimSt) : (s.setTim x).panels = s.panels := rfl
@[simp] theorem State.setTim_jrn (x : TimSt) : (s.setTim x).jrn = s.jrn := rfl
@[simp] theorem State.setTim_tnd (x : TimSt) : (s.setTim x).tnd = s.tnd := rfl
@[simp] theorem State.setTim_wdn (x : TimSt) : (s.setTim x).wdn = s.wdn := rfl
@[simp] theorem State.setTim_flash (x : TimSt) : (s.setTim x).flash = s.flash := rfl
@[simp] theorem State.setTim_otp (x : TimSt) : (s.setTim x).otp = s.otp := rfl
@[simp] theorem State.setTim_pending (x : TimSt) : (s.setTim x).pending = s.pending := rfl

/-! ### setJrn -/

@[simp] theorem State.setJrn_powered (x : JrnSt) : (s.setJrn x).powered = s.powered := rfl
@[simp] theorem State.setJrn_fabricUp (x : JrnSt) : (s.setJrn x).fabricUp = s.fabricUp := rfl
@[simp] theorem State.setJrn_bus (x : JrnSt) : (s.setJrn x).bus = s.bus := rfl
@[simp] theorem State.setJrn_plan (x : JrnSt) : (s.setJrn x).plan = s.plan := rfl
@[simp] theorem State.setJrn_fregs (x : JrnSt) : (s.setJrn x).fregs = s.fregs := rfl
@[simp] theorem State.setJrn_lanes (x : JrnSt) : (s.setJrn x).lanes = s.lanes := rfl
@[simp] theorem State.setJrn_links (x : JrnSt) : (s.setJrn x).links = s.links := rfl
@[simp] theorem State.setJrn_tim (x : JrnSt) : (s.setJrn x).tim = s.tim := rfl
@[simp] theorem State.setJrn_srcs (x : JrnSt) : (s.setJrn x).srcs = s.srcs := rfl
@[simp] theorem State.setJrn_decs (x : JrnSt) : (s.setJrn x).decs = s.decs := rfl
@[simp] theorem State.setJrn_cores (x : JrnSt) : (s.setJrn x).cores = s.cores := rfl
@[simp] theorem State.setJrn_coreBad (x : JrnSt) : (s.setJrn x).coreBad = s.coreBad := rfl
@[simp] theorem State.setJrn_coreOut (x : JrnSt) : (s.setJrn x).coreOut = s.coreOut := rfl
@[simp] theorem State.setJrn_heads (x : JrnSt) : (s.setJrn x).heads = s.heads := rfl
@[simp] theorem State.setJrn_wbs (x : JrnSt) : (s.setJrn x).wbs = s.wbs := rfl
@[simp] theorem State.setJrn_encs (x : JrnSt) : (s.setJrn x).encs = s.encs := rfl
@[simp] theorem State.setJrn_panels (x : JrnSt) : (s.setJrn x).panels = s.panels := rfl
@[simp] theorem State.setJrn_tnd (x : JrnSt) : (s.setJrn x).tnd = s.tnd := rfl
@[simp] theorem State.setJrn_wdn (x : JrnSt) : (s.setJrn x).wdn = s.wdn := rfl
@[simp] theorem State.setJrn_flash (x : JrnSt) : (s.setJrn x).flash = s.flash := rfl
@[simp] theorem State.setJrn_otp (x : JrnSt) : (s.setJrn x).otp = s.otp := rfl
@[simp] theorem State.setJrn_pending (x : JrnSt) : (s.setJrn x).pending = s.pending := rfl

/-! ### setTnd -/

@[simp] theorem State.setTnd_powered (x : TndSt) : (s.setTnd x).powered = s.powered := rfl
@[simp] theorem State.setTnd_fabricUp (x : TndSt) : (s.setTnd x).fabricUp = s.fabricUp := rfl
@[simp] theorem State.setTnd_bus (x : TndSt) : (s.setTnd x).bus = s.bus := rfl
@[simp] theorem State.setTnd_plan (x : TndSt) : (s.setTnd x).plan = s.plan := rfl
@[simp] theorem State.setTnd_fregs (x : TndSt) : (s.setTnd x).fregs = s.fregs := rfl
@[simp] theorem State.setTnd_lanes (x : TndSt) : (s.setTnd x).lanes = s.lanes := rfl
@[simp] theorem State.setTnd_links (x : TndSt) : (s.setTnd x).links = s.links := rfl
@[simp] theorem State.setTnd_tim (x : TndSt) : (s.setTnd x).tim = s.tim := rfl
@[simp] theorem State.setTnd_srcs (x : TndSt) : (s.setTnd x).srcs = s.srcs := rfl
@[simp] theorem State.setTnd_decs (x : TndSt) : (s.setTnd x).decs = s.decs := rfl
@[simp] theorem State.setTnd_cores (x : TndSt) : (s.setTnd x).cores = s.cores := rfl
@[simp] theorem State.setTnd_coreBad (x : TndSt) : (s.setTnd x).coreBad = s.coreBad := rfl
@[simp] theorem State.setTnd_coreOut (x : TndSt) : (s.setTnd x).coreOut = s.coreOut := rfl
@[simp] theorem State.setTnd_heads (x : TndSt) : (s.setTnd x).heads = s.heads := rfl
@[simp] theorem State.setTnd_wbs (x : TndSt) : (s.setTnd x).wbs = s.wbs := rfl
@[simp] theorem State.setTnd_encs (x : TndSt) : (s.setTnd x).encs = s.encs := rfl
@[simp] theorem State.setTnd_panels (x : TndSt) : (s.setTnd x).panels = s.panels := rfl
@[simp] theorem State.setTnd_jrn (x : TndSt) : (s.setTnd x).jrn = s.jrn := rfl
@[simp] theorem State.setTnd_wdn (x : TndSt) : (s.setTnd x).wdn = s.wdn := rfl
@[simp] theorem State.setTnd_flash (x : TndSt) : (s.setTnd x).flash = s.flash := rfl
@[simp] theorem State.setTnd_otp (x : TndSt) : (s.setTnd x).otp = s.otp := rfl
@[simp] theorem State.setTnd_pending (x : TndSt) : (s.setTnd x).pending = s.pending := rfl

/-! ### setWdn -/

@[simp] theorem State.setWdn_powered (x : WdnSt) : (s.setWdn x).powered = s.powered := rfl
@[simp] theorem State.setWdn_fabricUp (x : WdnSt) : (s.setWdn x).fabricUp = s.fabricUp := rfl
@[simp] theorem State.setWdn_bus (x : WdnSt) : (s.setWdn x).bus = s.bus := rfl
@[simp] theorem State.setWdn_plan (x : WdnSt) : (s.setWdn x).plan = s.plan := rfl
@[simp] theorem State.setWdn_fregs (x : WdnSt) : (s.setWdn x).fregs = s.fregs := rfl
@[simp] theorem State.setWdn_lanes (x : WdnSt) : (s.setWdn x).lanes = s.lanes := rfl
@[simp] theorem State.setWdn_links (x : WdnSt) : (s.setWdn x).links = s.links := rfl
@[simp] theorem State.setWdn_tim (x : WdnSt) : (s.setWdn x).tim = s.tim := rfl
@[simp] theorem State.setWdn_srcs (x : WdnSt) : (s.setWdn x).srcs = s.srcs := rfl
@[simp] theorem State.setWdn_decs (x : WdnSt) : (s.setWdn x).decs = s.decs := rfl
@[simp] theorem State.setWdn_cores (x : WdnSt) : (s.setWdn x).cores = s.cores := rfl
@[simp] theorem State.setWdn_coreBad (x : WdnSt) : (s.setWdn x).coreBad = s.coreBad := rfl
@[simp] theorem State.setWdn_coreOut (x : WdnSt) : (s.setWdn x).coreOut = s.coreOut := rfl
@[simp] theorem State.setWdn_heads (x : WdnSt) : (s.setWdn x).heads = s.heads := rfl
@[simp] theorem State.setWdn_wbs (x : WdnSt) : (s.setWdn x).wbs = s.wbs := rfl
@[simp] theorem State.setWdn_encs (x : WdnSt) : (s.setWdn x).encs = s.encs := rfl
@[simp] theorem State.setWdn_panels (x : WdnSt) : (s.setWdn x).panels = s.panels := rfl
@[simp] theorem State.setWdn_jrn (x : WdnSt) : (s.setWdn x).jrn = s.jrn := rfl
@[simp] theorem State.setWdn_tnd (x : WdnSt) : (s.setWdn x).tnd = s.tnd := rfl
@[simp] theorem State.setWdn_flash (x : WdnSt) : (s.setWdn x).flash = s.flash := rfl
@[simp] theorem State.setWdn_otp (x : WdnSt) : (s.setWdn x).otp = s.otp := rfl
@[simp] theorem State.setWdn_pending (x : WdnSt) : (s.setWdn x).pending = s.pending := rfl

variable (b : Bus)

/-! ### Bus.setReg -/

@[simp] theorem Bus.setReg_time (r : BReg) (i j : Nat) (v : Word) : (b.setReg r i j v).time = b.time := rfl
@[simp] theorem Bus.setReg_frac (r : BReg) (i j : Nat) (v : Word) : (b.setReg r i j v).frac = b.frac := rfl
@[simp] theorem Bus.setReg_ticks (r : BReg) (i j : Nat) (v : Word) : (b.setReg r i j v).ticks = b.ticks := rfl
@[simp] theorem Bus.setReg_pairLo (r : BReg) (i j : Nat) (v : Word) : (b.setReg r i j v).pairLo = b.pairLo := rfl
@[simp] theorem Bus.setReg_froz (r : BReg) (i j : Nat) (v : Word) : (b.setReg r i j v).froz = b.froz := rfl
@[simp] theorem Bus.setReg_mem (r : BReg) (i j : Nat) (v : Word) : (b.setReg r i j v).mem = b.mem := rfl
@[simp] theorem Bus.setReg_wq (r : BReg) (i j : Nat) (v : Word) : (b.setReg r i j v).wq = b.wq := rfl
@[simp] theorem Bus.setReg_mx (r : BReg) (i j : Nat) (v : Word) : (b.setReg r i j v).mx = b.mx := rfl
@[simp] theorem Bus.setReg_acc (r : BReg) (i j : Nat) (v : Word) : (b.setReg r i j v).acc = b.acc := rfl
@[simp] theorem Bus.setReg_hosts (r : BReg) (i j : Nat) (v : Word) : (b.setReg r i j v).hosts = b.hosts := rfl
@[simp] theorem Bus.setReg_rings (r : BReg) (i j : Nat) (v : Word) : (b.setReg r i j v).rings = b.rings := rfl
@[simp] theorem Bus.setReg_fns (r : BReg) (i j : Nat) (v : Word) : (b.setReg r i j v).fns = b.fns := rfl
@[simp] theorem Bus.setReg_jbuf (r : BReg) (i j : Nat) (v : Word) : (b.setReg r i j v).jbuf = b.jbuf := rfl
@[simp] theorem Bus.setReg_jlost (r : BReg) (i j : Nat) (v : Word) : (b.setReg r i j v).jlost = b.jlost := rfl
@[simp] theorem Bus.setReg_jlostFirst (r : BReg) (i j : Nat) (v : Word) : (b.setReg r i j v).jlostFirst = b.jlostFirst := rfl
@[simp] theorem Bus.setReg_jgap (r : BReg) (i j : Nat) (v : Word) : (b.setReg r i j v).jgap = b.jgap := rfl
@[simp] theorem Bus.setReg_outbox (r : BReg) (i j : Nat) (v : Word) : (b.setReg r i j v).outbox = b.outbox := rfl
@[simp] theorem Bus.setReg_wire (r : BReg) (i j : Nat) (v : Word) : (b.setReg r i j v).wire = b.wire := rfl
@[simp] theorem Bus.setReg_free (r : BReg) (i j : Nat) (v : Word) : (b.setReg r i j v).free = b.free := rfl

/-! ### Bus.setFld -/

@[simp] theorem Bus.setFld_time (r : BReg) (i j lo n v : Nat) : (b.setFld r i j lo n v).time = b.time := rfl
@[simp] theorem Bus.setFld_frac (r : BReg) (i j lo n v : Nat) : (b.setFld r i j lo n v).frac = b.frac := rfl
@[simp] theorem Bus.setFld_ticks (r : BReg) (i j lo n v : Nat) : (b.setFld r i j lo n v).ticks = b.ticks := rfl
@[simp] theorem Bus.setFld_pairLo (r : BReg) (i j lo n v : Nat) : (b.setFld r i j lo n v).pairLo = b.pairLo := rfl
@[simp] theorem Bus.setFld_froz (r : BReg) (i j lo n v : Nat) : (b.setFld r i j lo n v).froz = b.froz := rfl
@[simp] theorem Bus.setFld_mem (r : BReg) (i j lo n v : Nat) : (b.setFld r i j lo n v).mem = b.mem := rfl
@[simp] theorem Bus.setFld_wq (r : BReg) (i j lo n v : Nat) : (b.setFld r i j lo n v).wq = b.wq := rfl
@[simp] theorem Bus.setFld_mx (r : BReg) (i j lo n v : Nat) : (b.setFld r i j lo n v).mx = b.mx := rfl
@[simp] theorem Bus.setFld_acc (r : BReg) (i j lo n v : Nat) : (b.setFld r i j lo n v).acc = b.acc := rfl
@[simp] theorem Bus.setFld_hosts (r : BReg) (i j lo n v : Nat) : (b.setFld r i j lo n v).hosts = b.hosts := rfl
@[simp] theorem Bus.setFld_rings (r : BReg) (i j lo n v : Nat) : (b.setFld r i j lo n v).rings = b.rings := rfl
@[simp] theorem Bus.setFld_fns (r : BReg) (i j lo n v : Nat) : (b.setFld r i j lo n v).fns = b.fns := rfl
@[simp] theorem Bus.setFld_jbuf (r : BReg) (i j lo n v : Nat) : (b.setFld r i j lo n v).jbuf = b.jbuf := rfl
@[simp] theorem Bus.setFld_jlost (r : BReg) (i j lo n v : Nat) : (b.setFld r i j lo n v).jlost = b.jlost := rfl
@[simp] theorem Bus.setFld_jlostFirst (r : BReg) (i j lo n v : Nat) : (b.setFld r i j lo n v).jlostFirst = b.jlostFirst := rfl
@[simp] theorem Bus.setFld_jgap (r : BReg) (i j lo n v : Nat) : (b.setFld r i j lo n v).jgap = b.jgap := rfl
@[simp] theorem Bus.setFld_outbox (r : BReg) (i j lo n v : Nat) : (b.setFld r i j lo n v).outbox = b.outbox := rfl
@[simp] theorem Bus.setFld_wire (r : BReg) (i j lo n v : Nat) : (b.setFld r i j lo n v).wire = b.wire := rfl
@[simp] theorem Bus.setFld_free (r : BReg) (i j lo n v : Nat) : (b.setFld r i j lo n v).free = b.free := rfl

/-! ### Bus.bump -/

@[simp] theorem Bus.bump_time (r : BReg) (i j n : Nat) : (b.bump r i j n).time = b.time := rfl
@[simp] theorem Bus.bump_frac (r : BReg) (i j n : Nat) : (b.bump r i j n).frac = b.frac := rfl
@[simp] theorem Bus.bump_ticks (r : BReg) (i j n : Nat) : (b.bump r i j n).ticks = b.ticks := rfl
@[simp] theorem Bus.bump_pairLo (r : BReg) (i j n : Nat) : (b.bump r i j n).pairLo = b.pairLo := rfl
@[simp] theorem Bus.bump_froz (r : BReg) (i j n : Nat) : (b.bump r i j n).froz = b.froz := rfl
@[simp] theorem Bus.bump_mem (r : BReg) (i j n : Nat) : (b.bump r i j n).mem = b.mem := rfl
@[simp] theorem Bus.bump_wq (r : BReg) (i j n : Nat) : (b.bump r i j n).wq = b.wq := rfl
@[simp] theorem Bus.bump_mx (r : BReg) (i j n : Nat) : (b.bump r i j n).mx = b.mx := rfl
@[simp] theorem Bus.bump_acc (r : BReg) (i j n : Nat) : (b.bump r i j n).acc = b.acc := rfl
@[simp] theorem Bus.bump_hosts (r : BReg) (i j n : Nat) : (b.bump r i j n).hosts = b.hosts := rfl
@[simp] theorem Bus.bump_rings (r : BReg) (i j n : Nat) : (b.bump r i j n).rings = b.rings := rfl
@[simp] theorem Bus.bump_fns (r : BReg) (i j n : Nat) : (b.bump r i j n).fns = b.fns := rfl
@[simp] theorem Bus.bump_jbuf (r : BReg) (i j n : Nat) : (b.bump r i j n).jbuf = b.jbuf := rfl
@[simp] theorem Bus.bump_jlost (r : BReg) (i j n : Nat) : (b.bump r i j n).jlost = b.jlost := rfl
@[simp] theorem Bus.bump_jlostFirst (r : BReg) (i j n : Nat) : (b.bump r i j n).jlostFirst = b.jlostFirst := rfl
@[simp] theorem Bus.bump_jgap (r : BReg) (i j n : Nat) : (b.bump r i j n).jgap = b.jgap := rfl
@[simp] theorem Bus.bump_outbox (r : BReg) (i j n : Nat) : (b.bump r i j n).outbox = b.outbox := rfl
@[simp] theorem Bus.bump_wire (r : BReg) (i j n : Nat) : (b.bump r i j n).wire = b.wire := rfl
@[simp] theorem Bus.bump_free (r : BReg) (i j n : Nat) : (b.bump r i j n).free = b.free := rfl

/-! ### Bus.setPair -/

@[simp] theorem Bus.setPair_time (lo hi : BReg) (i j v : Nat) : (b.setPair lo hi i j v).time = b.time := rfl
@[simp] theorem Bus.setPair_frac (lo hi : BReg) (i j v : Nat) : (b.setPair lo hi i j v).frac = b.frac := rfl
@[simp] theorem Bus.setPair_ticks (lo hi : BReg) (i j v : Nat) : (b.setPair lo hi i j v).ticks = b.ticks := rfl
@[simp] theorem Bus.setPair_pairLo (lo hi : BReg) (i j v : Nat) : (b.setPair lo hi i j v).pairLo = b.pairLo := rfl
@[simp] theorem Bus.setPair_froz (lo hi : BReg) (i j v : Nat) : (b.setPair lo hi i j v).froz = b.froz := rfl
@[simp] theorem Bus.setPair_mem (lo hi : BReg) (i j v : Nat) : (b.setPair lo hi i j v).mem = b.mem := rfl
@[simp] theorem Bus.setPair_wq (lo hi : BReg) (i j v : Nat) : (b.setPair lo hi i j v).wq = b.wq := rfl
@[simp] theorem Bus.setPair_mx (lo hi : BReg) (i j v : Nat) : (b.setPair lo hi i j v).mx = b.mx := rfl
@[simp] theorem Bus.setPair_acc (lo hi : BReg) (i j v : Nat) : (b.setPair lo hi i j v).acc = b.acc := rfl
@[simp] theorem Bus.setPair_hosts (lo hi : BReg) (i j v : Nat) : (b.setPair lo hi i j v).hosts = b.hosts := rfl
@[simp] theorem Bus.setPair_rings (lo hi : BReg) (i j v : Nat) : (b.setPair lo hi i j v).rings = b.rings := rfl
@[simp] theorem Bus.setPair_fns (lo hi : BReg) (i j v : Nat) : (b.setPair lo hi i j v).fns = b.fns := rfl
@[simp] theorem Bus.setPair_jbuf (lo hi : BReg) (i j v : Nat) : (b.setPair lo hi i j v).jbuf = b.jbuf := rfl
@[simp] theorem Bus.setPair_jlost (lo hi : BReg) (i j v : Nat) : (b.setPair lo hi i j v).jlost = b.jlost := rfl
@[simp] theorem Bus.setPair_jlostFirst (lo hi : BReg) (i j v : Nat) : (b.setPair lo hi i j v).jlostFirst = b.jlostFirst := rfl
@[simp] theorem Bus.setPair_jgap (lo hi : BReg) (i j v : Nat) : (b.setPair lo hi i j v).jgap = b.jgap := rfl
@[simp] theorem Bus.setPair_outbox (lo hi : BReg) (i j v : Nat) : (b.setPair lo hi i j v).outbox = b.outbox := rfl
@[simp] theorem Bus.setPair_wire (lo hi : BReg) (i j v : Nat) : (b.setPair lo hi i j v).wire = b.wire := rfl
@[simp] theorem Bus.setPair_free (lo hi : BReg) (i j v : Nat) : (b.setPair lo hi i j v).free = b.free := rfl

/-! ### Bus.send -/

@[simp] theorem Bus.send_time (o : Out) : (b.send o).time = b.time := rfl
@[simp] theorem Bus.send_frac (o : Out) : (b.send o).frac = b.frac := rfl
@[simp] theorem Bus.send_ticks (o : Out) : (b.send o).ticks = b.ticks := rfl
@[simp] theorem Bus.send_regs (o : Out) : (b.send o).regs = b.regs := rfl
@[simp] theorem Bus.send_pairLo (o : Out) : (b.send o).pairLo = b.pairLo := rfl
@[simp] theorem Bus.send_froz (o : Out) : (b.send o).froz = b.froz := rfl
@[simp] theorem Bus.send_mem (o : Out) : (b.send o).mem = b.mem := rfl
@[simp] theorem Bus.send_wq (o : Out) : (b.send o).wq = b.wq := rfl
@[simp] theorem Bus.send_mx (o : Out) : (b.send o).mx = b.mx := rfl
@[simp] theorem Bus.send_acc (o : Out) : (b.send o).acc = b.acc := rfl
@[simp] theorem Bus.send_hosts (o : Out) : (b.send o).hosts = b.hosts := rfl
@[simp] theorem Bus.send_rings (o : Out) : (b.send o).rings = b.rings := rfl
@[simp] theorem Bus.send_fns (o : Out) : (b.send o).fns = b.fns := rfl
@[simp] theorem Bus.send_jbuf (o : Out) : (b.send o).jbuf = b.jbuf := rfl
@[simp] theorem Bus.send_jlost (o : Out) : (b.send o).jlost = b.jlost := rfl
@[simp] theorem Bus.send_jlostFirst (o : Out) : (b.send o).jlostFirst = b.jlostFirst := rfl
@[simp] theorem Bus.send_jgap (o : Out) : (b.send o).jgap = b.jgap := rfl
@[simp] theorem Bus.send_outbox (o : Out) : (b.send o).outbox = b.outbox := rfl
@[simp] theorem Bus.send_free (o : Out) : (b.send o).free = b.free := rfl

/-! ### Bus.emit -/

@[simp] theorem Bus.emit_time (typ inst sev : Nat) (p : Payload) : (b.emit typ inst sev p).time = b.time := rfl
@[simp] theorem Bus.emit_frac (typ inst sev : Nat) (p : Payload) : (b.emit typ inst sev p).frac = b.frac := rfl
@[simp] theorem Bus.emit_ticks (typ inst sev : Nat) (p : Payload) : (b.emit typ inst sev p).ticks = b.ticks := rfl
@[simp] theorem Bus.emit_regs (typ inst sev : Nat) (p : Payload) : (b.emit typ inst sev p).regs = b.regs := rfl
@[simp] theorem Bus.emit_pairLo (typ inst sev : Nat) (p : Payload) : (b.emit typ inst sev p).pairLo = b.pairLo := rfl
@[simp] theorem Bus.emit_froz (typ inst sev : Nat) (p : Payload) : (b.emit typ inst sev p).froz = b.froz := rfl
@[simp] theorem Bus.emit_mem (typ inst sev : Nat) (p : Payload) : (b.emit typ inst sev p).mem = b.mem := rfl
@[simp] theorem Bus.emit_wq (typ inst sev : Nat) (p : Payload) : (b.emit typ inst sev p).wq = b.wq := rfl
@[simp] theorem Bus.emit_mx (typ inst sev : Nat) (p : Payload) : (b.emit typ inst sev p).mx = b.mx := rfl
@[simp] theorem Bus.emit_acc (typ inst sev : Nat) (p : Payload) : (b.emit typ inst sev p).acc = b.acc := rfl
@[simp] theorem Bus.emit_hosts (typ inst sev : Nat) (p : Payload) : (b.emit typ inst sev p).hosts = b.hosts := rfl
@[simp] theorem Bus.emit_rings (typ inst sev : Nat) (p : Payload) : (b.emit typ inst sev p).rings = b.rings := rfl
@[simp] theorem Bus.emit_fns (typ inst sev : Nat) (p : Payload) : (b.emit typ inst sev p).fns = b.fns := rfl
@[simp] theorem Bus.emit_jbuf (typ inst sev : Nat) (p : Payload) : (b.emit typ inst sev p).jbuf = b.jbuf := rfl
@[simp] theorem Bus.emit_jlost (typ inst sev : Nat) (p : Payload) : (b.emit typ inst sev p).jlost = b.jlost := rfl
@[simp] theorem Bus.emit_jlostFirst (typ inst sev : Nat) (p : Payload) : (b.emit typ inst sev p).jlostFirst = b.jlostFirst := rfl
@[simp] theorem Bus.emit_jgap (typ inst sev : Nat) (p : Payload) : (b.emit typ inst sev p).jgap = b.jgap := rfl
@[simp] theorem Bus.emit_wire (typ inst sev : Nat) (p : Payload) : (b.emit typ inst sev p).wire = b.wire := rfl
@[simp] theorem Bus.emit_free (typ inst sev : Nat) (p : Payload) : (b.emit typ inst sev p).free = b.free := rfl

/-! ### Bus.setAcc -/

@[simp] theorem Bus.setAcc_time (m : Nat) (x : AccSt) : (b.setAcc m x).time = b.time := rfl
@[simp] theorem Bus.setAcc_frac (m : Nat) (x : AccSt) : (b.setAcc m x).frac = b.frac := rfl
@[simp] theorem Bus.setAcc_ticks (m : Nat) (x : AccSt) : (b.setAcc m x).ticks = b.ticks := rfl
@[simp] theorem Bus.setAcc_regs (m : Nat) (x : AccSt) : (b.setAcc m x).regs = b.regs := rfl
@[simp] theorem Bus.setAcc_pairLo (m : Nat) (x : AccSt) : (b.setAcc m x).pairLo = b.pairLo := rfl
@[simp] theorem Bus.setAcc_froz (m : Nat) (x : AccSt) : (b.setAcc m x).froz = b.froz := rfl
@[simp] theorem Bus.setAcc_mem (m : Nat) (x : AccSt) : (b.setAcc m x).mem = b.mem := rfl
@[simp] theorem Bus.setAcc_wq (m : Nat) (x : AccSt) : (b.setAcc m x).wq = b.wq := rfl
@[simp] theorem Bus.setAcc_mx (m : Nat) (x : AccSt) : (b.setAcc m x).mx = b.mx := rfl
@[simp] theorem Bus.setAcc_hosts (m : Nat) (x : AccSt) : (b.setAcc m x).hosts = b.hosts := rfl
@[simp] theorem Bus.setAcc_rings (m : Nat) (x : AccSt) : (b.setAcc m x).rings = b.rings := rfl
@[simp] theorem Bus.setAcc_fns (m : Nat) (x : AccSt) : (b.setAcc m x).fns = b.fns := rfl
@[simp] theorem Bus.setAcc_jbuf (m : Nat) (x : AccSt) : (b.setAcc m x).jbuf = b.jbuf := rfl
@[simp] theorem Bus.setAcc_jlost (m : Nat) (x : AccSt) : (b.setAcc m x).jlost = b.jlost := rfl
@[simp] theorem Bus.setAcc_jlostFirst (m : Nat) (x : AccSt) : (b.setAcc m x).jlostFirst = b.jlostFirst := rfl
@[simp] theorem Bus.setAcc_jgap (m : Nat) (x : AccSt) : (b.setAcc m x).jgap = b.jgap := rfl
@[simp] theorem Bus.setAcc_outbox (m : Nat) (x : AccSt) : (b.setAcc m x).outbox = b.outbox := rfl
@[simp] theorem Bus.setAcc_wire (m : Nat) (x : AccSt) : (b.setAcc m x).wire = b.wire := rfl
@[simp] theorem Bus.setAcc_free (m : Nat) (x : AccSt) : (b.setAcc m x).free = b.free := rfl

/-! ### Bus.setHost -/

@[simp] theorem Bus.setHost_time (h : Nat) (x : HostSt) : (b.setHost h x).time = b.time := rfl
@[simp] theorem Bus.setHost_frac (h : Nat) (x : HostSt) : (b.setHost h x).frac = b.frac := rfl
@[simp] theorem Bus.setHost_ticks (h : Nat) (x : HostSt) : (b.setHost h x).ticks = b.ticks := rfl
@[simp] theorem Bus.setHost_regs (h : Nat) (x : HostSt) : (b.setHost h x).regs = b.regs := rfl
@[simp] theorem Bus.setHost_pairLo (h : Nat) (x : HostSt) : (b.setHost h x).pairLo = b.pairLo := rfl
@[simp] theorem Bus.setHost_froz (h : Nat) (x : HostSt) : (b.setHost h x).froz = b.froz := rfl
@[simp] theorem Bus.setHost_mem (h : Nat) (x : HostSt) : (b.setHost h x).mem = b.mem := rfl
@[simp] theorem Bus.setHost_wq (h : Nat) (x : HostSt) : (b.setHost h x).wq = b.wq := rfl
@[simp] theorem Bus.setHost_mx (h : Nat) (x : HostSt) : (b.setHost h x).mx = b.mx := rfl
@[simp] theorem Bus.setHost_acc (h : Nat) (x : HostSt) : (b.setHost h x).acc = b.acc := rfl
@[simp] theorem Bus.setHost_rings (h : Nat) (x : HostSt) : (b.setHost h x).rings = b.rings := rfl
@[simp] theorem Bus.setHost_fns (h : Nat) (x : HostSt) : (b.setHost h x).fns = b.fns := rfl
@[simp] theorem Bus.setHost_jbuf (h : Nat) (x : HostSt) : (b.setHost h x).jbuf = b.jbuf := rfl
@[simp] theorem Bus.setHost_jlost (h : Nat) (x : HostSt) : (b.setHost h x).jlost = b.jlost := rfl
@[simp] theorem Bus.setHost_jlostFirst (h : Nat) (x : HostSt) : (b.setHost h x).jlostFirst = b.jlostFirst := rfl
@[simp] theorem Bus.setHost_jgap (h : Nat) (x : HostSt) : (b.setHost h x).jgap = b.jgap := rfl
@[simp] theorem Bus.setHost_outbox (h : Nat) (x : HostSt) : (b.setHost h x).outbox = b.outbox := rfl
@[simp] theorem Bus.setHost_wire (h : Nat) (x : HostSt) : (b.setHost h x).wire = b.wire := rfl
@[simp] theorem Bus.setHost_free (h : Nat) (x : HostSt) : (b.setHost h x).free = b.free := rfl

/-! ### Bus.setRing -/

@[simp] theorem Bus.setRing_time (r : Nat) (x : RingSt) : (b.setRing r x).time = b.time := rfl
@[simp] theorem Bus.setRing_frac (r : Nat) (x : RingSt) : (b.setRing r x).frac = b.frac := rfl
@[simp] theorem Bus.setRing_ticks (r : Nat) (x : RingSt) : (b.setRing r x).ticks = b.ticks := rfl
@[simp] theorem Bus.setRing_regs (r : Nat) (x : RingSt) : (b.setRing r x).regs = b.regs := rfl
@[simp] theorem Bus.setRing_pairLo (r : Nat) (x : RingSt) : (b.setRing r x).pairLo = b.pairLo := rfl
@[simp] theorem Bus.setRing_froz (r : Nat) (x : RingSt) : (b.setRing r x).froz = b.froz := rfl
@[simp] theorem Bus.setRing_mem (r : Nat) (x : RingSt) : (b.setRing r x).mem = b.mem := rfl
@[simp] theorem Bus.setRing_wq (r : Nat) (x : RingSt) : (b.setRing r x).wq = b.wq := rfl
@[simp] theorem Bus.setRing_mx (r : Nat) (x : RingSt) : (b.setRing r x).mx = b.mx := rfl
@[simp] theorem Bus.setRing_acc (r : Nat) (x : RingSt) : (b.setRing r x).acc = b.acc := rfl
@[simp] theorem Bus.setRing_hosts (r : Nat) (x : RingSt) : (b.setRing r x).hosts = b.hosts := rfl
@[simp] theorem Bus.setRing_fns (r : Nat) (x : RingSt) : (b.setRing r x).fns = b.fns := rfl
@[simp] theorem Bus.setRing_jbuf (r : Nat) (x : RingSt) : (b.setRing r x).jbuf = b.jbuf := rfl
@[simp] theorem Bus.setRing_jlost (r : Nat) (x : RingSt) : (b.setRing r x).jlost = b.jlost := rfl
@[simp] theorem Bus.setRing_jlostFirst (r : Nat) (x : RingSt) : (b.setRing r x).jlostFirst = b.jlostFirst := rfl
@[simp] theorem Bus.setRing_jgap (r : Nat) (x : RingSt) : (b.setRing r x).jgap = b.jgap := rfl
@[simp] theorem Bus.setRing_outbox (r : Nat) (x : RingSt) : (b.setRing r x).outbox = b.outbox := rfl
@[simp] theorem Bus.setRing_wire (r : Nat) (x : RingSt) : (b.setRing r x).wire = b.wire := rfl
@[simp] theorem Bus.setRing_free (r : Nat) (x : RingSt) : (b.setRing r x).free = b.free := rfl

/-! ### What the updates write -/

@[simp] theorem State.onBus_bus (f : Bus → Bus) : (s.onBus f).bus = f s.bus := rfl
@[simp] theorem State.setTim_tim (x : TimSt) : (s.setTim x).tim = x := rfl
@[simp] theorem State.setJrn_jrn (x : JrnSt) : (s.setJrn x).jrn = x := rfl
@[simp] theorem State.setTnd_tnd (x : TndSt) : (s.setTnd x).tnd = x := rfl
@[simp] theorem State.setWdn_wdn (x : WdnSt) : (s.setWdn x).wdn = x := rfl

end Sys2Proof.Machine
end

