-- ==== Sys2Proof/Laws/Tab.lean ====
section
/-! SUPPORT. Sparse tables: a read after a write, and the canonical form that every write keeps. -/

namespace Sys2Proof.Machine

variable {α : Type}

theorem tabGet_nil (d : α) (k : Nat) : tabGet d [] k = d := rfl

theorem tabGet_cons (d : α) (e : Nat × α) (t : Tab α) (k : Nat) :
    tabGet d (e :: t) k = if e.1 = k then e.2 else tabGet d t k := by
  unfold tabGet
  by_cases h : e.1 = k <;> simp [h]

theorem tabGet_tabIns_self (d v : α) (k : Nat) (t : Tab α) (h : ∀ e ∈ t, e.1 ≠ k) : tabGet d (tabIns k v t) k = v := by
  induction t with
  | nil => simp [tabIns, tabGet]
  | cons e t ih =>
    unfold tabIns
    split
    · simp [tabGet_cons]
    · rw [tabGet_cons, if_neg (h e (by simp)), ih fun x hx => h x (by simp [hx])]

theorem tabGet_tabIns_ne (d v : α) {k j : Nat} (hj : k ≠ j) (t : Tab α) : tabGet d (tabIns k v t) j = tabGet d t j := by
  induction t with
  | nil => simp [tabIns, tabGet_cons, tabGet_nil, hj]
  | cons e t ih =>
    unfold tabIns
    split
    · rw [tabGet_cons, if_neg hj]
    · rw [tabGet_cons, tabGet_cons, ih]

theorem tabGet_filter_self (d : α) (k : Nat) (t : Tab α) : tabGet d (t.filter fun e => e.1 != k) k = d := by
  induction t with
  | nil => rfl
  | cons e t ih =>
    rw [List.filter_cons]
    split
    · rename_i h
      rw [tabGet_cons, if_neg (by simpa using h), ih]
    · exact ih

theorem tabGet_filter_ne (d : α) {k j : Nat} (hj : k ≠ j) (t : Tab α) :
    tabGet d (t.filter fun e => e.1 != k) j = tabGet d t j := by
  induction t with
  | nil => rfl
  | cons e t ih =>
    rw [List.filter_cons]
    split
    · rw [tabGet_cons, tabGet_cons, ih]
    · rename_i h
      rw [tabGet_cons, if_neg, ih]
      intro he
      exact hj (by rw [← he]; simpa using (Eq.symm (by simpa using h : e.1 = k)))

theorem mem_tabIns {k : Nat} {v : α} {t : Tab α} {e : Nat × α} (h : e ∈ tabIns k v t) : e = (k, v) ∨ e ∈ t := by
  induction t with
  | nil => simpa [tabIns] using h
  | cons x t ih =>
    unfold tabIns at h
    split at h
    · simpa using h
    · rcases List.mem_cons.mp h with h | h
      · exact .inr (by simp [h])
      · exact (ih h).imp id fun h => by simp [h]

theorem tabIns_sorted {k : Nat} {v : α} {t : Tab α} (h : t.Pairwise fun a b => a.1 < b.1) (hk : ∀ e ∈ t, e.1 ≠ k) :
    (tabIns k v t).Pairwise fun a b => a.1 < b.1 := by
  induction t with
  | nil => simp [tabIns]
  | cons x t ih =>
    rw [List.pairwise_cons] at h
    unfold tabIns
    split
    · rename_i hx
      refine List.pairwise_cons.mpr ⟨fun e he => ?_, List.pairwise_cons.mpr h⟩
      rcases List.mem_cons.mp he with rfl | he
      · exact hx
      · exact Nat.lt_trans hx (h.1 e he)
    · rename_i hx
      refine List.pairwise_cons.mpr ⟨fun e he => ?_, ih h.2 fun e he => hk e (by simp [he])⟩
      rcases mem_tabIns he with rfl | he
      · have := hk x (by simp)
        simp only
        omega
      · exact h.1 e he

variable [DecidableEq α]

/-- A read of the key written gives the value written. -/
@[simp] theorem tabGet_tabSet_self (d v : α) (t : Tab α) (k : Nat) : tabGet d (tabSet d t k v) k = v := by
  simp only [tabSet]
  split
  · rename_i h
    rw [tabGet_filter_self, h]
  · exact tabGet_tabIns_self d v k _ fun e he => by simpa using (List.mem_filter.mp he).2

/-- A write leaves every other key alone. -/
theorem tabGet_tabSet_ne (d d' v : α) (t : Tab α) {k j : Nat} (h : k ≠ j) : tabGet d' (tabSet d t k v) j = tabGet d' t j := by
  simp only [tabSet]
  split
  · exact tabGet_filter_ne d' h t
  · rw [tabGet_tabIns_ne d' v h, tabGet_filter_ne d' h]

/-- The canonical form as a proposition. -/
theorem tabWf_iff (d : α) (t : Tab α) :
    tabWf d t = true ↔ t.Pairwise (fun a b => a.1 < b.1) ∧ ∀ e ∈ t, e.2 ≠ d := by
  simp [tabWf, tabSorted]

/-- Dropping entries keeps the canonical form. -/
theorem tabWf_filter (d : α) {t : Tab α} (p : Nat × α → Bool) (h : tabWf d t = true) : tabWf d (t.filter p) = true := by
  rw [tabWf_iff] at *
  exact ⟨h.1.filter p, fun e he => h.2 e (List.mem_filter.mp he).1⟩

/-- A write keeps the canonical form. -/
theorem tabWf_tabSet (d : α) {t : Tab α} (k : Nat) (v : α) (h : tabWf d t = true) : tabWf d (tabSet d t k v) = true := by
  have hf := tabWf_filter d (fun e => e.1 != k) h
  simp only [tabSet]
  split
  · exact hf
  · rename_i hv
    rw [tabWf_iff] at *
    refine ⟨tabIns_sorted hf.1 fun e he => by simpa using (List.mem_filter.mp he).2, fun e he => ?_⟩
    rcases mem_tabIns he with rfl | he
    · exact hv
    · exact hf.2 e he

end Sys2Proof.Machine
end

