-- ==== Sys2Proof/Laws/Hidden.lean ====
section
/-! SUPPORT. Per-instance state: it reads as it was written, and a write of one instance leaves every other alone. -/

namespace Sys2Proof.Machine

@[simp] theorem State.head_setHead_self (s : State) (n : Nat) (x : HeadSt) : (s.setHead n x).head n = x := tabGet_tabSet_self _ _ _ _

theorem State.head_setHead (s : State) (n k : Nat) (x : HeadSt) : (s.setHead n x).head k = if n = k then x else s.head k := by
  split
  · rename_i h; subst h; exact tabGet_tabSet_self _ _ _ _
  · rename_i h; exact tabGet_tabSet_ne _ _ _ _ h

@[simp] theorem State.wb_setWb_self (s : State) (n : Nat) (x : Option WbSt) : (s.setWb n x).wb n = x := tabGet_tabSet_self _ _ _ _

theorem State.wb_setWb (s : State) (n k : Nat) (x : Option WbSt) : (s.setWb n x).wb k = if n = k then x else s.wb k := by
  split
  · rename_i h; subst h; exact tabGet_tabSet_self _ _ _ _
  · rename_i h; exact tabGet_tabSet_ne _ _ _ _ h

@[simp] theorem Bus.accSt_setAcc_self (b : Bus) (n : Nat) (x : AccSt) : (b.setAcc n x).accSt n = x := tabGet_tabSet_self _ _ _ _

theorem Bus.accSt_setAcc (b : Bus) (n k : Nat) (x : AccSt) : (b.setAcc n x).accSt k = if n = k then x else b.accSt k := by
  split
  · rename_i h; subst h; exact tabGet_tabSet_self _ _ _ _
  · rename_i h; exact tabGet_tabSet_ne _ _ _ _ h

@[simp] theorem Bus.ringSt_setRing_self (b : Bus) (n : Nat) (x : RingSt) : (b.setRing n x).ringSt n = x := tabGet_tabSet_self _ _ _ _

theorem Bus.ringSt_setRing (b : Bus) (n k : Nat) (x : RingSt) : (b.setRing n x).ringSt k = if n = k then x else b.ringSt k := by
  split
  · rename_i h; subst h; exact tabGet_tabSet_self _ _ _ _
  · rename_i h; exact tabGet_tabSet_ne _ _ _ _ h

@[simp] theorem Bus.hostSt_setHost_self (b : Bus) (n : Nat) (x : HostSt) : (b.setHost n x).hostSt n = x := tabGet_tabSet_self _ _ _ _

theorem Bus.hostSt_setHost (b : Bus) (n k : Nat) (x : HostSt) : (b.setHost n x).hostSt k = if n = k then x else b.hostSt k := by
  split
  · rename_i h; subst h; exact tabGet_tabSet_self _ _ _ _
  · rename_i h; exact tabGet_tabSet_ne _ _ _ _ h

@[simp] theorem State.dec_setDec_self (s : State) (n : Nat) (x : DecSt) : (s.setDec n x).dec n = x := tabGet_tabSet_self _ _ _ _

theorem State.dec_setDec (s : State) (n k : Nat) (x : DecSt) : (s.setDec n x).dec k = if n = k then x else s.dec k := by
  split
  · rename_i h; subst h; exact tabGet_tabSet_self _ _ _ _
  · rename_i h; exact tabGet_tabSet_ne _ _ _ _ h

@[simp] theorem State.core_setCore_self (s : State) (n : Nat) (x : Option CoreSt) : (s.setCore n x).core n = x := tabGet_tabSet_self _ _ _ _

theorem State.core_setCore (s : State) (n k : Nat) (x : Option CoreSt) : (s.setCore n x).core k = if n = k then x else s.core k := by
  split
  · rename_i h; subst h; exact tabGet_tabSet_self _ _ _ _
  · rename_i h; exact tabGet_tabSet_ne _ _ _ _ h

@[simp] theorem State.link_setLink_self (s : State) (n : Nat) (x : LinkSt) : (s.setLink n x).link n = x := tabGet_tabSet_self _ _ _ _

theorem State.link_setLink (s : State) (n k : Nat) (x : LinkSt) : (s.setLink n x).link k = if n = k then x else s.link k := by
  split
  · rename_i h; subst h; exact tabGet_tabSet_self _ _ _ _
  · rename_i h; exact tabGet_tabSet_ne _ _ _ _ h

@[simp] theorem State.lane_setLane_self (s : State) (n : Nat) (x : LaneSt) : (s.setLane n x).lane n = x := tabGet_tabSet_self _ _ _ _

theorem State.lane_setLane (s : State) (n k : Nat) (x : LaneSt) : (s.setLane n x).lane k = if n = k then x else s.lane k := by
  split
  · rename_i h; subst h; exact tabGet_tabSet_self _ _ _ _
  · rename_i h; exact tabGet_tabSet_ne _ _ _ _ h

@[simp] theorem State.src_setSrc_self (s : State) (n : Nat) (x : SrcSt) : (s.setSrc n x).src n = x := tabGet_tabSet_self _ _ _ _

theorem State.src_setSrc (s : State) (n k : Nat) (x : SrcSt) : (s.setSrc n x).src k = if n = k then x else s.src k := by
  split
  · rename_i h; subst h; exact tabGet_tabSet_self _ _ _ _
  · rename_i h; exact tabGet_tabSet_ne _ _ _ _ h

@[simp] theorem State.pan_setPan_self (s : State) (n : Nat) (x : PanelSt) : (s.setPan n x).pan n = x := tabGet_tabSet_self _ _ _ _

theorem State.pan_setPan (s : State) (n k : Nat) (x : PanelSt) : (s.setPan n x).pan k = if n = k then x else s.pan k := by
  split
  · rename_i h; subst h; exact tabGet_tabSet_self _ _ _ _
  · rename_i h; exact tabGet_tabSet_ne _ _ _ _ h

@[simp] theorem State.enc_setEnc_self (s : State) (n : Nat) (x : EncSt) : (s.setEnc n x).enc n = x := tabGet_tabSet_self _ _ _ _

theorem State.enc_setEnc (s : State) (n k : Nat) (x : EncSt) : (s.setEnc n x).enc k = if n = k then x else s.enc k := by
  split
  · rename_i h; subst h; exact tabGet_tabSet_self _ _ _ _
  · rename_i h; exact tabGet_tabSet_ne _ _ _ _ h

@[simp] theorem Bus.accSt_setReg (b : Bus) (q : Nat) (r : BReg) (i j : Nat) (v : Word) : (b.setReg r i j v).accSt q = b.accSt q := rfl
@[simp] theorem Bus.ringSt_setReg (b : Bus) (q : Nat) (r : BReg) (i j : Nat) (v : Word) : (b.setReg r i j v).ringSt q = b.ringSt q := rfl
@[simp] theorem Bus.hostSt_setReg (b : Bus) (q : Nat) (r : BReg) (i j : Nat) (v : Word) : (b.setReg r i j v).hostSt q = b.hostSt q := rfl
@[simp] theorem Bus.accSt_setFld (b : Bus) (q : Nat) (r : BReg) (i j lo n v : Nat) : (b.setFld r i j lo n v).accSt q = b.accSt q := rfl
@[simp] theorem Bus.ringSt_setFld (b : Bus) (q : Nat) (r : BReg) (i j lo n v : Nat) : (b.setFld r i j lo n v).ringSt q = b.ringSt q := rfl
@[simp] theorem Bus.hostSt_setFld (b : Bus) (q : Nat) (r : BReg) (i j lo n v : Nat) : (b.setFld r i j lo n v).hostSt q = b.hostSt q := rfl
@[simp] theorem Bus.accSt_bump (b : Bus) (q : Nat) (r : BReg) (i j n : Nat) : (b.bump r i j n).accSt q = b.accSt q := rfl
@[simp] theorem Bus.ringSt_bump (b : Bus) (q : Nat) (r : BReg) (i j n : Nat) : (b.bump r i j n).ringSt q = b.ringSt q := rfl
@[simp] theorem Bus.hostSt_bump (b : Bus) (q : Nat) (r : BReg) (i j n : Nat) : (b.bump r i j n).hostSt q = b.hostSt q := rfl
@[simp] theorem Bus.accSt_send (b : Bus) (q : Nat) (o : Out) : (b.send o).accSt q = b.accSt q := rfl
@[simp] theorem Bus.ringSt_send (b : Bus) (q : Nat) (o : Out) : (b.send o).ringSt q = b.ringSt q := rfl
@[simp] theorem Bus.hostSt_send (b : Bus) (q : Nat) (o : Out) : (b.send o).hostSt q = b.hostSt q := rfl
@[simp] theorem Bus.accSt_emit (b : Bus) (q : Nat) (typ inst sev : Nat) (p : Payload) : (b.emit typ inst sev p).accSt q = b.accSt q := rfl
@[simp] theorem Bus.ringSt_emit (b : Bus) (q : Nat) (typ inst sev : Nat) (p : Payload) : (b.emit typ inst sev p).ringSt q = b.ringSt q := rfl
@[simp] theorem Bus.hostSt_emit (b : Bus) (q : Nat) (typ inst sev : Nat) (p : Payload) : (b.emit typ inst sev p).hostSt q = b.hostSt q := rfl
@[simp] theorem Bus.setAcc_reg (b : Bus) (n : Nat) (x : AccSt) (r : BReg) (i j : Nat) : (b.setAcc n x).reg r i j = b.reg r i j := rfl
@[simp] theorem Bus.setAcc_fld (b : Bus) (n : Nat) (x : AccSt) (r : BReg) (i j lo k : Nat) : (b.setAcc n x).fld r i j lo k = b.fld r i j lo k := rfl
@[simp] theorem Bus.ringSt_setAcc (b : Bus) (n q : Nat) (x : AccSt) : (b.setAcc n x).ringSt q = b.ringSt q := rfl
@[simp] theorem Bus.hostSt_setAcc (b : Bus) (n q : Nat) (x : AccSt) : (b.setAcc n x).hostSt q = b.hostSt q := rfl
@[simp] theorem Bus.setRing_reg (b : Bus) (n : Nat) (x : RingSt) (r : BReg) (i j : Nat) : (b.setRing n x).reg r i j = b.reg r i j := rfl
@[simp] theorem Bus.setRing_fld (b : Bus) (n : Nat) (x : RingSt) (r : BReg) (i j lo k : Nat) : (b.setRing n x).fld r i j lo k = b.fld r i j lo k := rfl
@[simp] theorem Bus.accSt_setRing (b : Bus) (n q : Nat) (x : RingSt) : (b.setRing n x).accSt q = b.accSt q := rfl
@[simp] theorem Bus.hostSt_setRing (b : Bus) (n q : Nat) (x : RingSt) : (b.setRing n x).hostSt q = b.hostSt q := rfl
@[simp] theorem Bus.setHost_reg (b : Bus) (n : Nat) (x : HostSt) (r : BReg) (i j : Nat) : (b.setHost n x).reg r i j = b.reg r i j := rfl
@[simp] theorem Bus.setHost_fld (b : Bus) (n : Nat) (x : HostSt) (r : BReg) (i j lo k : Nat) : (b.setHost n x).fld r i j lo k = b.fld r i j lo k := rfl
@[simp] theorem Bus.accSt_setHost (b : Bus) (n q : Nat) (x : HostSt) : (b.setHost n x).accSt q = b.accSt q := rfl
@[simp] theorem Bus.ringSt_setHost (b : Bus) (n q : Nat) (x : HostSt) : (b.setHost n x).ringSt q = b.ringSt q := rfl
@[simp] theorem Bus.reg_emit (b : Bus) (r : BReg) (i j : Nat) (typ inst sev : Nat) (p : Payload) : (b.emit typ inst sev p).reg r i j = b.reg r i j := rfl
@[simp] theorem Bus.fld_emit (b : Bus) (r : BReg) (i j lo k : Nat) (typ inst sev : Nat) (p : Payload) : (b.emit typ inst sev p).fld r i j lo k = b.fld r i j lo k := rfl
@[simp] theorem Bus.reg_send (b : Bus) (r : BReg) (i j : Nat) (o : Out) : (b.send o).reg r i j = b.reg r i j := rfl
@[simp] theorem Bus.fld_send (b : Bus) (r : BReg) (i j lo k : Nat) (o : Out) : (b.send o).fld r i j lo k = b.fld r i j lo k := rfl

/-- A record touches no per-instance state. -/
theorem Bus.journalAt_hosts (b : Bus) (t : Word) (kind cap inst : Nat) (body : List Byte) :
    (b.journalAt t kind cap inst body).hosts = b.hosts ∧ (b.journalAt t kind cap inst body).rings = b.rings ∧
      (b.journalAt t kind cap inst body).acc = b.acc := by
  have h : ∀ (n : Nat) (x : Bus), (Bus.jtrim n x).hosts = x.hosts ∧ (Bus.jtrim n x).rings = x.rings ∧ (Bus.jtrim n x).acc = x.acc := by
    intro n
    induction n with
    | zero => exact fun _ => ⟨rfl, rfl, rfl⟩
    | succ n ih =>
      intro x
      unfold Bus.jtrim
      split
      · exact ⟨rfl, rfl, rfl⟩
      · split
        · exact ⟨rfl, rfl, rfl⟩
        · exact ih _
  exact h 16 _

end Sys2Proof.Machine
end

