-- ==== Sys2Proof/Laws/Fields.lean ====
section
/-! SUPPORT. Bit fields of a register: a field reads as it was written, and a write leaves every other field alone. -/

namespace Sys2Proof.Machine

theorem bf_eq (w : Word) (lo n : Nat) : bf w lo n = w.toNat / 2 ^ lo % 2 ^ n := by
  simp [bf, Nat.shiftRight_eq_div_pow]

theorem bf_lt (w : Word) (lo n : Nat) : bf w lo n < 2 ^ n := Nat.mod_lt _ (Nat.two_pow_pos n)

/-- A word as the part below a field, the field and the part above it. -/
theorem word_split (w lo n : Nat) : w = w % 2 ^ lo + 2 ^ lo * (w / 2 ^ lo % 2 ^ n + 2 ^ n * (w / 2 ^ lo / 2 ^ n)) := by
  rw [Nat.mod_add_div, Nat.mod_add_div]

/-- What a field write leaves below the field, in it and above it. -/
theorem setBf_toNat (w : Word) (lo n v : Nat) (h : lo + n ≤ 32) :
    (setBf w lo n v).toNat = w.toNat % 2 ^ lo + 2 ^ lo * (v % 2 ^ n + 2 ^ n * (w.toNat / 2 ^ lo / 2 ^ n)) := by
  have hw := word_split w.toNat lo n
  have hl : w.toNat % 2 ^ lo < 2 ^ lo := Nat.mod_lt _ (Nat.two_pow_pos lo)
  have hv : v % 2 ^ n < 2 ^ n := Nat.mod_lt _ (Nat.two_pow_pos n)
  have hu : w.toNat / 2 ^ lo / 2 ^ n < 2 ^ (32 - (lo + n)) := by
    rw [Nat.div_div_eq_div_mul, ← Nat.pow_add, Nat.div_lt_iff_lt_mul (Nat.two_pow_pos _), ← Nat.pow_add,
      Nat.sub_add_cancel h]
    exact w.isLt
  rw [setBf, bf_eq, BitVec.toNat_ofNat]
  generalize w.toNat / 2 ^ lo / 2 ^ n = u at *
  generalize w.toNat / 2 ^ lo % 2 ^ n = m at *
  generalize w.toNat % 2 ^ lo = l at *
  generalize v % 2 ^ n = x at *
  have hp : 2 ^ lo * (2 ^ n * 2 ^ (32 - (lo + n))) = 2 ^ 32 := by rw [← Nat.pow_add, ← Nat.pow_add]; congr 1; omega
  have e : w.toNat - m * 2 ^ lo + x * 2 ^ lo = l + 2 ^ lo * (x + 2 ^ n * u) := by
    rw [hw, Nat.mul_add, Nat.mul_add, Nat.mul_comm m, Nat.mul_comm x]; omega
  rw [e]
  apply Nat.mod_eq_of_lt
  have h1 : x + 2 ^ n * u < 2 ^ n * (u + 1) := by rw [Nat.mul_succ]; omega
  have h2 : 2 ^ n * (u + 1) ≤ 2 ^ n * 2 ^ (32 - (lo + n)) := Nat.mul_le_mul_left _ hu
  have h3 : 2 ^ lo * (x + 2 ^ n * u + 1) ≤ 2 ^ lo * (2 ^ n * 2 ^ (32 - (lo + n))) := Nat.mul_le_mul_left _ (by omega)
  rw [hp, Nat.mul_succ] at h3
  omega

/-- A field reads as it was written. -/
theorem bf_setBf_self (w : Word) (lo n v : Nat) (h : lo + n ≤ 32) : bf (setBf w lo n v) lo n = v % 2 ^ n := by
  rw [bf_eq, setBf_toNat w lo n v h, Nat.add_mul_div_left _ _ (Nat.two_pow_pos lo),
    Nat.div_eq_of_lt (Nat.mod_lt _ (Nat.two_pow_pos lo)), Nat.zero_add, Nat.add_mul_mod_self_left, Nat.mod_mod]

theorem bf_congr_low {a b lo n lo' : Nat} (hl : lo + n ≤ lo') (h : a % 2 ^ lo' = b % 2 ^ lo') :
    a / 2 ^ lo % 2 ^ n = b / 2 ^ lo % 2 ^ n := by
  have key : ∀ x : Nat, x / 2 ^ lo % 2 ^ n = x % 2 ^ lo' / 2 ^ lo % 2 ^ n := by
    intro x
    obtain ⟨k, rfl⟩ := Nat.exists_eq_add_of_le hl
    rw [Nat.pow_add, Nat.pow_add, Nat.mul_assoc, Nat.mod_mul_right_div_self, Nat.mod_mul_right_mod]
  rw [key a, key b, h]

theorem bf_congr_high {a b lo n lo' : Nat} (hl : lo' ≤ lo) (h : a / 2 ^ lo' = b / 2 ^ lo') :
    a / 2 ^ lo % 2 ^ n = b / 2 ^ lo % 2 ^ n := by
  obtain ⟨k, rfl⟩ := Nat.exists_eq_add_of_le hl
  rw [Nat.pow_add, ← Nat.div_div_eq_div_mul, ← Nat.div_div_eq_div_mul, h]

/-- A write of one field leaves a field that lies apart from it alone. -/
theorem bf_setBf_ne (w : Word) (lo n v lo' n' : Nat) (h : lo + n ≤ 32) (hd : lo' + n' ≤ lo ∨ lo + n ≤ lo') :
    bf (setBf w lo n v) lo' n' = bf w lo' n' := by
  rw [bf_eq, bf_eq]
  have hs := setBf_toNat w lo n v h
  rcases hd with hd | hd
  · apply bf_congr_low hd
    rw [hs, Nat.add_mul_mod_self_left, Nat.mod_mod]
  · apply bf_congr_high hd
    rw [hs, Nat.pow_add, ← Nat.div_div_eq_div_mul, ← Nat.div_div_eq_div_mul, Nat.add_mul_div_left _ _ (Nat.two_pow_pos lo),
      Nat.div_eq_of_lt (Nat.mod_lt _ (Nat.two_pow_pos lo)), Nat.zero_add, Nat.add_mul_div_left _ _ (Nat.two_pow_pos n),
      Nat.div_eq_of_lt (Nat.mod_lt _ (Nat.two_pow_pos n)), Nat.zero_add]

end Sys2Proof.Machine
end

