-- ==== Sys2Proof/Laws/Regs.lean ====
section
/-! SUPPORT. Registers: a register reads as it was written, and a write leaves every other register, and every other field of
the same one, alone. -/

namespace Sys2Proof.Machine

theorem FReg.ctorIdx_inj {a b : FReg} (h : a.ctorIdx = b.ctorIdx) : a = b := by
  rw [← FReg.ofNat_ctorIdx a, h, FReg.ofNat_ctorIdx]

theorem BReg.ctorIdx_inj {a b : BReg} (h : a.ctorIdx = b.ctorIdx) : a = b := by
  rw [← BReg.ofNat_ctorIdx a, h, BReg.ofNat_ctorIdx]

/-- Two registers share a key only when they are the same register of the same function instance. -/
theorem FReg.key_eq_iff {a b : FReg} {i j k l : Nat} : a.key i j = b.key k l ↔ a = b ∧ i = k ∧ j = l := by
  unfold FReg.key
  rw [Nat.pair_eq_pair, Nat.pair_eq_pair]
  exact ⟨fun h => ⟨FReg.ctorIdx_inj h.1.1, h.1.2, h.2⟩, fun h => ⟨⟨by rw [h.1], h.2.1⟩, h.2.2⟩⟩

theorem BReg.key_eq_iff {a b : BReg} {i j k l : Nat} : a.key i j = b.key k l ↔ a = b ∧ i = k ∧ j = l := by
  unfold BReg.key
  rw [Nat.pair_eq_pair, Nat.pair_eq_pair]
  exact ⟨fun h => ⟨BReg.ctorIdx_inj h.1.1, h.1.2, h.2⟩, fun h => ⟨⟨by rw [h.1], h.2.1⟩, h.2.2⟩⟩

variable (s : State) (b : Bus)

/-- A function register after a write. -/
theorem State.reg_setReg (r r' : FReg) (i j i' j' : Nat) (v : Word) :
    (s.setReg r i j v).reg r' i' j' = if r = r' ∧ i = i' ∧ j = j' then v else s.reg r' i' j' := by
  unfold State.reg State.setReg
  split
  · rename_i h
    obtain ⟨rfl, rfl, rfl⟩ := h
    exact tabGet_tabSet_self _ _ _ _
  · rename_i h
    exact tabGet_tabSet_ne _ _ _ _ fun e => h (FReg.key_eq_iff.mp e)

@[simp] theorem State.reg_setReg_self (r : FReg) (i j : Nat) (v : Word) : (s.setReg r i j v).reg r i j = v := by
  simp [State.reg_setReg]

theorem State.reg_setReg_ne {r r' : FReg} (h : r ≠ r') (i j i' j' : Nat) (v : Word) :
    (s.setReg r i j v).reg r' i' j' = s.reg r' i' j' := by
  simp [State.reg_setReg, h]

/-- A bus register after a write. -/
theorem Bus.reg_setReg (r r' : BReg) (i j i' j' : Nat) (v : Word) :
    (b.setReg r i j v).reg r' i' j' = if r = r' ∧ i = i' ∧ j = j' then v else b.reg r' i' j' := by
  unfold Bus.reg Bus.setReg
  split
  · rename_i h
    obtain ⟨rfl, rfl, rfl⟩ := h
    exact tabGet_tabSet_self _ _ _ _
  · rename_i h
    exact tabGet_tabSet_ne _ _ _ _ fun e => h (BReg.key_eq_iff.mp e)

@[simp] theorem Bus.reg_setReg_self (r : BReg) (i j : Nat) (v : Word) : (b.setReg r i j v).reg r i j = v := by
  simp [Bus.reg_setReg]

theorem Bus.reg_setReg_ne {r r' : BReg} (h : r ≠ r') (i j i' j' : Nat) (v : Word) :
    (b.setReg r i j v).reg r' i' j' = b.reg r' i' j' := by
  simp [Bus.reg_setReg, h]

theorem State.reg_setFld_ne {r r' : FReg} (h : r ≠ r') (i j lo n v i' j' : Nat) :
    (s.setFld r i j lo n v).reg r' i' j' = s.reg r' i' j' := State.reg_setReg_ne s h ..

theorem Bus.reg_setFld_ne {r r' : BReg} (h : r ≠ r') (i j lo n v i' j' : Nat) :
    (b.setFld r i j lo n v).reg r' i' j' = b.reg r' i' j' := Bus.reg_setReg_ne b h ..

/-- A field of a function register reads as it was written. -/
theorem State.fld_setFld_self (r : FReg) (i j lo n v : Nat) (h : lo + n ≤ 32) : (s.setFld r i j lo n v).fld r i j lo n = v % 2 ^ n := by
  unfold State.fld State.setFld
  rw [State.reg_setReg_self, bf_setBf_self _ _ _ _ h]

/-- A write of one field leaves the fields apart from it. -/
theorem State.fld_setFld_apart (r : FReg) (i j lo n v lo' n' : Nat) (h : lo + n ≤ 32) (hd : lo' + n' ≤ lo ∨ lo + n ≤ lo') :
    (s.setFld r i j lo n v).fld r i j lo' n' = s.fld r i j lo' n' := by
  unfold State.fld State.setFld
  rw [State.reg_setReg_self, bf_setBf_ne _ _ _ _ _ _ h hd]

theorem State.fld_setFld_ne {r r' : FReg} (hr : r ≠ r') (i j lo n v i' j' lo' n' : Nat) :
    (s.setFld r i j lo n v).fld r' i' j' lo' n' = s.fld r' i' j' lo' n' := by
  unfold State.fld
  rw [State.reg_setFld_ne s hr]

theorem State.fld_setReg_ne {r r' : FReg} (hr : r ≠ r') (i j : Nat) (v : Word) (i' j' lo' n' : Nat) :
    (s.setReg r i j v).fld r' i' j' lo' n' = s.fld r' i' j' lo' n' := by
  unfold State.fld
  rw [State.reg_setReg_ne s hr]

theorem Bus.fld_setFld_self (r : BReg) (i j lo n v : Nat) (h : lo + n ≤ 32) : (b.setFld r i j lo n v).fld r i j lo n = v % 2 ^ n := by
  unfold Bus.fld Bus.setFld
  rw [Bus.reg_setReg_self, bf_setBf_self _ _ _ _ h]

theorem Bus.fld_setFld_apart (r : BReg) (i j lo n v lo' n' : Nat) (h : lo + n ≤ 32) (hd : lo' + n' ≤ lo ∨ lo + n ≤ lo') :
    (b.setFld r i j lo n v).fld r i j lo' n' = b.fld r i j lo' n' := by
  unfold Bus.fld Bus.setFld
  rw [Bus.reg_setReg_self, bf_setBf_ne _ _ _ _ _ _ h hd]

theorem Bus.fld_setFld_ne {r r' : BReg} (hr : r ≠ r') (i j lo n v i' j' lo' n' : Nat) :
    (b.setFld r i j lo n v).fld r' i' j' lo' n' = b.fld r' i' j' lo' n' := by
  unfold Bus.fld
  rw [Bus.reg_setFld_ne b hr]

/-- An update that leaves the table of function registers leaves each of them. -/
theorem State.reg_congr {s t : State} (h : t.fregs = s.fregs) (r : FReg) (i j : Nat) : t.reg r i j = s.reg r i j := by
  unfold State.reg
  rw [h]

theorem State.fld_congr {s t : State} (h : t.fregs = s.fregs) (r : FReg) (i j lo n : Nat) : t.fld r i j lo n = s.fld r i j lo n := by
  unfold State.fld
  rw [State.reg_congr h]

theorem Bus.reg_congr {a b : Bus} (h : b.regs = a.regs) (r : BReg) (i j : Nat) : b.reg r i j = a.reg r i j := by
  unfold Bus.reg
  rw [h]

end Sys2Proof.Machine
end

