-- ==== Sys2Proof/Laws/Commands.lean ====
section
/-! SUPPORT. How a command reaches its effect: the answers of the two dies and of the windows, host writes, ring commands and their
COMMAND record. -/

namespace Sys2Proof.Machine

theorem State.fabric_live {s : State} (h : s.live) (f : State → State) : s.fabric f = .next (f s).watch.settle := by
  simp [State.fabric, h.1, h.2]

theorem State.warden_powered {s : State} (h : s.powered = true) (f : State → State) : s.warden f = .next (f s).watch.settle := by
  simp [State.warden, h]

theorem State.window_served {s : State} (h : s.served = true) (f : State → State) : s.window f = .next (f s).watch.settle := by
  simp [State.window, h]

theorem State.hostReach_reached {s : State} {port cap inst : Nat} (h : s.reached port cap inst) (f : State → State) :
    s.hostReach port cap inst f = f s := by
  obtain ⟨hp, hu, hf, hh, ho⟩ := h
  simp [State.hostReach, Nat.not_le.mpr hp, hu, hf, hh, ho]

theorem State.hostWrite_reached {s : State} {port cap inst : Nat} (h : s.reached port cap inst) (blk off : Nat) (v : Word)
    (f : State → State) : s.hostWrite port cap inst blk off v f = f (s.regWriteRec port cap inst blk off v) :=
  State.hostReach_reached h _

/-- A ripe command that its performer ends completes with the status and reason it gives. -/
theorem State.runCmd_done {s u : State} {op r k st reason : Nat} {e : FEntry} {p : Perf} (h : s.ripe op r k e)
    (hp : p ((s.plan.ringHost r).getD 0) r e (s.begun r e) = (u, some (st, reason))) :
    s.runCmd op p r k = u.complete r e.k st reason := by
  obtain ⟨_, he, ho, hm, hh⟩ := h
  have hpl : (s.begun r e).plan = s.plan := by
    unfold State.begun State.commandRec State.journal State.onBus
    split <;> rfl
  simp [State.runCmd, State.perform, he, ho, hm, hh, hpl, hp]

/-- A ripe command that its performer leaves in progress. -/
theorem State.runCmd_goes {s u : State} {op r k : Nat} {e : FEntry} {p : Perf} (h : s.ripe op r k e)
    (hp : p ((s.plan.ringHost r).getD 0) r e (s.begun r e) = (u, none)) : s.runCmd op p r k = u := by
  obtain ⟨_, he, ho, hm, hh⟩ := h
  have hpl : (s.begun r e).plan = s.plan := by
    unfold State.begun State.commandRec State.journal State.onBus
    split <;> rfl
  simp [State.runCmd, State.perform, he, ho, hm, hh, hpl, hp]

theorem checked_ok {cap : Nat} {objOk argsOk offOk : Bool} {e : FEntry} {s : State} {f : State → State × Option (Nat × Nat)}
    (hh : s.plan.has cap e.inst = true) (ho : objOk = true) (ha : argsOk = true) (hn : (offOk || s.isOn cap e.inst) = true) :
    checked cap objOk argsOk offOk e s f = f s := by
  cases hO : offOk <;> simp_all [checked]

/-- What follows on the ports depends on a command of the lane layer only through the state that it leaves. -/
theorem State.withPorts_congr {f g : State → State} {s : State} (h : f s = g s) : State.withPorts f s = State.withPorts g s := by
  show forEach _ _ (f s) = forEach _ _ (g s)
  rw [h]

theorem State.fabric_ports {f g : State → State} {s : State} (hl : s.live) (h : f s = g s) :
    s.fabric (State.withPorts f) = .next (State.withPorts g s).watch.settle := by
  rw [State.fabric_live hl, State.withPorts_congr h]

theorem State.fabric_to {f : State → State} {s t : State} (hl : s.live) (h : f s = t) : s.fabric f = .next t.watch.settle := by
  rw [State.fabric_live hl, h]

/-- A packet among the line bits goes to the meaning of its row; where there is none, only what the bits themselves show is noted. -/
theorem State.arrives_some {s u : State} {p : Nat} {skew : List Nat} {lines : List (List Bool)} {sync : Bool} {raw : List Byte}
    (f : State → Bool → List Byte → State) (h : s.arrive p skew lines = (u, some (sync, raw))) : s.arrives p skew lines f = f u sync raw := by
  unfold State.arrives; rw [h]

theorem State.arrives_none {s u : State} {p : Nat} {skew : List Nat} {lines : List (List Bool)}
    (f : State → Bool → List Byte → State) (h : s.arrive p skew lines = (u, none)) : s.arrives p skew lines f = u := by
  unfold State.arrives; rw [h]

/-- A port that is not ACTIVE takes no packet. -/
theorem State.arrive_down {s : State} {p : Nat} (h : s.portState p ≠ 2) (skew : List Nat) (lines : List (List Bool)) :
    s.arrive p skew lines = (s, none) := by
  unfold State.arrive; rw [if_pos h]

/-- A ripe command, answered as a whole. -/
theorem State.fabric_done {s u : State} {op r k st reason : Nat} {e : FEntry} {p : Perf} (h : s.ripe op r k e)
    (hp : p ((s.plan.ringHost r).getD 0) r e (s.begun r e) = (u, some (st, reason))) :
    s.fabric (fun s => s.runCmd op p r k) = .next (u.complete r e.k st reason).watch.settle :=
  State.fabric_to h.1 (State.runCmd_done h hp)

theorem State.fabric_goes {s u : State} {op r k : Nat} {e : FEntry} {p : Perf} (h : s.ripe op r k e)
    (hp : p ((s.plan.ringHost r).getD 0) r e (s.begun r e) = (u, none)) :
    s.fabric (fun s => s.runCmd op p r k) = .next u.watch.settle :=
  State.fabric_to h.1 (State.runCmd_goes h hp)

/-! ### What a journal record leaves -/

theorem Bus.jtrim_regs (n : Nat) (b : Bus) : (Bus.jtrim n b).regs = b.regs := by
  induction n generalizing b with
  | zero => rfl
  | succ n ih =>
    unfold Bus.jtrim
    split
    · rfl
    · split
      · rfl
      · exact ih _

theorem Bus.journalAt_reg (b : Bus) (t : Word) (kind cap inst : Nat) (body : List Byte) (r : BReg) (i j : Nat) (h : r ≠ .jrnSeq) :
    (b.journalAt t kind cap inst body).reg r i j = b.reg r i j := by
  unfold Bus.journalAt
  exact (Bus.reg_congr (Bus.jtrim_regs _ _) r i j).trans (Bus.reg_setReg_ne b (Ne.symm h) 0 0 i j _)

/-- A record changes the shared part alone. -/
theorem State.journal_eq (s : State) (kind cap inst : Nat) (body : List Byte) :
    s.journal kind cap inst body = { s with bus := (s.journal kind cap inst body).bus } := by
  unfold State.journal State.onBus
  split <;> rfl

theorem State.journal_bus_reg (s : State) (kind cap inst : Nat) (body : List Byte) (r : BReg) (i j : Nat) (h : r ≠ .jrnSeq) :
    (s.journal kind cap inst body).bus.reg r i j = s.bus.reg r i j := by
  unfold State.journal State.onBus
  split
  · exact Bus.journalAt_reg _ _ _ _ _ _ _ _ _ h
  · rfl

/-- A REG_WRITE record changes the shared part alone, and of its registers JRN_SEQ alone. -/
theorem State.regWriteRec_eq (s : State) (port cap inst blk off : Nat) (v : Word) :
    s.regWriteRec port cap inst blk off v = { s with bus := (s.regWriteRec port cap inst blk off v).bus } := by
  unfold State.regWriteRec
  split
  · rfl
  · rw [State.journal_eq]

theorem State.regWriteRec_bus_reg (s : State) (port cap inst blk off : Nat) (v : Word) (q : BReg) (i j : Nat) (h : q ≠ .jrnSeq) :
    (s.regWriteRec port cap inst blk off v).bus.reg q i j = s.bus.reg q i j := by
  unfold State.regWriteRec
  split
  · rfl
  · exact State.journal_bus_reg _ _ _ _ _ _ _ _ h

theorem State.regWriteRec_hostSt (s : State) (port cap inst blk off : Nat) (v : Word) (h : Nat) :
    (s.regWriteRec port cap inst blk off v).bus.hostSt h = s.bus.hostSt h := by
  unfold State.regWriteRec State.journal State.onBus Bus.hostSt
  split
  · rfl
  · split
    · exact congrArg (fun t => tabGet HostSt.init t h) (Bus.journalAt_hosts ..).1
    · rfl

theorem State.regWriteRec_plan (s : State) (port cap inst blk off : Nat) (v : Word) :
    (s.regWriteRec port cap inst blk off v).plan = s.plan := by rw [State.regWriteRec_eq]

theorem State.regWriteRec_reg (s : State) (port cap inst blk off : Nat) (v : Word) (q : FReg) (i j : Nat) :
    (s.regWriteRec port cap inst blk off v).reg q i j = s.reg q i j := State.reg_congr (by rw [State.regWriteRec_eq]) q i j

/-- The start of a command changes the shared part alone. -/
theorem State.begun_eq (s : State) (r : Nat) (e : FEntry) : s.begun r e = { s with bus := (s.begun r e).bus } := by
  unfold State.begun State.commandRec
  rw [State.journal_eq]
  rfl

theorem State.begun_bus_reg (s : State) (r : Nat) (e : FEntry) (q : BReg) (i j : Nat) (h1 : q ≠ .jrnSeq) (h2 : q ≠ .ringStatus) :
    (s.begun r e).bus.reg q i j = s.bus.reg q i j := by
  unfold State.begun State.onBus Bus.stalled
  rw [Bus.reg_setFld_ne _ (Ne.symm h2)]
  exact State.journal_bus_reg _ _ _ _ _ _ _ _ h1

theorem State.begun_reg (s : State) (r : Nat) (e : FEntry) (q : FReg) (i j : Nat) : (s.begun r e).reg q i j = s.reg q i j :=
  State.reg_congr (by rw [State.begun_eq]) q i j

theorem State.begun_isOn (s : State) (r : Nat) (e : FEntry) (cap inst : Nat) : (s.begun r e).isOn cap inst = s.isOn cap inst := by
  unfold State.isOn Bus.isOn Bus.fnState Bus.fld
  rw [State.begun_bus_reg s r e .fnCtl cap inst (by decide) (by decide)]

theorem State.begun_plan (s : State) (r : Nat) (e : FEntry) : (s.begun r e).plan = s.plan := by rw [State.begun_eq]

/-- The common checks of a command at the state its performer starts from. -/
theorem State.checked_begun {s : State} {r cap : Nat} {objOk argsOk offOk : Bool} {e : FEntry} {f : State → State × Option (Nat × Nat)}
    (hh : s.plan.has cap e.inst = true) (ho : objOk = true) (ha : argsOk = true) (hn : (offOk || s.isOn cap e.inst) = true) :
    checked cap objOk argsOk offOk e (s.begun r e) f = f (s.begun r e) :=
  checked_ok (by rw [State.begun_plan]; exact hh) ho ha (by rw [State.begun_isOn]; exact hn)

/-! ### Structure and debug commands -/

/-- The fields of a STRUCT_CMD word. -/
theorem bf_arg (k o : Nat) (ho : o < 256) : bf (w32 (k % 16 * 256 + o)) 8 4 = k % 16 ∧ bf (w32 (k % 16 * 256 + o)) 0 8 = o := by
  have h : k % 16 < 16 := Nat.mod_lt _ (by decide)
  generalize k % 16 = j at *
  unfold bf w32
  simp only [BitVec.toNat_ofNat, Nat.shiftRight_eq_div_pow]
  constructor <;> omega

/-- A write of STRUCT_CMD that reaches STRUCTURE. -/
theorem State.structCmdWrite_reached {s : State} {port k o : Nat} (ho : o < 256) (hr : s.reached port 0x34 0) :
    s.structCmdWrite port (w32 (k % 16 * 256 + o)) = (s.regWriteRec port 0x34 0 0 0x40 (w32 (k % 16 * 256 + o))).structCmd port o (k % 16) := by
  unfold State.structCmdWrite; rw [State.hostWrite_reached hr, (bf_arg k o ho).1, (bf_arg k o ho).2]

/-- A command written on an idle STRUCTURE, by its OP. -/
theorem State.structCmd_idle {t : State} (h : t.structBusy = false) (port : Nat) :
    (∀ a, structRange 1 a = false → t.structCmd port 1 a = (t.structTake port 1).writeSlot a) ∧
    (∀ a, structRange 2 a = false → t.structCmd port 2 a = (t.structTake port 2).setPreferred a) ∧
    (t.structCmd port 3 0 = (t.structTake port 3).confirmSlot) ∧
    (∀ a, structRange 4 a = false → (t.structTake port 4).effTemp < (t.structTake port 4).critTemp →
      t.structCmd port 4 a = (t.structTake port 4).structRead 4 a) ∧
    (t.structCmd port 5 0 = (t.structTake port 5).structRead 5 0) ∧
    (∀ a, structRange 6 a = false → t.structCmd port 6 a = (t.structTake port 6).structRead 6 a) ∧
    (t.structCmd port 7 0 = (t.structTake port 7).raiseFloor) ∧
    (∀ a, structRange 8 a = false → (t.structTake port 8).lifecycle = 0 → ((t.structTake port 8).otp.hashes.getD a []).isEmpty = true →
      t.structCmd port 8 a = (t.structTake port 8).structRead 8 a) ∧
    (∀ op a, structRange op a = true → t.structCmd port op a = (t.structTake port op).structEnd 3 9) := by
  refine ⟨?_, ?_, ?_, ?_, ?_, ?_, ?_, ?_, ?_⟩
  · intro a ha; unfold State.structCmd; simp only [h, ha, Bool.false_eq_true, if_false]
  · intro a ha; unfold State.structCmd; simp only [h, ha, Bool.false_eq_true, if_false]
  · unfold State.structCmd; simp only [h, structRange, Bool.false_eq_true, if_false]
  · intro a ha hb; unfold State.structCmd; simp only [h, ha, Bool.false_eq_true, if_false]; rw [if_neg (by omega)]
  · unfold State.structCmd; simp only [h, structRange, Bool.false_eq_true, if_false]
  · intro a ha; unfold State.structCmd; simp only [h, ha, Bool.false_eq_true, if_false]
  · unfold State.structCmd; simp only [h, structRange, Bool.false_eq_true, if_false]
  · intro a ha hb hc; unfold State.structCmd; simp only [h, ha, hb, hc, Bool.false_eq_true, if_false, ne_eq, not_true, Bool.not_true, or_self]
  · intro op a ha; unfold State.structCmd; simp only [h, ha, Bool.false_eq_true, if_false, if_true]

/-- DEBUG_CMD 1 and 2, written with no command BUSY. -/
theorem State.debugCmd_enter {s : State} {port : Nat} (hr : s.reached port 0x35 0)
    (hb : (s.regWriteRec port 0x35 0 0 0x04 1).fld .debugStatus 0 0 0 2 ≠ 1) :
    s.debugCmd port 1 = (s.regWriteRec port 0x35 0 0 0x04 1).enterService := by
  unfold State.debugCmd
  rw [State.hostWrite_reached hr, show bf (1 : Word) 0 8 = 1 by decide]
  generalize s.regWriteRec port 0x35 0 0 0x04 1 = t at *
  simp only [if_neg hb]

theorem State.debugCmd_set {s : State} {port : Nat} (hr : s.reached port 0x35 0)
    (hb : (s.regWriteRec port 0x35 0 0 0x04 2).fld .debugStatus 0 0 0 2 ≠ 1) :
    s.debugCmd port 2 = (s.regWriteRec port 0x35 0 0 0x04 2).setField := by
  unfold State.debugCmd
  rw [State.hostWrite_reached hr, show bf (2 : Word) 0 8 = 2 by decide]
  generalize s.regWriteRec port 0x35 0 0 0x04 2 = t at *
  simp only [if_neg hb]

end Sys2Proof.Machine
end

