-- ==== Sys2Proof/Laws/Keeps.lean ====
section
/-! SUPPORT. How what a command keeps passes through the forms that meanings are written in. Each law is stated from a fixed first
state, so that the laws of a chain of operations apply one after the other. -/

namespace Sys2Proof.Machine

theorem OtpKeeps.refl (a : OtpSt) : OtpKeeps a a := ⟨fun _ h => h, Nat.le_refl _, id⟩

theorem OtpKeeps.trans {a b c : OtpSt} (h : OtpKeeps a b) (g : OtpKeeps b c) : OtpKeeps a c :=
  ⟨fun i x => g.revoked i (h.revoked i x), Nat.le_trans h.floor g.floor, fun x => g.field (h.field x)⟩

theorem BusKeeps.refl (a : Bus) : BusKeeps a a := ⟨id, Nat.le_refl _, Nat.le_refl _, List.prefix_refl _⟩

theorem BusKeeps.trans {a b c : Bus} (h : BusKeeps a b) (g : BusKeeps b c) : BusKeeps a c :=
  ⟨fun x => g.mem (h.mem x), Nat.le_trans h.ticks g.ticks, Nat.le_trans h.free g.free, h.wire.trans g.wire⟩

theorem Keeps.refl (s : State) : Keeps s s := ⟨.refl _, .refl _, rfl⟩

theorem Keeps.trans {s t u : State} (h : Keeps s t) (g : Keeps t u) : Keeps s u :=
  ⟨h.bus.trans g.bus, h.otp.trans g.otp, g.queue.trans h.queue⟩

/-- An update of the shared part that touches none of the fields. -/
theorem BusKeeps.upd {a b c : Bus} (h : BusKeeps a b) (hm : c.mem = b.mem) (ht : c.ticks = b.ticks) (hf : c.free = b.free)
    (hw : c.wire = b.wire) : BusKeeps a c :=
  h.trans ⟨fun x => hm ▸ x, Nat.le_of_eq ht.symm, Nat.le_of_eq hf.symm, hw ▸ List.prefix_refl _⟩

/-- An update of the state that touches none of the fields. -/
theorem Keeps.upd {s t u : State} (h : Keeps s t) (hb : u.bus = t.bus) (ho : u.otp = t.otp) (hp : u.pending = t.pending) :
    Keeps s u := ⟨hb ▸ h.bus, ho ▸ h.otp, hp.trans h.queue⟩

/-- An update of the state's shared part. -/
theorem Keeps.updBus {s t u : State} (h : Keeps s t) (hp : u.pending = t.pending) (ho : u.otp = t.otp) (hb : BusKeeps t.bus u.bus) :
    Keeps s u := ⟨h.bus.trans hb, ho ▸ h.otp, hp.trans h.queue⟩

/-- A record update of the state: OTP and the queue stand as they are. -/
theorem Keeps.mk' {s t : State} {powered fabricUp b plan fregs lanes links tim srcs decs cores coreBad coreOut heads wbs encs panels
    jrn tnd wdn flash} (h : Keeps s t) (hb : BusKeeps t.bus b) :
    Keeps s (State.mk powered fabricUp b plan fregs lanes links tim srcs decs cores coreBad coreOut heads wbs encs panels
      jrn tnd wdn flash t.otp t.pending) := h.updBus rfl rfl hb

/-- A record update of the shared part: memory, elapsed ticks, free values and messages stand as they are. -/
theorem BusKeeps.mk' {a b : Bus} {time frac regs pairLo froz wq mx acc hosts rings fns jbuf jlost jlostFirst jgap outbox}
    (h : BusKeeps a b) :
    BusKeeps a (Bus.mk time frac b.ticks regs pairLo froz b.mem wq mx acc hosts rings fns jbuf jlost jlostFirst jgap outbox b.wire
      b.free) := h.upd rfl rfl rfl rfl

/-- Writing bytes keeps memory's form. -/
theorem memPut_wf {mem : List Host.Cell} (a : Nat) (vs : List Byte) (h : Memory.wf mem = true) : Memory.wf (memPut mem a vs) = true := by
  induction vs generalizing mem a with
  | nil => exact h
  | cons v vs ih => exact ih (a + 1) (tabWf_tabSet 0 a v h)

theorem memPuts_wf {mem : List Host.Cell} (ws : List QWrite) (h : Memory.wf mem = true) :
    Memory.wf (ws.foldl (fun m w => memPut m w.addr w.data) mem) = true := by
  induction ws generalizing mem with
  | nil => exact h
  | cons w ws ih => exact ih (memPut_wf w.addr w.data h)

/-- A record update of the shared part that writes bytes into memory. -/
theorem BusKeeps.put {a b : Bus} {time frac regs pairLo froz wq mx acc hosts rings fns jbuf jlost jlostFirst jgap outbox n vs}
    (h : BusKeeps a b) :
    BusKeeps a (Bus.mk time frac b.ticks regs pairLo froz (memPut b.mem n vs) wq mx acc hosts rings fns jbuf jlost jlostFirst jgap
      outbox b.wire b.free) :=
  h.trans ⟨memPut_wf n vs, Nat.le_refl _, Nat.le_refl _, List.prefix_refl _⟩

/-- A record update of the shared part that counts a tick. -/
theorem BusKeeps.tick {a b : Bus} {time frac regs pairLo froz wq mx acc hosts rings fns jbuf jlost jlostFirst jgap outbox}
    (h : BusKeeps a b) :
    BusKeeps a (Bus.mk time frac (b.ticks + 1) regs pairLo froz b.mem wq mx acc hosts rings fns jbuf jlost jlostFirst jgap
      outbox b.wire b.free) :=
  h.trans ⟨id, Nat.le_succ _, Nat.le_refl _, List.prefix_refl _⟩

/-- A record update of the shared part that drops bytes from memory. -/
theorem BusKeeps.drop {a b : Bus} {time frac regs pairLo froz wq mx acc hosts rings fns jbuf jlost jlostFirst jgap outbox p}
    (h : BusKeeps a b) :
    BusKeeps a (Bus.mk time frac b.ticks regs pairLo froz (b.mem.filter p) wq mx acc hosts rings fns jbuf jlost jlostFirst jgap
      outbox b.wire b.free) :=
  h.trans ⟨tabWf_filter 0 p, Nat.le_refl _, Nat.le_refl _, List.prefix_refl _⟩

theorem AnswerKeeps.next {s t : State} (h : Keeps s t) : AnswerKeeps s (.next t) := by
  intro u hu
  cases hu
  exact h

theorem Keeps.ite {c : Prop} [Decidable c] {s a b : State} (ha : Keeps s a) (hb : Keeps s b) : Keeps s (if c then a else b) := by
  split <;> assumption

theorem BusKeeps.ite {c : Prop} [Decidable c] {s a b : Bus} (ha : BusKeeps s a) (hb : BusKeeps s b) :
    BusKeeps s (if c then a else b) := by
  split <;> assumption

theorem Keeps.iteFst {c : Prop} [Decidable c] {α : Type} {s : State} {a b : State × α} (ha : Keeps s a.1) (hb : Keeps s b.1) :
    Keeps s (if c then a else b).1 := by
  split <;> assumption

theorem BusKeeps.iteFst {c : Prop} [Decidable c] {α : Type} {s : Bus} {a b : Bus × α} (ha : BusKeeps s a.1) (hb : BusKeeps s b.1) :
    BusKeeps s (if c then a else b).1 := by
  split <;> assumption

theorem Keeps.iteSnd {c : Prop} [Decidable c] {α : Type} {s : State} {a b : α × State} (ha : Keeps s a.2) (hb : Keeps s b.2) :
    Keeps s (if c then a else b).2 := by
  split <;> assumption

/-- A pair matched apart. -/
theorem Keeps.ofPair {α : Type} {s t : State} {p : State × α} {x : α} (hp : Keeps s p.1) (h : p = (t, x)) : Keeps s t := by
  rw [h] at hp; exact hp

theorem BusKeeps.ofPair {α : Type} {s t : Bus} {p : Bus × α} {x : α} (hp : BusKeeps s p.1) (h : p = (t, x)) : BusKeeps s t := by
  rw [h] at hp; exact hp

theorem Keeps.ofPairSnd {α : Type} {s t : State} {p : α × State} {x : α} (hp : Keeps s p.2) (h : p = (x, t)) : Keeps s t := by
  rw [h] at hp; exact hp

theorem Keeps.forEach {α : Type} {s t : State} {xs : List α} {f : α → State → State} (ht : Keeps s t)
    (hf : ∀ x u, Keeps s u → Keeps s (f x u)) : Keeps s (forEach xs f t) := by
  unfold Machine.forEach
  induction xs generalizing t with
  | nil => exact ht
  | cons x xs ih => exact ih (hf x t ht)

theorem Keeps.forEachFst {α β : Type} {s : State} {t : State × β} {xs : List α} {f : α → State × β → State × β} (ht : Keeps s t.1)
    (hf : ∀ x u, Keeps s u.1 → Keeps s (f x u).1) : Keeps s (Machine.forEach xs f t).1 := by
  unfold Machine.forEach
  induction xs generalizing t with
  | nil => exact ht
  | cons x xs ih => exact ih (hf x t ht)

theorem BusKeeps.forEach {α : Type} {s t : Bus} {xs : List α} {f : α → Bus → Bus} (ht : BusKeeps s t)
    (hf : ∀ x u, BusKeeps s u → BusKeeps s (f x u)) : BusKeeps s (Machine.forEach xs f t) := by
  unfold Machine.forEach
  induction xs generalizing t with
  | nil => exact ht
  | cons x xs ih => exact ih (hf x t ht)

theorem Keeps.foldl {α : Type} {s t : State} {xs : List α} {f : State → α → State} (ht : Keeps s t)
    (hf : ∀ u x, Keeps s u → Keeps s (f u x)) : Keeps s (xs.foldl f t) := by
  induction xs generalizing t with
  | nil => exact ht
  | cons x xs ih => exact ih (hf t x ht)

theorem Keeps.foldlFst {α β : Type} {s : State} {t : State × β} {xs : List α} {f : State × β → α → State × β} (ht : Keeps s t.1)
    (hf : ∀ u x, Keeps s u.1 → Keeps s (f u x).1) : Keeps s (xs.foldl f t).1 := by
  induction xs generalizing t with
  | nil => exact ht
  | cons x xs ih => exact ih (hf t x ht)

theorem BusKeeps.foldl {α : Type} {s t : Bus} {xs : List α} {f : Bus → α → Bus} (ht : BusKeeps s t)
    (hf : ∀ u x, BusKeeps s u → BusKeeps s (f u x)) : BusKeeps s (xs.foldl f t) := by
  induction xs generalizing t with
  | nil => exact ht
  | cons x xs ih => exact ih (hf t x ht)

theorem BusKeeps.foldlFst {α β : Type} {s : Bus} {t : Bus × β} {xs : List α} {f : Bus × β → α → Bus × β} (ht : BusKeeps s t.1)
    (hf : ∀ u x, BusKeeps s u.1 → BusKeeps s (f u x).1) : BusKeeps s (xs.foldl f t).1 := by
  induction xs generalizing t with
  | nil => exact ht
  | cons x xs ih => exact ih (hf t x ht)

end Sys2Proof.Machine
end

