-- ==== Sys2Proof/Laws/Ends.lean ====
section
/-! SUPPORT. What stands after a command's effect until the command ends: panels follow and events are delivered (`State.watch`,
`State.settle`). These touch the panels and their registers, event rings and what posting to them counts, and nothing else. -/

namespace Sys2Proof.Machine

/-- Registers that delivering an event or a report can change: those of rings and of their function control words, of events lost, of
refused and unmapped writes, of bytes moved, of fence objects. `i` is the instance, for FN_CTL the CAP_ID. -/
@[reducible] def eventReg (r : BReg) (i : Nat) : Bool :=
  match r with
  | .fnCtl => i == 2
  | .ringProd | .ringCons | .ringStatus | .coreEvtLost | .accWriteRefused | .memUnmapped | .memBytesS0Lo | .memBytesS0Hi
  | .memBytesS1Lo | .memBytesS1Hi | .fenceValueLo | .fenceValueHi => true
  | _ => false

/-- Registers that a panel that follows its port, head or role can change. -/
@[reducible] def panelReg (r : FReg) : Bool :=
  match r with
  | .touchStatus | .touchSuspect | .touchDropped | .touchReports | .touchLastAge => true
  | _ => false

/-- What delivery leaves of the shared part. -/
structure BusOnly (a b : Bus) : Prop where
  time : b.time = a.time
  frac : b.frac = a.frac
  ticks : b.ticks = a.ticks
  pairLo : b.pairLo = a.pairLo
  froz : b.froz = a.froz
  jbuf : b.jbuf = a.jbuf
  jlost : b.jlost = a.jlost
  jlostFirst : b.jlostFirst = a.jlostFirst
  jgap : b.jgap = a.jgap
  reg : ∀ r i j, eventReg r i = false → b.reg r i j = a.reg r i j

/-- What delivery and following leave of the state. -/
structure PanelOnly (s t : State) : Prop where
  bus : BusOnly s.bus t.bus
  reg : ∀ r i j, panelReg r = false → t.reg r i j = s.reg r i j
  powered : t.powered = s.powered
  fabricUp : t.fabricUp = s.fabricUp
  plan : t.plan = s.plan
  lanes : t.lanes = s.lanes
  links : t.links = s.links
  tim : t.tim = s.tim
  srcs : t.srcs = s.srcs
  decs : t.decs = s.decs
  cores : t.cores = s.cores
  coreBad : t.coreBad = s.coreBad
  coreOut : t.coreOut = s.coreOut
  heads : t.heads = s.heads
  wbs : t.wbs = s.wbs
  encs : t.encs = s.encs
  jrn : t.jrn = s.jrn
  tnd : t.tnd = s.tnd
  wdn : t.wdn = s.wdn
  flash : t.flash = s.flash
  otp : t.otp = s.otp
  pending : t.pending = s.pending

theorem BusOnly.refl (a : Bus) : BusOnly a a := ⟨rfl, rfl, rfl, rfl, rfl, rfl, rfl, rfl, rfl, fun _ _ _ _ => rfl⟩

theorem BusOnly.trans {a b c : Bus} (h : BusOnly a b) (g : BusOnly b c) : BusOnly a c :=
  ⟨g.time.trans h.time, g.frac.trans h.frac, g.ticks.trans h.ticks, g.pairLo.trans h.pairLo, g.froz.trans h.froz,
    g.jbuf.trans h.jbuf, g.jlost.trans h.jlost, g.jlostFirst.trans h.jlostFirst, g.jgap.trans h.jgap,
    fun r i j x => (g.reg r i j x).trans (h.reg r i j x)⟩

theorem BusOnly.upd {a b c : Bus} (h : BusOnly a b) (h1 : c.time = b.time) (h2 : c.frac = b.frac) (h3 : c.ticks = b.ticks)
    (h4 : c.pairLo = b.pairLo) (h5 : c.froz = b.froz) (h6 : c.jbuf = b.jbuf) (h7 : c.jlost = b.jlost)
    (h8 : c.jlostFirst = b.jlostFirst) (h9 : c.jgap = b.jgap) (h10 : c.regs = b.regs) : BusOnly a c :=
  h.trans ⟨h1, h2, h3, h4, h5, h6, h7, h8, h9, fun r i j _ => Bus.reg_congr h10 r i j⟩

/-- A record update that leaves time, registers and the journal buffer. -/
theorem BusOnly.mk' {a b : Bus} {mem wq mx acc hosts rings fns outbox wire free} (h : BusOnly a b) :
    BusOnly a (Bus.mk b.time b.frac b.ticks b.regs b.pairLo b.froz mem wq mx acc hosts rings fns b.jbuf b.jlost b.jlostFirst b.jgap
      outbox wire free) := h.upd rfl rfl rfl rfl rfl rfl rfl rfl rfl rfl

theorem PanelOnly.refl (s : State) : PanelOnly s s :=
  ⟨.refl _, fun _ _ _ _ => rfl, rfl, rfl, rfl, rfl, rfl, rfl, rfl, rfl, rfl, rfl, rfl, rfl, rfl, rfl, rfl, rfl, rfl, rfl, rfl, rfl⟩

/-- An update of the shared part and the panels alone. -/
theorem PanelOnly.updBus {s t u : State} (h : PanelOnly s t) (hr : u.fregs = t.fregs) (hb : BusOnly t.bus u.bus)
    (h1 : u.powered = t.powered) (h2 : u.fabricUp = t.fabricUp) (h3 : u.plan = t.plan) (h4 : u.lanes = t.lanes) (h5 : u.links = t.links)
    (h6 : u.tim = t.tim) (h7 : u.srcs = t.srcs) (h8 : u.decs = t.decs) (h9 : u.cores = t.cores) (h10 : u.coreBad = t.coreBad)
    (h11 : u.coreOut = t.coreOut) (h12 : u.heads = t.heads) (h13 : u.wbs = t.wbs) (h14 : u.encs = t.encs) (h15 : u.jrn = t.jrn)
    (h16 : u.tnd = t.tnd) (h17 : u.wdn = t.wdn) (h18 : u.flash = t.flash) (h19 : u.otp = t.otp) : (hp : u.pending = t.pending := by rfl) →
    PanelOnly s u := fun hp =>
  ⟨h.bus.trans hb, fun r i j x => (State.reg_congr hr r i j).trans (h.reg r i j x), h1.trans h.powered, h2.trans h.fabricUp,
    h3.trans h.plan, h4.trans h.lanes, h5.trans h.links, h6.trans h.tim, h7.trans h.srcs, h8.trans h.decs, h9.trans h.cores,
    h10.trans h.coreBad, h11.trans h.coreOut, h12.trans h.heads, h13.trans h.wbs, h14.trans h.encs, h15.trans h.jrn, h16.trans h.tnd,
    h17.trans h.wdn, h18.trans h.flash, h19.trans h.otp, hp.trans h.pending⟩

theorem BusOnly.ite {c : Prop} [Decidable c] {s a b : Bus} (ha : BusOnly s a) (hb : BusOnly s b) : BusOnly s (if c then a else b) := by
  split <;> assumption

theorem BusOnly.iteFst {c : Prop} [Decidable c] {α : Type} {s : Bus} {a b : Bus × α} (ha : BusOnly s a.1) (hb : BusOnly s b.1) :
    BusOnly s (if c then a else b).1 := by
  split <;> assumption

theorem PanelOnly.ite {c : Prop} [Decidable c] {s a b : State} (ha : PanelOnly s a) (hb : PanelOnly s b) :
    PanelOnly s (if c then a else b) := by
  split <;> assumption

theorem PanelOnly.iteFst {c : Prop} [Decidable c] {α : Type} {s : State} {a b : State × α} (ha : PanelOnly s a.1)
    (hb : PanelOnly s b.1) : PanelOnly s (if c then a else b).1 := by
  split <;> assumption

theorem BusOnly.ofPair {α : Type} {s t : Bus} {p : Bus × α} {x : α} (hp : BusOnly s p.1) (h : p = (t, x)) : BusOnly s t := by
  rw [h] at hp; exact hp

theorem PanelOnly.ofPair {α : Type} {s t : State} {p : State × α} {x : α} (hp : PanelOnly s p.1) (h : p = (t, x)) : PanelOnly s t := by
  rw [h] at hp; exact hp

theorem BusOnly.foldl {α : Type} {s t : Bus} {xs : List α} {f : Bus → α → Bus} (ht : BusOnly s t)
    (hf : ∀ u x, BusOnly s u → BusOnly s (f u x)) : BusOnly s (xs.foldl f t) := by
  induction xs generalizing t with
  | nil => exact ht
  | cons x xs ih => exact ih (hf t x ht)

theorem PanelOnly.forEach {α : Type} {s t : State} {xs : List α} {f : α → State → State} (ht : PanelOnly s t)
    (hf : ∀ x u, PanelOnly s u → PanelOnly s (f x u)) : PanelOnly s (forEach xs f t) := by
  unfold Machine.forEach
  induction xs generalizing t with
  | nil => exact ht
  | cons x xs ih => exact ih (hf x t ht)

theorem Bus.setReg_only {z b : Bus} {r : BReg} {i j : Nat} {v : Word} (h : BusOnly z b) (hr : eventReg r i = true) :
    BusOnly z (b.setReg r i j v) :=
  h.trans ⟨rfl, rfl, rfl, rfl, rfl, rfl, rfl, rfl, rfl, fun q k l hq => by
    rw [Bus.reg_setReg]
    split
    · rename_i e
      obtain ⟨rfl, rfl, rfl⟩ := e
      rw [hr] at hq
      cases hq
    · rfl⟩

theorem Bus.setFld_only {z b : Bus} {r : BReg} {i j lo n v : Nat} (h : BusOnly z b) (hr : eventReg r i = true) :
    BusOnly z (b.setFld r i j lo n v) := Bus.setReg_only h hr

theorem Bus.bump_only {z b : Bus} {r : BReg} {i j n : Nat} (h : BusOnly z b) (hr : eventReg r i = true) :
    BusOnly z (b.bump r i j n) := Bus.setReg_only h hr

theorem Bus.setPair_only {z b : Bus} {lo hi : BReg} {i j v : Nat} (h : BusOnly z b) (hl : eventReg lo i = true)
    (hh : eventReg hi i = true) : BusOnly z (b.setPair lo hi i j v) := Bus.setReg_only (Bus.setReg_only h hl) hh

theorem Bus.send_only {z b : Bus} {o : Out} (h : BusOnly z b) : BusOnly z (b.send o) :=
  h.upd rfl rfl rfl rfl rfl rfl rfl rfl rfl rfl

theorem Bus.emitAt_only {z b : Bus} {t f ty i sv p} (h : BusOnly z b) : BusOnly z (b.emitAt t f ty i sv p) :=
  h.upd rfl rfl rfl rfl rfl rfl rfl rfl rfl rfl

theorem Bus.emit_only {z : Bus} {b : Bus} {typ : ℕ} {inst : ℕ} {sev : ℕ} {pay : Payload} (h : BusOnly z b)  :
    BusOnly z (Bus.emit b typ inst sev pay) := by
  unfold Bus.emit
  repeat' with_reducible first
    | assumption | exact rfl | apply Bus.emitAt_only

theorem Bus.freeWord_only {z b : Bus} (h : BusOnly z b) : BusOnly z b.freeWord.2 := h.upd rfl rfl rfl rfl rfl rfl rfl rfl rfl rfl

theorem Bus.enter_only {z b : Bus} {i st : Nat} (h : BusOnly z b) : BusOnly z (b.enter 2 i st) := by
  unfold Bus.enter
  exact .ite (Bus.emit_only (Bus.setFld_only h rfl)) (Bus.setFld_only h rfl)

theorem Bus.toStopping_only {z b : Bus} {i c : Nat} (h : BusOnly z b) : BusOnly z (b.toStopping 2 i c) := by
  unfold Bus.toStopping
  exact (Bus.enter_only (Bus.setFld_only (Bus.setFld_only h rfl) rfl)).upd rfl rfl rfl rfl rfl rfl rfl rfl rfl rfl

theorem Bus.setAcc_only {z b : Bus} {m x} (h : BusOnly z b) : BusOnly z (b.setAcc m x) :=
  h.upd rfl rfl rfl rfl rfl rfl rfl rfl rfl rfl

theorem Bus.refuseWrite_only {z : Bus} {b : Bus} {m : ℕ} {a : ℕ} (h : BusOnly z b)  :
    BusOnly z (Bus.refuseWrite b m a) := by
  unfold Bus.refuseWrite
  repeat' with_reducible first
    | assumption | exact rfl | extract_lets | apply Bus.setAcc_only | apply Bus.bump_only

theorem Bus.retire_only {z b : Bus} {w : QWrite} (h : BusOnly z b) : BusOnly z (b.retire w) :=
  h.upd rfl rfl rfl rfl rfl rfl rfl rfl rfl rfl

theorem Bus.drain_only {z b : Bus} {p} (h : BusOnly z b) : BusOnly z (b.drain p) :=
  (BusOnly.foldl h fun _ _ hb => Bus.retire_only hb).upd rfl rfl rfl rfl rfl rfl rfl rfl rfl rfl

theorem Bus.rowDrain_only {z : Bus} {b : Bus} {a : ℕ} {n : ℕ} (h : BusOnly z b)  :
    BusOnly z (Bus.rowDrain b a n) := by
  unfold Bus.rowDrain
  repeat' with_reducible first
    | assumption | exact rfl | intro _ | extract_lets | apply Bus.drain_only

theorem Bus.countBytes_only {z : Bus} {b : Bus} {a : ℕ} {n : ℕ} (h : BusOnly z b)  :
    BusOnly z (Bus.countBytes b a n) := by
  unfold Bus.countBytes
  repeat' with_reducible first
    | assumption | exact rfl | apply Bus.setPair_only

theorem Bus.unmapped_only {z : Bus} {b : Bus} {m : ℕ} {a : ℕ} {write : Bool} (h : BusOnly z b)  :
    BusOnly z (Bus.unmapped b m a write) := by
  unfold Bus.unmapped
  repeat' with_reducible first
    | assumption | exact rfl | extract_lets | apply Bus.bump_only | apply Bus.emit_only | apply BusOnly.ite
    | refine BusOnly.ofPair ?_ ‹_› | split | dsimp only | dsimp +zetaDelta only | (fail_if_no_progress apply BusOnly.mk')

theorem Bus.writeChecked_only {z b : Bus} {m a : Nat} {data : List Byte} (h : BusOnly z b) :
    BusOnly z (Bus.writeChecked b m a data).1 := by
  unfold Bus.writeChecked
  split
  · exact Bus.unmapped_only h
  · have hc : BusOnly z (b.countBytes a data.length) := Bus.countBytes_only h
    dsimp only
    split
    · exact Bus.rowDrain_only (hc.upd rfl rfl rfl rfl rfl rfl rfl rfl rfl rfl)
    · exact hc.upd rfl rfl rfl rfl rfl rfl rfl rfl rfl rfl

theorem Bus.store_only {z : Bus} {b : Bus} {m : ℕ} {a : ℕ} {data : List Byte} (h : BusOnly z b)  :
    BusOnly z (Bus.store b m a data).1 := by
  unfold Bus.store
  repeat' with_reducible first
    | assumption | exact rfl | apply Bus.writeChecked_only | apply Bus.refuseWrite_only | apply BusOnly.ite | split

theorem Bus.setRing_only {z b : Bus} {r x} (h : BusOnly z b) : BusOnly z (b.setRing r x) :=
  h.upd rfl rfl rfl rfl rfl rfl rfl rfl rfl rfl

theorem Bus.setHost_only {z b : Bus} {r x} (h : BusOnly z b) : BusOnly z (b.setHost r x) :=
  h.upd rfl rfl rfl rfl rfl rfl rfl rfl rfl rfl

theorem Bus.msix_only {z b : Bus} {p v : Nat} (h : BusOnly z b) : BusOnly z (b.msix p v) := by
  unfold Bus.msix
  repeat' with_reducible first
    | assumption | extract_lets | apply Bus.setHost_only | apply Bus.send_only | apply BusOnly.ite

theorem Bus.signal_only {z : Bus} {b : Bus} {host : ℕ} {r : ℕ} (h : BusOnly z b)  :
    BusOnly z (Bus.signal b host r) := by
  unfold Bus.signal
  repeat' with_reducible first
    | assumption | exact rfl | extract_lets | apply Bus.setRing_only | apply Bus.msix_only | apply BusOnly.ite

theorem Bus.fenceSignal_only {z : Bus} {b : Bus} {n : ℕ} {v : ℕ} (h : BusOnly z b)  :
    BusOnly z (Bus.fenceSignal b n v) := by
  unfold Bus.fenceSignal
  repeat' with_reducible first
    | assumption | exact rfl | apply Bus.setPair_only | apply Bus.emit_only | apply BusOnly.ite

theorem Bus.advanceCons_only {z b : Bus} {n r : Nat} (h : BusOnly z b) : BusOnly z (Bus.advanceCons n b r) := by
  induction n generalizing b with
  | zero => exact h
  | succ n ih =>
    unfold Bus.advanceCons
    dsimp only
    split
    · exact h
    · split
      · exact ih (Bus.setRing_only (Bus.setReg_only h rfl))
      · exact h

theorem Bus.stalled_only {z : Bus} {b : Bus} {r : ℕ} (h : BusOnly z b)  :
    BusOnly z (Bus.stalled b r) := by
  unfold Bus.stalled
  repeat' with_reducible first
    | assumption | exact rfl | intro _ | apply Bus.setFld_only

theorem Bus.setPhase_only {z : Bus} {b : Bus} {r : ℕ} {k : ℕ} {ph : EPhase} (h : BusOnly z b)  :
    BusOnly z (Bus.setPhase b r k ph) := by
  unfold Bus.setPhase
  repeat' with_reducible first
    | assumption | exact rfl | intro _ | extract_lets | apply Bus.setRing_only

theorem Bus.completeRaw_only {z : Bus} {b : Bus} {host : ℕ} {r : ℕ} {k : ℕ} {status : ℕ} {reason : ℕ} (h : BusOnly z b)  :
    BusOnly z (Bus.completeRaw b host r k status reason).1 := by
  unfold Bus.completeRaw
  repeat' with_reducible first
    | assumption | exact rfl | intro _ | extract_lets | apply Bus.store_only | apply Bus.setPhase_only | apply Bus.fenceSignal_only
    | apply Bus.emit_only | apply Bus.signal_only | apply Bus.stalled_only | apply Bus.advanceCons_only
    | apply BusOnly.ite | refine BusOnly.ofPair ?_ ‹_› | split

theorem Bus.ringStop_only {z : Bus} {b : Bus} {host : ℕ} {r : ℕ} {cause : ℕ} (h : BusOnly z b)  :
    BusOnly z (Bus.ringStop b host r cause) := by
  unfold Bus.ringStop
  repeat' with_reducible first
    | assumption | exact rfl | intro _ | extract_lets | apply Bus.toStopping_only | apply Bus.completeRaw_only | apply BusOnly.foldl

theorem Bus.ringFault_only {z : Bus} {b : Bus} {host : ℕ} {r : ℕ} {k : ℕ} {cause : ℕ} (h : BusOnly z b)  :
    BusOnly z (Bus.ringFault b host r k cause) := by
  unfold Bus.ringFault
  repeat' with_reducible first
    | assumption | exact rfl | apply Bus.emit_only | apply Bus.ringStop_only | apply BusOnly.ite

theorem Bus.ringFull_only {z b : Bus} {r n : Nat} (h : BusOnly z b) : BusOnly z (b.ringFull r n) := by
  unfold Bus.ringFull
  repeat' with_reducible first
    | assumption | exact rfl | extract_lets | apply Bus.setRing_only | apply Bus.setFld_only | apply Bus.emit_only
    | apply BusOnly.ite

theorem Bus.post_only {z : Bus} {b : Bus} {host : ℕ} {r : ℕ} {data : List Byte} (h : BusOnly z b)  :
    BusOnly z (Bus.post b host r data).1 := by
  unfold Bus.post
  repeat' with_reducible first
    | assumption | exact rfl | extract_lets | apply Bus.ringFull_only
    | apply Bus.store_only | apply Bus.signal_only | apply Bus.setReg_only | apply Bus.ringFault_only
    | apply BusOnly.ite | refine BusOnly.ofPair ?_ ‹_› | split

theorem Bus.flush_only {z b : Bus} {n h : Nat} {p : Plan} (hb : BusOnly z b) : BusOnly z (Bus.flush n p b h) := by
  induction n generalizing b with
  | zero => exact hb
  | succ n ih =>
    unfold Bus.flush
    dsimp only
    repeat' with_reducible first
      | assumption | apply ih | apply Bus.setHost_only | apply Bus.setRing_only | apply Bus.bump_only | apply Bus.post_only | rfl
      | split

theorem Bus.trimQueue_only {z : Bus} {b : Bus} {h_1 : ℕ} (h : BusOnly z b)  :
    BusOnly z (Bus.trimQueue b h_1) := by
  unfold Bus.trimQueue
  repeat' with_reducible first
    | assumption | exact rfl | extract_lets | apply Bus.setHost_only | apply Bus.bump_only | apply BusOnly.ite

theorem Bus.deliver_only {z : Bus} {p : Plan} {b : Bus} {e : EvRec} (h : BusOnly z b)  :
    BusOnly z (Bus.deliver p b e) := by
  unfold Bus.deliver
  repeat' with_reducible first
    | assumption | exact rfl | intro _ | extract_lets | apply Bus.msix_only | apply Bus.setHost_only | apply Bus.trimQueue_only
    | apply Bus.flush_only | apply BusOnly.ite | apply BusOnly.foldl

theorem Bus.settleLoop_only {z b : Bus} {n : Nat} {p : Plan} (h : BusOnly z b) : BusOnly z (Bus.settleLoop n p b) := by
  induction n generalizing b with
  | zero => exact h
  | succ n ih =>
    unfold Bus.settleLoop
    split
    · exact h
    · exact ih (Bus.deliver_only (h.upd rfl rfl rfl rfl rfl rfl rfl rfl rfl rfl))

theorem Bus.settle_only {z : Bus} {p : Plan} {b : Bus} (h : BusOnly z b)  :
    BusOnly z (Bus.settle p b) := by
  unfold Bus.settle
  repeat' with_reducible first
    | assumption | exact rfl | apply Bus.settleLoop_only

theorem State.onBus_only {z s : State} {f : Bus → Bus} (h : PanelOnly z s) (hf : BusOnly s.bus (f s.bus)) : PanelOnly z (s.onBus f) :=
  h.updBus rfl hf rfl rfl rfl rfl rfl rfl rfl rfl rfl rfl rfl rfl rfl rfl rfl rfl rfl rfl rfl

theorem State.setReg_only {z s : State} {r : FReg} {i j : Nat} {v : Word} (h : PanelOnly z s) (hr : panelReg r = true) :
    PanelOnly z (s.setReg r i j v) :=
  ⟨h.bus, fun q k l hq => by
    rw [State.reg_setReg_ne s (fun e => by rw [e, hq] at hr; cases hr), h.reg q k l hq], h.powered, h.fabricUp, h.plan, h.lanes,
    h.links, h.tim, h.srcs, h.decs, h.cores, h.coreBad, h.coreOut, h.heads, h.wbs, h.encs, h.jrn, h.tnd, h.wdn, h.flash, h.otp,
    h.pending⟩

theorem State.setFld_only {z s : State} {r : FReg} {i j lo n v : Nat} (h : PanelOnly z s) (hr : panelReg r = true) :
    PanelOnly z (s.setFld r i j lo n v) := State.setReg_only h hr

theorem State.bump_only {z s : State} {r : FReg} {i j n : Nat} (h : PanelOnly z s) (hr : panelReg r = true) :
    PanelOnly z (s.bump r i j n) := State.setReg_only h hr

theorem State.emit_only {z : State} {s : State} {typ : ℕ} {inst : ℕ} {sev : ℕ} {p : Payload} (h : PanelOnly z s)  :
    PanelOnly z (State.emit s typ inst sev p) := by
  unfold State.emit
  repeat' with_reducible first
    | assumption | exact rfl | intro _ | exact BusOnly.refl _ | apply State.onBus_only | apply Bus.emit_only

theorem State.free_only {z : State} {s : State} (h : PanelOnly z s)  :
    PanelOnly z (State.free s).2 := by
  unfold State.free
  repeat' with_reducible first
    | assumption | exact rfl | intro _ | exact BusOnly.refl _ | apply Bus.freeWord_only | apply State.onBus_only

theorem State.setPan_only {z s : State} {p : Nat} {x : PanelSt} (h : PanelOnly z s) : PanelOnly z (s.setPan p x) :=
  h.updBus rfl (.refl _) rfl rfl rfl rfl rfl rfl rfl rfl rfl rfl rfl rfl rfl rfl rfl rfl rfl rfl rfl

theorem State.panShow_only {z : State} {s : State} {p : ℕ} (h : PanelOnly z s)  :
    PanelOnly z (State.panShow s p) := by
  unfold State.panShow
  repeat' with_reducible first
    | assumption | exact rfl | intro _ | extract_lets | apply State.setFld_only | apply State.setReg_only

theorem State.panSuspect_only {z : State} {s : State} {p : ℕ} {add : List ℕ} {clear : List ℕ} (h : PanelOnly z s)  :
    PanelOnly z (State.panSuspect s p add clear) := by
  unfold State.panSuspect
  repeat' with_reducible first
    | assumption | exact rfl | intro _ | extract_lets | exact BusOnly.refl _ | apply State.emit_only | apply State.setPan_only
    | apply PanelOnly.ite

theorem State.panPost_only {z : State} {s : State} {p : ℕ} {st : ℕ} {cause : ℕ} {stamp : Option Word} (h : PanelOnly z s)  :
    PanelOnly z (State.panPost s p st cause stamp) := by
  unfold State.panPost
  repeat' with_reducible first
    | assumption | exact rfl | intro _ | extract_lets | exact BusOnly.refl _ | apply State.setPan_only | apply State.bump_only
    | apply State.emit_only | apply State.free_only | apply State.onBus_only | apply Bus.ringFull_only | apply Bus.post_only
    | apply State.setReg_only | apply PanelOnly.ite | apply PanelOnly.iteFst | apply PanelOnly.forEach | apply PanelOnly.forEachFst
    | refine PanelOnly.ofPair ?_ ‹_› | split | apply BusOnly.ite | apply BusOnly.forEach | dsimp only | dsimp +zetaDelta only

theorem State.panRelease_only {z : State} {s : State} {p : ℕ} {reason : ℕ} (h : PanelOnly z s)  :
    PanelOnly z (State.panRelease s p reason) := by
  unfold State.panRelease
  repeat' with_reducible first
    | assumption | exact rfl | intro _ | extract_lets | exact BusOnly.refl _ | apply State.panSuspect_only | apply State.setPan_only

theorem State.panFall_only {z : State} {s : State} {p : ℕ} {cause : ℕ} {stamp : Option Word} (h : PanelOnly z s)  :
    PanelOnly z (State.panFall s p cause stamp) := by
  unfold State.panFall
  repeat' with_reducible first
    | assumption | exact rfl | extract_lets | exact BusOnly.refl _ | apply State.setPan_only | apply State.panRelease_only
    | apply State.panShow_only | apply State.setFld_only | apply State.emit_only | apply State.panPost_only
    | apply PanelOnly.ite

theorem State.panUnavail_only {z : State} {s : State} {p : ℕ} {cause : ℕ} (h : PanelOnly z s)  :
    PanelOnly z (State.panUnavail s p cause) := State.panFall_only h

theorem State.panWatch_only {z : State} {s : State} {p : ℕ} (h : PanelOnly z s)  :
    PanelOnly z (State.panWatch s p) := by
  unfold State.panWatch
  repeat' with_reducible first
    | assumption | exact rfl | intro _ | extract_lets | exact BusOnly.refl _ | apply State.setPan_only | apply State.panUnavail_only
    | apply State.panShow_only | apply PanelOnly.ite | refine PanelOnly.ofPair ?_ ‹_› | split

theorem State.watch_only (s : State) : PanelOnly (s.onBus Bus.meetWaits).meetFlips s.watch :=
  PanelOnly.forEach (.refl _) fun _ _ h => State.panWatch_only h

theorem State.settle_only {z s : State} (h : PanelOnly z s) : PanelOnly z s.settle :=
  h.updBus rfl (Bus.settle_only (.refl _)) rfl rfl rfl rfl rfl rfl rfl rfl rfl rfl rfl rfl rfl rfl rfl rfl rfl rfl rfl

/-- What every command's end leaves of the state its effect gives, once the waits on fence objects that are met are marked. -/
theorem State.ends_only (s : State) : PanelOnly (s.onBus Bus.meetWaits).meetFlips s.watch.settle := State.settle_only (State.watch_only s)

end Sys2Proof.Machine
end

