-- ==== Sys2Proof/Laws/Exec.lean ====
section
/-! SUPPORT. What each arm of `exec` is: by whom the command is answered and with what effect. -/

namespace Sys2Proof.Machine

theorem exec_powerOnReset (straps : Nat) (s : State) :
    exec (.powerOnReset straps) s = .next (s.powerOn straps).watch.settle := rfl
theorem exec_sysResetNAssert (s : State) :
    exec .sysResetNAssert s = s.warden fun s => s.resetTo 1 1 s.wdn.straps := rfl
theorem exec_warmReset (port : Nat) (key : Nat) (s : State) :
    exec (.warmReset port key) s = s.fabric fun s => s.thmCmdWrite port (w32 (key * 65536 + 1)) := rfl
theorem exec_fabricReset (port : Nat) (key : Nat) (s : State) :
    exec (.fabricReset port key) s = s.fabric fun s => s.thmCmdWrite port (w32 (key * 65536 + 2)) := rfl
theorem exec_smbusReset (data : Nat) (pec : Bool) (s : State) :
    exec (.smbusReset data pec) s = s.warden fun s => s.smbReset data pec := rfl
theorem exec_lockstepMismatch (s : State) :
    exec .lockstepMismatch s = s.warden State.lockstep := rfl
theorem exec_startHoldRelease (s : State) :
    exec .startHoldRelease s = s.warden State.holdRelease := rfl
theorem exec_supplyWaitTimeout (out : List Nat) (s : State) :
    exec (.supplyWaitTimeout out) s = s.warden fun s => s.supplyWait out := rfl
theorem exec_perstDeassert (port : Nat) (s : State) :
    exec (.perstDeassert port) s = s.warden fun s => s.onBus fun b => b.setHost port { b.hostSt port with perst := false } := rfl
theorem exec_structureLoad (out : List Nat) (s : State) :
    exec (.structureLoad out) s = s.warden fun s => s.structureLoad out := rfl
theorem exec_routingComputed (out : List Nat) (s : State) :
    exec (.routingComputed out) s = s.warden fun s => s.routingComputed out := rfl
theorem exec_writeSlot (port slot : Nat) (s : State) :
    exec (.writeSlot port slot) s = s.window fun s => s.structCmdWrite port (w32 (slot % 16 * 256 + 1)) := rfl
theorem exec_slotWritten (same : Bool) (s : State) :
    exec (.slotWritten same) s = s.warden fun s => s.slotWritten same := rfl
theorem exec_setPreferred (port slot : Nat) (s : State) :
    exec (.setPreferred port slot) s = s.window fun s => s.structCmdWrite port (w32 (slot % 16 * 256 + 2)) := rfl
theorem exec_confirm (port : Nat) (s : State) :
    exec (.confirm port) s = s.window fun s => s.structCmdWrite port 3 := rfl
theorem exec_confirmTimeout (s : State) :
    exec .confirmTimeout s = s.warden State.confirmTimeout := rfl
theorem exec_zoneReload (port zone : Nat) (s : State) :
    exec (.zoneReload port zone) s = s.window fun s => s.structCmdWrite port (w32 (zone % 16 * 256 + 4)) := rfl
theorem exec_zoneDrainEnd (s : State) :
    exec .zoneDrainEnd s = s.fabric State.zoneDrainEnd := rfl
theorem exec_zoneRoutingLoaded (fail : Nat) (s : State) :
    exec (.zoneRoutingLoaded fail) s = s.fabric fun s => s.zoneRouted fail := rfl
theorem exec_verify (port : Nat) (s : State) :
    exec (.verify port) s = s.window fun s => s.structCmdWrite port 5 := rfl
theorem exec_revokeKey (port key : Nat) (s : State) :
    exec (.revokeKey port key) s = s.window fun s => s.structCmdWrite port (w32 (key % 16 * 256 + 6)) := rfl
theorem exec_raiseFloor (port : Nat) (s : State) :
    exec (.raiseFloor port) s = s.window fun s => s.structCmdWrite port 7 := rfl
theorem exec_provisionKey (port key : Nat) (s : State) :
    exec (.provisionKey port key) s = s.window fun s => s.structCmdWrite port (w32 (key % 16 * 256 + 8)) := rfl
theorem exec_handshakeCompletionTimeout (g : Stage) (s : State) :
    exec (.handshakeCompletionTimeout g) s = s.fabric fun s => s.handshake g := rfl
theorem exec_vddFabRequestRaise (monitor : Nat) (s : State) :
    exec (.vddFabRequestRaise monitor) s = s.warden fun s => s.vddRaise monitor := rfl
theorem exec_vddFabRequestLower (s : State) :
    exec .vddFabRequestLower s = s.warden State.vddLower := rfl
theorem exec_avsReadbackFault (s : State) :
    exec .avsReadbackFault s = s.warden State.avsFault := rfl
theorem exec_fnEnable (port cap i : Nat) (s : State) :
    exec (.fnEnable port cap i) s = s.window fun s => s.fnEnable port cap i true := rfl
theorem exec_fnDisable (port cap i : Nat) (s : State) :
    exec (.fnDisable port cap i) s = s.window fun s => s.fnEnable port cap i false := rfl
theorem exec_fnLevelSet (port cap i : Nat) (expert : Bool) (s : State) :
    exec (.fnLevelSet port cap i expert) s = s.window fun s => s.fnLevelSet port cap i expert := rfl
theorem exec_functionStarted (cap i : Nat) (s : State) :
    exec (.functionStarted cap i) s = s.fabric fun s => s.functionStarted cap i := rfl
theorem exec_shutdownComplete (cap i : Nat) (s : State) :
    exec (.shutdownComplete cap i) s = s.fabric fun s => (s.shutdownComplete cap i).zoneProgress.zoneDone.serviceProgress := rfl
theorem exec_stopSlow (cap i : Nat) (s : State) :
    exec (.stopSlow cap i) s = s.fabric fun s => s.stopSlow cap i := rfl
theorem exec_hostPortReset (port : Nat) (s : State) :
    exec (.hostPortReset port) s = s.fabric fun s => (s.hostPortReset port).encCuts s := rfl
theorem exec_hostPortResetEnd (port : Nat) (s : State) :
    exec (.hostPortResetEnd port) s = s.fabric fun s => s.hostPortResetEnd port := rfl
theorem exec_controlWindowBadAccess (port : Nat) (write : Bool) (s : State) :
    exec (.controlWindowBadAccess port write) s = s.window fun s => s.badAccess port write := rfl
theorem exec_memoryWindowRead (port off n : Nat) (s : State) :
    exec (.memoryWindowRead port off n) s = s.window fun s => s.mwinRead port off n := rfl
theorem exec_memoryWindowWrite (port off : Nat) (data : List Byte) (s : State) :
    exec (.memoryWindowWrite port off data) s = s.window fun s => s.mwinWrite port off data := rfl
theorem exec_registerWrite (port cap inst blk off : Nat) (v : Word) (s : State) :
    exec (.registerWrite port cap inst blk off v) s = s.window fun s => s.regWrite port cap inst blk off v := rfl
theorem exec_rcRegisterRead (port cap inst blk off : Nat) (s : State) :
    exec (.rcRegisterRead port cap inst blk off) s = s.window fun s => s.rcRead port cap inst blk off := rfl
theorem exec_ringDoorbell (port r : Nat) (v : Word) (s : State) :
    exec (.ringDoorbell port r v) s = s.fabric fun s => s.doorbell port r v := rfl
theorem exec_ringConsWrite (port r : Nat) (v : Word) (s : State) :
    exec (.ringConsWrite port r v) s = s.fabric fun s => s.consWrite port r v := rfl
theorem exec_ringWaitLimitWrite (port r : Nat) (v : Word) (s : State) :
    exec (.ringWaitLimitWrite port r v) s = s.fabric fun s => s.waitLimitWrite port r v := rfl
theorem exec_commandWaitEnd (r k : Nat) (s : State) :
    exec (.commandWaitEnd r k) s = s.fabric fun s => s.waitEnd r k := rfl
theorem exec_fenceTimeout (r k : Nat) (s : State) :
    exec (.fenceTimeout r k) s = s.fabric fun s => s.fenceTimeout r k := rfl
theorem exec_nop (r k : Nat) (s : State) :
    exec (.nop r k) s = s.fabric fun s => s.runCmd 0x0100 nop r k := rfl
theorem exec_barrier (port : Nat) (v : Word) (s : State) :
    exec (.barrier port v) s = s.window fun s => s.barrier port v := rfl
theorem exec_barrierDone (port : Nat) (s : State) :
    exec (.barrierDone port) s = s.window fun s => s.barrierDone port := rfl
theorem exec_fenceSignalWrite (port obj : Nat) (hi : Word) (s : State) :
    exec (.fenceSignalWrite port obj hi) s = s.fabric fun s => s.fenceSignalWrite port obj hi := rfl
theorem exec_fenceValueRead (port obj : Nat) (high : Bool) (s : State) :
    exec (.fenceValueRead port obj high) s = s.fabric fun s => s.fenceValueRead port obj high := rfl
theorem exec_holdoffExpiry (r : Nat) (s : State) :
    exec (.holdoffExpiry r) s = s.fabric fun s => s.holdoffExpiry r := rfl
theorem exec_ptmDialogue (port : Nat) (enabled : Bool) (hostTime delay : Nat) (ok : Bool) (s : State) :
    exec (.ptmDialogue port enabled hostTime delay ok) s = s.fabric fun s => s.ptmDialogue port enabled hostTime delay ok := rfl
theorem exec_ptmSnapshotRead (port part : Nat) (s : State) :
    exec (.ptmSnapshotRead port part) s = s.fabric fun s => s.ptmRead port part := rfl
theorem exec_regionUpdate (port m r : Nat) (v : Word) (s : State) :
    exec (.regionUpdate port m r v) s = s.fabric fun s => s.regionUpdate port m r v := rfl
theorem exec_accSync (port m token : Nat) (s : State) :
    exec (.accSync port m token) s = s.fabric fun s => s.accSync port m token := rfl
theorem exec_syncDone (m : Nat) (s : State) :
    exec (.syncDone m) s = s.fabric fun s => s.onBus fun b => b.syncDone m := rfl
theorem exec_noticeWindowClose (m : Nat) (write : Bool) (s : State) :
    exec (.noticeWindowClose m write) s = s.fabric fun s => s.onBus fun b => b.noticeClose m write := rfl
theorem exec_enterService (port : Nat) (s : State) :
    exec (.enterService port) s = s.fabric fun s => s.debugCmd port 1 := rfl
theorem exec_setField (port : Nat) (s : State) :
    exec (.setField port) s = s.fabric fun s => s.debugCmd port 2 := rfl
theorem exec_debugMasterAccess (write : Bool) (a n : Nat) (data : List Byte) (s : State) :
    exec (.debugMasterAccess write a n data) s = s.fabric fun s => s.debugAccess write a n data := rfl
theorem exec_debugAccessRecord (s : State) :
    exec .debugAccessRecord s = s.fabric State.debugRecord := rfl
theorem exec_memoryRead (m a n ce : Nat) (ue : Bool) (s : State) :
    exec (.memoryRead m a n ce ue) s = s.fabric (memoryRead m a n ce ue) := rfl
theorem exec_memoryWrite (m a : Nat) (data : List Byte) (s : State) :
    exec (.memoryWrite m a data) s = s.fabric (memoryWrite m a data) := rfl
theorem exec_scrubRead (result : Nat) (s : State) :
    exec (.scrubRead result) s = s.fabric fun s => s.onBus fun b => b.scrubRead result := rfl
theorem exec_scrubPass (s : State) :
    exec .scrubPass s = s.fabric fun s => s.onBus Bus.scrubPass := rfl
theorem exec_ceSummary (s : State) :
    exec .ceSummary s = s.fabric fun s => s.onBus Bus.ceSummary := rfl
theorem exec_memBytesRead (port stack : Nat) (high : Bool) (s : State) :
    exec (.memBytesRead port stack high) s = s.fabric fun s => s.onBus fun b => b.memBytesRead port stack high := rfl
theorem exec_stackTempReading (t0 t1 : Int) (s : State) :
    exec (.stackTempReading t0 t1) s = s.fabric fun s => s.stackTemps t0 t1 := rfl
theorem exec_warmingTimeout (stack : Nat) (s : State) :
    exec (.warmingTimeout stack) s = s.fabric fun s => s.warmingTimeout stack := rfl
theorem exec_trainingComplete (fullSearch : Bool) (repairs : List (Nat × Nat)) (failed : Option (Nat × Nat)) (s : State) :
    exec (.trainingComplete fullSearch repairs failed) s = s.fabric fun s => s.trainingComplete fullSearch repairs failed := rfl
theorem exec_zeroingComplete (s : State) :
    exec .zeroingComplete s = s.fabric State.zeroingComplete := rfl
theorem exec_eyeDriftCheck (low : List Nat) (s : State) :
    exec (.eyeDriftCheck low) s = s.fabric fun s => s.onBus fun b => b.eyeDrift low := rfl
theorem exec_retrained (pc : Nat) (ok : Bool) (s : State) :
    exec (.retrained pc ok) s = s.fabric fun s => s.retrainEnds pc ok := rfl
theorem exec_submit (r k : Nat) (s : State) :
    exec (.submit r k) s = s.fabric fun s => s.runCmd 0x1001 submit r k := rfl
theorem exec_fillTimeout (n : Nat) (s : State) :
    exec (.fillTimeout n) s = s.fabric fun s => s.fillLimit n := rfl
theorem exec_sourceStateEval (n : Nat) (s : State) :
    exec (.sourceStateEval n) s = s.fabric fun s => s.evalSource n := rfl
theorem exec_srcCull (n : Nat) (s : State) :
    exec (.srcCull n) s = s.fabric fun s => s.srcCull n := rfl
theorem exec_testPatternRegen (n : Nat) (s : State) :
    exec (.testPatternRegen n) s = s.fabric fun s => s.testRegen n := rfl
theorem exec_compress (r k : Nat) (s : State) :
    exec (.compress r k) s = s.fabric fun s => s.runCmd 0x0601 compress r k := rfl
theorem exec_decompress (r k : Nat) (s : State) :
    exec (.decompress r k) s = s.fabric fun s => s.runCmd 0x0602 decompress r k := rfl
theorem exec_decodeStreamBind (n : Nat) (s : State) :
    exec (.decodeStreamBind n) s = s.fabric fun s => s.streamBind n := rfl
theorem exec_decodePictureStart (c : Nat) (i : AuInfo) (s : State) :
    exec (.decodePictureStart c i) s = s.fabric fun s => s.pictureStart c i := rfl
theorem exec_decodePictureEnd (c : Nat) (o : PicObs) (s : State) :
    exec (.decodePictureEnd c o) s = s.fabric fun s => s.pictureEnd c o := rfl
theorem exec_headStartReady (h : Nat) (s : State) :
    exec (.headStartReady h) s = s.fabric fun s => s.headStart h := rfl
theorem exec_cadenceFrameInstant (g : Nat) (s : State) :
    exec (.cadenceFrameInstant g) s = s.fabric fun s => s.frameInstant g := rfl
theorem exec_headLatch (h : Nat) (s : State) :
    exec (.headLatch h) s = s.fabric fun s => s.latchInstant h := rfl
theorem exec_stripStart (h : Nat) (s : State) :
    exec (.stripStart h) s = s.fabric fun s => s.stripStart h := rfl
theorem exec_tileColumnDone (h c unit : Nat) (timeout parity : Bool) (s : State) :
    exec (.tileColumnDone h c unit timeout parity) s = s.fabric fun s => s.columnDone h c unit timeout parity := rfl
theorem exec_stripComplete (h : Nat) (s : State) :
    exec (.stripComplete h) s = s.fabric fun s => s.stripComplete h := rfl
theorem exec_stripReadoutStart (h : Nat) (s : State) :
    exec (.stripReadoutStart h) s = s.fabric fun s => s.readStart h := rfl
theorem exec_stripSlotFree (h : Nat) (late : Bool) (s : State) :
    exec (.stripSlotFree ⟨h, late⟩) s = s.fabric fun s => s.slotFree h late := rfl
theorem exec_frameReadoutEnd (h : Nat) (s : State) :
    exec (.frameReadoutEnd h) s = s.fabric fun s => s.frameEnd h := rfl
theorem exec_layerSet (r k : Nat) (s : State) :
    exec (.layerSet r k) s = s.fabric fun s => s.runCmd 0x1201 layerSet r k := rfl
theorem exec_layerFence (r k : Nat) (s : State) :
    exec (.layerFence r k) s = s.fabric fun s => s.runCmd 0x1202 layerFence r k := rfl
theorem exec_loadCoeff (r k : Nat) (s : State) :
    exec (.loadCoeff r k) s = s.fabric fun s => s.runCmd 0x1203 loadCoeff r k := rfl
theorem exec_readCoeff (r k : Nat) (s : State) :
    exec (.readCoeff r k) s = s.fabric fun s => s.runCmd 0x1204 readCoeff r k := rfl
theorem exec_cursorLoad (r k : Nat) (s : State) :
    exec (.cursorLoad r k) s = s.fabric fun s => s.runCmd 0x1205 cursorLoad r k := rfl
theorem exec_commit (r k : Nat) (s : State) :
    exec (.commit r k) s = s.fabric fun s => s.runCmd 0x1206 commit r k := rfl
theorem exec_cursorPosWrite (host h : Nat) (v : Word) (s : State) :
    exec (.cursorPosWrite host h v) s = s.fabric fun s => s.cursorPosWrite host h v := rfl
theorem exec_cursorHidden (h : Nat) (s : State) :
    exec (.cursorHidden h) s = s.fabric fun s => s.cursorHidden h := rfl
theorem exec_tileDoubt (h : Nat) (s : State) :
    exec (.tileDoubt h) s = s.fabric fun s => s.tileDoubt h := rfl
theorem exec_tileSnapshotWrite (host h : Nat) (v : Word) (s : State) :
    exec (.tileSnapshotWrite host h v) s = s.fabric fun s => s.tileSnapshot host h v := rfl
theorem exec_witnessTileCheck (p tile : Nat) (t32 digest : Word) (fill : Bool) (s : State) :
    exec (.witnessTileCheck p tile ⟨t32, digest, fill⟩) s = s.fabric fun s => s.witTile p tile t32.toNat digest.toNat fill := rfl
theorem exec_witnessFrameCheck (p : Nat) (rows : List Nat) (o : WitObs) (s : State) :
    exec (.witnessFrameCheck p rows o) s = s.fabric fun s => (s.witFrame p rows o).zoneDone := rfl
theorem exec_witnessIslandPowerLoss (s : State) :
    exec .witnessIslandPowerLoss s = s.warden State.islandPowerLoss := rfl
theorem exec_witnessReportTimeout (s : State) :
    exec .witnessReportTimeout s = s.warden State.reportTimeout := rfl
theorem exec_limitSet (r k : Nat) (s : State) :
    exec (.limitSet r k) s = s.fabric fun s => s.runCmd 0x1301 limitSet r k := rfl
theorem exec_policySet (r k : Nat) (s : State) :
    exec (.policySet r k) s = s.fabric fun s => s.runCmd 0x1302 policySet r k := rfl
theorem exec_rearm (r k : Nat) (s : State) :
    exec (.rearm r k) s = s.fabric fun s => s.runCmd 0x1303 rearm r k := rfl
theorem exec_modeCommit (r k : Nat) (s : State) :
    exec (.modeCommit r k) s = s.fabric fun s => s.runCmd 0x1401 modeCommit r k := rfl
theorem exec_lutLoad (r k : Nat) (s : State) :
    exec (.lutLoad r k) s = s.fabric fun s => s.runCmd 0x1402 lutLoad r k := rfl
theorem exec_lutRead (r k : Nat) (s : State) :
    exec (.lutRead r k) s = s.fabric fun s => s.runCmd 0x1403 lutRead r k := rfl
theorem exec_headFrameRead (port h : Nat) (time : Bool) (s : State) :
    exec (.headFrameRead port h time) s = s.fabric fun s => s.headFrameRead port h time := rfl
theorem exec_ambientDwellMet (h : Nat) (s : State) :
    exec (.ambientDwellMet h) s = s.fabric fun s => s.dwellMet h := rfl
theorem exec_ambientTimeout (h : Nat) (s : State) :
    exec (.ambientTimeout h) s = s.fabric fun s => s.ambientTimeout h := rfl
theorem exec_encodeInstant (c : Nat) (s : State) :
    exec (.encodeInstant c) s = s.fabric fun s => s.encInstant c := rfl
theorem exec_encodePictureEnd (c : Nat) (s : State) :
    exec (.encodePictureEnd c) s = s.fabric fun s => s.encEnd c := rfl
theorem exec_encInputRelease (c : Nat) (s : State) :
    exec (.encInputRelease c) s = s.fabric fun s => s.encInput c := rfl
theorem exec_encCapWrite (host c : Nat) (sec : Bool) (v : Word) (s : State) :
    exec (.encCapWrite host c sec v) s = s.fabric fun s => s.encCapWrite host c sec v := rfl
theorem exec_select (r k : Nat) (s : State) :
    exec (.select r k) s = s.fabric fun s => s.runCmd 0x1501 select r k := rfl
theorem exec_requestIdr (r k : Nat) (s : State) :
    exec (.requestIdr r k) s = s.fabric fun s => s.runCmd 0x1502 requestIdr r k := rfl
theorem exec_trainingStart (p : Nat) (s : State) :
    exec (.trainingStart p) s = s.fabric (State.withPorts fun s => s.trainingStart p) := rfl
theorem exec_trainBlockRx (p lane : Nat) (bits : List Bool) (locked ask : Nat) (sweep : List (Nat × Nat × Nat)) (s : State) :
    exec (.trainBlockRx p lane bits locked ask sweep) s = s.fabric (State.withPorts fun s => s.trainBlockRx p lane bits ⟨locked, ask, sweep⟩) := rfl
theorem exec_phaseTimeout (p : Nat) (s : State) :
    exec (.phaseTimeout p) s = s.fabric (State.withPorts fun s => s.phaseTimeout p) := rfl
theorem exec_trainingLimit (p : Nat) (s : State) :
    exec (.trainingLimit p) s = s.fabric (State.withPorts fun s => s.trainingLimit p) := rfl
theorem exec_trainingRetry (p : Nat) (s : State) :
    exec (.trainingRetry p) s = s.fabric (State.withPorts fun s => s.trainingRetry p) := rfl
theorem exec_laneLoss (p lane : Nat) (loss : LossTest) (s : State) :
    exec (.laneLoss p lane loss) s = s.fabric (State.withPorts fun s => s.laneLoss p lane loss) := rfl
theorem exec_laneFaultMarkerRx (p : Nat) (bits : List Bool) (s : State) :
    exec (.laneFaultMarkerRx p bits) s = s.fabric (State.withPorts fun s => s.laneFaultRx p bits) := rfl
theorem exec_repairDone (p : Nat) (s : State) :
    exec (.repairDone p) s = s.fabric (State.withPorts fun s => s.repairDone p) := rfl
theorem exec_repairTimeout (p : Nat) (s : State) :
    exec (.repairTimeout p) s = s.fabric (State.withPorts fun s => s.repairTimeout p) := rfl
theorem exec_txIslandLoss (p : Nat) (s : State) :
    exec (.txIslandLoss p) s = s.fabric (State.withPorts fun s => s.txIslandLoss p) := rfl
theorem exec_retrain (r k : Nat) (s : State) :
    exec (.retrain r k) s = s.fabric (State.withPorts fun s => s.runCmd 0x2001 retrain r k) := rfl
theorem exec_power (r k : Nat) (s : State) :
    exec (.power r k) s = s.fabric (State.withPorts fun s => s.runCmd 0x2002 power r k) := rfl
theorem exec_powerState (p : Nat) (s : State) :
    exec (.powerState p) s = s.fabric (State.withPorts fun s => s.powerState p) := rfl
theorem exec_test (r k : Nat) (s : State) :
    exec (.test r k) s = s.fabric (State.withPorts fun s => s.runCmd 0x2003 laneTest r k) := rfl
theorem exec_testDone (p : Nat) (rx : List (List Bool)) (heard : Nat) (s : State) :
    exec (.testDone p rx heard) s = s.fabric (State.withPorts fun s => s.testDone p rx heard) := rfl
theorem exec_inject (r k : Nat) (s : State) :
    exec (.inject r k) s = s.fabric (State.withPorts fun s => s.runCmd 0x2004 inject r k) := rfl
theorem exec_rasterFrameStartRx (p : Nat) (skew : List Nat) (lines : List (List Bool)) (s : State) :
    exec (.rasterFrameStartRx p skew lines) s = s.fabric fun s => s.arrives p skew lines fun s sync raw => s.rasterStart p sync raw := rfl
theorem exec_rasterLineRx (p : Nat) (skew : List Nat) (lines : List (List Bool)) (s : State) :
    exec (.rasterLineRx p skew lines) s = s.fabric fun s => s.arrives p skew lines fun s sync raw => s.rasterLine p sync raw := rfl
theorem exec_rasterFrameEndRx (p : Nat) (skew : List Nat) (lines : List (List Bool)) (s : State) :
    exec (.rasterFrameEndRx p skew lines) s = s.fabric fun s => s.arrives p skew lines fun s sync raw => s.rasterEnd p sync raw := rfl
theorem exec_surfaceTileRx (p : Nat) (skew : List Nat) (lines : List (List Bool)) (s : State) :
    exec (.surfaceTileRx p skew lines) s = s.fabric fun s => s.arrives p skew lines fun s sync raw => s.surfaceTile p sync raw := rfl
theorem exec_damageRx (p : Nat) (skew : List Nat) (lines : List (List Bool)) (s : State) :
    exec (.damageRx p skew lines) s = s.fabric fun s => s.arrives p skew lines fun s sync raw => s.damage p sync raw := rfl
theorem exec_fenceSignalRx (p : Nat) (skew : List Nat) (lines : List (List Bool)) (s : State) :
    exec (.fenceSignalRx p skew lines) s = s.fabric fun s => s.arrives p skew lines fun s sync raw => s.fenceSignalRx p sync raw := rfl
theorem exec_statusRx (p : Nat) (skew : List Nat) (lines : List (List Bool)) (s : State) :
    exec (.statusRx p skew lines) s = s.fabric fun s => s.arrives p skew lines fun s sync raw => s.statusRx p sync raw := rfl
theorem exec_partnerSilent (p : Nat) (s : State) :
    exec (.partnerSilent p) s = s.fabric fun s => s.partnerSilent p := rfl
theorem exec_timeSend (p : Nat) (s : State) :
    exec (.timeSend p) s = s.fabric fun s => s.timeSend p := rfl
theorem exec_timeEchoRx (p : Nat) (skew : List Nat) (lines : List (List Bool)) (s : State) :
    exec (.timeEchoRx p skew lines) s = s.fabric fun s => s.arrives p skew lines fun s sync raw => s.timeEcho p sync raw := rfl
theorem exec_creditSend (p : Nat) (s : State) :
    exec (.creditSend p) s = s.fabric fun s => s.creditSend p := rfl
theorem exec_safeRepeat (p : Nat) (s : State) :
    exec (.safeRepeat p) s = s.fabric fun s => s.safeRepeat p := rfl
theorem exec_epochRepeat (p : Nat) (s : State) :
    exec (.epochRepeat p) s = s.fabric fun s => s.epochRepeat p := rfl
theorem exec_linkHoldCapWrite (host p : Nat) (v : Word) (s : State) :
    exec (.linkHoldCapWrite host p v) s = s.fabric fun s => s.holdCapWrite host p v := rfl
theorem exec_checkAppend (r k : Nat) (s : State) :
    exec (.checkAppend r k) s = s.fabric fun s => s.runCmd 0x0701 checkAppend r k := rfl
theorem exec_checkVerify (r k : Nat) (s : State) :
    exec (.checkVerify r k) s = s.fabric fun s => s.runCmd 0x0702 checkVerify r k := rfl
theorem exec_panelStart (p : Nat) (s : State) :
    exec (.panelStart p) s = s.fabric fun s => s.panStart p := rfl
theorem exec_touchCycleStart (p : Nat) (s : State) :
    exec (.touchCycleStart p) s = s.fabric fun s => s.panCycleStart p := rfl
theorem exec_touchFrameRx (port : Nat) (skew : List Nat) (lines : List (List Bool)) (bufOk : Bool) (s : State) :
    exec (.touchFrameRx port skew lines bufOk) s = s.fabric fun s => s.arrives port skew lines fun s sync raw => s.panRx port sync raw bufOk := rfl
theorem exec_touchAgeTimeout (p : Nat) (s : State) :
    exec (.touchAgeTimeout p) s = s.fabric fun s => s.panAge p := rfl
theorem exec_unavailableRepeat (p : Nat) (s : State) :
    exec (.unavailableRepeat p) s = s.fabric fun s => s.panRepeat p := rfl
theorem exec_baselineAdapt (p : Nat) (s : State) :
    exec (.baselineAdapt p) s = s.fabric fun s => s.panAdapt p := rfl
theorem exec_baselineSaved (p : Nat) (s : State) :
    exec (.baselineSaved p) s = s.fabric fun s => s.panSaveDue p := rfl
theorem exec_contactExpired (p : Nat) (s : State) :
    exec (.contactExpired p) s = s.fabric fun s => if s.panState p = 2 then s.panExpire p else s := rfl
theorem exec_selfTestDue (p : Nat) (s : State) :
    exec (.selfTestDue p) s = s.fabric fun s => s.panTestDue p := rfl
theorem exec_keysLoad (r k : Nat) (s : State) :
    exec (.keysLoad r k) s = s.fabric fun s => s.runCmd 0x2101 keysLoad r k := rfl
theorem exec_rebaseline (r k : Nat) (s : State) :
    exec (.rebaseline r k) s = s.fabric fun s => s.runCmd 0x2102 rebaseline r k := rfl
theorem exec_selfTest (r k : Nat) (s : State) :
    exec (.selfTest r k) s = s.fabric fun s => s.runCmd 0x2103 selfTest r k := rfl
theorem exec_rawRead (r k : Nat) (s : State) :
    exec (.rawRead r k) s = s.fabric fun s => s.runCmd 0x2104 rawRead r k := rfl
theorem exec_incrementSlewStep (s : State) :
    exec .incrementSlewStep s = s.fabric State.slewStep := rfl
theorem exec_wrap (s : State) :
    exec .wrap s = s.fabric State.wrapTick := rfl
theorem exec_step (r k : Nat) (s : State) :
    exec (.step r k) s = s.fabric fun s => s.runCmd 0x3001 stepCmd r k := rfl
theorem exec_refInactive (r : Nat) (s : State) :
    exec (.refInactive r) s = s.fabric fun s => s.refInactive r := rfl
theorem exec_refActive (r : Nat) (s : State) :
    exec (.refActive r) s = s.fabric fun s => s.refActive r := rfl
theorem exec_refMeasurement (r edges n : Nat) (phase : Int) (s : State) :
    exec (.refMeasurement r edges n phase) s = s.fabric fun s => s.refMeasure r edges n phase := rfl
theorem exec_refQualified (r : Nat) (s : State) :
    exec (.refQualified r) s = s.fabric fun s => s.refQualified r := rfl
theorem exec_refCfgWrite (host r : Nat) (nom : Bool) (v : Word) (s : State) :
    exec (.refCfgWrite host r nom v) s = s.fabric fun s => s.refCfgWrite host r nom v := rfl
theorem exec_timCtlWrite (host : Nat) (v : Word) (s : State) :
    exec (.timCtlWrite host v) s = s.fabric fun s => s.timCtlWrite host v := rfl
theorem exec_wtrExpiry (r : Nat) (s : State) :
    exec (.wtrExpiry r) s = s.fabric fun s => s.wtrExpiry r := rfl
theorem exec_lockTestMet (s : State) :
    exec .lockTestMet s = s.fabric State.lockTestMet := rfl
theorem exec_holdExpired (s : State) :
    exec .holdExpired s = s.fabric State.holdExpired := rfl
theorem exec_timHostIncrWrite (host : Nat) (hi : Word) (s : State) :
    exec (.timHostIncrWrite host hi) s = s.fabric fun s => s.hostIncrWrite host hi := rfl
theorem exec_hostRefTimeout (s : State) :
    exec .hostRefTimeout s = s.fabric State.hostRefTimeout := rfl
theorem exec_align (r k : Nat) (s : State) :
    exec (.align r k) s = s.fabric fun s => s.runCmd 0x3002 align r k := rfl
theorem exec_groupRate (r k : Nat) (s : State) :
    exec (.groupRate r k) s = s.fabric fun s => s.runCmd 0x3003 groupRate r k := rfl
theorem exec_capture (c : Nat) (t : Word) (sub : Nat) (s : State) :
    exec (.capture c t sub) s = s.fabric fun s => s.capture c t sub := rfl
theorem exec_capTimeRead (port c : Nat) (s : State) :
    exec (.capTimeRead port c) s = s.fabric fun s => s.capTimeRead port c := rfl
theorem exec_capSubRead (port c : Nat) (s : State) :
    exec (.capSubRead port c) s = s.fabric fun s => s.capSubRead port c := rfl
theorem exec_timNowRead (port : Nat) (frac : Bool) (s : State) :
    exec (.timNowRead port frac) s = s.fabric fun s => s.timNowRead port frac := rfl
theorem exec_pulseEdge (p : Nat) (s : State) :
    exec (.pulseEdge p) s = s.fabric fun s => s.pulseEdge p := rfl
theorem exec_journalRingWrite (s : State) :
    exec .journalRingWrite s = s.fabric fun s => s.ringWrite := rfl
theorem exec_checkpointStart (s : State) :
    exec .checkpointStart s = s.fabric fun s => s.ckptStart := rfl
theorem exec_checkpointEnd (s : State) :
    exec .checkpointEnd s = s.fabric fun s => s.ckptEndFeed := rfl
theorem exec_ckptAbandoned (s : State) :
    exec .ckptAbandoned s = s.fabric fun s => s.ckptAbandoned := rfl
theorem exec_frTrigger (s : State) :
    exec .frTrigger s = s.fabric fun s => s.frTrigger := rfl
theorem exec_frFrozen (s : State) :
    exec .frFrozen s = s.fabric fun s => s.frFrozen := rfl
theorem exec_freeze (r k : Nat) (s : State) :
    exec (.freeze r k) s = s.fabric fun s => s.runCmd 0x3101 freeze r k := rfl
theorem exec_release (r k : Nat) (s : State) :
    exec (.release r k) s = s.fabric fun s => s.runCmd 0x3102 release r k := rfl
theorem exec_dump (r k : Nat) (s : State) :
    exec (.dump r k) s = s.fabric fun s => s.runCmd 0x3103 dump r k := rfl
theorem exec_frDumped (s : State) :
    exec .frDumped s = s.fabric fun s => s.frDumped := rfl
theorem exec_mark (r k : Nat) (s : State) :
    exec (.mark r k) s = s.fabric fun s => s.runCmd 0x3104 mark r k := rfl
theorem exec_rerunLoad (r k : Nat) (s : State) :
    exec (.rerunLoad r k) s = s.fabric fun s => s.runCmd 0x3105 rerunLoad r k := rfl
theorem exec_rerunStop (r k : Nat) (s : State) :
    exec (.rerunStop r k) s = s.fabric fun s => s.runCmd 0x3106 rerunStop r k := rfl
theorem exec_rerunDone (s : State) :
    exec .rerunDone s = s.fabric State.rerunDone := rfl
theorem exec_handover (r k : Nat) (s : State) :
    exec (.handover r k) s = s.fabric fun s => s.runCmd 0x3201 handover r k := rfl
theorem exec_resync (r k : Nat) (s : State) :
    exec (.resync r k) s = s.fabric fun s => s.resyncCmd r k := rfl
theorem exec_heartbeatSend (s : State) :
    exec .heartbeatSend s = s.warden fun s => s.heartbeatSend := rfl
theorem exec_heartbeatRx (p : Nat) (skew : List Nat) (lines : List (List Bool)) (s : State) :
    exec (.heartbeatRx p skew lines) s = s.fabric fun s => s.arrives p skew lines fun s sync raw => s.heartbeatRx p sync raw := rfl
theorem exec_heartbeatTimeout (s : State) :
    exec .heartbeatTimeout s = s.fabric fun s => s.heartbeatTimeout := rfl
theorem exec_joinTimeout (s : State) :
    exec .joinTimeout s = s.fabric fun s => s.joinTimeout := rfl
theorem exec_handoverTimeReached (s : State) :
    exec .handoverTimeReached s = s.fabric fun s => s.handoverReached := rfl
theorem exec_failedHeartbeatEnd (s : State) :
    exec .failedHeartbeatEnd s = s.warden fun s => s.failedHeartbeatEnd.serviceProgress := rfl
theorem exec_journalPacketRx (p : Nat) (skew : List Nat) (lines : List (List Bool)) (s : State) :
    exec (.journalPacketRx p skew lines) s = s.fabric fun s => s.arrives p skew lines fun s sync raw => s.journalRx p sync raw := rfl
theorem exec_followHoldTimeout (h : Nat) (s : State) :
    exec (.followHoldTimeout h) s = s.fabric fun s => s.holdTimeout h := rfl
theorem exec_mirrorRx (p : Nat) (skew : List Nat) (lines : List (List Bool)) (s : State) :
    exec (.mirrorRx p skew lines) s = s.fabric fun s => s.arrives p skew lines fun s sync raw => s.mirrorThenRecs p sync raw := rfl
theorem exec_checkpointRx (p : Nat) (skew : List Nat) (lines : List (List Bool)) (s : State) :
    exec (.checkpointRx p skew lines) s = s.fabric fun s => s.arrives p skew lines fun s sync raw => s.checkpointRx p sync raw := rfl
theorem exec_ackSend (s : State) :
    exec .ackSend s = s.fabric fun s => s.ackSend := rfl
theorem exec_ackRx (p : Nat) (skew : List Nat) (lines : List (List Bool)) (s : State) :
    exec (.ackRx p skew lines) s = s.fabric fun s => s.arrives p skew lines fun s sync raw => s.ackRx p sync raw := rfl
theorem exec_syncReqRx (p : Nat) (skew : List Nat) (lines : List (List Bool)) (s : State) :
    exec (.syncReqRx p skew lines) s = s.fabric fun s => s.arrives p skew lines fun s sync raw => s.syncReqRx p sync raw := rfl
theorem exec_joinComplete (s : State) :
    exec .joinComplete s = s.fabric fun s => s.joinComplete := rfl
theorem exec_tandemTimeStep (ofs : Int) (s : State) :
    exec (.tandemTimeStep ofs) s = s.fabric fun s => s.tandemTime ofs := rfl
theorem exec_epochStatusWaitTimeout (p : Nat) (s : State) :
    exec (.epochStatusWaitTimeout p) s = s.fabric fun s => s.epochWaitOver p := rfl
theorem exec_sensorReading (ts : List (Option Int)) (s : State) :
    exec (.sensorReading ts) s = s.warden fun s => s.sensorReading ts := rfl
theorem exec_sensorTimeout (n : Nat) (s : State) :
    exec (.sensorTimeout n) s = s.warden fun s => s.sensorTimeout n := rfl
theorem exec_graceEnd (s : State) :
    exec .graceEnd s = s.warden State.graceEnd := rfl
theorem exec_enforceStep (s : State) :
    exec .enforceStep s = s.warden State.enforceStep := rfl
theorem exec_enforceRelease (s : State) :
    exec .enforceRelease s = s.warden State.enforceRelease := rfl
theorem exec_cutoff (s : State) :
    exec .cutoff s = s.warden State.cutoff := rfl
theorem exec_autoRecovery (s : State) :
    exec .autoRecovery s = s.warden State.autoRecovery := rfl
theorem exec_refclkLoss (s : State) :
    exec .refclkLoss s = s.warden State.refclkLoss := rfl
theorem exec_wclkLoss (s : State) :
    exec .wclkLoss s = s.warden State.wclkLoss := rfl
theorem exec_supplyOutOfWindow (rail : Nat) (s : State) :
    exec (.supplyOutOfWindow rail) s = s.warden fun s => s.supplyOut rail := rfl
theorem exec_wardenRailLoss (s : State) :
    exec .wardenRailLoss s = .next s.wardenRailLoss := rfl
theorem exec_lifeHour (s : State) :
    exec .lifeHour s = s.warden State.lifeHour := rfl
theorem exec_wearDay (s : State) :
    exec .wearDay s = s.warden State.wearDay := rfl
theorem exec_smbusSetPointer (off : Nat) (pec : Bool) (s : State) :
    exec (.smbusSetPointer off pec) s = s.warden fun s => s.smbPointer off pec := rfl
theorem exec_smbusRead (s : State) :
    exec .smbusRead s = s.warden State.smbRead := rfl
theorem exec_smbusWrite (v : Word) (pec : Bool) (s : State) :
    exec (.smbusWrite v pec) s = s.warden fun s => s.smbWrite v pec := rfl
theorem exec_smbusAlertResponse (s : State) :
    exec .smbusAlertResponse s = s.warden State.smbAlert := rfl
theorem exec_witnessIslandRestored (s : State) :
    exec .witnessIslandRestored s = s.warden State.islandRestored := rfl
theorem exec_structCmdDone (s : State) :
    exec .structCmdDone s = s.warden State.structChecked := rfl
theorem exec_rerunLoaded (s : State) :
    exec .rerunLoaded s = s.fabric State.rerunLoaded := rfl

end Sys2Proof.Machine
end

