-- ==== Sys2Proof/Laws/KeepsBusOps.lean ====
section
/-! SUPPORT. What the operations and commands of Machine/BusOps.lean keep: one law each. -/

namespace Sys2Proof.Machine

theorem Bus.setReg_keeps {z : Bus} {b : Bus} {r : BReg} {i : ℕ} {j : ℕ} {v : Word} (h : BusKeeps z b)  :
    BusKeeps z (Bus.setReg b r i j v) := by
  unfold Bus.setReg
  repeat' with_reducible first
    | assumption | (fail_if_no_progress apply BusKeeps.mk')

theorem Bus.setFld_keeps {z : Bus} {b : Bus} {r : BReg} {i : ℕ} {j : ℕ} {lo : ℕ} {n : ℕ} {v : ℕ} (h : BusKeeps z b)  :
    BusKeeps z (Bus.setFld b r i j lo n v) := by
  unfold Bus.setFld
  repeat' with_reducible first
    | assumption | apply Bus.setReg_keeps

theorem Bus.bump_keeps {z : Bus} {b : Bus} {r : BReg} {i : ℕ} {j : ℕ} {n : ℕ} (h : BusKeeps z b)  :
    BusKeeps z (Bus.bump b r i j n) := by
  unfold Bus.bump
  repeat' with_reducible first
    | assumption | apply Bus.setReg_keeps

theorem Bus.setPair_keeps {z : Bus} {b : Bus} {lo : BReg} {hi : BReg} {i : ℕ} {j : ℕ} {v : ℕ} (h : BusKeeps z b)  :
    BusKeeps z (Bus.setPair b lo hi i j v) := by
  unfold Bus.setPair
  repeat' with_reducible first
    | assumption | apply Bus.setReg_keeps

theorem Bus.send_keeps {z b : Bus} {o : Out} (h : BusKeeps z b) : BusKeeps z (b.send o) :=
  h.trans ⟨id, Nat.le_refl _, Nat.le_refl _, List.prefix_append _ _⟩

theorem Bus.emitAt_keeps {z : Bus} {b : Bus} {time : Word} {frame : Option Word} {typ : ℕ} {inst : ℕ} {sev : ℕ} {pay : Payload} (h : BusKeeps z b)  :
    BusKeeps z (Bus.emitAt b time frame typ inst sev pay) := by
  unfold Bus.emitAt
  repeat' with_reducible first
    | assumption | (fail_if_no_progress apply BusKeeps.mk')

theorem Bus.emit_keeps {z : Bus} {b : Bus} {typ : ℕ} {inst : ℕ} {sev : ℕ} {pay : Payload} (h : BusKeeps z b)  :
    BusKeeps z (Bus.emit b typ inst sev pay) := by
  unfold Bus.emit
  repeat' with_reducible first
    | assumption | apply Bus.emitAt_keeps

theorem Bus.freeWord_keeps {z b : Bus} (h : BusKeeps z b) : BusKeeps z b.freeWord.2 :=
  h.trans ⟨id, Nat.le_refl _, Nat.le_succ _, List.prefix_refl _⟩

theorem Bus.jtrim_keeps {z b : Bus} {n : Nat} (h : BusKeeps z b) : BusKeeps z (Bus.jtrim n b) := by
  induction n generalizing b with
  | zero => exact h
  | succ n ih =>
    unfold Bus.jtrim
    split
    · exact h
    · split
      · exact h
      · exact ih (h.upd rfl rfl rfl rfl)

theorem Bus.journalAt_keeps {z : Bus} {b : Bus} {time : Word} {kind : ℕ} {cap : ℕ} {inst : ℕ} {body : List Byte} (h : BusKeeps z b)  :
    BusKeeps z (Bus.journalAt b time kind cap inst body) := by
  unfold Bus.journalAt
  repeat' with_reducible first
    | assumption | extract_lets | apply Bus.jtrim_keeps | apply Bus.setReg_keeps | apply BusKeeps.ite | split | dsimp only
    | dsimp +zetaDelta only | (fail_if_no_progress apply BusKeeps.mk')

theorem Bus.journal_keeps {z : Bus} {b : Bus} {kind : ℕ} {cap : ℕ} {inst : ℕ} {body : List Byte} (h : BusKeeps z b)  :
    BusKeeps z (Bus.journal b kind cap inst body) := by
  unfold Bus.journal
  repeat' with_reducible first
    | assumption | apply Bus.journalAt_keeps

theorem Bus.enter_keeps {z : Bus} {b : Bus} {cap : ℕ} {inst : ℕ} {st : ℕ} (h : BusKeeps z b)  :
    BusKeeps z (Bus.enter b cap inst st) := by
  unfold Bus.enter
  repeat' with_reducible first
    | assumption | extract_lets | apply Bus.setFld_keeps | apply Bus.emit_keeps | apply BusKeeps.ite

theorem Bus.toStopping_keeps {z : Bus} {b : Bus} {cap : ℕ} {inst : ℕ} {cause : ℕ} (h : BusKeeps z b)  :
    BusKeeps z (Bus.toStopping b cap inst cause) := by
  unfold Bus.toStopping
  repeat' with_reducible first
    | assumption | extract_lets | apply Bus.setFld_keeps | apply Bus.enter_keeps | dsimp +zetaDelta only
    | (fail_if_no_progress apply BusKeeps.mk')

theorem Bus.startFailed_keeps {z : Bus} {b : Bus} {cap : ℕ} {inst : ℕ} {reason : ℕ} (h : BusKeeps z b)  :
    BusKeeps z (Bus.startFailed b cap inst reason) := by
  unfold Bus.startFailed
  repeat' with_reducible first
    | assumption | extract_lets | apply Bus.setFld_keeps | apply Bus.emit_keeps | apply Bus.enter_keeps

theorem Bus.setAcc_keeps {z : Bus} {b : Bus} {m : ℕ} {x : AccSt} (h : BusKeeps z b)  :
    BusKeeps z (Bus.setAcc b m x) := by
  unfold Bus.setAcc
  repeat' with_reducible first
    | assumption | (fail_if_no_progress apply BusKeeps.mk')

theorem Bus.refuseRead_keeps {z : Bus} {b : Bus} {m : ℕ} {a : ℕ} (h : BusKeeps z b)  :
    BusKeeps z (Bus.refuseRead b m a) := by
  unfold Bus.refuseRead
  repeat' with_reducible first
    | assumption | extract_lets | apply Bus.setAcc_keeps | apply Bus.bump_keeps

theorem Bus.refuseWrite_keeps {z : Bus} {b : Bus} {m : ℕ} {a : ℕ} (h : BusKeeps z b)  :
    BusKeeps z (Bus.refuseWrite b m a) := by
  unfold Bus.refuseWrite
  repeat' with_reducible first
    | assumption | extract_lets | apply Bus.setAcc_keeps | apply Bus.bump_keeps

theorem Bus.retire_keeps {z b : Bus} {w : QWrite} (h : BusKeeps z b) : BusKeeps z (b.retire w) :=
  h.trans ⟨memPut_wf _ _, Nat.le_refl _, Nat.le_refl _, List.prefix_refl _⟩

theorem Bus.drainOne_keeps {z b : Bus} (h : BusKeeps z b) : BusKeeps z b.drainOne := by
  unfold Bus.drainOne
  split
  · exact h
  · exact h.trans ⟨memPut_wf _ _, Nat.le_refl _, Nat.le_refl _, List.prefix_refl _⟩

theorem Bus.drain_keeps {z b : Bus} {p : QWrite → Bool} (h : BusKeeps z b) : BusKeeps z (b.drain p) :=
  (BusKeeps.foldl h fun _ _ hb => Bus.retire_keeps hb).upd rfl rfl rfl rfl

theorem Bus.rowDrain_keeps {z : Bus} {b : Bus} {a : ℕ} {n : ℕ} (h : BusKeeps z b)  :
    BusKeeps z (Bus.rowDrain b a n) := by
  unfold Bus.rowDrain
  repeat' with_reducible first
    | assumption | intro _ | extract_lets | apply Bus.drain_keeps

theorem Bus.countBytes_keeps {z : Bus} {b : Bus} {a : ℕ} {n : ℕ} (h : BusKeeps z b)  :
    BusKeeps z (Bus.countBytes b a n) := by
  unfold Bus.countBytes
  repeat' with_reducible first
    | assumption | apply Bus.setPair_keeps

theorem Bus.unmapped_keeps {z : Bus} {b : Bus} {m : ℕ} {a : ℕ} {write : Bool} (h : BusKeeps z b)  :
    BusKeeps z (Bus.unmapped b m a write) := by
  unfold Bus.unmapped
  repeat' with_reducible first
    | assumption | extract_lets | apply Bus.bump_keeps | apply Bus.emit_keeps | apply BusKeeps.ite
    | refine BusKeeps.ofPair ?_ ‹_› | split | dsimp only | dsimp +zetaDelta only | (fail_if_no_progress apply BusKeeps.mk')

theorem Bus.uncorrectable_keeps {z : Bus} {b : Bus} {m : ℕ} {a : ℕ} {scrub : Bool} (h : BusKeeps z b)  :
    BusKeeps z (Bus.uncorrectable b m a scrub) := by
  unfold Bus.uncorrectable
  repeat' with_reducible first
    | assumption | extract_lets | apply Bus.bump_keeps | apply Bus.setFld_keeps | apply Bus.setPair_keeps
    | apply Bus.emit_keeps | apply BusKeeps.ite

theorem Bus.poisonWord_keeps {z : Bus} {b : Bus} {a : ℕ} (h : BusKeeps z b)  :
    BusKeeps z (Bus.poisonWord b a) := by
  unfold Bus.poisonWord
  repeat' with_reducible first
    | assumption | apply BusKeeps.ite | split | (fail_if_no_progress apply BusKeeps.mk')

theorem Bus.corrected_keeps {z : Bus} {b : Bus} {a : ℕ} {n : ℕ} (h : BusKeeps z b)  :
    BusKeeps z (Bus.corrected b a n) := by
  unfold Bus.corrected
  repeat' with_reducible first
    | assumption | extract_lets | apply Bus.bump_keeps | apply BusKeeps.ite | apply BusKeeps.iteFst
    | refine BusKeeps.ofPair ?_ ‹_› | split | dsimp only | dsimp +zetaDelta only | (fail_if_no_progress apply BusKeeps.mk')

theorem Bus.correctWords_keeps {z : Bus} {b : Bus} {a : ℕ} {n : ℕ} (h : BusKeeps z b)  :
    BusKeeps z (Bus.correctWords b a n) := by
  unfold Bus.correctWords
  repeat' with_reducible first
    | assumption | intro _ | extract_lets | apply Bus.corrected_keeps | apply BusKeeps.ite | apply BusKeeps.foldl
    | apply BusKeeps.foldlFst | split | dsimp only | dsimp +zetaDelta only | (fail_if_no_progress apply BusKeeps.mk')

theorem Bus.readChecked_keeps {z : Bus} {b : Bus} {m : ℕ} {a : ℕ} {n : ℕ} (h : BusKeeps z b)  :
    BusKeeps z (Bus.readChecked b m a n).1 := by
  unfold Bus.readChecked
  repeat' with_reducible first
    | assumption | intro _ | extract_lets | apply Bus.unmapped_keeps | apply Bus.rowDrain_keeps
    | apply Bus.correctWords_keeps | apply Bus.countBytes_keeps | apply Bus.uncorrectable_keeps | apply BusKeeps.ite
    | apply BusKeeps.foldl | apply BusKeeps.foldlFst | split

theorem Bus.load_keeps {z : Bus} {b : Bus} {m : ℕ} {a : ℕ} {n : ℕ} (h : BusKeeps z b)  :
    BusKeeps z (Bus.load b m a n).1 := by
  unfold Bus.load
  repeat' with_reducible first
    | assumption | apply Bus.readChecked_keeps | apply Bus.refuseRead_keeps | apply BusKeeps.ite | split

theorem Bus.writeChecked_keeps {z b : Bus} {m a : Nat} {data : List Byte} (h : BusKeeps z b) :
    BusKeeps z (Bus.writeChecked b m a data).1 := by
  unfold Bus.writeChecked
  split
  · exact Bus.unmapped_keeps h
  · have hc : BusKeeps z (b.countBytes a data.length) := Bus.countBytes_keeps h
    dsimp only
    split
    · exact Bus.rowDrain_keeps (hc.upd rfl rfl rfl rfl)
    · exact hc.upd rfl rfl rfl rfl

theorem Bus.store_keeps {z : Bus} {b : Bus} {m : ℕ} {a : ℕ} {data : List Byte} (h : BusKeeps z b)  :
    BusKeeps z (Bus.store b m a data).1 := by
  unfold Bus.store
  repeat' with_reducible first
    | assumption | apply Bus.writeChecked_keeps | apply Bus.refuseWrite_keeps | apply BusKeeps.ite | split

theorem Bus.setRing_keeps {z : Bus} {b : Bus} {r : ℕ} {x : RingSt} (h : BusKeeps z b)  :
    BusKeeps z (Bus.setRing b r x) := by
  unfold Bus.setRing
  repeat' with_reducible first
    | assumption | (fail_if_no_progress apply BusKeeps.mk')

theorem Bus.setHost_keeps {z : Bus} {b : Bus} {h_1 : ℕ} {x : HostSt} (h : BusKeeps z b)  :
    BusKeeps z (Bus.setHost b h_1 x) := by
  unfold Bus.setHost
  repeat' with_reducible first
    | assumption | (fail_if_no_progress apply BusKeeps.mk')

theorem Bus.msix_keeps {z : Bus} {b : Bus} {h_1 : ℕ} {v : ℕ} (h : BusKeeps z b)  :
    BusKeeps z (Bus.msix b h_1 v) := by
  unfold Bus.msix
  repeat' with_reducible first
    | assumption | extract_lets | apply Bus.setHost_keeps | apply Bus.send_keeps | apply BusKeeps.ite

theorem Bus.msixWrite_keeps {z : Bus} {b : Bus} {h_1 : ℕ} {i : ℕ} {v : Word} (h : BusKeeps z b)  :
    BusKeeps z (Bus.msixWrite b h_1 i v) := by
  unfold Bus.msixWrite
  repeat' with_reducible first
    | assumption | extract_lets | apply Bus.send_keeps | apply Bus.setHost_keeps | apply BusKeeps.ite

theorem Bus.aerLog_keeps {z : Bus} {b : Bus} {h_1 : ℕ} {kind : ℕ} {a : ℕ} (h : BusKeeps z b)  :
    BusKeeps z (Bus.aerLog b h_1 kind a) := by
  unfold Bus.aerLog
  repeat' with_reducible first
    | assumption | apply Bus.setHost_keeps

theorem Bus.signal_keeps {z : Bus} {b : Bus} {host : ℕ} {r : ℕ} (h : BusKeeps z b)  :
    BusKeeps z (Bus.signal b host r) := by
  unfold Bus.signal
  repeat' with_reducible first
    | assumption | extract_lets | apply Bus.setRing_keeps | apply Bus.msix_keeps | apply BusKeeps.ite

theorem Bus.fenceSignal_keeps {z : Bus} {b : Bus} {n : ℕ} {v : ℕ} (h : BusKeeps z b)  :
    BusKeeps z (Bus.fenceSignal b n v) := by
  unfold Bus.fenceSignal
  repeat' with_reducible first
    | assumption | apply Bus.setPair_keeps | apply Bus.emit_keeps | apply BusKeeps.ite

theorem Bus.advanceCons_keeps {z b : Bus} {n r : Nat} (h : BusKeeps z b) : BusKeeps z (Bus.advanceCons n b r) := by
  induction n generalizing b with
  | zero => exact h
  | succ n ih =>
    unfold Bus.advanceCons
    dsimp only
    split
    · exact h
    · split
      · exact ih (Bus.setRing_keeps (Bus.setReg_keeps h))
      · exact h

theorem Bus.stalled_keeps {z : Bus} {b : Bus} {r : ℕ} (h : BusKeeps z b)  :
    BusKeeps z (Bus.stalled b r) := by
  unfold Bus.stalled
  repeat' with_reducible first
    | assumption | intro _ | apply Bus.setFld_keeps

theorem Bus.setPhase_keeps {z : Bus} {b : Bus} {r : ℕ} {k : ℕ} {ph : EPhase} (h : BusKeeps z b)  :
    BusKeeps z (Bus.setPhase b r k ph) := by
  unfold Bus.setPhase
  repeat' with_reducible first
    | assumption | intro _ | extract_lets | apply Bus.setRing_keeps

theorem Bus.completeRaw_keeps {z : Bus} {b : Bus} {host : ℕ} {r : ℕ} {k : ℕ} {status : ℕ} {reason : ℕ} (h : BusKeeps z b)  :
    BusKeeps z (Bus.completeRaw b host r k status reason).1 := by
  unfold Bus.completeRaw
  repeat' with_reducible first
    | assumption | intro _ | extract_lets | apply Bus.store_keeps | apply Bus.setPhase_keeps | apply Bus.fenceSignal_keeps
    | apply Bus.emit_keeps | apply Bus.signal_keeps | apply Bus.stalled_keeps | apply Bus.advanceCons_keeps
    | apply BusKeeps.ite | refine BusKeeps.ofPair ?_ ‹_› | split

theorem Bus.ringStop_keeps {z : Bus} {b : Bus} {host : ℕ} {r : ℕ} {cause : ℕ} (h : BusKeeps z b)  :
    BusKeeps z (Bus.ringStop b host r cause) := by
  unfold Bus.ringStop
  repeat' with_reducible first
    | assumption | intro _ | extract_lets | apply Bus.toStopping_keeps | apply Bus.completeRaw_keeps | apply BusKeeps.foldl

theorem Bus.ringFault_keeps {z : Bus} {b : Bus} {host : ℕ} {r : ℕ} {k : ℕ} {cause : ℕ} (h : BusKeeps z b)  :
    BusKeeps z (Bus.ringFault b host r k cause) := by
  unfold Bus.ringFault
  repeat' with_reducible first
    | assumption | apply Bus.emit_keeps | apply Bus.ringStop_keeps | apply BusKeeps.ite

theorem Bus.complete_keeps {z : Bus} {b : Bus} {host : ℕ} {r : ℕ} {k : ℕ} {status : ℕ} {reason : ℕ} (h : BusKeeps z b)  :
    BusKeeps z (Bus.complete b host r k status reason) := by
  unfold Bus.complete
  repeat' with_reducible first
    | assumption | extract_lets | apply Bus.completeRaw_keeps | apply Bus.ringFault_keeps | apply BusKeeps.ite

theorem Bus.ringFull_keeps {z : Bus} {b : Bus} {r : ℕ} {n : ℕ} (h : BusKeeps z b)  :
    BusKeeps z (Bus.ringFull b r n) := by
  unfold Bus.ringFull
  repeat' with_reducible first
    | assumption | extract_lets | apply Bus.setRing_keeps | apply Bus.setFld_keeps | apply Bus.emit_keeps
    | apply BusKeeps.ite

theorem Bus.post_keeps {z : Bus} {b : Bus} {host : ℕ} {r : ℕ} {data : List Byte} (h : BusKeeps z b)  :
    BusKeeps z (Bus.post b host r data).1 := by
  unfold Bus.post
  repeat' with_reducible first
    | assumption | extract_lets | apply Bus.ringFull_keeps | apply Bus.store_keeps | apply Bus.signal_keeps
    | apply Bus.setReg_keeps | apply Bus.ringFault_keeps | apply BusKeeps.ite | refine BusKeeps.ofPair ?_ ‹_› | split

theorem Bus.flush_keeps {z b : Bus} {n h : Nat} {p : Plan} (hb : BusKeeps z b) : BusKeeps z (Bus.flush n p b h) := by
  induction n generalizing b with
  | zero => exact hb
  | succ n ih =>
    unfold Bus.flush
    dsimp only
    repeat' with_reducible first
      | assumption | apply ih | apply Bus.setHost_keeps | apply Bus.setRing_keeps | apply Bus.bump_keeps | apply Bus.post_keeps
      | split

theorem Bus.trimQueue_keeps {z : Bus} {b : Bus} {h_1 : ℕ} (h : BusKeeps z b)  :
    BusKeeps z (Bus.trimQueue b h_1) := by
  unfold Bus.trimQueue
  repeat' with_reducible first
    | assumption | extract_lets | apply Bus.setHost_keeps | apply Bus.bump_keeps | apply BusKeeps.ite

theorem Bus.deliver_keeps {z : Bus} {p : Plan} {b : Bus} {e : EvRec} (h : BusKeeps z b)  :
    BusKeeps z (Bus.deliver p b e) := by
  unfold Bus.deliver
  repeat' with_reducible first
    | assumption | intro _ | extract_lets | apply Bus.msix_keeps | apply Bus.setHost_keeps | apply Bus.trimQueue_keeps
    | apply Bus.flush_keeps | apply BusKeeps.ite | apply BusKeeps.foldl

theorem Bus.settleLoop_keeps {z b : Bus} {n : Nat} {p : Plan} (h : BusKeeps z b) : BusKeeps z (Bus.settleLoop n p b) := by
  induction n generalizing b with
  | zero => exact h
  | succ n ih =>
    unfold Bus.settleLoop
    split
    · exact h
    · exact ih (Bus.deliver_keeps (h.upd rfl rfl rfl rfl))

theorem Bus.settle_keeps {z : Bus} {p : Plan} {b : Bus} (h : BusKeeps z b)  :
    BusKeeps z (Bus.settle p b) := by
  unfold Bus.settle
  repeat' with_reducible first
    | assumption | apply Bus.settleLoop_keeps

theorem Bus.flushAll_keeps {z : Bus} {p : Plan} {b : Bus} (h : BusKeeps z b)  :
    BusKeeps z (Bus.flushAll p b) := by
  unfold Bus.flushAll
  repeat' with_reducible first
    | assumption | intro _ | apply Bus.flush_keeps | apply BusKeeps.foldl

end Sys2Proof.Machine
end

