-- ==== Sys2Proof/Laws/KeepsOps.lean ====
section
/-! SUPPORT. What the operations and commands of Machine/Ops.lean keep: one law each. -/

namespace Sys2Proof.Machine

theorem State.onBus_keeps {z s : State} {f : Bus → Bus} (h : Keeps z s) (hf : BusKeeps s.bus (f s.bus)) : Keeps z (s.onBus f) :=
  h.updBus rfl rfl hf

theorem State.setReg_keeps {z : State} {s : State} {r : FReg} {i : ℕ} {j : ℕ} {v : Word} (h : Keeps z s)  :
    Keeps z (State.setReg s r i j v) := by
  unfold State.setReg
  repeat' with_reducible first
    | assumption | exact BusKeeps.refl _ | (fail_if_no_progress apply Keeps.mk')

theorem State.setFld_keeps {z : State} {s : State} {r : FReg} {i : ℕ} {j : ℕ} {lo : ℕ} {n : ℕ} {v : ℕ} (h : Keeps z s)  :
    Keeps z (State.setFld s r i j lo n v) := by
  unfold State.setFld
  repeat' with_reducible first
    | assumption | apply State.setReg_keeps

theorem State.bump_keeps {z : State} {s : State} {r : FReg} {i : ℕ} {j : ℕ} {n : ℕ} (h : Keeps z s)  :
    Keeps z (State.bump s r i j n) := by
  unfold State.bump
  repeat' with_reducible first
    | assumption | apply State.setReg_keeps

theorem State.setPair_keeps {z : State} {s : State} {lo : FReg} {hi : FReg} {i : ℕ} {j : ℕ} {v : ℕ} (h : Keeps z s)  :
    Keeps z (State.setPair s lo hi i j v) := by
  unfold State.setPair
  repeat' with_reducible first
    | assumption | apply State.setReg_keeps

theorem State.emit_keeps {z : State} {s : State} {typ : ℕ} {inst : ℕ} {sev : ℕ} {p : Payload} (h : Keeps z s)  :
    Keeps z (State.emit s typ inst sev p) := by
  unfold State.emit
  repeat' with_reducible first
    | assumption | intro _ | exact BusKeeps.refl _ | apply State.onBus_keeps | apply Bus.emit_keeps

theorem State.emitAt_keeps {z : State} {s : State} {time : Word} {frame : Option Word} {typ : ℕ} {inst : ℕ} {sev : ℕ} {p : Payload} (h : Keeps z s)  :
    Keeps z (State.emitAt s time frame typ inst sev p) := by
  unfold State.emitAt
  repeat' with_reducible first
    | assumption | intro _ | exact BusKeeps.refl _ | apply State.onBus_keeps | apply Bus.emitAt_keeps

theorem State.send_keeps {z : State} {s : State} {o : Out} (h : Keeps z s)  :
    Keeps z (State.send s o) := by
  unfold State.send
  repeat' with_reducible first
    | assumption | intro _ | exact BusKeeps.refl _ | apply State.onBus_keeps | apply Bus.send_keeps

theorem State.journal_keeps {z : State} {s : State} {kind : ℕ} {cap : ℕ} {inst : ℕ} {body : List Byte} (h : Keeps z s)  :
    Keeps z (State.journal s kind cap inst body) := by
  unfold State.journal
  repeat' with_reducible first
    | assumption | intro _ | exact BusKeeps.refl _ | apply State.onBus_keeps | apply Bus.journal_keeps | apply Keeps.ite

theorem State.journalAt_keeps {z : State} {s : State} {t : Word} {kind : ℕ} {cap : ℕ} {inst : ℕ} {body : List Byte} (h : Keeps z s)  :
    Keeps z (State.journalAt s t kind cap inst body) := by
  unfold State.journalAt
  repeat' with_reducible first
    | assumption | intro _ | exact BusKeeps.refl _ | apply State.onBus_keeps | apply Bus.journalAt_keeps | apply Keeps.ite

theorem State.setWdn_keeps {z : State} {s : State} {x : WdnSt} (h : Keeps z s)  :
    Keeps z (State.setWdn s x) := by
  unfold State.setWdn
  repeat' with_reducible first
    | assumption | exact BusKeeps.refl _ | (fail_if_no_progress apply Keeps.mk')

theorem State.giveUp_keeps {z : State} {s : State} {cap : ℕ} {inst : ℕ} {kept : ℕ} {given : ℕ} {code : ℕ} {tag : Option Word} (h : Keeps z s)  :
    Keeps z (State.giveUp s cap inst kept given code tag) := by
  unfold State.giveUp
  repeat' with_reducible first
    | assumption | intro _ | exact BusKeeps.refl _ | apply State.journal_keeps | apply State.onBus_keeps
    | apply Bus.freeWord_keeps | refine Keeps.ofPair ?_ ‹_› | split

theorem State.trigger_keeps {z : State} {s : State} {cause : ℕ} {wait : Option (ℕ × ℕ)} (h : Keeps z s)  :
    Keeps z (State.trigger s cause wait) := by
  unfold State.trigger
  repeat' with_reducible first
    | assumption | exact BusKeeps.refl _ | (fail_if_no_progress apply Keeps.mk')

theorem State.fault_keeps {z : State} {s : State} {cap : ℕ} {inst : ℕ} {code : ℕ} (h : Keeps z s)  :
    Keeps z (State.fault s cap inst code) := by
  unfold State.fault
  repeat' with_reducible first
    | assumption | extract_lets | exact BusKeeps.refl _ | apply State.setReg_keeps | apply State.setFld_keeps
    | apply State.emit_keeps | apply State.trigger_keeps | apply Keeps.ite | split | dsimp only | dsimp +zetaDelta only
    | (fail_if_no_progress apply Keeps.mk')

theorem State.free_keeps {z : State} {s : State} (h : Keeps z s)  :
    Keeps z (State.free s).2 := by
  unfold State.free
  repeat' with_reducible first
    | assumption | intro _ | exact BusKeeps.refl _ | apply Bus.freeWord_keeps | apply State.onBus_keeps

theorem State.load_keeps {z : State} {s : State} {m : ℕ} {a : ℕ} {n : ℕ} (h : Keeps z s)  :
    Keeps z (State.load s m a n).1 := by
  unfold State.load
  repeat' with_reducible first
    | assumption | exact BusKeeps.refl _ | apply Bus.load_keeps | (fail_if_no_progress apply Keeps.mk')

theorem State.store_keeps {z : State} {s : State} {m : ℕ} {a : ℕ} {data : List Byte} (h : Keeps z s)  :
    Keeps z (State.store s m a data).1 := by
  unfold State.store
  repeat' with_reducible first
    | assumption | exact BusKeeps.refl _ | apply Bus.store_keeps | (fail_if_no_progress apply Keeps.mk')

theorem State.setLink_keeps {z : State} {s : State} {p : ℕ} {x : LinkSt} (h : Keeps z s)  :
    Keeps z (State.setLink s p x) := by
  unfold State.setLink
  repeat' with_reducible first
    | assumption | exact BusKeeps.refl _ | (fail_if_no_progress apply Keeps.mk')

theorem State.setLane_keeps {z : State} {s : State} {p : ℕ} {x : LaneSt} (h : Keeps z s)  :
    Keeps z (State.setLane s p x) := by
  unfold State.setLane
  repeat' with_reducible first
    | assumption | exact BusKeeps.refl _ | (fail_if_no_progress apply Keeps.mk')

theorem State.settle_keeps {z : State} {s : State} (h : Keeps z s)  :
    Keeps z (State.settle s) := by
  unfold State.settle
  repeat' with_reducible first
    | assumption | exact BusKeeps.refl _ | apply Bus.settle_keeps | (fail_if_no_progress apply Keeps.mk')

end Sys2Proof.Machine
end

