-- ==== Sys2Proof/Laws/KeepsPanel.lean ====
section
/-! SUPPORT. What the operations and commands of Machine/Panel.lean keep: one law each. -/

namespace Sys2Proof.Machine

theorem State.setPan_keeps {z : State} {s : State} {p : ℕ} {x : PanelSt} (h : Keeps z s)  :
    Keeps z (State.setPan s p x) := by
  unfold State.setPan
  repeat' with_reducible first
    | assumption | exact BusKeeps.refl _ | (fail_if_no_progress apply Keeps.mk')

theorem State.panShow_keeps {z : State} {s : State} {p : ℕ} (h : Keeps z s)  :
    Keeps z (State.panShow s p) := by
  unfold State.panShow
  repeat' with_reducible first
    | assumption | intro _ | extract_lets | apply State.setFld_keeps | apply State.setReg_keeps

theorem State.panSuspect_keeps {z : State} {s : State} {p : ℕ} {add : List ℕ} {clear : List ℕ} (h : Keeps z s)  :
    Keeps z (State.panSuspect s p add clear) := by
  unfold State.panSuspect
  repeat' with_reducible first
    | assumption | intro _ | extract_lets | exact BusKeeps.refl _ | apply State.emit_keeps | apply State.setPan_keeps
    | apply Keeps.ite

theorem State.panPost_keeps {z : State} {s : State} {p : ℕ} {st : ℕ} {cause : ℕ} {stamp : Option Word} (h : Keeps z s)  :
    Keeps z (State.panPost s p st cause stamp) := by
  unfold State.panPost
  repeat' with_reducible first
    | assumption | intro _ | extract_lets | exact BusKeeps.refl _ | apply State.onBus_keeps | apply Bus.ringFull_keeps
    | apply State.setPan_keeps | apply State.bump_keeps | apply State.emit_keeps | apply State.free_keeps
    | apply Bus.post_keeps | apply State.setReg_keeps | apply Keeps.ite | apply Keeps.iteFst | apply Keeps.forEach
    | apply Keeps.forEachFst | refine Keeps.ofPair ?_ ‹_› | split | apply BusKeeps.ite | apply BusKeeps.forEach | dsimp only
    | dsimp +zetaDelta only

theorem State.panRelease_keeps {z : State} {s : State} {p : ℕ} {reason : ℕ} (h : Keeps z s)  :
    Keeps z (State.panRelease s p reason) := by
  unfold State.panRelease
  repeat' with_reducible first
    | assumption | intro _ | extract_lets | exact BusKeeps.refl _ | apply State.panSuspect_keeps | apply State.setPan_keeps

theorem State.panFall_keeps {z : State} {s : State} {p : ℕ} {cause : ℕ} {stamp : Option Word} (h : Keeps z s)  :
    Keeps z (State.panFall s p cause stamp) := by
  unfold State.panFall
  repeat' with_reducible first
    | assumption | extract_lets | exact BusKeeps.refl _ | apply State.setPan_keeps | apply State.panRelease_keeps
    | apply State.panShow_keeps | apply State.setFld_keeps | apply State.emit_keeps | apply State.panPost_keeps
    | apply Keeps.ite

theorem State.panUnavail_keeps {z : State} {s : State} {p : ℕ} {cause : ℕ} (h : Keeps z s)  :
    Keeps z (State.panUnavail s p cause) := by
  unfold State.panUnavail
  repeat' with_reducible first
    | assumption | apply State.panFall_keeps

theorem State.panWatch_keeps {z : State} {s : State} {p : ℕ} (h : Keeps z s)  :
    Keeps z (State.panWatch s p) := by
  unfold State.panWatch
  repeat' with_reducible first
    | assumption | intro _ | extract_lets | exact BusKeeps.refl _ | apply State.setPan_keeps | apply State.panUnavail_keeps
    | apply State.panShow_keeps | apply Keeps.ite | refine Keeps.ofPair ?_ ‹_› | split

theorem Bus.meetWaits_keeps {z : Bus} {b : Bus} (h : BusKeeps z b)  :
    BusKeeps z (Bus.meetWaits b) := by
  unfold Bus.meetWaits
  repeat' with_reducible first
    | assumption | intro _ | (fail_if_no_progress apply BusKeeps.mk')

theorem State.meetFlips_keeps {z : State} {s : State} (h : Keeps z s)  :
    Keeps z (State.meetFlips s) := by
  unfold State.meetFlips
  repeat' with_reducible first
    | assumption | intro _ | exact BusKeeps.refl _ | (fail_if_no_progress apply Keeps.mk')

theorem State.watch_keeps {z : State} {s : State} (h : Keeps z s)  :
    Keeps z (State.watch s) := by
  unfold State.watch
  repeat' with_reducible first
    | assumption | intro _ | exact BusKeeps.refl _ | apply State.panWatch_keeps | apply State.meetFlips_keeps
    | apply State.onBus_keeps | apply Bus.meetWaits_keeps | apply Keeps.forEach

theorem State.storeRefused_keeps {z : State} {s : State} {kind : ℕ} (h : Keeps z s)  :
    Keeps z (State.storeRefused s kind) := by
  unfold State.storeRefused
  repeat' with_reducible first
    | assumption | intro _ | extract_lets | exact BusKeeps.refl _ | apply State.emit_keeps | apply Keeps.ite
    | apply Keeps.iteFst | refine Keeps.ofPair ?_ ‹_› | split | dsimp only | dsimp +zetaDelta only
    | (fail_if_no_progress apply Keeps.mk')

theorem State.fabric_keeps {z : State} {s : State} {f : State → State} (h : Keeps z s) (hf : ∀ y0, Keeps z y0 → Keeps z (f y0)) :
    AnswerKeeps z (State.fabric s f) := by
  unfold State.fabric
  repeat' with_reducible first
    | assumption | intro _ | apply State.settle_keeps | apply State.watch_keeps | apply Keeps.ite | apply AnswerKeeps.next
    | apply hf

theorem State.warden_keeps {z : State} {s : State} {f : State → State} (h : Keeps z s) (hf : ∀ y0, Keeps z y0 → Keeps z (f y0)) :
    AnswerKeeps z (State.warden s f) := by
  unfold State.warden
  repeat' with_reducible first
    | assumption | intro _ | apply State.settle_keeps | apply State.watch_keeps | apply Keeps.ite | apply AnswerKeeps.next
    | apply hf

theorem State.window_keeps {z : State} {s : State} {f : State → State} (h : Keeps z s) (hf : ∀ y0, Keeps z y0 → Keeps z (f y0)) :
    AnswerKeeps z (State.window s f) := by
  unfold State.window
  repeat' with_reducible first
    | assumption | intro _ | apply State.settle_keeps | apply State.watch_keeps | apply Keeps.ite | apply AnswerKeeps.next
    | apply hf

end Sys2Proof.Machine
end

