-- ==== Sys2Proof/Laws/KeepsMemCtl.lean ====
section
/-! SUPPORT. What the operations and commands of Machine/MemCtl.lean keep: one law each. -/

namespace Sys2Proof.Machine

theorem Bus.inject_keeps {z : Bus} {b : Bus} {a : ℕ} {n : ℕ} {ce : ℕ} {ue : Bool} (h : BusKeeps z b)  :
    BusKeeps z (Bus.inject b a n ce ue) := by
  unfold Bus.inject
  repeat' with_reducible first
    | assumption | extract_lets | apply Bus.poisonWord_keeps | apply BusKeeps.ite | apply BusKeeps.foldl
    | apply BusKeeps.foldlFst | split | dsimp only | dsimp +zetaDelta only | (fail_if_no_progress apply BusKeeps.mk')

theorem Bus.debugRead_keeps {z : Bus} {b : Bus} {life : ℕ} {a : ℕ} {n : ℕ} (h : BusKeeps z b)  :
    BusKeeps z (Bus.debugRead b life a n).1 := by
  unfold Bus.debugRead
  repeat' with_reducible first
    | assumption | apply Bus.readChecked_keeps | apply Bus.refuseRead_keeps | apply Bus.load_keeps | apply BusKeeps.ite
    | refine BusKeeps.ofPair ?_ ‹_› | split

theorem Bus.debugWrite_keeps {z : Bus} {b : Bus} {life : ℕ} {a : ℕ} {data : List Byte} (h : BusKeeps z b)  :
    BusKeeps z (Bus.debugWrite b life a data).1 := by
  unfold Bus.debugWrite
  repeat' with_reducible first
    | assumption | apply Bus.writeChecked_keeps | apply Bus.refuseWrite_keeps | apply Bus.store_keeps | apply BusKeeps.ite
    | refine BusKeeps.ofPair ?_ ‹_› | split

theorem memoryRead_keeps {z : State} {m : ℕ} {a : ℕ} {n : ℕ} {ce : ℕ} {ue : Bool} {s : State} (h : Keeps z s)  :
    Keeps z (memoryRead m a n ce ue s) := by
  unfold memoryRead
  repeat' with_reducible first
    | assumption | intro _ | extract_lets | exact BusKeeps.refl _ | apply State.onBus_keeps | apply Bus.inject_keeps
    | apply Bus.debugRead_keeps | apply Bus.load_keeps | apply State.send_keeps | apply Keeps.ite | apply Keeps.iteFst
    | refine Keeps.ofPair ?_ ‹_› | split | apply BusKeeps.ite | dsimp only | dsimp +zetaDelta only
    | (fail_if_no_progress apply Keeps.mk')

theorem State.debugRecord_keeps {z : State} {s : State} (h : Keeps z s)  :
    Keeps z (State.debugRecord s) := by
  unfold State.debugRecord
  repeat' with_reducible first
    | assumption | exact BusKeeps.refl _ | apply State.journal_keeps | apply State.setWdn_keeps | apply Keeps.ite
    | refine Keeps.ofPair ?_ ‹_› | split

theorem State.debugCount_keeps {z : State} {s : State} {a : ℕ} {n : ℕ} (h : Keeps z s)  :
    Keeps z (State.debugCount s a n) := by
  unfold State.debugCount
  repeat' with_reducible first
    | assumption | extract_lets | exact BusKeeps.refl _ | apply State.debugRecord_keeps | apply State.setWdn_keeps

theorem memoryWrite_keeps {z : State} {m : ℕ} {a : ℕ} {data : List Byte} {s : State} (h : Keeps z s)  :
    Keeps z (memoryWrite m a data s) := by
  unfold memoryWrite
  repeat' with_reducible first
    | assumption | extract_lets | exact BusKeeps.refl _ | apply Bus.debugWrite_keeps | apply Bus.store_keeps
    | apply State.send_keeps | apply State.debugCount_keeps | apply Keeps.ite | apply Keeps.iteFst | split | dsimp only
    | dsimp +zetaDelta only | (fail_if_no_progress apply Keeps.mk')

theorem Bus.rowCorrected_keeps {z : Bus} {b : Bus} {a : ℕ} {n : ℕ} (h : BusKeeps z b)  :
    BusKeeps z (Bus.rowCorrected b a n) := by
  unfold Bus.rowCorrected
  repeat' with_reducible first
    | assumption | extract_lets | apply Bus.emit_keeps | apply BusKeeps.ite | refine BusKeeps.ofPair ?_ ‹_› | split
    | dsimp only | dsimp +zetaDelta only | (fail_if_no_progress apply BusKeeps.mk')

theorem Bus.scrubRead_keeps {z : Bus} {b : Bus} {result : ℕ} (h : BusKeeps z b)  :
    BusKeeps z (Bus.scrubRead b result) := by
  unfold Bus.scrubRead
  repeat' with_reducible first
    | assumption | extract_lets | apply Bus.inject_keeps | apply Bus.uncorrectable_keeps | apply Bus.rowCorrected_keeps
    | apply Bus.correctWords_keeps | apply BusKeeps.ite | split | dsimp only | dsimp +zetaDelta only
    | (fail_if_no_progress apply BusKeeps.mk')

theorem Bus.scrubPass_keeps {z : Bus} {b : Bus} (h : BusKeeps z b)  :
    BusKeeps z (Bus.scrubPass b) := by
  unfold Bus.scrubPass
  repeat' with_reducible first
    | assumption | extract_lets | apply Bus.emit_keeps | apply Bus.bump_keeps | apply BusKeeps.ite | split | dsimp only
    | dsimp +zetaDelta only | (fail_if_no_progress apply BusKeeps.mk')

theorem Bus.ceSummary_keeps {z : Bus} {b : Bus} (h : BusKeeps z b)  :
    BusKeeps z (Bus.ceSummary b) := by
  unfold Bus.ceSummary
  repeat' with_reducible first
    | assumption | extract_lets | apply Bus.emit_keeps | apply BusKeeps.ite | apply BusKeeps.iteFst | split | dsimp only
    | dsimp +zetaDelta only | (fail_if_no_progress apply BusKeeps.mk')

theorem Bus.freeze_keeps {z : Bus} {b : Bus} {r : BReg} {i : ℕ} {j : ℕ} (h : BusKeeps z b)  :
    BusKeeps z (Bus.freeze b r i j) := by
  unfold Bus.freeze
  repeat' with_reducible first
    | assumption | (fail_if_no_progress apply BusKeeps.mk')

theorem Bus.thaw_keeps {z : Bus} {b : Bus} {r : BReg} {i : ℕ} {j : ℕ} (h : BusKeeps z b)  :
    BusKeeps z (Bus.thaw b r i j) := by
  unfold Bus.thaw
  repeat' with_reducible first
    | assumption | (fail_if_no_progress apply BusKeeps.mk')

theorem Bus.answer_keeps {z : Bus} {b : Bus} {port : ℕ} {v : Word} (h : BusKeeps z b)  :
    BusKeeps z (Bus.answer b port v) := by
  unfold Bus.answer
  repeat' with_reducible first
    | assumption | apply Bus.send_keeps

theorem Bus.memBytesRead_keeps {z : Bus} {b : Bus} {port : ℕ} {stack : ℕ} {high : Bool} (h : BusKeeps z b)  :
    BusKeeps z (Bus.memBytesRead b port stack high) := by
  unfold Bus.memBytesRead
  repeat' with_reducible first
    | assumption | extract_lets | apply Bus.thaw_keeps | apply Bus.answer_keeps | apply Bus.freeze_keeps | apply BusKeeps.ite

theorem Bus.stackReading_keeps {z : Bus} {b : Bus} {stack : ℕ} {t : ℤ} (h : BusKeeps z b)  :
    BusKeeps z (Bus.stackReading b stack t) := by
  unfold Bus.stackReading
  repeat' with_reducible first
    | assumption | extract_lets | apply Bus.emit_keeps | apply Bus.setFld_keeps | apply Bus.setReg_keeps | apply BusKeeps.ite
    | apply BusKeeps.iteFst | split | dsimp only | dsimp +zetaDelta only | (fail_if_no_progress apply BusKeeps.mk')

theorem Bus.memFailed_keeps {z : Bus} {b : Bus} {stack : ℕ} {pc : ℕ} {step : ℕ} (h : BusKeeps z b)  :
    BusKeeps z (Bus.memFailed b stack pc step) := by
  unfold Bus.memFailed
  repeat' with_reducible first
    | assumption | apply Bus.emit_keeps | apply Bus.setFld_keeps

theorem Bus.memStart_keeps {z : Bus} {b : Bus} {t0 : ℤ} {t1 : ℤ} (h : BusKeeps z b)  :
    BusKeeps z (Bus.memStart b t0 t1) := by
  unfold Bus.memStart
  repeat' with_reducible first
    | assumption | extract_lets | apply Bus.setFld_keeps | apply BusKeeps.ite | split | dsimp only | dsimp +zetaDelta only
    | (fail_if_no_progress apply BusKeeps.mk')

theorem Bus.warmed_keeps {z : Bus} {b : Bus} {t0 : ℤ} {t1 : ℤ} (h : BusKeeps z b)  :
    BusKeeps z (Bus.warmed b t0 t1) := by
  unfold Bus.warmed
  repeat' with_reducible first
    | assumption | extract_lets | apply Bus.setFld_keeps | apply BusKeeps.ite | split | dsimp only | dsimp +zetaDelta only
    | (fail_if_no_progress apply BusKeeps.mk')

theorem Bus.trainFailed_keeps {z : Bus} {b : Bus} {pc : ℕ} {step : ℕ} (h : BusKeeps z b)  :
    BusKeeps z (Bus.trainFailed b pc step) := by
  unfold Bus.trainFailed
  repeat' with_reducible first
    | assumption | apply Bus.memFailed_keeps | apply Bus.setFld_keeps

theorem Bus.trained_keeps {z : Bus} {b : Bus} {fullSearch : Bool} {repairs : List (ℕ × ℕ)} (h : BusKeeps z b)  :
    BusKeeps z (Bus.trained b fullSearch repairs) := by
  unfold Bus.trained
  repeat' with_reducible first
    | assumption | intro _ | extract_lets | apply Bus.setFld_keeps | apply Bus.emit_keeps | apply BusKeeps.foldl
    | apply BusKeeps.foldlFst | dsimp +zetaDelta only | (fail_if_no_progress apply BusKeeps.mk')

theorem Bus.zeroParts_keeps {z : Bus} {b : Bus} (h : BusKeeps z b)  :
    BusKeeps z (Bus.zeroParts b) := by
  unfold Bus.zeroParts
  repeat' with_reducible first
    | assumption | intro _ | extract_lets | apply BusKeeps.put | apply BusKeeps.drop

theorem Bus.eyeDrift_keeps {z : Bus} {b : Bus} {low : List ℕ} (h : BusKeeps z b)  :
    BusKeeps z (Bus.eyeDrift b low) := by
  unfold Bus.eyeDrift
  repeat' with_reducible first
    | assumption | intro _ | extract_lets | apply BusKeeps.ite | apply BusKeeps.iteFst | split | dsimp only
    | dsimp +zetaDelta only | (fail_if_no_progress apply BusKeeps.mk')

theorem Bus.retrained_keeps {z : Bus} {b : Bus} {pc : ℕ} {ok : Bool} (h : BusKeeps z b)  :
    BusKeeps z (Bus.retrained b pc ok) := by
  unfold Bus.retrained
  repeat' with_reducible first
    | assumption | extract_lets | apply Bus.emit_keeps | apply Bus.setFld_keeps | apply BusKeeps.ite
    | refine BusKeeps.ofPair ?_ ‹_› | split | dsimp only | dsimp +zetaDelta only | (fail_if_no_progress apply BusKeeps.mk')

theorem execMemoryRead_keeps {z : State} {m : ℕ} {a : ℕ} {n : ℕ} {ce : ℕ} {ue : Bool} {s : State} (h : Keeps z s)  :
    AnswerKeeps z (execMemoryRead m a n ce ue s) := by
  unfold execMemoryRead
  repeat' with_reducible first
    | assumption | apply State.fabric_keeps | apply memoryRead_keeps

theorem execMemoryWrite_keeps {z : State} {m : ℕ} {a : ℕ} {data : List Byte} {s : State} (h : Keeps z s)  :
    AnswerKeeps z (execMemoryWrite m a data s) := by
  unfold execMemoryWrite
  repeat' with_reducible first
    | assumption | apply State.fabric_keeps | apply memoryWrite_keeps

theorem execScrubRead_keeps {z : State} {result : ℕ} {s : State} (h : Keeps z s)  :
    AnswerKeeps z (execScrubRead result s) := by
  unfold execScrubRead
  repeat' with_reducible first
    | assumption | intro _ | exact BusKeeps.refl _ | apply State.fabric_keeps | apply State.onBus_keeps
    | apply Bus.scrubRead_keeps

theorem execScrubPass_keeps {z : State} {s : State} (h : Keeps z s)  :
    AnswerKeeps z (execScrubPass s) := by
  unfold execScrubPass
  repeat' with_reducible first
    | assumption | intro _ | exact BusKeeps.refl _ | apply State.fabric_keeps | apply State.onBus_keeps
    | apply Bus.scrubPass_keeps

theorem execCeSummary_keeps {z : State} {s : State} (h : Keeps z s)  :
    AnswerKeeps z (execCeSummary s) := by
  unfold execCeSummary
  repeat' with_reducible first
    | assumption | intro _ | exact BusKeeps.refl _ | apply State.fabric_keeps | apply State.onBus_keeps
    | apply Bus.ceSummary_keeps

theorem execMemBytesRead_keeps {z : State} {port : ℕ} {stack : ℕ} {high : Bool} {s : State} (h : Keeps z s)  :
    AnswerKeeps z (execMemBytesRead port stack high s) := by
  unfold execMemBytesRead
  repeat' with_reducible first
    | assumption | intro _ | exact BusKeeps.refl _ | apply State.fabric_keeps | apply State.onBus_keeps
    | apply Bus.memBytesRead_keeps

theorem execEyeDriftCheck_keeps {z : State} {low : List ℕ} {s : State} (h : Keeps z s)  :
    AnswerKeeps z (execEyeDriftCheck low s) := by
  unfold execEyeDriftCheck
  repeat' with_reducible first
    | assumption | intro _ | exact BusKeeps.refl _ | apply State.fabric_keeps | apply State.onBus_keeps
    | apply Bus.eyeDrift_keeps

end Sys2Proof.Machine
end

