-- ==== Sys2Proof/Laws/KeepsAccess.lean ====
section
/-! SUPPORT. What the operations and commands of Machine/Access.lean keep: one law each. -/

namespace Sys2Proof.Machine

theorem Bus.accFlag_keeps {z : Bus} {b : Bus} {m : ℕ} {i : ℕ} (h : BusKeeps z b)  :
    BusKeeps z (Bus.accFlag b m i) := by
  unfold Bus.accFlag
  repeat' with_reducible first
    | assumption | apply Bus.setFld_keeps

theorem Bus.lockedWrite_keeps {z : Bus} {b : Bus} {m : ℕ} {r : ℕ} (h : BusKeeps z b)  :
    BusKeeps z (Bus.lockedWrite b m r) := by
  unfold Bus.lockedWrite
  repeat' with_reducible first
    | assumption | apply Bus.emit_keeps | apply Bus.accFlag_keeps

theorem Bus.regionUpdate_keeps {z : Bus} {b : Bus} {m : ℕ} {r : ℕ} {v : Word} (h : BusKeeps z b)  :
    BusKeeps z (Bus.regionUpdate b m r v) := by
  unfold Bus.regionUpdate
  repeat' with_reducible first
    | assumption | intro _ | extract_lets | apply Bus.lockedWrite_keeps | apply Bus.accFlag_keeps | apply Bus.emit_keeps
    | apply Bus.setPair_keeps | apply Bus.setReg_keeps | apply Bus.setFld_keeps | apply Bus.setAcc_keeps | apply BusKeeps.ite
    | apply BusKeeps.iteFst | refine BusKeeps.ofPair ?_ ‹_› | split

theorem Bus.regionHalf_keeps {z : Bus} {b : Bus} {m : ℕ} {r : ℕ} {q : ℕ} {v : Word} (h : BusKeeps z b)  :
    BusKeeps z (Bus.regionHalf b m r q v) := by
  unfold Bus.regionHalf
  repeat' with_reducible first
    | assumption | extract_lets | apply Bus.lockedWrite_keeps | apply Bus.setAcc_keeps | apply BusKeeps.ite

theorem Bus.accSync_keeps {z : Bus} {b : Bus} {m : ℕ} {token : ℕ} (h : BusKeeps z b)  :
    BusKeeps z (Bus.accSync b m token) := by
  unfold Bus.accSync
  repeat' with_reducible first
    | assumption | extract_lets | apply Bus.setFld_keeps | apply Bus.setAcc_keeps

theorem Bus.syncDone_keeps {z : Bus} {b : Bus} {m : ℕ} (h : BusKeeps z b)  :
    BusKeeps z (Bus.syncDone b m) := by
  unfold Bus.syncDone
  repeat' with_reducible first
    | assumption | intro _ | extract_lets | apply Bus.retire_keeps | apply Bus.setAcc_keeps | apply Bus.setReg_keeps
    | apply Bus.emit_keeps | apply BusKeeps.ite | apply BusKeeps.foldl | apply BusKeeps.foldlFst
    | refine BusKeeps.ofPair ?_ ‹_› | split | dsimp only | dsimp +zetaDelta only | (fail_if_no_progress apply BusKeeps.mk')

theorem Bus.noticeClose_keeps {z : Bus} {b : Bus} {m : ℕ} {write : Bool} (h : BusKeeps z b)  :
    BusKeeps z (Bus.noticeClose b m write) := by
  unfold Bus.noticeClose
  repeat' with_reducible first
    | assumption | intro _ | extract_lets | apply Bus.emit_keeps | apply Bus.setAcc_keeps | apply BusKeeps.ite
    | refine BusKeeps.ofPair ?_ ‹_› | split

theorem execSyncDone_keeps {z : State} {m : ℕ} {s : State} (h : Keeps z s)  :
    AnswerKeeps z (execSyncDone m s) := by
  unfold execSyncDone
  repeat' with_reducible first
    | assumption | intro _ | exact BusKeeps.refl _ | apply State.fabric_keeps | apply State.onBus_keeps
    | apply Bus.syncDone_keeps

theorem execNoticeWindowClose_keeps {z : State} {m : ℕ} {write : Bool} {s : State} (h : Keeps z s)  :
    AnswerKeeps z (execNoticeWindowClose m write s) := by
  unfold execNoticeWindowClose
  repeat' with_reducible first
    | assumption | intro _ | exact BusKeeps.refl _ | apply State.fabric_keeps | apply State.onBus_keeps
    | apply Bus.noticeClose_keeps

end Sys2Proof.Machine
end

