-- ==== Sys2Proof/Laws/KeepsRings.lean ====
section
/-! SUPPORT. What the operations and commands of Machine/Rings.lean keep: one law each. -/

namespace Sys2Proof.Machine

theorem State.regWriteRec_keeps {z : State} {s : State} {port : ℕ} {cap : ℕ} {inst : ℕ} {blk : ℕ} {off : ℕ} {v : Word} (h : Keeps z s)  :
    Keeps z (State.regWriteRec s port cap inst blk off v) := by
  unfold State.regWriteRec
  repeat' with_reducible first
    | assumption | apply State.journal_keeps | apply Keeps.ite

theorem State.hostReach_keeps {z : State} {s : State} {port : ℕ} {cap : ℕ} {inst : ℕ} {f : State → State} (h : Keeps z s) (hf : ∀ y0, Keeps z y0 → Keeps z (f y0)) :
    Keeps z (State.hostReach s port cap inst f) := by
  unfold State.hostReach
  repeat' with_reducible first
    | assumption | intro _ | exact BusKeeps.refl _ | apply State.onBus_keeps | apply Bus.bump_keeps | apply Keeps.ite
    | apply hf

theorem State.hostWrite_keeps {z : State} {s : State} {port : ℕ} {cap : ℕ} {inst : ℕ} {blk : ℕ} {off : ℕ} {v : Word} {f : State → State} (h : Keeps z s) (hf : ∀ y0, Keeps z y0 → Keeps z (f y0)) :
    Keeps z (State.hostWrite s port cap inst blk off v f) := by
  unfold State.hostWrite
  repeat' with_reducible first
    | assumption | intro _ | apply State.hostReach_keeps | apply State.regWriteRec_keeps | apply hf

theorem State.notOwner_keeps {z : State} {s : State} {port : ℕ} (h : Keeps z s)  :
    Keeps z (State.notOwner s port) := by
  unfold State.notOwner
  repeat' with_reducible first
    | assumption | intro _ | exact BusKeeps.refl _ | apply State.onBus_keeps | apply Bus.bump_keeps

theorem done_keeps {z : State} {s : State} {status : ℕ} {reason : optParam ℕ 0} (h : Keeps z s)  :
    Keeps z (done s status reason).1 := by
  unfold done
  repeat' with_reducible first
    | assumption

theorem checked_keeps {z : State} {cap : ℕ} {objOk : Bool} {argsOk : Bool} {offOk : Bool} {e : FEntry} {s : State} {f : State → State × Option (ℕ × ℕ)} (h : Keeps z s) (hf : ∀ y0, Keeps z y0 → Keeps z (f y0).1) :
    Keeps z (checked cap objOk argsOk offOk e s f).1 := by
  unfold checked
  repeat' with_reducible first
    | assumption | intro _ | apply done_keeps | apply Keeps.ite | apply Keeps.iteFst | apply hf

theorem State.complete_keeps {z : State} {s : State} {r : ℕ} {k : ℕ} {status : ℕ} {reason : ℕ} (h : Keeps z s)  :
    Keeps z (State.complete s r k status reason) := by
  unfold State.complete
  repeat' with_reducible first
    | assumption | intro _ | exact BusKeeps.refl _ | apply State.onBus_keeps | apply Bus.complete_keeps

theorem State.commandRec_keeps {z : State} {s : State} {r : ℕ} {e : FEntry} (h : Keeps z s)  :
    Keeps z (State.commandRec s r e) := by
  unfold State.commandRec
  repeat' with_reducible first
    | assumption | apply State.journal_keeps

theorem State.begun_keeps {z : State} {s : State} {r : ℕ} {e : FEntry} (h : Keeps z s)  :
    Keeps z (State.begun s r e) := by
  unfold State.begun
  repeat' with_reducible first
    | assumption | intro _ | exact BusKeeps.refl _ | apply State.onBus_keeps | apply State.commandRec_keeps
    | apply Bus.stalled_keeps | apply Bus.setPhase_keeps

theorem State.perform_keeps {z : State} {s : State} {r : ℕ} {e : FEntry} {p : Perf} (h : Keeps z s) (hp : ∀ y0 y1 y2 y3, Keeps z y3 → Keeps z (p y0 y1 y2 y3).1) :
    Keeps z (State.perform s r e p) := by
  unfold State.perform
  repeat' with_reducible first
    | assumption | intro _ | extract_lets | exact BusKeeps.refl _ | apply State.begun_keeps | apply State.complete_keeps
    | apply Keeps.ite | refine Keeps.ofPair ?_ ‹_› | apply hp | split

theorem State.runCmd_keeps {z : State} {s : State} {op : ℕ} {p : Perf} {r : ℕ} {k : ℕ} (h : Keeps z s) (hp : ∀ y0 y1 y2 y3, Keeps z y3 → Keeps z (p y0 y1 y2 y3).1) :
    Keeps z (State.runCmd s op p r k) := by
  unfold State.runCmd
  repeat' with_reducible first
    | assumption | intro _ | exact BusKeeps.refl _ | apply State.perform_keeps | apply Keeps.ite | refine Keeps.ofPair ?_ ‹_›
    | apply hp | split

theorem State.abortRunning_keeps {z : State} {s : State} {cap : ℕ} {inst : ℕ} (h : Keeps z s)  :
    Keeps z (State.abortRunning s cap inst) := by
  unfold State.abortRunning
  repeat' with_reducible first
    | assumption | intro _ | exact BusKeeps.refl _ | apply State.complete_keeps | apply Keeps.forEach

theorem State.fetch_keeps {z : State} {s : State} {host : ℕ} {r : ℕ} {k : ℕ} (h : Keeps z s)  :
    Keeps z (State.fetch s host r k) := by
  unfold State.fetch
  repeat' with_reducible first
    | assumption | intro _ | extract_lets | exact BusKeeps.refl _ | apply State.load_keeps | apply State.onBus_keeps
    | apply Bus.ringFault_keeps | apply Bus.stalled_keeps | apply Bus.setRing_keeps | apply State.perform_keeps
    | apply done_keeps | apply Keeps.ite | refine Keeps.ofPair ?_ ‹_› | split

theorem State.fetchUpTo_keeps {z s : State} {n host r : Nat} (h : Keeps z s) : Keeps z (State.fetchUpTo n s host r) := by
  induction n generalizing s with
  | zero => exact h
  | succ n ih =>
    unfold State.fetchUpTo
    exact Keeps.ite h (ih (State.fetch_keeps h))

theorem State.doorbell_keeps {z : State} {s : State} {port : ℕ} {r : ℕ} {v : Word} (h : Keeps z s)  :
    Keeps z (State.doorbell s port r v) := by
  unfold State.doorbell
  repeat' with_reducible first
    | assumption | intro _ | extract_lets | exact BusKeeps.refl _ | apply State.hostReach_keeps
    | apply State.regWriteRec_keeps | apply State.notOwner_keeps | apply State.onBus_keeps | apply Bus.setFld_keeps
    | apply Bus.ringStop_keeps | apply State.emit_keeps | apply Bus.setReg_keeps | apply State.fetchUpTo_keeps
    | apply Keeps.ite

theorem State.consWrite_keeps {z : State} {s : State} {port : ℕ} {r : ℕ} {v : Word} (h : Keeps z s)  :
    Keeps z (State.consWrite s port r v) := by
  unfold State.consWrite
  repeat' with_reducible first
    | assumption | intro _ | extract_lets | exact BusKeeps.refl _ | apply State.hostReach_keeps
    | apply State.regWriteRec_keeps | apply State.notOwner_keeps | apply State.onBus_keeps | apply Bus.setReg_keeps
    | apply Bus.flushAll_keeps | apply Keeps.ite

theorem State.timeOut_keeps {z : State} {s : State} {r : ℕ} {e : FEntry} (h : Keeps z s)  :
    Keeps z (State.timeOut s r e) := by
  unfold State.timeOut
  repeat' with_reducible first
    | assumption | apply State.complete_keeps | apply State.emit_keeps

theorem State.waitLimitWrite_keeps {z : State} {s : State} {port : ℕ} {r : ℕ} {v : Word} (h : Keeps z s)  :
    Keeps z (State.waitLimitWrite s port r v) := by
  unfold State.waitLimitWrite
  repeat' with_reducible first
    | assumption | intro _ | extract_lets | exact BusKeeps.refl _ | apply State.hostWrite_keeps | apply State.notOwner_keeps
    | apply State.onBus_keeps | apply Bus.bump_keeps | apply Bus.setReg_keeps | apply State.timeOut_keeps | apply Keeps.ite
    | apply Keeps.forEach

theorem State.fenceTimeout_keeps {z : State} {s : State} {r : ℕ} {k : ℕ} (h : Keeps z s)  :
    Keeps z (State.fenceTimeout s r k) := by
  unfold State.fenceTimeout
  repeat' with_reducible first
    | assumption | exact BusKeeps.refl _ | apply State.timeOut_keeps | apply Keeps.ite | refine Keeps.ofPair ?_ ‹_› | split

theorem nop_keeps {z : State} {x0 : ℕ} {x1 : ℕ} {x2 : FEntry} {x3 : State} (h : Keeps z x3)  :
    Keeps z (nop x0 x1 x2 x3).1 := by
  unfold nop
  repeat' with_reducible first
    | assumption | intro _ | apply checked_keeps | apply done_keeps

theorem State.barrier_keeps {z : State} {s : State} {port : ℕ} {v : Word} (h : Keeps z s)  :
    Keeps z (State.barrier s port v) := by
  unfold State.barrier
  repeat' with_reducible first
    | assumption | intro _ | extract_lets | exact BusKeeps.refl _ | apply State.hostWrite_keeps | apply State.onBus_keeps
    | apply Bus.setFld_keeps | apply Bus.setHost_keeps

theorem State.barrierDone_keeps {z : State} {s : State} {port : ℕ} (h : Keeps z s)  :
    Keeps z (State.barrierDone s port) := by
  unfold State.barrierDone
  repeat' with_reducible first
    | assumption | intro _ | extract_lets | exact BusKeeps.refl _ | apply State.onBus_keeps | apply Bus.setReg_keeps
    | apply Bus.setHost_keeps | apply Keeps.ite | refine Keeps.ofPair ?_ ‹_› | split

theorem State.fenceSignalWrite_keeps {z : State} {s : State} {port : ℕ} {obj : ℕ} {hi : Word} (h : Keeps z s)  :
    Keeps z (State.fenceSignalWrite s port obj hi) := by
  unfold State.fenceSignalWrite
  repeat' with_reducible first
    | assumption | intro _ | extract_lets | exact BusKeeps.refl _ | apply State.hostWrite_keeps | apply State.notOwner_keeps
    | apply State.onBus_keeps | apply Bus.fenceSignal_keeps | apply Keeps.ite

theorem State.fenceValueRead_keeps {z : State} {s : State} {port : ℕ} {obj : ℕ} {high : Bool} (h : Keeps z s)  :
    Keeps z (State.fenceValueRead s port obj high) := by
  unfold State.fenceValueRead
  repeat' with_reducible first
    | assumption | intro _ | exact BusKeeps.refl _ | apply State.onBus_keeps | apply Bus.thaw_keeps | apply Bus.answer_keeps
    | apply Bus.freeze_keeps | apply Keeps.ite | split

theorem State.holdoffExpiry_keeps {z : State} {s : State} {r : ℕ} (h : Keeps z s)  :
    Keeps z (State.holdoffExpiry s r) := by
  unfold State.holdoffExpiry
  repeat' with_reducible first
    | assumption | intro _ | exact BusKeeps.refl _ | apply State.onBus_keeps | apply Bus.signal_keeps | apply Keeps.ite
    | refine Keeps.ofPair ?_ ‹_› | split

theorem State.ptmDialogue_keeps {z : State} {s : State} {port : ℕ} {enabled : Bool} {hostTime : ℕ} {delay : ℕ} {ok : Bool} (h : Keeps z s)  :
    Keeps z (State.ptmDialogue s port enabled hostTime delay ok) := by
  unfold State.ptmDialogue
  repeat' with_reducible first
    | assumption | intro _ | extract_lets | exact BusKeeps.refl _ | apply State.onBus_keeps | apply Bus.setFld_keeps
    | apply Bus.setHost_keeps | apply Bus.setPair_keeps | apply Bus.setReg_keeps | apply Bus.emit_keeps | apply Keeps.ite
    | refine Keeps.ofPair ?_ ‹_› | split

theorem State.ptmRead_keeps {z : State} {s : State} {port : ℕ} {part : ℕ} (h : Keeps z s)  :
    Keeps z (State.ptmRead s port part) := by
  unfold State.ptmRead
  repeat' with_reducible first
    | assumption | intro _ | extract_lets | exact BusKeeps.refl _ | apply State.onBus_keeps | apply Bus.freeze_keeps
    | apply Bus.answer_keeps | apply Bus.thaw_keeps | apply Keeps.ite | split | apply BusKeeps.ite

theorem State.hostPortReset_keeps {z : State} {s : State} {port : ℕ} (h : Keeps z s)  :
    Keeps z (State.hostPortReset s port) := by
  unfold State.hostPortReset
  repeat' with_reducible first
    | assumption | intro _ | extract_lets | exact BusKeeps.refl _ | apply State.onBus_keeps | apply Bus.ringStop_keeps
    | apply Bus.setHost_keeps | apply Bus.bump_keeps | apply Keeps.ite | apply Keeps.forEach

theorem State.hostPortResetEnd_keeps {z : State} {s : State} {port : ℕ} (h : Keeps z s)  :
    Keeps z (State.hostPortResetEnd s port) := by
  unfold State.hostPortResetEnd
  repeat' with_reducible first
    | assumption | intro _ | exact BusKeeps.refl _ | apply State.onBus_keeps | apply Bus.setHost_keeps

theorem State.badAccess_keeps {z : State} {s : State} {port : ℕ} {write : Bool} (h : Keeps z s)  :
    Keeps z (State.badAccess s port write) := by
  unfold State.badAccess
  repeat' with_reducible first
    | assumption | intro _ | extract_lets | exact BusKeeps.refl _ | apply State.onBus_keeps | apply Bus.bump_keeps
    | apply Bus.send_keeps | apply Keeps.ite | split

theorem State.mwinRead_keeps {z : State} {s : State} {port : ℕ} {off : ℕ} {n : ℕ} (h : Keeps z s)  :
    Keeps z (State.mwinRead s port off n) := by
  unfold State.mwinRead
  repeat' with_reducible first
    | assumption | intro _ | extract_lets | exact BusKeeps.refl _ | apply State.load_keeps | apply State.send_keeps
    | apply State.onBus_keeps | apply Bus.aerLog_keeps | refine Keeps.ofPair ?_ ‹_› | split

theorem State.regionUpdate_keeps {z : State} {s : State} {port : ℕ} {m : ℕ} {r : ℕ} {v : Word} (h : Keeps z s)  :
    Keeps z (State.regionUpdate s port m r v) := by
  unfold State.regionUpdate
  repeat' with_reducible first
    | assumption | intro _ | exact BusKeeps.refl _ | apply State.hostWrite_keeps | apply State.onBus_keeps
    | apply Bus.regionUpdate_keeps | apply Keeps.ite

theorem State.accSync_keeps {z : State} {s : State} {port : ℕ} {m : ℕ} {token : ℕ} (h : Keeps z s)  :
    Keeps z (State.accSync s port m token) := by
  unfold State.accSync
  repeat' with_reducible first
    | assumption | intro _ | exact BusKeeps.refl _ | apply State.hostWrite_keeps | apply State.onBus_keeps
    | apply Bus.accSync_keeps

theorem execNop_keeps {z : State} {r : ℕ} {k : ℕ} {s : State} (h : Keeps z s)  :
    AnswerKeeps z (execNop r k s) := by
  unfold execNop
  repeat' with_reducible first
    | assumption | intro _ | apply State.fabric_keeps | apply State.runCmd_keeps | apply nop_keeps

theorem execHostPortResetEnd_keeps {z : State} {port : ℕ} {s : State} (h : Keeps z s)  :
    AnswerKeeps z (execHostPortResetEnd port s) := by
  unfold execHostPortResetEnd
  repeat' with_reducible first
    | assumption | intro _ | apply State.fabric_keeps | apply State.hostPortResetEnd_keeps

theorem execControlWindowBadAccess_keeps {z : State} {port : ℕ} {write : Bool} {s : State} (h : Keeps z s)  :
    AnswerKeeps z (execControlWindowBadAccess port write s) := by
  unfold execControlWindowBadAccess
  repeat' with_reducible first
    | assumption | intro _ | apply State.window_keeps | apply State.badAccess_keeps

theorem execMemoryWindowRead_keeps {z : State} {port : ℕ} {off : ℕ} {n : ℕ} {s : State} (h : Keeps z s)  :
    AnswerKeeps z (execMemoryWindowRead port off n s) := by
  unfold execMemoryWindowRead
  repeat' with_reducible first
    | assumption | intro _ | apply State.window_keeps | apply State.mwinRead_keeps

theorem execRingDoorbell_keeps {z : State} {port : ℕ} {r : ℕ} {v : Word} {s : State} (h : Keeps z s)  :
    AnswerKeeps z (execRingDoorbell port r v s) := by
  unfold execRingDoorbell
  repeat' with_reducible first
    | assumption | intro _ | apply State.fabric_keeps | apply State.doorbell_keeps

theorem execRingConsWrite_keeps {z : State} {port : ℕ} {r : ℕ} {v : Word} {s : State} (h : Keeps z s)  :
    AnswerKeeps z (execRingConsWrite port r v s) := by
  unfold execRingConsWrite
  repeat' with_reducible first
    | assumption | intro _ | apply State.fabric_keeps | apply State.consWrite_keeps

theorem execRingWaitLimitWrite_keeps {z : State} {port : ℕ} {r : ℕ} {v : Word} {s : State} (h : Keeps z s)  :
    AnswerKeeps z (execRingWaitLimitWrite port r v s) := by
  unfold execRingWaitLimitWrite
  repeat' with_reducible first
    | assumption | intro _ | apply State.fabric_keeps | apply State.waitLimitWrite_keeps

theorem execFenceTimeout_keeps {z : State} {r : ℕ} {k : ℕ} {s : State} (h : Keeps z s)  :
    AnswerKeeps z (execFenceTimeout r k s) := by
  unfold execFenceTimeout
  repeat' with_reducible first
    | assumption | intro _ | apply State.fabric_keeps | apply State.fenceTimeout_keeps

theorem execBarrier_keeps {z : State} {port : ℕ} {v : Word} {s : State} (h : Keeps z s)  :
    AnswerKeeps z (execBarrier port v s) := by
  unfold execBarrier
  repeat' with_reducible first
    | assumption | intro _ | apply State.window_keeps | apply State.barrier_keeps

theorem execBarrierDone_keeps {z : State} {port : ℕ} {s : State} (h : Keeps z s)  :
    AnswerKeeps z (execBarrierDone port s) := by
  unfold execBarrierDone
  repeat' with_reducible first
    | assumption | intro _ | apply State.window_keeps | apply State.barrierDone_keeps

theorem execFenceSignalWrite_keeps {z : State} {port : ℕ} {obj : ℕ} {hi : Word} {s : State} (h : Keeps z s)  :
    AnswerKeeps z (execFenceSignalWrite port obj hi s) := by
  unfold execFenceSignalWrite
  repeat' with_reducible first
    | assumption | intro _ | apply State.fabric_keeps | apply State.fenceSignalWrite_keeps

theorem execFenceValueRead_keeps {z : State} {port : ℕ} {obj : ℕ} {high : Bool} {s : State} (h : Keeps z s)  :
    AnswerKeeps z (execFenceValueRead port obj high s) := by
  unfold execFenceValueRead
  repeat' with_reducible first
    | assumption | intro _ | apply State.fabric_keeps | apply State.fenceValueRead_keeps

theorem execHoldoffExpiry_keeps {z : State} {r : ℕ} {s : State} (h : Keeps z s)  :
    AnswerKeeps z (execHoldoffExpiry r s) := by
  unfold execHoldoffExpiry
  repeat' with_reducible first
    | assumption | intro _ | apply State.fabric_keeps | apply State.holdoffExpiry_keeps

theorem execPtmDialogue_keeps {z : State} {port : ℕ} {enabled : Bool} {hostTime : ℕ} {delay : ℕ} {ok : Bool} {s : State} (h : Keeps z s)  :
    AnswerKeeps z (execPtmDialogue port enabled hostTime delay ok s) := by
  unfold execPtmDialogue
  repeat' with_reducible first
    | assumption | intro _ | apply State.fabric_keeps | apply State.ptmDialogue_keeps

theorem execPtmSnapshotRead_keeps {z : State} {port : ℕ} {part : ℕ} {s : State} (h : Keeps z s)  :
    AnswerKeeps z (execPtmSnapshotRead port part s) := by
  unfold execPtmSnapshotRead
  repeat' with_reducible first
    | assumption | intro _ | apply State.fabric_keeps | apply State.ptmRead_keeps

theorem execRegionUpdate_keeps {z : State} {port : ℕ} {m : ℕ} {r : ℕ} {v : Word} {s : State} (h : Keeps z s)  :
    AnswerKeeps z (execRegionUpdate port m r v s) := by
  unfold execRegionUpdate
  repeat' with_reducible first
    | assumption | intro _ | apply State.fabric_keeps | apply State.regionUpdate_keeps

theorem execAccSync_keeps {z : State} {port : ℕ} {m : ℕ} {token : ℕ} {s : State} (h : Keeps z s)  :
    AnswerKeeps z (execAccSync port m token s) := by
  unfold execAccSync
  repeat' with_reducible first
    | assumption | intro _ | apply State.fabric_keeps | apply State.accSync_keeps

theorem execPerstDeassert_keeps {z : State} {port : ℕ} {s : State} (h : Keeps z s)  :
    AnswerKeeps z (execPerstDeassert port s) := by
  unfold execPerstDeassert
  repeat' with_reducible first
    | assumption | intro _ | exact BusKeeps.refl _ | apply State.warden_keeps | apply State.onBus_keeps
    | apply Bus.setHost_keeps

end Sys2Proof.Machine
end

