-- ==== Sys2Proof/Laws/KeepsLink.lean ====
section
/-! SUPPORT. What the operations and commands of Machine/Link.lean keep: one law each. -/

namespace Sys2Proof.Machine

theorem State.sendMarker_keeps {z : State} {s : State} {p : ℕ} {code : ℕ} {lanes : List ℕ} {block : List Byte} (h : Keeps z s)  :
    Keeps z (State.sendMarker s p code lanes block) := by
  unfold State.sendMarker
  repeat' with_reducible first
    | assumption | intro _ | extract_lets | exact BusKeeps.refl _ | apply State.send_keeps | apply State.setLane_keeps
    | apply Keeps.ite

theorem State.codeError_keeps {z : State} {s : State} {p : ℕ} {lane : ℕ} {n : ℕ} (h : Keeps z s)  :
    Keeps z (State.codeError s p lane n) := by
  unfold State.codeError
  repeat' with_reducible first
    | assumption | intro _ | extract_lets | exact BusKeeps.refl _ | apply State.bump_keeps | apply State.emit_keeps
    | apply State.setLane_keeps | apply Keeps.ite

theorem State.startIdle_keeps {z : State} {s : State} {p : ℕ} (h : Keeps z s)  :
    Keeps z (State.startIdle s p) := by
  unfold State.startIdle
  repeat' with_reducible first
    | assumption | extract_lets | exact BusKeeps.refl _ | apply State.setLink_keeps | apply State.send_keeps
    | apply State.setFld_keeps | apply Keeps.ite

theorem State.putPacket_keeps {z : State} {s : State} {p : ℕ} {typ : ℕ} {flags : ℕ} {stream : ℕ} {alive : ℕ} {stamp : Word} {payload : List Byte} (h : Keeps z s)  :
    Keeps z (State.putPacket s p typ flags stream alive stamp payload) := by
  unfold State.putPacket
  repeat' with_reducible first
    | assumption | intro _ | extract_lets | exact BusKeeps.refl _ | apply State.send_keeps | apply State.setLane_keeps

theorem State.sendItem_keeps {z : State} {s : State} {p : ℕ} {typ : ℕ} {flags : ℕ} {stream : ℕ} {alive : ℕ} {stamp : Word} {payload : List Byte} (h : Keeps z s)  :
    Keeps z (State.sendItem s p typ flags stream alive stamp payload) := by
  unfold State.sendItem
  repeat' with_reducible first
    | assumption | intro _ | extract_lets | exact BusKeeps.refl _ | apply State.setLink_keeps | apply State.putPacket_keeps
    | apply Keeps.ite | apply Keeps.iteFst | apply Keeps.forEach

theorem State.frameCut_keeps {z : State} {s : State} {p : ℕ} (h : Keeps z s)  :
    Keeps z (State.frameCut s p) := by
  unfold State.frameCut
  repeat' with_reducible first
    | assumption | intro _ | extract_lets | exact BusKeeps.refl _ | apply State.sendItem_keeps | apply State.setLink_keeps
    | apply Keeps.forEach

theorem State.stampsSent_keeps {z : State} {s : State} {p : ℕ} (h : Keeps z s)  :
    Keeps z (State.stampsSent s p) := by
  unfold State.stampsSent
  repeat' with_reducible first
    | assumption | exact BusKeeps.refl _ | apply State.setLink_keeps | apply Keeps.ite

theorem State.sendNew_keeps {z : State} {s : State} {p : ℕ} {typ : ℕ} {flags : ℕ} {stream : ℕ} {payload : List Byte} (h : Keeps z s)  :
    Keeps z (State.sendNew s p typ flags stream payload) := by
  unfold State.sendNew
  repeat' with_reducible first
    | assumption | extract_lets | exact BusKeeps.refl _ | apply State.sendItem_keeps | apply State.setLink_keeps
    | apply Keeps.ite

theorem State.control_keeps {z : State} {s : State} {p : ℕ} {code : ℕ} {body : List Byte} (h : Keeps z s)  :
    Keeps z (State.control s p code body) := by
  unfold State.control
  repeat' with_reducible first
    | assumption | apply State.sendNew_keeps

theorem State.sendEpoch_keeps {z : State} {s : State} {p : ℕ} {active : Bool} (h : Keeps z s)  :
    Keeps z (State.sendEpoch s p active) := by
  unfold State.sendEpoch
  repeat' with_reducible first
    | assumption | extract_lets | exact BusKeeps.refl _ | apply State.control_keeps | apply State.setReg_keeps
    | apply State.setLink_keeps

theorem State.sendHold_keeps {z : State} {s : State} {p : ℕ} (h : Keeps z s)  :
    Keeps z (State.sendHold s p) := by
  unfold State.sendHold
  repeat' with_reducible first
    | assumption | extract_lets | exact BusKeeps.refl _ | apply State.setLink_keeps | apply State.control_keeps
    | apply Keeps.ite

theorem State.safe_keeps {z : State} {s : State} {p : ℕ} {reason : ℕ} (h : Keeps z s)  :
    Keeps z (State.safe s p reason) := by
  unfold State.safe
  repeat' with_reducible first
    | assumption | extract_lets | exact BusKeeps.refl _ | apply State.setLink_keeps | apply State.setFld_keeps
    | apply State.control_keeps | apply State.startIdle_keeps | apply State.emit_keeps | apply Keeps.ite

theorem State.safeWire_keeps {z : State} {s : State} {p : ℕ} {reason : ℕ} (h : Keeps z s)  :
    Keeps z (State.safeWire s p reason) := by
  unfold State.safeWire
  repeat' with_reducible first
    | assumption | apply State.safe_keeps | apply State.send_keeps | apply State.setFld_keeps

theorem State.endSafe_keeps {z : State} {s : State} {p : ℕ} (h : Keeps z s)  :
    Keeps z (State.endSafe s p) := by
  unfold State.endSafe
  repeat' with_reducible first
    | assumption | extract_lets | exact BusKeeps.refl _ | apply State.setLink_keeps | apply State.setFld_keeps

theorem State.safeRepeat_keeps {z : State} {s : State} {p : ℕ} (h : Keeps z s)  :
    Keeps z (State.safeRepeat s p) := by
  unfold State.safeRepeat
  repeat' with_reducible first
    | assumption | extract_lets | exact BusKeeps.refl _ | apply State.setLink_keeps | apply State.control_keeps
    | apply Keeps.ite | refine Keeps.ofPair ?_ ‹_› | split

theorem State.epochRepeat_keeps {z : State} {s : State} {p : ℕ} (h : Keeps z s)  :
    Keeps z (State.epochRepeat s p) := by
  unfold State.epochRepeat
  repeat' with_reducible first
    | assumption | apply State.sendEpoch_keeps | apply Keeps.ite

theorem State.linkErrors_keeps {z : State} {s : State} {p : ℕ} {hdr : ℕ} {payl : ℕ} (h : Keeps z s)  :
    Keeps z (State.linkErrors s p hdr payl) := by
  unfold State.linkErrors
  repeat' with_reducible first
    | assumption | extract_lets | exact BusKeeps.refl _ | apply State.emit_keeps | apply State.setLink_keeps
    | apply Keeps.ite

theorem State.linkCull_keeps {z : State} {s : State} {p : ℕ} {stream : ℕ} {alive : ℕ} (h : Keeps z s)  :
    Keeps z (State.linkCull s p stream alive) := by
  unfold State.linkCull
  repeat' with_reducible first
    | assumption | extract_lets | exact BusKeeps.refl _ | apply State.bump_keeps | apply State.emit_keeps
    | apply State.setLink_keeps | apply Keeps.ite

theorem State.arrive_keeps {z : State} {s : State} {p : ℕ} {skew : List ℕ} {lines : List (List Bool)} (h : Keeps z s)  :
    Keeps z (State.arrive s p skew lines).1 := by
  unfold State.arrive
  repeat' with_reducible first
    | assumption | intro _ | extract_lets | exact BusKeeps.refl _ | apply State.setLane_keeps | apply State.bump_keeps
    | apply State.codeError_keeps | apply State.setLink_keeps | apply Keeps.ite | apply Keeps.iteFst | apply Keeps.forEach

theorem State.arrives_keeps {z : State} {s : State} {p : ℕ} {skew : List ℕ} {lines : List (List Bool)} {f : State → Bool → List Byte → State} (h : Keeps z s) (hf : ∀ y0 y1 y2, Keeps z y0 → Keeps z (f y0 y1 y2)) :
    Keeps z (State.arrives s p skew lines f) := by
  unfold State.arrives
  repeat' with_reducible first
    | assumption | intro _ | exact BusKeeps.refl _ | apply State.arrive_keeps | refine Keeps.ofPair ?_ ‹_› | apply hf | split

theorem State.receive_keeps {z : State} {s : State} {p : ℕ} {sync : Bool} {raw : List Byte} (h : Keeps z s)  :
    Keeps z (State.receive s p sync raw).1 := by
  unfold State.receive
  repeat' with_reducible first
    | assumption | extract_lets | exact BusKeeps.refl _ | apply State.setLink_keeps | apply State.bump_keeps
    | apply State.linkErrors_keeps | apply Keeps.ite | apply Keeps.iteFst

theorem State.aliveCheck_keeps {z : State} {s : State} {p : ℕ} {stream : ℕ} {alive : ℕ} (h : Keeps z s)  :
    Keeps z (State.aliveCheck s p stream alive).1 := by
  unfold State.aliveCheck
  repeat' with_reducible first
    | assumption | extract_lets | exact BusKeeps.refl _ | apply State.linkCull_keeps | apply State.setLink_keeps
    | apply State.emit_keeps | apply State.bump_keeps | apply Keeps.ite | apply Keeps.iteFst | refine Keeps.ofPair ?_ ‹_›
    | split

theorem State.receiveItem_keeps {z : State} {s : State} {p : ℕ} {typ : ℕ} {sync : Bool} {raw : List Byte} (h : Keeps z s)  :
    Keeps z (State.receiveItem s p typ sync raw).1 := by
  unfold State.receiveItem
  repeat' with_reducible first
    | assumption | exact BusKeeps.refl _ | apply State.receive_keeps | apply State.aliveCheck_keeps | apply Keeps.ite
    | apply Keeps.iteFst | refine Keeps.ofPair ?_ ‹_› | split

theorem State.rxUnknown_keeps {z : State} {s : State} {p : ℕ} (h : Keeps z s)  :
    Keeps z (State.rxUnknown s p) := by
  unfold State.rxUnknown
  repeat' with_reducible first
    | assumption | apply State.bump_keeps

theorem State.creditTake_keeps {z : State} {s : State} {p : ℕ} {len : ℕ} (h : Keeps z s)  :
    Keeps z (State.creditTake s p len).1 := by
  unfold State.creditTake
  repeat' with_reducible first
    | assumption | extract_lets | exact BusKeeps.refl _ | apply State.emit_keeps | apply State.bump_keeps
    | apply State.setLink_keeps | apply Keeps.ite | apply Keeps.iteFst

theorem State.timeSend_keeps {z : State} {s : State} {p : ℕ} (h : Keeps z s)  :
    Keeps z (State.timeSend s p) := by
  unfold State.timeSend
  repeat' with_reducible first
    | assumption | extract_lets | exact BusKeeps.refl _ | apply State.sendNew_keeps | apply State.setLink_keeps
    | apply Keeps.ite

theorem State.timeEcho_keeps {z : State} {s : State} {p : ℕ} {sync : Bool} {raw : List Byte} (h : Keeps z s)  :
    Keeps z (State.timeEcho s p sync raw) := by
  unfold State.timeEcho
  repeat' with_reducible first
    | assumption | extract_lets | exact BusKeeps.refl _ | apply State.receiveItem_keeps | apply State.rxUnknown_keeps
    | apply State.setLink_keeps | apply State.setFld_keeps | apply State.setReg_keeps | apply Keeps.ite
    | refine Keeps.ofPair ?_ ‹_› | split

theorem State.sendCredit_keeps {z : State} {s : State} {p : ℕ} {limit : ℕ} {stop : Bool} (h : Keeps z s)  :
    Keeps z (State.sendCredit s p limit stop) := by
  unfold State.sendCredit
  repeat' with_reducible first
    | assumption | extract_lets | apply State.setFld_keeps | apply State.setReg_keeps | apply State.sendNew_keeps

theorem State.partnerSilent_keeps {z : State} {s : State} {p : ℕ} (h : Keeps z s)  :
    Keeps z (State.partnerSilent s p) := by
  unfold State.partnerSilent
  repeat' with_reducible first
    | assumption | extract_lets | exact BusKeeps.refl _ | apply State.emit_keeps | apply State.setLink_keeps
    | apply Keeps.ite

theorem State.holdCapWrite_keeps {z : State} {s : State} {host : ℕ} {p : ℕ} {v : Word} (h : Keeps z s)  :
    Keeps z (State.holdCapWrite s host p v) := by
  unfold State.holdCapWrite
  repeat' with_reducible first
    | assumption | intro _ | extract_lets | apply State.hostWrite_keeps | apply State.bump_keeps | apply State.sendHold_keeps
    | apply State.setReg_keeps | apply Keeps.ite

theorem execSafeRepeat_keeps {z : State} {p : ℕ} {s : State} (h : Keeps z s)  :
    AnswerKeeps z (execSafeRepeat p s) := by
  unfold execSafeRepeat
  repeat' with_reducible first
    | assumption | intro _ | apply State.fabric_keeps | apply State.safeRepeat_keeps

theorem execEpochRepeat_keeps {z : State} {p : ℕ} {s : State} (h : Keeps z s)  :
    AnswerKeeps z (execEpochRepeat p s) := by
  unfold execEpochRepeat
  repeat' with_reducible first
    | assumption | intro _ | apply State.fabric_keeps | apply State.epochRepeat_keeps

theorem execTimeSend_keeps {z : State} {p : ℕ} {s : State} (h : Keeps z s)  :
    AnswerKeeps z (execTimeSend p s) := by
  unfold execTimeSend
  repeat' with_reducible first
    | assumption | intro _ | apply State.fabric_keeps | apply State.timeSend_keeps

theorem execTimeEchoRx_keeps {z : State} {p : ℕ} {skew : List ℕ} {lines : List (List Bool)} {s : State} (h : Keeps z s)  :
    AnswerKeeps z (execTimeEchoRx p skew lines s) := by
  unfold execTimeEchoRx
  repeat' with_reducible first
    | assumption | intro _ | apply State.fabric_keeps | apply State.arrives_keeps | apply State.timeEcho_keeps

theorem execPartnerSilent_keeps {z : State} {p : ℕ} {s : State} (h : Keeps z s)  :
    AnswerKeeps z (execPartnerSilent p s) := by
  unfold execPartnerSilent
  repeat' with_reducible first
    | assumption | intro _ | apply State.fabric_keeps | apply State.partnerSilent_keeps

theorem execLinkHoldCapWrite_keeps {z : State} {host : ℕ} {p : ℕ} {v : Word} {s : State} (h : Keeps z s)  :
    AnswerKeeps z (execLinkHoldCapWrite host p v s) := by
  unfold execLinkHoldCapWrite
  repeat' with_reducible first
    | assumption | intro _ | apply State.fabric_keeps | apply State.holdCapWrite_keeps

end Sys2Proof.Machine
end

