-- ==== Sys2Proof/Laws/KeepsLanes.lean ====
section
/-! SUPPORT. What the operations and commands of Machine/Lanes.lean keep: one law each. -/

namespace Sys2Proof.Machine

theorem State.setPortState_keeps {z : State} {s : State} {p : ℕ} {st : ℕ} (h : Keeps z s)  :
    Keeps z (State.setPortState s p st) := by
  unfold State.setPortState
  repeat' with_reducible first
    | assumption | apply State.setFld_keeps

theorem State.sendBlock_keeps {z : State} {s : State} {p : ℕ} {phase : ℕ} {ask : ℕ} (h : Keeps z s)  :
    Keeps z (State.sendBlock s p phase ask) := by
  unfold State.sendBlock
  repeat' with_reducible first
    | assumption | apply State.sendMarker_keeps

theorem State.enterPhase_keeps {z : State} {s : State} {p : ℕ} {ph : ℕ} (h : Keeps z s)  :
    Keeps z (State.enterPhase s p ph) := by
  unfold State.enterPhase
  repeat' with_reducible first
    | assumption | extract_lets | exact BusKeeps.refl _ | apply State.setFld_keeps | apply State.setLane_keeps
    | apply State.sendBlock_keeps

theorem State.startAttempt_keeps {z : State} {s : State} {p : ℕ} {n : ℕ} (h : Keeps z s)  :
    Keeps z (State.startAttempt s p n) := by
  unfold State.startAttempt
  repeat' with_reducible first
    | assumption | extract_lets | exact BusKeeps.refl _ | apply State.setFld_keeps | apply State.setLane_keeps
    | apply State.enterPhase_keeps

theorem State.putFix_keeps {z : State} {s : State} {p : ℕ} {v : Word} (h : Keeps z s)  :
    Keeps z (State.putFix s p v) := by
  unfold State.putFix
  repeat' with_reducible first
    | assumption | intro _ | extract_lets | apply State.setFld_keeps | apply Keeps.ite | apply Keeps.forEach

theorem State.trainOne_keeps {z : State} {s : State} {p : ℕ} {short : Bool} (h : Keeps z s)  :
    Keeps z (State.trainOne s p short) := by
  unfold State.trainOne
  repeat' with_reducible first
    | assumption | extract_lets | exact BusKeeps.refl _ | apply State.setLane_keeps | apply State.setPortState_keeps
    | apply State.setFld_keeps | apply State.putFix_keeps | apply State.startAttempt_keeps | apply Keeps.ite
    | refine Keeps.ofPair ?_ ‹_› | split | dsimp only | dsimp +zetaDelta only

theorem State.startTraining_keeps {z : State} {s : State} {p : ℕ} {short : Bool} (h : Keeps z s)  :
    Keeps z (State.startTraining s p short) := by
  unfold State.startTraining
  repeat' with_reducible first
    | assumption | extract_lets | exact BusKeeps.refl _ | apply State.trainOne_keeps | apply State.bump_keeps
    | apply Keeps.ite | refine Keeps.ofPair ?_ ‹_› | split

theorem State.lowerMate_keeps {z : State} {s : State} {p : ℕ} {r : ℕ} (h : Keeps z s)  :
    Keeps z (State.lowerMate s p r) := by
  unfold State.lowerMate
  repeat' with_reducible first
    | assumption | extract_lets | exact BusKeeps.refl _ | apply State.setLane_keeps | apply State.startAttempt_keeps
    | apply State.trainOne_keeps | apply State.bump_keeps | apply Keeps.ite | refine Keeps.ofPair ?_ ‹_› | split

theorem State.trainingFailed_keeps {z : State} {s : State} {p : ℕ} {byLimit : Bool} (h : Keeps z s)  :
    Keeps z (State.trainingFailed s p byLimit) := by
  unfold State.trainingFailed
  repeat' with_reducible first
    | assumption | extract_lets | exact BusKeeps.refl _ | apply State.setReg_keeps | apply State.setFld_keeps
    | apply State.setPortState_keeps | apply State.emit_keeps | apply State.send_keeps | apply State.setLane_keeps
    | apply State.complete_keeps | refine Keeps.ofPair ?_ ‹_› | split

theorem State.storeEq_keeps {z : State} {s : State} {p : ℕ} (h : Keeps z s)  :
    Keeps z (State.storeEq s p) := by
  unfold State.storeEq
  repeat' with_reducible first
    | assumption | intro _ | extract_lets | exact BusKeeps.refl _ | apply State.setFld_keeps | apply Keeps.ite
    | apply Keeps.iteFst | apply Keeps.forEach | apply Keeps.forEachFst | apply Keeps.foldl | apply Keeps.foldlFst
    | apply BusKeeps.foldl | refine Keeps.ofPair ?_ ‹_› | split

theorem State.takeEqReq_keeps {z : State} {s : State} {p : ℕ} {req : ℕ} (h : Keeps z s)  :
    Keeps z (State.takeEqReq s p req) := by
  unfold State.takeEqReq
  repeat' with_reducible first
    | assumption | intro _ | apply State.setFld_keeps | apply Keeps.ite | apply Keeps.forEach

theorem State.takeMap_keeps {z : State} {s : State} {p : ℕ} {healthy : ℕ} {rate : ℕ} (h : Keeps z s)  :
    Keeps z (State.takeMap s p healthy rate) := by
  unfold State.takeMap
  repeat' with_reducible first
    | assumption | extract_lets | apply State.setFld_keeps

theorem State.returnTo_keeps {z : State} {s : State} {p : ℕ} {kept : ℕ × ℕ} (h : Keeps z s)  :
    Keeps z (State.returnTo s p kept) := by
  unfold State.returnTo
  repeat' with_reducible first
    | assumption | extract_lets | exact BusKeeps.refl _ | apply State.setLane_keeps | apply State.lowerMate_keeps
    | apply State.enterPhase_keeps | apply State.setFld_keeps

theorem State.attemptOver_keeps {z : State} {s : State} {p : ℕ} (h : Keeps z s)  :
    Keeps z (State.attemptOver s p) := by
  unfold State.attemptOver
  repeat' with_reducible first
    | assumption | extract_lets | exact BusKeeps.refl _ | apply State.startTraining_keeps | apply State.trainingFailed_keeps
    | apply State.setLane_keeps | apply State.startAttempt_keeps | apply State.returnTo_keeps | apply Keeps.ite
    | refine Keeps.ofPair ?_ ‹_› | split

theorem State.repairFailed_keeps {z : State} {s : State} {p : ℕ} (h : Keeps z s)  :
    Keeps z (State.repairFailed s p) := by
  unfold State.repairFailed
  repeat' with_reducible first
    | assumption | extract_lets | apply State.emit_keeps | apply State.startTraining_keeps | apply State.bump_keeps

theorem State.phaseFailed_keeps {z : State} {s : State} {p : ℕ} (h : Keeps z s)  :
    Keeps z (State.phaseFailed s p) := by
  unfold State.phaseFailed
  repeat' with_reducible first
    | assumption | apply State.repairFailed_keeps | apply State.attemptOver_keeps | apply Keeps.ite

theorem State.phase4Passed_keeps {z : State} {s : State} {p : ℕ} (h : Keeps z s)  :
    Keeps z (State.phase4Passed s p) := by
  unfold State.phase4Passed
  repeat' with_reducible first
    | assumption | intro _ | extract_lets | exact BusKeeps.refl _ | apply State.enterPhase_keeps | apply State.takeMap_keeps
    | apply State.storeEq_keeps | apply State.setLane_keeps | apply State.lowerMate_keeps | apply State.startAttempt_keeps
    | apply State.returnTo_keeps | apply Keeps.ite | apply Keeps.iteFst | refine Keeps.ofPair ?_ ‹_› | split

theorem State.linkUp_keeps {z : State} {s : State} {p : ℕ} (h : Keeps z s)  :
    Keeps z (State.linkUp s p) := by
  unfold State.linkUp
  repeat' with_reducible first
    | assumption | intro _ | extract_lets | exact BusKeeps.refl _ | apply State.setFld_keeps | apply State.setPortState_keeps
    | apply State.setReg_keeps | apply State.emit_keeps | apply State.setLink_keeps | apply State.onBus_keeps
    | apply Bus.enter_keeps | apply State.setLane_keeps | apply State.safe_keeps | apply State.complete_keeps
    | apply Keeps.ite | refine Keeps.ofPair ?_ ‹_› | split | apply BusKeeps.ite | dsimp only | dsimp +zetaDelta only

theorem State.nextPhase_keeps {z : State} {s : State} {p : ℕ} (h : Keeps z s)  :
    Keeps z (State.nextPhase s p) := by
  unfold State.nextPhase
  repeat' with_reducible first
    | assumption | extract_lets | exact BusKeeps.refl _ | apply State.enterPhase_keeps | apply State.phase4Passed_keeps
    | apply State.setLane_keeps | apply State.linkUp_keeps | apply State.lowerMate_keeps | apply State.setFld_keeps
    | apply Keeps.ite | refine Keeps.ofPair ?_ ‹_› | split | dsimp only | dsimp +zetaDelta only

theorem State.blockRx_keeps {z : State} {s : State} {p : ℕ} {lane : ℕ} {t : TrainBlock} {obs : LaneObs} (h : Keeps z s)  :
    Keeps z (State.blockRx s p lane t obs) := by
  unfold State.blockRx
  repeat' with_reducible first
    | assumption | intro _ | extract_lets | exact BusKeeps.refl _ | apply State.startAttempt_keeps
    | apply State.enterPhase_keeps | apply State.setFld_keeps | apply State.setLane_keeps | apply State.nextPhase_keeps
    | apply State.phaseFailed_keeps | apply State.takeEqReq_keeps | apply State.sendBlock_keeps | apply Keeps.ite
    | refine Keeps.ofPair ?_ ‹_› | split | dsimp only | dsimp +zetaDelta only

theorem State.markBlock_keeps {z : State} {s : State} {p : ℕ} {lane : ℕ} {code : ℕ} {bits : List Bool} (h : Keeps z s)  :
    Keeps z (State.markBlock s p lane code bits).1 := by
  unfold State.markBlock
  repeat' with_reducible first
    | assumption | extract_lets | exact BusKeeps.refl _ | apply State.bump_keeps | apply State.codeError_keeps
    | apply Keeps.ite | apply Keeps.iteFst | refine Keeps.ofPair ?_ ‹_› | split

theorem State.trainBlockRx_keeps {z : State} {s : State} {p : ℕ} {lane : ℕ} {bits : List Bool} {obs : LaneObs} (h : Keeps z s)  :
    Keeps z (State.trainBlockRx s p lane bits obs) := by
  unfold State.trainBlockRx
  repeat' with_reducible first
    | assumption | extract_lets | exact BusKeeps.refl _ | apply State.markBlock_keeps | apply State.setLane_keeps
    | apply State.setReg_keeps | apply State.setFld_keeps | apply State.phaseFailed_keeps | apply State.blockRx_keeps
    | apply Keeps.ite | refine Keeps.ofPair ?_ ‹_› | split

theorem State.trainingStart_keeps {z : State} {s : State} {p : ℕ} (h : Keeps z s)  :
    Keeps z (State.trainingStart s p) := by
  unfold State.trainingStart
  repeat' with_reducible first
    | assumption | apply State.startTraining_keeps | apply Keeps.ite

theorem State.phaseTimeout_keeps {z : State} {s : State} {p : ℕ} (h : Keeps z s)  :
    Keeps z (State.phaseTimeout s p) := by
  unfold State.phaseTimeout
  repeat' with_reducible first
    | assumption | extract_lets | apply State.phaseFailed_keeps | apply Keeps.ite

theorem State.trainingLimit_keeps {z : State} {s : State} {p : ℕ} (h : Keeps z s)  :
    Keeps z (State.trainingLimit s p) := by
  unfold State.trainingLimit
  repeat' with_reducible first
    | assumption | apply State.startTraining_keeps | apply State.trainingFailed_keeps | apply Keeps.ite

theorem State.trainingRetry_keeps {z : State} {s : State} {p : ℕ} (h : Keeps z s)  :
    Keeps z (State.trainingRetry s p) := by
  unfold State.trainingRetry
  repeat' with_reducible first
    | assumption | exact BusKeeps.refl _ | apply State.startTraining_keeps | apply Keeps.ite | refine Keeps.ofPair ?_ ‹_›
    | split

theorem State.linkDown_keeps {z : State} {s : State} {p : ℕ} {lanes : ℕ} {ck : Bool} {bk : Bool} (h : Keeps z s)  :
    Keeps z (State.linkDown s p lanes ck bk) := by
  unfold State.linkDown
  repeat' with_reducible first
    | assumption | extract_lets | apply State.emit_keeps | apply State.bump_keeps | apply State.setFld_keeps
    | apply State.startTraining_keeps | apply Keeps.ite

theorem State.startRepair_keeps {z : State} {s : State} {p : ℕ} (h : Keeps z s)  :
    Keeps z (State.startRepair s p) := by
  unfold State.startRepair
  repeat' with_reducible first
    | assumption | extract_lets | exact BusKeeps.refl _ | apply State.setLane_keeps | apply State.setPortState_keeps
    | apply State.enterPhase_keeps

theorem State.sendLaneFault_keeps {z : State} {s : State} {p : ℕ} (h : Keeps z s)  :
    Keeps z (State.sendLaneFault s p) := by
  unfold State.sendLaneFault
  repeat' with_reducible first
    | assumption | extract_lets | exact BusKeeps.refl _ | apply State.sendMarker_keeps

theorem State.laneLost_keeps {z : State} {s : State} {p : ℕ} {lane : ℕ} {cause : ℕ} (h : Keeps z s)  :
    Keeps z (State.laneLost s p lane cause) := by
  unfold State.laneLost
  repeat' with_reducible first
    | assumption | extract_lets | apply State.setFld_keeps | apply State.emit_keeps | apply State.bump_keeps
    | apply State.sendLaneFault_keeps | apply State.linkDown_keeps | apply State.startRepair_keeps | apply Keeps.ite

theorem State.laneLoss_keeps {z : State} {s : State} {p : ℕ} {lane : ℕ} {test : LossTest} (h : Keeps z s)  :
    Keeps z (State.laneLoss s p lane test) := by
  unfold State.laneLoss
  repeat' with_reducible first
    | assumption | extract_lets | exact BusKeeps.refl _ | apply State.codeError_keeps | apply State.linkDown_keeps
    | apply State.laneLost_keeps | apply Keeps.ite | refine Keeps.ofPair ?_ ‹_› | split | dsimp only | dsimp +zetaDelta only

theorem State.laneFaultRx_keeps {z : State} {s : State} {p : ℕ} {bits : List Bool} (h : Keeps z s)  :
    Keeps z (State.laneFaultRx s p bits) := by
  unfold State.laneFaultRx
  repeat' with_reducible first
    | assumption | intro _ | extract_lets | exact BusKeeps.refl _ | apply State.markBlock_keeps | apply State.laneLost_keeps
    | apply Keeps.ite | apply Keeps.forEach | refine Keeps.ofPair ?_ ‹_› | split

theorem State.safeIfDue_keeps {z : State} {s : State} {p : ℕ} (h : Keeps z s)  :
    Keeps z (State.safeIfDue s p) := by
  unfold State.safeIfDue
  repeat' with_reducible first
    | assumption | exact BusKeeps.refl _ | apply State.safe_keeps | apply Keeps.ite | refine Keeps.ofPair ?_ ‹_› | split

theorem State.repairDone_keeps {z : State} {s : State} {p : ℕ} (h : Keeps z s)  :
    Keeps z (State.repairDone s p) := by
  unfold State.repairDone
  repeat' with_reducible first
    | assumption | extract_lets | exact BusKeeps.refl _ | apply State.setFld_keeps | apply State.setPortState_keeps
    | apply State.setLane_keeps | apply State.emit_keeps | apply State.safeIfDue_keeps | apply Keeps.ite

theorem State.repairTimeout_keeps {z : State} {s : State} {p : ℕ} (h : Keeps z s)  :
    Keeps z (State.repairTimeout s p) := by
  unfold State.repairTimeout
  repeat' with_reducible first
    | assumption | apply State.repairFailed_keeps | apply Keeps.ite

theorem State.txIslandLoss_keeps {z : State} {s : State} {p : ℕ} (h : Keeps z s)  :
    Keeps z (State.txIslandLoss s p) := by
  unfold State.txIslandLoss
  repeat' with_reducible first
    | assumption | exact BusKeeps.refl _ | apply State.send_keeps | apply State.setLane_keeps

theorem retrain_keeps {z : State} {x0 : ℕ} {x1 : ℕ} {x2 : FEntry} {x3 : State} (h : Keeps z x3)  :
    Keeps z (retrain x0 x1 x2 x3).1 := by
  unfold retrain
  repeat' with_reducible first
    | assumption | intro _ | extract_lets | exact BusKeeps.refl _ | apply checked_keeps | apply done_keeps
    | apply State.bump_keeps | apply State.startTraining_keeps | apply State.setLane_keeps | apply Keeps.ite | split

theorem State.portExit_keeps {z : State} {s : State} {p : ℕ} (h : Keeps z s)  :
    Keeps z (State.portExit s p) := by
  unfold State.portExit
  repeat' with_reducible first
    | assumption | extract_lets | exact BusKeeps.refl _ | apply State.setLane_keeps | apply State.startTraining_keeps
    | apply Keeps.ite

theorem power_keeps {z : State} {x0 : ℕ} {x1 : ℕ} {x2 : FEntry} {x3 : State} (h : Keeps z x3)  :
    Keeps z (power x0 x1 x2 x3).1 := by
  unfold power
  repeat' with_reducible first
    | assumption | intro _ | extract_lets | exact BusKeeps.refl _ | apply checked_keeps | apply done_keeps
    | apply State.portExit_keeps | apply State.setLane_keeps | apply Keeps.ite | split

theorem State.powerReached_keeps {z : State} {s : State} {p : ℕ} {st : ℕ} (h : Keeps z s)  :
    Keeps z (State.powerReached s p st) := by
  unfold State.powerReached
  repeat' with_reducible first
    | assumption | extract_lets | exact BusKeeps.refl _ | apply State.emit_keeps | apply State.setPortState_keeps
    | apply State.complete_keeps | apply State.setLane_keeps | refine Keeps.ofPair ?_ ‹_› | split

theorem State.idleExit_keeps {z : State} {s : State} {p : ℕ} (h : Keeps z s)  :
    Keeps z (State.idleExit s p) := by
  unfold State.idleExit
  repeat' with_reducible first
    | assumption | intro _ | extract_lets | apply State.sendMarker_keeps | apply State.safeIfDue_keeps
    | apply State.powerReached_keeps | apply State.startRepair_keeps | apply Keeps.ite

theorem State.powerState_keeps {z : State} {s : State} {p : ℕ} (h : Keeps z s)  :
    Keeps z (State.powerState s p) := by
  unfold State.powerState
  repeat' with_reducible first
    | assumption | extract_lets | exact BusKeeps.refl _ | apply State.send_keeps | apply State.sendMarker_keeps
    | apply State.powerReached_keeps | apply State.complete_keeps | apply State.setLane_keeps | apply State.idleExit_keeps
    | apply State.portExit_keeps | apply Keeps.ite | refine Keeps.ofPair ?_ ‹_› | split

theorem laneTest_keeps {z : State} {x0 : ℕ} {x1 : ℕ} {x2 : FEntry} {x3 : State} (h : Keeps z x3)  :
    Keeps z (laneTest x0 x1 x2 x3).1 := by
  unfold laneTest
  repeat' with_reducible first
    | assumption | intro _ | extract_lets | exact BusKeeps.refl _ | apply checked_keeps | apply done_keeps
    | apply State.setPortState_keeps | apply State.setFld_keeps | apply State.sendMarker_keeps | apply State.send_keeps
    | apply State.setLane_keeps | apply Keeps.ite | split

theorem State.testDone_keeps {z : State} {s : State} {p : ℕ} {rx : List (List Bool)} {heard : ℕ} (h : Keeps z s)  :
    Keeps z (State.testDone s p rx heard) := by
  unfold State.testDone
  repeat' with_reducible first
    | assumption | intro _ | extract_lets | exact BusKeeps.refl _ | apply State.bump_keeps | apply State.setReg_keeps
    | apply State.emit_keeps | apply State.sendMarker_keeps | apply State.setLane_keeps | apply State.setPortState_keeps
    | apply State.safeIfDue_keeps | apply State.complete_keeps | apply Keeps.ite | apply Keeps.forEach
    | refine Keeps.ofPair ?_ ‹_› | split

theorem inject_keeps {z : State} {x0 : ℕ} {x1 : ℕ} {x2 : FEntry} {x3 : State} (h : Keeps z x3)  :
    Keeps z (inject x0 x1 x2 x3).1 := by
  unfold inject
  repeat' with_reducible first
    | assumption | intro _ | extract_lets | exact BusKeeps.refl _ | apply checked_keeps | apply done_keeps
    | apply State.send_keeps | apply Keeps.ite | split

theorem State.portOff_keeps {z : State} {s : State} {p : ℕ} (h : Keeps z s)  :
    Keeps z (State.portOff s p) := by
  unfold State.portOff
  repeat' with_reducible first
    | assumption | extract_lets | exact BusKeeps.refl _ | apply State.setFld_keeps | apply State.setPortState_keeps
    | apply State.setLane_keeps | apply State.send_keeps

end Sys2Proof.Machine
end

