-- ==== Sys2Proof/Laws/KeepsTiming.lean ====
section
/-! SUPPORT. What the operations and commands of Machine/Timing.lean keep: one law each. -/

namespace Sys2Proof.Machine

theorem State.setTim_keeps {z : State} {s : State} {t : TimSt} (h : Keeps z s)  :
    Keeps z (State.setTim s t) := by
  unfold State.setTim
  repeat' with_reducible first
    | assumption | exact BusKeeps.refl _ | (fail_if_no_progress apply Keeps.mk')

theorem State.setRef_keeps {z : State} {s : State} {r : ℕ} {x : RefSt} (h : Keeps z s)  :
    Keeps z (State.setRef s r x) := by
  unfold State.setRef
  repeat' with_reducible first
    | assumption | exact BusKeeps.refl _ | apply State.setTim_keeps

theorem State.wrapBy_keeps {z : State} {s : State} {up : Bool} (h : Keeps z s)  :
    Keeps z (State.wrapBy s up) := by
  unfold State.wrapBy
  repeat' with_reducible first
    | assumption | extract_lets | apply State.emit_keeps | apply State.setFld_keeps

theorem State.countTick_keeps {z : State} {s : State} (h : Keeps z s)  :
    Keeps z (State.countTick s) := by
  unfold State.countTick
  repeat' with_reducible first
    | assumption | intro _ | extract_lets | exact BusKeeps.refl _ | apply State.onBus_keeps | apply State.wrapBy_keeps
    | apply Keeps.ite | split | apply BusKeeps.ite | apply BusKeeps.tick

theorem State.wrapTick_keeps {z : State} {s : State} (h : Keeps z s)  :
    Keeps z (State.wrapTick s) := by
  unfold State.wrapTick
  repeat' with_reducible first
    | assumption | extract_lets | exact BusKeeps.refl _ | apply State.countTick_keeps | apply Keeps.ite

theorem State.timingRec_keeps {z : State} {s : State} {what : ℕ} {ref : ℕ} {st : ℕ} {v4 : ℕ} {v5 : ℕ} (h : Keeps z s)  :
    Keeps z (State.timingRec s what ref st v4 v5) := by
  unfold State.timingRec
  repeat' with_reducible first
    | assumption | apply State.journal_keeps

theorem State.setTimState_keeps {z : State} {s : State} {st : ℕ} (h : Keeps z s)  :
    Keeps z (State.setTimState s st) := by
  unfold State.setTimState
  repeat' with_reducible first
    | assumption | extract_lets | exact BusKeeps.refl _ | apply State.setFld_keeps | apply State.timingRec_keeps
    | apply State.emit_keeps | apply State.setTim_keeps

theorem State.takeD0_keeps {z : State} {s : State} {r : ℕ} (h : Keeps z s)  :
    Keeps z (State.takeD0 s r) := by
  unfold State.takeD0
  repeat' with_reducible first
    | assumption | extract_lets | exact BusKeeps.refl _ | apply State.setReg_keeps | apply State.setTim_keeps

theorem State.selectRef_keeps {z : State} {s : State} {r : ℕ} {cause : ℕ} (h : Keeps z s)  :
    Keeps z (State.selectRef s r cause) := by
  unfold State.selectRef
  repeat' with_reducible first
    | assumption | extract_lets | apply State.setFld_keeps | apply State.takeD0_keeps | apply State.emit_keeps
    | apply State.setTimState_keeps

theorem State.deselect_keeps {z : State} {s : State} (h : Keeps z s)  :
    Keeps z (State.deselect s) := by
  unfold State.deselect
  repeat' with_reducible first
    | assumption | extract_lets | exact BusKeeps.refl _ | apply State.setFld_keeps | apply State.setTim_keeps
    | apply State.setTimState_keeps | apply State.setReg_keeps | apply Keeps.ite

theorem State.reselect_keeps {z : State} {s : State} {cause : ℕ} (h : Keeps z s)  :
    Keeps z (State.reselect s cause) := by
  unfold State.reselect
  repeat' with_reducible first
    | assumption | extract_lets | exact BusKeeps.refl _ | apply State.deselect_keeps | apply State.selectRef_keeps
    | apply Keeps.ite | refine Keeps.ofPair ?_ ‹_› | split

theorem State.setQual_keeps {z : State} {s : State} {r : ℕ} {q : ℕ} {cause : ℕ} (h : Keeps z s)  :
    Keeps z (State.setQual s r q cause) := by
  unfold State.setQual
  repeat' with_reducible first
    | assumption | extract_lets | exact BusKeeps.refl _ | apply State.setFld_keeps | apply State.timingRec_keeps
    | apply State.emit_keeps | apply State.setRef_keeps | apply State.reselect_keeps | apply Keeps.ite

theorem State.refInactive_keeps {z : State} {s : State} {r : ℕ} (h : Keeps z s)  :
    Keeps z (State.refInactive s r) := by
  unfold State.refInactive
  repeat' with_reducible first
    | assumption | apply State.setQual_keeps | apply State.setFld_keeps | apply Keeps.ite

theorem State.refActive_keeps {z : State} {s : State} {r : ℕ} (h : Keeps z s)  :
    Keeps z (State.refActive s r) := by
  unfold State.refActive
  repeat' with_reducible first
    | assumption | extract_lets | apply State.setFld_keeps | apply State.setQual_keeps | apply Keeps.ite

theorem State.refMeasure_keeps {z : State} {s : State} {r : ℕ} {edges : ℕ} {n : ℕ} {phase : ℤ} (h : Keeps z s)  :
    Keeps z (State.refMeasure s r edges n phase) := by
  unfold State.refMeasure
  repeat' with_reducible first
    | assumption | extract_lets | exact BusKeeps.refl _ | apply State.setReg_keeps | apply State.setFld_keeps
    | apply State.setRef_keeps | apply State.setQual_keeps | apply State.setTim_keeps | apply Keeps.ite

theorem State.refQualified_keeps {z : State} {s : State} {r : ℕ} (h : Keeps z s)  :
    Keeps z (State.refQualified s r) := by
  unfold State.refQualified
  repeat' with_reducible first
    | assumption | apply State.setQual_keeps | apply Keeps.ite

theorem State.requalify_keeps {z : State} {s : State} {r : ℕ} (h : Keeps z s)  :
    Keeps z (State.requalify s r) := by
  unfold State.requalify
  repeat' with_reducible first
    | assumption | extract_lets | apply State.setQual_keeps | apply State.setFld_keeps | apply State.refActive_keeps
    | apply Keeps.ite

theorem State.refCfgWrite_keeps {z : State} {s : State} {host : ℕ} {r : ℕ} {nom : Bool} {v : Word} (h : Keeps z s)  :
    Keeps z (State.refCfgWrite s host r nom v) := by
  unfold State.refCfgWrite
  repeat' with_reducible first
    | assumption | intro _ | extract_lets | apply State.hostWrite_keeps | apply State.requalify_keeps
    | apply State.setReg_keeps | apply State.bump_keeps | apply State.reselect_keeps | apply Keeps.ite

theorem State.timCtlWrite_keeps {z : State} {s : State} {host : ℕ} {v : Word} (h : Keeps z s)  :
    Keeps z (State.timCtlWrite s host v) := by
  unfold State.timCtlWrite
  repeat' with_reducible first
    | assumption | intro _ | apply State.hostWrite_keeps | apply State.bump_keeps | apply State.reselect_keeps
    | apply State.setReg_keeps | apply Keeps.ite

theorem State.wtrExpiry_keeps {z : State} {s : State} {r : ℕ} (h : Keeps z s)  :
    Keeps z (State.wtrExpiry s r) := by
  unfold State.wtrExpiry
  repeat' with_reducible first
    | assumption | intro _ | apply State.selectRef_keeps | apply Keeps.ite

theorem State.lockTestMet_keeps {z : State} {s : State} (h : Keeps z s)  :
    Keeps z (State.lockTestMet s) := by
  unfold State.lockTestMet
  repeat' with_reducible first
    | assumption | exact BusKeeps.refl _ | apply State.setTimState_keeps | apply State.setFld_keeps
    | apply State.takeD0_keeps | apply Keeps.ite | refine Keeps.ofPair ?_ ‹_› | split

theorem State.holdExpired_keeps {z : State} {s : State} (h : Keeps z s)  :
    Keeps z (State.holdExpired s) := by
  unfold State.holdExpired
  repeat' with_reducible first
    | assumption | extract_lets | apply State.setTimState_keeps | apply State.setReg_keeps | apply State.emit_keeps
    | apply Keeps.ite

theorem State.hostIncrWrite_keeps {z : State} {s : State} {host : ℕ} {hi : Word} (h : Keeps z s)  :
    Keeps z (State.hostIncrWrite s host hi) := by
  unfold State.hostIncrWrite
  repeat' with_reducible first
    | assumption | intro _ | extract_lets | exact BusKeeps.refl _ | apply State.hostWrite_keeps | apply State.bump_keeps
    | apply State.setPair_keeps | apply State.setTim_keeps | apply State.setReg_keeps | apply State.setRef_keeps
    | apply State.refActive_keeps | apply Keeps.ite

theorem State.hostRefTimeout_keeps {z : State} {s : State} (h : Keeps z s)  :
    Keeps z (State.hostRefTimeout s) := by
  unfold State.hostRefTimeout
  repeat' with_reducible first
    | assumption | exact BusKeeps.refl _ | apply State.refInactive_keeps | apply Keeps.ite | refine Keeps.ofPair ?_ ‹_›
    | split

theorem State.showWtr_keeps {z : State} {s : State} (h : Keeps z s)  :
    Keeps z (State.showWtr s) := by
  unfold State.showWtr
  repeat' with_reducible first
    | assumption | intro _ | exact BusKeeps.refl _ | apply State.setReg_keeps | apply State.setFld_keeps
    | refine Keeps.ofPair ?_ ‹_› | split

theorem State.slewStep_keeps {z : State} {s : State} (h : Keeps z s)  :
    Keeps z (State.slewStep s) := by
  unfold State.slewStep
  repeat' with_reducible first
    | assumption | exact BusKeeps.refl _ | apply State.setTim_keeps | apply State.setPair_keeps | apply State.setReg_keeps
    | apply State.setFld_keeps | apply State.emit_keeps | apply State.showWtr_keeps | apply Keeps.ite

theorem State.record_keeps {z : State} {s : State} {c : ℕ} {t : Word} {sub : ℕ} (h : Keeps z s)  :
    Keeps z (State.record s c t sub) := by
  unfold State.record
  repeat' with_reducible first
    | assumption | extract_lets | exact BusKeeps.refl _ | apply State.bump_keeps | apply State.setReg_keeps
    | apply State.setTim_keeps | apply State.emit_keeps | apply Keeps.ite

theorem State.captureAt_keeps {z : State} {s : State} {input : ℕ} {falling : Option Bool} {t : Word} (h : Keeps z s)  :
    Keeps z (State.captureAt s input falling t) := by
  unfold State.captureAt
  repeat' with_reducible first
    | assumption | intro _ | extract_lets | apply State.record_keeps | apply Keeps.ite | apply Keeps.forEach

theorem State.drivePulse_keeps {z : State} {s : State} {p : ℕ} {level : Bool} {t : Word} (h : Keeps z s)  :
    Keeps z (State.drivePulse s p level t) := by
  unfold State.drivePulse
  repeat' with_reducible first
    | assumption | apply State.captureAt_keeps | apply State.send_keeps

theorem State.capture_keeps {z : State} {s : State} {c : ℕ} {t : Word} {sub : ℕ} (h : Keeps z s)  :
    Keeps z (State.capture s c t sub) := by
  unfold State.capture
  repeat' with_reducible first
    | assumption | extract_lets | apply State.record_keeps | apply Keeps.ite

theorem State.unsound_keeps {z : State} {s : State} {cause : ℕ} (h : Keeps z s)  :
    Keeps z (State.unsound s cause) := by
  unfold State.unsound
  repeat' with_reducible first
    | assumption | intro _ | extract_lets | exact BusKeeps.refl _ | apply State.setFld_keeps | apply State.drivePulse_keeps
    | apply State.send_keeps | apply State.setTim_keeps | apply State.emit_keeps | apply Keeps.ite | apply Keeps.forEach

theorem State.setGroup_keeps {z : State} {s : State} {g : ℕ} {x : GroupSt} (h : Keeps z s)  :
    Keeps z (State.setGroup s g x) := by
  unfold State.setGroup
  repeat' with_reducible first
    | assumption | exact BusKeeps.refl _ | apply State.setTim_keeps

theorem State.setNext_keeps {z : State} {s : State} {g : ℕ} {k : ℤ} (h : Keeps z s)  :
    Keeps z (State.setNext s g k) := by
  unfold State.setNext
  repeat' with_reducible first
    | assumption | exact BusKeeps.refl _ | apply State.setReg_keeps | apply State.setGroup_keeps

theorem State.alignNotes_keeps {z : State} {s : State} {g : ℕ} (h : Keeps z s)  :
    Keeps z (State.alignNotes s g) := by
  unfold State.alignNotes
  repeat' with_reducible first
    | assumption | intro _ | extract_lets | apply State.control_keeps | apply Keeps.ite | apply Keeps.forEach

theorem State.frameInstant_keeps {z : State} {s : State} {g : ℕ} (h : Keeps z s)  :
    Keeps z (State.frameInstant s g) := by
  unfold State.frameInstant
  repeat' with_reducible first
    | assumption | intro _ | extract_lets | exact BusKeeps.refl _ | apply State.captureAt_keeps | apply State.setNext_keeps
    | apply State.setReg_keeps | apply State.setGroup_keeps | apply State.timingRec_keeps | apply State.alignNotes_keeps
    | apply State.emit_keeps | apply Keeps.ite | refine Keeps.ofPair ?_ ‹_› | split | dsimp only | dsimp +zetaDelta only

theorem groupRate_keeps {z : State} {x0 : ℕ} {x1 : ℕ} {x2 : FEntry} {x3 : State} (h : Keeps z x3)  :
    Keeps z (groupRate x0 x1 x2 x3).1 := by
  unfold groupRate
  repeat' with_reducible first
    | assumption | intro _ | extract_lets | exact BusKeeps.refl _ | apply checked_keeps | apply done_keeps
    | apply State.setGroup_keeps | apply Keeps.ite | refine Keeps.ofPair ?_ ‹_› | split

theorem State.setPulse_keeps {z : State} {s : State} {p : ℕ} {x : PulseSt} (h : Keeps z s)  :
    Keeps z (State.setPulse s p x) := by
  unfold State.setPulse
  repeat' with_reducible first
    | assumption | exact BusKeeps.refl _ | apply State.setTim_keeps

theorem align_keeps {z : State} {x0 : ℕ} {x1 : ℕ} {x2 : FEntry} {x3 : State} (h : Keeps z x3)  :
    Keeps z (align x0 x1 x2 x3).1 := by
  unfold align
  repeat' with_reducible first
    | assumption | intro _ | extract_lets | exact BusKeeps.refl _ | apply checked_keeps | apply done_keeps
    | apply State.setGroup_keeps | apply State.setPulse_keeps | apply State.emit_keeps | apply State.setReg_keeps
    | apply Keeps.ite | refine Keeps.ofPair ?_ ‹_› | split

theorem State.freeze_keeps {z : State} {s : State} {r : FReg} {i : ℕ} {j : ℕ} (h : Keeps z s)  :
    Keeps z (State.freeze s r i j) := by
  unfold State.freeze
  repeat' with_reducible first
    | assumption | intro _ | exact BusKeeps.refl _ | apply State.onBus_keeps | (fail_if_no_progress apply BusKeeps.mk')

theorem State.thaw_keeps {z : State} {s : State} {r : FReg} {i : ℕ} {j : ℕ} (h : Keeps z s)  :
    Keeps z (State.thaw s r i j) := by
  unfold State.thaw
  repeat' with_reducible first
    | assumption | intro _ | exact BusKeeps.refl _ | apply State.onBus_keeps | (fail_if_no_progress apply BusKeeps.mk')

theorem State.answer_keeps {z : State} {s : State} {port : ℕ} {v : Word} (h : Keeps z s)  :
    Keeps z (State.answer s port v) := by
  unfold State.answer
  repeat' with_reducible first
    | assumption | intro _ | exact BusKeeps.refl _ | apply State.onBus_keeps | apply Bus.answer_keeps

theorem State.capTimeRead_keeps {z : State} {s : State} {port : ℕ} {c : ℕ} (h : Keeps z s)  :
    Keeps z (State.capTimeRead s port c) := by
  unfold State.capTimeRead
  repeat' with_reducible first
    | assumption | extract_lets | exact BusKeeps.refl _ | apply State.freeze_keeps | apply State.answer_keeps
    | apply State.setTim_keeps | apply Keeps.ite

theorem State.capSubRead_keeps {z : State} {s : State} {port : ℕ} {c : ℕ} (h : Keeps z s)  :
    Keeps z (State.capSubRead s port c) := by
  unfold State.capSubRead
  repeat' with_reducible first
    | assumption | extract_lets | apply State.thaw_keeps | apply State.answer_keeps | apply State.setReg_keeps
    | apply Keeps.ite

theorem State.timNowRead_keeps {z : State} {s : State} {port : ℕ} {frac : Bool} (h : Keeps z s)  :
    Keeps z (State.timNowRead s port frac) := by
  unfold State.timNowRead
  repeat' with_reducible first
    | assumption | intro _ | exact BusKeeps.refl _ | apply State.thaw_keeps | apply State.answer_keeps
    | apply State.onBus_keeps | apply Keeps.ite | split | apply BusKeeps.ite | (fail_if_no_progress apply BusKeeps.mk')

theorem State.pulseCtlWrite_keeps {z : State} {s : State} {p : ℕ} {v : Word} (h : Keeps z s)  :
    Keeps z (State.pulseCtlWrite s p v) := by
  unfold State.pulseCtlWrite
  repeat' with_reducible first
    | assumption | extract_lets | exact BusKeeps.refl _ | apply State.setFld_keeps | apply State.drivePulse_keeps
    | apply State.setPulse_keeps | apply Keeps.ite

theorem State.pulseEdge_keeps {z : State} {s : State} {p : ℕ} (h : Keeps z s)  :
    Keeps z (State.pulseEdge s p) := by
  unfold State.pulseEdge
  repeat' with_reducible first
    | assumption | extract_lets | exact BusKeeps.refl _ | apply State.setPulse_keeps | apply State.drivePulse_keeps
    | apply State.setReg_keeps | apply State.emit_keeps | apply State.setFld_keeps | apply Keeps.ite
    | refine Keeps.ofPair ?_ ‹_› | split | dsimp only | dsimp +zetaDelta only

theorem execIncrementSlewStep_keeps {z : State} {s : State} (h : Keeps z s)  :
    AnswerKeeps z (execIncrementSlewStep s) := by
  unfold execIncrementSlewStep
  repeat' with_reducible first
    | assumption | apply State.fabric_keeps | apply State.slewStep_keeps

theorem execWrap_keeps {z : State} {s : State} (h : Keeps z s)  :
    AnswerKeeps z (execWrap s) := by
  unfold execWrap
  repeat' with_reducible first
    | assumption | apply State.fabric_keeps | apply State.wrapTick_keeps

theorem execRefInactive_keeps {z : State} {r : ℕ} {s : State} (h : Keeps z s)  :
    AnswerKeeps z (execRefInactive r s) := by
  unfold execRefInactive
  repeat' with_reducible first
    | assumption | intro _ | apply State.fabric_keeps | apply State.refInactive_keeps

theorem execRefActive_keeps {z : State} {r : ℕ} {s : State} (h : Keeps z s)  :
    AnswerKeeps z (execRefActive r s) := by
  unfold execRefActive
  repeat' with_reducible first
    | assumption | intro _ | apply State.fabric_keeps | apply State.refActive_keeps

theorem execRefMeasurement_keeps {z : State} {r : ℕ} {edges : ℕ} {n : ℕ} {phase : ℤ} {s : State} (h : Keeps z s)  :
    AnswerKeeps z (execRefMeasurement r edges n phase s) := by
  unfold execRefMeasurement
  repeat' with_reducible first
    | assumption | intro _ | apply State.fabric_keeps | apply State.refMeasure_keeps

theorem execRefQualified_keeps {z : State} {r : ℕ} {s : State} (h : Keeps z s)  :
    AnswerKeeps z (execRefQualified r s) := by
  unfold execRefQualified
  repeat' with_reducible first
    | assumption | intro _ | apply State.fabric_keeps | apply State.refQualified_keeps

theorem execRefCfgWrite_keeps {z : State} {host : ℕ} {r : ℕ} {nom : Bool} {v : Word} {s : State} (h : Keeps z s)  :
    AnswerKeeps z (execRefCfgWrite host r nom v s) := by
  unfold execRefCfgWrite
  repeat' with_reducible first
    | assumption | intro _ | apply State.fabric_keeps | apply State.refCfgWrite_keeps

theorem execTimCtlWrite_keeps {z : State} {host : ℕ} {v : Word} {s : State} (h : Keeps z s)  :
    AnswerKeeps z (execTimCtlWrite host v s) := by
  unfold execTimCtlWrite
  repeat' with_reducible first
    | assumption | intro _ | apply State.fabric_keeps | apply State.timCtlWrite_keeps

theorem execWtrExpiry_keeps {z : State} {r : ℕ} {s : State} (h : Keeps z s)  :
    AnswerKeeps z (execWtrExpiry r s) := by
  unfold execWtrExpiry
  repeat' with_reducible first
    | assumption | intro _ | apply State.fabric_keeps | apply State.wtrExpiry_keeps

theorem execLockTestMet_keeps {z : State} {s : State} (h : Keeps z s)  :
    AnswerKeeps z (execLockTestMet s) := by
  unfold execLockTestMet
  repeat' with_reducible first
    | assumption | apply State.fabric_keeps | apply State.lockTestMet_keeps

theorem execHoldExpired_keeps {z : State} {s : State} (h : Keeps z s)  :
    AnswerKeeps z (execHoldExpired s) := by
  unfold execHoldExpired
  repeat' with_reducible first
    | assumption | apply State.fabric_keeps | apply State.holdExpired_keeps

theorem execTimHostIncrWrite_keeps {z : State} {host : ℕ} {hi : Word} {s : State} (h : Keeps z s)  :
    AnswerKeeps z (execTimHostIncrWrite host hi s) := by
  unfold execTimHostIncrWrite
  repeat' with_reducible first
    | assumption | intro _ | apply State.fabric_keeps | apply State.hostIncrWrite_keeps

theorem execHostRefTimeout_keeps {z : State} {s : State} (h : Keeps z s)  :
    AnswerKeeps z (execHostRefTimeout s) := by
  unfold execHostRefTimeout
  repeat' with_reducible first
    | assumption | apply State.fabric_keeps | apply State.hostRefTimeout_keeps

theorem execAlign_keeps {z : State} {r : ℕ} {k : ℕ} {s : State} (h : Keeps z s)  :
    AnswerKeeps z (execAlign r k s) := by
  unfold execAlign
  repeat' with_reducible first
    | assumption | intro _ | apply State.fabric_keeps | apply State.runCmd_keeps | apply align_keeps

theorem execGroupRate_keeps {z : State} {r : ℕ} {k : ℕ} {s : State} (h : Keeps z s)  :
    AnswerKeeps z (execGroupRate r k s) := by
  unfold execGroupRate
  repeat' with_reducible first
    | assumption | intro _ | apply State.fabric_keeps | apply State.runCmd_keeps | apply groupRate_keeps

theorem execCadenceFrameInstant_keeps {z : State} {g : ℕ} {s : State} (h : Keeps z s)  :
    AnswerKeeps z (execCadenceFrameInstant g s) := by
  unfold execCadenceFrameInstant
  repeat' with_reducible first
    | assumption | intro _ | apply State.fabric_keeps | apply State.frameInstant_keeps

theorem execCapture_keeps {z : State} {c : ℕ} {t : Word} {sub : ℕ} {s : State} (h : Keeps z s)  :
    AnswerKeeps z (execCapture c t sub s) := by
  unfold execCapture
  repeat' with_reducible first
    | assumption | intro _ | apply State.fabric_keeps | apply State.capture_keeps

theorem execCapTimeRead_keeps {z : State} {port : ℕ} {c : ℕ} {s : State} (h : Keeps z s)  :
    AnswerKeeps z (execCapTimeRead port c s) := by
  unfold execCapTimeRead
  repeat' with_reducible first
    | assumption | intro _ | apply State.fabric_keeps | apply State.capTimeRead_keeps

theorem execCapSubRead_keeps {z : State} {port : ℕ} {c : ℕ} {s : State} (h : Keeps z s)  :
    AnswerKeeps z (execCapSubRead port c s) := by
  unfold execCapSubRead
  repeat' with_reducible first
    | assumption | intro _ | apply State.fabric_keeps | apply State.capSubRead_keeps

theorem execTimNowRead_keeps {z : State} {port : ℕ} {frac : Bool} {s : State} (h : Keeps z s)  :
    AnswerKeeps z (execTimNowRead port frac s) := by
  unfold execTimNowRead
  repeat' with_reducible first
    | assumption | intro _ | apply State.fabric_keeps | apply State.timNowRead_keeps

theorem execPulseEdge_keeps {z : State} {p : ℕ} {s : State} (h : Keeps z s)  :
    AnswerKeeps z (execPulseEdge p s) := by
  unfold execPulseEdge
  repeat' with_reducible first
    | assumption | intro _ | apply State.fabric_keeps | apply State.pulseEdge_keeps

end Sys2Proof.Machine
end

