-- ==== Sys2Proof/Laws/KeepsSources.lean ====
section
/-! SUPPORT. What the operations and commands of Machine/Sources.lean keep: one law each. -/

namespace Sys2Proof.Machine

theorem State.setSrc_keeps {z : State} {s : State} {n : ℕ} {x : SrcSt} (h : Keeps z s)  :
    Keeps z (State.setSrc s n x) := by
  unfold State.setSrc
  repeat' with_reducible first
    | assumption | exact BusKeeps.refl _ | (fail_if_no_progress apply Keeps.mk')

theorem State.writeAll_keeps {z : State} {s : State} {m : ℕ} {ws : List (ℕ × List Byte)} (h : Keeps z s)  :
    Keeps z (State.writeAll s m ws).1 := by
  unfold State.writeAll
  repeat' with_reducible first
    | assumption | intro _ | extract_lets | apply State.store_keeps | apply Keeps.ite | apply Keeps.iteFst
    | apply Keeps.foldl | apply Keeps.foldlFst

theorem State.countBlocks_keeps {z : State} {s : State} {slotN : ℕ} {solidN : ℕ} {rawN : ℕ} (h : Keeps z s)  :
    Keeps z (State.countBlocks s slotN solidN rawN) := by
  unfold State.countBlocks
  repeat' with_reducible first
    | assumption | apply State.bump_keeps

theorem State.writeStore_keeps {z : State} {s : State} {m : ℕ} {addr : ℕ} {g : Geo} {effort : ℕ} {pic : List (List Byte)} {checks : List ℕ} (h : Keeps z s)  :
    Keeps z (State.writeStore s m addr g effort pic checks).1 := by
  unfold State.writeStore
  repeat' with_reducible first
    | assumption | intro _ | extract_lets | apply State.writeAll_keeps | apply State.countBlocks_keeps | apply Keeps.ite
    | apply Keeps.iteFst

theorem State.writePicture_keeps {z : State} {s : State} {m : ℕ} {addr : ℕ} {g : Geo} {effort : ℕ} {pic : List (List Byte)} (h : Keeps z s)  :
    Keeps z (State.writePicture s m addr g effort pic).1 := by
  unfold State.writePicture
  repeat' with_reducible first
    | assumption | apply State.writeStore_keeps

theorem State.fetchBytes_keeps {z : State} {s : State} {m : ℕ} {a : ℕ} {n : ℕ} (h : Keeps z s)  :
    Keeps z (State.fetchBytes s m a n).1 := by
  unfold State.fetchBytes
  repeat' with_reducible first
    | assumption | extract_lets | apply State.load_keeps

theorem State.badBlock_keeps {z : State} {s : State} {m : ℕ} {addr : ℕ} {code : ℕ} (h : Keeps z s)  :
    Keeps z (State.badBlock s m addr code) := by
  unfold State.badBlock
  repeat' with_reducible first
    | assumption | apply State.emit_keeps

theorem State.readBlock_keeps {z : State} {s : State} {m : ℕ} {addr : ℕ} {g : Geo} {bx : ℕ} {bY : ℕ} (h : Keeps z s)  :
    Keeps z (State.readBlock s m addr g bx bY).1 := by
  unfold State.readBlock
  repeat' with_reducible first
    | assumption | intro _ | extract_lets | exact BusKeeps.refl _ | apply State.fetchBytes_keeps | apply State.bump_keeps
    | apply Keeps.ite | apply Keeps.iteFst | apply Keeps.foldl | apply Keeps.foldlFst | apply BusKeeps.foldl
    | refine Keeps.ofPair ?_ ‹_› | split

theorem State.fetchBlock_keeps {z : State} {s : State} {m : ℕ} {addr : ℕ} {g : Geo} {bx : ℕ} {bY : ℕ} (h : Keeps z s)  :
    Keeps z (State.fetchBlock s m addr g bx bY).1 := by
  unfold State.fetchBlock
  repeat' with_reducible first
    | assumption | exact BusKeeps.refl _ | apply State.readBlock_keeps | apply State.badBlock_keeps
    | refine Keeps.ofPair ?_ ‹_› | split

theorem State.fetchRaw_keeps {z : State} {s : State} {m : ℕ} {addr : ℕ} {g : Geo} {bx : ℕ} {bY : ℕ} {xs : List ℕ} {ys : List ℕ} (h : Keeps z s)  :
    Keeps z (State.fetchRaw s m addr g bx bY xs ys).1 := by
  unfold State.fetchRaw
  repeat' with_reducible first
    | assumption | intro _ | extract_lets | exact BusKeeps.refl _ | apply State.fetchBytes_keeps | apply Keeps.ite
    | apply Keeps.iteFst | apply Keeps.foldl | apply Keeps.foldlFst | apply BusKeeps.foldl | refine Keeps.ofPair ?_ ‹_›
    | split

theorem State.fetchPicture_keeps {z : State} {s : State} {m : ℕ} {addr : ℕ} {g : Geo} (h : Keeps z s)  :
    Keeps z (State.fetchPicture s m addr g).1 := by
  unfold State.fetchPicture
  repeat' with_reducible first
    | assumption | intro _ | extract_lets | exact BusKeeps.refl _ | apply State.fetchBlock_keeps | apply Keeps.foldl
    | apply Keeps.foldlFst | apply BusKeeps.foldl | refine Keeps.ofPair ?_ ‹_› | split | dsimp only | dsimp +zetaDelta only

theorem State.fetchRows_keeps {z : State} {s : State} {m : ℕ} {addr : ℕ} {stride : ℕ} {n : ℕ} {len : ℕ} (h : Keeps z s)  :
    Keeps z (State.fetchRows s m addr stride n len).1 := by
  unfold State.fetchRows
  repeat' with_reducible first
    | assumption | intro _ | exact BusKeeps.refl _ | apply State.fetchBytes_keeps | apply Keeps.foldl | apply Keeps.foldlFst
    | apply BusKeeps.foldl | refine Keeps.ofPair ?_ ‹_› | split

theorem State.setBufState_keeps {z : State} {s : State} {n : ℕ} {b : ℕ} {st : ℕ} (h : Keeps z s)  :
    Keeps z (State.setBufState s n b st) := by
  unfold State.setBufState
  repeat' with_reducible first
    | assumption | extract_lets | apply State.setFld_keeps

theorem State.dropNewest_keeps {z : State} {s : State} {n : ℕ} (h : Keeps z s)  :
    Keeps z (State.dropNewest s n) := by
  unfold State.dropNewest
  repeat' with_reducible first
    | assumption | extract_lets | exact BusKeeps.refl _ | apply State.setFld_keeps | apply State.setBufState_keeps
    | apply Keeps.ite | refine Keeps.ofPair ?_ ‹_› | split

theorem State.evalSource_keeps {z : State} {s : State} {n : ℕ} (h : Keeps z s)  :
    Keeps z (State.evalSource s n) := by
  unfold State.evalSource
  repeat' with_reducible first
    | assumption | extract_lets | apply State.dropNewest_keeps | apply State.emit_keeps | apply State.setFld_keeps
    | apply Keeps.ite

theorem State.moveBuf_keeps {z : State} {s : State} {n : ℕ} {b : ℕ} {st : ℕ} (h : Keeps z s)  :
    Keeps z (State.moveBuf s n b st) := by
  unfold State.moveBuf
  repeat' with_reducible first
    | assumption | apply State.evalSource_keeps | apply State.setBufState_keeps

theorem State.poolNone_keeps {z : State} {s : State} {n : ℕ} {k : ℕ} (h : Keeps z s)  :
    Keeps z (State.poolNone s n k) := by
  unfold State.poolNone
  repeat' with_reducible first
    | assumption | extract_lets | exact BusKeeps.refl _ | apply State.bump_keeps | apply State.emit_keeps
    | apply State.setSrc_keeps | apply Keeps.ite

theorem State.poolEmpty_keeps {z : State} {s : State} {n : ℕ} (h : Keeps z s)  :
    Keeps z (State.poolEmpty s n) := by
  unfold State.poolEmpty
  repeat' with_reducible first
    | assumption | apply State.poolNone_keeps

theorem State.cull_keeps {z : State} {s : State} {n : ℕ} {b : ℕ} {reason : ℕ} {alive : ℕ} {cap : Word} (h : Keeps z s)  :
    Keeps z (State.cull s n b reason alive cap) := by
  unfold State.cull
  repeat' with_reducible first
    | assumption | extract_lets | exact BusKeeps.refl _ | apply State.setFld_keeps | apply State.bump_keeps
    | apply State.setBufState_keeps | apply State.setSrc_keeps | apply State.evalSource_keeps | apply Keeps.ite

theorem State.accept_keeps {z : State} {s : State} {n : ℕ} {b : ℕ} {p : Pict} (h : Keeps z s)  :
    Keeps z (State.accept s n b p) := by
  unfold State.accept
  repeat' with_reducible first
    | assumption | intro _ | extract_lets | exact BusKeeps.refl _ | apply State.emit_keeps | apply State.bump_keeps
    | apply State.setReg_keeps | apply State.dropNewest_keeps | apply State.setBufState_keeps | apply State.setFld_keeps
    | apply State.setSrc_keeps | apply State.journal_keeps | apply State.evalSource_keeps | apply Keeps.ite

theorem State.finish_keeps {z : State} {s : State} {n : ℕ} {b : ℕ} {p : Pict} (h : Keeps z s)  :
    Keeps z (State.finish s n b p).1 := by
  unfold State.finish
  repeat' with_reducible first
    | assumption | extract_lets | apply State.accept_keeps | apply State.cull_keeps | apply Keeps.ite | apply Keeps.iteFst

theorem State.holdBuf_keeps {z : State} {s : State} {n : ℕ} {b : ℕ} (h : Keeps z s)  :
    Keeps z (State.holdBuf s n b) := by
  unfold State.holdBuf
  repeat' with_reducible first
    | assumption | apply State.evalSource_keeps | apply State.setFld_keeps | apply State.setBufState_keeps

theorem State.releaseBuf_keeps {z : State} {s : State} {n : ℕ} {b : ℕ} (h : Keeps z s)  :
    Keeps z (State.releaseBuf s n b) := by
  unfold State.releaseBuf
  repeat' with_reducible first
    | assumption | extract_lets | apply State.setFld_keeps | apply State.moveBuf_keeps | apply State.evalSource_keeps
    | apply Keeps.ite

theorem State.choose_keeps {z : State} {s : State} {n : ℕ} {t : Word} (h : Keeps z s)  :
    Keeps z (State.choose s n t).1 := by
  unfold State.choose
  repeat' with_reducible first
    | assumption | exact BusKeeps.refl _ | apply State.setSrc_keeps | apply Keeps.ite | apply Keeps.iteFst
    | refine Keeps.ofPair ?_ ‹_› | split

theorem State.sourceOn_keeps {z : State} {s : State} {n : ℕ} (h : Keeps z s)  :
    Keeps z (State.sourceOn s n) := by
  unfold State.sourceOn
  repeat' with_reducible first
    | assumption | intro _ | extract_lets | exact BusKeeps.refl _ | apply State.setBufState_keeps | apply State.setFld_keeps
    | apply State.setReg_keeps | apply State.setSrc_keeps | apply State.evalSource_keeps | apply Keeps.ite
    | apply Keeps.forEach

theorem State.setWb_keeps {z : State} {s : State} {n : ℕ} {x : Option WbSt} (h : Keeps z s)  :
    Keeps z (State.setWb s n x) := by
  unfold State.setWb
  repeat' with_reducible first
    | assumption | exact BusKeeps.refl _ | (fail_if_no_progress apply Keeps.mk')

theorem State.signalsDue_keeps {z : State} {s : State} {n : ℕ} (h : Keeps z s)  :
    Keeps z (State.signalsDue s n) := by
  unfold State.signalsDue
  repeat' with_reducible first
    | assumption | intro _ | extract_lets | exact BusKeeps.refl _ | apply State.onBus_keeps | apply Bus.fenceSignal_keeps
    | apply State.setSrc_keeps | apply Keeps.ite | apply Keeps.iteFst | apply Keeps.forEach

theorem State.sourceOff_keeps {z : State} {s : State} {n : ℕ} (h : Keeps z s)  :
    Keeps z (State.sourceOff s n) := by
  unfold State.sourceOff
  repeat' with_reducible first
    | assumption | intro _ | extract_lets | exact BusKeeps.refl _ | apply State.setFld_keeps | apply State.setBufState_keeps
    | apply State.setReg_keeps | apply State.setSrc_keeps | apply State.setWb_keeps | apply State.evalSource_keeps
    | apply State.signalsDue_keeps | apply Keeps.ite | apply Keeps.forEach

theorem State.abandon_keeps {z : State} {s : State} {n : ℕ} (h : Keeps z s)  :
    Keeps z (State.abandon s n) := by
  unfold State.abandon
  repeat' with_reducible first
    | assumption | exact BusKeeps.refl _ | apply State.signalsDue_keeps | apply State.cull_keeps | apply State.setSrc_keeps
    | refine Keeps.ofPair ?_ ‹_› | split

theorem State.fillTimeout_keeps {z : State} {s : State} {n : ℕ} (h : Keeps z s)  :
    Keeps z (State.fillTimeout s n) := by
  unfold State.fillTimeout
  repeat' with_reducible first
    | assumption | exact BusKeeps.refl _ | apply State.abandon_keeps | apply Keeps.ite | refine Keeps.ofPair ?_ ‹_› | split

theorem State.srcCull_keeps {z : State} {s : State} {n : ℕ} (h : Keeps z s)  :
    Keeps z (State.srcCull s n) := by
  unfold State.srcCull
  repeat' with_reducible first
    | assumption | exact BusKeeps.refl _ | apply State.emitAt_keeps | apply State.setSrc_keeps | apply Keeps.ite
    | refine Keeps.ofPair ?_ ‹_› | split

theorem State.engineFault_keeps {z : State} {s : State} {n : ℕ} (h : Keeps z s)  :
    Keeps z (State.engineFault s n).1 := by
  unfold State.engineFault
  repeat' with_reducible first
    | assumption | exact BusKeeps.refl _ | apply State.setSrc_keeps

theorem State.testRegen_keeps {z : State} {s : State} {n : ℕ} (h : Keeps z s)  :
    Keeps z (State.testRegen s n) := by
  unfold State.testRegen
  repeat' with_reducible first
    | assumption | intro _ | extract_lets | exact BusKeeps.refl _ | apply State.setSrc_keeps | apply State.poolEmpty_keeps
    | apply State.writePicture_keeps | apply State.engineFault_keeps | apply State.finish_keeps | apply Keeps.ite
    | apply Keeps.iteFst | refine Keeps.ofPair ?_ ‹_› | split

theorem State.submitEnd_keeps {z : State} {s : State} {e : FEntry} {check : ℕ} {fromHost : Bool} {fault : Bool} (h : Keeps z s)  :
    Keeps z (State.submitEnd s e check fromHost fault).1 := by
  unfold State.submitEnd
  repeat' with_reducible first
    | assumption | exact BusKeeps.refl _ | apply State.finish_keeps | apply done_keeps | apply Keeps.ite | apply Keeps.iteFst
    | refine Keeps.ofPair ?_ ‹_› | split | (conv => arg 2; arg 1; whnf)

theorem State.submitHere_keeps {z : State} {s : State} {e : FEntry} (h : Keeps z s)  :
    Keeps z (State.submitHere s e).1 := by
  unfold State.submitHere
  repeat' with_reducible first
    | assumption | extract_lets | exact BusKeeps.refl _ | apply State.submitEnd_keeps | apply State.fetchRows_keeps
    | apply State.writeAll_keeps | apply Keeps.ite | apply Keeps.iteFst | refine Keeps.ofPair ?_ ‹_› | split

theorem State.submitFrom_keeps {z : State} {s : State} {e : FEntry} (h : Keeps z s)  :
    Keeps z (State.submitFrom s e).1 := by
  unfold State.submitFrom
  repeat' with_reducible first
    | assumption | extract_lets | exact BusKeeps.refl _ | apply State.fetchRows_keeps | apply State.writePicture_keeps
    | apply State.engineFault_keeps | apply State.submitEnd_keeps | apply done_keeps | refine Keeps.ofPair ?_ ‹_› | split

theorem submit_keeps {z : State} {x0 : ℕ} {x1 : ℕ} {x2 : FEntry} {x3 : State} (h : Keeps z x3)  :
    Keeps z (submit x0 x1 x2 x3).1 := by
  unfold submit
  repeat' with_reducible first
    | assumption | intro _ | exact BusKeeps.refl _ | apply checked_keeps | apply done_keeps | apply State.poolNone_keeps
    | apply State.submitHere_keeps | apply State.submitFrom_keeps | apply Keeps.ite | split

theorem compress_keeps {z : State} {x0 : ℕ} {x1 : ℕ} {x2 : FEntry} {x3 : State} (h : Keeps z x3)  :
    Keeps z (compress x0 x1 x2 x3).1 := by
  unfold compress
  repeat' with_reducible first
    | assumption | intro _ | extract_lets | exact BusKeeps.refl _ | apply checked_keeps | apply State.fetchRows_keeps
    | apply done_keeps | apply State.bump_keeps | apply State.writePicture_keeps | apply State.setFld_keeps | apply Keeps.ite
    | apply Keeps.iteFst | refine Keeps.ofPair ?_ ‹_› | split

theorem State.expand_keeps {z : State} {s : State} {host : ℕ} {addr : ℕ} {g : Geo} {x : ℕ} {y : ℕ} {told : Bool} (h : Keeps z s)  :
    Keeps z (State.expand s host addr g x y told).1 := by
  unfold State.expand
  repeat' with_reducible first
    | assumption | apply State.readBlock_keeps | apply State.fetchBlock_keeps | apply Keeps.ite | apply Keeps.iteFst

theorem decompress_keeps {z : State} {x0 : ℕ} {x1 : ℕ} {x2 : FEntry} {x3 : State} (h : Keeps z x3)  :
    Keeps z (decompress x0 x1 x2 x3).1 := by
  unfold decompress
  repeat' with_reducible first
    | assumption | intro _ | extract_lets | exact BusKeeps.refl _ | apply checked_keeps | apply State.expand_keeps
    | apply done_keeps | apply State.writeAll_keeps | apply State.fetchBytes_keeps | apply Keeps.ite | apply Keeps.iteFst
    | apply Keeps.foldl | apply Keeps.foldlFst | apply BusKeeps.foldl | refine Keeps.ofPair ?_ ‹_› | split

theorem State.breakFill_keeps {z : State} {s : State} {n : ℕ} (h : Keeps z s)  :
    Keeps z (State.breakFill s n) := by
  unfold State.breakFill
  repeat' with_reducible first
    | assumption | exact BusKeeps.refl _ | apply State.setSrc_keeps | refine Keeps.ofPair ?_ ‹_› | split

theorem State.itemFails_keeps {z : State} {s : State} {n : ℕ} {alive : ℕ} (h : Keeps z s)  :
    Keeps z (State.itemFails s n alive) := by
  unfold State.itemFails
  repeat' with_reducible first
    | assumption | extract_lets | exact BusKeeps.refl _ | apply State.breakFill_keeps | apply State.setSrc_keeps
    | apply Keeps.ite | refine Keeps.ofPair ?_ ‹_› | split

theorem State.picRx_keeps {z : State} {s : State} {p : ℕ} {typ : ℕ} {kind : ℕ} {sync : Bool} {raw : List Byte} (h : Keeps z s)  :
    Keeps z (State.picRx s p typ kind sync raw).1 := by
  unfold State.picRx
  repeat' with_reducible first
    | assumption | extract_lets | exact BusKeeps.refl _ | apply State.receive_keeps | apply State.itemFails_keeps
    | apply State.creditTake_keeps | apply Keeps.ite | apply Keeps.iteFst | refine Keeps.ofPair ?_ ‹_› | split

theorem State.repeatPacket_keeps {z : State} {s : State} {p : ℕ} {pk : Pkt} (h : Keeps z s)  :
    Keeps z (State.repeatPacket s p pk) := by
  unfold State.repeatPacket
  repeat' with_reducible first
    | assumption | apply State.linkCull_keeps

theorem State.strayPacket_keeps {z : State} {s : State} {p : ℕ} {n : ℕ} {pk : Pkt} (h : Keeps z s)  :
    Keeps z (State.strayPacket s p n pk) := by
  unfold State.strayPacket
  repeat' with_reducible first
    | assumption | apply State.linkCull_keeps | apply State.breakFill_keeps | apply Keeps.ite

theorem State.openFill_keeps {z : State} {s : State} {n : ℕ} {pk : Pkt} {broken : Bool} (h : Keeps z s)  :
    Keeps z (State.openFill s n pk broken) := by
  unfold State.openFill
  repeat' with_reducible first
    | assumption | intro _ | extract_lets | exact BusKeeps.refl _ | apply State.setSrc_keeps | apply State.poolEmpty_keeps
    | apply State.moveBuf_keeps | refine Keeps.ofPair ?_ ‹_› | split

theorem State.signalTake_keeps {z : State} {s : State} {n : ℕ} {fence : ℕ} {value : ℕ} (h : Keeps z s)  :
    Keeps z (State.signalTake s n fence value) := by
  unfold State.signalTake
  repeat' with_reducible first
    | assumption | intro _ | extract_lets | exact BusKeeps.refl _ | apply State.onBus_keeps | apply Bus.fenceSignal_keeps
    | apply State.setSrc_keeps | apply Keeps.ite

theorem State.openItem_keeps {z : State} {s : State} {p : ℕ} {n : ℕ} {pk : Pkt} {broken : Bool} (h : Keeps z s)  :
    Keeps z (State.openItem s p n pk broken) := by
  unfold State.openItem
  repeat' with_reducible first
    | assumption | extract_lets | exact BusKeeps.refl _ | apply State.aliveCheck_keeps | apply State.openFill_keeps
    | apply State.abandon_keeps | apply State.breakFill_keeps | apply State.setSrc_keeps | refine Keeps.ofPair ?_ ‹_› | split

theorem State.rasterStart_keeps {z : State} {s : State} {p : ℕ} {sync : Bool} {raw : List Byte} (h : Keeps z s)  :
    Keeps z (State.rasterStart s p sync raw) := by
  unfold State.rasterStart
  repeat' with_reducible first
    | assumption | extract_lets | exact BusKeeps.refl _ | apply State.picRx_keeps | apply State.rxUnknown_keeps
    | apply State.abandon_keeps | apply State.signalsDue_keeps | apply State.openItem_keeps | apply Keeps.ite
    | refine Keeps.ofPair ?_ ‹_› | split

theorem State.rasterLine_keeps {z : State} {s : State} {p : ℕ} {sync : Bool} {raw : List Byte} (h : Keeps z s)  :
    Keeps z (State.rasterLine s p sync raw) := by
  unfold State.rasterLine
  repeat' with_reducible first
    | assumption | intro _ | extract_lets | exact BusKeeps.refl _ | apply State.picRx_keeps | apply State.rxUnknown_keeps
    | apply State.strayPacket_keeps | apply State.repeatPacket_keeps | apply State.breakFill_keeps
    | apply State.writeAll_keeps | apply State.setSrc_keeps | apply Keeps.ite | apply Keeps.iteFst
    | refine Keeps.ofPair ?_ ‹_› | split

theorem State.closeFill_keeps {z : State} {s : State} {n : ℕ} {p : ℕ} {f : FillSt} {pic : Option (List (List Byte))} {kept : List (Option ℕ)} {given : ℕ} {readFault : Bool} (h : Keeps z s)  :
    Keeps z (State.closeFill s n p f pic kept given readFault) := by
  unfold State.closeFill
  repeat' with_reducible first
    | assumption | intro _ | extract_lets | exact BusKeeps.refl _ | apply State.setSrc_keeps | apply State.finish_keeps
    | apply State.writeStore_keeps | apply Keeps.ite | apply Keeps.iteFst | refine Keeps.ofPair ?_ ‹_› | split

theorem State.rasterEnd_keeps {z : State} {s : State} {p : ℕ} {sync : Bool} {raw : List Byte} (h : Keeps z s)  :
    Keeps z (State.rasterEnd s p sync raw) := by
  unfold State.rasterEnd
  repeat' with_reducible first
    | assumption | intro _ | extract_lets | exact BusKeeps.refl _ | apply State.picRx_keeps | apply State.rxUnknown_keeps
    | apply State.strayPacket_keeps | apply State.signalsDue_keeps | apply State.closeFill_keeps | apply Keeps.ite
    | refine Keeps.ofPair ?_ ‹_› | split

theorem State.tileTake_keeps {z : State} {s : State} {p : ℕ} {n : ℕ} {pk : Pkt} (h : Keeps z s)  :
    Keeps z (State.tileTake s p n pk) := by
  unfold State.tileTake
  repeat' with_reducible first
    | assumption | intro _ | extract_lets | exact BusKeeps.refl _ | apply State.rxUnknown_keeps | apply State.openItem_keeps
    | apply State.repeatPacket_keeps | apply State.breakFill_keeps | apply State.setSrc_keeps | apply Keeps.ite
    | apply Keeps.iteFst | refine Keeps.ofPair ?_ ‹_› | split | dsimp only | dsimp +zetaDelta only

theorem State.damageTake_keeps {z : State} {s : State} {p : ℕ} {n : ℕ} {pk : Pkt} (h : Keeps z s)  :
    Keeps z (State.damageTake s p n pk) := by
  unfold State.damageTake
  repeat' with_reducible first
    | assumption | intro _ | extract_lets | exact BusKeeps.refl _ | apply State.rxUnknown_keeps | apply State.openItem_keeps
    | apply State.closeFill_keeps | apply State.fetchPicture_keeps | apply State.fetchBytes_keeps | apply Keeps.ite
    | apply Keeps.iteFst | refine Keeps.ofPair ?_ ‹_› | split | dsimp only | dsimp +zetaDelta only

theorem State.surfaceTake_keeps {z : State} {s : State} {p : ℕ} {n : ℕ} {pk : Pkt} (h : Keeps z s)  :
    Keeps z (State.surfaceTake s p n pk) := by
  unfold State.surfaceTake
  repeat' with_reducible first
    | assumption | extract_lets | exact BusKeeps.refl _ | apply State.damageTake_keeps | apply State.signalTake_keeps
    | apply State.breakFill_keeps | apply State.tileTake_keeps | apply State.signalsDue_keeps | apply Keeps.ite
    | refine Keeps.ofPair ?_ ‹_› | split | dsimp only | dsimp +zetaDelta only

theorem State.drainWaiting_keeps {z s : State} {fuel p n : Nat} (h : Keeps z s) : Keeps z (State.drainWaiting fuel s p n) := by
  induction fuel generalizing s with
  | zero => exact h
  | succ fuel ih =>
    unfold State.drainWaiting
    split
    · exact h
    · exact Keeps.ite h (ih (State.surfaceTake_keeps (State.setSrc_keeps h)))

theorem State.surfacePkt_keeps {z : State} {s : State} {p : ℕ} {n : ℕ} {pk : Pkt} (h : Keeps z s)  :
    Keeps z (State.surfacePkt s p n pk) := by
  unfold State.surfacePkt
  repeat' with_reducible first
    | assumption | intro _ | extract_lets | exact BusKeeps.refl _ | apply State.drainWaiting_keeps
    | apply State.poolNone_keeps | apply State.setSrc_keeps | apply State.surfaceTake_keeps | apply Keeps.ite

theorem State.fenceSignalRx_keeps {z : State} {s : State} {p : ℕ} {sync : Bool} {raw : List Byte} (h : Keeps z s)  :
    Keeps z (State.fenceSignalRx s p sync raw) := by
  unfold State.fenceSignalRx
  repeat' with_reducible first
    | assumption | intro _ | extract_lets | exact BusKeeps.refl _ | apply State.receiveItem_keeps
    | apply State.rxUnknown_keeps | apply State.onBus_keeps | apply Bus.fenceSignal_keeps | apply State.signalTake_keeps
    | apply State.setSrc_keeps | apply Keeps.ite | refine Keeps.ofPair ?_ ‹_› | split

theorem State.surfaceTile_keeps {z : State} {s : State} {p : ℕ} {sync : Bool} {raw : List Byte} (h : Keeps z s)  :
    Keeps z (State.surfaceTile s p sync raw) := by
  unfold State.surfaceTile
  repeat' with_reducible first
    | assumption | exact BusKeeps.refl _ | apply State.picRx_keeps | apply State.surfacePkt_keeps
    | refine Keeps.ofPair ?_ ‹_› | split

theorem State.damage_keeps {z : State} {s : State} {p : ℕ} {sync : Bool} {raw : List Byte} (h : Keeps z s)  :
    Keeps z (State.damage s p sync raw) := by
  unfold State.damage
  repeat' with_reducible first
    | assumption | exact BusKeeps.refl _ | apply State.picRx_keeps | apply State.surfacePkt_keeps
    | refine Keeps.ofPair ?_ ‹_› | split

theorem State.creditSend_keeps {z : State} {s : State} {p : ℕ} (h : Keeps z s)  :
    Keeps z (State.creditSend s p) := by
  unfold State.creditSend
  repeat' with_reducible first
    | assumption | intro _ | extract_lets | exact BusKeeps.refl _ | apply State.drainWaiting_keeps
    | apply State.poolNone_keeps | apply State.sendCredit_keeps | apply Keeps.ite | refine Keeps.ofPair ?_ ‹_› | split

theorem State.creditStop_keeps {z : State} {s : State} {p : ℕ} (h : Keeps z s)  :
    Keeps z (State.creditStop s p) := by
  unfold State.creditStop
  repeat' with_reducible first
    | assumption | extract_lets | exact BusKeeps.refl _ | apply State.sendCredit_keeps | apply State.setFld_keeps
    | apply State.setSrc_keeps | apply State.evalSource_keeps | apply State.signalsDue_keeps | apply State.abandon_keeps
    | apply Keeps.ite | refine Keeps.ofPair ?_ ‹_› | split

theorem State.creditResume_keeps {z : State} {s : State} {p : ℕ} (h : Keeps z s)  :
    Keeps z (State.creditResume s p) := by
  unfold State.creditResume
  repeat' with_reducible first
    | assumption | apply State.creditSend_keeps | apply State.setFld_keeps

theorem execSubmit_keeps {z : State} {r : ℕ} {k : ℕ} {s : State} (h : Keeps z s)  :
    AnswerKeeps z (execSubmit r k s) := by
  unfold execSubmit
  repeat' with_reducible first
    | assumption | intro _ | apply State.fabric_keeps | apply State.runCmd_keeps | apply submit_keeps

theorem execCompress_keeps {z : State} {r : ℕ} {k : ℕ} {s : State} (h : Keeps z s)  :
    AnswerKeeps z (execCompress r k s) := by
  unfold execCompress
  repeat' with_reducible first
    | assumption | intro _ | apply State.fabric_keeps | apply State.runCmd_keeps | apply compress_keeps

theorem execDecompress_keeps {z : State} {r : ℕ} {k : ℕ} {s : State} (h : Keeps z s)  :
    AnswerKeeps z (execDecompress r k s) := by
  unfold execDecompress
  repeat' with_reducible first
    | assumption | intro _ | apply State.fabric_keeps | apply State.runCmd_keeps | apply decompress_keeps

theorem execSourceStateEval_keeps {z : State} {n : ℕ} {s : State} (h : Keeps z s)  :
    AnswerKeeps z (execSourceStateEval n s) := by
  unfold execSourceStateEval
  repeat' with_reducible first
    | assumption | intro _ | apply State.fabric_keeps | apply State.evalSource_keeps

theorem execSrcCull_keeps {z : State} {n : ℕ} {s : State} (h : Keeps z s)  :
    AnswerKeeps z (execSrcCull n s) := by
  unfold execSrcCull
  repeat' with_reducible first
    | assumption | intro _ | apply State.fabric_keeps | apply State.srcCull_keeps

theorem execTestPatternRegen_keeps {z : State} {n : ℕ} {s : State} (h : Keeps z s)  :
    AnswerKeeps z (execTestPatternRegen n s) := by
  unfold execTestPatternRegen
  repeat' with_reducible first
    | assumption | intro _ | apply State.fabric_keeps | apply State.testRegen_keeps

theorem execRasterFrameStartRx_keeps {z : State} {p : ℕ} {skew : List ℕ} {lines : List (List Bool)} {s : State} (h : Keeps z s)  :
    AnswerKeeps z (execRasterFrameStartRx p skew lines s) := by
  unfold execRasterFrameStartRx
  repeat' with_reducible first
    | assumption | intro _ | apply State.fabric_keeps | apply State.arrives_keeps | apply State.rasterStart_keeps

theorem execRasterLineRx_keeps {z : State} {p : ℕ} {skew : List ℕ} {lines : List (List Bool)} {s : State} (h : Keeps z s)  :
    AnswerKeeps z (execRasterLineRx p skew lines s) := by
  unfold execRasterLineRx
  repeat' with_reducible first
    | assumption | intro _ | apply State.fabric_keeps | apply State.arrives_keeps | apply State.rasterLine_keeps

theorem execRasterFrameEndRx_keeps {z : State} {p : ℕ} {skew : List ℕ} {lines : List (List Bool)} {s : State} (h : Keeps z s)  :
    AnswerKeeps z (execRasterFrameEndRx p skew lines s) := by
  unfold execRasterFrameEndRx
  repeat' with_reducible first
    | assumption | intro _ | apply State.fabric_keeps | apply State.arrives_keeps | apply State.rasterEnd_keeps

theorem execSurfaceTileRx_keeps {z : State} {p : ℕ} {skew : List ℕ} {lines : List (List Bool)} {s : State} (h : Keeps z s)  :
    AnswerKeeps z (execSurfaceTileRx p skew lines s) := by
  unfold execSurfaceTileRx
  repeat' with_reducible first
    | assumption | intro _ | apply State.fabric_keeps | apply State.arrives_keeps | apply State.surfaceTile_keeps

theorem execDamageRx_keeps {z : State} {p : ℕ} {skew : List ℕ} {lines : List (List Bool)} {s : State} (h : Keeps z s)  :
    AnswerKeeps z (execDamageRx p skew lines s) := by
  unfold execDamageRx
  repeat' with_reducible first
    | assumption | intro _ | apply State.fabric_keeps | apply State.arrives_keeps | apply State.damage_keeps

theorem execFenceSignalRx_keeps {z : State} {p : ℕ} {skew : List ℕ} {lines : List (List Bool)} {s : State} (h : Keeps z s)  :
    AnswerKeeps z (execFenceSignalRx p skew lines s) := by
  unfold execFenceSignalRx
  repeat' with_reducible first
    | assumption | intro _ | apply State.fabric_keeps | apply State.arrives_keeps | apply State.fenceSignalRx_keeps

theorem execCreditSend_keeps {z : State} {p : ℕ} {s : State} (h : Keeps z s)  :
    AnswerKeeps z (execCreditSend p s) := by
  unfold execCreditSend
  repeat' with_reducible first
    | assumption | intro _ | apply State.fabric_keeps | apply State.creditSend_keeps

end Sys2Proof.Machine
end

