-- ==== Sys2Proof/Laws/KeepsDecoding.lean ====
section
/-! SUPPORT. What the operations and commands of Machine/Decoding.lean keep: one law each. -/

namespace Sys2Proof.Machine

theorem State.setDec_keeps {z : State} {s : State} {n : ℕ} {x : DecSt} (h : Keeps z s)  :
    Keeps z (State.setDec s n x) := by
  unfold State.setDec
  repeat' with_reducible first
    | assumption | exact BusKeeps.refl _ | (fail_if_no_progress apply Keeps.mk')

theorem State.setCore_keeps {z : State} {s : State} {c : ℕ} {x : Option CoreSt} (h : Keeps z s)  :
    Keeps z (State.setCore s c x) := by
  unfold State.setCore
  repeat' with_reducible first
    | assumption | exact BusKeeps.refl _ | (fail_if_no_progress apply Keeps.mk')

theorem State.codingRec_keeps {z : State} {s : State} {cap : ℕ} {inst : ℕ} {what : ℕ} {core : ℕ} {alive : ℕ} {tag : ℕ} {t : Word} (h : Keeps z s)  :
    Keeps z (State.codingRec s cap inst what core alive tag t) := by
  unfold State.codingRec
  repeat' with_reducible first
    | assumption | apply State.journalAt_keeps

theorem State.streamBind_keeps {z : State} {s : State} {n : ℕ} (h : Keeps z s)  :
    Keeps z (State.streamBind s n) := by
  unfold State.streamBind
  repeat' with_reducible first
    | assumption | intro _ | extract_lets | exact BusKeeps.refl _ | apply State.onBus_keeps | apply Bus.startFailed_keeps
    | apply State.codingRec_keeps | apply State.setReg_keeps | apply State.setDec_keeps | apply State.emit_keeps
    | apply Bus.enter_keeps | apply State.evalSource_keeps | apply Keeps.ite | refine Keeps.ofPair ?_ ‹_› | split

theorem State.streamError_keeps {z : State} {s : State} {n : ℕ} {kind : ℕ} {concealed : ℕ} {alive : ℕ} {tag : ℕ} (h : Keeps z s)  :
    Keeps z (State.streamError s n kind concealed alive tag) := by
  unfold State.streamError
  repeat' with_reducible first
    | assumption | extract_lets | exact BusKeeps.refl _ | apply State.emit_keeps | apply State.setDec_keeps | apply Keeps.ite

theorem State.refMissing_keeps {z : State} {s : State} {n : ℕ} {missed : ℕ} {subst : ℕ} (h : Keeps z s)  :
    Keeps z (State.refMissing s n missed subst) := by
  unfold State.refMissing
  repeat' with_reducible first
    | assumption | extract_lets | exact BusKeeps.refl _ | apply State.emit_keeps | apply State.setDec_keeps | apply Keeps.ite

theorem State.setSync_keeps {z : State} {s : State} {n : ℕ} {st : ℕ} (h : Keeps z s)  :
    Keeps z (State.setSync s n st) := by
  unfold State.setSync
  repeat' with_reducible first
    | assumption | apply State.setFld_keeps

theorem State.showPending_keeps {z : State} {s : State} {n : ℕ} (h : Keeps z s)  :
    Keeps z (State.showPending s n) := by
  unfold State.showPending
  repeat' with_reducible first
    | assumption | intro _ | apply State.setFld_keeps | apply Keeps.forEach

theorem State.setMark_keeps {z : State} {s : State} {n : ℕ} {b : ℕ} {m : ℕ} (h : Keeps z s)  :
    Keeps z (State.setMark s n b m) := by
  unfold State.setMark
  repeat' with_reducible first
    | assumption | apply State.setFld_keeps

theorem State.outputPic_keeps {z : State} {s : State} {n : ℕ} {d : DpbEnt} (h : Keeps z s)  :
    Keeps z (State.outputPic s n d) := by
  unfold State.outputPic
  repeat' with_reducible first
    | assumption | intro _ | exact BusKeeps.refl _ | apply State.setDec_keeps | apply State.bump_keeps
    | apply State.finish_keeps

theorem State.bumpOut_keeps {z s : State} {m n k : Nat} (h : Keeps z s) : Keeps z (State.bumpOut m s n k) := by
  induction m generalizing s with
  | zero => exact h
  | succ m ih =>
    unfold State.bumpOut
    extract_lets l
    refine Keeps.ite h ?_
    split
    · exact h
    · exact ih (State.outputPic_keeps h)

theorem State.flushOut_keeps {z : State} {s : State} {n : ℕ} (h : Keeps z s)  :
    Keeps z (State.flushOut s n) := by
  unfold State.flushOut
  repeat' with_reducible first
    | assumption | apply State.showPending_keeps | apply State.bumpOut_keeps

theorem State.prune_keeps {z : State} {s : State} {n : ℕ} (h : Keeps z s)  :
    Keeps z (State.prune s n) := by
  unfold State.prune
  repeat' with_reducible first
    | assumption | intro _ | extract_lets | exact BusKeeps.refl _ | apply State.setDec_keeps

theorem State.unsync_keeps {z : State} {s : State} {n : ℕ} {st : ℕ} (h : Keeps z s)  :
    Keeps z (State.unsync s n st) := by
  unfold State.unsync
  repeat' with_reducible first
    | assumption | apply State.prune_keeps | apply State.setFld_keeps | apply State.setSync_keeps
    | apply State.flushOut_keeps

theorem State.showSps_keeps {z : State} {s : State} {n : ℕ} {p : SpsInfo} (h : Keeps z s)  :
    Keeps z (State.showSps s n p) := by
  unfold State.showSps
  repeat' with_reducible first
    | assumption | apply State.setFld_keeps

theorem State.reject_keeps {z : State} {s : State} {n : ℕ} {i : AuInfo} {reason : ℕ} {tag : ℕ} (h : Keeps z s)  :
    Keeps z (State.reject s n i reason tag) := by
  unfold State.reject
  repeat' with_reducible first
    | assumption | extract_lets | apply State.setFld_keeps | apply State.unsync_keeps | apply State.emit_keeps

theorem State.discard_keeps {z : State} {s : State} {n : ℕ} {r : ℕ} {k : ℕ} {fault : ℕ} {reason : ℕ} (h : Keeps z s)  :
    Keeps z (State.discard s n r k fault reason) := by
  unfold State.discard
  repeat' with_reducible first
    | assumption | exact BusKeeps.refl _ | apply State.complete_keeps | apply State.bump_keeps | refine Keeps.ofPair ?_ ‹_›
    | split

theorem State.endStream_keeps {z : State} {s : State} {n : ℕ} (h : Keeps z s)  :
    Keeps z (State.endStream s n) := by
  unfold State.endStream
  repeat' with_reducible first
    | assumption | apply State.unsync_keeps | apply Keeps.ite

theorem State.countWaits_keeps {z : State} {s : State} {c : ℕ} (h : Keeps z s)  :
    Keeps z (State.countWaits s c) := by
  unfold State.countWaits
  repeat' with_reducible first
    | assumption | intro _ | extract_lets | apply State.setFld_keeps | apply State.bump_keeps | apply Keeps.ite
    | apply Keeps.forEach

theorem State.coreTake_keeps {z : State} {s : State} {c : ℕ} {n : ℕ} {r : ℕ} {e : FEntry} {i : AuInfo} {fault : ℕ} (h : Keeps z s)  :
    Keeps z (State.coreTake s c n r e i fault) := by
  unfold State.coreTake
  repeat' with_reducible first
    | assumption | intro _ | extract_lets | exact BusKeeps.refl _ | apply State.onBus_keeps | apply State.moveBuf_keeps
    | apply Bus.setPhase_keeps | apply State.showSps_keeps | apply State.setDec_keeps | apply State.setCore_keeps
    | apply Keeps.ite | refine Keeps.ofPair ?_ ‹_› | split

theorem State.readUnit_keeps {z : State} {s : State} {c : ℕ} {e : FEntry} (h : Keeps z s)  :
    Keeps z (State.readUnit s c e).1 := by
  unfold State.readUnit
  repeat' with_reducible first
    | assumption | exact BusKeeps.refl _ | apply State.load_keeps | refine Keeps.ofPair ?_ ‹_› | split

theorem State.unitDamage_keeps {z : State} {s : State} {n : ℕ} {i : AuInfo} {gap : Bool} {fault : ℕ} {alive : ℕ} {tag : ℕ} (h : Keeps z s)  :
    Keeps z (State.unitDamage s n i gap fault alive tag) := by
  unfold State.unitDamage
  repeat' with_reducible first
    | assumption | intro _ | extract_lets | apply State.streamError_keeps | apply State.setSync_keeps | apply Keeps.ite
    | apply Keeps.forEach

theorem State.startUnit_keeps {z : State} {s : State} {c : ℕ} {n : ℕ} {e : FEntry} {i : AuInfo} (h : Keeps z s)  :
    Keeps z (State.startUnit s c n e i) := by
  unfold State.startUnit
  repeat' with_reducible first
    | assumption | intro _ | extract_lets | exact BusKeeps.refl _ | apply State.journal_keeps | apply State.complete_keeps
    | apply State.readUnit_keeps | apply State.endStream_keeps | apply State.discard_keeps | apply State.showSps_keeps
    | apply State.setFld_keeps | apply State.reject_keeps | apply State.unitDamage_keeps | apply State.emit_keeps
    | apply State.setDec_keeps | apply State.setSync_keeps | apply State.bump_keeps | apply State.codingRec_keeps
    | apply State.coreTake_keeps | apply Keeps.ite | refine Keeps.ofPair ?_ ‹_› | split | dsimp only | dsimp +zetaDelta only
    | (fail_if_no_progress apply Keeps.mk')

theorem State.pictureStart_keeps {z : State} {s : State} {c : ℕ} {i : AuInfo} (h : Keeps z s)  :
    Keeps z (State.pictureStart s c i) := by
  unfold State.pictureStart
  repeat' with_reducible first
    | assumption | extract_lets | exact BusKeeps.refl _ | apply State.countWaits_keeps | apply State.startUnit_keeps
    | apply Keeps.ite | refine Keeps.ofPair ?_ ‹_› | split

theorem State.takeMarks_keeps {z : State} {s : State} {n : ℕ} {own : ℕ} {irap : Bool} {o : PicObs} (h : Keeps z s)  :
    Keeps z (State.takeMarks s n own irap o) := by
  unfold State.takeMarks
  repeat' with_reducible first
    | assumption | intro _ | extract_lets | apply State.setMark_keeps | apply Keeps.ite | apply Keeps.forEach

theorem State.countLuma_keeps {z : State} {s : State} {n : ℕ} {k : ℕ} (h : Keeps z s)  :
    Keeps z (State.countLuma s n k) := by
  unfold State.countLuma
  repeat' with_reducible first
    | assumption | extract_lets | exact BusKeeps.refl _ | apply State.setDec_keeps | apply State.setReg_keeps
    | apply Keeps.ite

theorem State.freeCore_keeps {z : State} {s : State} {c : ℕ} (h : Keeps z s)  :
    Keeps z (State.freeCore s c) := by
  unfold State.freeCore
  repeat' with_reducible first
    | assumption | exact BusKeeps.refl _ | apply State.setCore_keeps | (fail_if_no_progress apply Keeps.mk')

theorem State.refReads_keeps {z : State} {s : State} {c : ℕ} {n : ℕ} {o : PicObs} (h : Keeps z s)  :
    Keeps z (State.refReads s c n o).1 := by
  unfold State.refReads
  repeat' with_reducible first
    | assumption | intro _ | exact BusKeeps.refl _ | apply State.fetchBlock_keeps | apply Keeps.foldl | apply Keeps.foldlFst
    | apply BusKeeps.foldl | refine Keeps.ofPair ?_ ‹_› | split

theorem State.picBlock_keeps {z : State} {s : State} {c : ℕ} {x : CoreSt} {o : PicObs} {bx : ℕ} {bY : ℕ} (h : Keeps z s)  :
    Keeps z (State.picBlock s c x o bx bY).1 := by
  unfold State.picBlock
  repeat' with_reducible first
    | assumption | extract_lets | exact BusKeeps.refl _ | apply State.fetchBlock_keeps | apply Keeps.ite | apply Keeps.iteFst
    | refine Keeps.ofPair ?_ ‹_› | split

theorem State.picRows_keeps {z : State} {s : State} {c : ℕ} {x : CoreSt} {o : PicObs} (h : Keeps z s)  :
    Keeps z (State.picRows s c x o).1 := by
  unfold State.picRows
  repeat' with_reducible first
    | assumption | intro _ | extract_lets | exact BusKeeps.refl _ | apply State.picBlock_keeps | apply Keeps.foldl
    | apply Keeps.foldlFst

theorem State.picErrors_keeps {z : State} {s : State} {x : CoreSt} {o : PicObs} {t : PicMet} (h : Keeps z s)  :
    Keeps z (State.picErrors s x o t) := by
  unfold State.picErrors
  repeat' with_reducible first
    | assumption | intro _ | extract_lets | apply State.refMissing_keeps | apply State.bump_keeps
    | apply State.streamError_keeps | apply Keeps.forEach

theorem State.picSync_keeps {z : State} {s : State} {x : CoreSt} {o : PicObs} {t : PicMet} {st : ℕ} (h : Keeps z s)  :
    Keeps z (State.picSync s x o t st) := by
  unfold State.picSync
  repeat' with_reducible first
    | assumption | extract_lets | exact BusKeeps.refl _ | apply State.setSync_keeps | apply State.emit_keeps
    | apply State.setDec_keeps | apply Keeps.ite

theorem State.picStore_keeps {z : State} {s : State} {x : CoreSt} {o : PicObs} {t : PicMet} {rows : List (List Byte)} {wrote : Bool} {tainted : Bool} {shown : Bool} (h : Keeps z s)  :
    Keeps z (State.picStore s x o t rows wrote tainted shown) := by
  unfold State.picStore
  repeat' with_reducible first
    | assumption | intro _ | extract_lets | exact BusKeeps.refl _ | apply State.setDec_keeps | apply State.takeMarks_keeps
    | apply State.moveBuf_keeps | apply Keeps.ite

theorem State.picShow_keeps {z : State} {s : State} {x : CoreSt} {o : PicObs} {t : PicMet} {tainted : Bool} {held : Bool} (h : Keeps z s)  :
    Keeps z (State.picShow s x o t tainted held) := by
  unfold State.picShow
  repeat' with_reducible first
    | assumption | extract_lets | apply State.emit_keeps | apply State.bump_keeps | apply State.setFld_keeps
    | apply State.setReg_keeps | apply Keeps.ite

theorem State.picComplete_keeps {z : State} {s : State} {x : CoreSt} {r : ℕ} {o : PicObs} (h : Keeps z s)  :
    Keeps z (State.picComplete s x r o) := by
  unfold State.picComplete
  repeat' with_reducible first
    | assumption | extract_lets | apply State.bumpOut_keeps | apply State.endStream_keeps | apply State.countLuma_keeps
    | apply State.prune_keeps | apply State.showPending_keeps | apply State.bump_keeps | apply State.complete_keeps
    | apply Keeps.ite

theorem State.picTake_keeps {z : State} {s : State} {x : CoreSt} {r : ℕ} {o : PicObs} {t : PicMet} {rows : List (List Byte)} {wrote : Bool} (h : Keeps z s)  :
    Keeps z (State.picTake s x r o t rows wrote) := by
  unfold State.picTake
  repeat' with_reducible first
    | assumption | extract_lets | apply State.picSync_keeps | apply State.picErrors_keeps | apply State.flushOut_keeps
    | apply State.picStore_keeps | apply State.picComplete_keeps | apply State.picShow_keeps | apply Keeps.ite

theorem State.pictureEnd_keeps {z : State} {s : State} {c : ℕ} {o : PicObs} (h : Keeps z s)  :
    Keeps z (State.pictureEnd s c o) := by
  unfold State.pictureEnd
  repeat' with_reducible first
    | assumption | extract_lets | exact BusKeeps.refl _ | apply State.refReads_keeps | apply State.freeCore_keeps
    | apply State.picRows_keeps | apply State.writePicture_keeps | apply State.picTake_keeps | refine Keeps.ofPair ?_ ‹_›
    | split

theorem State.streamOff_keeps {z : State} {s : State} {n : ℕ} (h : Keeps z s)  :
    Keeps z (State.streamOff s n) := by
  unfold State.streamOff
  repeat' with_reducible first
    | assumption | intro _ | extract_lets | exact BusKeeps.refl _ | apply State.complete_keeps | apply State.setCore_keeps
    | apply State.cull_keeps | apply State.setReg_keeps | apply State.setDec_keeps | apply State.evalSource_keeps
    | apply Keeps.ite | apply Keeps.forEach | refine Keeps.ofPair ?_ ‹_› | split

theorem State.fillLimit_keeps {z : State} {s : State} {n : ℕ} (h : Keeps z s)  :
    Keeps z (State.fillLimit s n) := by
  unfold State.fillLimit
  repeat' with_reducible first
    | assumption | intro _ | extract_lets | exact BusKeeps.refl _ | apply State.fillTimeout_keeps | apply State.cull_keeps
    | apply State.setWb_keeps | apply State.setDec_keeps | apply State.showPending_keeps | apply State.setCore_keeps
    | apply Keeps.ite | apply Keeps.forEach | refine Keeps.ofPair ?_ ‹_› | split | dsimp only | dsimp +zetaDelta only

theorem execFillTimeout_keeps {z : State} {n : ℕ} {s : State} (h : Keeps z s)  :
    AnswerKeeps z (execFillTimeout n s) := by
  unfold execFillTimeout
  repeat' with_reducible first
    | assumption | intro _ | apply State.fabric_keeps | apply State.fillLimit_keeps

theorem execDecodeStreamBind_keeps {z : State} {n : ℕ} {s : State} (h : Keeps z s)  :
    AnswerKeeps z (execDecodeStreamBind n s) := by
  unfold execDecodeStreamBind
  repeat' with_reducible first
    | assumption | intro _ | apply State.fabric_keeps | apply State.streamBind_keeps

theorem execDecodePictureStart_keeps {z : State} {c : ℕ} {i : AuInfo} {s : State} (h : Keeps z s)  :
    AnswerKeeps z (execDecodePictureStart c i s) := by
  unfold execDecodePictureStart
  repeat' with_reducible first
    | assumption | intro _ | apply State.fabric_keeps | apply State.pictureStart_keeps

theorem execDecodePictureEnd_keeps {z : State} {c : ℕ} {o : PicObs} {s : State} (h : Keeps z s)  :
    AnswerKeeps z (execDecodePictureEnd c o s) := by
  unfold execDecodePictureEnd
  repeat' with_reducible first
    | assumption | intro _ | apply State.fabric_keeps | apply State.pictureEnd_keeps

end Sys2Proof.Machine
end

