-- ==== Sys2Proof/Laws/KeepsLayers.lean ====
section
/-! SUPPORT. What the operations and commands of Machine/Layers.lean keep: one law each. -/

namespace Sys2Proof.Machine

theorem State.setHead_keeps {z : State} {s : State} {h_1 : ℕ} {x : HeadSt} (h : Keeps z s)  :
    Keeps z (State.setHead s h_1 x) := by
  unfold State.setHead
  repeat' with_reducible first
    | assumption | exact BusKeeps.refl _ | (fail_if_no_progress apply Keeps.mk')

theorem State.setLayer_keeps {z : State} {s : State} {h_1 : ℕ} {l : ℕ} {c : LayerCfg} (h : Keeps z s)  :
    Keeps z (State.setLayer s h_1 l c) := by
  unfold State.setLayer
  repeat' with_reducible first
    | assumption | extract_lets | apply State.setReg_keeps | apply State.setFld_keeps

theorem layerSet_keeps {z : State} {x0 : ℕ} {x1 : ℕ} {x2 : FEntry} {x3 : State} (h : Keeps z x3)  :
    Keeps z (layerSet x0 x1 x2 x3).1 := by
  unfold layerSet
  repeat' with_reducible first
    | assumption | intro _ | extract_lets | exact BusKeeps.refl _ | apply checked_keeps | apply done_keeps
    | apply State.setHead_keeps | apply Keeps.ite | split

theorem layerFence_keeps {z : State} {x0 : ℕ} {x1 : ℕ} {x2 : FEntry} {x3 : State} (h : Keeps z x3)  :
    Keeps z (layerFence x0 x1 x2 x3).1 := by
  unfold layerFence
  repeat' with_reducible first
    | assumption | intro _ | extract_lets | exact BusKeeps.refl _ | apply checked_keeps | apply done_keeps
    | apply State.setHead_keeps

theorem loadCoeff_keeps {z : State} {x0 : ℕ} {x1 : ℕ} {x2 : FEntry} {x3 : State} (h : Keeps z x3)  :
    Keeps z (loadCoeff x0 x1 x2 x3).1 := by
  unfold loadCoeff
  repeat' with_reducible first
    | assumption | intro _ | extract_lets | exact BusKeeps.refl _ | apply checked_keeps | apply done_keeps
    | apply State.bump_keeps | apply State.load_keeps | apply State.setHead_keeps | apply Keeps.ite
    | refine Keeps.ofPair ?_ ‹_› | split

theorem readCoeff_keeps {z : State} {x0 : ℕ} {x1 : ℕ} {x2 : FEntry} {x3 : State} (h : Keeps z x3)  :
    Keeps z (readCoeff x0 x1 x2 x3).1 := by
  unfold readCoeff
  repeat' with_reducible first
    | assumption | intro _ | exact BusKeeps.refl _ | apply checked_keeps | apply State.store_keeps | apply done_keeps
    | refine Keeps.ofPair ?_ ‹_› | split

theorem cursorLoad_keeps {z : State} {x0 : ℕ} {x1 : ℕ} {x2 : FEntry} {x3 : State} (h : Keeps z x3)  :
    Keeps z (cursorLoad x0 x1 x2 x3).1 := by
  unfold cursorLoad
  repeat' with_reducible first
    | assumption | intro _ | extract_lets | exact BusKeeps.refl _ | apply checked_keeps | apply State.fetchRows_keeps
    | apply done_keeps | apply State.setHead_keeps | refine Keeps.ofPair ?_ ‹_› | split

theorem commit_keeps {z : State} {x0 : ℕ} {x1 : ℕ} {x2 : FEntry} {x3 : State} (h : Keeps z x3)  :
    Keeps z (commit x0 x1 x2 x3).1 := by
  unfold commit
  repeat' with_reducible first
    | assumption | intro _ | extract_lets | exact BusKeeps.refl _ | apply checked_keeps | apply done_keeps
    | apply State.setFld_keeps | apply State.setHead_keeps | apply Keeps.ite | split

theorem State.cursorPosWrite_keeps {z : State} {s : State} {host : ℕ} {h_2 : ℕ} {v : Word} (h : Keeps z s)  :
    Keeps z (State.cursorPosWrite s host h_2 v) := by
  unfold State.cursorPosWrite
  repeat' with_reducible first
    | assumption | intro _ | exact BusKeeps.refl _ | apply State.hostWrite_keeps | apply State.setHead_keeps
    | apply State.setReg_keeps

theorem State.cursorHidden_keeps {z : State} {s : State} {h_1 : ℕ} (h : Keeps z s)  :
    Keeps z (State.cursorHidden s h_1) := by
  unfold State.cursorHidden
  repeat' with_reducible first
    | assumption | extract_lets | exact BusKeeps.refl _ | apply State.emit_keeps | apply State.setHead_keeps
    | apply Keeps.ite

theorem limitSet_keeps {z : State} {x0 : ℕ} {x1 : ℕ} {x2 : FEntry} {x3 : State} (h : Keeps z x3)  :
    Keeps z (limitSet x0 x1 x2 x3).1 := by
  unfold limitSet
  repeat' with_reducible first
    | assumption | intro _ | extract_lets | exact BusKeeps.refl _ | apply checked_keeps | apply done_keeps
    | apply State.setHead_keeps | apply Keeps.ite | apply Keeps.iteFst

theorem policySet_keeps {z : State} {x0 : ℕ} {x1 : ℕ} {x2 : FEntry} {x3 : State} (h : Keeps z x3)  :
    Keeps z (policySet x0 x1 x2 x3).1 := by
  unfold policySet
  repeat' with_reducible first
    | assumption | intro _ | extract_lets | exact BusKeeps.refl _ | apply checked_keeps | apply done_keeps
    | apply State.setHead_keeps

theorem rearm_keeps {z : State} {x0 : ℕ} {x1 : ℕ} {x2 : FEntry} {x3 : State} (h : Keeps z x3)  :
    Keeps z (rearm x0 x1 x2 x3).1 := by
  unfold rearm
  repeat' with_reducible first
    | assumption | intro _ | extract_lets | exact BusKeeps.refl _ | apply checked_keeps | apply done_keeps
    | apply State.setHead_keeps | apply State.emit_keeps | apply State.setFld_keeps | apply Keeps.ite
    | refine Keeps.ofPair ?_ ‹_› | split

theorem State.setMode_keeps {z : State} {s : State} {h_1 : ℕ} {m : ModeSt} {half : Bool} (h : Keeps z s)  :
    Keeps z (State.setMode s h_1 m half) := by
  unfold State.setMode
  repeat' with_reducible first
    | assumption | extract_lets | exact BusKeeps.refl _ | apply State.setHead_keeps | apply State.setReg_keeps

theorem modeCommit_keeps {z : State} {x0 : ℕ} {x1 : ℕ} {x2 : FEntry} {x3 : State} (h : Keeps z x3)  :
    Keeps z (modeCommit x0 x1 x2 x3).1 := by
  unfold modeCommit
  repeat' with_reducible first
    | assumption | intro _ | extract_lets | exact BusKeeps.refl _ | apply done_keeps | apply checked_keeps
    | apply State.setFld_keeps | apply State.setHead_keeps | apply State.setMode_keeps | apply Keeps.ite
    | refine Keeps.ofPair ?_ ‹_› | split

theorem lutLoad_keeps {z : State} {x0 : ℕ} {x1 : ℕ} {x2 : FEntry} {x3 : State} (h : Keeps z x3)  :
    Keeps z (lutLoad x0 x1 x2 x3).1 := by
  unfold lutLoad
  repeat' with_reducible first
    | assumption | intro _ | extract_lets | exact BusKeeps.refl _ | apply checked_keeps | apply State.load_keeps
    | apply done_keeps | apply State.setHead_keeps | refine Keeps.ofPair ?_ ‹_› | split

theorem lutRead_keeps {z : State} {x0 : ℕ} {x1 : ℕ} {x2 : FEntry} {x3 : State} (h : Keeps z x3)  :
    Keeps z (lutRead x0 x1 x2 x3).1 := by
  unfold lutRead
  repeat' with_reducible first
    | assumption | intro _ | extract_lets | exact BusKeeps.refl _ | apply checked_keeps | apply State.store_keeps
    | apply done_keeps | apply Keeps.ite | refine Keeps.ofPair ?_ ‹_› | split

theorem State.headFrameRead_keeps {z : State} {s : State} {port : ℕ} {h_2 : ℕ} {time : Bool} (h : Keeps z s)  :
    Keeps z (State.headFrameRead s port h_2 time) := by
  unfold State.headFrameRead
  repeat' with_reducible first
    | assumption | apply State.thaw_keeps | apply State.answer_keeps | apply State.freeze_keeps | apply Keeps.ite

theorem execLayerSet_keeps {z : State} {r : ℕ} {k : ℕ} {s : State} (h : Keeps z s)  :
    AnswerKeeps z (execLayerSet r k s) := by
  unfold execLayerSet
  repeat' with_reducible first
    | assumption | intro _ | apply State.fabric_keeps | apply State.runCmd_keeps | apply layerSet_keeps

theorem execLayerFence_keeps {z : State} {r : ℕ} {k : ℕ} {s : State} (h : Keeps z s)  :
    AnswerKeeps z (execLayerFence r k s) := by
  unfold execLayerFence
  repeat' with_reducible first
    | assumption | intro _ | apply State.fabric_keeps | apply State.runCmd_keeps | apply layerFence_keeps

theorem execLoadCoeff_keeps {z : State} {r : ℕ} {k : ℕ} {s : State} (h : Keeps z s)  :
    AnswerKeeps z (execLoadCoeff r k s) := by
  unfold execLoadCoeff
  repeat' with_reducible first
    | assumption | intro _ | apply State.fabric_keeps | apply State.runCmd_keeps | apply loadCoeff_keeps

theorem execReadCoeff_keeps {z : State} {r : ℕ} {k : ℕ} {s : State} (h : Keeps z s)  :
    AnswerKeeps z (execReadCoeff r k s) := by
  unfold execReadCoeff
  repeat' with_reducible first
    | assumption | intro _ | apply State.fabric_keeps | apply State.runCmd_keeps | apply readCoeff_keeps

theorem execCursorLoad_keeps {z : State} {r : ℕ} {k : ℕ} {s : State} (h : Keeps z s)  :
    AnswerKeeps z (execCursorLoad r k s) := by
  unfold execCursorLoad
  repeat' with_reducible first
    | assumption | intro _ | apply State.fabric_keeps | apply State.runCmd_keeps | apply cursorLoad_keeps

theorem execCommit_keeps {z : State} {r : ℕ} {k : ℕ} {s : State} (h : Keeps z s)  :
    AnswerKeeps z (execCommit r k s) := by
  unfold execCommit
  repeat' with_reducible first
    | assumption | intro _ | apply State.fabric_keeps | apply State.runCmd_keeps | apply commit_keeps

theorem execCursorPosWrite_keeps {z : State} {host : ℕ} {h_1 : ℕ} {v : Word} {s : State} (h : Keeps z s)  :
    AnswerKeeps z (execCursorPosWrite host h_1 v s) := by
  unfold execCursorPosWrite
  repeat' with_reducible first
    | assumption | intro _ | apply State.fabric_keeps | apply State.cursorPosWrite_keeps

theorem execCursorHidden_keeps {z : State} {h_0 : ℕ} {s : State} (h : Keeps z s)  :
    AnswerKeeps z (execCursorHidden h_0 s) := by
  unfold execCursorHidden
  repeat' with_reducible first
    | assumption | intro _ | apply State.fabric_keeps | apply State.cursorHidden_keeps

theorem execLimitSet_keeps {z : State} {r : ℕ} {k : ℕ} {s : State} (h : Keeps z s)  :
    AnswerKeeps z (execLimitSet r k s) := by
  unfold execLimitSet
  repeat' with_reducible first
    | assumption | intro _ | apply State.fabric_keeps | apply State.runCmd_keeps | apply limitSet_keeps

theorem execPolicySet_keeps {z : State} {r : ℕ} {k : ℕ} {s : State} (h : Keeps z s)  :
    AnswerKeeps z (execPolicySet r k s) := by
  unfold execPolicySet
  repeat' with_reducible first
    | assumption | intro _ | apply State.fabric_keeps | apply State.runCmd_keeps | apply policySet_keeps

theorem execRearm_keeps {z : State} {r : ℕ} {k : ℕ} {s : State} (h : Keeps z s)  :
    AnswerKeeps z (execRearm r k s) := by
  unfold execRearm
  repeat' with_reducible first
    | assumption | intro _ | apply State.fabric_keeps | apply State.runCmd_keeps | apply rearm_keeps

theorem execModeCommit_keeps {z : State} {r : ℕ} {k : ℕ} {s : State} (h : Keeps z s)  :
    AnswerKeeps z (execModeCommit r k s) := by
  unfold execModeCommit
  repeat' with_reducible first
    | assumption | intro _ | apply State.fabric_keeps | apply State.runCmd_keeps | apply modeCommit_keeps

theorem execLutLoad_keeps {z : State} {r : ℕ} {k : ℕ} {s : State} (h : Keeps z s)  :
    AnswerKeeps z (execLutLoad r k s) := by
  unfold execLutLoad
  repeat' with_reducible first
    | assumption | intro _ | apply State.fabric_keeps | apply State.runCmd_keeps | apply lutLoad_keeps

theorem execLutRead_keeps {z : State} {r : ℕ} {k : ℕ} {s : State} (h : Keeps z s)  :
    AnswerKeeps z (execLutRead r k s) := by
  unfold execLutRead
  repeat' with_reducible first
    | assumption | intro _ | apply State.fabric_keeps | apply State.runCmd_keeps | apply lutRead_keeps

theorem execHeadFrameRead_keeps {z : State} {port : ℕ} {h_1 : ℕ} {time : Bool} {s : State} (h : Keeps z s)  :
    AnswerKeeps z (execHeadFrameRead port h_1 time s) := by
  unfold execHeadFrameRead
  repeat' with_reducible first
    | assumption | intro _ | apply State.fabric_keeps | apply State.headFrameRead_keeps

end Sys2Proof.Machine
end

