-- ==== Sys2Proof/Laws/KeepsRerun.lean ====
section
/-! SUPPORT. What the operations and commands of Machine/Rerun.lean keep: one law each. -/

namespace Sys2Proof.Machine

theorem State.setRerun_keeps {z : State} {s : State} {r : RerunSt} (h : Keeps z s)  :
    Keeps z (State.setRerun s r) := by
  unfold State.setRerun
  repeat' with_reducible first
    | assumption | exact BusKeeps.refl _ | (fail_if_no_progress apply Keeps.mk')

theorem State.rerunDiff_keeps {z : State} {s : State} {h_1 : ℕ} {frame : ℕ} {row : ℕ} {n : ℕ} (h : Keeps z s)  :
    Keeps z (State.rerunDiff s h_1 frame row n) := by
  unfold State.rerunDiff
  repeat' with_reducible first
    | assumption | intro _ | extract_lets | exact BusKeeps.refl _ | apply State.onBus_keeps | apply Bus.bump_keeps
    | apply State.emit_keeps | apply State.setRerun_keeps | apply Keeps.ite | apply Keeps.iteFst | refine Keeps.ofPair ?_ ‹_›
    | split

theorem State.rerunRows_keeps {z : State} {s : State} {h_1 : ℕ} {frame : ℕ} {first : ℕ} {checks : List ℕ} {own : List (ℕ × Bool)} (h : Keeps z s)  :
    Keeps z (State.rerunRows s h_1 frame first checks own) := by
  unfold State.rerunRows
  repeat' with_reducible first
    | assumption | intro _ | extract_lets | exact BusKeeps.refl _ | apply State.onBus_keeps | apply Bus.bump_keeps
    | apply State.rerunDiff_keeps | refine Keeps.ofPair ?_ ‹_› | split | dsimp only | dsimp +zetaDelta only

theorem State.rerunOwn_keeps {z : State} {s : State} {h_1 : ℕ} {frame : ℕ} {port : ℕ} {own : List (ℕ × Bool)} (h : Keeps z s)  :
    Keeps z (State.rerunOwn s h_1 frame port own) := by
  unfold State.rerunOwn
  repeat' with_reducible first
    | assumption | intro _ | extract_lets | exact BusKeeps.refl _ | apply State.setRerun_keeps | apply State.rerunRows_keeps
    | apply Keeps.forEach | apply Keeps.forEachFst | refine Keeps.ofPair ?_ ‹_› | split

theorem State.rerunRecorded_keeps {z : State} {s : State} {h_1 : ℕ} {frame : ℕ} {port : ℕ} {first : ℕ} {checks : List ℕ} (h : Keeps z s)  :
    Keeps z (State.rerunRecorded s h_1 frame port first checks) := by
  unfold State.rerunRecorded
  repeat' with_reducible first
    | assumption | intro _ | exact BusKeeps.refl _ | apply State.rerunRows_keeps | apply State.setRerun_keeps
    | refine Keeps.ofPair ?_ ‹_› | split

end Sys2Proof.Machine
end

