-- ==== Sys2Proof/Laws/KeepsHeads.lean ====
section
/-! SUPPORT. What the operations and commands of Machine/Heads.lean keep: one law each. -/

namespace Sys2Proof.Machine

theorem State.headEvent_keeps {z : State} {s : State} {h_1 : ℕ} {typ : ℕ} {sev : ℕ} {p : Payload} (h : Keeps z s)  :
    Keeps z (State.headEvent s h_1 typ sev p) := by
  unfold State.headEvent
  repeat' with_reducible first
    | assumption | apply State.emitAt_keeps

theorem State.stopSending_keeps {z : State} {s : State} {h_1 : ℕ} (h : Keeps z s)  :
    Keeps z (State.stopSending s h_1) := by
  unfold State.stopSending
  repeat' with_reducible first
    | assumption | intro _ | extract_lets | exact BusKeeps.refl _ | apply State.setHead_keeps | apply State.frameCut_keeps
    | apply Keeps.forEach

theorem State.setOutput_keeps {z : State} {s : State} {h_1 : ℕ} {st : ℕ} {cause : ℕ} (h : Keeps z s)  :
    Keeps z (State.setOutput s h_1 st cause) := by
  unfold State.setOutput
  repeat' with_reducible first
    | assumption | extract_lets | apply State.stopSending_keeps | apply State.setFld_keeps | apply State.headEvent_keeps
    | apply Keeps.ite

theorem State.portsSafe_keeps {z : State} {s : State} {e : HeadEnt} {reason : ℕ} (h : Keeps z s)  :
    Keeps z (State.portsSafe s e reason) := by
  unfold State.portsSafe
  repeat' with_reducible first
    | assumption | intro _ | apply State.safeWire_keeps | apply State.safe_keeps | apply Keeps.ite | apply Keeps.forEach

theorem State.headSafe_keeps {z : State} {s : State} {h_1 : ℕ} {cause : ℕ} {port : ℕ} (h : Keeps z s)  :
    Keeps z (State.headSafe s h_1 cause port) := by
  unfold State.headSafe
  repeat' with_reducible first
    | assumption | extract_lets | exact BusKeeps.refl _ | apply State.setOutput_keeps | apply State.portsSafe_keeps
    | apply State.headEvent_keeps | refine Keeps.ofPair ?_ ‹_› | split

theorem State.headFollows_keeps {z : State} {s : State} {p : ℕ} (h : Keeps z s)  :
    Keeps z (State.headFollows s p) := by
  unfold State.headFollows
  repeat' with_reducible first
    | assumption | intro _ | extract_lets | exact BusKeeps.refl _ | apply State.setFld_keeps | apply State.setHead_keeps
    | apply State.stopSending_keeps | apply State.headSafe_keeps | apply State.giveUp_keeps | apply Keeps.ite
    | refine Keeps.ofPair ?_ ‹_› | split

theorem State.headStart_keeps {z : State} {s : State} {h_1 : ℕ} (h : Keeps z s)  :
    Keeps z (State.headStart s h_1) := by
  unfold State.headStart
  repeat' with_reducible first
    | assumption | intro _ | extract_lets | exact BusKeeps.refl _ | apply State.onBus_keeps | apply Bus.enter_keeps
    | apply State.setHead_keeps | apply State.setFld_keeps | apply State.setReg_keeps | apply Keeps.ite
    | refine Keeps.ofPair ?_ ‹_› | split

theorem State.ambient_keeps {z : State} {s : State} {h_1 : ℕ} {lux : ℕ} (h : Keeps z s)  :
    Keeps z (State.ambient s h_1 lux) := by
  unfold State.ambient
  repeat' with_reducible first
    | assumption | extract_lets | exact BusKeeps.refl _ | apply State.setReg_keeps | apply State.setHead_keeps

theorem State.dwellMet_keeps {z : State} {s : State} {h_1 : ℕ} (h : Keeps z s)  :
    Keeps z (State.dwellMet s h_1) := by
  unfold State.dwellMet
  repeat' with_reducible first
    | assumption | extract_lets | exact BusKeeps.refl _ | apply State.setHead_keeps | apply Keeps.ite
    | refine Keeps.ofPair ?_ ‹_› | split | dsimp only | dsimp +zetaDelta only

theorem State.ambientTimeout_keeps {z : State} {s : State} {h_1 : ℕ} (h : Keeps z s)  :
    Keeps z (State.ambientTimeout s h_1) := by
  unfold State.ambientTimeout
  repeat' with_reducible first
    | assumption | exact BusKeeps.refl _ | apply State.setHead_keeps | apply State.setFld_keeps | apply Keeps.ite
    | refine Keeps.ofPair ?_ ‹_› | split

theorem State.unshow_keeps {z : State} {s : State} {h_1 : ℕ} {l : ℕ} (h : Keeps z s)  :
    Keeps z (State.unshow s h_1 l) := by
  unfold State.unshow
  repeat' with_reducible first
    | assumption | exact BusKeeps.refl _ | apply State.setReg_keeps | apply State.setFld_keeps | apply State.releaseBuf_keeps
    | apply Keeps.ite | refine Keeps.ofPair ?_ ‹_› | split

theorem State.showBuf_keeps {z : State} {s : State} {h_1 : ℕ} {l : ℕ} {n : ℕ} {b : ℕ} (h : Keeps z s)  :
    Keeps z (State.showBuf s h_1 l n b) := by
  unfold State.showBuf
  repeat' with_reducible first
    | assumption | apply State.holdBuf_keeps | apply Keeps.ite

theorem State.flipState_keeps {z : State} {s : State} {h_1 : ℕ} {l : ℕ} {t : Word} (h : Keeps z s)  :
    Keeps z (State.flipState s h_1 l t).1 := by
  unfold State.flipState
  repeat' with_reducible first
    | assumption | extract_lets | exact BusKeeps.refl _ | apply State.choose_keeps | apply Keeps.ite | apply Keeps.iteFst

theorem State.flip_keeps {z : State} {s : State} {h_1 : ℕ} {f : FlipSt} (h : Keeps z s)  :
    Keeps z (State.flip s h_1 f) := by
  unfold State.flip
  repeat' with_reducible first
    | assumption | extract_lets | exact BusKeeps.refl _ | apply State.showBuf_keeps | apply State.unshow_keeps
    | apply State.setFld_keeps | apply State.setReg_keeps | apply State.setHead_keeps | apply Keeps.ite
    | refine Keeps.ofPair ?_ ‹_› | split

theorem State.deferred_keeps {z : State} {s : State} {h_1 : ℕ} {f : FlipSt} {reason : ℕ} (h : Keeps z s)  :
    Keeps z (State.deferred s h_1 f reason) := by
  unfold State.deferred
  repeat' with_reducible first
    | assumption | extract_lets | exact BusKeeps.refl _ | apply State.bump_keeps | apply State.giveUp_keeps
    | apply State.emit_keeps | apply State.setHead_keeps | apply Keeps.ite

theorem State.doFlips_keeps {z : State} {s : State} {h_1 : ℕ} {t : Word} (h : Keeps z s)  :
    Keeps z (State.doFlips s h_1 t).1 := by
  unfold State.doFlips
  repeat' with_reducible first
    | assumption | intro _ | extract_lets | apply State.flipState_keeps | apply State.flip_keeps | apply State.deferred_keeps
    | apply Keeps.ite | apply Keeps.iteFst | apply Keeps.foldl | apply Keeps.foldlFst

theorem State.basicBanks_keeps {z : State} {s : State} {h_1 : ℕ} (h : Keeps z s)  :
    Keeps z (State.basicBanks s h_1) := by
  unfold State.basicBanks
  repeat' with_reducible first
    | assumption | intro _ | extract_lets | exact BusKeeps.refl _ | apply State.setHead_keeps | apply Keeps.ite
    | apply Keeps.forEach

theorem State.applyCommits_keeps {z : State} {s : State} {h_1 : ℕ} {t : Word} (h : Keeps z s)  :
    Keeps z (State.applyCommits s h_1 t).1 := by
  unfold State.applyCommits
  repeat' with_reducible first
    | assumption | intro _ | extract_lets | exact BusKeeps.refl _ | apply State.setLayer_keeps | apply State.setHead_keeps
    | apply State.setReg_keeps | apply State.setFld_keeps | apply Keeps.ite | apply Keeps.iteFst | apply Keeps.foldl
    | apply Keeps.foldlFst | apply BusKeeps.foldl | refine Keeps.ofPair ?_ ‹_› | split | dsimp only | dsimp +zetaDelta only

theorem State.applyFresh_keeps {z : State} {s : State} {h_1 : ℕ} {t : Word} (h : Keeps z s)  :
    Keeps z (State.applyFresh s h_1 t) := by
  unfold State.applyFresh
  repeat' with_reducible first
    | assumption | intro _ | extract_lets | exact BusKeeps.refl _ | apply State.setReg_keeps | apply State.setHead_keeps
    | apply Keeps.ite | apply Keeps.iteFst | apply Keeps.forEach | apply Keeps.forEachFst | apply Keeps.foldl
    | apply Keeps.foldlFst | apply BusKeeps.foldl | refine Keeps.ofPair ?_ ‹_› | split

theorem State.applyLuts_keeps {z : State} {s : State} {h_1 : ℕ} {t : Word} (h : Keeps z s)  :
    Keeps z (State.applyLuts s h_1 t) := by
  unfold State.applyLuts
  repeat' with_reducible first
    | assumption | intro _ | extract_lets | exact BusKeeps.refl _ | apply State.setHead_keeps | apply State.headEvent_keeps
    | apply State.setFld_keeps | apply Keeps.ite | apply Keeps.foldl

theorem State.stripRec_keeps {z : State} {s : State} {h_1 : ℕ} {strip : ℕ} {action : ℕ} {cause : ℕ} {layers : ℕ} {bitmap : ℕ} (h : Keeps z s)  :
    Keeps z (State.stripRec s h_1 strip action cause layers bitmap) := by
  unfold State.stripRec
  repeat' with_reducible first
    | assumption | apply State.journal_keeps

theorem State.showSheds_keeps {z : State} {s : State} {h_1 : ℕ} (h : Keeps z s)  :
    Keeps z (State.showSheds s h_1) := by
  unfold State.showSheds
  repeat' with_reducible first
    | assumption | intro _ | extract_lets | apply State.setReg_keeps | apply State.setFld_keeps | apply Keeps.forEach

theorem State.shedNote_keeps {z : State} {s : State} {h_1 : ℕ} {l : ℕ} {strip : ℕ} {cause : ℕ} {shed : Bool} (h : Keeps z s)  :
    Keeps z (State.shedNote s h_1 l strip cause shed) := by
  unfold State.shedNote
  repeat' with_reducible first
    | assumption | extract_lets | apply State.stripRec_keeps | apply State.emit_keeps | apply State.bump_keeps
    | apply Keeps.ite

theorem State.latchSheds_keeps {z : State} {s : State} {h_1 : ℕ} (h : Keeps z s)  :
    Keeps z (State.latchSheds s h_1) := by
  unfold State.latchSheds
  repeat' with_reducible first
    | assumption | intro _ | extract_lets | exact BusKeeps.refl _ | apply State.showSheds_keeps | apply State.setFld_keeps
    | apply State.setHead_keeps | apply State.shedNote_keeps | apply Keeps.ite | apply Keeps.forEach | apply Keeps.foldl
    | apply Keeps.foldlFst | apply BusKeeps.foldl | refine Keeps.ofPair ?_ ‹_› | split | dsimp only | dsimp +zetaDelta only

theorem State.latchLayer_keeps {z : State} {s : State} {h_1 : ℕ} {l : ℕ} (h : Keeps z s)  :
    Keeps z (State.latchLayer s h_1 l).1 := by
  unfold State.latchLayer
  repeat' with_reducible first
    | assumption | extract_lets | apply State.setFld_keeps | apply State.emit_keeps | apply State.setReg_keeps
    | apply Keeps.ite

theorem State.latchLayers_keeps {z : State} {s : State} {h_1 : ℕ} (h : Keeps z s)  :
    Keeps z (State.latchLayers s h_1).1 := by
  unfold State.latchLayers
  repeat' with_reducible first
    | assumption | intro _ | extract_lets | apply State.latchLayer_keeps | apply Keeps.foldl | apply Keeps.foldlFst

theorem State.releaseOld_keeps {z : State} {s : State} {h_1 : ℕ} (h : Keeps z s)  :
    Keeps z (State.releaseOld s h_1) := by
  unfold State.releaseOld
  repeat' with_reducible first
    | assumption | intro _ | exact BusKeeps.refl _ | apply State.unshow_keeps | apply Keeps.ite | apply Keeps.forEach
    | refine Keeps.ofPair ?_ ‹_› | split

theorem State.wbDrop_keeps {z : State} {s : State} {n : ℕ} {reason : ℕ} (h : Keeps z s)  :
    Keeps z (State.wbDrop s n reason) := by
  unfold State.wbDrop
  repeat' with_reducible first
    | assumption | exact BusKeeps.refl _ | apply State.emit_keeps | apply State.cull_keeps | apply State.setWb_keeps
    | refine Keeps.ofPair ?_ ‹_› | split

theorem State.wbOpen_keeps {z : State} {s : State} {h_1 : ℕ} {n : ℕ} {t : Word} {frame : ℕ} (h : Keeps z s)  :
    Keeps z (State.wbOpen s h_1 n t frame) := by
  unfold State.wbOpen
  repeat' with_reducible first
    | assumption | intro _ | extract_lets | exact BusKeeps.refl _ | apply State.wbDrop_keeps | apply State.poolEmpty_keeps
    | apply State.moveBuf_keeps | apply State.setWb_keeps | apply Keeps.ite | refine Keeps.ofPair ?_ ‹_› | split

theorem State.wbRefuse_keeps {z : State} {s : State} {h_1 : ℕ} {n : ℕ} {t : Word} {frame : ℕ} (h : Keeps z s)  :
    Keeps z (State.wbRefuse s h_1 n t frame) := by
  unfold State.wbRefuse
  repeat' with_reducible first
    | assumption | extract_lets | exact BusKeeps.refl _ | apply State.setFld_keeps | apply State.wbDrop_keeps
    | apply State.setSrc_keeps | apply State.emit_keeps | apply Keeps.ite | refine Keeps.ofPair ?_ ‹_› | split

theorem State.sendModeChange_keeps {z : State} {s : State} {e : HeadEnt} {m : ModeSt} {half : Bool} {frame : ℕ} (h : Keeps z s)  :
    Keeps z (State.sendModeChange s e m half frame) := by
  unfold State.sendModeChange
  repeat' with_reducible first
    | assumption | intro _ | extract_lets | apply State.sendEpoch_keeps | apply State.sendHold_keeps
    | apply State.control_keeps | apply State.setFld_keeps | apply State.endSafe_keeps | apply Keeps.ite | apply Keeps.iteFst
    | apply Keeps.foldl

theorem State.sendFrameStart_keeps {z : State} {s : State} {e : HeadEnt} {f : FrameSt} (h : Keeps z s)  :
    Keeps z (State.sendFrameStart s e f).1 := by
  unfold State.sendFrameStart
  repeat' with_reducible first
    | assumption | intro _ | extract_lets | exact BusKeeps.refl _ | apply State.sendEpoch_keeps | apply State.sendHold_keeps
    | apply State.setLink_keeps | apply State.sendItem_keeps | apply Keeps.ite | apply Keeps.iteFst | apply Keeps.foldl
    | apply Keeps.foldlFst

theorem State.setHalf_keeps {z : State} {s : State} {e : HeadEnt} {half : Bool} (h : Keeps z s)  :
    Keeps z (State.setHalf s e half) := by
  unfold State.setHalf
  repeat' with_reducible first
    | assumption | extract_lets | apply State.headEvent_keeps | apply State.setFld_keeps | apply Keeps.ite

theorem State.startBlank_keeps {z : State} {s : State} {e : HeadEnt} {m : ModeSt} {half : Bool} {frame : ℕ} {tag : ℕ} (h : Keeps z s)  :
    Keeps z (State.startBlank s e m half frame tag) := by
  unfold State.startBlank
  repeat' with_reducible first
    | assumption | extract_lets | exact BusKeeps.refl _ | apply State.setMode_keeps | apply State.sendModeChange_keeps
    | apply State.headEvent_keeps | apply State.setOutput_keeps | apply State.setHalf_keeps | apply State.setHead_keeps
    | apply Keeps.ite

theorem State.changeCadence_keeps {z : State} {s : State} {e : HeadEnt} {m : ModeSt} {half : Bool} {frame : ℕ} (h : Keeps z s)  :
    Keeps z (State.changeCadence s e m half frame) := by
  unfold State.changeCadence
  repeat' with_reducible first
    | assumption | extract_lets | exact BusKeeps.refl _ | apply State.sendModeChange_keeps | apply State.setMode_keeps
    | apply State.setHalf_keeps | apply State.setHead_keeps

theorem State.modeUnseen_keeps {z : State} {s : State} {e : HeadEnt} {m : ModeSt} {newMode : Option ℕ} {moved : Bool} (h : Keeps z s)  :
    Keeps z (State.modeUnseen s e m newMode moved) := by
  unfold State.modeUnseen
  repeat' with_reducible first
    | assumption | extract_lets | exact BusKeeps.refl _ | apply State.setHalf_keeps | apply State.setMode_keeps
    | apply State.setHead_keeps | apply Keeps.ite

theorem State.latchOutput_keeps {z : State} {s : State} {e : HeadEnt} {m : ModeSt} {newMode : Option ℕ} {moved : Bool} {frame : ℕ} (h : Keeps z s)  :
    Keeps z (State.latchOutput s e m newMode moved frame) := by
  unfold State.latchOutput
  repeat' with_reducible first
    | assumption | intro _ | extract_lets | exact BusKeeps.refl _ | apply State.modeUnseen_keeps | apply State.headSafe_keeps
    | apply State.setHead_keeps | apply State.startBlank_keeps | apply State.setLink_keeps | apply State.setOutput_keeps
    | apply State.changeCadence_keeps | apply Keeps.ite | apply Keeps.foldl | apply Keeps.foldlFst | apply BusKeeps.foldl
    | refine Keeps.ofPair ?_ ‹_› | split

theorem State.latchRec_keeps {z : State} {s : State} {h_1 : ℕ} {t : Word} {frame : ℕ} {flipped : ℕ} {waiting : ℕ} {pos : ℕ} {tag : ℕ} {commits : ℕ} {bank : ℕ} (h : Keeps z s)  :
    Keeps z (State.latchRec s h_1 t frame flipped waiting pos tag commits bank) := by
  unfold State.latchRec
  repeat' with_reducible first
    | assumption | intro _ | extract_lets | apply State.journalAt_keeps | apply Keeps.ite

theorem State.nextLatch_keeps {z : State} {s : State} {h_1 : ℕ} {g : ℕ} {phase : ℕ} {t : Word} {moved : Bool} (h : Keeps z s)  :
    Keeps z (State.nextLatch s h_1 g phase t moved) := by
  unfold State.nextLatch
  repeat' with_reducible first
    | assumption | intro _ | extract_lets | exact BusKeeps.refl _ | apply State.setHead_keeps | apply Keeps.ite

theorem State.setFrame_keeps {z : State} {s : State} {h_1 : ℕ} {f : FrameSt} (h : Keeps z s)  :
    Keeps z (State.setFrame s h_1 f) := by
  unfold State.setFrame
  repeat' with_reducible first
    | assumption | exact BusKeeps.refl _ | apply State.setHead_keeps

theorem State.putDoubt_keeps {z : State} {s : State} {h_1 : ℕ} {tile : ℕ} {reason : ℕ} (h : Keeps z s)  :
    Keeps z (State.putDoubt s h_1 tile reason) := by
  unfold State.putDoubt
  repeat' with_reducible first
    | assumption | intro _ | extract_lets | exact BusKeeps.refl _ | apply State.bump_keeps | apply State.setFrame_keeps
    | apply State.setHead_keeps | apply Keeps.ite | apply Keeps.iteFst | refine Keeps.ofPair ?_ ‹_› | split

theorem State.recRuns_keeps {z : State} {s : State} {n : ℕ} {kind : ℕ} {cap : ℕ} {inst : ℕ} {items : List (List Byte)} {hdr : ℕ → ℕ → List Byte} (h : Keeps z s)  :
    Keeps z (State.recRuns s n kind cap inst items hdr) := by
  unfold State.recRuns
  repeat' with_reducible first
    | assumption | intro _ | apply State.journal_keeps | apply Keeps.foldl

theorem State.doubtRecs_keeps {z : State} {s : State} {h_1 : ℕ} {num : Word} {ds : List (ℕ × ℕ)} (h : Keeps z s)  :
    Keeps z (State.doubtRecs s h_1 num ds) := by
  unfold State.doubtRecs
  repeat' with_reducible first
    | assumption | intro _ | apply State.recRuns_keeps

theorem State.noteDoubts_keeps {z : State} {s : State} {h_1 : ℕ} {ds : List (ℕ × ℕ)} (h : Keeps z s)  :
    Keeps z (State.noteDoubts s h_1 ds) := by
  unfold State.noteDoubts
  repeat' with_reducible first
    | assumption | intro _ | extract_lets | exact BusKeeps.refl _ | apply State.putDoubt_keeps | apply State.doubtRecs_keeps
    | apply Keeps.forEach | apply Keeps.forEachFst | refine Keeps.ofPair ?_ ‹_› | split

theorem State.addDoubts_keeps {z : State} {s : State} {h_1 : ℕ} {tiles : List ℕ} {reason : ℕ} (h : Keeps z s)  :
    Keeps z (State.addDoubts s h_1 tiles reason) := by
  unfold State.addDoubts
  repeat' with_reducible first
    | assumption | intro _ | apply State.rerunDiff_keeps | apply State.noteDoubts_keeps | apply Keeps.ite
    | apply Keeps.forEach

theorem State.addDoubt_keeps {z : State} {s : State} {h_1 : ℕ} {tile : ℕ} {reason : ℕ} (h : Keeps z s)  :
    Keeps z (State.addDoubt s h_1 tile reason) := by
  unfold State.addDoubt
  repeat' with_reducible first
    | assumption | apply State.addDoubts_keeps

theorem State.beginFrame_keeps {z : State} {s : State} {e : HeadEnt} {m : ModeSt} {t : Word} {num : Word} {layers : List LatLayer} (h : Keeps z s)  :
    Keeps z (State.beginFrame s e m t num layers) := by
  unfold State.beginFrame
  repeat' with_reducible first
    | assumption | intro _ | extract_lets | exact BusKeeps.refl _ | apply State.wbRefuse_keeps | apply State.wbOpen_keeps
    | apply State.sendFrameStart_keeps | apply State.setHead_keeps | apply State.addDoubts_keeps | apply Keeps.ite
    | apply Keeps.iteFst | refine Keeps.ofPair ?_ ‹_› | split | dsimp only | dsimp +zetaDelta only

theorem State.latchFull_keeps {z : State} {s : State} {h_1 : ℕ} {e : HeadEnt} {t : Word} {m0 : ModeSt} (h : Keeps z s)  :
    Keeps z (State.latchFull s h_1 e t m0) := by
  unfold State.latchFull
  repeat' with_reducible first
    | assumption | intro _ | extract_lets | exact BusKeeps.refl _ | apply State.setReg_keeps | apply State.setHead_keeps
    | apply State.setFld_keeps | apply State.releaseOld_keeps | apply State.applyCommits_keeps | apply State.basicBanks_keeps
    | apply State.applyFresh_keeps | apply State.applyLuts_keeps | apply State.latchOutput_keeps | apply State.doFlips_keeps
    | apply State.latchSheds_keeps | apply State.latchLayers_keeps | apply State.latchRec_keeps | apply State.emitAt_keeps
    | apply State.beginFrame_keeps | apply State.nextLatch_keeps | apply Keeps.ite | apply Keeps.iteFst | apply Keeps.forEach

theorem State.headLatch_keeps {z : State} {s : State} {h_1 : ℕ} (h : Keeps z s)  :
    Keeps z (State.headLatch s h_1) := by
  unfold State.headLatch
  repeat' with_reducible first
    | assumption | extract_lets | exact BusKeeps.refl _ | apply State.setReg_keeps | apply State.nextLatch_keeps
    | apply State.setHead_keeps | apply State.latchFull_keeps | apply Keeps.ite | refine Keeps.ofPair ?_ ‹_› | split

theorem State.layerGone_keeps {z : State} {s : State} {h_1 : ℕ} {l : ℕ} (h : Keeps z s)  :
    Keeps z (State.layerGone s h_1 l) := by
  unfold State.layerGone
  repeat' with_reducible first
    | assumption | extract_lets | exact BusKeeps.refl _ | apply State.emitAt_keeps | apply State.setHead_keeps
    | apply Keeps.ite

theorem State.headOff_keeps {z : State} {s : State} {h_1 : ℕ} (h : Keeps z s)  :
    Keeps z (State.headOff s h_1) := by
  unfold State.headOff
  repeat' with_reducible first
    | assumption | intro _ | extract_lets | exact BusKeeps.refl _ | apply State.unshow_keeps | apply State.layerGone_keeps
    | apply State.setReg_keeps | apply State.setLayer_keeps | apply State.setHead_keeps | apply State.showSheds_keeps
    | apply State.setFld_keeps | apply State.wbDrop_keeps | apply State.setOutput_keeps | apply State.setHalf_keeps
    | apply State.portsSafe_keeps | apply Keeps.ite | apply Keeps.iteFst | apply Keeps.forEach | apply Keeps.forEachFst
    | refine Keeps.ofPair ?_ ‹_› | split

theorem execHeadStartReady_keeps {z : State} {h_0 : ℕ} {s : State} (h : Keeps z s)  :
    AnswerKeeps z (execHeadStartReady h_0 s) := by
  unfold execHeadStartReady
  repeat' with_reducible first
    | assumption | intro _ | apply State.fabric_keeps | apply State.headStart_keeps

theorem execAmbientDwellMet_keeps {z : State} {h_0 : ℕ} {s : State} (h : Keeps z s)  :
    AnswerKeeps z (execAmbientDwellMet h_0 s) := by
  unfold execAmbientDwellMet
  repeat' with_reducible first
    | assumption | intro _ | apply State.fabric_keeps | apply State.dwellMet_keeps

theorem execAmbientTimeout_keeps {z : State} {h_0 : ℕ} {s : State} (h : Keeps z s)  :
    AnswerKeeps z (execAmbientTimeout h_0 s) := by
  unfold execAmbientTimeout
  repeat' with_reducible first
    | assumption | intro _ | apply State.fabric_keeps | apply State.ambientTimeout_keeps

end Sys2Proof.Machine
end

