-- ==== Sys2Proof/Laws/KeepsStrips.lean ====
section
/-! SUPPORT. What the operations and commands of Machine/Strips.lean keep: one law each. -/

namespace Sys2Proof.Machine

theorem State.onFrame_keeps {z : State} {s : State} {h_1 : ℕ} {g : FrameSt → FrameSt} (h : Keeps z s)  :
    Keeps z (State.onFrame s h_1 g) := by
  unfold State.onFrame
  repeat' with_reducible first
    | assumption | exact BusKeeps.refl _ | apply State.setHead_keeps

theorem State.tileDoubt_keeps {z : State} {s : State} {h_1 : ℕ} (h : Keeps z s)  :
    Keeps z (State.tileDoubt s h_1) := by
  unfold State.tileDoubt
  repeat' with_reducible first
    | assumption | extract_lets | exact BusKeeps.refl _ | apply State.emitAt_keeps | apply State.setHead_keeps
    | apply Keeps.ite | refine Keeps.ofPair ?_ ‹_› | split

theorem State.setTile_keeps {z : State} {s : State} {h_1 : ℕ} {i : ℕ} {v : ℕ} (h : Keeps z s)  :
    Keeps z (State.setTile s h_1 i v) := by
  unfold State.setTile
  repeat' with_reducible first
    | assumption | exact BusKeeps.refl _ | apply State.setHead_keeps

theorem State.parityFound_keeps {z : State} {s : State} {h_1 : ℕ} {i : ℕ} (h : Keeps z s)  :
    Keeps z (State.parityFound s h_1 i) := by
  unfold State.parityFound
  repeat' with_reducible first
    | assumption | intro _ | extract_lets | exact BusKeeps.refl _ | apply State.emit_keeps | apply State.setTile_keeps
    | apply State.addDoubt_keeps | apply State.setHead_keeps | apply Keeps.ite

theorem State.readRow_keeps {z : State} {s : State} {h_1 : ℕ} {r : ℕ} (h : Keeps z s)  :
    Keeps z (State.readRow s h_1 r) := by
  unfold State.readRow
  repeat' with_reducible first
    | assumption | intro _ | extract_lets | exact BusKeeps.refl _ | apply State.setFrame_keeps
    | apply State.parityFound_keeps | apply State.addDoubts_keeps | apply Keeps.ite | apply Keeps.forEach
    | refine Keeps.ofPair ?_ ‹_› | split

theorem State.stripDone_keeps {z : State} {s : State} {h_1 : ℕ} {j : ℕ} {margin : ℕ} (h : Keeps z s)  :
    Keeps z (State.stripDone s h_1 j margin) := by
  unfold State.stripDone
  repeat' with_reducible first
    | assumption | intro _ | extract_lets | exact BusKeeps.refl _ | apply State.setFrame_keeps | apply State.giveUp_keeps
    | apply State.showSheds_keeps | apply State.shedNote_keeps | apply State.setHead_keeps | apply Keeps.ite
    | apply Keeps.foldl | apply Keeps.foldlFst | apply BusKeeps.foldl | refine Keeps.ofPair ?_ ‹_› | split | dsimp only
    | dsimp +zetaDelta only

theorem State.startFrameStrip_keeps {z : State} {s : State} {h_1 : ℕ} {j : ℕ} (h : Keeps z s)  :
    Keeps z (State.startFrameStrip s h_1 j) := by
  unfold State.startFrameStrip
  repeat' with_reducible first
    | assumption | intro _ | extract_lets | exact BusKeeps.refl _ | apply State.setHead_keeps | apply State.onFrame_keeps

theorem State.stripStart_keeps {z : State} {s : State} {h_1 : ℕ} (h : Keeps z s)  :
    Keeps z (State.stripStart s h_1) := by
  unfold State.stripStart
  repeat' with_reducible first
    | assumption | exact BusKeeps.refl _ | apply State.readRow_keeps | apply State.startFrameStrip_keeps | apply Keeps.ite
    | refine Keeps.ofPair ?_ ‹_› | split

theorem State.fetchLayer_keeps {z : State} {s : State} {h_1 : ℕ} {l : LatLayer} {xs : List ℕ} {ys : List ℕ} (h : Keeps z s)  :
    Keeps z (State.fetchLayer s h_1 l xs ys).1 := by
  unfold State.fetchLayer
  repeat' with_reducible first
    | assumption | intro _ | extract_lets | exact BusKeeps.refl _ | apply State.fetchRaw_keeps | apply State.fetchBlock_keeps
    | apply Keeps.ite | apply Keeps.iteFst | apply Keeps.foldl | apply Keeps.foldlFst | apply BusKeeps.foldl
    | refine Keeps.ofPair ?_ ‹_› | split

theorem State.columnLeaves_keeps {z : State} {s : State} {h_1 : ℕ} {q : ColRes} (h : Keeps z s)  :
    Keeps z (State.columnLeaves s h_1 q) := by
  unfold State.columnLeaves
  repeat' with_reducible first
    | assumption | intro _ | extract_lets | exact BusKeeps.refl _ | apply State.onFrame_keeps | apply State.setTile_keeps
    | apply Keeps.ite | refine Keeps.ofPair ?_ ‹_› | split

theorem State.unitTimeout_keeps {z : State} {s : State} {h_1 : ℕ} {unit : ℕ} {serial : ℕ} (h : Keeps z s)  :
    Keeps z (State.unitTimeout s h_1 unit serial) := by
  unfold State.unitTimeout
  repeat' with_reducible first
    | assumption | extract_lets | exact BusKeeps.refl _ | apply State.setHead_keeps | apply State.setFld_keeps
    | apply State.emit_keeps | apply State.fault_keeps | apply Keeps.ite

theorem State.columnTimeout_keeps {z : State} {s : State} {h_1 : ℕ} {f : FrameSt} {j : ℕ} {c : ℕ} {unit : ℕ} (h : Keeps z s)  :
    Keeps z (State.columnTimeout s h_1 f j c unit) := by
  unfold State.columnTimeout
  repeat' with_reducible first
    | assumption | intro _ | extract_lets | exact BusKeeps.refl _ | apply State.rerunDiff_keeps
    | apply State.unitTimeout_keeps | apply State.stripRec_keeps | apply State.emit_keeps | apply State.onFrame_keeps
    | apply State.bump_keeps | apply State.columnLeaves_keeps | apply State.addDoubt_keeps | apply Keeps.ite

theorem State.fetchColumn_keeps {z : State} {s : State} {h_1 : ℕ} {f : FrameSt} {j : ℕ} {c : ℕ} {vis : List LatLayer} (h : Keeps z s)  :
    Keeps z (State.fetchColumn s h_1 f j c vis).1 := by
  unfold State.fetchColumn
  repeat' with_reducible first
    | assumption | intro _ | extract_lets | apply State.fetchLayer_keeps | apply Keeps.ite | apply Keeps.iteFst
    | apply Keeps.foldlFst

theorem State.columnDone_keeps {z : State} {s : State} {h_1 : ℕ} {c : ℕ} {unit : ℕ} {timeout : Bool} {parity : Bool} (h : Keeps z s)  :
    Keeps z (State.columnDone s h_1 c unit timeout parity) := by
  unfold State.columnDone
  repeat' with_reducible first
    | assumption | intro _ | extract_lets | exact BusKeeps.refl _ | apply State.columnTimeout_keeps
    | apply State.parityFound_keeps | apply State.columnLeaves_keeps | apply State.fetchColumn_keeps
    | apply State.addDoubt_keeps | apply Keeps.ite | split

theorem State.stripComplete_keeps {z : State} {s : State} {h_1 : ℕ} (h : Keeps z s)  :
    Keeps z (State.stripComplete s h_1) := by
  unfold State.stripComplete
  repeat' with_reducible first
    | assumption | intro _ | extract_lets | exact BusKeeps.refl _ | apply State.stripDone_keeps | apply Keeps.ite
    | refine Keeps.ofPair ?_ ‹_› | split

theorem State.underrun_keeps {z : State} {s : State} {h_1 : ℕ} {j : ℕ} {missing : List ℕ} (h : Keeps z s)  :
    Keeps z (State.underrun s h_1 j missing) := by
  unfold State.underrun
  repeat' with_reducible first
    | assumption | intro _ | extract_lets | exact BusKeeps.refl _ | apply State.rerunDiff_keeps | apply State.stripRec_keeps
    | apply State.bump_keeps | apply State.setFrame_keeps | apply State.addDoubts_keeps | apply State.headEvent_keeps
    | apply State.setHead_keeps | apply Keeps.ite | apply Keeps.iteFst | apply Keeps.foldl | apply Keeps.foldlFst
    | apply BusKeeps.foldl | refine Keeps.ofPair ?_ ‹_› | split

theorem State.readStart_keeps {z : State} {s : State} {h_1 : ℕ} (h : Keeps z s)  :
    Keeps z (State.readStart s h_1) := by
  unfold State.readStart
  repeat' with_reducible first
    | assumption | intro _ | extract_lets | exact BusKeeps.refl _ | apply State.setFrame_keeps | apply State.readRow_keeps
    | apply State.startFrameStrip_keeps | apply State.underrun_keeps | apply State.stripDone_keeps | apply Keeps.ite
    | refine Keeps.ofPair ?_ ‹_› | split

theorem State.sendLine_keeps {z : State} {s : State} {p : ℕ} {alive : ℕ} {f : FrameSt} {y : ℕ} {line : List (ℕ × List (List ℕ))} (h : Keeps z s)  :
    Keeps z (State.sendLine s p alive f y line) := by
  unfold State.sendLine
  repeat' with_reducible first
    | assumption | intro _ | extract_lets | apply State.sendItem_keeps | apply Keeps.ite | apply Keeps.iteFst
    | apply Keeps.foldl

theorem State.sendStrip_keeps {z : State} {s : State} {e : HeadEnt} {j : ℕ} (h : Keeps z s)  :
    Keeps z (State.sendStrip s e j) := by
  unfold State.sendStrip
  repeat' with_reducible first
    | assumption | intro _ | extract_lets | exact BusKeeps.refl _ | apply State.setFrame_keeps | apply State.sendLine_keeps
    | apply Keeps.ite | apply Keeps.iteFst | apply Keeps.foldl | apply Keeps.foldlFst | apply BusKeeps.foldl
    | refine Keeps.ofPair ?_ ‹_› | split

theorem State.rowEnd_keeps {z : State} {s : State} {e : HeadEnt} {r : ℕ} (h : Keeps z s)  :
    Keeps z (State.rowEnd s e r) := by
  unfold State.rowEnd
  repeat' with_reducible first
    | assumption | intro _ | extract_lets | exact BusKeeps.refl _ | apply State.setFrame_keeps | apply State.setTile_keeps
    | apply State.setHead_keeps | apply State.stampsSent_keeps | apply State.sendItem_keeps | apply Keeps.ite
    | apply Keeps.iteFst | apply Keeps.forEach | apply Keeps.forEachFst | apply Keeps.foldl | apply Keeps.foldlFst
    | apply BusKeeps.foldl | refine Keeps.ofPair ?_ ‹_› | split

theorem State.wbStrip_keeps {z : State} {s : State} {e : HeadEnt} {j : ℕ} (h : Keeps z s)  :
    Keeps z (State.wbStrip s e j) := by
  unfold State.wbStrip
  repeat' with_reducible first
    | assumption | intro _ | extract_lets | exact BusKeeps.refl _ | apply State.setWb_keeps | apply Keeps.ite
    | apply Keeps.iteFst | refine Keeps.ofPair ?_ ‹_› | split

theorem State.wbWrite_keeps {z : State} {s : State} {n : ℕ} {w : WbSt} {g : Geo} {pic : List (List Byte)} (h : Keeps z s)  :
    Keeps z (State.wbWrite s n w g pic).1 := by
  unfold State.wbWrite
  repeat' with_reducible first
    | assumption | intro _ | extract_lets | apply State.writeAll_keeps | apply State.countBlocks_keeps | apply Keeps.ite
    | apply Keeps.iteFst | apply Keeps.foldl | apply Keeps.foldlFst

theorem State.wbEnd_keeps {z : State} {s : State} {n : ℕ} (h : Keeps z s)  :
    Keeps z (State.wbEnd s n) := by
  unfold State.wbEnd
  repeat' with_reducible first
    | assumption | intro _ | exact BusKeeps.refl _ | apply State.wbDrop_keeps | apply State.wbWrite_keeps
    | apply State.setWb_keeps | apply State.finish_keeps | apply Keeps.ite | apply Keeps.iteFst | refine Keeps.ofPair ?_ ‹_›
    | split

theorem State.slotFree_keeps {z : State} {s : State} {h_1 : ℕ} {late : Bool} (h : Keeps z s)  :
    Keeps z (State.slotFree s h_1 late) := by
  unfold State.slotFree
  repeat' with_reducible first
    | assumption | intro _ | extract_lets | exact BusKeeps.refl _ | apply State.sendStrip_keeps | apply State.wbDrop_keeps
    | apply State.wbStrip_keeps | apply State.onFrame_keeps | apply State.rowEnd_keeps | apply State.wbEnd_keeps
    | apply Keeps.ite | refine Keeps.ofPair ?_ ‹_› | split | dsimp only | dsimp +zetaDelta only

theorem State.layerEvent_keeps {z : State} {s : State} {h_1 : ℕ} {f : FrameSt} {l : LatLayer} (h : Keeps z s)  :
    Keeps z (State.layerEvent s h_1 f l) := by
  unfold State.layerEvent
  repeat' with_reducible first
    | assumption | intro _ | extract_lets | exact BusKeeps.refl _ | apply State.setFld_keeps | apply State.setHead_keeps
    | apply State.emitAt_keeps | apply Keeps.ite | apply Keeps.iteFst | apply Keeps.foldl | apply Keeps.foldlFst
    | apply BusKeeps.foldl | refine Keeps.ofPair ?_ ‹_› | split | dsimp only | dsimp +zetaDelta only

theorem State.frameEnd_keeps {z : State} {s : State} {h_1 : ℕ} (h : Keeps z s)  :
    Keeps z (State.frameEnd s h_1) := by
  unfold State.frameEnd
  repeat' with_reducible first
    | assumption | intro _ | extract_lets | exact BusKeeps.refl _ | apply State.setFrame_keeps | apply State.sendItem_keeps
    | apply State.setFld_keeps | apply State.setReg_keeps | apply State.recRuns_keeps | apply State.rerunOwn_keeps
    | apply State.layerEvent_keeps | apply State.setHead_keeps | apply Keeps.ite | apply Keeps.iteFst | apply Keeps.forEach
    | apply Keeps.forEachFst | apply Keeps.foldl | apply Keeps.foldlFst | apply BusKeeps.foldl | refine Keeps.ofPair ?_ ‹_›
    | split | dsimp only | dsimp +zetaDelta only

theorem State.tileSnapshot_keeps {z : State} {s : State} {host : ℕ} {h_2 : ℕ} {v : Word} (h : Keeps z s)  :
    Keeps z (State.tileSnapshot s host h_2 v) := by
  unfold State.tileSnapshot
  repeat' with_reducible first
    | assumption | intro _ | extract_lets | apply State.hostWrite_keeps | apply State.parityFound_keeps
    | apply State.setReg_keeps | apply Keeps.ite

theorem execTileSnapshotWrite_keeps {z : State} {host : ℕ} {h_1 : ℕ} {v : Word} {s : State} (h : Keeps z s)  :
    AnswerKeeps z (execTileSnapshotWrite host h_1 v s) := by
  unfold execTileSnapshotWrite
  repeat' with_reducible first
    | assumption | intro _ | apply State.fabric_keeps | apply State.tileSnapshot_keeps

theorem execStripStart_keeps {z : State} {h_0 : ℕ} {s : State} (h : Keeps z s)  :
    AnswerKeeps z (execStripStart h_0 s) := by
  unfold execStripStart
  repeat' with_reducible first
    | assumption | intro _ | apply State.fabric_keeps | apply State.stripStart_keeps

theorem execTileColumnDone_keeps {z : State} {h_0 : ℕ} {c : ℕ} {unit : ℕ} {timeout : Bool} {parity : Bool} {s : State} (h : Keeps z s)  :
    AnswerKeeps z (execTileColumnDone h_0 c unit timeout parity s) := by
  unfold execTileColumnDone
  repeat' with_reducible first
    | assumption | intro _ | apply State.fabric_keeps | apply State.columnDone_keeps

theorem execStripComplete_keeps {z : State} {h_0 : ℕ} {s : State} (h : Keeps z s)  :
    AnswerKeeps z (execStripComplete h_0 s) := by
  unfold execStripComplete
  repeat' with_reducible first
    | assumption | intro _ | apply State.fabric_keeps | apply State.stripComplete_keeps

theorem execStripReadoutStart_keeps {z : State} {h_0 : ℕ} {s : State} (h : Keeps z s)  :
    AnswerKeeps z (execStripReadoutStart h_0 s) := by
  unfold execStripReadoutStart
  repeat' with_reducible first
    | assumption | intro _ | apply State.fabric_keeps | apply State.readStart_keeps

theorem execStripSlotFree_keeps {z : State} {o : SlotEnd} {s : State} (h : Keeps z s)  :
    AnswerKeeps z (execStripSlotFree o s) := by
  unfold execStripSlotFree
  repeat' with_reducible first
    | assumption | intro _ | apply State.fabric_keeps | apply State.slotFree_keeps

theorem execFrameReadoutEnd_keeps {z : State} {h_0 : ℕ} {s : State} (h : Keeps z s)  :
    AnswerKeeps z (execFrameReadoutEnd h_0 s) := by
  unfold execFrameReadoutEnd
  repeat' with_reducible first
    | assumption | intro _ | apply State.fabric_keeps | apply State.frameEnd_keeps

theorem execTileDoubt_keeps {z : State} {h_0 : ℕ} {s : State} (h : Keeps z s)  :
    AnswerKeeps z (execTileDoubt h_0 s) := by
  unfold execTileDoubt
  repeat' with_reducible first
    | assumption | intro _ | apply State.fabric_keeps | apply State.tileDoubt_keeps

end Sys2Proof.Machine
end

