-- ==== Sys2Proof/Laws/KeepsWitness.lean ====
section
/-! SUPPORT. What the operations and commands of Machine/Witness.lean keep: one law each. -/

namespace Sys2Proof.Machine

theorem State.setWit_keeps {z : State} {s : State} {h_1 : ℕ} {st : ℕ} (h : Keeps z s)  :
    Keeps z (State.setWit s h_1 st) := by
  unfold State.setWit
  repeat' with_reducible first
    | assumption | apply State.setFld_keeps

theorem State.mismatch_keeps {z : State} {s : State} {h_1 : ℕ} {w : WitEnt} {check : ℕ} {tile : ℕ} (h : Keeps z s)  :
    Keeps z (State.mismatch s h_1 w check tile) := by
  unfold State.mismatch
  repeat' with_reducible first
    | assumption | extract_lets | exact BusKeeps.refl _ | apply State.setHead_keeps | apply State.bump_keeps
    | apply State.setFld_keeps | apply State.emit_keeps | apply State.setWit_keeps | apply State.giveUp_keeps
    | apply State.headSafe_keeps | refine Keeps.ofPair ?_ ‹_› | split

theorem State.flagTile_keeps {z : State} {s : State} {h_1 : ℕ} {tile : ℕ} {on : Bool} (h : Keeps z s)  :
    Keeps z (State.flagTile s h_1 tile on) := by
  unfold State.flagTile
  repeat' with_reducible first
    | assumption | extract_lets | apply State.setTile_keeps | apply Keeps.ite

theorem State.witReport_keeps {z : State} {s : State} (h : Keeps z s)  :
    Keeps z (State.witReport s) := by
  unfold State.witReport
  repeat' with_reducible first
    | assumption | exact BusKeeps.refl _ | apply State.setWdn_keeps

theorem State.witTile_keeps {z : State} {s : State} {p : ℕ} {tile : ℕ} {t32 : ℕ} {digest : ℕ} {fill : Bool} (h : Keeps z s)  :
    Keeps z (State.witTile s p tile t32 digest fill) := by
  unfold State.witTile
  repeat' with_reducible first
    | assumption | intro _ | extract_lets | exact BusKeeps.refl _ | apply State.witReport_keeps | apply State.setHead_keeps
    | apply State.flagTile_keeps | apply State.mismatch_keeps | apply Keeps.ite | apply Keeps.iteFst
    | refine Keeps.ofPair ?_ ‹_› | split

theorem State.goLive_keeps {z : State} {s : State} {h_1 : ℕ} {w : WitEnt} (h : Keeps z s)  :
    Keeps z (State.goLive s h_1 w) := by
  unfold State.goLive
  repeat' with_reducible first
    | assumption | apply State.headEvent_keeps | apply State.setOutput_keeps | apply Keeps.ite

theorem State.witFrame_keeps {z : State} {s : State} {p : ℕ} {rows : List ℕ} {o : WitObs} (h : Keeps z s)  :
    Keeps z (State.witFrame s p rows o) := by
  unfold State.witFrame
  repeat' with_reducible first
    | assumption | intro _ | extract_lets | exact BusKeeps.refl _ | apply State.witReport_keeps | apply State.bump_keeps
    | apply State.setHead_keeps | apply State.flagTile_keeps | apply State.mismatch_keeps | apply State.setWit_keeps
    | apply State.goLive_keeps | apply Keeps.ite | apply Keeps.iteFst | apply Keeps.forEach | apply Keeps.forEachFst
    | apply Keeps.foldl | apply Keeps.foldlFst | apply BusKeeps.foldl | refine Keeps.ofPair ?_ ‹_› | split | dsimp only
    | dsimp +zetaDelta only

theorem State.islandSafeBy_keeps {z : State} {s : State} {code : ℕ} (h : Keeps z s)  :
    Keeps z (State.islandSafeBy s code) := by
  unfold State.islandSafeBy
  repeat' with_reducible first
    | assumption | intro _ | extract_lets | exact BusKeeps.refl _ | apply State.setHead_keeps | apply State.setWit_keeps
    | apply State.setFld_keeps | apply State.headSafe_keeps | apply State.giveUp_keeps | apply State.safeWire_keeps
    | apply Keeps.ite | apply Keeps.forEach

theorem State.islandSafe_keeps {z : State} {s : State} (h : Keeps z s)  :
    Keeps z (State.islandSafe s) := by
  unfold State.islandSafe
  repeat' with_reducible first
    | assumption | apply State.islandSafeBy_keeps

theorem State.showIsland_keeps {z : State} {s : State} {ok : Bool} (h : Keeps z s)  :
    Keeps z (State.showIsland s ok) := by
  unfold State.showIsland
  repeat' with_reducible first
    | assumption | intro _ | exact BusKeeps.refl _ | apply State.setFld_keeps | apply State.setWdn_keeps
    | apply Keeps.forEach

theorem State.islandLost_keeps {z : State} {s : State} {reason : ℕ} (h : Keeps z s)  :
    Keeps z (State.islandLost s reason) := by
  unfold State.islandLost
  repeat' with_reducible first
    | assumption | intro _ | extract_lets | apply State.showIsland_keeps | apply State.islandSafe_keeps
    | apply State.emit_keeps | apply Keeps.ite

theorem State.islandPowerLoss_keeps {z : State} {s : State} (h : Keeps z s)  :
    Keeps z (State.islandPowerLoss s) := by
  unfold State.islandPowerLoss
  repeat' with_reducible first
    | assumption | apply State.islandLost_keeps

theorem State.reportTimeout_keeps {z : State} {s : State} (h : Keeps z s)  :
    Keeps z (State.reportTimeout s) := by
  unfold State.reportTimeout
  repeat' with_reducible first
    | assumption | intro _ | extract_lets | exact BusKeeps.refl _ | apply State.islandLost_keeps | apply Keeps.ite

theorem State.islandRestored_keeps {z : State} {s : State} (h : Keeps z s)  :
    Keeps z (State.islandRestored s) := by
  unfold State.islandRestored
  repeat' with_reducible first
    | assumption | apply State.witReport_keeps | apply State.showIsland_keeps

theorem execWitnessTileCheck_keeps {z : State} {p : ℕ} {tile : ℕ} {o : TileObs} {s : State} (h : Keeps z s)  :
    AnswerKeeps z (execWitnessTileCheck p tile o s) := by
  unfold execWitnessTileCheck
  repeat' with_reducible first
    | assumption | intro _ | apply State.fabric_keeps | apply State.witTile_keeps

theorem execWitnessIslandPowerLoss_keeps {z : State} {s : State} (h : Keeps z s)  :
    AnswerKeeps z (execWitnessIslandPowerLoss s) := by
  unfold execWitnessIslandPowerLoss
  repeat' with_reducible first
    | assumption | apply State.warden_keeps | apply State.islandPowerLoss_keeps

theorem execWitnessReportTimeout_keeps {z : State} {s : State} (h : Keeps z s)  :
    AnswerKeeps z (execWitnessReportTimeout s) := by
  unfold execWitnessReportTimeout
  repeat' with_reducible first
    | assumption | apply State.warden_keeps | apply State.reportTimeout_keeps

theorem execWitnessIslandRestored_keeps {z : State} {s : State} (h : Keeps z s)  :
    AnswerKeeps z (execWitnessIslandRestored s) := by
  unfold execWitnessIslandRestored
  repeat' with_reducible first
    | assumption | apply State.warden_keeps | apply State.islandRestored_keeps

end Sys2Proof.Machine
end

