-- ==== Sys2Proof/Laws/KeepsCheckUnit.lean ====
section
/-! SUPPORT. What the operations and commands of Machine/CheckUnit.lean keep: one law each. -/

namespace Sys2Proof.Machine

theorem checkCmd_keeps {z : State} {f : ℕ → FEntry → ℕ → List Byte → State → State × Option (ℕ × ℕ)} {x1 : ℕ} {x2 : ℕ} {x3 : FEntry} {x4 : State} (h : Keeps z x4) (hf : ∀ y0 y1 y2 y3 y4, Keeps z y4 → Keeps z (f y0 y1 y2 y3 y4).1) :
    Keeps z (checkCmd f x1 x2 x3 x4).1 := by
  unfold checkCmd
  repeat' with_reducible first
    | assumption | intro _ | extract_lets | exact BusKeeps.refl _ | apply checked_keeps | apply State.load_keeps
    | apply done_keeps | apply State.setPair_keeps | refine Keeps.ofPair ?_ ‹_› | apply hf | split

theorem checkAppend_keeps {z : State} {x0 : ℕ} {x1 : ℕ} {x2 : FEntry} {x3 : State} (h : Keeps z x3)  :
    Keeps z (checkAppend x0 x1 x2 x3).1 := by
  unfold checkAppend
  repeat' with_reducible first
    | assumption | intro _ | exact BusKeeps.refl _ | apply checkCmd_keeps | apply State.store_keeps | apply done_keeps
    | refine Keeps.ofPair ?_ ‹_› | split

theorem checkVerify_keeps {z : State} {x0 : ℕ} {x1 : ℕ} {x2 : FEntry} {x3 : State} (h : Keeps z x3)  :
    Keeps z (checkVerify x0 x1 x2 x3).1 := by
  unfold checkVerify
  repeat' with_reducible first
    | assumption | intro _ | extract_lets | exact BusKeeps.refl _ | apply checkCmd_keeps | apply State.load_keeps
    | apply done_keeps | apply State.bump_keeps | apply State.setFld_keeps | apply State.emit_keeps | apply Keeps.ite
    | refine Keeps.ofPair ?_ ‹_› | split

theorem execCheckAppend_keeps {z : State} {r : ℕ} {k : ℕ} {s : State} (h : Keeps z s)  :
    AnswerKeeps z (execCheckAppend r k s) := by
  unfold execCheckAppend
  repeat' with_reducible first
    | assumption | intro _ | apply State.fabric_keeps | apply State.runCmd_keeps | apply checkAppend_keeps

theorem execCheckVerify_keeps {z : State} {r : ℕ} {k : ℕ} {s : State} (h : Keeps z s)  :
    AnswerKeeps z (execCheckVerify r k s) := by
  unfold execCheckVerify
  repeat' with_reducible first
    | assumption | intro _ | apply State.fabric_keeps | apply State.runCmd_keeps | apply checkVerify_keeps

end Sys2Proof.Machine
end

