-- ==== Sys2Proof/Laws/KeepsEncode.lean ====
section
/-! SUPPORT. What the operations and commands of Machine/Encode.lean keep: one law each. -/

namespace Sys2Proof.Machine

theorem State.setEnc_keeps {z : State} {s : State} {c : ℕ} {x : EncSt} (h : Keeps z s)  :
    Keeps z (State.setEnc s c x) := by
  unfold State.setEnc
  repeat' with_reducible first
    | assumption | exact BusKeeps.refl _ | (fail_if_no_progress apply Keeps.mk')

theorem State.showFloor_keeps {z : State} {s : State} {c : ℕ} (h : Keeps z s)  :
    Keeps z (State.showFloor s c) := by
  unfold State.showFloor
  repeat' with_reducible first
    | assumption | apply State.setReg_keeps

theorem State.encState_keeps {z : State} {s : State} {c : ℕ} {st : ℕ} {tag : ℕ} (h : Keeps z s)  :
    Keeps z (State.encState s c st tag) := by
  unfold State.encState
  repeat' with_reducible first
    | assumption | extract_lets | apply State.emit_keeps | apply State.setFld_keeps | apply Keeps.ite

theorem State.encOn_keeps {z : State} {s : State} {c : ℕ} (h : Keeps z s)  :
    Keeps z (State.encOn s c) := by
  unfold State.encOn
  repeat' with_reducible first
    | assumption | extract_lets | exact BusKeeps.refl _ | apply State.encState_keeps | apply State.setEnc_keeps
    | apply State.setReg_keeps | apply State.showFloor_keeps

theorem State.encRelease_keeps {z : State} {s : State} {j : EncJob} (h : Keeps z s)  :
    Keeps z (State.encRelease s j) := by
  unfold State.encRelease
  repeat' with_reducible first
    | assumption | exact BusKeeps.refl _ | apply State.releaseBuf_keeps | apply Keeps.ite | refine Keeps.ofPair ?_ ‹_›
    | split

theorem State.encAbandon_keeps {z : State} {s : State} {c : ℕ} (h : Keeps z s)  :
    Keeps z (State.encAbandon s c) := by
  unfold State.encAbandon
  repeat' with_reducible first
    | assumption | exact BusKeeps.refl _ | apply State.setFld_keeps | apply State.setEnc_keeps | apply State.encRelease_keeps
    | refine Keeps.ofPair ?_ ‹_› | split

theorem State.encOff_keeps {z : State} {s : State} {c : ℕ} (h : Keeps z s)  :
    Keeps z (State.encOff s c) := by
  unfold State.encOff
  repeat' with_reducible first
    | assumption | exact BusKeeps.refl _ | apply State.setEnc_keeps | apply State.encAbandon_keeps

theorem State.encCuts_keeps {z : State} {s : State} {z_ : State} (h : Keeps z s)  :
    Keeps z (State.encCuts s z_) := by
  unfold State.encCuts
  repeat' with_reducible first
    | assumption | intro _ | exact BusKeeps.refl _ | apply State.setEnc_keeps | apply Keeps.ite | apply Keeps.forEach

theorem State.encPass_keeps {z : State} {s : State} {c : ℕ} {t : Word} (h : Keeps z s)  :
    Keeps z (State.encPass s c t) := by
  unfold State.encPass
  repeat' with_reducible first
    | assumption | intro _ | extract_lets | exact BusKeeps.refl _ | apply State.codingRec_keeps | apply State.bump_keeps
    | apply State.emit_keeps | apply State.setEnc_keeps | apply Keeps.ite

theorem State.encSelect_keeps {z : State} {s : State} {c : ℕ} (h : Keeps z s)  :
    Keeps z (State.encSelect s c) := by
  unfold State.encSelect
  repeat' with_reducible first
    | assumption | extract_lets | exact BusKeeps.refl _ | apply State.setReg_keeps | apply State.setEnc_keeps
    | refine Keeps.ofPair ?_ ‹_› | split

theorem State.encInstant_keeps {z : State} {s : State} {c : ℕ} (h : Keeps z s)  :
    Keeps z (State.encInstant s c) := by
  unfold State.encInstant
  repeat' with_reducible first
    | assumption | intro _ | extract_lets | exact BusKeeps.refl _ | apply State.setEnc_keeps | apply State.encSelect_keeps
    | apply State.encPass_keeps | apply State.bump_keeps | apply State.codingRec_keeps | apply State.onBus_keeps
    | apply Bus.ringFull_keeps | apply State.emit_keeps | apply State.holdBuf_keeps | apply State.setFld_keeps
    | apply Keeps.ite | apply Keeps.iteFst | refine Keeps.ofPair ?_ ‹_› | split | apply BusKeeps.ite | dsimp only
    | dsimp +zetaDelta only

theorem State.encBlocks_keeps {z : State} {s : State} {c : ℕ} {n : ℕ} {b : ℕ} {crop : ℕ × ℕ × ℕ × ℕ} (h : Keeps z s)  :
    Keeps z (State.encBlocks s c n b crop).1 := by
  unfold State.encBlocks
  repeat' with_reducible first
    | assumption | intro _ | extract_lets | exact BusKeeps.refl _ | apply State.fetchBlock_keeps | apply Keeps.ite
    | apply Keeps.iteFst | apply Keeps.foldl | apply Keeps.foldlFst | apply BusKeeps.foldl | refine Keeps.ofPair ?_ ‹_›
    | split

theorem State.encInput_keeps {z : State} {s : State} {c : ℕ} (h : Keeps z s)  :
    Keeps z (State.encInput s c) := by
  unfold State.encInput
  repeat' with_reducible first
    | assumption | extract_lets | exact BusKeeps.refl _ | apply State.encBlocks_keeps | apply State.setEnc_keeps
    | apply State.releaseBuf_keeps | apply State.encAbandon_keeps | apply Keeps.ite | apply Keeps.iteFst
    | refine Keeps.ofPair ?_ ‹_› | split

theorem State.encCapped_keeps {z : State} {s : State} {c : ℕ} {poc : ℕ} {first : ℕ} {limit : ℕ} (h : Keeps z s)  :
    Keeps z (State.encCapped s c poc first limit) := by
  unfold State.encCapped
  repeat' with_reducible first
    | assumption | intro _ | extract_lets | exact BusKeeps.refl _ | apply State.bump_keeps | apply State.emit_keeps
    | apply State.setEnc_keeps | apply Keeps.ite

theorem State.fetchEach_keeps {z : State} {s : State} {m : ℕ} {base : ℕ} {reads : List (ℕ × ℕ)} (h : Keeps z s)  :
    Keeps z (State.fetchEach s m base reads).1 := by
  unfold State.fetchEach
  repeat' with_reducible first
    | assumption | intro _ | exact BusKeeps.refl _ | apply State.fetchBytes_keeps | apply Keeps.foldl | apply Keeps.foldlFst
    | apply BusKeeps.foldl | refine Keeps.ofPair ?_ ‹_› | split

theorem State.encWindows_keeps {z : State} {s : State} {c : ℕ} {base : ℕ} (h : Keeps z s)  :
    Keeps z (State.encWindows s c base).1 := by
  unfold State.encWindows
  repeat' with_reducible first
    | assumption | intro _ | extract_lets | exact BusKeeps.refl _ | apply State.fetchEach_keeps | apply Keeps.foldl
    | apply Keeps.foldlFst | apply BusKeeps.foldl | refine Keeps.ofPair ?_ ‹_› | split

theorem State.encPost_keeps {z : State} {s : State} {c : ℕ} {j : EncJob} {au : List Byte} {first : Option ℕ} {pos : ℕ} (h : Keeps z s)  :
    Keeps z (State.encPost s c j au first pos) := by
  unfold State.encPost
  repeat' with_reducible first
    | assumption | extract_lets | exact BusKeeps.refl _ | apply Bus.post_keeps | apply State.setEnc_keeps
    | apply State.setReg_keeps | apply State.setFld_keeps | apply State.bump_keeps | apply State.emit_keeps
    | apply State.encCapped_keeps | apply State.encState_keeps | apply Keeps.ite | apply Keeps.iteFst
    | refine Keeps.ofPair ?_ ‹_› | split | dsimp only | dsimp +zetaDelta only | (fail_if_no_progress apply Keeps.mk')

theorem State.encEnd_keeps {z : State} {s : State} {c : ℕ} (h : Keeps z s)  :
    Keeps z (State.encEnd s c) := by
  unfold State.encEnd
  repeat' with_reducible first
    | assumption | extract_lets | exact BusKeeps.refl _ | apply State.encWindows_keeps | apply State.store_keeps
    | apply State.encAbandon_keeps | apply State.encPost_keeps | apply Keeps.ite | apply Keeps.iteFst
    | refine Keeps.ofPair ?_ ‹_› | split

theorem State.encCapWrite_keeps {z : State} {s : State} {host : ℕ} {c : ℕ} {sec : Bool} {v : Word} (h : Keeps z s)  :
    Keeps z (State.encCapWrite s host c sec v) := by
  unfold State.encCapWrite
  repeat' with_reducible first
    | assumption | intro _ | extract_lets | apply State.hostWrite_keeps | apply State.setFld_keeps | apply State.setReg_keeps
    | apply Keeps.ite

theorem select_keeps {z : State} {x0 : ℕ} {x1 : ℕ} {x2 : FEntry} {x3 : State} (h : Keeps z x3)  :
    Keeps z (select x0 x1 x2 x3).1 := by
  unfold select
  repeat' with_reducible first
    | assumption | intro _ | extract_lets | exact BusKeeps.refl _ | apply checked_keeps | apply done_keeps
    | apply State.setEnc_keeps

theorem requestIdr_keeps {z : State} {x0 : ℕ} {x1 : ℕ} {x2 : FEntry} {x3 : State} (h : Keeps z x3)  :
    Keeps z (requestIdr x0 x1 x2 x3).1 := by
  unfold requestIdr
  repeat' with_reducible first
    | assumption | intro _ | extract_lets | exact BusKeeps.refl _ | apply checked_keeps | apply done_keeps
    | apply State.setEnc_keeps

theorem execHostPortReset_keeps {z : State} {port : ℕ} {s : State} (h : Keeps z s)  :
    AnswerKeeps z (execHostPortReset port s) := by
  unfold execHostPortReset
  repeat' with_reducible first
    | assumption | intro _ | apply State.fabric_keeps | apply State.encCuts_keeps | apply State.hostPortReset_keeps

theorem execEncodeInstant_keeps {z : State} {c : ℕ} {s : State} (h : Keeps z s)  :
    AnswerKeeps z (execEncodeInstant c s) := by
  unfold execEncodeInstant
  repeat' with_reducible first
    | assumption | intro _ | apply State.fabric_keeps | apply State.encInstant_keeps

theorem execEncodePictureEnd_keeps {z : State} {c : ℕ} {s : State} (h : Keeps z s)  :
    AnswerKeeps z (execEncodePictureEnd c s) := by
  unfold execEncodePictureEnd
  repeat' with_reducible first
    | assumption | intro _ | apply State.fabric_keeps | apply State.encEnd_keeps

theorem execEncInputRelease_keeps {z : State} {c : ℕ} {s : State} (h : Keeps z s)  :
    AnswerKeeps z (execEncInputRelease c s) := by
  unfold execEncInputRelease
  repeat' with_reducible first
    | assumption | intro _ | apply State.fabric_keeps | apply State.encInput_keeps

theorem execEncCapWrite_keeps {z : State} {host : ℕ} {c : ℕ} {sec : Bool} {v : Word} {s : State} (h : Keeps z s)  :
    AnswerKeeps z (execEncCapWrite host c sec v s) := by
  unfold execEncCapWrite
  repeat' with_reducible first
    | assumption | intro _ | apply State.fabric_keeps | apply State.encCapWrite_keeps

theorem execSelect_keeps {z : State} {r : ℕ} {k : ℕ} {s : State} (h : Keeps z s)  :
    AnswerKeeps z (execSelect r k s) := by
  unfold execSelect
  repeat' with_reducible first
    | assumption | intro _ | apply State.fabric_keeps | apply State.runCmd_keeps | apply select_keeps

theorem execRequestIdr_keeps {z : State} {r : ℕ} {k : ℕ} {s : State} (h : Keeps z s)  :
    AnswerKeeps z (execRequestIdr r k s) := by
  unfold execRequestIdr
  repeat' with_reducible first
    | assumption | intro _ | apply State.fabric_keeps | apply State.runCmd_keeps | apply requestIdr_keeps

end Sys2Proof.Machine
end

