-- ==== Sys2Proof/Laws/KeepsTouch.lean ====
section
/-! SUPPORT. What the operations and commands of Machine/Touch.lean keep: one law each. -/

namespace Sys2Proof.Machine

theorem State.panSetFreq_keeps {z : State} {s : State} {p : ℕ} {f : ℕ} {v : PanFreq} (h : Keeps z s)  :
    Keeps z (State.panSetFreq s p f v) := by
  unfold State.panSetFreq
  repeat' with_reducible first
    | assumption | extract_lets | exact BusKeeps.refl _ | apply State.setFld_keeps | apply State.setPan_keeps

theorem State.panRecord_keeps {z : State} {s : State} {p : ℕ} {what : ℕ} {f : ℕ} {src : ℕ} {stamp : Word} {up : ℕ} {down : ℕ} {check : ℕ} (h : Keeps z s)  :
    Keeps z (State.panRecord s p what f src stamp up down check) := by
  unfold State.panRecord
  repeat' with_reducible first
    | assumption | apply State.journal_keeps

theorem State.panChoose_keeps {z : State} {s : State} {p : ℕ} (h : Keeps z s)  :
    Keeps z (State.panChoose s p) := by
  unfold State.panChoose
  repeat' with_reducible first
    | assumption | extract_lets | apply State.panShow_keeps | apply State.setFld_keeps

theorem State.panForce_keeps {z : State} {s : State} {p : ℕ} (h : Keeps z s)  :
    Keeps z (State.panForce s p) := by
  unfold State.panForce
  repeat' with_reducible first
    | assumption | intro _ | extract_lets | exact BusKeeps.refl _ | apply State.setPan_keeps | apply State.panSetFreq_keeps
    | apply State.panChoose_keeps | apply Keeps.ite | apply Keeps.forEach

theorem State.panSend_keeps {z : State} {s : State} {p : ℕ} {op : ℕ} {kind : ℕ} {f : ℕ} {start : Word} {answer : ℕ} {cyc : PanCyc} (h : Keeps z s)  :
    Keeps z (State.panSend s p op kind f start answer cyc).1 := by
  unfold State.panSend
  repeat' with_reducible first
    | assumption | extract_lets | exact BusKeeps.refl _ | apply State.setPan_keeps | apply State.sendNew_keeps

theorem State.panMeasure_keeps {z : State} {s : State} {p : ℕ} {ms : List (ℕ × ℕ × Word)} {cyc : PanCyc} (h : Keeps z s)  :
    Keeps z (State.panMeasure s p ms cyc).1 := by
  unfold State.panMeasure
  repeat' with_reducible first
    | assumption | intro _ | apply State.panSend_keeps | apply Keeps.foldl | apply Keeps.foldlFst

theorem State.panOpen_keeps {z : State} {s : State} {p : ℕ} {c : PanCyc} (h : Keeps z s)  :
    Keeps z (State.panOpen s p c) := by
  unfold State.panOpen
  repeat' with_reducible first
    | assumption | intro _ | extract_lets | exact BusKeeps.refl _ | apply State.setPan_keeps

theorem State.panStart_keeps {z : State} {s : State} {p : ℕ} (h : Keeps z s)  :
    Keeps z (State.panStart s p) := by
  unfold State.panStart
  repeat' with_reducible first
    | assumption | intro _ | extract_lets | exact BusKeeps.refl _ | apply State.setPan_keeps | apply State.panSend_keeps
    | apply State.panMeasure_keeps | apply State.panOpen_keeps | apply Keeps.ite | apply Keeps.iteFst | apply Keeps.foldl
    | apply Keeps.foldlFst

theorem State.panStartTest_keeps {z : State} {s : State} {p : ℕ} (h : Keeps z s)  :
    Keeps z (State.panStartTest s p) := by
  unfold State.panStartTest
  repeat' with_reducible first
    | assumption | extract_lets | apply State.panMeasure_keeps | apply State.panOpen_keeps

theorem State.panOverrun_keeps {z : State} {s : State} {p : ℕ} {us : ℕ} (h : Keeps z s)  :
    Keeps z (State.panOverrun s p us) := by
  unfold State.panOverrun
  repeat' with_reducible first
    | assumption | intro _ | extract_lets | exact BusKeeps.refl _ | apply State.emit_keeps | apply State.setPan_keeps
    | apply Keeps.ite

theorem State.panCycle_keeps {z : State} {s : State} {p : ℕ} {start : Word} (h : Keeps z s)  :
    Keeps z (State.panCycle s p start) := by
  unfold State.panCycle
  repeat' with_reducible first
    | assumption | extract_lets | exact BusKeeps.refl _ | apply State.panForce_keeps | apply State.setPan_keeps
    | apply State.panOverrun_keeps | apply State.panMeasure_keeps | apply State.panOpen_keeps | apply Keeps.ite

theorem State.panCycleStart_keeps {z : State} {s : State} {p : ℕ} (h : Keeps z s)  :
    Keeps z (State.panCycleStart s p) := by
  unfold State.panCycleStart
  repeat' with_reducible first
    | assumption | apply State.panCycle_keeps | apply Keeps.ite

theorem State.panDoubt_keeps {z : State} {s : State} {p : ℕ} {cond : ℕ} {id : ℕ} {stamp : Word} {cause : ℕ} (h : Keeps z s)  :
    Keeps z (State.panDoubt s p cond id stamp cause) := by
  unfold State.panDoubt
  repeat' with_reducible first
    | assumption | extract_lets | exact BusKeeps.refl _ | apply State.giveUp_keeps | apply State.emit_keeps
    | apply State.bump_keeps | apply State.setPan_keeps | apply State.panUnavail_keeps | apply Keeps.ite

theorem State.panTest_keeps {z : State} {s : State} {p : ℕ} {kind : ℕ} {id : ℕ} {stamp : Word} {v : List ℕ} (h : Keeps z s)  :
    Keeps z (State.panTest s p kind id stamp v) := by
  unfold State.panTest
  repeat' with_reducible first
    | assumption | extract_lets | exact BusKeeps.refl _ | apply State.setReg_keeps | apply State.setPan_keeps
    | apply State.panDoubt_keeps | apply State.emit_keeps | apply State.panShow_keeps | apply State.complete_keeps
    | apply Keeps.ite | apply Keeps.iteFst | refine Keeps.ofPair ?_ ‹_› | split

theorem State.panTestDue_keeps {z : State} {s : State} {p : ℕ} (h : Keeps z s)  :
    Keeps z (State.panTestDue s p) := by
  unfold State.panTestDue
  repeat' with_reducible first
    | assumption | extract_lets | exact BusKeeps.refl _ | apply State.setPan_keeps | apply Keeps.ite

theorem State.panStarted_keeps {z : State} {s : State} {p : ℕ} {c : PanCyc} (h : Keeps z s)  :
    Keeps z (State.panStarted s p c) := by
  unfold State.panStarted
  repeat' with_reducible first
    | assumption | intro _ | extract_lets | exact BusKeeps.refl _ | apply State.panSetFreq_keeps | apply State.setFld_keeps
    | apply State.panRecord_keeps | apply State.panStartTest_keeps | apply State.panChoose_keeps | apply Keeps.ite
    | apply Keeps.iteFst | apply Keeps.forEach | apply Keeps.forEachFst | apply Keeps.foldl | apply Keeps.foldlFst
    | apply BusKeeps.foldl | refine Keeps.ofPair ?_ ‹_› | split

theorem State.panStartTested_keeps {z : State} {s : State} {p : ℕ} {c : PanCyc} (h : Keeps z s)  :
    Keeps z (State.panStartTested s p c) := by
  unfold State.panStartTested
  repeat' with_reducible first
    | assumption | intro _ | extract_lets | exact BusKeeps.refl _ | apply State.panTest_keeps | apply State.setPan_keeps
    | apply State.setFld_keeps | apply State.onBus_keeps | apply Bus.enter_keeps | apply State.emit_keeps
    | apply State.panShow_keeps | apply State.panPost_keeps | apply Keeps.ite | apply Keeps.iteFst | apply Keeps.forEach

theorem State.panExpire_keeps {z : State} {s : State} {p : ℕ} (h : Keeps z s)  :
    Keeps z (State.panExpire s p) := by
  unfold State.panExpire
  repeat' with_reducible first
    | assumption | intro _ | extract_lets | exact BusKeeps.refl _ | apply State.setPan_keeps | apply State.emit_keeps
    | apply State.panSuspect_keeps | apply State.panShow_keeps | apply State.bump_keeps | apply Keeps.forEach

theorem State.panContacts_keeps {z : State} {s : State} {p : ℕ} {md : List ℤ} {sd : List ℤ} {stamp : Word} (h : Keeps z s)  :
    Keeps z (State.panContacts s p md sd stamp) := by
  unfold State.panContacts
  repeat' with_reducible first
    | assumption | intro _ | extract_lets | exact BusKeeps.refl _ | apply State.setPan_keeps | apply State.bump_keeps
    | apply Keeps.ite | apply Keeps.forEach | refine Keeps.ofPair ?_ ‹_› | split

theorem State.panKeys_keeps {z : State} {s : State} {p : ℕ} {md : List ℤ} {stamp : Word} (h : Keeps z s)  :
    Keeps z (State.panKeys s p md stamp) := by
  unfold State.panKeys
  repeat' with_reducible first
    | assumption | intro _ | extract_lets | exact BusKeeps.refl _ | apply State.setPan_keeps | apply Keeps.ite

theorem State.panSave_keeps {z : State} {s : State} {p : ℕ} (h : Keeps z s)  :
    Keeps z (State.panSave s p) := by
  unfold State.panSave
  repeat' with_reducible first
    | assumption | intro _ | extract_lets | exact BusKeeps.refl _ | apply State.setPan_keeps | apply State.setLink_keeps
    | apply State.sendItem_keeps | apply State.storeRefused_keeps | apply State.emit_keeps | apply Keeps.ite
    | apply Keeps.forEach | split | dsimp only | dsimp +zetaDelta only | (fail_if_no_progress apply Keeps.mk')

theorem State.panSaveDue_keeps {z : State} {s : State} {p : ℕ} (h : Keeps z s)  :
    Keeps z (State.panSaveDue s p) := by
  unfold State.panSaveDue
  repeat' with_reducible first
    | assumption | extract_lets | apply State.panSave_keeps | apply Keeps.ite

theorem State.panHop_keeps {z : State} {s : State} {p : ℕ} {c : PanCyc} {stamp : Word} (h : Keeps z s)  :
    Keeps z (State.panHop s p c stamp) := by
  unfold State.panHop
  repeat' with_reducible first
    | assumption | intro _ | extract_lets | exact BusKeeps.refl _ | apply State.setPan_keeps | apply State.panRecord_keeps
    | apply State.bump_keeps | apply State.emit_keeps | apply State.panShow_keeps | apply State.setFld_keeps
    | apply Keeps.ite | refine Keeps.ofPair ?_ ‹_› | split

theorem State.panTake_keeps {z : State} {s : State} {p : ℕ} {f : ℕ} {raw : List ℕ} {sraw : List ℕ} {stamp : Word} {reb : Bool} (h : Keeps z s)  :
    Keeps z (State.panTake s p f raw sraw stamp reb) := by
  unfold State.panTake
  repeat' with_reducible first
    | assumption | intro _ | extract_lets | exact BusKeeps.refl _ | apply State.panRecord_keeps
    | apply State.panSetFreq_keeps | apply State.panSave_keeps | apply State.panSuspect_keeps | apply State.complete_keeps
    | apply State.setPan_keeps | apply Keeps.ite | apply Keeps.iteFst | apply Keeps.forEach | apply Keeps.forEachFst
    | refine Keeps.ofPair ?_ ‹_› | split

theorem State.panBaseline_keeps {z : State} {s : State} {p : ℕ} {c : PanCyc} {raw : List ℕ} {sraw : List ℕ} {stamp : Word} {noisy : Bool} (h : Keeps z s)  :
    Keeps z (State.panBaseline s p c raw sraw stamp noisy) := by
  unfold State.panBaseline
  repeat' with_reducible first
    | assumption | intro _ | extract_lets | exact BusKeeps.refl _ | apply State.panTake_keeps | apply State.panSetFreq_keeps
    | apply State.panSuspect_keeps | apply State.panRecord_keeps | apply Keeps.ite

theorem State.panStale_keeps {z : State} {s : State} {p : ℕ} {stamp : Word} {frame : Bool} (h : Keeps z s)  :
    Keeps z (State.panStale s p stamp frame) := by
  unfold State.panStale
  repeat' with_reducible first
    | assumption | extract_lets | apply State.bump_keeps | apply State.giveUp_keeps | apply State.emit_keeps
    | apply State.panFall_keeps

theorem State.panNewKeys_keeps {z : State} {s : State} {p : ℕ} {no : ℕ} (h : Keeps z s)  :
    Keeps z (State.panNewKeys s p no) := by
  unfold State.panNewKeys
  repeat' with_reducible first
    | assumption | extract_lets | exact BusKeeps.refl _ | apply State.setPan_keeps | apply Keeps.ite
    | refine Keeps.ofPair ?_ ‹_› | split

theorem State.panAvailable_keeps {z : State} {s : State} {p : ℕ} (h : Keeps z s)  :
    Keeps z (State.panAvailable s p) := by
  unfold State.panAvailable
  repeat' with_reducible first
    | assumption | intro _ | extract_lets | exact BusKeeps.refl _ | apply State.onBus_keeps | apply Bus.enter_keeps
    | apply State.panWatch_keeps | apply State.emit_keeps | apply State.setFld_keeps | apply Keeps.ite

theorem State.panTrack_keeps {z : State} {s : State} {p : ℕ} {test : Bool} {md : List ℤ} {sd : List ℤ} {stamp : Word} (h : Keeps z s)  :
    Keeps z (State.panTrack s p test md sd stamp) := by
  unfold State.panTrack
  repeat' with_reducible first
    | assumption | extract_lets | exact BusKeeps.refl _ | apply State.panExpire_keeps | apply State.panContacts_keeps
    | apply State.panKeys_keeps | apply State.setPan_keeps | apply State.panShow_keeps | apply State.panPost_keeps
    | apply Keeps.ite

theorem State.panNoises_keeps {z : State} {s : State} {p : ℕ} {c : PanCyc} (h : Keeps z s)  :
    Keeps z (State.panNoises s p c) := by
  unfold State.panNoises
  repeat' with_reducible first
    | assumption | intro _ | exact BusKeeps.refl _ | apply State.panSetFreq_keeps | apply State.setFld_keeps
    | apply State.panTest_keeps | apply Keeps.ite | apply Keeps.iteFst | apply Keeps.forEach

theorem State.panClear_keeps {z : State} {s : State} {p : ℕ} {c : PanCyc} {fresh : Bool} (h : Keeps z s)  :
    Keeps z (State.panClear s p c fresh) := by
  unfold State.panClear
  repeat' with_reducible first
    | assumption | intro _ | extract_lets | exact BusKeeps.refl _ | apply State.panShow_keeps | apply State.setPan_keeps

theorem State.panProcess_keeps {z : State} {s : State} {p : ℕ} {c : PanCyc} (h : Keeps z s)  :
    Keeps z (State.panProcess s p c) := by
  unfold State.panProcess
  repeat' with_reducible first
    | assumption | intro _ | extract_lets | exact BusKeeps.refl _ | apply State.panNoises_keeps
    | apply State.panNewKeys_keeps | apply State.panBaseline_keeps | apply State.panClear_keeps | apply State.setPan_keeps
    | apply State.panAvailable_keeps | apply State.panShow_keeps | apply State.bump_keeps | apply State.panStale_keeps
    | apply State.panTrack_keeps | apply State.panHop_keeps | apply Keeps.ite | apply Keeps.iteFst
    | refine Keeps.ofPair ?_ ‹_› | split

theorem State.panAdapt_keeps {z : State} {s : State} {p : ℕ} (h : Keeps z s)  :
    Keeps z (State.panAdapt s p) := by
  unfold State.panAdapt
  repeat' with_reducible first
    | assumption | intro _ | extract_lets | exact BusKeeps.refl _ | apply State.setPan_keeps | apply State.panSetFreq_keeps
    | apply State.panRecord_keeps | apply Keeps.ite | apply Keeps.iteFst | refine Keeps.ofPair ?_ ‹_› | split

theorem State.panAge_keeps {z : State} {s : State} {p : ℕ} (h : Keeps z s)  :
    Keeps z (State.panAge s p) := by
  unfold State.panAge
  repeat' with_reducible first
    | assumption | extract_lets | exact BusKeeps.refl _ | apply State.panStale_keeps | apply Keeps.ite
    | refine Keeps.ofPair ?_ ‹_› | split

theorem State.panRepeat_keeps {z : State} {s : State} {p : ℕ} (h : Keeps z s)  :
    Keeps z (State.panRepeat s p) := by
  unfold State.panRepeat
  repeat' with_reducible first
    | assumption | extract_lets | exact BusKeeps.refl _ | apply State.panPost_keeps | apply State.setPan_keeps
    | apply Keeps.ite

theorem State.panFrame_keeps {z : State} {s : State} {p : ℕ} {pk : Pkt} {v : List ℕ} (h : Keeps z s)  :
    Keeps z (State.panFrame s p pk v) := by
  unfold State.panFrame
  repeat' with_reducible first
    | assumption | intro _ | extract_lets | exact BusKeeps.refl _ | apply State.panDoubt_keeps | apply State.setPan_keeps
    | apply State.panStartTested_keeps | apply State.panStarted_keeps | apply State.panProcess_keeps | apply Keeps.ite
    | apply Keeps.iteFst | refine Keeps.ofPair ?_ ‹_› | split

theorem State.panCull_keeps {z : State} {s : State} {p : ℕ} {port : ℕ} {alive : ℕ} (h : Keeps z s)  :
    Keeps z (State.panCull s p port alive) := by
  unfold State.panCull
  repeat' with_reducible first
    | assumption | extract_lets | exact BusKeeps.refl _ | apply State.linkCull_keeps | apply State.setPan_keeps

theorem State.panSegment_keeps {z : State} {s : State} {p : ℕ} {port : ℕ} {pk : Pkt} {it : PanItem} {bufOk : Bool} (h : Keeps z s)  :
    Keeps z (State.panSegment s p port pk it bufOk) := by
  unfold State.panSegment
  repeat' with_reducible first
    | assumption | intro _ | extract_lets | exact BusKeeps.refl _ | apply State.setPan_keeps | apply State.panCull_keeps
    | apply State.linkCull_keeps | apply State.panDoubt_keeps | apply State.panFrame_keeps | apply Keeps.ite

theorem State.panRx_keeps {z : State} {s : State} {port : ℕ} {sync : Bool} {raw : List Byte} {bufOk : Bool} (h : Keeps z s)  :
    Keeps z (State.panRx s port sync raw bufOk) := by
  unfold State.panRx
  repeat' with_reducible first
    | assumption | intro _ | extract_lets | exact BusKeeps.refl _ | apply State.receive_keeps | apply State.panCull_keeps
    | apply State.aliveCheck_keeps | apply State.panDoubt_keeps | apply State.panSegment_keeps | apply Keeps.ite
    | apply Keeps.iteFst | refine Keeps.ofPair ?_ ‹_› | split | dsimp only | dsimp +zetaDelta only

theorem State.panEnter_keeps {z : State} {s : State} {p : ℕ} (h : Keeps z s)  :
    Keeps z (State.panEnter s p) := by
  unfold State.panEnter
  repeat' with_reducible first
    | assumption | exact BusKeeps.refl _ | apply State.setReg_keeps | apply State.setPan_keeps

theorem State.panOff_keeps {z : State} {s : State} {p : ℕ} (h : Keeps z s)  :
    Keeps z (State.panOff s p) := by
  unfold State.panOff
  repeat' with_reducible first
    | assumption | intro _ | extract_lets | exact BusKeeps.refl _ | apply State.panPost_keeps | apply State.panRelease_keeps
    | apply State.setPan_keeps | apply State.setReg_keeps | apply Keeps.ite | apply Keeps.forEach

theorem keysLoad_keeps {z : State} {x0 : ℕ} {x1 : ℕ} {x2 : FEntry} {x3 : State} (h : Keeps z x3)  :
    Keeps z (keysLoad x0 x1 x2 x3).1 := by
  unfold keysLoad
  repeat' with_reducible first
    | assumption | intro _ | extract_lets | exact BusKeeps.refl _ | apply checked_keeps | apply done_keeps
    | apply State.load_keeps | apply State.setPan_keeps | apply Keeps.ite | refine Keeps.ofPair ?_ ‹_› | split

theorem rebaseline_keeps {z : State} {x0 : ℕ} {x1 : ℕ} {x2 : FEntry} {x3 : State} (h : Keeps z x3)  :
    Keeps z (rebaseline x0 x1 x2 x3).1 := by
  unfold rebaseline
  repeat' with_reducible first
    | assumption | intro _ | extract_lets | exact BusKeeps.refl _ | apply checked_keeps | apply done_keeps
    | apply State.panRelease_keeps | apply State.panShow_keeps | apply State.setPan_keeps | apply Keeps.ite
    | apply Keeps.iteFst

theorem selfTest_keeps {z : State} {x0 : ℕ} {x1 : ℕ} {x2 : FEntry} {x3 : State} (h : Keeps z x3)  :
    Keeps z (selfTest x0 x1 x2 x3).1 := by
  unfold selfTest
  repeat' with_reducible first
    | assumption | intro _ | extract_lets | exact BusKeeps.refl _ | apply checked_keeps | apply done_keeps
    | apply State.setPan_keeps | apply Keeps.ite | split

theorem rawRead_keeps {z : State} {x0 : ℕ} {x1 : ℕ} {x2 : FEntry} {x3 : State} (h : Keeps z x3)  :
    Keeps z (rawRead x0 x1 x2 x3).1 := by
  unfold rawRead
  repeat' with_reducible first
    | assumption | intro _ | extract_lets | exact BusKeeps.refl _ | apply checked_keeps | apply done_keeps
    | apply State.store_keeps | apply Keeps.ite | refine Keeps.ofPair ?_ ‹_› | split

theorem execPanelStart_keeps {z : State} {p : ℕ} {s : State} (h : Keeps z s)  :
    AnswerKeeps z (execPanelStart p s) := by
  unfold execPanelStart
  repeat' with_reducible first
    | assumption | intro _ | apply State.fabric_keeps | apply State.panStart_keeps

theorem execTouchCycleStart_keeps {z : State} {p : ℕ} {s : State} (h : Keeps z s)  :
    AnswerKeeps z (execTouchCycleStart p s) := by
  unfold execTouchCycleStart
  repeat' with_reducible first
    | assumption | intro _ | apply State.fabric_keeps | apply State.panCycleStart_keeps

theorem execTouchFrameRx_keeps {z : State} {port : ℕ} {skew : List ℕ} {lines : List (List Bool)} {bufOk : Bool} {s : State} (h : Keeps z s)  :
    AnswerKeeps z (execTouchFrameRx port skew lines bufOk s) := by
  unfold execTouchFrameRx
  repeat' with_reducible first
    | assumption | intro _ | apply State.fabric_keeps | apply State.arrives_keeps | apply State.panRx_keeps

theorem execTouchAgeTimeout_keeps {z : State} {p : ℕ} {s : State} (h : Keeps z s)  :
    AnswerKeeps z (execTouchAgeTimeout p s) := by
  unfold execTouchAgeTimeout
  repeat' with_reducible first
    | assumption | intro _ | apply State.fabric_keeps | apply State.panAge_keeps

theorem execUnavailableRepeat_keeps {z : State} {p : ℕ} {s : State} (h : Keeps z s)  :
    AnswerKeeps z (execUnavailableRepeat p s) := by
  unfold execUnavailableRepeat
  repeat' with_reducible first
    | assumption | intro _ | apply State.fabric_keeps | apply State.panRepeat_keeps

theorem execBaselineAdapt_keeps {z : State} {p : ℕ} {s : State} (h : Keeps z s)  :
    AnswerKeeps z (execBaselineAdapt p s) := by
  unfold execBaselineAdapt
  repeat' with_reducible first
    | assumption | intro _ | apply State.fabric_keeps | apply State.panAdapt_keeps

theorem execBaselineSaved_keeps {z : State} {p : ℕ} {s : State} (h : Keeps z s)  :
    AnswerKeeps z (execBaselineSaved p s) := by
  unfold execBaselineSaved
  repeat' with_reducible first
    | assumption | intro _ | apply State.fabric_keeps | apply State.panSaveDue_keeps

theorem execContactExpired_keeps {z : State} {p : ℕ} {s : State} (h : Keeps z s)  :
    AnswerKeeps z (execContactExpired p s) := by
  unfold execContactExpired
  repeat' with_reducible first
    | assumption | intro _ | apply State.fabric_keeps | apply State.panExpire_keeps | apply Keeps.ite

theorem execSelfTestDue_keeps {z : State} {p : ℕ} {s : State} (h : Keeps z s)  :
    AnswerKeeps z (execSelfTestDue p s) := by
  unfold execSelfTestDue
  repeat' with_reducible first
    | assumption | intro _ | apply State.fabric_keeps | apply State.panTestDue_keeps

theorem execKeysLoad_keeps {z : State} {r : ℕ} {k : ℕ} {s : State} (h : Keeps z s)  :
    AnswerKeeps z (execKeysLoad r k s) := by
  unfold execKeysLoad
  repeat' with_reducible first
    | assumption | intro _ | apply State.fabric_keeps | apply State.runCmd_keeps | apply keysLoad_keeps

theorem execRebaseline_keeps {z : State} {r : ℕ} {k : ℕ} {s : State} (h : Keeps z s)  :
    AnswerKeeps z (execRebaseline r k s) := by
  unfold execRebaseline
  repeat' with_reducible first
    | assumption | intro _ | apply State.fabric_keeps | apply State.runCmd_keeps | apply rebaseline_keeps

theorem execSelfTest_keeps {z : State} {r : ℕ} {k : ℕ} {s : State} (h : Keeps z s)  :
    AnswerKeeps z (execSelfTest r k s) := by
  unfold execSelfTest
  repeat' with_reducible first
    | assumption | intro _ | apply State.fabric_keeps | apply State.runCmd_keeps | apply selfTest_keeps

theorem execRawRead_keeps {z : State} {r : ℕ} {k : ℕ} {s : State} (h : Keeps z s)  :
    AnswerKeeps z (execRawRead r k s) := by
  unfold execRawRead
  repeat' with_reducible first
    | assumption | intro _ | apply State.fabric_keeps | apply State.runCmd_keeps | apply rawRead_keeps

end Sys2Proof.Machine
end

