-- ==== Sys2Proof/Laws/KeepsJournal.lean ====
section
/-! SUPPORT. What the operations and commands of Machine/Journal.lean keep: one law each. -/

namespace Sys2Proof.Machine

theorem State.setJrn_keeps {z : State} {s : State} {j : JrnSt} (h : Keeps z s)  :
    Keeps z (State.setJrn s j) := by
  unfold State.setJrn
  repeat' with_reducible first
    | assumption | exact BusKeeps.refl _ | (fail_if_no_progress apply Keeps.mk')

theorem State.jrnRead_keeps {z : State} {s : State} {pos : ℕ} {n : ℕ} (h : Keeps z s)  :
    Keeps z (State.jrnRead s pos n).1 := by
  unfold State.jrnRead
  repeat' with_reducible first
    | assumption | extract_lets | exact BusKeeps.refl _ | apply State.load_keeps | apply Keeps.ite | apply Keeps.iteFst
    | refine Keeps.ofPair ?_ ‹_› | split

theorem State.jrnAdvance_keeps {z : State} {s : State} {n : ℕ} (h : Keeps z s)  :
    Keeps z (State.jrnAdvance s n) := by
  unfold State.jrnAdvance
  repeat' with_reducible first
    | assumption | intro _ | extract_lets | exact BusKeeps.refl _ | apply State.setJrn_keeps | apply State.onBus_keeps
    | apply Bus.setReg_keeps | apply Bus.setFld_keeps | apply Keeps.ite

theorem State.jrnWrite_keeps {z : State} {s : State} {data : List Byte} (h : Keeps z s)  :
    Keeps z (State.jrnWrite s data).1 := by
  unfold State.jrnWrite
  repeat' with_reducible first
    | assumption | extract_lets | apply State.store_keeps | apply State.jrnAdvance_keeps | apply Keeps.ite
    | apply Keeps.iteFst

theorem State.jrnPut_keeps {z : State} {s : State} {r : List Byte} (h : Keeps z s)  :
    Keeps z (State.jrnPut s r).1 := by
  unfold State.jrnPut
  repeat' with_reducible first
    | assumption | extract_lets | apply State.jrnWrite_keeps | apply Keeps.ite

theorem State.frCopy_keeps {z : State} {s : State} (h : Keeps z s)  :
    Keeps z (State.frCopy s) := by
  unfold State.frCopy
  repeat' with_reducible first
    | assumption | intro _ | extract_lets | exact BusKeeps.refl _ | apply State.jrnRead_keeps | apply State.setJrn_keeps
    | apply State.store_keeps | apply State.onBus_keeps | apply Bus.setFld_keeps | apply Bus.setReg_keeps | apply Keeps.ite
    | apply Keeps.iteFst | refine Keeps.ofPair ?_ ‹_› | split

theorem State.frOpen_keeps {z : State} {s : State} {i : ℕ} {cause : ℕ} {t : Word} {tick : ℕ} {wait : Option (ℕ × ℕ)} (h : Keeps z s)  :
    Keeps z (State.frOpen s i cause t tick wait) := by
  unfold State.frOpen
  repeat' with_reducible first
    | assumption | intro _ | extract_lets | exact BusKeeps.refl _ | apply State.onBus_keeps | apply Bus.setReg_keeps
    | apply Bus.setFld_keeps | apply State.frCopy_keeps | apply State.setJrn_keeps

theorem State.frCount_keeps {z : State} {s : State} {f : FrRun} {wait : Option (ℕ × ℕ)} (h : Keeps z s)  :
    Keeps z (State.frCount s f wait) := by
  unfold State.frCount
  repeat' with_reducible first
    | assumption | intro _ | extract_lets | exact BusKeeps.refl _ | apply State.setJrn_keeps | apply State.onBus_keeps
    | apply Bus.setFld_keeps

theorem State.frLost_keeps {z : State} {s : State} {cause : ℕ} {wait : Option (ℕ × ℕ)} (h : Keeps z s)  :
    Keeps z (State.frLost s cause wait) := by
  unfold State.frLost
  repeat' with_reducible first
    | assumption | extract_lets | exact BusKeeps.refl _ | apply State.emit_keeps | apply State.complete_keeps
    | refine Keeps.ofPair ?_ ‹_› | split

theorem State.frStart_keeps {z : State} {s : State} {cause : ℕ} {t : Word} {tick : ℕ} {wait : Option (ℕ × ℕ)} (h : Keeps z s)  :
    Keeps z (State.frStart s cause t tick wait) := by
  unfold State.frStart
  repeat' with_reducible first
    | assumption | exact BusKeeps.refl _ | apply State.frLost_keeps | apply State.frOpen_keeps | refine Keeps.ofPair ?_ ‹_›
    | split

theorem State.frTrigger_keeps {z : State} {s : State} (h : Keeps z s)  :
    Keeps z (State.frTrigger s) := by
  unfold State.frTrigger
  repeat' with_reducible first
    | assumption | exact BusKeeps.refl _ | apply State.setJrn_keeps | apply State.frCount_keeps | apply State.frStart_keeps
    | refine Keeps.ofPair ?_ ‹_› | split | (conv => arg 2; whnf)

theorem State.dumpNext_keeps {z : State} {s : State} (h : Keeps z s)  :
    Keeps z (State.dumpNext s) := by
  unfold State.dumpNext
  repeat' with_reducible first
    | assumption | intro _ | extract_lets | exact BusKeeps.refl _ | apply State.setJrn_keeps | apply State.storeRefused_keeps
    | apply Keeps.ite | refine Keeps.ofPair ?_ ‹_› | split

theorem State.dumpEnds_keeps {z : State} {s : State} {written : Option ℕ} (h : Keeps z s)  :
    Keeps z (State.dumpEnds s written) := by
  unfold State.dumpEnds
  repeat' with_reducible first
    | assumption | intro _ | extract_lets | exact BusKeeps.refl _ | apply State.onBus_keeps | apply Bus.setFld_keeps
    | apply State.dumpNext_keeps | apply State.setJrn_keeps | refine Keeps.ofPair ?_ ‹_› | split | dsimp only
    | dsimp +zetaDelta only

theorem State.frFrozen_keeps {z : State} {s : State} (h : Keeps z s)  :
    Keeps z (State.frFrozen s) := by
  unfold State.frFrozen
  repeat' with_reducible first
    | assumption | intro _ | extract_lets | exact BusKeeps.refl _ | apply State.setJrn_keeps | apply State.onBus_keeps
    | apply Bus.setFld_keeps | apply State.emit_keeps | apply State.complete_keeps | apply State.dumpNext_keeps
    | apply Keeps.ite | apply Keeps.iteFst | apply Keeps.forEach | apply Keeps.forEachFst | refine Keeps.ofPair ?_ ‹_›
    | split

theorem State.frDumped_keeps {z : State} {s : State} (h : Keeps z s)  :
    Keeps z (State.frDumped s) := by
  unfold State.frDumped
  repeat' with_reducible first
    | assumption | extract_lets | exact BusKeeps.refl _ | apply State.storeRefused_keeps | apply State.setJrn_keeps
    | apply State.complete_keeps | apply State.dumpEnds_keeps | apply State.load_keeps | apply State.emit_keeps
    | apply Keeps.ite | apply Keeps.iteFst | refine Keeps.ofPair ?_ ‹_› | split | dsimp only | dsimp +zetaDelta only
    | (fail_if_no_progress apply Keeps.mk')

theorem State.jrnDrain_keeps {z : State} {s : State} (h : Keeps z s)  :
    Keeps z (State.jrnDrain s) := by
  unfold State.jrnDrain
  repeat' with_reducible first
    | assumption | intro _ | extract_lets | exact BusKeeps.refl _ | apply State.emit_keeps | apply State.onBus_keeps
    | apply Bus.setFld_keeps | apply Bus.bump_keeps | apply State.jrnPut_keeps | apply State.frCopy_keeps | apply Keeps.ite
    | apply Keeps.iteFst | apply Keeps.foldl | apply Keeps.foldlFst | apply BusKeeps.foldl | refine Keeps.ofPair ?_ ‹_›
    | split | apply BusKeeps.ite | dsimp only | dsimp +zetaDelta only | (fail_if_no_progress apply Keeps.mk')
    | (fail_if_no_progress apply BusKeeps.mk')

theorem State.ckptStart_keeps {z : State} {s : State} (h : Keeps z s)  :
    Keeps z (State.ckptStart s) := by
  unfold State.ckptStart
  repeat' with_reducible first
    | assumption | intro _ | extract_lets | exact BusKeeps.refl _ | apply State.setJrn_keeps | apply State.jrnDrain_keeps
    | apply State.journal_keeps | apply State.jrnWrite_keeps | apply State.onBus_keeps | apply Bus.setFld_keeps
    | apply State.frCopy_keeps | apply Keeps.ite

theorem State.ckptEnd_keeps {z : State} {s : State} (h : Keeps z s)  :
    Keeps z (State.ckptEnd s) := by
  unfold State.ckptEnd
  repeat' with_reducible first
    | assumption | intro _ | extract_lets | exact BusKeeps.refl _ | apply State.journal_keeps | apply State.jrnDrain_keeps
    | apply State.setJrn_keeps | apply State.onBus_keeps | apply Bus.setReg_keeps | apply Bus.setFld_keeps | apply Keeps.ite
    | refine Keeps.ofPair ?_ ‹_› | split

theorem State.ckptAbandoned_keeps {z : State} {s : State} (h : Keeps z s)  :
    Keeps z (State.ckptAbandoned s) := by
  unfold State.ckptAbandoned
  repeat' with_reducible first
    | assumption | intro _ | exact BusKeeps.refl _ | apply State.emit_keeps | apply State.onBus_keeps
    | apply State.setJrn_keeps | apply Bus.setFld_keeps | apply Keeps.ite | refine Keeps.ofPair ?_ ‹_› | split

theorem freeze_keeps {z : State} {x0 : ℕ} {x1 : ℕ} {x2 : FEntry} {x3 : State} (h : Keeps z x3)  :
    Keeps z (freeze x0 x1 x2 x3).1 := by
  unfold freeze
  repeat' with_reducible first
    | assumption | intro _ | apply checked_keeps | apply State.trigger_keeps

theorem release_keeps {z : State} {x0 : ℕ} {x1 : ℕ} {x2 : FEntry} {x3 : State} (h : Keeps z x3)  :
    Keeps z (release x0 x1 x2 x3).1 := by
  unfold release
  repeat' with_reducible first
    | assumption | intro _ | extract_lets | exact BusKeeps.refl _ | apply checked_keeps | apply done_keeps
    | apply State.onBus_keeps | apply Bus.setFld_keeps | apply Keeps.ite | split

theorem dump_keeps {z : State} {x0 : ℕ} {x1 : ℕ} {x2 : FEntry} {x3 : State} (h : Keeps z x3)  :
    Keeps z (dump x0 x1 x2 x3).1 := by
  unfold dump
  repeat' with_reducible first
    | assumption | intro _ | extract_lets | exact BusKeeps.refl _ | apply checked_keeps | apply done_keeps
    | apply State.storeRefused_keeps | apply State.setJrn_keeps | apply Keeps.ite | split

theorem mark_keeps {z : State} {x0 : ℕ} {x1 : ℕ} {x2 : FEntry} {x3 : State} (h : Keeps z x3)  :
    Keeps z (mark x0 x1 x2 x3).1 := by
  unfold mark
  repeat' with_reducible first
    | assumption | intro _ | apply checked_keeps | apply done_keeps | apply State.journal_keeps

theorem execCheckpointStart_keeps {z : State} {s : State} (h : Keeps z s)  :
    AnswerKeeps z (execCheckpointStart s) := by
  unfold execCheckpointStart
  repeat' with_reducible first
    | assumption | intro _ | apply State.fabric_keeps | apply State.ckptStart_keeps

theorem execCkptAbandoned_keeps {z : State} {s : State} (h : Keeps z s)  :
    AnswerKeeps z (execCkptAbandoned s) := by
  unfold execCkptAbandoned
  repeat' with_reducible first
    | assumption | intro _ | apply State.fabric_keeps | apply State.ckptAbandoned_keeps

theorem execFrTrigger_keeps {z : State} {s : State} (h : Keeps z s)  :
    AnswerKeeps z (execFrTrigger s) := by
  unfold execFrTrigger
  repeat' with_reducible first
    | assumption | intro _ | apply State.fabric_keeps | apply State.frTrigger_keeps

theorem execFrFrozen_keeps {z : State} {s : State} (h : Keeps z s)  :
    AnswerKeeps z (execFrFrozen s) := by
  unfold execFrFrozen
  repeat' with_reducible first
    | assumption | intro _ | apply State.fabric_keeps | apply State.frFrozen_keeps

theorem execFrDumped_keeps {z : State} {s : State} (h : Keeps z s)  :
    AnswerKeeps z (execFrDumped s) := by
  unfold execFrDumped
  repeat' with_reducible first
    | assumption | intro _ | apply State.fabric_keeps | apply State.frDumped_keeps

theorem execFreeze_keeps {z : State} {r : ℕ} {k : ℕ} {s : State} (h : Keeps z s)  :
    AnswerKeeps z (execFreeze r k s) := by
  unfold execFreeze
  repeat' with_reducible first
    | assumption | intro _ | apply State.fabric_keeps | apply State.runCmd_keeps | apply freeze_keeps

theorem execRelease_keeps {z : State} {r : ℕ} {k : ℕ} {s : State} (h : Keeps z s)  :
    AnswerKeeps z (execRelease r k s) := by
  unfold execRelease
  repeat' with_reducible first
    | assumption | intro _ | apply State.fabric_keeps | apply State.runCmd_keeps | apply release_keeps

theorem execDump_keeps {z : State} {r : ℕ} {k : ℕ} {s : State} (h : Keeps z s)  :
    AnswerKeeps z (execDump r k s) := by
  unfold execDump
  repeat' with_reducible first
    | assumption | intro _ | apply State.fabric_keeps | apply State.runCmd_keeps | apply dump_keeps

theorem execMark_keeps {z : State} {r : ℕ} {k : ℕ} {s : State} (h : Keeps z s)  :
    AnswerKeeps z (execMark r k s) := by
  unfold execMark
  repeat' with_reducible first
    | assumption | intro _ | apply State.fabric_keeps | apply State.runCmd_keeps | apply mark_keeps

end Sys2Proof.Machine
end

