-- ==== Sys2Proof/Laws/KeepsStart.lean ====
section
/-! SUPPORT. What the operations and commands of Machine/Start.lean keep: one law each. -/

namespace Sys2Proof.Machine

theorem State.toStarting_keeps {z : State} {s : State} {cap : ℕ} {i : ℕ} (h : Keeps z s)  :
    Keeps z (State.toStarting s cap i) := by
  unfold State.toStarting
  repeat' with_reducible first
    | assumption | intro _ | extract_lets | exact BusKeeps.refl _ | apply State.onBus_keeps | apply Bus.enter_keeps
    | apply Bus.startFailed_keeps | apply State.panEnter_keeps | apply Keeps.ite | refine Keeps.ofPair ?_ ‹_› | split

end Sys2Proof.Machine
end

