-- ==== Sys2Proof/Laws/KeepsLoad.lean ====
section
/-! SUPPORT. What the operations and commands of Machine/Load.lean keep: one law each. -/

namespace Sys2Proof.Machine

theorem State.putVal_keeps {z : State} {s : State} {i : ℕ} {v : PlanVal} (h : Keeps z s)  :
    Keeps z (State.putVal s i v) := by
  unfold State.putVal
  repeat' with_reducible first
    | assumption | intro _ | exact BusKeeps.refl _ | apply State.onBus_keeps | apply Bus.setReg_keeps
    | apply State.setReg_keeps | refine Keeps.ofPair ?_ ‹_› | split

theorem State.resetRegs_keeps {z : State} {s : State} {cap : ℕ} {i : ℕ} (h : Keeps z s)  :
    Keeps z (State.resetRegs s cap i) := by
  unfold State.resetRegs
  repeat' with_reducible first
    | assumption | intro _ | extract_lets | exact BusKeeps.refl _ | apply State.onBus_keeps | apply State.putVal_keeps
    | apply Keeps.forEach | apply BusKeeps.forEach | dsimp +zetaDelta only | (fail_if_no_progress apply Keeps.mk')
    | (fail_if_no_progress apply BusKeeps.mk')

theorem State.resetHidden_keeps {z : State} {s : State} {cap : ℕ} {i : ℕ} (h : Keeps z s)  :
    Keeps z (State.resetHidden s cap i) := by
  unfold State.resetHidden
  repeat' with_reducible first
    | assumption | intro _ | exact BusKeeps.refl _ | apply State.onBus_keeps | apply Bus.setRing_keeps
    | apply Bus.setAcc_keeps | apply State.setSrc_keeps | apply State.setDec_keeps | apply State.setHead_keeps
    | apply State.setEnc_keeps | apply State.setLink_keeps | apply State.setLane_keeps | apply State.setPan_keeps
    | apply State.setJrn_keeps | apply Keeps.ite | refine Keeps.ofPair ?_ ‹_› | split | apply BusKeeps.ite
    | (fail_if_no_progress apply Keeps.mk')

theorem State.resetInst_keeps {z : State} {s : State} {cap : ℕ} {i : ℕ} (h : Keeps z s)  :
    Keeps z (State.resetInst s cap i) := by
  unfold State.resetInst
  repeat' with_reducible first
    | assumption | apply State.resetHidden_keeps | apply State.resetRegs_keeps

theorem State.startInst_keeps {z : State} {s : State} {cap : ℕ} {i : ℕ} (h : Keeps z s)  :
    Keeps z (State.startInst s cap i) := by
  unfold State.startInst
  repeat' with_reducible first
    | assumption | intro _ | exact BusKeeps.refl _ | apply State.onBus_keeps | apply Bus.setFld_keeps
    | apply State.toStarting_keeps | apply Keeps.ite

theorem State.startGroups_keeps {z : State} {s : State} (h : Keeps z s)  :
    Keeps z (State.startGroups s) := by
  unfold State.startGroups
  repeat' with_reducible first
    | assumption | intro _ | extract_lets | exact BusKeeps.refl _ | apply State.setGroup_keeps | apply State.setNext_keeps
    | apply Keeps.ite | apply Keeps.forEach

theorem State.identity_keeps {z : State} {s : State} (h : Keeps z s)  :
    Keeps z (State.identity s) := by
  unfold State.identity
  repeat' with_reducible first
    | assumption | intro _ | extract_lets | exact BusKeeps.refl _ | apply State.onBus_keeps | apply Bus.setReg_keeps
    | apply State.setReg_keeps | apply Keeps.ite | apply Keeps.foldl | apply Keeps.foldlFst | apply BusKeeps.foldl

theorem State.instantiate_keeps {z : State} {s : State} (h : Keeps z s)  :
    Keeps z (State.instantiate s) := by
  unfold State.instantiate
  repeat' with_reducible first
    | assumption | intro _ | extract_lets | exact BusKeeps.refl _ | apply State.putVal_keeps | apply State.onBus_keeps
    | apply Bus.setReg_keeps | apply State.resetHidden_keeps | apply State.startGroups_keeps | apply Keeps.ite
    | apply Keeps.forEach | apply Keeps.foldl | apply Keeps.foldlFst | apply BusKeeps.foldl

theorem State.startAll_keeps {z : State} {s : State} (h : Keeps z s)  :
    Keeps z (State.startAll s) := by
  unfold State.startAll
  repeat' with_reducible first
    | assumption | intro _ | apply State.startInst_keeps | apply Keeps.forEach

theorem State.coldStart_keeps {z : State} {s : State} (h : Keeps z s)  :
    Keeps z (State.coldStart s) := by
  unfold State.coldStart
  repeat' with_reducible first
    | assumption | intro _ | extract_lets | exact BusKeeps.refl _ | apply State.onBus_keeps | apply State.resetInst_keeps
    | apply Bus.setReg_keeps | apply State.startGroups_keeps | apply State.startInst_keeps | apply Keeps.forEach
    | apply BusKeeps.forEach | dsimp +zetaDelta only | (fail_if_no_progress apply Keeps.mk')
    | (fail_if_no_progress apply BusKeeps.mk')

end Sys2Proof.Machine
end

