-- ==== Sys2Proof/Laws/KeepsTandem.lean ====
section
/-! SUPPORT. What the operations and commands of Machine/Tandem.lean keep: one law each. -/

namespace Sys2Proof.Machine

theorem State.setTnd_keeps {z : State} {s : State} {x : TndSt} (h : Keeps z s)  :
    Keeps z (State.setTnd s x) := by
  unfold State.setTnd
  repeat' with_reducible first
    | assumption | exact BusKeeps.refl _ | (fail_if_no_progress apply Keeps.mk')

theorem State.tndControl_keeps {z : State} {s : State} {p : ℕ} {typ : ℕ} {payload : List Byte} (h : Keeps z s)  :
    Keeps z (State.tndControl s p typ payload) := by
  unfold State.tndControl
  repeat' with_reducible first
    | assumption | apply State.sendNew_keeps

theorem State.tndData_keeps {z : State} {s : State} {typ : ℕ} {payload : List Byte} (h : Keeps z s)  :
    Keeps z (State.tndData s typ payload) := by
  unfold State.tndData
  repeat' with_reducible first
    | assumption | extract_lets | exact BusKeeps.refl _ | apply State.sendItem_keeps | apply State.setLink_keeps
    | apply State.setTnd_keeps

theorem State.feedRecords_keeps {z : State} {s : State} (h : Keeps z s)  :
    Keeps z (State.feedRecords s) := by
  unfold State.feedRecords
  repeat' with_reducible first
    | assumption | intro _ | extract_lets | exact BusKeeps.refl _ | apply State.setTnd_keeps | apply State.tndData_keeps
    | apply Keeps.ite | apply Keeps.forEach

theorem State.countMirror_keeps {z : State} {s : State} {n : ℕ} (h : Keeps z s)  :
    Keeps z (State.countMirror s n) := by
  unfold State.countMirror
  repeat' with_reducible first
    | assumption | extract_lets | exact BusKeeps.refl _ | apply State.bump_keeps | apply State.setTnd_keeps

theorem State.mirrorOut_keeps {z : State} {s : State} {a : ℕ} {data : List Byte} (h : Keeps z s)  :
    Keeps z (State.mirrorOut s a data) := by
  unfold State.mirrorOut
  repeat' with_reducible first
    | assumption | intro _ | extract_lets | apply State.tndData_keeps | apply State.countMirror_keeps | apply Keeps.forEach

theorem State.feedBlocks_keeps {z s : State} {n : Nat} (h : Keeps z s) : Keeps z (State.feedBlocks n s) := by
  induction n generalizing s with
  | zero => exact h
  | succ n ih =>
    unfold State.feedBlocks
    split
    · exact h
    · split
      · exact State.setTnd_keeps h
      · refine Keeps.ite h ?_
        dsimp only
        split
        · rename_i hl
          exact ih (State.mirrorOut_keeps (Keeps.ofPair (State.load_keeps (State.setTnd_keeps h)) hl))
        · rename_i hl
          exact ih (Keeps.ofPair (State.load_keeps (State.setTnd_keeps h)) hl)

theorem State.feedCkpt_keeps {z : State} {s : State} {cut : Word} {data : List Byte} (h : Keeps z s)  :
    Keeps z (State.feedCkpt s cut data) := by
  unfold State.feedCkpt
  repeat' with_reducible first
    | assumption | intro _ | extract_lets | exact BusKeeps.refl _ | apply State.tndData_keeps | apply State.setTnd_keeps
    | apply State.feedBlocks_keeps | apply State.feedRecords_keeps | apply Keeps.forEach

theorem State.ckptEndFeed_keeps {z : State} {s : State} (h : Keeps z s)  :
    Keeps z (State.ckptEndFeed s) := by
  unfold State.ckptEndFeed
  repeat' with_reducible first
    | assumption | extract_lets | exact BusKeeps.refl _ | apply State.ckptEnd_keeps | apply State.feedCkpt_keeps
    | apply State.feedRecords_keeps | apply Keeps.ite | refine Keeps.ofPair ?_ ‹_› | split

theorem State.ringWrite_keeps {z : State} {s : State} (h : Keeps z s)  :
    Keeps z (State.ringWrite s) := by
  unfold State.ringWrite
  repeat' with_reducible first
    | assumption | apply State.feedRecords_keeps | apply State.jrnDrain_keeps

theorem State.mirrorWrite_keeps {z : State} {s : State} {port : ℕ} {a : ℕ} {data : List Byte} (h : Keeps z s)  :
    Keeps z (State.mirrorWrite s port a data) := by
  unfold State.mirrorWrite
  repeat' with_reducible first
    | assumption | intro _ | apply State.mirrorOut_keeps | apply State.ringWrite_keeps | apply Keeps.ite

theorem State.syncReq_keeps {z : State} {s : State} (h : Keeps z s)  :
    Keeps z (State.syncReq s) := by
  unfold State.syncReq
  repeat' with_reducible first
    | assumption | apply State.tndControl_keeps

theorem State.setInSync_keeps {z : State} {s : State} {v : Bool} {reason : ℕ} (h : Keeps z s)  :
    Keeps z (State.setInSync s v reason) := by
  unfold State.setInSync
  repeat' with_reducible first
    | assumption | extract_lets | apply State.setFld_keeps | apply State.emit_keeps | apply Keeps.ite

theorem State.setRole_keeps {z : State} {s : State} {r : ℕ} {cause : ℕ} (h : Keeps z s)  :
    Keeps z (State.setRole s r cause) := by
  unfold State.setRole
  repeat' with_reducible first
    | assumption | extract_lets | exact BusKeeps.refl _ | apply State.journal_keeps | apply State.setFld_keeps
    | apply State.setTnd_keeps | apply State.emit_keeps

theorem State.takeEpoch_keeps {z : State} {s : State} (h : Keeps z s)  :
    Keeps z (State.takeEpoch s) := by
  unfold State.takeEpoch
  repeat' with_reducible first
    | assumption | intro _ | extract_lets | exact BusKeeps.refl _ | apply State.setReg_keeps | apply State.setLink_keeps
    | apply Keeps.forEach

theorem State.portDrives_keeps {z : State} {s : State} {p : ℕ} (h : Keeps z s)  :
    Keeps z (State.portDrives s p) := by
  unfold State.portDrives
  repeat' with_reducible first
    | assumption | extract_lets | exact BusKeeps.refl _ | apply State.setLink_keeps | apply State.sendHold_keeps
    | apply State.sendEpoch_keeps | apply State.safe_keeps | apply Keeps.ite | refine Keeps.ofPair ?_ ‹_› | split

theorem State.headDrives_keeps {z : State} {s : State} {h_1 : ℕ} (h : Keeps z s)  :
    Keeps z (State.headDrives s h_1) := by
  unfold State.headDrives
  repeat' with_reducible first
    | assumption | extract_lets | exact BusKeeps.refl _ | apply State.setFld_keeps | apply State.setOutput_keeps
    | apply State.setHead_keeps | apply State.headSafe_keeps | apply State.giveUp_keeps | apply Keeps.ite
    | refine Keeps.ofPair ?_ ‹_› | split

theorem State.zoneAfresh_keeps {z : State} {s : State} {z_ : ℕ} (h : Keeps z s)  :
    Keeps z (State.zoneAfresh s z_) := by
  unfold State.zoneAfresh
  repeat' with_reducible first
    | assumption | intro _ | extract_lets | exact BusKeeps.refl _ | apply State.onBus_keeps | apply State.resetInst_keeps
    | apply Bus.setReg_keeps | apply State.setLink_keeps | apply State.startInst_keeps | apply Keeps.ite
    | apply Keeps.forEach

theorem State.goActive_keeps {z : State} {s : State} {cause : ℕ} {cold : Bool} (h : Keeps z s)  :
    Keeps z (State.goActive s cause cold) := by
  unfold State.goActive
  repeat' with_reducible first
    | assumption | intro _ | extract_lets | exact BusKeeps.refl _ | apply State.jrnDrain_keeps | apply State.giveUp_keeps
    | apply State.setFld_keeps | apply State.takeEpoch_keeps | apply State.setRole_keeps | apply State.setReg_keeps
    | apply State.emit_keeps | apply State.trigger_keeps | apply State.setTnd_keeps | apply State.coldStart_keeps
    | apply State.zoneAfresh_keeps | apply State.portDrives_keeps | apply State.headDrives_keeps | apply State.setEnc_keeps
    | apply State.setPan_keeps | apply Keeps.ite | apply Keeps.forEach

theorem State.standbyForm_keeps {z : State} {s : State} (h : Keeps z s)  :
    Keeps z (State.standbyForm s) := by
  unfold State.standbyForm
  repeat' with_reducible first
    | assumption | intro _ | extract_lets | exact BusKeeps.refl _ | apply State.setOutput_keeps | apply State.setHead_keeps
    | apply State.startIdle_keeps | apply State.sendEpoch_keeps | apply Keeps.ite | apply Keeps.forEach

theorem State.askFull_keeps {z : State} {s : State} (h : Keeps z s)  :
    Keeps z (State.askFull s) := by
  unfold State.askFull
  repeat' with_reducible first
    | assumption | exact BusKeeps.refl _ | apply State.syncReq_keeps | apply State.setTnd_keeps

theorem State.toJoining_keeps {z : State} {s : State} (h : Keeps z s)  :
    Keeps z (State.toJoining s) := by
  unfold State.toJoining
  repeat' with_reducible first
    | assumption | apply State.askFull_keeps | apply State.setInSync_keeps | apply State.setRole_keeps

theorem State.handoverFails_keeps {z : State} {s : State} (h : Keeps z s)  :
    Keeps z (State.handoverFails s) := by
  unfold State.handoverFails
  repeat' with_reducible first
    | assumption | exact BusKeeps.refl _ | apply State.complete_keeps | apply State.setTnd_keeps | refine Keeps.ofPair ?_ ‹_›
    | split

theorem State.stepDown_keeps {z : State} {s : State} {epoch : ℕ} {source : ℕ} (h : Keeps z s)  :
    Keeps z (State.stepDown s epoch source) := by
  unfold State.stepDown
  repeat' with_reducible first
    | assumption | extract_lets | exact BusKeeps.refl _ | apply State.giveUp_keeps | apply State.handoverFails_keeps
    | apply State.emit_keeps | apply State.toJoining_keeps | apply State.setTnd_keeps | apply State.standbyForm_keeps

theorem State.toFailed_keeps {z : State} {s : State} (h : Keeps z s)  :
    Keeps z (State.toFailed s) := by
  unfold State.toFailed
  repeat' with_reducible first
    | assumption | extract_lets | exact BusKeeps.refl _ | apply State.handoverFails_keeps | apply State.setRole_keeps
    | apply State.setTnd_keeps | apply Keeps.ite

theorem State.failedEnds_keeps {z : State} {s : State} (h : Keeps z s)  :
    Keeps z (State.failedEnds s) := by
  unfold State.failedEnds
  repeat' with_reducible first
    | assumption | exact BusKeeps.refl _ | apply State.setTnd_keeps | apply Keeps.ite | refine Keeps.ofPair ?_ ‹_› | split

theorem State.heartbeatSend_keeps {z : State} {s : State} (h : Keeps z s)  :
    Keeps z (State.heartbeatSend s) := by
  unfold State.heartbeatSend
  repeat' with_reducible first
    | assumption | intro _ | extract_lets | exact BusKeeps.refl _ | apply State.setTnd_keeps | apply State.tndControl_keeps
    | apply Keeps.ite | apply Keeps.forEach | refine Keeps.ofPair ?_ ‹_› | split

theorem State.hashMatch_keeps {z : State} {s : State} {same : Bool} (h : Keeps z s)  :
    Keeps z (State.hashMatch s same) := by
  unfold State.hashMatch
  repeat' with_reducible first
    | assumption | extract_lets | exact BusKeeps.refl _ | apply State.setTnd_keeps | apply State.emit_keeps
    | apply State.setFld_keeps | apply Keeps.ite

theorem State.heartbeatRole_keeps {z : State} {s : State} {t : TandemEnt} {role : ℕ} {epoch : ℕ} (h : Keeps z s)  :
    Keeps z (State.heartbeatRole s t role epoch) := by
  unfold State.heartbeatRole
  repeat' with_reducible first
    | assumption | intro _ | extract_lets | exact BusKeeps.refl _ | apply State.complete_keeps | apply State.setTnd_keeps
    | apply State.setInSync_keeps | apply State.setRole_keeps | apply State.standbyForm_keeps | apply State.stepDown_keeps
    | apply State.toJoining_keeps | apply State.goActive_keeps | apply Keeps.ite | refine Keeps.ofPair ?_ ‹_› | split
    | dsimp only | dsimp +zetaDelta only

theorem State.heartbeatRx_keeps {z : State} {s : State} {p : ℕ} {sync : Bool} {raw : List Byte} (h : Keeps z s)  :
    Keeps z (State.heartbeatRx s p sync raw) := by
  unfold State.heartbeatRx
  repeat' with_reducible first
    | assumption | extract_lets | exact BusKeeps.refl _ | apply State.receiveItem_keeps | apply State.rxUnknown_keeps
    | apply State.emit_keeps | apply State.setReg_keeps | apply State.setFld_keeps | apply State.hashMatch_keeps
    | apply State.setTnd_keeps | apply State.trigger_keeps | apply State.heartbeatRole_keeps | apply Keeps.ite
    | refine Keeps.ofPair ?_ ‹_› | split

theorem State.heartbeatTimeout_keeps {z : State} {s : State} (h : Keeps z s)  :
    Keeps z (State.heartbeatTimeout s) := by
  unfold State.heartbeatTimeout
  repeat' with_reducible first
    | assumption | extract_lets | exact BusKeeps.refl _ | apply State.setTnd_keeps | apply State.setFld_keeps
    | apply State.goActive_keeps | apply State.emit_keeps | apply Keeps.ite | refine Keeps.ofPair ?_ ‹_› | split

theorem State.joinTimeout_keeps {z : State} {s : State} (h : Keeps z s)  :
    Keeps z (State.joinTimeout s) := by
  unfold State.joinTimeout
  repeat' with_reducible first
    | assumption | extract_lets | apply State.goActive_keeps | apply Keeps.ite

theorem State.handoverReached_keeps {z : State} {s : State} (h : Keeps z s)  :
    Keeps z (State.handoverReached s) := by
  unfold State.handoverReached
  repeat' with_reducible first
    | assumption | exact BusKeeps.refl _ | apply State.goActive_keeps | apply Keeps.ite | refine Keeps.ofPair ?_ ‹_› | split

theorem handover_keeps {z : State} {x0 : ℕ} {x1 : ℕ} {x2 : FEntry} {x3 : State} (h : Keeps z x3)  :
    Keeps z (handover x0 x1 x2 x3).1 := by
  unfold handover
  repeat' with_reducible first
    | assumption | intro _ | extract_lets | exact BusKeeps.refl _ | apply checked_keeps | apply done_keeps
    | apply State.setTnd_keeps | apply State.setRole_keeps | apply Keeps.ite | split

theorem resync_keeps {z : State} {x0 : ℕ} {x1 : ℕ} {x2 : FEntry} {x3 : State} (h : Keeps z x3)  :
    Keeps z (resync x0 x1 x2 x3).1 := by
  unfold resync
  repeat' with_reducible first
    | assumption | intro _ | apply checked_keeps | apply done_keeps | apply State.askFull_keeps | apply State.setInSync_keeps
    | apply Keeps.ite | split

theorem State.resyncCmd_keeps {z : State} {s : State} {r : ℕ} {k : ℕ} (h : Keeps z s)  :
    Keeps z (State.resyncCmd s r k) := by
  unfold State.resyncCmd
  repeat' with_reducible first
    | assumption | extract_lets | exact BusKeeps.refl _ | apply State.perform_keeps | apply State.setTnd_keeps
    | apply resync_keeps | apply State.runCmd_keeps | apply Keeps.ite | refine Keeps.ofPair ?_ ‹_› | split

theorem State.ack_keeps {z : State} {s : State} {q : ℕ} {nak : Bool} (h : Keeps z s)  :
    Keeps z (State.ack s q nak) := by
  unfold State.ack
  repeat' with_reducible first
    | assumption | apply State.tndControl_keeps

theorem State.ackSend_keeps {z : State} {s : State} (h : Keeps z s)  :
    Keeps z (State.ackSend s) := by
  unfold State.ackSend
  repeat' with_reducible first
    | assumption | intro _ | extract_lets | exact BusKeeps.refl _ | apply State.setTnd_keeps | apply State.ack_keeps
    | apply Keeps.ite | apply Keeps.forEach

theorem State.ackRx_keeps {z : State} {s : State} {p : ℕ} {sync : Bool} {raw : List Byte} (h : Keeps z s)  :
    Keeps z (State.ackRx s p sync raw) := by
  unfold State.ackRx
  repeat' with_reducible first
    | assumption | intro _ | extract_lets | exact BusKeeps.refl _ | apply State.receiveItem_keeps
    | apply State.rxUnknown_keeps | apply State.setTnd_keeps | apply State.sendItem_keeps | apply State.feedBlocks_keeps
    | apply Keeps.ite | apply Keeps.forEach | refine Keeps.ofPair ?_ ‹_› | split

theorem State.tndTake_keeps {z : State} {s : State} {p : ℕ} {q : ℕ} {a : ℕ} (h : Keeps z s)  :
    Keeps z (State.tndTake s p q a).1 := by
  unfold State.tndTake
  repeat' with_reducible first
    | assumption | extract_lets | exact BusKeeps.refl _ | apply State.setTnd_keeps | apply State.linkCull_keeps
    | apply State.ack_keeps | apply State.emit_keeps | apply State.bump_keeps | apply State.askFull_keeps
    | apply State.setInSync_keeps | apply Keeps.ite | apply Keeps.iteFst | refine Keeps.ofPair ?_ ‹_› | split

theorem State.tndItem_keeps {z : State} {s : State} {p : ℕ} {typ : ℕ} {sync : Bool} {raw : List Byte} (h : Keeps z s)  :
    Keeps z (State.tndItem s p typ sync raw).1 := by
  unfold State.tndItem
  repeat' with_reducible first
    | assumption | exact BusKeeps.refl _ | apply State.receive_keeps | apply State.tndTake_keeps | apply Keeps.ite
    | apply Keeps.iteFst | refine Keeps.ofPair ?_ ‹_› | split

theorem State.syncReqRx_keeps {z : State} {s : State} {p : ℕ} {sync : Bool} {raw : List Byte} (h : Keeps z s)  :
    Keeps z (State.syncReqRx s p sync raw) := by
  unfold State.syncReqRx
  repeat' with_reducible first
    | assumption | extract_lets | exact BusKeeps.refl _ | apply State.receiveItem_keeps | apply State.rxUnknown_keeps
    | apply State.setTnd_keeps | apply Keeps.ite | refine Keeps.ofPair ?_ ‹_› | split

theorem State.mirrorRx_keeps {z : State} {s : State} {p : ℕ} {sync : Bool} {raw : List Byte} (h : Keeps z s)  :
    Keeps z (State.mirrorRx s p sync raw) := by
  unfold State.mirrorRx
  repeat' with_reducible first
    | assumption | intro _ | extract_lets | exact BusKeeps.refl _ | apply State.tndItem_keeps | apply State.rxUnknown_keeps
    | apply State.store_keeps | apply State.setTnd_keeps | apply Keeps.ite | apply Keeps.iteFst | refine Keeps.ofPair ?_ ‹_›
    | split

theorem State.loadCkpt_keeps {z : State} {s : State} {c : Ckpt} (h : Keeps z s)  :
    Keeps z (State.loadCkpt s c) := by
  unfold State.loadCkpt
  repeat' with_reducible first
    | assumption | intro _ | extract_lets | exact BusKeeps.refl _ | apply State.setTnd_keeps | apply State.onBus_keeps
    | apply State.setPan_keeps | apply State.setFld_keeps | apply Keeps.ite | apply Keeps.iteFst | apply Keeps.forEach
    | apply Keeps.forEachFst | split | apply BusKeeps.ite | apply BusKeeps.forEach | dsimp only | dsimp +zetaDelta only
    | (fail_if_no_progress apply Keeps.mk') | (fail_if_no_progress apply BusKeeps.mk')

theorem State.checkpointRx_keeps {z : State} {s : State} {p : ℕ} {sync : Bool} {raw : List Byte} (h : Keeps z s)  :
    Keeps z (State.checkpointRx s p sync raw) := by
  unfold State.checkpointRx
  repeat' with_reducible first
    | assumption | extract_lets | exact BusKeeps.refl _ | apply State.tndItem_keeps | apply State.rxUnknown_keeps
    | apply State.setTnd_keeps | apply Keeps.ite | refine Keeps.ofPair ?_ ‹_› | split

theorem State.joinLoad_keeps {z : State} {s : State} {r : JRec} (h : Keeps z s)  :
    Keeps z (State.joinLoad s r) := by
  unfold State.joinLoad
  repeat' with_reducible first
    | assumption | extract_lets | exact BusKeeps.refl _ | apply State.loadCkpt_keeps | apply State.setTnd_keeps
    | apply Keeps.ite | refine Keeps.ofPair ?_ ‹_› | split

theorem State.joinComplete_keeps {z : State} {s : State} (h : Keeps z s)  :
    Keeps z (State.joinComplete s) := by
  unfold State.joinComplete
  repeat' with_reducible first
    | assumption | extract_lets | apply State.setRole_keeps | apply State.setInSync_keeps | apply Keeps.ite

theorem State.epochReport_keeps {z : State} {s : State} {p : ℕ} {held : ℕ} {refused : Bool} (h : Keeps z s)  :
    Keeps z (State.epochReport s p held refused) := by
  unfold State.epochReport
  repeat' with_reducible first
    | assumption | extract_lets | apply State.takeEpoch_keeps | apply State.journal_keeps | apply State.stepDown_keeps
    | apply Keeps.ite

theorem State.statusRx_keeps {z : State} {s : State} {p : ℕ} {sync : Bool} {raw : List Byte} (h : Keeps z s)  :
    Keeps z (State.statusRx s p sync raw) := by
  unfold State.statusRx
  repeat' with_reducible first
    | assumption | extract_lets | exact BusKeeps.refl _ | apply State.receiveItem_keeps | apply State.rxUnknown_keeps
    | apply State.setLink_keeps | apply State.setFld_keeps | apply State.setReg_keeps | apply State.emit_keeps
    | apply State.ambient_keeps | apply State.epochReport_keeps | apply Keeps.ite | refine Keeps.ofPair ?_ ‹_› | split
    | dsimp only | dsimp +zetaDelta only

theorem State.epochWaitOver_keeps {z : State} {s : State} {p : ℕ} (h : Keeps z s)  :
    Keeps z (State.epochWaitOver s p) := by
  unfold State.epochWaitOver
  repeat' with_reducible first
    | assumption | extract_lets | exact BusKeeps.refl _ | apply State.setReg_keeps | apply State.setLink_keeps
    | apply State.epochReport_keeps | apply Keeps.ite

theorem execCheckpointEnd_keeps {z : State} {s : State} (h : Keeps z s)  :
    AnswerKeeps z (execCheckpointEnd s) := by
  unfold execCheckpointEnd
  repeat' with_reducible first
    | assumption | intro _ | apply State.fabric_keeps | apply State.ckptEndFeed_keeps

theorem execJournalRingWrite_keeps {z : State} {s : State} (h : Keeps z s)  :
    AnswerKeeps z (execJournalRingWrite s) := by
  unfold execJournalRingWrite
  repeat' with_reducible first
    | assumption | intro _ | apply State.fabric_keeps | apply State.ringWrite_keeps

theorem execHandover_keeps {z : State} {r : ℕ} {k : ℕ} {s : State} (h : Keeps z s)  :
    AnswerKeeps z (execHandover r k s) := by
  unfold execHandover
  repeat' with_reducible first
    | assumption | intro _ | apply State.fabric_keeps | apply State.runCmd_keeps | apply handover_keeps

theorem execResync_keeps {z : State} {r : ℕ} {k : ℕ} {s : State} (h : Keeps z s)  :
    AnswerKeeps z (execResync r k s) := by
  unfold execResync
  repeat' with_reducible first
    | assumption | intro _ | apply State.fabric_keeps | apply State.resyncCmd_keeps

theorem execHeartbeatSend_keeps {z : State} {s : State} (h : Keeps z s)  :
    AnswerKeeps z (execHeartbeatSend s) := by
  unfold execHeartbeatSend
  repeat' with_reducible first
    | assumption | intro _ | apply State.warden_keeps | apply State.heartbeatSend_keeps

theorem execHeartbeatRx_keeps {z : State} {p : ℕ} {skew : List ℕ} {lines : List (List Bool)} {s : State} (h : Keeps z s)  :
    AnswerKeeps z (execHeartbeatRx p skew lines s) := by
  unfold execHeartbeatRx
  repeat' with_reducible first
    | assumption | intro _ | apply State.fabric_keeps | apply State.arrives_keeps | apply State.heartbeatRx_keeps

theorem execHeartbeatTimeout_keeps {z : State} {s : State} (h : Keeps z s)  :
    AnswerKeeps z (execHeartbeatTimeout s) := by
  unfold execHeartbeatTimeout
  repeat' with_reducible first
    | assumption | intro _ | apply State.fabric_keeps | apply State.heartbeatTimeout_keeps

theorem execJoinTimeout_keeps {z : State} {s : State} (h : Keeps z s)  :
    AnswerKeeps z (execJoinTimeout s) := by
  unfold execJoinTimeout
  repeat' with_reducible first
    | assumption | intro _ | apply State.fabric_keeps | apply State.joinTimeout_keeps

theorem execHandoverTimeReached_keeps {z : State} {s : State} (h : Keeps z s)  :
    AnswerKeeps z (execHandoverTimeReached s) := by
  unfold execHandoverTimeReached
  repeat' with_reducible first
    | assumption | intro _ | apply State.fabric_keeps | apply State.handoverReached_keeps

theorem execAckSend_keeps {z : State} {s : State} (h : Keeps z s)  :
    AnswerKeeps z (execAckSend s) := by
  unfold execAckSend
  repeat' with_reducible first
    | assumption | intro _ | apply State.fabric_keeps | apply State.ackSend_keeps

theorem execAckRx_keeps {z : State} {p : ℕ} {skew : List ℕ} {lines : List (List Bool)} {s : State} (h : Keeps z s)  :
    AnswerKeeps z (execAckRx p skew lines s) := by
  unfold execAckRx
  repeat' with_reducible first
    | assumption | intro _ | apply State.fabric_keeps | apply State.arrives_keeps | apply State.ackRx_keeps

theorem execSyncReqRx_keeps {z : State} {p : ℕ} {skew : List ℕ} {lines : List (List Bool)} {s : State} (h : Keeps z s)  :
    AnswerKeeps z (execSyncReqRx p skew lines s) := by
  unfold execSyncReqRx
  repeat' with_reducible first
    | assumption | intro _ | apply State.fabric_keeps | apply State.arrives_keeps | apply State.syncReqRx_keeps

theorem execCheckpointRx_keeps {z : State} {p : ℕ} {skew : List ℕ} {lines : List (List Bool)} {s : State} (h : Keeps z s)  :
    AnswerKeeps z (execCheckpointRx p skew lines s) := by
  unfold execCheckpointRx
  repeat' with_reducible first
    | assumption | intro _ | apply State.fabric_keeps | apply State.arrives_keeps | apply State.checkpointRx_keeps

theorem execJoinComplete_keeps {z : State} {s : State} (h : Keeps z s)  :
    AnswerKeeps z (execJoinComplete s) := by
  unfold execJoinComplete
  repeat' with_reducible first
    | assumption | intro _ | apply State.fabric_keeps | apply State.joinComplete_keeps

theorem execStatusRx_keeps {z : State} {p : ℕ} {skew : List ℕ} {lines : List (List Bool)} {s : State} (h : Keeps z s)  :
    AnswerKeeps z (execStatusRx p skew lines s) := by
  unfold execStatusRx
  repeat' with_reducible first
    | assumption | intro _ | apply State.fabric_keeps | apply State.arrives_keeps | apply State.statusRx_keeps

theorem execEpochStatusWaitTimeout_keeps {z : State} {p : ℕ} {s : State} (h : Keeps z s)  :
    AnswerKeeps z (execEpochStatusWaitTimeout p s) := by
  unfold execEpochStatusWaitTimeout
  repeat' with_reducible first
    | assumption | intro _ | apply State.fabric_keeps | apply State.epochWaitOver_keeps

end Sys2Proof.Machine
end

