-- ==== Sys2Proof/Laws/KeepsPorts.lean ====
section
/-! SUPPORT. What the operations and commands of Machine/Ports.lean keep: one law each. -/

namespace Sys2Proof.Machine

theorem State.portFollow_keeps {z : State} {s : State} {p : ℕ} {old : ℕ} (h : Keeps z s)  :
    Keeps z (State.portFollow s p old) := by
  unfold State.portFollow
  repeat' with_reducible first
    | assumption | extract_lets | exact BusKeeps.refl _ | apply State.headFollows_keeps | apply State.evalSource_keeps
    | apply State.sendEpoch_keeps | apply State.startIdle_keeps | apply Keeps.ite | refine Keeps.ofPair ?_ ‹_› | split
    | dsimp only | dsimp +zetaDelta only

theorem State.withPorts_keeps {z : State} {f : State → State} {s : State} (h : Keeps z s) (hf : ∀ y0, Keeps z y0 → Keeps z (f y0)) :
    Keeps z (State.withPorts f s) := by
  unfold State.withPorts
  repeat' with_reducible first
    | assumption | intro _ | extract_lets | exact BusKeeps.refl _ | apply State.portFollow_keeps | apply Keeps.forEach
    | apply hf

theorem execTrainingStart_keeps {z : State} {p : ℕ} {s : State} (h : Keeps z s)  :
    AnswerKeeps z (execTrainingStart p s) := by
  unfold execTrainingStart
  repeat' with_reducible first
    | assumption | intro _ | exact BusKeeps.refl _ | apply State.fabric_keeps | apply State.withPorts_keeps
    | apply State.trainingStart_keeps

theorem execTrainBlockRx_keeps {z : State} {p : ℕ} {lane : ℕ} {bits : List Bool} {locked : ℕ} {ask : ℕ} {sweep : List (ℕ × ℕ × ℕ)} {s : State} (h : Keeps z s)  :
    AnswerKeeps z (execTrainBlockRx p lane bits locked ask sweep s) := by
  unfold execTrainBlockRx
  repeat' with_reducible first
    | assumption | intro _ | exact BusKeeps.refl _ | apply State.fabric_keeps | apply State.withPorts_keeps
    | apply State.trainBlockRx_keeps

theorem execPhaseTimeout_keeps {z : State} {p : ℕ} {s : State} (h : Keeps z s)  :
    AnswerKeeps z (execPhaseTimeout p s) := by
  unfold execPhaseTimeout
  repeat' with_reducible first
    | assumption | intro _ | exact BusKeeps.refl _ | apply State.fabric_keeps | apply State.withPorts_keeps
    | apply State.phaseTimeout_keeps

theorem execTrainingLimit_keeps {z : State} {p : ℕ} {s : State} (h : Keeps z s)  :
    AnswerKeeps z (execTrainingLimit p s) := by
  unfold execTrainingLimit
  repeat' with_reducible first
    | assumption | intro _ | exact BusKeeps.refl _ | apply State.fabric_keeps | apply State.withPorts_keeps
    | apply State.trainingLimit_keeps

theorem execTrainingRetry_keeps {z : State} {p : ℕ} {s : State} (h : Keeps z s)  :
    AnswerKeeps z (execTrainingRetry p s) := by
  unfold execTrainingRetry
  repeat' with_reducible first
    | assumption | intro _ | exact BusKeeps.refl _ | apply State.fabric_keeps | apply State.withPorts_keeps
    | apply State.trainingRetry_keeps

theorem execLaneLoss_keeps {z : State} {p : ℕ} {lane : ℕ} {test : LossTest} {s : State} (h : Keeps z s)  :
    AnswerKeeps z (execLaneLoss p lane test s) := by
  unfold execLaneLoss
  repeat' with_reducible first
    | assumption | intro _ | exact BusKeeps.refl _ | apply State.fabric_keeps | apply State.withPorts_keeps
    | apply State.laneLoss_keeps

theorem execLaneFaultMarkerRx_keeps {z : State} {p : ℕ} {bits : List Bool} {s : State} (h : Keeps z s)  :
    AnswerKeeps z (execLaneFaultMarkerRx p bits s) := by
  unfold execLaneFaultMarkerRx
  repeat' with_reducible first
    | assumption | intro _ | exact BusKeeps.refl _ | apply State.fabric_keeps | apply State.withPorts_keeps
    | apply State.laneFaultRx_keeps

theorem execRepairDone_keeps {z : State} {p : ℕ} {s : State} (h : Keeps z s)  :
    AnswerKeeps z (execRepairDone p s) := by
  unfold execRepairDone
  repeat' with_reducible first
    | assumption | intro _ | exact BusKeeps.refl _ | apply State.fabric_keeps | apply State.withPorts_keeps
    | apply State.repairDone_keeps

theorem execRepairTimeout_keeps {z : State} {p : ℕ} {s : State} (h : Keeps z s)  :
    AnswerKeeps z (execRepairTimeout p s) := by
  unfold execRepairTimeout
  repeat' with_reducible first
    | assumption | intro _ | exact BusKeeps.refl _ | apply State.fabric_keeps | apply State.withPorts_keeps
    | apply State.repairTimeout_keeps

theorem execTxIslandLoss_keeps {z : State} {p : ℕ} {s : State} (h : Keeps z s)  :
    AnswerKeeps z (execTxIslandLoss p s) := by
  unfold execTxIslandLoss
  repeat' with_reducible first
    | assumption | intro _ | exact BusKeeps.refl _ | apply State.fabric_keeps | apply State.withPorts_keeps
    | apply State.txIslandLoss_keeps

theorem execRetrain_keeps {z : State} {r : ℕ} {k : ℕ} {s : State} (h : Keeps z s)  :
    AnswerKeeps z (execRetrain r k s) := by
  unfold execRetrain
  repeat' with_reducible first
    | assumption | intro _ | exact BusKeeps.refl _ | apply State.fabric_keeps | apply State.withPorts_keeps
    | apply State.runCmd_keeps | apply retrain_keeps

theorem execPower_keeps {z : State} {r : ℕ} {k : ℕ} {s : State} (h : Keeps z s)  :
    AnswerKeeps z (execPower r k s) := by
  unfold execPower
  repeat' with_reducible first
    | assumption | intro _ | exact BusKeeps.refl _ | apply State.fabric_keeps | apply State.withPorts_keeps
    | apply State.runCmd_keeps | apply power_keeps

theorem execPowerState_keeps {z : State} {p : ℕ} {s : State} (h : Keeps z s)  :
    AnswerKeeps z (execPowerState p s) := by
  unfold execPowerState
  repeat' with_reducible first
    | assumption | intro _ | exact BusKeeps.refl _ | apply State.fabric_keeps | apply State.withPorts_keeps
    | apply State.powerState_keeps

theorem execTest_keeps {z : State} {r : ℕ} {k : ℕ} {s : State} (h : Keeps z s)  :
    AnswerKeeps z (execTest r k s) := by
  unfold execTest
  repeat' with_reducible first
    | assumption | intro _ | exact BusKeeps.refl _ | apply State.fabric_keeps | apply State.withPorts_keeps
    | apply State.runCmd_keeps | apply laneTest_keeps

theorem execTestDone_keeps {z : State} {p : ℕ} {rx : List (List Bool)} {heard : ℕ} {s : State} (h : Keeps z s)  :
    AnswerKeeps z (execTestDone p rx heard s) := by
  unfold execTestDone
  repeat' with_reducible first
    | assumption | intro _ | exact BusKeeps.refl _ | apply State.fabric_keeps | apply State.withPorts_keeps
    | apply State.testDone_keeps

theorem execInject_keeps {z : State} {r : ℕ} {k : ℕ} {s : State} (h : Keeps z s)  :
    AnswerKeeps z (execInject r k s) := by
  unfold execInject
  repeat' with_reducible first
    | assumption | intro _ | exact BusKeeps.refl _ | apply State.fabric_keeps | apply State.withPorts_keeps
    | apply State.runCmd_keeps | apply inject_keeps

end Sys2Proof.Machine
end

