-- ==== Sys2Proof/Laws/KeepsLifecycle.lean ====
section
/-! SUPPORT. What the operations and commands of Machine/Lifecycle.lean keep: one law each. -/

namespace Sys2Proof.Machine

theorem State.portHarmless_keeps {z : State} {s : State} {p : ℕ} (h : Keeps z s)  :
    Keeps z (State.portHarmless s p) := by
  unfold State.portHarmless
  repeat' with_reducible first
    | assumption | exact BusKeeps.refl _ | apply State.safe_keeps | apply State.creditStop_keeps | apply Keeps.ite
    | refine Keeps.ofPair ?_ ‹_› | split

theorem State.abortAll_keeps {z : State} {s : State} {cap : ℕ} {i : ℕ} (h : Keeps z s)  :
    Keeps z (State.abortAll s cap i) := by
  unfold State.abortAll
  repeat' with_reducible first
    | assumption | apply State.abortRunning_keeps | apply Keeps.ite

theorem State.offAction_keeps {z : State} {s : State} {cap : ℕ} {i : ℕ} (h : Keeps z s)  :
    Keeps z (State.offAction s cap i) := by
  unfold State.offAction
  repeat' with_reducible first
    | assumption | intro _ | exact BusKeeps.refl _ | apply State.sourceOff_keeps | apply State.streamOff_keeps
    | apply State.headOff_keeps | apply State.encOff_keeps | apply State.withPorts_keeps | apply State.portOff_keeps
    | apply State.portHarmless_keeps | apply State.panOff_keeps | refine Keeps.ofPair ?_ ‹_› | split

theorem State.leaveOne_keeps {z : State} {s : State} {cap : ℕ} {i : ℕ} {cause : ℕ} (h : Keeps z s)  :
    Keeps z (State.leaveOne s cap i cause) := by
  unfold State.leaveOne
  repeat' with_reducible first
    | assumption | intro _ | extract_lets | exact BusKeeps.refl _ | apply State.onBus_keeps | apply Bus.ringStop_keeps
    | apply Bus.toStopping_keeps | apply State.headOff_keeps | apply State.abortAll_keeps | apply State.offAction_keeps
    | apply Keeps.ite | refine Keeps.ofPair ?_ ‹_› | split

theorem State.leave_keeps {z : State} {s : State} {cap : ℕ} {i : ℕ} {cause : ℕ} (h : Keeps z s)  :
    Keeps z (State.leave s cap i cause) := by
  unfold State.leave
  repeat' with_reducible first
    | assumption | extract_lets | apply State.leaveOne_keeps | apply State.encCuts_keeps | apply Keeps.ite

theorem State.stop_keeps {z : State} {s : State} {cap : ℕ} {i : ℕ} {cause : ℕ} (h : Keeps z s)  :
    Keeps z (State.stop s cap i cause) := by
  unfold State.stop
  repeat' with_reducible first
    | assumption | apply State.leave_keeps | apply Keeps.ite

theorem State.enableRefused_keeps {z : State} {s : State} {cap : ℕ} {i : ℕ} (h : Keeps z s)  :
    Keeps z (State.enableRefused s cap i) := by
  unfold State.enableRefused
  repeat' with_reducible first
    | assumption | intro _ | exact BusKeeps.refl _ | apply State.onBus_keeps | apply Bus.accFlag_keeps
    | apply Bus.setFld_keeps | refine Keeps.ofPair ?_ ‹_› | split

theorem State.enable_keeps {z : State} {s : State} {cap : ℕ} {i : ℕ} (h : Keeps z s)  :
    Keeps z (State.enable s cap i) := by
  unfold State.enable
  repeat' with_reducible first
    | assumption | intro _ | exact BusKeeps.refl _ | apply State.toStarting_keeps | apply State.onBus_keeps
    | apply Bus.setFld_keeps | apply State.emit_keeps | apply Keeps.ite | refine Keeps.ofPair ?_ ‹_› | split

theorem State.disable_keeps {z : State} {s : State} {cap : ℕ} {i : ℕ} (h : Keeps z s)  :
    Keeps z (State.disable s cap i) := by
  unfold State.disable
  repeat' with_reducible first
    | assumption | intro _ | exact BusKeeps.refl _ | apply State.enableRefused_keeps | apply State.leave_keeps
    | apply State.onBus_keeps | apply Bus.setFld_keeps | apply Keeps.ite | refine Keeps.ofPair ?_ ‹_› | split

theorem State.basicValues_keeps {z : State} {s : State} {cap : ℕ} {i : ℕ} (h : Keeps z s)  :
    Keeps z (State.basicValues s cap i) := by
  unfold State.basicValues
  repeat' with_reducible first
    | assumption | intro _ | extract_lets | exact BusKeeps.refl _ | apply State.onBus_keeps | apply Bus.setReg_keeps
    | apply State.setReg_keeps | apply State.putVal_keeps | apply Keeps.ite | apply Keeps.iteFst | apply Keeps.forEach
    | apply Keeps.forEachFst | refine Keeps.ofPair ?_ ‹_› | split

theorem State.setLevel_keeps {z : State} {s : State} {cap : ℕ} {i : ℕ} {v : Bool} (h : Keeps z s)  :
    Keeps z (State.setLevel s cap i v) := by
  unfold State.setLevel
  repeat' with_reducible first
    | assumption | intro _ | extract_lets | exact BusKeeps.refl _ | apply State.onBus_keeps | apply Bus.setFld_keeps
    | apply State.basicValues_keeps | apply Keeps.ite

theorem State.fnCtlWrite_keeps {z : State} {s : State} {port : ℕ} {cap : ℕ} {i : ℕ} {v : Word} (h : Keeps z s)  :
    Keeps z (State.fnCtlWrite s port cap i v) := by
  unfold State.fnCtlWrite
  repeat' with_reducible first
    | assumption | intro _ | extract_lets | apply State.hostWrite_keeps | apply State.notOwner_keeps
    | apply State.setLevel_keeps | apply State.enable_keeps | apply State.disable_keeps | apply Keeps.ite

theorem State.fnEnable_keeps {z : State} {s : State} {port : ℕ} {cap : ℕ} {i : ℕ} {v : Bool} (h : Keeps z s)  :
    Keeps z (State.fnEnable s port cap i v) := by
  unfold State.fnEnable
  repeat' with_reducible first
    | assumption | apply State.fnCtlWrite_keeps

theorem State.fnLevelSet_keeps {z : State} {s : State} {port : ℕ} {cap : ℕ} {i : ℕ} {v : Bool} (h : Keeps z s)  :
    Keeps z (State.fnLevelSet s port cap i v) := by
  unfold State.fnLevelSet
  repeat' with_reducible first
    | assumption | apply State.fnCtlWrite_keeps

theorem State.startEnds_keeps {z : State} {s : State} {cap : ℕ} {i : ℕ} {r : Option ℕ} (h : Keeps z s)  :
    Keeps z (State.startEnds s cap i r) := by
  unfold State.startEnds
  repeat' with_reducible first
    | assumption | intro _ | exact BusKeeps.refl _ | apply State.onBus_keeps | apply Bus.startFailed_keeps
    | apply Bus.enter_keeps | refine Keeps.ofPair ?_ ‹_› | split

theorem State.functionStarted_keeps {z : State} {s : State} {cap : ℕ} {i : ℕ} (h : Keeps z s)  :
    Keeps z (State.functionStarted s cap i) := by
  unfold State.functionStarted
  repeat' with_reducible first
    | assumption | intro _ | extract_lets | exact BusKeeps.refl _ | apply State.startEnds_keeps | apply State.onBus_keeps
    | apply Bus.flushAll_keeps | apply State.fetchUpTo_keeps | apply State.sourceOn_keeps | apply State.encOn_keeps
    | apply State.setJrn_keeps | apply Keeps.ite | refine Keeps.ofPair ?_ ‹_› | split

theorem State.scrub_keeps {z : State} {s : State} {cap : ℕ} {i : ℕ} (h : Keeps z s)  :
    Keeps z (State.scrub s cap i) := by
  unfold State.scrub
  repeat' with_reducible first
    | assumption | intro _ | extract_lets | exact BusKeeps.refl _ | apply State.onBus_keeps | apply Bus.setRing_keeps
    | apply Bus.setReg_keeps | apply State.withPorts_keeps | apply State.portOff_keeps | apply Keeps.ite
    | refine Keeps.ofPair ?_ ‹_› | split | apply BusKeeps.ite | dsimp only | dsimp +zetaDelta only
    | (fail_if_no_progress apply BusKeeps.mk')

theorem State.shutdownComplete_keeps {z : State} {s : State} {cap : ℕ} {i : ℕ} (h : Keeps z s)  :
    Keeps z (State.shutdownComplete s cap i) := by
  unfold State.shutdownComplete
  repeat' with_reducible first
    | assumption | intro _ | extract_lets | exact BusKeeps.refl _ | apply State.scrub_keeps | apply State.onBus_keeps
    | apply Bus.enter_keeps | apply State.toStarting_keeps | apply Bus.setFld_keeps | apply Keeps.ite | split
    | apply BusKeeps.ite

theorem State.stopSlow_keeps {z : State} {s : State} {cap : ℕ} {i : ℕ} (h : Keeps z s)  :
    Keeps z (State.stopSlow s cap i) := by
  unfold State.stopSlow
  repeat' with_reducible first
    | assumption | intro _ | extract_lets | exact BusKeeps.refl _ | apply State.emit_keeps | apply State.onBus_keeps
    | apply Keeps.ite | split | apply BusKeeps.ite | dsimp only | dsimp +zetaDelta only
    | (fail_if_no_progress apply BusKeeps.mk')

theorem execFnEnable_keeps {z : State} {port : ℕ} {cap : ℕ} {i : ℕ} {s : State} (h : Keeps z s)  :
    AnswerKeeps z (execFnEnable port cap i s) := by
  unfold execFnEnable
  repeat' with_reducible first
    | assumption | intro _ | apply State.window_keeps | apply State.fnEnable_keeps

theorem execFnDisable_keeps {z : State} {port : ℕ} {cap : ℕ} {i : ℕ} {s : State} (h : Keeps z s)  :
    AnswerKeeps z (execFnDisable port cap i s) := by
  unfold execFnDisable
  repeat' with_reducible first
    | assumption | intro _ | apply State.window_keeps | apply State.fnEnable_keeps

theorem execFnLevelSet_keeps {z : State} {port : ℕ} {cap : ℕ} {i : ℕ} {expert : Bool} {s : State} (h : Keeps z s)  :
    AnswerKeeps z (execFnLevelSet port cap i expert s) := by
  unfold execFnLevelSet
  repeat' with_reducible first
    | assumption | intro _ | apply State.window_keeps | apply State.fnLevelSet_keeps

theorem execFunctionStarted_keeps {z : State} {cap : ℕ} {i : ℕ} {s : State} (h : Keeps z s)  :
    AnswerKeeps z (execFunctionStarted cap i s) := by
  unfold execFunctionStarted
  repeat' with_reducible first
    | assumption | intro _ | apply State.fabric_keeps | apply State.functionStarted_keeps

theorem execStopSlow_keeps {z : State} {cap : ℕ} {i : ℕ} {s : State} (h : Keeps z s)  :
    AnswerKeeps z (execStopSlow cap i s) := by
  unfold execStopSlow
  repeat' with_reducible first
    | assumption | intro _ | apply State.fabric_keeps | apply State.stopSlow_keeps

end Sys2Proof.Machine
end

