-- ==== Sys2Proof/Laws/KeepsTimeStep.lean ====
section
/-! SUPPORT. What the operations and commands of Machine/TimeStep.lean keep: one law each. -/

namespace Sys2Proof.Machine

theorem State.shiftReg_keeps {z : State} {s : State} {d : ℤ} {r : FReg} {i : ℕ} {j : ℕ} (h : Keeps z s)  :
    Keeps z (State.shiftReg s d r i j) := by
  unfold State.shiftReg
  repeat' with_reducible first
    | assumption | apply State.setReg_keeps

theorem State.shiftGroups_keeps {z : State} {s : State} {d : ℤ} (h : Keeps z s)  :
    Keeps z (State.shiftGroups s d) := by
  unfold State.shiftGroups
  repeat' with_reducible first
    | assumption | intro _ | extract_lets | exact BusKeeps.refl _ | apply State.setGroup_keeps | apply State.shiftReg_keeps
    | apply Keeps.ite | apply Keeps.iteFst | apply Keeps.forEach

theorem State.shiftPulses_keeps {z : State} {s : State} {d : ℤ} (h : Keeps z s)  :
    Keeps z (State.shiftPulses s d) := by
  unfold State.shiftPulses
  repeat' with_reducible first
    | assumption | intro _ | extract_lets | exact BusKeeps.refl _ | apply State.shiftReg_keeps | apply State.setPulse_keeps
    | apply Keeps.ite | apply Keeps.forEach

theorem State.shiftCaps_keeps {z : State} {s : State} {d : ℤ} (h : Keeps z s)  :
    Keeps z (State.shiftCaps s d) := by
  unfold State.shiftCaps
  repeat' with_reducible first
    | assumption | intro _ | apply State.setFld_keeps | apply State.shiftReg_keeps | apply Keeps.ite | apply Keeps.forEach

theorem State.shiftSources_keeps {z : State} {s : State} {d : ℤ} (h : Keeps z s)  :
    Keeps z (State.shiftSources s d) := by
  unfold State.shiftSources
  repeat' with_reducible first
    | assumption | intro _ | extract_lets | exact BusKeeps.refl _ | apply State.shiftReg_keeps | apply State.setSrc_keeps
    | apply State.setDec_keeps | apply State.setCore_keeps | apply Keeps.ite | apply Keeps.iteFst | apply Keeps.forEach
    | apply Keeps.forEachFst | refine Keeps.ofPair ?_ ‹_› | split | dsimp only | dsimp +zetaDelta only
    | (fail_if_no_progress apply Keeps.mk')

theorem State.shiftHeads_keeps {z : State} {s : State} {d : ℤ} (h : Keeps z s)  :
    Keeps z (State.shiftHeads s d) := by
  unfold State.shiftHeads
  repeat' with_reducible first
    | assumption | intro _ | extract_lets | exact BusKeeps.refl _ | apply State.shiftReg_keeps | apply State.setHead_keeps
    | apply Keeps.ite | apply Keeps.iteFst | apply Keeps.forEach

theorem State.shiftEncs_keeps {z : State} {s : State} {d : ℤ} (h : Keeps z s)  :
    Keeps z (State.shiftEncs s d) := by
  unfold State.shiftEncs
  repeat' with_reducible first
    | assumption | intro _ | extract_lets | exact BusKeeps.refl _ | apply State.setEnc_keeps | apply Keeps.ite
    | apply Keeps.iteFst | apply Keeps.forEach

theorem State.shiftPanels_keeps {z : State} {s : State} {d : ℤ} (h : Keeps z s)  :
    Keeps z (State.shiftPanels s d) := by
  unfold State.shiftPanels
  repeat' with_reducible first
    | assumption | intro _ | extract_lets | exact BusKeeps.refl _ | apply State.setPan_keeps | apply Keeps.forEach

theorem State.timeStep_keeps {z : State} {s : State} {d : ℤ} {tag : ℕ} (h : Keeps z s)  :
    Keeps z (State.timeStep s d tag) := by
  unfold State.timeStep
  repeat' with_reducible first
    | assumption | intro _ | extract_lets | exact BusKeeps.refl _ | apply State.timingRec_keeps | apply State.onBus_keeps
    | apply State.wrapBy_keeps | apply State.shiftCaps_keeps | apply State.shiftPulses_keeps | apply State.shiftGroups_keeps
    | apply State.shiftPanels_keeps | apply State.shiftEncs_keeps | apply State.shiftHeads_keeps
    | apply State.shiftSources_keeps | apply State.setTnd_keeps | apply State.setTim_keeps | apply State.setLink_keeps
    | apply Bus.setFld_keeps | apply State.emit_keeps | apply Keeps.ite | apply Keeps.forEach | apply Keeps.foldl
    | apply Keeps.foldlFst | apply BusKeeps.foldl | split | apply BusKeeps.ite | apply BusKeeps.forEach | dsimp only
    | dsimp +zetaDelta only | (fail_if_no_progress apply BusKeeps.mk')

theorem stepCmd_keeps {z : State} {x0 : ℕ} {x1 : ℕ} {x2 : FEntry} {x3 : State} (h : Keeps z x3)  :
    Keeps z (stepCmd x0 x1 x2 x3).1 := by
  unfold stepCmd
  repeat' with_reducible first
    | assumption | intro _ | extract_lets | exact BusKeeps.refl _ | apply checked_keeps | apply done_keeps
    | apply State.timeStep_keeps | apply Keeps.ite | split

theorem execStep_keeps {z : State} {r : ℕ} {k : ℕ} {s : State} (h : Keeps z s)  :
    AnswerKeeps z (execStep r k s) := by
  unfold execStep
  repeat' with_reducible first
    | assumption | intro _ | apply State.fabric_keeps | apply State.runCmd_keeps | apply stepCmd_keeps

end Sys2Proof.Machine
end

