-- ==== Sys2Proof/Laws/KeepsFailSafe.lean ====
section
/-! SUPPORT. What the operations and commands of Machine/FailSafe.lean keep: one law each. -/

namespace Sys2Proof.Machine

theorem State.showSlots_keeps {z : State} {s : State} (h : Keeps z s)  :
    Keeps z (State.showSlots s) := by
  unfold State.showSlots
  repeat' with_reducible first
    | assumption | extract_lets | apply State.setReg_keeps

theorem State.putSlots_keeps {z : State} {s : State} {f : SlotRec → SlotRec} (h : Keeps z s)  :
    Keeps z (State.putSlots s f) := by
  unfold State.putSlots
  repeat' with_reducible first
    | assumption | extract_lets | exact BusKeeps.refl _ | apply State.storeRefused_keeps | apply State.setWdn_keeps
    | apply State.showSlots_keeps | apply Keeps.ite | refine Keeps.ofPair ?_ ‹_› | split | dsimp only | dsimp +zetaDelta only
    | (fail_if_no_progress apply Keeps.mk')

theorem State.setSlotState_keeps {z : State} {s : State} {k : ℕ} {v : ℕ} (h : Keeps z s)  :
    Keeps z (State.setSlotState s k v) := by
  unfold State.setSlotState
  repeat' with_reducible first
    | assumption | intro _ | exact BusKeeps.refl _ | apply State.putSlots_keeps

theorem State.structEnd_keeps {z : State} {s : State} {st : ℕ} {reason : ℕ} (h : Keeps z s)  :
    Keeps z (State.structEnd s st reason) := by
  unfold State.structEnd
  repeat' with_reducible first
    | assumption | extract_lets | exact BusKeeps.refl _ | apply State.setFld_keeps | apply State.setWdn_keeps

theorem State.structFail_keeps {z : State} {s : State} {reason : ℕ} {slot : ℕ} {rec : ℕ} (h : Keeps z s)  :
    Keeps z (State.structFail s reason slot rec) := by
  unfold State.structFail
  repeat' with_reducible first
    | assumption | apply State.setReg_keeps

theorem State.setZoneState_keeps {z : State} {s : State} {z_ : ℕ} {v : ℕ} (h : Keeps z s)  :
    Keeps z (State.setZoneState s z_ v) := by
  unfold State.setZoneState
  repeat' with_reducible first
    | assumption | apply State.setFld_keeps

theorem State.zoneRec_keeps {z : State} {s : State} {z_ : ℕ} {step : ℕ} {result : ℕ} (h : Keeps z s)  :
    Keeps z (State.zoneRec s z_ step result) := by
  unfold State.zoneRec
  repeat' with_reducible first
    | assumption | apply State.journal_keeps

theorem State.zoneHalt_keeps {z : State} {s : State} {reason : ℕ} (h : Keeps z s)  :
    Keeps z (State.zoneHalt s reason) := by
  unfold State.zoneHalt
  repeat' with_reducible first
    | assumption | extract_lets | exact BusKeeps.refl _ | apply State.zoneRec_keeps | apply State.setFld_keeps
    | apply State.setZoneState_keeps | apply State.structEnd_keeps | apply State.structFail_keeps | apply State.emit_keeps
    | apply State.setWdn_keeps | refine Keeps.ofPair ?_ ‹_› | split

theorem State.vddShow_keeps {z : State} {s : State} (h : Keeps z s)  :
    Keeps z (State.vddShow s) := by
  unfold State.vddShow
  repeat' with_reducible first
    | assumption | intro _ | extract_lets | exact BusKeeps.refl _ | apply State.setWdn_keeps | apply State.setFld_keeps

theorem State.vddRequest_keeps {z : State} {s : State} {mv : ℕ} (h : Keeps z s)  :
    Keeps z (State.vddRequest s mv) := by
  unfold State.vddRequest
  repeat' with_reducible first
    | assumption | extract_lets | exact BusKeeps.refl _ | apply State.setFld_keeps | apply State.send_keeps
    | apply State.vddShow_keeps | apply State.setWdn_keeps

theorem State.faultPin_keeps {z : State} {s : State} {was : State} (h : Keeps z s)  :
    Keeps z (State.faultPin s was) := by
  unfold State.faultPin
  repeat' with_reducible first
    | assumption | apply State.send_keeps | apply Keeps.ite

theorem State.thmLevel_keeps {z : State} {s : State} {l : ℕ} (h : Keeps z s)  :
    Keeps z (State.thmLevel s l) := by
  unfold State.thmLevel
  repeat' with_reducible first
    | assumption | exact BusKeeps.refl _ | apply State.faultPin_keeps | apply State.setWdn_keeps | apply State.setFld_keeps

theorem State.reloadEnds_keeps {z : State} {s : State} {reason : ℕ} (h : Keeps z s)  :
    Keeps z (State.reloadEnds s reason) := by
  unfold State.reloadEnds
  repeat' with_reducible first
    | assumption | extract_lets | exact BusKeeps.refl _ | apply State.zoneHalt_keeps | apply State.structEnd_keeps
    | apply State.structFail_keeps | apply Keeps.ite | refine Keeps.ofPair ?_ ‹_› | split

theorem State.failSafeEnds_keeps {z : State} {s : State} (h : Keeps z s)  :
    Keeps z (State.failSafeEnds s) := by
  unfold State.failSafeEnds
  repeat' with_reducible first
    | assumption | extract_lets | exact BusKeeps.refl _ | apply State.reloadEnds_keeps | apply State.structEnd_keeps
    | apply State.setReg_keeps | apply State.setWdn_keeps | apply Keeps.ite | refine Keeps.ofPair ?_ ‹_› | split | dsimp only
    | dsimp +zetaDelta only

theorem State.failSafeStops_keeps {z : State} {s : State} (h : Keeps z s)  :
    Keeps z (State.failSafeStops s) := by
  unfold State.failSafeStops
  repeat' with_reducible first
    | assumption | intro _ | extract_lets | apply State.stop_keeps | apply Keeps.ite | apply Keeps.forEach

theorem State.pulsesLow_keeps {z : State} {s : State} (h : Keeps z s)  :
    Keeps z (State.pulsesLow s) := by
  unfold State.pulsesLow
  repeat' with_reducible first
    | assumption | intro _ | extract_lets | exact BusKeeps.refl _ | apply State.drivePulse_keeps | apply State.setPulse_keeps
    | apply Keeps.ite | apply Keeps.forEach

theorem State.failSafeWires_keeps {z : State} {s : State} (h : Keeps z s)  :
    Keeps z (State.failSafeWires s) := by
  unfold State.failSafeWires
  repeat' with_reducible first
    | assumption | intro _ | extract_lets | exact BusKeeps.refl _ | apply State.giveUp_keeps | apply State.setOutput_keeps
    | apply State.safeWire_keeps | apply State.toFailed_keeps | apply State.creditStop_keeps | apply State.pulsesLow_keeps
    | apply State.setTim_keeps | apply State.deselect_keeps | apply Keeps.ite | apply Keeps.forEach

theorem State.failSafe_keeps {z : State} {s : State} {code : ℕ} (h : Keeps z s)  :
    Keeps z (State.failSafe s code) := by
  unfold State.failSafe
  repeat' with_reducible first
    | assumption | extract_lets | exact BusKeeps.refl _ | apply State.fault_keeps | apply State.reloadEnds_keeps
    | apply State.setWdn_keeps | apply State.thmLevel_keeps | apply State.failSafeWires_keeps | apply State.emit_keeps
    | apply State.failSafeEnds_keeps | apply State.failSafeStops_keeps | apply Keeps.ite

theorem State.dieOff_keeps {z : State} {s : State} {column : ℕ} (h : Keeps z s)  :
    Keeps z (State.dieOff s column) := by
  unfold State.dieOff
  repeat' with_reducible first
    | assumption | intro _ | extract_lets | apply State.send_keeps | apply Keeps.ite | apply Keeps.forEach

theorem State.holdDie_keeps {z : State} {s : State} (h : Keeps z s)  :
    Keeps z (State.holdDie s) := by
  unfold State.holdDie
  repeat' with_reducible first
    | assumption | exact BusKeeps.refl _ | apply State.dieOff_keeps | (fail_if_no_progress apply Keeps.mk')

end Sys2Proof.Machine
end

