-- ==== Sys2Proof/Laws/KeepsStartup.lean ====
section
/-! SUPPORT. What the operations and commands of Machine/Startup.lean keep: one law each. -/

namespace Sys2Proof.Machine

theorem State.drawNonce_keeps {z : State} {s : State} (h : Keeps z s)  :
    Keeps z (State.drawNonce s) := by
  unfold State.drawNonce
  repeat' with_reducible first
    | assumption | intro _ | apply State.setReg_keeps | apply State.free_keeps | apply Keeps.forEach

theorem State.bare_keeps {z s : State} (h : Keeps z s) : Keeps z s.bare :=
  h.trans ⟨⟨fun _ => rfl, Nat.le_refl _, Nat.le_refl _, List.prefix_refl _⟩, .refl _, rfl⟩

theorem State.showLife_keeps {z : State} {s : State} (h : Keeps z s)  :
    Keeps z (State.showLife s) := by
  unfold State.showLife
  repeat' with_reducible first
    | assumption | extract_lets | exact BusKeeps.refl _ | apply State.setReg_keeps | apply State.setFld_keeps
    | refine Keeps.ofPair ?_ ‹_› | split

theorem State.resetTo_keeps {z : State} {s : State} {kind : ℕ} {cause : ℕ} {straps : ℕ} (h : Keeps z s)  :
    Keeps z (State.resetTo s kind cause straps) := by
  unfold State.resetTo
  repeat' with_reducible first
    | assumption | intro _ | extract_lets | exact BusKeeps.refl _ | apply State.bare_keeps | apply State.dieOff_keeps
    | apply State.setReg_keeps | apply State.setWdn_keeps | apply State.drawNonce_keeps | apply State.faultPin_keeps
    | apply State.showLife_keeps | apply State.showSlots_keeps | apply State.identity_keeps | apply State.setFld_keeps
    | apply State.failSafe_keeps | apply Keeps.ite | apply Keeps.iteFst | split | dsimp only | dsimp +zetaDelta only
    | (fail_if_no_progress apply Keeps.mk')

theorem State.powerOn_keeps {z : State} {s : State} {straps : ℕ} (h : Keeps z s)  :
    Keeps z (State.powerOn s straps) := by
  unfold State.powerOn
  repeat' with_reducible first
    | assumption | exact BusKeeps.refl _ | apply State.resetTo_keeps | (fail_if_no_progress apply Keeps.mk')

theorem State.writtenReset_keeps {z : State} {s : State} {kind : ℕ} {cause : ℕ} (h : Keeps z s)  :
    Keeps z (State.writtenReset s kind cause) := by
  unfold State.writtenReset
  repeat' with_reducible first
    | assumption | extract_lets | exact BusKeeps.refl _ | apply State.toFailed_keeps | apply State.setTnd_keeps
    | apply State.resetTo_keeps | apply Keeps.ite

theorem State.failedHeartbeatEnd_keeps {z : State} {s : State} (h : Keeps z s)  :
    Keeps z (State.failedHeartbeatEnd s) := by
  unfold State.failedHeartbeatEnd
  repeat' with_reducible first
    | assumption | extract_lets | exact BusKeeps.refl _ | apply State.failedEnds_keeps | apply State.resetTo_keeps
    | apply State.failSafeStops_keeps | apply Keeps.ite | refine Keeps.ofPair ?_ ‹_› | split

theorem State.thmCmd_keeps {z : State} {s : State} {port : ℕ} {v : Word} (h : Keeps z s)  :
    Keeps z (State.thmCmd s port v) := by
  unfold State.thmCmd
  repeat' with_reducible first
    | assumption | intro _ | exact BusKeeps.refl _ | apply State.onBus_keeps | apply Bus.bump_keeps
    | apply State.writtenReset_keeps | apply Keeps.ite

theorem State.thmCmdWrite_keeps {z : State} {s : State} {port : ℕ} {v : Word} (h : Keeps z s)  :
    Keeps z (State.thmCmdWrite s port v) := by
  unfold State.thmCmdWrite
  repeat' with_reducible first
    | assumption | intro _ | apply State.hostWrite_keeps | apply State.thmCmd_keeps

theorem State.lockstep_keeps {z : State} {s : State} (h : Keeps z s)  :
    Keeps z (State.lockstep s) := by
  unfold State.lockstep
  repeat' with_reducible first
    | assumption | apply State.resetTo_keeps | apply State.fault_keeps

theorem State.slotOrder_keeps {z : State} {s : State} (h : Keeps z s)  :
    Keeps z (State.slotOrder s).1 := by
  unfold State.slotOrder
  repeat' with_reducible first
    | assumption | intro _ | extract_lets | exact BusKeeps.refl _ | apply State.setSlotState_keeps
    | apply State.putSlots_keeps | apply Keeps.ite | apply Keeps.iteFst

theorem State.trySlots_keeps {z s : State} {ks : List Nat} (h : Keeps z s) : Keeps z (State.trySlots ks s).1 := by
  induction ks generalizing s with
  | nil => exact h
  | cons k rest ih =>
    unfold State.trySlots
    dsimp only
    split
    · exact State.setWdn_keeps h
    · exact ih (Keeps.ite (State.structFail_keeps (Keeps.ite (State.setSlotState_keeps h) h))
        (State.emit_keeps (State.structFail_keeps (Keeps.ite (State.setSlotState_keeps h) h))))

theorem State.release_keeps {z : State} {s : State} (h : Keeps z s)  :
    Keeps z (State.release s) := by
  unfold State.release
  repeat' with_reducible first
    | assumption | intro _ | extract_lets | exact BusKeeps.refl _ | apply State.faultPin_keeps | apply State.onBus_keeps
    | apply State.identity_keeps | apply State.instantiate_keeps | apply State.setReg_keeps | apply State.setZoneState_keeps
    | apply Keeps.forEach | apply Keeps.forEachFst | refine Keeps.ofPair ?_ ‹_› | split | apply BusKeeps.forEach | dsimp only
    | dsimp +zetaDelta only | (fail_if_no_progress apply Keeps.mk') | (fail_if_no_progress apply BusKeeps.mk')

theorem State.toSupplies_keeps {z : State} {s : State} {out : List ℕ} (h : Keeps z s)  :
    Keeps z (State.toSupplies s out) := by
  unfold State.toSupplies
  repeat' with_reducible first
    | assumption | extract_lets | exact BusKeeps.refl _ | apply State.vddRequest_keeps | apply State.release_keeps
    | apply State.setWdn_keeps | apply Keeps.ite

theorem State.noStructure_keeps {z : State} {s : State} {out : List ℕ} (h : Keeps z s)  :
    Keeps z (State.noStructure s out) := by
  unfold State.noStructure
  repeat' with_reducible first
    | assumption | extract_lets | exact BusKeeps.refl _ | apply State.setWdn_keeps | apply State.fault_keeps
    | apply State.showSlots_keeps | apply State.setFld_keeps | apply State.toSupplies_keeps | apply State.emit_keeps

theorem State.takeStructure_keeps {z : State} {s : State} {l : Loaded} {fresh : Bool} {out : List ℕ} (h : Keeps z s)  :
    Keeps z (State.takeStructure s l fresh out) := by
  unfold State.takeStructure
  repeat' with_reducible first
    | assumption | extract_lets | exact BusKeeps.refl _ | apply State.showSlots_keeps | apply State.setWdn_keeps
    | apply State.setFld_keeps | apply State.emit_keeps | apply State.structFail_keeps | apply State.toSupplies_keeps
    | apply Keeps.ite | refine Keeps.ofPair ?_ ‹_› | split | dsimp only | dsimp +zetaDelta only

theorem State.structureLoad_keeps {z : State} {s : State} {out : List ℕ} (h : Keeps z s)  :
    Keeps z (State.structureLoad s out) := by
  unfold State.structureLoad
  repeat' with_reducible first
    | assumption | extract_lets | exact BusKeeps.refl _ | apply State.slotOrder_keeps | apply State.trySlots_keeps
    | apply State.setWdn_keeps | apply State.noStructure_keeps | apply State.takeStructure_keeps | apply Keeps.ite
    | apply Keeps.iteFst | refine Keeps.ofPair ?_ ‹_› | split

theorem State.routingComputed_keeps {z : State} {s : State} {out : List ℕ} (h : Keeps z s)  :
    Keeps z (State.routingComputed s out) := by
  unfold State.routingComputed
  repeat' with_reducible first
    | assumption | apply State.toSupplies_keeps | apply Keeps.ite

theorem State.supplyWait_keeps {z : State} {s : State} {out : List ℕ} (h : Keeps z s)  :
    Keeps z (State.supplyWait s out) := by
  unfold State.supplyWait
  repeat' with_reducible first
    | assumption | apply State.release_keeps | apply State.failSafe_keeps | apply State.holdDie_keeps | apply Keeps.ite

theorem State.stackTemps_keeps {z : State} {s : State} {t0 : ℤ} {t1 : ℤ} (h : Keeps z s)  :
    Keeps z (State.stackTemps s t0 t1) := by
  unfold State.stackTemps
  repeat' with_reducible first
    | assumption | intro _ | extract_lets | exact BusKeeps.refl _ | apply State.onBus_keeps | apply Bus.stackReading_keeps
    | apply Bus.memStart_keeps | apply Bus.warmed_keeps | apply Keeps.ite | refine Keeps.ofPair ?_ ‹_› | split

theorem State.warmingTimeout_keeps {z : State} {s : State} {stack : ℕ} (h : Keeps z s)  :
    Keeps z (State.warmingTimeout s stack) := by
  unfold State.warmingTimeout
  repeat' with_reducible first
    | assumption | intro _ | exact BusKeeps.refl _ | apply State.failSafe_keeps | apply State.onBus_keeps
    | apply Bus.memFailed_keeps | apply Keeps.ite

theorem State.trainingComplete_keeps {z : State} {s : State} {fullSearch : Bool} {repairs : List (ℕ × ℕ)} {failed : Option (ℕ × ℕ)} (h : Keeps z s)  :
    Keeps z (State.trainingComplete s fullSearch repairs failed) := by
  unfold State.trainingComplete
  repeat' with_reducible first
    | assumption | intro _ | extract_lets | exact BusKeeps.refl _ | apply State.failSafe_keeps | apply State.onBus_keeps
    | apply Bus.trainFailed_keeps | apply Bus.trained_keeps | apply State.storeRefused_keeps | apply State.setWdn_keeps
    | apply Keeps.ite | apply Keeps.iteFst | refine Keeps.ofPair ?_ ‹_› | split | apply BusKeeps.ite | dsimp only
    | dsimp +zetaDelta only | (fail_if_no_progress apply BusKeeps.mk')

theorem State.zeroingComplete_keeps {z : State} {s : State} (h : Keeps z s)  :
    Keeps z (State.zeroingComplete s) := by
  unfold State.zeroingComplete
  repeat' with_reducible first
    | assumption | intro _ | extract_lets | exact BusKeeps.refl _ | apply State.onBus_keeps | apply Bus.emit_keeps
    | apply Bus.setFld_keeps | apply Bus.zeroParts_keeps | apply State.setWdn_keeps | apply State.setReg_keeps
    | apply State.emit_keeps | apply State.setFld_keeps | apply State.setTnd_keeps | apply State.startAll_keeps
    | apply Keeps.ite | refine Keeps.ofPair ?_ ‹_› | split

theorem State.retrainEnds_keeps {z : State} {s : State} {pc : ℕ} {ok : Bool} (h : Keeps z s)  :
    Keeps z (State.retrainEnds s pc ok) := by
  unfold State.retrainEnds
  repeat' with_reducible first
    | assumption | intro _ | extract_lets | exact BusKeeps.refl _ | apply State.onBus_keeps | apply Bus.retrained_keeps
    | apply State.failSafe_keeps | apply Keeps.ite

theorem execPowerOnReset_keeps {z : State} {straps : ℕ} {s : State} (h : Keeps z s)  :
    AnswerKeeps z (execPowerOnReset straps s) := by
  unfold execPowerOnReset
  repeat' with_reducible first
    | assumption | apply State.settle_keeps | apply State.watch_keeps | apply State.powerOn_keeps | apply AnswerKeeps.next

theorem execSysResetNAssert_keeps {z : State} {s : State} (h : Keeps z s)  :
    AnswerKeeps z (execSysResetNAssert s) := by
  unfold execSysResetNAssert
  repeat' with_reducible first
    | assumption | intro _ | apply State.warden_keeps | apply State.resetTo_keeps

theorem execWarmReset_keeps {z : State} {port : ℕ} {key : ℕ} {s : State} (h : Keeps z s)  :
    AnswerKeeps z (execWarmReset port key s) := by
  unfold execWarmReset
  repeat' with_reducible first
    | assumption | intro _ | apply State.fabric_keeps | apply State.thmCmdWrite_keeps

theorem execFabricReset_keeps {z : State} {port : ℕ} {key : ℕ} {s : State} (h : Keeps z s)  :
    AnswerKeeps z (execFabricReset port key s) := by
  unfold execFabricReset
  repeat' with_reducible first
    | assumption | intro _ | apply State.fabric_keeps | apply State.thmCmdWrite_keeps

theorem execLockstepMismatch_keeps {z : State} {s : State} (h : Keeps z s)  :
    AnswerKeeps z (execLockstepMismatch s) := by
  unfold execLockstepMismatch
  repeat' with_reducible first
    | assumption | apply State.warden_keeps | apply State.lockstep_keeps

theorem execStructureLoad_keeps {z : State} {out : List ℕ} {s : State} (h : Keeps z s)  :
    AnswerKeeps z (execStructureLoad out s) := by
  unfold execStructureLoad
  repeat' with_reducible first
    | assumption | intro _ | apply State.warden_keeps | apply State.structureLoad_keeps

theorem execRoutingComputed_keeps {z : State} {out : List ℕ} {s : State} (h : Keeps z s)  :
    AnswerKeeps z (execRoutingComputed out s) := by
  unfold execRoutingComputed
  repeat' with_reducible first
    | assumption | intro _ | apply State.warden_keeps | apply State.routingComputed_keeps

theorem execSupplyWaitTimeout_keeps {z : State} {out : List ℕ} {s : State} (h : Keeps z s)  :
    AnswerKeeps z (execSupplyWaitTimeout out s) := by
  unfold execSupplyWaitTimeout
  repeat' with_reducible first
    | assumption | intro _ | apply State.warden_keeps | apply State.supplyWait_keeps

theorem execStackTempReading_keeps {z : State} {t0 : ℤ} {t1 : ℤ} {s : State} (h : Keeps z s)  :
    AnswerKeeps z (execStackTempReading t0 t1 s) := by
  unfold execStackTempReading
  repeat' with_reducible first
    | assumption | intro _ | apply State.fabric_keeps | apply State.stackTemps_keeps

theorem execWarmingTimeout_keeps {z : State} {stack : ℕ} {s : State} (h : Keeps z s)  :
    AnswerKeeps z (execWarmingTimeout stack s) := by
  unfold execWarmingTimeout
  repeat' with_reducible first
    | assumption | intro _ | apply State.fabric_keeps | apply State.warmingTimeout_keeps

theorem execTrainingComplete_keeps {z : State} {fullSearch : Bool} {repairs : List (ℕ × ℕ)} {failed : Option (ℕ × ℕ)} {s : State} (h : Keeps z s)  :
    AnswerKeeps z (execTrainingComplete fullSearch repairs failed s) := by
  unfold execTrainingComplete
  repeat' with_reducible first
    | assumption | intro _ | apply State.fabric_keeps | apply State.trainingComplete_keeps

theorem execZeroingComplete_keeps {z : State} {s : State} (h : Keeps z s)  :
    AnswerKeeps z (execZeroingComplete s) := by
  unfold execZeroingComplete
  repeat' with_reducible first
    | assumption | apply State.fabric_keeps | apply State.zeroingComplete_keeps

theorem execRetrained_keeps {z : State} {pc : ℕ} {ok : Bool} {s : State} (h : Keeps z s)  :
    AnswerKeeps z (execRetrained pc ok s) := by
  unfold execRetrained
  repeat' with_reducible first
    | assumption | intro _ | apply State.fabric_keeps | apply State.retrainEnds_keeps

end Sys2Proof.Machine
end

