-- ==== Sys2Proof/Laws/KeepsThermal.lean ====
section
/-! SUPPORT. What the operations and commands of Machine/Thermal.lean keep: one law each. -/

namespace Sys2Proof.Machine

theorem State.takeSensor_keeps {z : State} {s : State} {n : ℕ} {t : Option ℤ} (h : Keeps z s)  :
    Keeps z (State.takeSensor s n t) := by
  unfold State.takeSensor
  repeat' with_reducible first
    | assumption | extract_lets | exact BusKeeps.refl _ | apply State.setWdn_keeps | apply State.setFld_keeps
    | apply Keeps.ite | refine Keeps.ofPair ?_ ‹_› | split

theorem State.sensorEvent_keeps {z : State} {s : State} {n : ℕ} (h : Keeps z s)  :
    Keeps z (State.sensorEvent s n) := by
  unfold State.sensorEvent
  repeat' with_reducible first
    | assumption | intro _ | extract_lets | exact BusKeeps.refl _ | apply State.emit_keeps | apply State.setWdn_keeps
    | apply Keeps.ite

theorem State.judgeSensors_keeps {z : State} {s : State} (h : Keeps z s)  :
    Keeps z (State.judgeSensors s) := by
  unfold State.judgeSensors
  repeat' with_reducible first
    | assumption | intro _ | extract_lets | exact BusKeeps.refl _ | apply State.setWdn_keeps | apply State.setFld_keeps
    | apply State.setReg_keeps | apply State.sensorEvent_keeps | apply State.failSafe_keeps | apply Keeps.ite
    | apply Keeps.forEach

theorem State.showTemps_keeps {z : State} {s : State} {first : Bool} (h : Keeps z s)  :
    Keeps z (State.showTemps s first) := by
  unfold State.showTemps
  repeat' with_reducible first
    | assumption | extract_lets | exact BusKeeps.refl _ | apply State.setFld_keeps | apply Keeps.ite
    | refine Keeps.ofPair ?_ ‹_› | split

theorem State.storeRange_keeps {z : State} {s : State} (h : Keeps z s)  :
    Keeps z (State.storeRange s) := by
  unfold State.storeRange
  repeat' with_reducible first
    | assumption | intro _ | extract_lets | exact BusKeeps.refl _ | apply State.setFld_keeps | apply State.structEnd_keeps
    | apply State.structFail_keeps | apply State.storeRefused_keeps | apply State.onBus_keeps | apply State.setWdn_keeps
    | apply Keeps.ite | apply Keeps.foldl | apply Keeps.foldlFst | apply BusKeeps.foldl | refine Keeps.ofPair ?_ ‹_› | split
    | apply BusKeeps.ite | dsimp only | dsimp +zetaDelta only | (fail_if_no_progress apply Keeps.mk')
    | (fail_if_no_progress apply BusKeeps.mk')

theorem State.grace_keeps {z : State} {s : State} (h : Keeps z s)  :
    Keeps z (State.grace s) := by
  unfold State.grace
  repeat' with_reducible first
    | assumption | extract_lets | exact BusKeeps.refl _ | apply State.setWdn_keeps | apply State.thmLevel_keeps
    | apply State.emit_keeps

theorem State.putStep_keeps {z : State} {s : State} {n : ℕ} (h : Keeps z s)  :
    Keeps z (State.putStep s n) := by
  unfold State.putStep
  repeat' with_reducible first
    | assumption | intro _ | extract_lets | apply State.giveUp_keeps | apply State.setFld_keeps | apply State.emit_keeps
    | apply Keeps.ite | apply Keeps.forEach

theorem State.stepStops_keeps {z : State} {s : State} {n : ℕ} (h : Keeps z s)  :
    Keeps z (State.stepStops s n) := by
  unfold State.stepStops
  repeat' with_reducible first
    | assumption | intro _ | extract_lets | exact BusKeeps.refl _ | apply State.leave_keeps | apply State.onBus_keeps
    | apply Bus.startFailed_keeps | apply Keeps.ite | apply Keeps.forEach

theorem State.enforce_keeps {z : State} {s : State} (h : Keeps z s)  :
    Keeps z (State.enforce s) := by
  unfold State.enforce
  repeat' with_reducible first
    | assumption | extract_lets | exact BusKeeps.refl _ | apply State.stepStops_keeps | apply State.putStep_keeps
    | apply State.setWdn_keeps

theorem State.judgeLevel_keeps {z : State} {s : State} (h : Keeps z s)  :
    Keeps z (State.judgeLevel s) := by
  unfold State.judgeLevel
  repeat' with_reducible first
    | assumption | extract_lets | exact BusKeeps.refl _ | apply State.setWdn_keeps | apply State.failSafe_keeps
    | apply State.grace_keeps | apply Keeps.ite

theorem State.startBand_keeps {z : State} {s : State} (h : Keeps z s)  :
    Keeps z (State.startBand s) := by
  unfold State.startBand
  repeat' with_reducible first
    | assumption | extract_lets | exact BusKeeps.refl _ | apply State.setFld_keeps | apply State.emit_keeps
    | apply State.setWdn_keeps | apply Keeps.ite

theorem State.holdRelease_keeps {z : State} {s : State} (h : Keeps z s)  :
    Keeps z (State.holdRelease s) := by
  unfold State.holdRelease
  repeat' with_reducible first
    | assumption | exact BusKeeps.refl _ | apply State.setWdn_keeps | apply State.setFld_keeps | apply Keeps.ite

theorem State.showRecoveries_keeps {z : State} {s : State} (h : Keeps z s)  :
    Keeps z (State.showRecoveries s) := by
  unfold State.showRecoveries
  repeat' with_reducible first
    | assumption | intro _ | apply State.setFld_keeps

theorem State.sensorReading_keeps {z : State} {s : State} {ts : List (Option ℤ)} (h : Keeps z s)  :
    Keeps z (State.sensorReading s ts) := by
  unfold State.sensorReading
  repeat' with_reducible first
    | assumption | intro _ | extract_lets | exact BusKeeps.refl _ | apply State.setWdn_keeps | apply State.takeSensor_keeps
    | apply State.showTemps_keeps | apply State.judgeSensors_keeps | apply State.showRecoveries_keeps
    | apply State.vddShow_keeps | apply State.storeRange_keeps | apply State.setFld_keeps | apply State.startBand_keeps
    | apply State.judgeLevel_keeps | apply Keeps.ite | apply Keeps.iteFst | apply Keeps.forEach

theorem State.sensorTimeout_keeps {z : State} {s : State} {n : ℕ} (h : Keeps z s)  :
    Keeps z (State.sensorTimeout s n) := by
  unfold State.sensorTimeout
  repeat' with_reducible first
    | assumption | apply State.showTemps_keeps | apply State.judgeSensors_keeps | apply Keeps.ite

theorem State.graceEnd_keeps {z : State} {s : State} (h : Keeps z s)  :
    Keeps z (State.graceEnd s) := by
  unfold State.graceEnd
  repeat' with_reducible first
    | assumption | apply State.thmLevel_keeps | apply State.enforce_keeps | apply Keeps.ite

theorem State.enforceStep_keeps {z : State} {s : State} (h : Keeps z s)  :
    Keeps z (State.enforceStep s) := by
  unfold State.enforceStep
  repeat' with_reducible first
    | assumption | apply State.enforce_keeps | apply Keeps.ite

theorem State.enforceRelease_keeps {z : State} {s : State} (h : Keeps z s)  :
    Keeps z (State.enforceRelease s) := by
  unfold State.enforceRelease
  repeat' with_reducible first
    | assumption | extract_lets | exact BusKeeps.refl _ | apply State.setWdn_keeps | apply State.putStep_keeps
    | apply State.emit_keeps | apply State.thmLevel_keeps | apply Keeps.ite | refine Keeps.ofPair ?_ ‹_› | split

theorem State.cutoff_keeps {z : State} {s : State} (h : Keeps z s)  :
    Keeps z (State.cutoff s) := by
  unfold State.cutoff
  repeat' with_reducible first
    | assumption | extract_lets | exact BusKeeps.refl _ | apply State.holdDie_keeps | apply State.settle_keeps
    | apply State.emit_keeps | apply State.thmLevel_keeps | apply Keeps.ite

theorem State.autoRecovery_keeps {z : State} {s : State} (h : Keeps z s)  :
    Keeps z (State.autoRecovery s) := by
  unfold State.autoRecovery
  repeat' with_reducible first
    | assumption | intro _ | extract_lets | exact BusKeeps.refl _ | apply State.setWdn_keeps | apply State.setFld_keeps
    | apply State.thmLevel_keeps | apply State.resetTo_keeps | apply Keeps.ite | refine Keeps.ofPair ?_ ‹_› | split

theorem State.refclkLoss_keeps {z : State} {s : State} (h : Keeps z s)  :
    Keeps z (State.refclkLoss s) := by
  unfold State.refclkLoss
  repeat' with_reducible first
    | assumption | apply State.failSafe_keeps | apply State.unsound_keeps | apply Keeps.ite

theorem State.wclkLoss_keeps {z : State} {s : State} (h : Keeps z s)  :
    Keeps z (State.wclkLoss s) := by
  unfold State.wclkLoss
  repeat' with_reducible first
    | assumption | apply State.failSafe_keeps

theorem State.supplyOut_keeps {z : State} {s : State} {rail : ℕ} (h : Keeps z s)  :
    Keeps z (State.supplyOut s rail) := by
  unfold State.supplyOut
  repeat' with_reducible first
    | assumption | extract_lets | apply State.islandSafeBy_keeps | apply State.islandLost_keeps | apply State.failSafe_keeps
    | apply State.holdDie_keeps | apply State.settle_keeps | apply Keeps.ite

theorem State.wardenRailLoss_keeps {z : State} {s : State} (h : Keeps z s)  :
    Keeps z (State.wardenRailLoss s) := by
  unfold State.wardenRailLoss
  repeat' with_reducible first
    | assumption | extract_lets | exact BusKeeps.refl _ | apply State.send_keeps | apply State.faultPin_keeps
    | dsimp +zetaDelta only | (fail_if_no_progress apply Keeps.mk')

theorem State.avsFault_keeps {z : State} {s : State} (h : Keeps z s)  :
    Keeps z (State.avsFault s) := by
  unfold State.avsFault
  repeat' with_reducible first
    | assumption | apply State.failSafe_keeps

theorem State.vddRaise_keeps {z : State} {s : State} {monitor : ℕ} (h : Keeps z s)  :
    Keeps z (State.vddRaise s monitor) := by
  unfold State.vddRaise
  repeat' with_reducible first
    | assumption | extract_lets | apply State.emit_keeps | apply State.setFld_keeps | apply State.vddRequest_keeps
    | apply Keeps.ite

theorem State.vddLower_keeps {z : State} {s : State} (h : Keeps z s)  :
    Keeps z (State.vddLower s) := by
  unfold State.vddLower
  repeat' with_reducible first
    | assumption | extract_lets | apply State.vddRequest_keeps | apply Keeps.ite

theorem State.writeLife_keeps {z : State} {s : State} (h : Keeps z s)  :
    Keeps z (State.writeLife s) := by
  unfold State.writeLife
  repeat' with_reducible first
    | assumption | extract_lets | exact BusKeeps.refl _ | apply State.showLife_keeps | apply State.storeRefused_keeps
    | apply Keeps.ite | apply Keeps.iteFst | split | dsimp only | dsimp +zetaDelta only
    | (fail_if_no_progress apply Keeps.mk')

theorem State.lifeHour_keeps {z : State} {s : State} (h : Keeps z s)  :
    Keeps z (State.lifeHour s) := by
  unfold State.lifeHour
  repeat' with_reducible first
    | assumption | extract_lets | exact BusKeeps.refl _ | apply State.writeLife_keeps | apply State.setWdn_keeps
    | apply Keeps.ite

theorem State.wearDay_keeps {z : State} {s : State} (h : Keeps z s)  :
    Keeps z (State.wearDay s) := by
  unfold State.wearDay
  repeat' with_reducible first
    | assumption | intro _ | extract_lets | exact BusKeeps.refl _ | apply State.setWdn_keeps | apply State.writeLife_keeps
    | apply State.emit_keeps | apply Keeps.ite

theorem State.smb_keeps {z : State} {s : State} {ack : Bool} {d : List Byte} (h : Keeps z s)  :
    Keeps z (State.smb s ack d) := by
  unfold State.smb
  repeat' with_reducible first
    | assumption | exact BusKeeps.refl _ | apply State.send_keeps

theorem State.smbPointer_keeps {z : State} {s : State} {off : ℕ} {pec : Bool} (h : Keeps z s)  :
    Keeps z (State.smbPointer s off pec) := by
  unfold State.smbPointer
  repeat' with_reducible first
    | assumption | exact BusKeeps.refl _ | apply State.smb_keeps | apply State.setWdn_keeps | apply Keeps.ite

theorem State.smbRead_keeps {z : State} {s : State} (h : Keeps z s)  :
    Keeps z (State.smbRead s) := by
  unfold State.smbRead
  repeat' with_reducible first
    | assumption | extract_lets | exact BusKeeps.refl _ | apply State.smb_keeps | apply State.setWdn_keeps

theorem State.smbWrite_keeps {z : State} {s : State} {v : Word} {pec : Bool} (h : Keeps z s)  :
    Keeps z (State.smbWrite s v pec) := by
  unfold State.smbWrite
  repeat' with_reducible first
    | assumption | apply State.smb_keeps | apply State.writtenReset_keeps | apply Keeps.ite

theorem State.smbReset_keeps {z : State} {s : State} {data : ℕ} {pec : Bool} (h : Keeps z s)  :
    Keeps z (State.smbReset s data pec) := by
  unfold State.smbReset
  repeat' with_reducible first
    | assumption | apply State.writtenReset_keeps | apply State.smb_keeps | apply Keeps.ite

theorem State.smbAlert_keeps {z : State} {s : State} (h : Keeps z s)  :
    Keeps z (State.smbAlert s) := by
  unfold State.smbAlert
  repeat' with_reducible first
    | assumption | extract_lets | exact BusKeeps.refl _ | apply State.smb_keeps | apply State.setWdn_keeps | apply Keeps.ite

theorem State.rebind_keeps {z : State} {s : State} {n : ℕ} (h : Keeps z s)  :
    Keeps z (State.rebind s n) := by
  unfold State.rebind
  repeat' with_reducible first
    | assumption | extract_lets | exact BusKeeps.refl _ | apply State.leave_keeps | apply State.emit_keeps
    | apply State.setFld_keeps | apply State.codingRec_keeps | refine Keeps.ofPair ?_ ‹_› | split

theorem State.coreTimeout_keeps {z : State} {s : State} {c : ℕ} (h : Keeps z s)  :
    Keeps z (State.coreTimeout s c) := by
  unfold State.coreTimeout
  repeat' with_reducible first
    | assumption | intro _ | extract_lets | exact BusKeeps.refl _ | apply State.codingRec_keeps | apply State.setCore_keeps
    | apply State.setBufState_keeps | apply State.fault_keeps | apply State.rebind_keeps | apply State.onBus_keeps
    | apply Bus.setPhase_keeps | apply State.complete_keeps | apply Keeps.ite | apply Keeps.forEach
    | refine Keeps.ofPair ?_ ‹_› | split | apply BusKeeps.ite | apply BusKeeps.forEach | dsimp only | dsimp +zetaDelta only
    | (fail_if_no_progress apply Keeps.mk')

theorem State.journalCut_keeps {z : State} {s : State} (h : Keeps z s)  :
    Keeps z (State.journalCut s) := by
  unfold State.journalCut
  repeat' with_reducible first
    | assumption | intro _ | extract_lets | exact BusKeeps.refl _ | apply State.setJrn_keeps | apply State.onBus_keeps
    | apply Keeps.ite | refine Keeps.ofPair ?_ ‹_› | split | apply BusKeeps.ite | dsimp only | dsimp +zetaDelta only
    | (fail_if_no_progress apply BusKeeps.mk')

theorem State.rxOverflow_keeps {z : State} {s : State} {p : ℕ} (h : Keeps z s)  :
    Keeps z (State.rxOverflow s p) := by
  unfold State.rxOverflow
  repeat' with_reducible first
    | assumption | intro _ | extract_lets | exact BusKeeps.refl _ | apply State.setSrc_keeps | apply State.linkCull_keeps
    | apply State.panDoubt_keeps | apply State.ack_keeps | apply Keeps.ite | apply Keeps.forEach | refine Keeps.ofPair ?_ ‹_›
    | split | dsimp only | dsimp +zetaDelta only

theorem State.handshake_keeps {z : State} {s : State} {g : Stage} (h : Keeps z s)  :
    Keeps z (State.handshake s g) := by
  unfold State.handshake
  repeat' with_reducible first
    | assumption | intro _ | extract_lets | exact BusKeeps.refl _ | apply State.columnDone_keeps | apply State.setSrc_keeps
    | apply State.wbDrop_keeps | apply State.coreTimeout_keeps | apply State.encAbandon_keeps | apply State.panDoubt_keeps
    | apply State.sendItem_keeps | apply State.rxOverflow_keeps | apply State.stop_keeps | apply State.journalCut_keeps
    | apply State.failSafe_keeps | apply State.unsound_keeps | apply Keeps.ite | apply Keeps.forEach
    | refine Keeps.ofPair ?_ ‹_› | split

theorem execSensorReading_keeps {z : State} {ts : List (Option ℤ)} {s : State} (h : Keeps z s)  :
    AnswerKeeps z (execSensorReading ts s) := by
  unfold execSensorReading
  repeat' with_reducible first
    | assumption | intro _ | apply State.warden_keeps | apply State.sensorReading_keeps

theorem execSensorTimeout_keeps {z : State} {n : ℕ} {s : State} (h : Keeps z s)  :
    AnswerKeeps z (execSensorTimeout n s) := by
  unfold execSensorTimeout
  repeat' with_reducible first
    | assumption | intro _ | apply State.warden_keeps | apply State.sensorTimeout_keeps

theorem execStartHoldRelease_keeps {z : State} {s : State} (h : Keeps z s)  :
    AnswerKeeps z (execStartHoldRelease s) := by
  unfold execStartHoldRelease
  repeat' with_reducible first
    | assumption | apply State.warden_keeps | apply State.holdRelease_keeps

theorem execGraceEnd_keeps {z : State} {s : State} (h : Keeps z s)  :
    AnswerKeeps z (execGraceEnd s) := by
  unfold execGraceEnd
  repeat' with_reducible first
    | assumption | apply State.warden_keeps | apply State.graceEnd_keeps

theorem execEnforceStep_keeps {z : State} {s : State} (h : Keeps z s)  :
    AnswerKeeps z (execEnforceStep s) := by
  unfold execEnforceStep
  repeat' with_reducible first
    | assumption | apply State.warden_keeps | apply State.enforceStep_keeps

theorem execEnforceRelease_keeps {z : State} {s : State} (h : Keeps z s)  :
    AnswerKeeps z (execEnforceRelease s) := by
  unfold execEnforceRelease
  repeat' with_reducible first
    | assumption | apply State.warden_keeps | apply State.enforceRelease_keeps

theorem execCutoff_keeps {z : State} {s : State} (h : Keeps z s)  :
    AnswerKeeps z (execCutoff s) := by
  unfold execCutoff
  repeat' with_reducible first
    | assumption | apply State.warden_keeps | apply State.cutoff_keeps

theorem execAutoRecovery_keeps {z : State} {s : State} (h : Keeps z s)  :
    AnswerKeeps z (execAutoRecovery s) := by
  unfold execAutoRecovery
  repeat' with_reducible first
    | assumption | apply State.warden_keeps | apply State.autoRecovery_keeps

theorem execRefclkLoss_keeps {z : State} {s : State} (h : Keeps z s)  :
    AnswerKeeps z (execRefclkLoss s) := by
  unfold execRefclkLoss
  repeat' with_reducible first
    | assumption | apply State.warden_keeps | apply State.refclkLoss_keeps

theorem execWclkLoss_keeps {z : State} {s : State} (h : Keeps z s)  :
    AnswerKeeps z (execWclkLoss s) := by
  unfold execWclkLoss
  repeat' with_reducible first
    | assumption | apply State.warden_keeps | apply State.wclkLoss_keeps

theorem execSupplyOutOfWindow_keeps {z : State} {rail : ℕ} {s : State} (h : Keeps z s)  :
    AnswerKeeps z (execSupplyOutOfWindow rail s) := by
  unfold execSupplyOutOfWindow
  repeat' with_reducible first
    | assumption | intro _ | apply State.warden_keeps | apply State.supplyOut_keeps

theorem execWardenRailLoss_keeps {z : State} {s : State} (h : Keeps z s)  :
    AnswerKeeps z (execWardenRailLoss s) := by
  unfold execWardenRailLoss
  repeat' with_reducible first
    | assumption | apply State.wardenRailLoss_keeps | apply AnswerKeeps.next

theorem execAvsReadbackFault_keeps {z : State} {s : State} (h : Keeps z s)  :
    AnswerKeeps z (execAvsReadbackFault s) := by
  unfold execAvsReadbackFault
  repeat' with_reducible first
    | assumption | apply State.warden_keeps | apply State.avsFault_keeps

theorem execVddFabRequestRaise_keeps {z : State} {monitor : ℕ} {s : State} (h : Keeps z s)  :
    AnswerKeeps z (execVddFabRequestRaise monitor s) := by
  unfold execVddFabRequestRaise
  repeat' with_reducible first
    | assumption | intro _ | apply State.warden_keeps | apply State.vddRaise_keeps

theorem execVddFabRequestLower_keeps {z : State} {s : State} (h : Keeps z s)  :
    AnswerKeeps z (execVddFabRequestLower s) := by
  unfold execVddFabRequestLower
  repeat' with_reducible first
    | assumption | apply State.warden_keeps | apply State.vddLower_keeps

theorem execLifeHour_keeps {z : State} {s : State} (h : Keeps z s)  :
    AnswerKeeps z (execLifeHour s) := by
  unfold execLifeHour
  repeat' with_reducible first
    | assumption | apply State.warden_keeps | apply State.lifeHour_keeps

theorem execWearDay_keeps {z : State} {s : State} (h : Keeps z s)  :
    AnswerKeeps z (execWearDay s) := by
  unfold execWearDay
  repeat' with_reducible first
    | assumption | apply State.warden_keeps | apply State.wearDay_keeps

theorem execSmbusSetPointer_keeps {z : State} {off : ℕ} {pec : Bool} {s : State} (h : Keeps z s)  :
    AnswerKeeps z (execSmbusSetPointer off pec s) := by
  unfold execSmbusSetPointer
  repeat' with_reducible first
    | assumption | intro _ | apply State.warden_keeps | apply State.smbPointer_keeps

theorem execSmbusRead_keeps {z : State} {s : State} (h : Keeps z s)  :
    AnswerKeeps z (execSmbusRead s) := by
  unfold execSmbusRead
  repeat' with_reducible first
    | assumption | apply State.warden_keeps | apply State.smbRead_keeps

theorem execSmbusWrite_keeps {z : State} {v : Word} {pec : Bool} {s : State} (h : Keeps z s)  :
    AnswerKeeps z (execSmbusWrite v pec s) := by
  unfold execSmbusWrite
  repeat' with_reducible first
    | assumption | intro _ | apply State.warden_keeps | apply State.smbWrite_keeps

theorem execSmbusReset_keeps {z : State} {data : ℕ} {pec : Bool} {s : State} (h : Keeps z s)  :
    AnswerKeeps z (execSmbusReset data pec s) := by
  unfold execSmbusReset
  repeat' with_reducible first
    | assumption | intro _ | apply State.warden_keeps | apply State.smbReset_keeps

theorem execSmbusAlertResponse_keeps {z : State} {s : State} (h : Keeps z s)  :
    AnswerKeeps z (execSmbusAlertResponse s) := by
  unfold execSmbusAlertResponse
  repeat' with_reducible first
    | assumption | apply State.warden_keeps | apply State.smbAlert_keeps

theorem execHandshakeCompletionTimeout_keeps {z : State} {g : Stage} {s : State} (h : Keeps z s)  :
    AnswerKeeps z (execHandshakeCompletionTimeout g s) := by
  unfold execHandshakeCompletionTimeout
  repeat' with_reducible first
    | assumption | intro _ | apply State.fabric_keeps | apply State.handshake_keeps

end Sys2Proof.Machine
end

