-- ==== Sys2Proof/Laws/KeepsStructure.lean ====
section
/-! SUPPORT. What the operations and commands of Machine/Structure.lean keep: one law each. -/

namespace Sys2Proof.Machine

theorem State.structTake_keeps {z : State} {s : State} {port : ℕ} {op : ℕ} (h : Keeps z s)  :
    Keeps z (State.structTake s port op) := by
  unfold State.structTake
  repeat' with_reducible first
    | assumption | extract_lets | apply State.setReg_keeps

theorem State.staged_keeps {z : State} {s : State} (h : Keeps z s)  :
    Keeps z (State.staged s).1 := by
  unfold State.staged
  repeat' with_reducible first
    | assumption | extract_lets | exact BusKeeps.refl _ | apply State.load_keeps | apply Keeps.ite | apply Keeps.iteFst
    | refine Keeps.ofPair ?_ ‹_› | split

theorem State.structFails_keeps {z : State} {s : State} {reason : ℕ} {rec : ℕ} (h : Keeps z s)  :
    Keeps z (State.structFails s reason rec) := by
  unfold State.structFails
  repeat' with_reducible first
    | assumption | apply State.structEnd_keeps | apply State.structFail_keeps

theorem State.writeSlot_keeps {z : State} {s : State} {k : ℕ} (h : Keeps z s)  :
    Keeps z (State.writeSlot s k) := by
  unfold State.writeSlot
  repeat' with_reducible first
    | assumption | intro _ | extract_lets | exact BusKeeps.refl _ | apply State.structFails_keeps
    | apply State.storeRefused_keeps | apply State.staged_keeps | apply State.putSlots_keeps | apply State.setWdn_keeps
    | apply Keeps.ite | apply Keeps.iteFst | refine Keeps.ofPair ?_ ‹_› | split | dsimp only | dsimp +zetaDelta only
    | (fail_if_no_progress apply Keeps.mk')

theorem State.slotWritten_keeps {z : State} {s : State} {same : Bool} (h : Keeps z s)  :
    Keeps z (State.slotWritten s same) := by
  unfold State.slotWritten
  repeat' with_reducible first
    | assumption | intro _ | extract_lets | exact BusKeeps.refl _ | apply State.structFails_keeps
    | apply State.putSlots_keeps | apply State.emit_keeps | apply State.structEnd_keeps | apply Keeps.ite
    | refine Keeps.ofPair ?_ ‹_› | split | dsimp only | dsimp +zetaDelta only | (fail_if_no_progress apply Keeps.mk')

theorem State.setPreferred_keeps {z : State} {s : State} {k : ℕ} (h : Keeps z s)  :
    Keeps z (State.setPreferred s k) := by
  unfold State.setPreferred
  repeat' with_reducible first
    | assumption | intro _ | exact BusKeeps.refl _ | apply State.structEnd_keeps | apply State.putSlots_keeps
    | apply Keeps.ite

theorem State.confirmSlot_keeps {z : State} {s : State} (h : Keeps z s)  :
    Keeps z (State.confirmSlot s) := by
  unfold State.confirmSlot
  repeat' with_reducible first
    | assumption | extract_lets | exact BusKeeps.refl _ | apply State.structEnd_keeps | apply State.setSlotState_keeps
    | apply State.setWdn_keeps | apply Keeps.ite

theorem State.confirmTimeout_keeps {z : State} {s : State} (h : Keeps z s)  :
    Keeps z (State.confirmTimeout s) := by
  unfold State.confirmTimeout
  repeat' with_reducible first
    | assumption | extract_lets | exact BusKeeps.refl _ | apply State.setWdn_keeps | apply State.emit_keeps
    | apply State.setSlotState_keeps | apply Keeps.ite | refine Keeps.ofPair ?_ ‹_› | split

theorem State.raiseFloor_keeps {z s : State} (h : Keeps z s) : Keeps z s.raiseFloor := by
  unfold State.raiseFloor
  refine Keeps.ite (State.structEnd_keeps h) (State.structEnd_keeps (State.identity_keeps (h.trans ?_)))
  exact ⟨.refl _, ⟨fun _ x => x, Nat.le_max_left _ _, id⟩, rfl⟩

theorem State.structRead_keeps {z : State} {s : State} {op : ℕ} {arg : ℕ} (h : Keeps z s)  :
    Keeps z (State.structRead s op arg) := by
  unfold State.structRead
  repeat' with_reducible first
    | assumption | extract_lets | exact BusKeeps.refl _ | apply State.load_keeps | apply State.staged_keeps
    | apply State.structFails_keeps | apply State.setWdn_keeps | apply Keeps.ite | apply Keeps.iteFst
    | refine Keeps.ofPair ?_ ‹_› | split

theorem State.structCmd_keeps {z : State} {s : State} {port : ℕ} {op : ℕ} {arg : ℕ} (h : Keeps z s)  :
    Keeps z (State.structCmd s port op arg) := by
  unfold State.structCmd
  repeat' with_reducible first
    | assumption | extract_lets | exact BusKeeps.refl _ | apply State.setFld_keeps | apply State.structTake_keeps
    | apply State.structEnd_keeps | apply State.writeSlot_keeps | apply State.setPreferred_keeps
    | apply State.confirmSlot_keeps | apply State.structFails_keeps | apply State.structRead_keeps
    | apply State.raiseFloor_keeps | apply Keeps.ite | refine Keeps.ofPair ?_ ‹_› | split

theorem State.structCmdWrite_keeps {z : State} {s : State} {port : ℕ} {v : Word} (h : Keeps z s)  :
    Keeps z (State.structCmdWrite s port v) := by
  unfold State.structCmdWrite
  repeat' with_reducible first
    | assumption | intro _ | apply State.hostWrite_keeps | apply State.structCmd_keeps

theorem State.zoneStop_keeps {z : State} {s : State} {cap : ℕ} {z_ : ℕ} (h : Keeps z s)  :
    Keeps z (State.zoneStop s cap z_) := by
  unfold State.zoneStop
  repeat' with_reducible first
    | assumption | intro _ | exact BusKeeps.refl _ | apply State.onBus_keeps | apply State.leave_keeps
    | apply Bus.setFld_keeps | apply Keeps.ite | apply Keeps.forEach

theorem State.zoneProgress_keeps {z : State} {s : State} (h : Keeps z s)  :
    Keeps z (State.zoneProgress s) := by
  unfold State.zoneProgress
  repeat' with_reducible first
    | assumption | intro _ | extract_lets | exact BusKeeps.refl _ | apply State.zoneRec_keeps | apply State.zoneStop_keeps
    | apply State.setWdn_keeps | apply Keeps.ite | refine Keeps.ofPair ?_ ‹_› | split

theorem State.zoneLatch_keeps {z : State} {s : State} {h_1 : ℕ} (h : Keeps z s)  :
    Keeps z (State.zoneLatch s h_1) := by
  unfold State.zoneLatch
  repeat' with_reducible first
    | assumption | extract_lets | exact BusKeeps.refl _ | apply State.leave_keeps | apply State.zoneProgress_keeps
    | apply State.setWdn_keeps | apply Keeps.ite | refine Keeps.ofPair ?_ ‹_› | split

theorem State.zoneBegin_keeps {z : State} {s : State} {z_ : ℕ} {l : Loaded} (h : Keeps z s)  :
    Keeps z (State.zoneBegin s z_ l) := by
  unfold State.zoneBegin
  repeat' with_reducible first
    | assumption | intro _ | extract_lets | exact BusKeeps.refl _ | apply State.setFld_keeps | apply State.setZoneState_keeps
    | apply State.setWdn_keeps | apply State.creditStop_keeps | apply State.onBus_keeps | apply State.leave_keeps
    | apply Bus.setFld_keeps | apply State.zoneStop_keeps | apply State.zoneProgress_keeps | apply Keeps.forEach

theorem State.zoneDrainEnd_keeps {z : State} {s : State} (h : Keeps z s)  :
    Keeps z (State.zoneDrainEnd s) := by
  unfold State.zoneDrainEnd
  repeat' with_reducible first
    | assumption | exact BusKeeps.refl _ | apply State.setWdn_keeps | apply State.zoneRec_keeps | apply Keeps.ite
    | refine Keeps.ofPair ?_ ‹_› | split

theorem State.putChanges_keeps {z : State} {s : State} {old : Plan} {cap : ℕ} {i : ℕ} (h : Keeps z s)  :
    Keeps z (State.putChanges s old cap i) := by
  unfold State.putChanges
  repeat' with_reducible first
    | assumption | intro _ | extract_lets | apply State.putVal_keeps | apply Keeps.forEach

theorem State.zoneParts_keeps {z : State} {s : State} {z_ : ℕ} {old : Plan} (h : Keeps z s)  :
    Keeps z (State.zoneParts s z_ old) := by
  unfold State.zoneParts
  repeat' with_reducible first
    | assumption | intro _ | extract_lets | exact BusKeeps.refl _ | apply State.putVal_keeps | apply State.onBus_keeps
    | apply Keeps.ite | apply Keeps.iteFst | apply Keeps.forEach | apply Keeps.forEachFst | split | apply BusKeeps.ite
    | apply BusKeeps.forEach | apply BusKeeps.put | apply BusKeeps.drop

theorem State.zoneGroups_keeps {z : State} {s : State} {z_ : ℕ} {old : Plan} (h : Keeps z s)  :
    Keeps z (State.zoneGroups s z_ old) := by
  unfold State.zoneGroups
  repeat' with_reducible first
    | assumption | intro _ | extract_lets | apply State.setGroup_keeps | apply State.putChanges_keeps
    | apply State.setNext_keeps | apply Keeps.ite | apply Keeps.forEach

theorem State.zonePorts_keeps {z : State} {s : State} {z_ : ℕ} {old : Plan} (h : Keeps z s)  :
    Keeps z (State.zonePorts s z_ old) := by
  unfold State.zonePorts
  repeat' with_reducible first
    | assumption | intro _ | extract_lets | apply State.putChanges_keeps | apply State.startInst_keeps
    | apply State.resetInst_keeps | apply State.portOff_keeps | apply State.abortAll_keeps | apply State.startTraining_keeps
    | apply Keeps.ite | apply Keeps.forEach

theorem State.zoneInst_keeps {z : State} {s : State} {old : Plan} {cap : ℕ} {i : ℕ} (h : Keeps z s)  :
    Keeps z (State.zoneInst s old cap i) := by
  unfold State.zoneInst
  repeat' with_reducible first
    | assumption | extract_lets | exact BusKeeps.refl _ | apply State.putChanges_keeps | apply State.setHead_keeps
    | apply State.startInst_keeps | apply State.resetInst_keeps | apply Keeps.ite

theorem State.zoneStart_keeps {z : State} {s : State} {cap : ℕ} {z_ : ℕ} (h : Keeps z s)  :
    Keeps z (State.zoneStart s cap z_) := by
  unfold State.zoneStart
  repeat' with_reducible first
    | assumption | intro _ | extract_lets | exact BusKeeps.refl _ | apply State.toStarting_keeps | apply State.onBus_keeps
    | apply Bus.setFld_keeps | apply State.functionStarted_keeps | apply Keeps.ite | apply Keeps.forEach

theorem State.zoneDone_keeps {z : State} {s : State} (h : Keeps z s)  :
    Keeps z (State.zoneDone s) := by
  unfold State.zoneDone
  repeat' with_reducible first
    | assumption | intro _ | extract_lets | exact BusKeeps.refl _ | apply State.zoneRec_keeps | apply State.setReg_keeps
    | apply State.setFld_keeps | apply State.setZoneState_keeps | apply State.structEnd_keeps | apply State.setWdn_keeps
    | apply State.setJrn_keeps | apply State.emit_keeps | apply Keeps.ite | apply Keeps.forEach | refine Keeps.ofPair ?_ ‹_›
    | split | dsimp only | dsimp +zetaDelta only | (fail_if_no_progress apply Keeps.mk')

theorem State.zoneRouted_keeps {z : State} {s : State} {fail : ℕ} (h : Keeps z s)  :
    Keeps z (State.zoneRouted s fail) := by
  unfold State.zoneRouted
  repeat' with_reducible first
    | assumption | intro _ | extract_lets | exact BusKeeps.refl _ | apply State.zoneHalt_keeps | apply State.zoneRec_keeps
    | apply State.zonePorts_keeps | apply State.zoneGroups_keeps | apply State.zoneParts_keeps | apply State.zoneInst_keeps
    | apply State.setFld_keeps | apply State.zoneStart_keeps | apply State.creditResume_keeps | apply State.zoneDone_keeps
    | apply State.setWdn_keeps | apply Keeps.ite | apply Keeps.iteFst | apply Keeps.forEach | apply Keeps.forEachFst
    | refine Keeps.ofPair ?_ ‹_› | split | dsimp only | dsimp +zetaDelta only | (fail_if_no_progress apply Keeps.mk')

theorem State.imageGone_keeps {z : State} {s : State} {l : Loaded} {at_ : ℕ} (h : Keeps z s)  :
    Keeps z (State.imageGone s l at_) := by
  unfold State.imageGone
  repeat' with_reducible first
    | assumption | exact BusKeeps.refl _ | apply State.emit_keeps | apply State.structFail_keeps | refine Keeps.ofPair ?_ ‹_›
    | split

/-- Setting a revoke bit keeps OTP. -/
theorem keeps_revoke {s : State} (i : Nat) : Keeps s { s with otp := { s.otp with revoked := s.otp.revoked.set i true } } := by
  refine ⟨.refl _, ⟨fun j hj => ?_, Nat.le_refl _, id⟩, rfl⟩
  rw [List.getD_eq_getElem?_getD, List.getElem?_set]
  rw [List.getD_eq_getElem?_getD] at hj
  by_cases hij : i = j
  · subst hij
    by_cases hl : i < s.otp.revoked.length
    · simp [hl]
    · simp [List.getElem?_eq_none (Nat.le_of_not_lt hl)] at hj
  · simpa [hij] using hj

theorem State.structChecked_keeps {z s : State} (h : Keeps z s) : Keeps z s.structChecked := by
  unfold State.structChecked
  split
  · exact h
  · split
    · refine Keeps.ite (State.structFails_keeps h) ?_
      split
      · exact State.structFails_keeps h
      · dsimp only
        split
        · exact State.structFails_keeps (State.imageGone_keeps h)
        · exact State.zoneBegin_keeps (State.setWdn_keeps (State.imageGone_keeps h))
    · split
      · exact State.structFails_keeps h
      · exact State.structEnd_keeps (State.imageGone_keeps h)
    · split
      · exact State.structFails_keeps h
      · exact State.emit_keeps (State.structEnd_keeps (State.identity_keeps (h.trans (keeps_revoke _))))
    · exact State.structEnd_keeps (State.identity_keeps (h.trans ⟨.refl _, ⟨fun _ x => x, Nat.le_refl _, id⟩, rfl⟩))
    · exact h

theorem execWriteSlot_keeps {z : State} {port : ℕ} {slot : ℕ} {s : State} (h : Keeps z s)  :
    AnswerKeeps z (execWriteSlot port slot s) := by
  unfold execWriteSlot
  repeat' with_reducible first
    | assumption | intro _ | apply State.window_keeps | apply State.structCmdWrite_keeps

theorem execSlotWritten_keeps {z : State} {same : Bool} {s : State} (h : Keeps z s)  :
    AnswerKeeps z (execSlotWritten same s) := by
  unfold execSlotWritten
  repeat' with_reducible first
    | assumption | intro _ | apply State.warden_keeps | apply State.slotWritten_keeps

theorem execSetPreferred_keeps {z : State} {port : ℕ} {slot : ℕ} {s : State} (h : Keeps z s)  :
    AnswerKeeps z (execSetPreferred port slot s) := by
  unfold execSetPreferred
  repeat' with_reducible first
    | assumption | intro _ | apply State.window_keeps | apply State.structCmdWrite_keeps

theorem execConfirm_keeps {z : State} {port : ℕ} {s : State} (h : Keeps z s)  :
    AnswerKeeps z (execConfirm port s) := by
  unfold execConfirm
  repeat' with_reducible first
    | assumption | intro _ | apply State.window_keeps | apply State.structCmdWrite_keeps

theorem execConfirmTimeout_keeps {z : State} {s : State} (h : Keeps z s)  :
    AnswerKeeps z (execConfirmTimeout s) := by
  unfold execConfirmTimeout
  repeat' with_reducible first
    | assumption | apply State.warden_keeps | apply State.confirmTimeout_keeps

theorem execZoneReload_keeps {z : State} {port : ℕ} {zone : ℕ} {s : State} (h : Keeps z s)  :
    AnswerKeeps z (execZoneReload port zone s) := by
  unfold execZoneReload
  repeat' with_reducible first
    | assumption | intro _ | apply State.window_keeps | apply State.structCmdWrite_keeps

theorem execZoneDrainEnd_keeps {z : State} {s : State} (h : Keeps z s)  :
    AnswerKeeps z (execZoneDrainEnd s) := by
  unfold execZoneDrainEnd
  repeat' with_reducible first
    | assumption | apply State.fabric_keeps | apply State.zoneDrainEnd_keeps

theorem execZoneRoutingLoaded_keeps {z : State} {fail : ℕ} {s : State} (h : Keeps z s)  :
    AnswerKeeps z (execZoneRoutingLoaded fail s) := by
  unfold execZoneRoutingLoaded
  repeat' with_reducible first
    | assumption | intro _ | apply State.fabric_keeps | apply State.zoneRouted_keeps

theorem execVerify_keeps {z : State} {port : ℕ} {s : State} (h : Keeps z s)  :
    AnswerKeeps z (execVerify port s) := by
  unfold execVerify
  repeat' with_reducible first
    | assumption | intro _ | apply State.window_keeps | apply State.structCmdWrite_keeps

theorem execRevokeKey_keeps {z : State} {port : ℕ} {key : ℕ} {s : State} (h : Keeps z s)  :
    AnswerKeeps z (execRevokeKey port key s) := by
  unfold execRevokeKey
  repeat' with_reducible first
    | assumption | intro _ | apply State.window_keeps | apply State.structCmdWrite_keeps

theorem execRaiseFloor_keeps {z : State} {port : ℕ} {s : State} (h : Keeps z s)  :
    AnswerKeeps z (execRaiseFloor port s) := by
  unfold execRaiseFloor
  repeat' with_reducible first
    | assumption | intro _ | apply State.window_keeps | apply State.structCmdWrite_keeps

theorem execProvisionKey_keeps {z : State} {port : ℕ} {key : ℕ} {s : State} (h : Keeps z s)  :
    AnswerKeeps z (execProvisionKey port key s) := by
  unfold execProvisionKey
  repeat' with_reducible first
    | assumption | intro _ | apply State.window_keeps | apply State.structCmdWrite_keeps

theorem execStructCmdDone_keeps {z : State} {s : State} (h : Keeps z s)  :
    AnswerKeeps z (execStructCmdDone s) := by
  unfold execStructCmdDone
  repeat' with_reducible first
    | assumption | apply State.warden_keeps | apply State.structChecked_keeps

end Sys2Proof.Machine
end

