-- ==== Sys2Proof/Laws/KeepsDebug.lean ====
section
/-! SUPPORT. What the operations and commands of Machine/Debug.lean keep: one law each. -/

namespace Sys2Proof.Machine

theorem State.debugEnds_keeps {z : State} {s : State} {st : ℕ} {reason : ℕ} (h : Keeps z s)  :
    Keeps z (State.debugEnds s st reason) := by
  unfold State.debugEnds
  repeat' with_reducible first
    | assumption | apply State.setReg_keeps

theorem State.serviceStop_keeps {z : State} {s : State} {cap : ℕ} (h : Keeps z s)  :
    Keeps z (State.serviceStop s cap) := by
  unfold State.serviceStop
  repeat' with_reducible first
    | assumption | intro _ | exact BusKeeps.refl _ | apply State.leave_keeps | apply State.onBus_keeps
    | apply Bus.startFailed_keeps | apply Keeps.ite | apply Keeps.forEach | refine Keeps.ofPair ?_ ‹_› | split

theorem State.serviceProgress_keeps {z : State} {s : State} (h : Keeps z s)  :
    Keeps z (State.serviceProgress s) := by
  unfold State.serviceProgress
  repeat' with_reducible first
    | assumption | intro _ | extract_lets | exact BusKeeps.refl _ | apply State.toFailed_keeps
    | apply State.serviceStop_keeps | apply State.setWdn_keeps | apply State.debugEnds_keeps | apply State.setReg_keeps
    | apply State.emit_keeps | apply State.identity_keeps | apply Keeps.ite | apply Keeps.forEach
    | refine Keeps.ofPair ?_ ‹_› | split

theorem State.serviceBegin_keeps {z : State} {s : State} {d : List Byte} (h : Keeps z s)  :
    Keeps z (State.serviceBegin s d) := by
  unfold State.serviceBegin
  repeat' with_reducible first
    | assumption | intro _ | extract_lets | exact BusKeeps.refl _ | apply State.journal_keeps | apply State.debugEnds_keeps
    | apply State.setWdn_keeps | apply State.creditStop_keeps | apply State.leave_keeps | apply State.pulsesLow_keeps
    | apply State.setTim_keeps | apply State.serviceProgress_keeps | apply State.deselect_keeps | apply Keeps.ite
    | apply Keeps.forEach

theorem State.enterService_keeps {z : State} {s : State} (h : Keeps z s)  :
    Keeps z (State.enterService s) := by
  unfold State.enterService
  repeat' with_reducible first
    | assumption | exact BusKeeps.refl _ | apply State.load_keeps | apply State.drawNonce_keeps | apply State.giveUp_keeps
    | apply State.emit_keeps | apply State.bump_keeps | apply State.debugEnds_keeps | apply State.serviceBegin_keeps
    | apply Keeps.ite | apply Keeps.iteFst | refine Keeps.ofPair ?_ ‹_› | split

theorem State.serviceLatch_keeps {z : State} {s : State} {h_1 : ℕ} (h : Keeps z s)  :
    Keeps z (State.serviceLatch s h_1) := by
  unfold State.serviceLatch
  repeat' with_reducible first
    | assumption | extract_lets | exact BusKeeps.refl _ | apply State.leave_keeps | apply State.serviceProgress_keeps
    | apply State.setWdn_keeps | apply Keeps.ite | refine Keeps.ofPair ?_ ‹_› | split

theorem State.setField_keeps {z s : State} (h : Keeps z s) : Keeps z s.setField := by
  unfold State.setField
  refine Keeps.ite (State.debugEnds_keeps h) (Keeps.ite (State.debugEnds_keeps h) ?_)
  refine State.emit_keeps (State.identity_keeps (State.debugEnds_keeps (State.setReg_keeps (h.trans ?_))))
  exact ⟨.refl _, ⟨fun _ x => x, Nat.le_refl _, fun _ => rfl⟩, rfl⟩

theorem State.debugCmd_keeps {z : State} {s : State} {port : ℕ} {v : Word} (h : Keeps z s)  :
    Keeps z (State.debugCmd s port v) := by
  unfold State.debugCmd
  repeat' with_reducible first
    | assumption | intro _ | exact BusKeeps.refl _ | apply State.hostWrite_keeps | apply State.enterService_keeps
    | apply State.setField_keeps | apply State.notOwner_keeps | apply Keeps.ite | refine Keeps.ofPair ?_ ‹_› | split

theorem State.debugAccess_keeps {z : State} {s : State} {write : Bool} {a : ℕ} {n : ℕ} {data : List Byte} (h : Keeps z s)  :
    Keeps z (State.debugAccess s write a n data) := by
  unfold State.debugAccess
  repeat' with_reducible first
    | assumption | extract_lets | exact BusKeeps.refl _ | apply Bus.debugWrite_keeps | apply State.send_keeps
    | apply State.debugCount_keeps | apply Bus.debugRead_keeps | apply Keeps.ite | apply Keeps.iteFst
    | refine Keeps.ofPair ?_ ‹_› | split | dsimp only | dsimp +zetaDelta only | (fail_if_no_progress apply Keeps.mk')

theorem execShutdownComplete_keeps {z : State} {cap : ℕ} {i : ℕ} {s : State} (h : Keeps z s)  :
    AnswerKeeps z (execShutdownComplete cap i s) := by
  unfold execShutdownComplete
  repeat' with_reducible first
    | assumption | intro _ | apply State.fabric_keeps | apply State.serviceProgress_keeps | apply State.zoneDone_keeps
    | apply State.zoneProgress_keeps | apply State.shutdownComplete_keeps

theorem execFailedHeartbeatEnd_keeps {z : State} {s : State} (h : Keeps z s)  :
    AnswerKeeps z (execFailedHeartbeatEnd s) := by
  unfold execFailedHeartbeatEnd
  repeat' with_reducible first
    | assumption | intro _ | apply State.warden_keeps | apply State.serviceProgress_keeps
    | apply State.failedHeartbeatEnd_keeps

theorem execWitnessFrameCheck_keeps {z : State} {p : ℕ} {rows : List ℕ} {o : WitObs} {s : State} (h : Keeps z s)  :
    AnswerKeeps z (execWitnessFrameCheck p rows o s) := by
  unfold execWitnessFrameCheck
  repeat' with_reducible first
    | assumption | intro _ | apply State.fabric_keeps | apply State.zoneDone_keeps | apply State.witFrame_keeps

theorem execEnterService_keeps {z : State} {port : ℕ} {s : State} (h : Keeps z s)  :
    AnswerKeeps z (execEnterService port s) := by
  unfold execEnterService
  repeat' with_reducible first
    | assumption | intro _ | apply State.fabric_keeps | apply State.debugCmd_keeps

theorem execSetField_keeps {z : State} {port : ℕ} {s : State} (h : Keeps z s)  :
    AnswerKeeps z (execSetField port s) := by
  unfold execSetField
  repeat' with_reducible first
    | assumption | intro _ | apply State.fabric_keeps | apply State.debugCmd_keeps

theorem execDebugMasterAccess_keeps {z : State} {write : Bool} {a : ℕ} {n : ℕ} {data : List Byte} {s : State} (h : Keeps z s)  :
    AnswerKeeps z (execDebugMasterAccess write a n data s) := by
  unfold execDebugMasterAccess
  repeat' with_reducible first
    | assumption | intro _ | apply State.fabric_keeps | apply State.debugAccess_keeps

theorem execDebugAccessRecord_keeps {z : State} {s : State} (h : Keeps z s)  :
    AnswerKeeps z (execDebugAccessRecord s) := by
  unfold execDebugAccessRecord
  repeat' with_reducible first
    | assumption | apply State.fabric_keeps | apply State.debugRecord_keeps

end Sys2Proof.Machine
end

