-- ==== Sys2Proof/Laws/KeepsRegWrite.lean ====
section
/-! SUPPORT. What the operations and commands of Machine/RegWrite.lean keep: one law each. -/

namespace Sys2Proof.Machine

theorem State.putAny_keeps {z : State} {s : State} {r : AnyReg} {i : ℕ} {j : ℕ} {v : Word} (h : Keeps z s)  :
    Keeps z (State.putAny s r i j v) := by
  unfold State.putAny
  repeat' with_reducible first
    | assumption | intro _ | exact BusKeeps.refl _ | apply State.onBus_keeps | apply Bus.setReg_keeps
    | apply State.setReg_keeps | refine Keeps.ofPair ?_ ‹_› | split

theorem State.ignored_keeps {z : State} {s : State} {port : ℕ} {cap : ℕ} {i : ℕ} (h : Keeps z s)  :
    Keeps z (State.ignored s port cap i) := by
  unfold State.ignored
  repeat' with_reducible first
    | assumption | exact BusKeeps.refl _ | apply State.putAny_keeps | apply State.notOwner_keeps | refine Keeps.ofPair ?_ ‹_›
    | split

theorem State.ringCtlWrite_keeps {z : State} {s : State} {port : ℕ} {r : ℕ} {v : Word} (h : Keeps z s)  :
    Keeps z (State.ringCtlWrite s port r v) := by
  unfold State.ringCtlWrite
  repeat' with_reducible first
    | assumption | intro _ | extract_lets | exact BusKeeps.refl _ | apply State.ignored_keeps | apply State.onBus_keeps
    | apply Bus.setFld_keeps | apply Bus.flushAll_keeps | apply Bus.setReg_keeps | apply Keeps.ite

theorem State.encCtlWrite_keeps {z : State} {s : State} {c : ℕ} {v : Word} (h : Keeps z s)  :
    Keeps z (State.encCtlWrite s c v) := by
  unfold State.encCtlWrite
  repeat' with_reducible first
    | assumption | extract_lets | apply State.setReg_keeps

theorem State.clkoutWrite_keeps {z : State} {s : State} {k : ℕ} {v : Word} (h : Keeps z s)  :
    Keeps z (State.clkoutWrite s k v) := by
  unfold State.clkoutWrite
  repeat' with_reducible first
    | assumption | extract_lets | apply State.setReg_keeps

theorem State.taken_keeps {z : State} {s : State} {r : AnyReg} {i : ℕ} (h : Keeps z s)  :
    Keeps z (State.taken s r i) := by
  unfold State.taken
  repeat' with_reducible first
    | assumption | intro _ | exact BusKeeps.refl _ | apply State.onBus_keeps | apply Bus.flushAll_keeps
    | apply State.evalSource_keeps | apply State.showFloor_keeps | apply Keeps.ite | refine Keeps.ofPair ?_ ‹_› | split

theorem State.takeValue_keeps {z : State} {s : State} {r : AnyReg} {i : ℕ} {j : ℕ} {v : Word} (h : Keeps z s)  :
    Keeps z (State.takeValue s r i j v) := by
  unfold State.takeValue
  repeat' with_reducible first
    | assumption | intro _ | extract_lets | exact BusKeeps.refl _ | apply State.onBus_keeps | apply State.putAny_keeps
    | apply State.taken_keeps | apply Keeps.ite | refine Keeps.ofPair ?_ ‹_› | split | apply BusKeeps.ite | dsimp only
    | dsimp +zetaDelta only | (fail_if_no_progress apply BusKeeps.mk')

theorem State.writeRw_keeps {z : State} {s : State} {port : ℕ} {row : RegRow} {i : ℕ} {j : ℕ} {v : Word} (h : Keeps z s)  :
    Keeps z (State.writeRw s port row i j v) := by
  unfold State.writeRw
  repeat' with_reducible first
    | assumption | intro _ | extract_lets | exact BusKeeps.refl _ | apply State.ringCtlWrite_keeps | apply State.onBus_keeps
    | apply Bus.regionHalf_keeps | apply State.pulseCtlWrite_keeps | apply State.clkoutWrite_keeps
    | apply State.encCtlWrite_keeps | apply State.setReg_keeps | apply Bus.setFld_keeps | apply State.ignored_keeps
    | apply State.takeValue_keeps | apply Keeps.ite | refine Keeps.ofPair ?_ ‹_› | split

theorem State.writeRow_keeps {z : State} {s : State} {port : ℕ} {i : ℕ} {row : RegRow} {j : ℕ} {v : Word} (h : Keeps z s)  :
    Keeps z (State.writeRow s port i row j v) := by
  unfold State.writeRow
  repeat' with_reducible first
    | assumption | extract_lets | exact BusKeeps.refl _ | apply State.notOwner_keeps | apply State.ignored_keeps
    | apply State.writeRw_keeps | apply State.takeValue_keeps | apply State.putAny_keeps | apply Keeps.ite
    | refine Keeps.ofPair ?_ ‹_› | split

theorem State.windowWrite_keeps {z : State} {s : State} {port : ℕ} {off : ℕ} {v : Word} (h : Keeps z s)  :
    Keeps z (State.windowWrite s port off v) := by
  unfold State.windowWrite
  repeat' with_reducible first
    | assumption | intro _ | exact BusKeeps.refl _ | apply State.onBus_keeps | apply Bus.msixWrite_keeps | apply Keeps.ite

theorem State.regWrite_keeps {z : State} {s : State} {port : ℕ} {cap : ℕ} {i : ℕ} {blk : ℕ} {off : ℕ} {v : Word} (h : Keeps z s)  :
    Keeps z (State.regWrite s port cap i blk off v) := by
  unfold State.regWrite
  repeat' with_reducible first
    | assumption | intro _ | exact BusKeeps.refl _ | apply State.windowWrite_keeps | apply State.fnCtlWrite_keeps
    | apply State.hostReach_keeps | apply State.doorbell_keeps | apply State.consWrite_keeps
    | apply State.waitLimitWrite_keeps | apply State.barrier_keeps | apply State.fenceSignalWrite_keeps
    | apply State.regionUpdate_keeps | apply State.accSync_keeps | apply State.timCtlWrite_keeps
    | apply State.refCfgWrite_keeps | apply State.hostIncrWrite_keeps | apply State.encCapWrite_keeps
    | apply State.cursorPosWrite_keeps | apply State.tileSnapshot_keeps | apply State.holdCapWrite_keeps
    | apply State.thmCmdWrite_keeps | apply State.structCmdWrite_keeps | apply State.debugCmd_keeps
    | apply State.hostWrite_keeps | apply State.writeRow_keeps | apply Keeps.ite | refine Keeps.ofPair ?_ ‹_› | split

theorem execRegisterWrite_keeps {z : State} {port : ℕ} {cap : ℕ} {inst : ℕ} {blk : ℕ} {off : ℕ} {v : Word} {s : State} (h : Keeps z s)  :
    AnswerKeeps z (execRegisterWrite port cap inst blk off v s) := by
  unfold execRegisterWrite
  repeat' with_reducible first
    | assumption | intro _ | apply State.window_keeps | apply State.regWrite_keeps

theorem State.rcRead_keeps {z : State} {s : State} {port : ℕ} {cap : ℕ} {i : ℕ} {blk : ℕ} {off : ℕ} (h : Keeps z s)  :
    Keeps z (State.rcRead s port cap i blk off) := by
  unfold State.rcRead
  repeat' with_reducible first
    | assumption | intro _ | extract_lets | exact BusKeeps.refl _ | apply State.onBus_keeps | apply Bus.answer_keeps
    | apply State.fenceValueRead_keeps | apply State.ptmRead_keeps | apply Bus.memBytesRead_keeps
    | apply State.headFrameRead_keeps | apply State.capTimeRead_keeps | apply State.capSubRead_keeps
    | apply State.timNowRead_keeps | apply State.putAny_keeps | apply Keeps.ite | refine Keeps.ofPair ?_ ‹_› | split

theorem execRcRegisterRead_keeps {z : State} {port : ℕ} {cap : ℕ} {inst : ℕ} {blk : ℕ} {off : ℕ} {s : State} (h : Keeps z s)  :
    AnswerKeeps z (execRcRegisterRead port cap inst blk off s) := by
  unfold execRcRegisterRead
  repeat' with_reducible first
    | assumption | intro _ | apply State.window_keeps | apply State.rcRead_keeps

end Sys2Proof.Machine
end

