-- ==== Sys2Proof/Laws/KeepsFollow.lean ====
section
/-! SUPPORT. What the operations and commands of Machine/Follow.lean keep: one law each. -/

namespace Sys2Proof.Machine

theorem rerunLoad_keeps {z : State} {x0 : ℕ} {x1 : ℕ} {x2 : FEntry} {x3 : State} (h : Keeps z x3)  :
    Keeps z (rerunLoad x0 x1 x2 x3).1 := by
  unfold rerunLoad
  repeat' with_reducible first
    | assumption | intro _ | extract_lets | exact BusKeeps.refl _ | apply checked_keeps | apply done_keeps
    | apply State.load_keeps | apply State.setRerun_keeps | apply State.onBus_keeps | apply Bus.setReg_keeps
    | apply Keeps.ite | refine Keeps.ofPair ?_ ‹_› | split

theorem State.rerunStops_keeps {z : State} {s : State} {cap : ℕ} (h : Keeps z s)  :
    Keeps z (State.rerunStops s cap) := by
  unfold State.rerunStops
  repeat' with_reducible first
    | assumption | intro _ | exact BusKeeps.refl _ | apply State.leave_keeps | apply Keeps.forEach
    | refine Keeps.ofPair ?_ ‹_› | split

theorem State.rerunEnds_keeps {z : State} {s : State} (h : Keeps z s)  :
    Keeps z (State.rerunEnds s) := by
  unfold State.rerunEnds
  repeat' with_reducible first
    | assumption | intro _ | extract_lets | exact BusKeeps.refl _ | apply State.rerunStops_keeps | apply State.emit_keeps
    | apply State.onBus_keeps | apply Bus.setReg_keeps | apply Keeps.forEach | apply BusKeeps.forEach | dsimp +zetaDelta only
    | (fail_if_no_progress apply Keeps.mk')

theorem rerunStop_keeps {z : State} {x0 : ℕ} {x1 : ℕ} {x2 : FEntry} {x3 : State} (h : Keeps z x3)  :
    Keeps z (rerunStop x0 x1 x2 x3).1 := by
  unfold rerunStop
  repeat' with_reducible first
    | assumption | intro _ | apply checked_keeps | apply done_keeps | apply State.rerunEnds_keeps | apply Keeps.ite | split

theorem performOf_keeps {z : State} {op : ℕ} {x1 : ℕ} {x2 : ℕ} {x3 : FEntry} {x4 : State} (h : Keeps z x4)  :
    Keeps z (performOf op x1 x2 x3 x4).1 := by
  unfold performOf
  repeat' with_reducible first
    | assumption | intro _ | exact BusKeeps.refl _ | apply nop_keeps | apply compress_keeps | apply decompress_keeps
    | apply checkAppend_keeps | apply checkVerify_keeps | apply submit_keeps | apply layerSet_keeps | apply layerFence_keeps
    | apply loadCoeff_keeps | apply readCoeff_keeps | apply cursorLoad_keeps | apply commit_keeps | apply limitSet_keeps
    | apply policySet_keeps | apply rearm_keeps | apply modeCommit_keeps | apply lutLoad_keeps | apply lutRead_keeps
    | apply select_keeps | apply requestIdr_keeps | apply retrain_keeps | apply power_keeps | apply laneTest_keeps
    | apply inject_keeps | apply keysLoad_keeps | apply rebaseline_keeps | apply selfTest_keeps | apply rawRead_keeps
    | apply stepCmd_keeps | apply align_keeps | apply groupRate_keeps | apply freeze_keeps | apply release_keeps
    | apply dump_keeps | apply mark_keeps | apply rerunLoad_keeps | apply rerunStop_keeps | apply handover_keeps
    | apply resync_keeps | apply done_keeps | refine Keeps.ofPair ?_ ‹_› | split

theorem State.waitEnd_keeps {z : State} {s : State} {r : ℕ} {k : ℕ} (h : Keeps z s)  :
    Keeps z (State.waitEnd s r k) := by
  unfold State.waitEnd
  repeat' with_reducible first
    | assumption | intro _ | exact BusKeeps.refl _ | apply State.onBus_keeps | apply Bus.setPhase_keeps
    | apply State.withPorts_keeps | apply State.perform_keeps | apply performOf_keeps | apply Bus.stalled_keeps
    | apply Keeps.ite | refine Keeps.ofPair ?_ ‹_› | split

theorem State.followMiss_keeps {z : State} {s : State} {h_1 : ℕ} {l : ℕ} {frame : ℕ} {src : ℕ} {alive : ℕ} (h : Keeps z s)  :
    Keeps z (State.followMiss s h_1 l frame src alive) := by
  unfold State.followMiss
  repeat' with_reducible first
    | assumption | intro _ | extract_lets | exact BusKeeps.refl _ | apply State.onBus_keeps | apply Bus.journal_keeps
    | apply State.bump_keeps | apply State.setRerun_keeps | apply State.emit_keeps | apply State.setTnd_keeps
    | apply Keeps.ite | apply Keeps.iteFst | refine Keeps.ofPair ?_ ‹_› | split | apply BusKeeps.ite | dsimp only
    | dsimp +zetaDelta only

theorem State.followFlip_keeps {z : State} {s : State} {h_1 : ℕ} {frame : ℕ} {q : ℕ × ℕ × ℕ} (h : Keeps z s)  :
    Keeps z (State.followFlip s h_1 frame q) := by
  unfold State.followFlip
  repeat' with_reducible first
    | assumption | intro _ | extract_lets | exact BusKeeps.refl _ | apply State.followMiss_keeps | apply State.flip_keeps
    | apply State.setFld_keeps | apply State.setRerun_keeps | refine Keeps.ofPair ?_ ‹_› | split

theorem State.relatch_keeps {z : State} {s : State} {h_1 : ℕ} {c : LatchRec} {late : Bool} (h : Keeps z s)  :
    Keeps z (State.relatch s h_1 c late) := by
  unfold State.relatch
  repeat' with_reducible first
    | assumption | intro _ | extract_lets | exact BusKeeps.refl _ | apply State.latchLayer_keeps | apply State.setHead_keeps
    | apply State.setFld_keeps | apply Keeps.ite | apply Keeps.iteFst | apply Keeps.forEach | apply Keeps.forEachFst
    | refine Keeps.ofPair ?_ ‹_› | split

theorem State.lateCommands_keeps {z : State} {s : State} {h_1 : ℕ} {t : Word} (h : Keeps z s)  :
    Keeps z (State.lateCommands s h_1 t).1 := by
  unfold State.lateCommands
  repeat' with_reducible first
    | assumption | extract_lets | apply State.applyCommits_keeps | apply State.applyLuts_keeps | apply State.applyFresh_keeps
    | apply State.basicBanks_keeps

theorem State.followLatch_keeps {z : State} {s : State} {c : LatchRec} (h : Keeps z s)  :
    Keeps z (State.followLatch s c) := by
  unfold State.followLatch
  repeat' with_reducible first
    | assumption | intro _ | extract_lets | exact BusKeeps.refl _ | apply State.lateCommands_keeps
    | apply State.followFlip_keeps | apply State.relatch_keeps | apply State.setHead_keeps | apply State.setTnd_keeps
    | apply State.emitAt_keeps | apply State.setReg_keeps | apply Keeps.ite | apply Keeps.forEach

theorem State.tryLatch_keeps {z : State} {s : State} {h_1 : ℕ} (h : Keeps z s)  :
    Keeps z (State.tryLatch s h_1) := by
  unfold State.tryLatch
  repeat' with_reducible first
    | assumption | intro _ | extract_lets | exact BusKeeps.refl _ | apply State.setTnd_keeps | apply State.followLatch_keeps
    | apply Keeps.ite | refine Keeps.ofPair ?_ ‹_› | split

theorem State.applyLatch_keeps {z : State} {s : State} {r : JRec} (h : Keeps z s)  :
    Keeps z (State.applyLatch s r) := by
  unfold State.applyLatch
  repeat' with_reducible first
    | assumption | intro _ | extract_lets | exact BusKeeps.refl _ | apply State.tryLatch_keeps | apply State.setTnd_keeps
    | apply Keeps.ite

theorem State.applyStrip_keeps {z : State} {s : State} {r : JRec} (h : Keeps z s)  :
    Keeps z (State.applyStrip s r) := by
  unfold State.applyStrip
  repeat' with_reducible first
    | assumption | intro _ | extract_lets | exact BusKeeps.refl _ | apply State.setHead_keeps | apply State.shedNote_keeps
    | apply State.showSheds_keeps | apply State.onFrame_keeps | apply State.bump_keeps | apply State.noteDoubts_keeps
    | apply State.columnLeaves_keeps | apply Keeps.ite | apply Keeps.forEach | refine Keeps.ofPair ?_ ‹_› | split

theorem State.applyDoubt_keeps {z : State} {s : State} {r : JRec} (h : Keeps z s)  :
    Keeps z (State.applyDoubt s r) := by
  unfold State.applyDoubt
  repeat' with_reducible first
    | assumption | intro _ | extract_lets | exact BusKeeps.refl _ | apply State.noteDoubts_keeps | apply Keeps.ite

theorem State.applyRowchk_keeps {z : State} {s : State} {r : JRec} (h : Keeps z s)  :
    Keeps z (State.applyRowchk s r) := by
  unfold State.applyRowchk
  repeat' with_reducible first
    | assumption | intro _ | apply State.rerunRecorded_keeps | apply Keeps.ite

theorem State.applyIngest_keeps {z : State} {s : State} {r : JRec} (h : Keeps z s)  :
    Keeps z (State.applyIngest s r) := by
  unfold State.applyIngest
  repeat' with_reducible first
    | assumption | exact BusKeeps.refl _ | apply State.setRerun_keeps | apply Keeps.ite | refine Keeps.ofPair ?_ ‹_› | split

theorem State.backdate_keeps {z : State} {s : State} {h_1 : ℕ} {t : Word} (h : Keeps z s)  :
    Keeps z (State.backdate s h_1 t) := by
  unfold State.backdate
  repeat' with_reducible first
    | assumption | intro _ | extract_lets | exact BusKeeps.refl _ | apply State.setHead_keeps

theorem State.applyCommand_keeps {z : State} {s : State} {r : JRec} (h : Keeps z s)  :
    Keeps z (State.applyCommand s r) := by
  unfold State.applyCommand
  repeat' with_reducible first
    | assumption | intro _ | extract_lets | exact BusKeeps.refl _ | apply State.onBus_keeps | apply Bus.setRing_keeps
    | apply State.withPorts_keeps | apply State.perform_keeps | apply performOf_keeps | apply State.backdate_keeps
    | apply Keeps.ite | refine Keeps.ofPair ?_ ‹_› | split | apply BusKeeps.ite | dsimp only | dsimp +zetaDelta only

theorem State.applyWrite_keeps {z : State} {s : State} {r : JRec} (h : Keeps z s)  :
    Keeps z (State.applyWrite s r) := by
  unfold State.applyWrite
  repeat' with_reducible first
    | assumption | exact BusKeeps.refl _ | apply State.regWrite_keeps | refine Keeps.ofPair ?_ ‹_› | split

theorem State.applyTiming_keeps {z : State} {s : State} {r : JRec} (h : Keeps z s)  :
    Keeps z (State.applyTiming s r) := by
  unfold State.applyTiming
  repeat' with_reducible first
    | assumption | extract_lets | exact BusKeeps.refl _ | apply State.timeStep_keeps | apply State.setReg_keeps
    | apply State.setGroup_keeps | apply State.setNext_keeps | apply State.alignNotes_keeps | apply State.emit_keeps
    | apply Keeps.ite | refine Keeps.ofPair ?_ ‹_› | split

theorem State.applyRec_keeps {z : State} {s : State} {r : JRec} (h : Keeps z s)  :
    Keeps z (State.applyRec s r) := by
  unfold State.applyRec
  repeat' with_reducible first
    | assumption | extract_lets | exact BusKeeps.refl _ | apply State.setTnd_keeps | apply State.applyLatch_keeps
    | apply State.applyStrip_keeps | apply State.applyDoubt_keeps | apply State.applyRowchk_keeps
    | apply State.applyIngest_keeps | apply State.applyCommand_keeps | apply State.applyWrite_keeps
    | apply State.applyTiming_keeps | apply Keeps.ite | refine Keeps.ofPair ?_ ‹_› | split | dsimp only
    | dsimp +zetaDelta only

theorem State.storeRec_keeps {z : State} {s : State} {r : JRec} (h : Keeps z s)  :
    Keeps z (State.storeRec s r) := by
  unfold State.storeRec
  repeat' with_reducible first
    | assumption | intro _ | exact BusKeeps.refl _ | apply State.onBus_keeps | apply Bus.jtrim_keeps
    | (fail_if_no_progress apply BusKeeps.mk')

theorem State.drainRecs_keeps {z s : State} {n : Nat} (h : Keeps z s) : Keeps z (State.drainRecs n s) := by
  induction n generalizing s with
  | zero => exact h
  | succ n ih =>
    unfold State.drainRecs
    split
    · exact h
    · exact Keeps.ite h (Keeps.ite (ih (State.setTnd_keeps h))
        (ih (State.setReg_keeps (State.setTnd_keeps (State.applyRec_keeps (State.setTnd_keeps h))))))

theorem State.journalRx_keeps {z : State} {s : State} {p : ℕ} {sync : Bool} {raw : List Byte} (h : Keeps z s)  :
    Keeps z (State.journalRx s p sync raw) := by
  unfold State.journalRx
  repeat' with_reducible first
    | assumption | intro _ | extract_lets | exact BusKeeps.refl _ | apply State.tndItem_keeps | apply State.rxUnknown_keeps
    | apply State.joinLoad_keeps | apply State.storeRec_keeps | apply State.setTnd_keeps | apply State.drainRecs_keeps
    | apply Keeps.forEach | refine Keeps.ofPair ?_ ‹_› | split

theorem State.mirrorThenRecs_keeps {z : State} {s : State} {p : ℕ} {sync : Bool} {raw : List Byte} (h : Keeps z s)  :
    Keeps z (State.mirrorThenRecs s p sync raw) := by
  unfold State.mirrorThenRecs
  repeat' with_reducible first
    | assumption | extract_lets | apply State.mirrorRx_keeps | apply State.drainRecs_keeps

theorem State.holdTimeout_keeps {z : State} {s : State} {h_1 : ℕ} (h : Keeps z s)  :
    Keeps z (State.holdTimeout s h_1) := by
  unfold State.holdTimeout
  repeat' with_reducible first
    | assumption | extract_lets | exact BusKeeps.refl _ | apply State.setHead_keeps | apply State.setTnd_keeps
    | apply Keeps.ite | refine Keeps.ofPair ?_ ‹_› | split

theorem State.tandemTime_keeps {z : State} {s : State} {ofs : ℤ} (h : Keeps z s)  :
    Keeps z (State.tandemTime s ofs) := by
  unfold State.tandemTime
  repeat' with_reducible first
    | assumption | intro _ | extract_lets | exact BusKeeps.refl _ | apply State.setReg_keeps | apply State.timeStep_keeps
    | apply State.setTnd_keeps | apply Keeps.ite | refine Keeps.ofPair ?_ ‹_› | split

theorem State.latchInstant_keeps {z : State} {s : State} {h_1 : ℕ} (h : Keeps z s)  :
    Keeps z (State.latchInstant s h_1) := by
  unfold State.latchInstant
  repeat' with_reducible first
    | assumption | extract_lets | apply State.serviceLatch_keeps | apply State.zoneLatch_keeps | apply State.headLatch_keeps
    | apply State.zoneDone_keeps | apply State.tryLatch_keeps | apply Keeps.ite

theorem State.rerunFetch_keeps {z : State} {s : State} (h : Keeps z s)  :
    Keeps z (State.rerunFetch s) := by
  unfold State.rerunFetch
  repeat' with_reducible first
    | assumption | intro _ | extract_lets | exact BusKeeps.refl _ | apply State.setRerun_keeps | apply State.load_keeps
    | apply Keeps.ite | refine Keeps.ofPair ?_ ‹_› | split

theorem State.rerunLoaded_keeps {z : State} {s : State} (h : Keeps z s)  :
    Keeps z (State.rerunLoaded s) := by
  unfold State.rerunLoaded
  repeat' with_reducible first
    | assumption | intro _ | extract_lets | exact BusKeeps.refl _ | apply State.load_keeps | apply State.loadCkpt_keeps
    | apply State.timeStep_keeps | apply State.onBus_keeps | apply State.rerunFetch_keeps | apply State.setRerun_keeps
    | apply Bus.setReg_keeps | apply Keeps.ite | refine Keeps.ofPair ?_ ‹_› | split

theorem State.rerunApply_keeps {z s : State} {n : Nat} (h : Keeps z s) : Keeps z (State.rerunApply n s) := by
  induction n generalizing s with
  | zero => exact h
  | succ n ih =>
    unfold State.rerunApply
    refine Keeps.ite h ?_
    split
    · exact h
    · refine Keeps.ite h (ih (State.applyRec_keeps ?_))
      split
      · exact State.rerunFetch_keeps (State.setRerun_keeps h)
      · exact h

theorem State.rerunDone_keeps {z : State} {s : State} (h : Keeps z s)  :
    Keeps z (State.rerunDone s) := by
  unfold State.rerunDone
  repeat' with_reducible first
    | assumption | apply State.rerunEnds_keeps | apply Keeps.ite

theorem State.mwinWrite_keeps {z : State} {s : State} {port : ℕ} {off : ℕ} {data : List Byte} (h : Keeps z s)  :
    Keeps z (State.mwinWrite s port off data) := by
  unfold State.mwinWrite
  repeat' with_reducible first
    | assumption | extract_lets | exact BusKeeps.refl _ | apply State.store_keeps | apply State.mirrorWrite_keeps
    | refine Keeps.ofPair ?_ ‹_› | split

theorem State.idle_keeps {z : State} {s : State} (h : Keeps z s)  :
    Keeps z (State.idle s) := by
  unfold State.idle
  repeat' with_reducible first
    | assumption | intro _ | extract_lets | exact BusKeeps.refl _ | apply State.onBus_keeps | apply State.countTick_keeps
    | apply Bus.drainOne_keeps | apply State.settle_keeps | apply State.rerunApply_keeps | apply Keeps.ite | split
    | apply BusKeeps.ite | apply BusKeeps.tick

theorem execRerunLoad_keeps {z : State} {r : ℕ} {k : ℕ} {s : State} (h : Keeps z s)  :
    AnswerKeeps z (execRerunLoad r k s) := by
  unfold execRerunLoad
  repeat' with_reducible first
    | assumption | intro _ | apply State.fabric_keeps | apply State.runCmd_keeps | apply rerunLoad_keeps

theorem execRerunStop_keeps {z : State} {r : ℕ} {k : ℕ} {s : State} (h : Keeps z s)  :
    AnswerKeeps z (execRerunStop r k s) := by
  unfold execRerunStop
  repeat' with_reducible first
    | assumption | intro _ | apply State.fabric_keeps | apply State.runCmd_keeps | apply rerunStop_keeps

theorem execRerunLoaded_keeps {z : State} {s : State} (h : Keeps z s)  :
    AnswerKeeps z (execRerunLoaded s) := by
  unfold execRerunLoaded
  repeat' with_reducible first
    | assumption | apply State.fabric_keeps | apply State.rerunLoaded_keeps

theorem execRerunDone_keeps {z : State} {s : State} (h : Keeps z s)  :
    AnswerKeeps z (execRerunDone s) := by
  unfold execRerunDone
  repeat' with_reducible first
    | assumption | apply State.fabric_keeps | apply State.rerunDone_keeps

theorem execCommandWaitEnd_keeps {z : State} {r : ℕ} {k : ℕ} {s : State} (h : Keeps z s)  :
    AnswerKeeps z (execCommandWaitEnd r k s) := by
  unfold execCommandWaitEnd
  repeat' with_reducible first
    | assumption | intro _ | apply State.fabric_keeps | apply State.waitEnd_keeps

theorem execJournalPacketRx_keeps {z : State} {p : ℕ} {skew : List ℕ} {lines : List (List Bool)} {s : State} (h : Keeps z s)  :
    AnswerKeeps z (execJournalPacketRx p skew lines s) := by
  unfold execJournalPacketRx
  repeat' with_reducible first
    | assumption | intro _ | apply State.fabric_keeps | apply State.arrives_keeps | apply State.journalRx_keeps

theorem execMirrorRx_keeps {z : State} {p : ℕ} {skew : List ℕ} {lines : List (List Bool)} {s : State} (h : Keeps z s)  :
    AnswerKeeps z (execMirrorRx p skew lines s) := by
  unfold execMirrorRx
  repeat' with_reducible first
    | assumption | intro _ | apply State.fabric_keeps | apply State.arrives_keeps | apply State.mirrorThenRecs_keeps

theorem execFollowHoldTimeout_keeps {z : State} {h_0 : ℕ} {s : State} (h : Keeps z s)  :
    AnswerKeeps z (execFollowHoldTimeout h_0 s) := by
  unfold execFollowHoldTimeout
  repeat' with_reducible first
    | assumption | intro _ | apply State.fabric_keeps | apply State.holdTimeout_keeps

theorem execTandemTimeStep_keeps {z : State} {ofs : ℤ} {s : State} (h : Keeps z s)  :
    AnswerKeeps z (execTandemTimeStep ofs s) := by
  unfold execTandemTimeStep
  repeat' with_reducible first
    | assumption | intro _ | apply State.fabric_keeps | apply State.tandemTime_keeps

theorem execHeadLatch_keeps {z : State} {h_0 : ℕ} {s : State} (h : Keeps z s)  :
    AnswerKeeps z (execHeadLatch h_0 s) := by
  unfold execHeadLatch
  repeat' with_reducible first
    | assumption | intro _ | apply State.fabric_keeps | apply State.latchInstant_keeps

theorem execMemoryWindowWrite_keeps {z : State} {port : ℕ} {off : ℕ} {data : List Byte} {s : State} (h : Keeps z s)  :
    AnswerKeeps z (execMemoryWindowWrite port off data s) := by
  unfold execMemoryWindowWrite
  repeat' with_reducible first
    | assumption | intro _ | apply State.window_keeps | apply State.mwinWrite_keeps

end Sys2Proof.Machine
end

