-- ==== Sys2Proof/Laws/KeepsExec.lean ====
section
/-! SUPPORT. What every command keeps: the laws of the meanings together. -/

namespace Sys2Proof.Machine

theorem exec_keeps (c : Instr) (s : State) : AnswerKeeps s (exec c s) := by
  cases c with
  | powerOnReset => exact execPowerOnReset_keeps (.refl s)
  | sysResetNAssert => exact execSysResetNAssert_keeps (.refl s)
  | warmReset => exact execWarmReset_keeps (.refl s)
  | fabricReset => exact execFabricReset_keeps (.refl s)
  | smbusReset => exact execSmbusReset_keeps (.refl s)
  | lockstepMismatch => exact execLockstepMismatch_keeps (.refl s)
  | startHoldRelease => exact execStartHoldRelease_keeps (.refl s)
  | supplyWaitTimeout => exact execSupplyWaitTimeout_keeps (.refl s)
  | perstDeassert => exact execPerstDeassert_keeps (.refl s)
  | structureLoad => exact execStructureLoad_keeps (.refl s)
  | routingComputed => exact execRoutingComputed_keeps (.refl s)
  | writeSlot => exact execWriteSlot_keeps (.refl s)
  | slotWritten => exact execSlotWritten_keeps (.refl s)
  | setPreferred => exact execSetPreferred_keeps (.refl s)
  | confirm => exact execConfirm_keeps (.refl s)
  | confirmTimeout => exact execConfirmTimeout_keeps (.refl s)
  | zoneReload => exact execZoneReload_keeps (.refl s)
  | zoneDrainEnd => exact execZoneDrainEnd_keeps (.refl s)
  | zoneRoutingLoaded => exact execZoneRoutingLoaded_keeps (.refl s)
  | verify => exact execVerify_keeps (.refl s)
  | revokeKey => exact execRevokeKey_keeps (.refl s)
  | raiseFloor => exact execRaiseFloor_keeps (.refl s)
  | provisionKey => exact execProvisionKey_keeps (.refl s)
  | handshakeCompletionTimeout => exact execHandshakeCompletionTimeout_keeps (.refl s)
  | vddFabRequestRaise => exact execVddFabRequestRaise_keeps (.refl s)
  | vddFabRequestLower => exact execVddFabRequestLower_keeps (.refl s)
  | avsReadbackFault => exact execAvsReadbackFault_keeps (.refl s)
  | fnEnable => exact execFnEnable_keeps (.refl s)
  | fnDisable => exact execFnDisable_keeps (.refl s)
  | fnLevelSet => exact execFnLevelSet_keeps (.refl s)
  | functionStarted => exact execFunctionStarted_keeps (.refl s)
  | shutdownComplete => exact execShutdownComplete_keeps (.refl s)
  | stopSlow => exact execStopSlow_keeps (.refl s)
  | hostPortReset => exact execHostPortReset_keeps (.refl s)
  | hostPortResetEnd => exact execHostPortResetEnd_keeps (.refl s)
  | controlWindowBadAccess => exact execControlWindowBadAccess_keeps (.refl s)
  | memoryWindowRead => exact execMemoryWindowRead_keeps (.refl s)
  | memoryWindowWrite => exact execMemoryWindowWrite_keeps (.refl s)
  | registerWrite => exact execRegisterWrite_keeps (.refl s)
  | rcRegisterRead => exact execRcRegisterRead_keeps (.refl s)
  | ringDoorbell => exact execRingDoorbell_keeps (.refl s)
  | ringConsWrite => exact execRingConsWrite_keeps (.refl s)
  | ringWaitLimitWrite => exact execRingWaitLimitWrite_keeps (.refl s)
  | commandWaitEnd => exact execCommandWaitEnd_keeps (.refl s)
  | fenceTimeout => exact execFenceTimeout_keeps (.refl s)
  | nop => exact execNop_keeps (.refl s)
  | barrier => exact execBarrier_keeps (.refl s)
  | barrierDone => exact execBarrierDone_keeps (.refl s)
  | fenceSignalWrite => exact execFenceSignalWrite_keeps (.refl s)
  | fenceValueRead => exact execFenceValueRead_keeps (.refl s)
  | holdoffExpiry => exact execHoldoffExpiry_keeps (.refl s)
  | ptmDialogue => exact execPtmDialogue_keeps (.refl s)
  | ptmSnapshotRead => exact execPtmSnapshotRead_keeps (.refl s)
  | regionUpdate => exact execRegionUpdate_keeps (.refl s)
  | accSync => exact execAccSync_keeps (.refl s)
  | syncDone => exact execSyncDone_keeps (.refl s)
  | noticeWindowClose => exact execNoticeWindowClose_keeps (.refl s)
  | enterService => exact execEnterService_keeps (.refl s)
  | setField => exact execSetField_keeps (.refl s)
  | debugMasterAccess => exact execDebugMasterAccess_keeps (.refl s)
  | debugAccessRecord => exact execDebugAccessRecord_keeps (.refl s)
  | memoryRead => exact execMemoryRead_keeps (.refl s)
  | memoryWrite => exact execMemoryWrite_keeps (.refl s)
  | scrubRead => exact execScrubRead_keeps (.refl s)
  | scrubPass => exact execScrubPass_keeps (.refl s)
  | ceSummary => exact execCeSummary_keeps (.refl s)
  | memBytesRead => exact execMemBytesRead_keeps (.refl s)
  | stackTempReading => exact execStackTempReading_keeps (.refl s)
  | warmingTimeout => exact execWarmingTimeout_keeps (.refl s)
  | trainingComplete => exact execTrainingComplete_keeps (.refl s)
  | zeroingComplete => exact execZeroingComplete_keeps (.refl s)
  | eyeDriftCheck => exact execEyeDriftCheck_keeps (.refl s)
  | retrained => exact execRetrained_keeps (.refl s)
  | submit => exact execSubmit_keeps (.refl s)
  | fillTimeout => exact execFillTimeout_keeps (.refl s)
  | sourceStateEval => exact execSourceStateEval_keeps (.refl s)
  | srcCull => exact execSrcCull_keeps (.refl s)
  | testPatternRegen => exact execTestPatternRegen_keeps (.refl s)
  | compress => exact execCompress_keeps (.refl s)
  | decompress => exact execDecompress_keeps (.refl s)
  | decodeStreamBind => exact execDecodeStreamBind_keeps (.refl s)
  | decodePictureStart => exact execDecodePictureStart_keeps (.refl s)
  | decodePictureEnd => exact execDecodePictureEnd_keeps (.refl s)
  | headStartReady => exact execHeadStartReady_keeps (.refl s)
  | cadenceFrameInstant => exact execCadenceFrameInstant_keeps (.refl s)
  | headLatch => exact execHeadLatch_keeps (.refl s)
  | stripStart => exact execStripStart_keeps (.refl s)
  | tileColumnDone => exact execTileColumnDone_keeps (.refl s)
  | stripComplete => exact execStripComplete_keeps (.refl s)
  | stripReadoutStart => exact execStripReadoutStart_keeps (.refl s)
  | stripSlotFree => exact execStripSlotFree_keeps (.refl s)
  | frameReadoutEnd => exact execFrameReadoutEnd_keeps (.refl s)
  | layerSet => exact execLayerSet_keeps (.refl s)
  | layerFence => exact execLayerFence_keeps (.refl s)
  | loadCoeff => exact execLoadCoeff_keeps (.refl s)
  | readCoeff => exact execReadCoeff_keeps (.refl s)
  | cursorLoad => exact execCursorLoad_keeps (.refl s)
  | commit => exact execCommit_keeps (.refl s)
  | cursorPosWrite => exact execCursorPosWrite_keeps (.refl s)
  | cursorHidden => exact execCursorHidden_keeps (.refl s)
  | tileDoubt => exact execTileDoubt_keeps (.refl s)
  | tileSnapshotWrite => exact execTileSnapshotWrite_keeps (.refl s)
  | witnessTileCheck => exact execWitnessTileCheck_keeps (.refl s)
  | witnessFrameCheck => exact execWitnessFrameCheck_keeps (.refl s)
  | witnessIslandPowerLoss => exact execWitnessIslandPowerLoss_keeps (.refl s)
  | witnessReportTimeout => exact execWitnessReportTimeout_keeps (.refl s)
  | limitSet => exact execLimitSet_keeps (.refl s)
  | policySet => exact execPolicySet_keeps (.refl s)
  | rearm => exact execRearm_keeps (.refl s)
  | modeCommit => exact execModeCommit_keeps (.refl s)
  | lutLoad => exact execLutLoad_keeps (.refl s)
  | lutRead => exact execLutRead_keeps (.refl s)
  | headFrameRead => exact execHeadFrameRead_keeps (.refl s)
  | ambientDwellMet => exact execAmbientDwellMet_keeps (.refl s)
  | ambientTimeout => exact execAmbientTimeout_keeps (.refl s)
  | encodeInstant => exact execEncodeInstant_keeps (.refl s)
  | encodePictureEnd => exact execEncodePictureEnd_keeps (.refl s)
  | encInputRelease => exact execEncInputRelease_keeps (.refl s)
  | encCapWrite => exact execEncCapWrite_keeps (.refl s)
  | select => exact execSelect_keeps (.refl s)
  | requestIdr => exact execRequestIdr_keeps (.refl s)
  | trainingStart => exact execTrainingStart_keeps (.refl s)
  | trainBlockRx => exact execTrainBlockRx_keeps (.refl s)
  | phaseTimeout => exact execPhaseTimeout_keeps (.refl s)
  | trainingLimit => exact execTrainingLimit_keeps (.refl s)
  | trainingRetry => exact execTrainingRetry_keeps (.refl s)
  | laneLoss => exact execLaneLoss_keeps (.refl s)
  | laneFaultMarkerRx => exact execLaneFaultMarkerRx_keeps (.refl s)
  | repairDone => exact execRepairDone_keeps (.refl s)
  | repairTimeout => exact execRepairTimeout_keeps (.refl s)
  | txIslandLoss => exact execTxIslandLoss_keeps (.refl s)
  | retrain => exact execRetrain_keeps (.refl s)
  | power => exact execPower_keeps (.refl s)
  | powerState => exact execPowerState_keeps (.refl s)
  | test => exact execTest_keeps (.refl s)
  | testDone => exact execTestDone_keeps (.refl s)
  | inject => exact execInject_keeps (.refl s)
  | rasterFrameStartRx => exact execRasterFrameStartRx_keeps (.refl s)
  | rasterLineRx => exact execRasterLineRx_keeps (.refl s)
  | rasterFrameEndRx => exact execRasterFrameEndRx_keeps (.refl s)
  | surfaceTileRx => exact execSurfaceTileRx_keeps (.refl s)
  | damageRx => exact execDamageRx_keeps (.refl s)
  | fenceSignalRx => exact execFenceSignalRx_keeps (.refl s)
  | statusRx => exact execStatusRx_keeps (.refl s)
  | partnerSilent => exact execPartnerSilent_keeps (.refl s)
  | timeSend => exact execTimeSend_keeps (.refl s)
  | timeEchoRx => exact execTimeEchoRx_keeps (.refl s)
  | creditSend => exact execCreditSend_keeps (.refl s)
  | safeRepeat => exact execSafeRepeat_keeps (.refl s)
  | epochRepeat => exact execEpochRepeat_keeps (.refl s)
  | linkHoldCapWrite => exact execLinkHoldCapWrite_keeps (.refl s)
  | checkAppend => exact execCheckAppend_keeps (.refl s)
  | checkVerify => exact execCheckVerify_keeps (.refl s)
  | panelStart => exact execPanelStart_keeps (.refl s)
  | touchCycleStart => exact execTouchCycleStart_keeps (.refl s)
  | touchFrameRx => exact execTouchFrameRx_keeps (.refl s)
  | touchAgeTimeout => exact execTouchAgeTimeout_keeps (.refl s)
  | unavailableRepeat => exact execUnavailableRepeat_keeps (.refl s)
  | baselineAdapt => exact execBaselineAdapt_keeps (.refl s)
  | baselineSaved => exact execBaselineSaved_keeps (.refl s)
  | contactExpired => exact execContactExpired_keeps (.refl s)
  | selfTestDue => exact execSelfTestDue_keeps (.refl s)
  | keysLoad => exact execKeysLoad_keeps (.refl s)
  | rebaseline => exact execRebaseline_keeps (.refl s)
  | selfTest => exact execSelfTest_keeps (.refl s)
  | rawRead => exact execRawRead_keeps (.refl s)
  | incrementSlewStep => exact execIncrementSlewStep_keeps (.refl s)
  | wrap => exact execWrap_keeps (.refl s)
  | step => exact execStep_keeps (.refl s)
  | refInactive => exact execRefInactive_keeps (.refl s)
  | refActive => exact execRefActive_keeps (.refl s)
  | refMeasurement => exact execRefMeasurement_keeps (.refl s)
  | refQualified => exact execRefQualified_keeps (.refl s)
  | refCfgWrite => exact execRefCfgWrite_keeps (.refl s)
  | timCtlWrite => exact execTimCtlWrite_keeps (.refl s)
  | wtrExpiry => exact execWtrExpiry_keeps (.refl s)
  | lockTestMet => exact execLockTestMet_keeps (.refl s)
  | holdExpired => exact execHoldExpired_keeps (.refl s)
  | timHostIncrWrite => exact execTimHostIncrWrite_keeps (.refl s)
  | hostRefTimeout => exact execHostRefTimeout_keeps (.refl s)
  | align => exact execAlign_keeps (.refl s)
  | groupRate => exact execGroupRate_keeps (.refl s)
  | capture => exact execCapture_keeps (.refl s)
  | capTimeRead => exact execCapTimeRead_keeps (.refl s)
  | capSubRead => exact execCapSubRead_keeps (.refl s)
  | timNowRead => exact execTimNowRead_keeps (.refl s)
  | pulseEdge => exact execPulseEdge_keeps (.refl s)
  | journalRingWrite => exact execJournalRingWrite_keeps (.refl s)
  | checkpointStart => exact execCheckpointStart_keeps (.refl s)
  | checkpointEnd => exact execCheckpointEnd_keeps (.refl s)
  | ckptAbandoned => exact execCkptAbandoned_keeps (.refl s)
  | frTrigger => exact execFrTrigger_keeps (.refl s)
  | frFrozen => exact execFrFrozen_keeps (.refl s)
  | freeze => exact execFreeze_keeps (.refl s)
  | release => exact execRelease_keeps (.refl s)
  | dump => exact execDump_keeps (.refl s)
  | frDumped => exact execFrDumped_keeps (.refl s)
  | mark => exact execMark_keeps (.refl s)
  | rerunLoad => exact execRerunLoad_keeps (.refl s)
  | rerunStop => exact execRerunStop_keeps (.refl s)
  | rerunDone => exact execRerunDone_keeps (.refl s)
  | handover => exact execHandover_keeps (.refl s)
  | resync => exact execResync_keeps (.refl s)
  | heartbeatSend => exact execHeartbeatSend_keeps (.refl s)
  | heartbeatRx => exact execHeartbeatRx_keeps (.refl s)
  | heartbeatTimeout => exact execHeartbeatTimeout_keeps (.refl s)
  | joinTimeout => exact execJoinTimeout_keeps (.refl s)
  | handoverTimeReached => exact execHandoverTimeReached_keeps (.refl s)
  | failedHeartbeatEnd => exact execFailedHeartbeatEnd_keeps (.refl s)
  | journalPacketRx => exact execJournalPacketRx_keeps (.refl s)
  | followHoldTimeout => exact execFollowHoldTimeout_keeps (.refl s)
  | mirrorRx => exact execMirrorRx_keeps (.refl s)
  | checkpointRx => exact execCheckpointRx_keeps (.refl s)
  | ackSend => exact execAckSend_keeps (.refl s)
  | ackRx => exact execAckRx_keeps (.refl s)
  | syncReqRx => exact execSyncReqRx_keeps (.refl s)
  | joinComplete => exact execJoinComplete_keeps (.refl s)
  | tandemTimeStep => exact execTandemTimeStep_keeps (.refl s)
  | epochStatusWaitTimeout => exact execEpochStatusWaitTimeout_keeps (.refl s)
  | sensorReading => exact execSensorReading_keeps (.refl s)
  | sensorTimeout => exact execSensorTimeout_keeps (.refl s)
  | graceEnd => exact execGraceEnd_keeps (.refl s)
  | enforceStep => exact execEnforceStep_keeps (.refl s)
  | enforceRelease => exact execEnforceRelease_keeps (.refl s)
  | cutoff => exact execCutoff_keeps (.refl s)
  | autoRecovery => exact execAutoRecovery_keeps (.refl s)
  | refclkLoss => exact execRefclkLoss_keeps (.refl s)
  | wclkLoss => exact execWclkLoss_keeps (.refl s)
  | supplyOutOfWindow => exact execSupplyOutOfWindow_keeps (.refl s)
  | wardenRailLoss => exact execWardenRailLoss_keeps (.refl s)
  | lifeHour => exact execLifeHour_keeps (.refl s)
  | wearDay => exact execWearDay_keeps (.refl s)
  | smbusSetPointer => exact execSmbusSetPointer_keeps (.refl s)
  | smbusRead => exact execSmbusRead_keeps (.refl s)
  | smbusWrite => exact execSmbusWrite_keeps (.refl s)
  | smbusAlertResponse => exact execSmbusAlertResponse_keeps (.refl s)
  | witnessIslandRestored => exact execWitnessIslandRestored_keeps (.refl s)
  | structCmdDone => exact execStructCmdDone_keeps (.refl s)
  | rerunLoaded => exact execRerunLoaded_keeps (.refl s)

end Sys2Proof.Machine
end

