-- ==== Sys2Proof/Laws/Starts.lean ====
section
/-! SUPPORT. FUNCTION_STARTED (spec/03 R91), one lemma per kind of function: what the end of a start does to an instance in STARTING. -/

namespace Sys2Proof.Machine

theorem State.functionStarted_ring {s : State} {i : Nat} (h : s.fnState 2 i = 1) :
    s.functionStarted 2 i =
      let u := (s.startEnds 2 i (s.bus.ringCheck s.plan i)).onBus fun b => b.flushAll (s.startEnds 2 i (s.bus.ringCheck s.plan i)).plan
      if u.isOn 2 i ∧ hostProduced (u.bus.ringKind i) then u.fetchUpTo (u.bus.ringSize i) ((u.plan.ringHost i).getD 0) i else u := by
  unfold State.functionStarted
  rw [if_neg (by rw [h]; decide), if_pos rfl]

theorem State.functionStarted_source {s : State} {n : Nat} (h : s.fnState 0x10 n = 1) (hp : s.linkWaits n = false) :
    s.functionStarted 0x10 n = match s.sourceCheck n with
      | some r => s.startEnds 0x10 n (some r)
      | none => (s.startEnds 0x10 n none).sourceOn n := by
  unfold State.functionStarted
  rw [if_neg (by rw [h]; decide), if_neg (by decide), if_pos rfl]
  exact (if_neg (by simp [hp])).trans (by cases s.sourceCheck n <;> rfl)

theorem State.functionStarted_encoder {s : State} {c : Nat} (h : s.fnState 0x15 c = 1) :
    s.functionStarted 0x15 c = match s.encCheck c with
      | some r => s.startEnds 0x15 c (some r)
      | none => (s.startEnds 0x15 c none).encOn c := by
  unfold State.functionStarted
  rw [if_neg (by rw [h]; decide), if_neg (by decide), if_neg (by decide)]
  exact (if_pos rfl).trans (by cases s.encCheck c <;> rfl)

theorem State.functionStarted_journal {s : State} {i : Nat} (h : s.fnState 0x31 i = 1) (hz : s.jrnSize ≠ 0) :
    s.functionStarted 0x31 i = match s.jrnCheck with
      | some r => s.startEnds 0x31 i (some r)
      | none => (s.startEnds 0x31 i none).setJrn { s.jrn with nextTick := s.ticks, secTick := s.ticks } := by
  unfold State.functionStarted
  rw [if_neg (by rw [h]; decide), if_neg (by decide), if_neg (by decide), if_neg (by decide), if_pos rfl]
  exact (if_neg hz).trans (by cases s.jrnCheck <;> rfl)

theorem State.functionStarted_own {s : State} {cap : Nat} (i : Nat) (h : ownStart cap = true) : s.functionStarted cap i = s := by
  unfold State.functionStarted
  rw [if_pos (Or.inr h)]

/-- A function without checks of its own; TANDEM waits for a port of its own (spec/12 R384). -/
theorem State.functionStarted_plain {s : State} {cap i : Nat} (h : s.fnState cap i = 1) (h0 : ownStart cap = false)
    (hc : cap ∉ [0x02, 0x10, 0x15, 0x31]) (hw : cap = 0x32 → s.tandemWaits = false) :
    s.functionStarted cap i = s.onBus fun b => b.enter cap i 2 := by
  simp only [List.mem_cons, List.not_mem_nil, or_false, not_or] at hc
  obtain ⟨h1, h2, h3, h4⟩ := hc
  unfold State.functionStarted
  rw [if_neg (by simp [h, h0]), if_neg h1, if_neg h2, if_neg h3, if_neg h4]
  exact if_neg fun hx => by simp [hw hx.1] at hx

end Sys2Proof.Machine
end

