-- ==== Sys2Proof/WellFormed.lean ====
section
/-! DEFINITION. Well-formed commands: every operand lies in the range the spec gives it. The meanings are total on ill-formed
commands too: one names nothing that exists, and changes nothing. -/

namespace Sys2Proof

/-- Host ports H0 to H3 (spec/03). -/
def okHost (p : Nat) : Bool := decide (p < 4)
/-- Spoke ports: 0 to 63 (spec/12). -/
def okSpoke (p : Nat) : Bool := decide (p < 64)
/-- Panel indexes of TOUCH_PLAN (spec/02 R48). -/
def okPanel (p : Nat) : Bool := decide (p < 48)
/-- Pulse outputs (spec/15 R493). -/
def okPulse (p : Nat) : Bool := decide (p < 4)
/-- Heads HD00 to HD47 (spec/10). -/
def okHead (h : Nat) : Bool := decide (h < 48)
/-- Rings RING000 to RING255 (spec/03 R94). -/
def okRing (r : Nat) : Bool := decide (r < 256)
/-- A free-running entry count (spec/03 R95). -/
def okEntry (k : Nat) : Bool := decide (k < 2 ^ 32)
/-- References of the timing core (spec/15 R476). -/
def okRef (r : Nat) : Bool := decide (r < 6)
/-- Regions of an access check unit (spec/04 R118). -/
def okRegion (r : Nat) : Bool := decide (r < 32)
/-- Sources and streams (spec/06). -/
def okSource (n : Nat) : Bool := decide (n < 128)
/-- Sensors TS00 to TS31, TSW and the two of the warden die (spec/17 R542). -/
def okSensor (n : Nat) : Bool := decide (n < 35)
/-- Encoder cores (spec/11). -/
def okEncoder (c : Nat) : Bool := decide (c < 8)
/-- Decoder cores (spec/07). -/
def okCore (c : Nat) : Bool := decide (c < 24)
/-- Capture channels (spec/15 R492). -/
def okCapture (c : Nat) : Bool := decide (c < 16)
/-- Tile columns of at most 8,192 pixels (spec/08 R222). -/
def okColumn (c : Nat) : Bool := decide (c < 128)
/-- Layer units (spec/02 R38). -/
def okUnit (u : Nat) : Bool := decide (u < 192)
/-- Masters, one access check unit each (spec/04 R117, the table of masters). -/
def okMaster (m : Nat) : Bool := decide (m < 154)
/-- Cadence groups (spec/02 R37). -/
def okGroup (g : Nat) : Bool := decide (g < 8)
/-- A function's CAP_ID (spec/03 R86). -/
def okFunction (cap : Nat) : Bool :=
  [0x01, 0x02, 0x03, 0x04, 0x05, 0x06, 0x07, 0x10, 0x11, 0x12, 0x13, 0x14, 0x15, 0x20, 0x21, 0x30, 0x31, 0x32, 0x33, 0x34,
   0x35].contains cap
/-- The number of a function's block (spec/03 R86). -/
def okNumber (i : Nat) : Bool := decide (i < 256)
/-- A register block: basic, expert, the control words, or the control window by offset. -/
def okBlock (b : Nat) : Bool := decide (b < 4)
/-- A register's offset: aligned (spec/03 R80). -/
def okOffset (off : Nat) : Bool := decide (off % 4 = 0) && decide (off < 2 ^ 26)
/-- A memory window access, inside its 16 GiB (spec/03 R81). -/
def okWindow (off n : Nat) : Bool := decide (0 < n) && decide (n ≤ 4096) && decide (off + n ≤ 2 ^ 34)
/-- A device address (spec/05, the address map). -/
def okAddress (a : Nat) : Bool := decide (a < 2 ^ 40)
/-- An access' bytes. -/
def okLength (n : Nat) : Bool := decide (0 < n) && decide (n ≤ 4096)
def okData (l : List Byte) : Bool := decide (l.length ≤ 4096)
/-- Line bits of a lane: at most a packet's, of 4,096 bytes of payload and its head and checks (spec/13 R396), with their markers and stuff bits. -/
def okBits (l : List Bool) : Bool := decide (l.length ≤ 2 ^ 16)
/-- What arrives on the lanes of a port: at most four, each some line bits late (spec/12 R358, R367). -/
def okLines (skew : List Nat) (l : List (List Bool)) : Bool := decide (skew.length ≤ 4) && decide (l.length ≤ 4) && l.all okBits
/-- Numbers of 8, 16, 32 and 64 bits. -/
def okByte (n : Nat) : Bool := decide (n < 2 ^ 8)
def okHalf (n : Nat) : Bool := decide (n < 2 ^ 16)
def okWord (n : Nat) : Bool := decide (n < 2 ^ 32)
def okPair (n : Nat) : Bool := decide (n < 2 ^ 64)
/-- The strap pins (spec/18 R573). -/
def okStraps (n : Nat) : Bool := decide (n < 16)
/-- The SLOT field of STRUCT_CMD, a key slot and a zone (spec/02). -/
def okSlot (n : Nat) : Bool := decide (n < 4)
def okKeySlot (n : Nat) : Bool := decide (n < 4)
def okZone (n : Nat) : Bool := decide (n < 8)
/-- Rails of the table of spec/18 R567. -/
def okRail (r : Nat) : Bool := decide (r < 12)
def okRails (l : List Nat) : Bool := l.all okRail
/-- Fence objects (spec/03 R106). -/
def okFence (n : Nat) : Bool := decide (n < 4096)
/-- The four registers of the PTM set (spec/03 R111). -/
def okPart (n : Nat) : Bool := decide (n < 4)
/-- Memory stacks and pseudo-channels (spec/05). -/
def okStack (n : Nat) : Bool := decide (n < 2)
def okPseudo (n : Nat) : Bool := decide (n < 64)
/-- Tiles of a head's active area (spec/00 R7). -/
def okTile (n : Nat) : Bool := decide (n < 2 ^ 16)
/-- Lanes 0 to 3, BK and CK (spec/12). -/
def okLane (n : Nat) : Bool := decide (n < 6)
def okLanes (n : Nat) : Bool := decide (n < 2 ^ 5)
/-- What the checkers of L0 to L3 and BK received (spec/12 R386). -/
def okErrors (l : List (List Bool)) : Bool := decide (l.length ≤ 5)
/-- A test of spec/12 R376 counts something. -/
def okCause (t : LossTest) : Bool :=
  match t with
  | .markers n => decide (0 < n)
  | .clock => true
  | .errors n => decide (0 < n)
/-- A scrub read: clean, corrected, uncorrectable (spec/05 R154). -/
def okResult (n : Nat) : Bool := decide (n < 3)
/-- CAP_SUB is a fraction of a tick (spec/15 R492). -/
def okSub (n : Nat) : Bool := decide (n < 16)
/-- One reading for each sensor. -/
def okReadings (l : List (Option Int)) : Bool := decide (l.length = 35)
/-- A frame has at most 68 tile rows (spec/10 R307). -/
def okRows (l : List Nat) : Bool := decide (l.length ≤ 68) && l.all okWord
/-- What keeps an access unit from being decoded is one of the two of R205 that its slices show. -/
def okAu (i : AuInfo) : Bool := decide (i.irap < 4) && (i.reason == 0 || i.reason == 1 || i.reason == 7)
/-- A CTU has 16, 32 or 64 luma samples a side, a macroblock 16 (spec/07). -/
def okPicture (o : PicObs) : Bool := o.ctu == 16 || o.ctu == 32 || o.ctu == 64
/-- The numbers of a handshake stage (spec/01 R13). -/
def okStage (g : Stage) : Bool :=
  match g with
  | .column h c unit => okHead h && okColumn c && okUnit unit
  | .fill n => okSource n
  | .writeBack n => okSource n
  | .decoder c => okCore c
  | .encoder c => okEncoder c
  | .panel p => okPanel p
  | .tandem => true
  | .receive p => okSpoke p
  | .command r k => okRing r && okEntry k
  | .journal => true
  | .timing => true
  | .engine => true
  | .memory => true
  | .tiles => true
  | .mailbox => true

/-- Every operand of the command lies in its range. -/
def Instr.wf (i : Instr) : Bool :=
  match i with
  | .powerOnReset straps => okStraps straps
  | .sysResetNAssert => true
  | .warmReset port key => okHost port && okHalf key
  | .fabricReset port key => okHost port && okHalf key
  | .smbusReset data _ => okByte data
  | .lockstepMismatch => true
  | .startHoldRelease => true
  | .supplyWaitTimeout out => okRails out
  | .perstDeassert port => okHost port
  | .structureLoad out => okRails out
  | .routingComputed out => okRails out
  | .writeSlot port slot => okHost port && okSlot slot
  | .slotWritten _ => true
  | .setPreferred port slot => okHost port && okSlot slot
  | .confirm port => okHost port
  | .confirmTimeout => true
  | .zoneReload port zone => okHost port && okZone zone
  | .zoneDrainEnd => true
  | .zoneRoutingLoaded _ => true
  | .verify port => okHost port
  | .revokeKey port key => okHost port && okKeySlot key
  | .raiseFloor port => okHost port
  | .provisionKey port key => okHost port && okKeySlot key
  | .handshakeCompletionTimeout g => okStage g
  | .vddFabRequestRaise _ => true
  | .vddFabRequestLower => true
  | .avsReadbackFault => true
  | .fnEnable port cap i => okHost port && okFunction cap && okNumber i
  | .fnDisable port cap i => okHost port && okFunction cap && okNumber i
  | .fnLevelSet port cap i _ => okHost port && okFunction cap && okNumber i
  | .functionStarted cap i => okFunction cap && okNumber i
  | .shutdownComplete cap i => okFunction cap && okNumber i
  | .stopSlow cap i => okFunction cap && okNumber i
  | .hostPortReset port => okHost port
  | .hostPortResetEnd port => okHost port
  | .controlWindowBadAccess port _ => okHost port
  | .memoryWindowRead port off n => okHost port && okWindow off n
  | .memoryWindowWrite port off data => okHost port && okWindow off data.length
  | .registerWrite port cap inst blk off _ => okHost port && okFunction cap && okNumber inst && okBlock blk && okOffset off
  | .rcRegisterRead port cap inst blk off => okHost port && okFunction cap && okNumber inst && okBlock blk && okOffset off
  | .ringDoorbell port r _ => okHost port && okRing r
  | .ringConsWrite port r _ => okHost port && okRing r
  | .ringWaitLimitWrite port r _ => okHost port && okRing r
  | .commandWaitEnd r k => okRing r && okEntry k
  | .fenceTimeout r k => okRing r && okEntry k
  | .nop r k => okRing r && okEntry k
  | .barrier port _ => okHost port
  | .barrierDone port => okHost port
  | .fenceSignalWrite port obj _ => okHost port && okFence obj
  | .fenceValueRead port obj _ => okHost port && okFence obj
  | .holdoffExpiry r => okRing r
  | .ptmDialogue port _ hostTime delay _ => okHost port && okPair hostTime && okWord delay
  | .ptmSnapshotRead port part => okHost port && okPart part
  | .regionUpdate port m r _ => okHost port && okMaster m && okRegion r
  | .accSync port m token => okHost port && okMaster m && okHalf token
  | .syncDone m => okMaster m
  | .noticeWindowClose m _ => okMaster m
  | .enterService port => okHost port
  | .setField port => okHost port
  | .debugMasterAccess _ a n data => okAddress a && okLength n && okData data
  | .debugAccessRecord => true
  | .memoryRead m a n _ _ => okMaster m && okAddress a && okLength n
  | .memoryWrite m a data => okMaster m && okAddress a && okData data
  | .scrubRead result => okResult result
  | .scrubPass => true
  | .ceSummary => true
  | .memBytesRead port stack _ => okHost port && okStack stack
  | .stackTempReading _ _ => true
  | .warmingTimeout stack => okStack stack
  | .trainingComplete _ _ _ => true
  | .zeroingComplete => true
  | .eyeDriftCheck low => low.all okPseudo
  | .retrained pc _ => okPseudo pc
  | .submit r k => okRing r && okEntry k
  | .fillTimeout n => okSource n
  | .sourceStateEval n => okSource n
  | .srcCull n => okSource n
  | .testPatternRegen n => okSource n
  | .compress r k => okRing r && okEntry k
  | .decompress r k => okRing r && okEntry k
  | .decodeStreamBind n => okSource n
  | .decodePictureStart c i => okCore c && okAu i
  | .decodePictureEnd c o => okCore c && okPicture o
  | .headStartReady h => okHead h
  | .cadenceFrameInstant g => okGroup g
  | .headLatch h => okHead h
  | .stripStart h => okHead h
  | .tileColumnDone h c unit _ _ => okHead h && okColumn c && okUnit unit
  | .stripComplete h => okHead h
  | .stripReadoutStart h => okHead h
  | .stripSlotFree o => okHead o.head
  | .frameReadoutEnd h => okHead h
  | .layerSet r k => okRing r && okEntry k
  | .layerFence r k => okRing r && okEntry k
  | .loadCoeff r k => okRing r && okEntry k
  | .readCoeff r k => okRing r && okEntry k
  | .cursorLoad r k => okRing r && okEntry k
  | .commit r k => okRing r && okEntry k
  | .cursorPosWrite host h _ => okHost host && okHead h
  | .cursorHidden h => okHead h
  | .tileDoubt h => okHead h
  | .tileSnapshotWrite host h _ => okHost host && okHead h
  | .witnessTileCheck p tile _ => okSpoke p && okTile tile
  | .witnessFrameCheck p rows _ => okSpoke p && okRows rows
  | .witnessIslandPowerLoss => true
  | .witnessReportTimeout => true
  | .limitSet r k => okRing r && okEntry k
  | .policySet r k => okRing r && okEntry k
  | .rearm r k => okRing r && okEntry k
  | .modeCommit r k => okRing r && okEntry k
  | .lutLoad r k => okRing r && okEntry k
  | .lutRead r k => okRing r && okEntry k
  | .headFrameRead port h _ => okHost port && okHead h
  | .ambientDwellMet h => okHead h
  | .ambientTimeout h => okHead h
  | .encodeInstant c => okEncoder c
  | .encodePictureEnd c => okEncoder c
  | .encInputRelease c => okEncoder c
  | .encCapWrite host c _ _ => okHost host && okEncoder c
  | .select r k => okRing r && okEntry k
  | .requestIdr r k => okRing r && okEntry k
  | .trainingStart p => okSpoke p
  | .trainBlockRx p lane bits _ _ _ => okSpoke p && okLane lane && okBits bits
  | .phaseTimeout p => okSpoke p
  | .trainingLimit p => okSpoke p
  | .trainingRetry p => okSpoke p
  | .laneLoss p lane loss => okSpoke p && okLane lane && okCause loss
  | .laneFaultMarkerRx p bits => okSpoke p && okBits bits
  | .repairDone p => okSpoke p
  | .repairTimeout p => okSpoke p
  | .txIslandLoss p => okSpoke p
  | .retrain r k => okRing r && okEntry k
  | .power r k => okRing r && okEntry k
  | .powerState p => okSpoke p
  | .test r k => okRing r && okEntry k
  | .testDone p rx heard => okSpoke p && okErrors rx && okLanes heard
  | .inject r k => okRing r && okEntry k
  | .rasterFrameStartRx p skew lines => okSpoke p && okLines skew lines
  | .rasterLineRx p skew lines => okSpoke p && okLines skew lines
  | .rasterFrameEndRx p skew lines => okSpoke p && okLines skew lines
  | .surfaceTileRx p skew lines => okSpoke p && okLines skew lines
  | .damageRx p skew lines => okSpoke p && okLines skew lines
  | .fenceSignalRx p skew lines => okSpoke p && okLines skew lines
  | .statusRx p skew lines => okSpoke p && okLines skew lines
  | .partnerSilent p => okSpoke p
  | .timeSend p => okSpoke p
  | .timeEchoRx p skew lines => okSpoke p && okLines skew lines
  | .creditSend p => okSpoke p
  | .safeRepeat p => okSpoke p
  | .epochRepeat p => okSpoke p
  | .linkHoldCapWrite host p _ => okHost host && okSpoke p
  | .checkAppend r k => okRing r && okEntry k
  | .checkVerify r k => okRing r && okEntry k
  | .panelStart p => okPanel p
  | .touchCycleStart p => okPanel p
  | .touchFrameRx port skew lines _ => okSpoke port && okLines skew lines
  | .touchAgeTimeout p => okPanel p
  | .unavailableRepeat p => okPanel p
  | .baselineAdapt p => okPanel p
  | .baselineSaved p => okPanel p
  | .contactExpired p => okPanel p
  | .selfTestDue p => okPanel p
  | .keysLoad r k => okRing r && okEntry k
  | .rebaseline r k => okRing r && okEntry k
  | .selfTest r k => okRing r && okEntry k
  | .rawRead r k => okRing r && okEntry k
  | .incrementSlewStep => true
  | .wrap => true
  | .step r k => okRing r && okEntry k
  | .refInactive r => okRef r
  | .refActive r => okRef r
  | .refMeasurement r _ _ _ => okRef r
  | .refQualified r => okRef r
  | .refCfgWrite host r _ _ => okHost host && okRef r
  | .timCtlWrite host _ => okHost host
  | .wtrExpiry r => okRef r
  | .lockTestMet => true
  | .holdExpired => true
  | .timHostIncrWrite host _ => okHost host
  | .hostRefTimeout => true
  | .align r k => okRing r && okEntry k
  | .groupRate r k => okRing r && okEntry k
  | .capture c _ sub => okCapture c && okSub sub
  | .capTimeRead port c => okHost port && okCapture c
  | .capSubRead port c => okHost port && okCapture c
  | .timNowRead port _ => okHost port
  | .pulseEdge p => okPulse p
  | .journalRingWrite => true
  | .checkpointStart => true
  | .checkpointEnd => true
  | .ckptAbandoned => true
  | .frTrigger => true
  | .frFrozen => true
  | .freeze r k => okRing r && okEntry k
  | .release r k => okRing r && okEntry k
  | .dump r k => okRing r && okEntry k
  | .frDumped => true
  | .mark r k => okRing r && okEntry k
  | .rerunLoad r k => okRing r && okEntry k
  | .rerunStop r k => okRing r && okEntry k
  | .rerunDone => true
  | .handover r k => okRing r && okEntry k
  | .resync r k => okRing r && okEntry k
  | .heartbeatSend => true
  | .heartbeatRx p skew lines => okSpoke p && okLines skew lines
  | .heartbeatTimeout => true
  | .joinTimeout => true
  | .handoverTimeReached => true
  | .failedHeartbeatEnd => true
  | .journalPacketRx p skew lines => okSpoke p && okLines skew lines
  | .followHoldTimeout h => okHead h
  | .mirrorRx p skew lines => okSpoke p && okLines skew lines
  | .checkpointRx p skew lines => okSpoke p && okLines skew lines
  | .ackSend => true
  | .ackRx p skew lines => okSpoke p && okLines skew lines
  | .syncReqRx p skew lines => okSpoke p && okLines skew lines
  | .joinComplete => true
  | .tandemTimeStep _ => true
  | .epochStatusWaitTimeout p => okSpoke p
  | .sensorReading ts => okReadings ts
  | .sensorTimeout n => okSensor n
  | .graceEnd => true
  | .enforceStep => true
  | .enforceRelease => true
  | .cutoff => true
  | .autoRecovery => true
  | .refclkLoss => true
  | .wclkLoss => true
  | .supplyOutOfWindow rail => okRail rail
  | .wardenRailLoss => true
  | .lifeHour => true
  | .wearDay => true
  | .smbusSetPointer off _ => okOffset off
  | .smbusRead => true
  | .smbusWrite _ _ => true
  | .smbusAlertResponse => true
  | .witnessIslandRestored => true
  | .structCmdDone => true
  | .rerunLoaded => true

end Sys2Proof
end

