-- ==== Sys2Proof/Tests/Slice0.lean ====
section
/-! SUPPORT. Tests: decoding does not apply to this block, so these show that well-formedness refuses an ill-formed command of each check,
and that the hypotheses of every statement can be met. -/

namespace Sys2Proof.Tests

open Sys2Proof.Machine

set_option Elab.async false

/-! ### A small device -/

/-- A structure with one of each: out-port 0 with head 0 and panel 0, in-ports 1 and 2, tandem port 3, six sources, a stream, an encoder,
four rings of host port 0. -/
def plan : Plan :=
  { Plan.none with
    loaded := true
    ports := [⟨1, 3, 0, 100⟩, ⟨2, 3, 255, 0⟩, ⟨2, 3, 255, 0⟩, ⟨3, 3, 255, 0⟩, ⟨1, 3, 255, 100⟩]
    heads := [⟨0, 0, 255, 0, 128, 128, 1000, 8, 4, false, true, true, 0⟩]
    cadence := [⟨true, 0, 1, 240000, 0⟩]
    units := [⟨0, 0⟩, ⟨0, 0⟩]
    sources := [⟨0, 1, 1, 4, 128, 128, 0, 255, 0⟩, ⟨1, 2, 0, 4, 128, 128, 0, 255, 0⟩, ⟨2, 3, 255, 4, 128, 128, 0, 255, 0⟩,
      ⟨3, 5, 255, 4, 128, 128, 0, 255, 0⟩, ⟨4, 4, 0, 4, 128, 128, 0, 255, 0⟩, ⟨5, 0, 2, 4, 128, 128, 0, 255, 0⟩]
    decMask := 1
    streams := [⟨2, 0, 0, 2, 1000⟩]
    encMask := 1
    encs := [⟨0, 0, 255, false, 128, 128, 60⟩]
    rings := [⟨0, 255, 8⟩, ⟨0, 255, 8⟩, ⟨0, 255, 8⟩, ⟨0, 255, 8⟩]
    freshLimit := 100
    freshFloor := 1
    freshCeiling := 1000
    panels := [⟨0, 0, 255, 0, 4, 4, 8, 5, 255, 60, 100, 60⟩]
    zones := [⟨0, true, 0⟩] }

def br (r : BReg) (i j : Nat) (v : Word) : Nat × Word := (r.key i j, v)
def fr (r : FReg) (i j : Nat) (v : Word) : Nat × Word := (r.key i j, v)

/-- FN_CTL of an instance that is ON. -/
def on (cap inst : Nat) : Nat × Word := br .fnCtl cap inst 9

/-- Region 0 of a master's unit covers and grants the first GiB. -/
def grant (m : Nat) : List (Nat × Word) := [br .regCtl m 0 7, br .regSizeLo m 0 0x40000000]

/-- The device in service, every function ON, memory READY; ring 0 COMMAND, ring 1 EVENT, of 64 entries. -/
def base : State :=
  { State.reset with
    fabricUp := true
    plan := plan
    wdn := { WdnSt.init with waitStep := 0 }
    bus := { Bus.init with
      regs := [on 1 0, on 2 0, on 2 1, on 2 2, on 2 3, on 3 0, on 4 0, on 5 0, on 6 0, on 7 0, on 0x10 0, on 0x10 1, on 0x10 2, on 0x10 3,
          on 0x10 4, on 0x10 5, on 0x11 2, on 0x12 0, on 0x13 0, on 0x14 0, on 0x15 0, on 0x20 0, on 0x20 1, on 0x20 3, on 0x21 0, on 0x30 0,
          on 0x31 0, on 0x32 0, on 0x33 0, on 0x34 0, br .memState 0 0 4, br .ringCtl 0 0 0x600, br .ringBaseLo 0 0 0x10000,
          br .ringCtl 1 0 0x601] ++ grant 0 ++ grant 150 ++ grant 152 } }

/-- The base with other function registers. -/
def withF (s : State) (rs : List (Nat × Word)) : State := { s with fregs := rs ++ s.fregs }
def withB (s : State) (rs : List (Nat × Word)) : State := { s with bus := { s.bus with regs := rs ++ s.bus.regs } }

/-- A command record: opcode, instance, object, and ARGS from byte 32. -/
def entry (op inst obj : Nat) (args : List Byte) : FEntry :=
  { k := 0, phase := .ready, since := 0, met := false,
    data := le 2 op ++ [0, 0] ++ le 2 inst ++ le 2 obj ++ le 4 7 ++ le 4 0xFFFFFFFF ++ List.replicate 16 0 ++ fit 24 args ++ List.replicate 8 0 }

/-- The base with that command as entry 0 of ring 0, ready for step 3. -/
def cmd (s : State) (e : FEntry) : State :=
  { s with bus := { s.bus with rings := [(0, { RingSt.init with fetched := [e] })] } }

/-- The base at a tick; with what a port's lane layer holds. -/
def later (s : State) (n : Nat) : State := { s with bus := { s.bus with ticks := n } }
def withLane (s : State) (p : Nat) (x : LaneSt) : State := s.setLane p x

/-- Port p in a state and phase, as clock master; a training block of a display endpoint in a phase. -/
def inPort (p st ph : Nat) : State := withF base [fr .portState p 0 (w32 (st + 16 * ph)), fr .portCfg p 0 (w32 0x1D)]
def blk (ph : Nat) : TrainBlock := ⟨ph, 1, 15, 15, 0, 0xE4, 4, 0xFF⟩

/-! ### Containers and a token, signed with a key made for these tests -/

def cRec (t : Nat) (b : List Byte) : List Byte := le 2 t ++ le 4 b.length ++ b
def cRep (n : Nat) (b : List Byte) : List Byte := (List.replicate n b).flatten

/-- One out-port, one in-port, one head of 128 × 128, one unit, a test pattern, partition 1, four rings, zone 0. -/
def cRecs : List Byte := List.flatten
  [cRec 1 ([1, 3, 0, 0] ++ le 4 100 ++ [2, 3, 0xFF, 0, 0, 0, 0, 0] ++ cRep 62 [0, 0, 0xFF, 0, 0, 0, 0, 0]),
   cRec 2 ([1, 0, 0, 0] ++ [0, 0, 0xFF, 0] ++ le 2 128 ++ le 2 128 ++ le 4 100000000 ++ [8, 4, 0, 0] ++ le 8 0),
   cRec 3 ([1, 0, 0, 0] ++ le 4 1000 ++ le 4 240000 ++ le 4 0 ++ cRep 7 ([0, 0xFF, 0, 0] ++ le 4 0 ++ le 8 0)),
   cRec 4 ([0, 0] ++ cRep 191 [0xFF, 0xFF]),
   cRec 5 ([1, 0, 0, 0] ++ [0, 5, 0xFF, 4] ++ le 2 128 ++ le 2 128 ++ [0, 0xFF, 1] ++ le 5 0),
   cRec 6 (le 8 0),
   cRec 7 (le 4 0 ++ cRep 128 [0]),
   cRec 8 ([1, 0, 0, 0] ++ le 12 0 ++ [1, 3, 12, 0] ++ le 8 0x08000000 ++ le 8 0x10000000 ++ [0xFF, 0, 0, 0]),
   cRec 9 (cRep 4 [0, 0xFF, 8, 0] ++ cRep 252 [0xFF, 0xFF, 6, 0]),
   cRec 10 ([1, 0, 0, 0] ++ le 2 0 ++ [0, 3] ++ le 8 0x08000000 ++ le 8 0x10000000 ++ le 4 0),
   cRec 11 (le 2 100 ++ le 2 1 ++ le 2 1000 ++ le 2 0 ++ le 4 0 ++ le 4 0 ++ le 4 0),
   cRec 12 (le 4 0),
   cRec 14 ([1, 0, 0, 0] ++ [0, 1, 0, 0] ++ le 4 7)]

def cKey : List Byte :=
  bytesOfNat 96
    0x277FD02D783F69AC3AEF993715D6A5A3FB0D888F6DC20006582FEBF4258BD01CE2FD334E2E037DC92E1AC6361164CA9B6FD8CC1AF6041CC4DA273BA3FF42905A02B71ED84BC3144EBFFE50CEF47055B0BAD14E0A9004202D954CE79E1153DB3C

/-- A container with FLAGS, REVOKE_TARGET and records, signed. -/
def signed (flags target n : Nat) (rs : List Byte) (sig : Nat) : List Byte :=
  [0x56, 0x5A, 0x53, 0x42, 1, 0] ++ le 2 176 ++ le 4 (272 + rs.length) ++ sha384 rs ++ [0] ++ le 1 flags ++ le 2 n ++ le 4 5 ++
  le 2 0xB1 ++ le 1 target ++ [0] ++ le 8 0 ++ cKey ++ rs ++ bytesOfNat 96 sig
def container : List Byte :=
  signed 0 0 13 cRecs
    0x3B4C0EBBDEE4B01CDEF7AD4CE272E090F232185460820ECAE5DA97DC805939476679C9007012978057EB6A822DAA01C788ED3C2946AAE1FB79B012B81AC6FDD6EB9E5BEF275B9CD40A25455AC16B0B50DCE98793219442777022AB866B93A185
def revocation : List Byte :=
  signed 2 1 0 []
    0xA4AE52D50E37E8D9B7A234C12D729E2C2ED07559312A3F6388BF9F920FC8C286CD4253B5D58D2222879FB01AF5934E1143531B8923894CC9EAE1A897998A6EE58B0B0A51EEE13A756F507E73EE00D64D1A9D6B06BAF690A0D68708146B949184
def empty : List Byte :=
  signed 0 0 0 []
    0x4AE8B8D711BBCC921977FF710954314C78A5E0B98D3B1FB0A2579787E40093DFD02384D0CF06AAE752AFBA0DFE3E5F8A4CEF10721762C10323DC352B0CF697C97AD99156FB7E9C1317055A69618CDC5A9862BA4B70ED8CD81D99DAD4DA3D9263
def token : List Byte :=
  [0x56, 0x5A, 0x53, 0x54, 1, 0, 0, 0] ++ List.replicate 56 0 ++ cKey ++
  bytesOfNat 96
    0x26FC4335BFC1D7AA13516F36E2C116167869361BE422AEAF0F5AD16EF916EF31C8176604FDAD0C00A459D72AF2F88126059424BD0B7328AC7A7A6A37D77C65C840218B86E3849645733E4E7CCFB8B3A18DA9BBA06923FF65482C46AEDA056FF7

/-- Key slot 0 holds that key, slot 1 another. -/
def keyed (s : State) : State :=
  { s with otp := { s.otp with hashes := [sha384 cKey, [1], [], []], revoked := [false, false, false, false], devKey := false } }

/-- Those bytes at the start of the staging partition. -/
def staging (s : State) (b : List Byte) : State :=
  { s with bus := { s.bus with mem := ((List.range b.length).zip b).filter fun e => e.2 != 0 } }

/-! ### Well-formedness refuses an ill-formed command of each check -/

theorem test_wf_indexes :
    ([.confirm 4, .trainingStart 64, .panelStart 48, .pulseEdge 4, .headLatch 48, .nop 256 0, .nop 0 (2 ^ 32), .refActive 6,
      .regionUpdate 0 0 32 0, .srcCull 128, .sensorTimeout 35, .encodeInstant 8, .capture 16 0 0, .tileColumnDone 0 128 0 false false,
      .tileColumnDone 0 0 192 false false, .syncDone 154, .cadenceFrameInstant 8, .functionStarted 8 0, .functionStarted 1 256,
      .handshakeCompletionTimeout (.decoder 24)] : List Instr).all (fun i => !i.wf) = true := by decide
theorem test_wf_windows :
    ([.registerWrite 0 1 0 4 0 0, .registerWrite 0 1 0 0 2 0, .memoryWindowRead 0 (2 ^ 34) 1, .memoryRead 0 (2 ^ 40) 4 0 false,
      .memoryRead 0 0 0 0 false, .memoryWrite 0 0 (List.replicate 4097 0), .stripSlotFree ⟨48, false⟩,
      .witnessFrameCheck 64 [] ⟨[], 0, 0, 0, true, 0, true⟩, .witnessFrameCheck 0 (List.replicate 69 0) ⟨[], 0, 0, 0, true, 0, true⟩,
      .rasterLineRx 0 [0, 0, 0, 0, 0] []] :
      List Instr).all (fun i => !i.wf) = true := by decide +kernel
theorem test_wf_numbers :
    ([.smbusReset 256 true, .warmReset 0 65536, .witnessTileCheck 64 0 ⟨0, 0, false⟩, .witnessTileCheck 0 65536 ⟨0, 0, false⟩,
      .ptmDialogue 0 true (2 ^ 64) 0 true, .powerOnReset 16, .writeSlot 0 4, .revokeKey 0 4, .zoneReload 0 8, .supplyOutOfWindow 12,
      .structureLoad [12], .fenceValueRead 0 4096 false, .ptmSnapshotRead 0 4, .memBytesRead 0 2 false, .retrained 64 true,
      .laneLoss 0 6 .clock, .laneLoss 0 0 (.markers 0), .testDone 0 [] 32, .testDone 0 [[], [], [], [], [], []] 0, .scrubRead 3, .capture 0 0 16,
      .sensorReading []] : List Instr).all (fun i => !i.wf) = true := by decide
theorem test_wf_pictures :
    (let sps : SpsInfo := ⟨1, false, 0, 93, 1, 8, 64, 64, 64, 64, 0, 0, false, false, 1⟩
     (Instr.decodePictureStart 0 ⟨4, 0, false, false, sps⟩).wf = false ∧ (Instr.decodePictureStart 0 ⟨0, 8, false, false, sps⟩).wf = false) ∧
    okPicture ⟨48, [], [], [], false, [], [], [], 0, 0, 0, 0, true, false, false, [], 0, true⟩ = false := by decide
theorem test_wf_accepts : (Instr.nop 255 7).wf = true ∧ (Instr.confirm 3).wf = true ∧ (Instr.headLatch 47).wf = true := by decide

/-! ### What the standards that spec/02 names give (FIPS 180-4, FIPS 186-4), and decoding -/

/-- The SHA-384 of "abc", from FIPS 180-4's example. -/
theorem test_sha384 : (sha384 [0x61, 0x62, 0x63]).take 8 = [0xCB, 0x00, 0x75, 0x3F, 0x45, 0xA3, 0x5E, 0x8B] := by decide +kernel
/-- The table gives no row any bits: no word spells a command. -/
theorem test_decode : decodeTableWord 0 0 = none ∧ decodeTableWord 32 0xFFFFFFFF = none := ⟨rfl, rfl⟩

/-! ### Witnesses of the statements' hypotheses -/

theorem wit_idle : base.pending = [] ∧ base.powered = true ∧ base.fabricUp = true ∧ base.rerunning = false := by decide +kernel

theorem wit_memoryForm : Memory.wf base.bus.mem = true ∧ ∃ t, step base = .next t := ⟨by decide +kernel, _, rfl⟩

def waiting : FEntry := { entry 0x0100 0 0xFFFF [] with phase := .waitFence }
theorem wit_nop : (cmd base (entry 0x0100 0 0xFFFF [])).ripe 0x0100 0 0 (entry 0x0100 0 0xFFFF []) ∧
    (entry 0x0100 0 0xFFFF []).object = 0xFFFF ∧ (entry 0x0100 0 0xFFFF []).zeroFrom 32 56 = true ∧ base.plan.has 1 0 = true ∧ (cmd base (entry 0x0100 0 0xFFFF [])).isOn 1 0 = true := by
  unfold State.ripe State.live
  decide +kernel
def timedOut : State := { withB (cmd base waiting) [br .ringWaitLimit 0 0 1] with bus := { (withB (cmd base waiting) [br .ringWaitLimit 0 0 1]).bus with ticks := 300000 } }
theorem wit_fenceTimeout : timedOut.live ∧ timedOut.entry 0 0 = some waiting ∧ timedOut.bus.waitedOut 0 waiting = true := by
  unfold State.live
  decide +kernel
theorem wit_waitLimit : base.live ∧ base.reached 0 2 0 ∧ base.plan.ringHost 0 = some 0 ∧ bf 2000 0 11 ≤ 2000 := by
  unfold State.live State.reached
  decide +kernel
theorem wit_holdoff : base.plan.ringHost 0 = some 0 ∧
    (({ base with bus := { base.bus with rings := [(0, { RingSt.init with due := true })] } }).bus.ringSt 0).due = true ∧
    (({ base with bus := { base.bus with rings := [(0, { RingSt.init with due := true })] } }).bus.ringSt 0).holdUntil ≤ base.ticks := by
  decide +kernel

theorem wit_doorbell : base.live ∧ base.reached 0 2 0 ∧ base.plan.ringHost 0 = some 0 ∧ hostProduced (base.bus.ringKind 0) = true ∧
    ((64 : Word) - base.bus.ringCons 0).toNat ≤ base.bus.ringSize 0 := by
  unfold State.live State.reached
  decide +kernel
theorem wit_consWrite : base.reached 0 2 1 ∧ base.plan.ringHost 1 = some 0 ∧ hostProduced (base.bus.ringKind 1) = false := by
  unfold State.reached
  decide +kernel

theorem wit_badProd : base.live ∧ base.reached 0 2 0 ∧ base.plan.ringHost 0 = some 0 ∧ hostProduced (base.bus.ringKind 0) = true ∧
    base.bus.ringSize 0 < ((65 : Word) - base.bus.ringCons 0).toNat ∧ base.isOn 2 0 = true := by
  unfold State.live State.reached
  decide +kernel

theorem wit_barrier : base.served = true ∧ base.reached 0 1 0 := by
  unfold State.reached
  decide +kernel
def fenced : State := { base with bus := { base.bus with hosts := [(0, { HostSt.init with barriers := [⟨9, []⟩] })] } }
theorem wit_barrierDone : fenced.served = true ∧ (fenced.bus.hostSt 0).barriers = [⟨9, []⟩] ∧ fenced.bus.barrierMet ⟨9, []⟩ = true := by
  decide +kernel
theorem wit_fenceSignal : base.live ∧ base.reached 3 3 0 ∧ 4095 < 4096 ∧ 4095 % 4 = 3 := by
  unfold State.live State.reached
  decide +kernel

/-- A port whose last PTM dialogue was at tick 0. -/
def dialogued : State := base.onBus fun b => b.setHost 0 { b.hostSt 0 with ptmTick := some 0 }
theorem wit_ptm : dialogued.live ∧ (dialogued.bus.hostSt 0).ptmTick = some 0 ∧
    dialogued.ticks < 0 + dialogued.bus.fld .coreXPtmPeriod 0 0 0 10 * 200000 ∧
    (withB base [br .corePtmStatus 0 0 0x200]).bus.fld .corePtmStatus 0 0 8 8 = 2 ∧
    (assocGet (base.bus.freeze .corePtmDev 0 0).froz (BReg.fkey .corePtmDev 0 0)).isSome = true := by
  unfold State.live
  decide +kernel
theorem wit_hostPort : base.live ∧ base.powered = true ∧ base.served = true ∧
    (base.bus.hostSt 0).ptmTick = none ∧ assocGet base.bus.froz (BReg.fkey .corePtmDev 0 0) = none ∧ (base.load 0 (base.bus.mwinAddr 0 64) 4).2 = .ok [0, 0, 0, 0] := by
  unfold State.live
  decide +kernel

def pendedAcc : AccSt := { AccSt.init with pend := [(2, 64)], syncs := [(3, 0)], rwin := some ⟨0, 0, 0, 1⟩, wwin := some ⟨0, 0, 0, 1⟩ }
def pended : State := { base with bus := { base.bus with acc := [(5, pendedAcc)], ticks := 2000000 } }
theorem wit_access : pended.live ∧ pended.reached 0 4 5 ∧
    (let b := pended.bus
     let base := (b.pendHalf 5 0 0).toNat + (b.pendHalf 5 0 1).toNat * 2 ^ 32
     let size := (b.pendHalf 5 0 2).toNat + (b.pendHalf 5 0 3).toNat * 2 ^ 32
     bit (b.reg .regCtl 5 0) 3 = false ∧ bit (3 : Word) 0 = true ∧ bit (3 : Word) 3 = false ∧ size ≠ 0 ∧ base + size ≤ 0xC00000000 ∧
     b.overlapping 5 0 base size = none) ∧
    (pended.bus.pendHalf 5 1 2).toNat + (pended.bus.pendHalf 5 1 3).toNat * 2 ^ 32 = 0 ∧ bit (8 : Word) 3 = true ∧ bit (8 : Word) 0 = false ∧
    (pended.bus.accSt 5).syncs = [(3, 0)] ∧ pended.bus.wq = [] ∧ (pended.bus.accSt 5).rwin = some ⟨0, 0, 0, 1⟩ ∧
    (pended.bus.accSt 5).wwin = some ⟨0, 0, 0, 1⟩ ∧ 0 + pended.bus.fld .accXNoticeWindow 5 0 0 10 * 200000 ≤ pended.ticks := by
  unfold State.live State.reached
  decide +kernel
theorem wit_overlap : (let s := withB pended [br .regCtl 5 1 7, br .regSizeLo 5 1 64]
    bit (s.bus.reg .regCtl 5 0) 3 = false ∧ s.bus.overlapping 5 0 0 64 = some 1) := by
  decide +kernel

def scrubbed : State := { base with bus := { base.bus with mx := { base.bus.mx with scrubAddr := 0 }, ticks := 400000000 } }
theorem wit_memory : base.live ∧ (base.load 0 0x100 4).2 = .ok [0, 0, 0, 0] ∧ (base.load 200 0x100 4).2 = .refused ∧
    (base.store 0 0x100 [1, 2]).2 = true ∧ base.bus.nextMapped base.bus.mx.scrubAddr < 0xC00000000 ∧
    base.bus.badWord (base.bus.nextMapped base.bus.mx.scrubAddr) = false ∧ base.bus.mx.soft = [] ∧
    base.bus.nextMapped base.bus.mx.scrubAddr % 64 = 0 ∧ (base.bus.rowOf (base.bus.nextMapped base.bus.mx.scrubAddr)).isSome = true ∧
    0xC00000000 ≤ ({ base.bus with mx := { base.bus.mx with scrubAddr := 0xC00000000 } }).nextMapped 0xC00000000 := by
  unfold State.live
  decide +kernel
theorem wit_memoryTimes : scrubbed.live ∧ scrubbed.bus.mx.ceTick + 200000000 ≤ scrubbed.bus.ticks ∧ scrubbed.bus.memReady = true ∧
    scrubbed.bus.mx.trackTick + scrubbed.bus.fld .memXTrackMs 0 0 0 10 * 200000 ≤ scrubbed.bus.ticks ∧
    ({ scrubbed.bus.mx with ceSec := (1, 0) }).ceSec.1 + ({ scrubbed.bus.mx with ceSec := (1, 0) }).ceSec.2 ≠ 0 := by
  unfold State.live
  decide +kernel

theorem wit_locked : bit ((withB base [br .regCtl 0 0 0xF]).bus.reg .regCtl 0 0) 3 = true := by decide +kernel

theorem wit_written : strictMaster 0 = false ∧ (base.bus.store 0 0x100 [1, 2]).2 = true := by decide +kernel

theorem wit_lifecycle : base.served = true ∧ base.reached 0 6 0 ∧ alwaysOn 6 = false ∧ followsHead 6 = false ∧
    (let s := withB base [br .fnCtl 6 0 0]
     ((s.regWriteRec 0 6 0 2 0 (w32 (1 + 2 * b2n (s.expert 6 0)))).onBus fun b => b.setFld .fnCtl 6 0 1 1 (b2n (s.expert 6 0))).fnState 6 0 = 0) ∧
    (let s := withB base [br .fnCtl 6 0 12]
     let u := (s.regWriteRec 0 6 0 2 0 (w32 (1 + 2 * b2n (s.expert 6 0)))).onBus fun b => b.setFld .fnCtl 6 0 1 1 (b2n (s.expert 6 0))
     u.fnState 6 0 = 3) ∧
    ((base.regWriteRec 0 6 0 2 0 (w32 (2 * b2n (base.expert 6 0)))).onBus fun b => b.setFld .fnCtl 6 0 1 1 (b2n (base.expert 6 0))).fnState 6 0 = 2 ∧
    (let s := withB base [br .fnCtl 6 0 4]
     ((s.regWriteRec 0 6 0 2 0 (w32 (2 * b2n (s.expert 6 0)))).onBus fun b => b.setFld .fnCtl 6 0 1 1 (b2n (s.expert 6 0))).fnState 6 0 = 1) ∧
    (let s := withB base [br .fnCtl 6 0 0]
     s.fnState 6 0 = 0 ∧ s.enableNow 6 0 = false ∧ alwaysOn 6 = false) ∧
    alwaysOn 4 = true ∧ base.reached 0 4 0 ∧ followsHead 0x12 = true ∧ base.reached 0 0x12 0 ∧ base.reached 1 2 0 ∧
    base.plan.ringHost 0 ≠ some 1 ∧ base.isOn 0x31 0 = true ∧
    base.isOn 6 0 = true ∧ bit (base.bus.reg .fnCtl 6 0) 0 = true := by
  unfold State.reached
  decide +kernel
theorem wit_stopSlow : (let s := withB { base with bus := { base.bus with ticks := 20000000 } } [br .fnCtl 6 0 12]
    s.live ∧ s.fnState 6 0 = 3 ∧ (tabGet FnSt.init s.bus.fns (Nat.pair 6 0)).slow = false ∧
      (tabGet FnSt.init s.bus.fns (Nat.pair 6 0)).stopTick + 20000000 ≤ s.ticks) := by
  unfold State.live
  decide +kernel

theorem wit_started : (withB base [br .fnCtl 6 0 5]).live ∧ (withB base [br .fnCtl 6 0 5]).fnState 6 0 = 1 ∧
    (withB base [br .fnCtl 2 0 5]).fnState 2 0 = 1 ∧ (withB base [br .fnCtl 2 0 5]).bus.ringCheck plan 0 = none ∧
    (withB base [br .fnCtl 2 0 5, br .ringCtl 0 0 0x607]).bus.ringCheck plan 0 = some 1 := by
  unfold State.live
  decide +kernel
theorem wit_startedOwn : (withB base [br .fnCtl 0x10 3 5]).fnState 0x10 3 = 1 ∧ (withB base [br .fnCtl 0x10 3 5]).linkWaits 3 = false ∧
    base.linkWaits 0 = true ∧ (withF base [fr .portState 1 0 2]).linkWaits 0 = false ∧ (withB base [br .fnCtl 0x15 0 5]).fnState 0x15 0 = 1 ∧
    (withB base [br .fnCtl 0x31 0 5, br .jrnSize 0 0 0x80]).jrnSize ≠ 0 ∧ (withB base [br .fnCtl 0x31 0 5]).fnState 0x31 0 = 1 ∧
    (withB base [br .fnCtl 0x31 0 5, br .jrnSize 0 0 0]).jrnSize = 0 ∧ ownStart 0x13 = true ∧ ownStart 6 = false := by
  decide +kernel
theorem wit_shutDown : (withB base [br .fnCtl 2 0 12]).live ∧ (withB base [br .fnCtl 2 0 12]).fnState 2 0 = 3 ∧
    (((withB base [br .fnCtl 2 0 12]).bus.ringSt 0).fetched.all fun e => e.phase != .running) = true ∧
    (withB base [br .fnCtl 2 0 12]).bus.fld .fnCtl 2 0 5 1 = 0 ∧ (withB base [br .fnCtl 2 0 0x2C]).bus.fld .fnCtl 2 0 5 1 = 1 ∧
    base.wdn.zone = none ∧ base.wdn.serviceStep = none := by
  unfold State.live
  decide +kernel

theorem wit_registers : base.served = true ∧ base.reached 0 0x12 0 ∧
    findReg 0x12 false 4 = some (⟨.fn .composeStatus, 0x12, false, 4, 0, 1, .w1c⟩, 0) ∧
    findReg 0x12 true 0 = some (⟨.fn .composeXShed, 0x12, true, 0, 0, 1, .rw⟩, 0) ∧
    findReg 0x13 false 0x34 = some (⟨.fn .witMismatchCount, 0x13, false, 0x34, 0, 1, .rc⟩, 0) ∧ base.plan.has 0x13 0 = true ∧
    base.holds 0x13 = true ∧ base.owns 0 0x13 0 0 = true := by
  unfold State.reached
  decide +kernel
theorem wit_registerTaken : (let s := withB base [br .fnCtl 0x12 0 0xB]
    s.expert 0x12 0 = true ∧ FReg.composeXShed ∉ [FReg.pulseCtl, .clkoutCtl, .encCtl, .composeWb, .srcLimit] ∧
      lowHalves.contains (.fn .composeXShed) = false ∧ (AnyReg.fn .composeXShed).lowOf = none ∧
      s.inRange .composeXShed 0 0x00010101 = true ∧ s.regOpen .composeXShed 0 0 = true ∧ s.inRange .composeXShed 0 0 = false) := by
  decide +kernel
theorem wit_window : (base.bus.hostSt 0).underReset = false ∧ (0x10 : Nat) < msixTable ∧ msixTable % 4 = 0 ∧ findReg 0x13 false 0xFFFC = none := by decide +kernel

def timed : State := withF base [fr .grpRate 0 0 60000, fr .tndState 0 0 0x38]
theorem wit_groupRate : (cmd timed (entry 0x3003 0 0 (le 4 50000))).ripe 0x3003 0 0 (entry 0x3003 0 0 (le 4 50000)) ∧
    timed.plan.has 0x30 0 = true ∧ timed.plan.cad 0 = some ⟨true, 0, 1, 240000, 0⟩ ∧ (entry 0x3003 0 0 (le 4 50000)).zeroFrom 36 56 = true ∧
    1 ≤ (entry 0x3003 0 0 (le 4 50000)).arg 32 4 ∧ (entry 0x3003 0 0 (le 4 50000)).arg 32 4 ≤ 240000 := by
  unfold State.ripe State.live
  decide +kernel
theorem wit_align : (cmd timed (entry 0x3002 0 0 [])).ripe 0x3002 0 0 (entry 0x3002 0 0 []) ∧ (entry 0x3002 0 0 []).arg 32 1 = 0 ∧
    (entry 0x3002 0 0 []).zeroFrom 34 36 = true ∧ (entry 0x3002 0 0 []).zeroFrom 44 56 = true := by
  unfold State.ripe State.live
  decide +kernel
theorem wit_align_channel : (let e := entry 0x3002 0 0 [1, 3]; let s := cmd timed e
    s.ripe 0x3002 0 0 e ∧ e.arg 32 1 = 1 ∧ e.arg 33 1 = 3 ∧ e.zeroFrom 34 36 = true ∧ e.zeroFrom 44 56 = true ∧
      (tabGet CapSt.init s.tim.caps 3).valid = false ∧
      (tabGet CapSt.init (s.setTim { s.tim with caps := tabSet CapSt.init s.tim.caps 3 { CapSt.init with valid := true } }).tim.caps 3).valid = true) ∧
    (let e := entry 0x3003 0 0 (le 4 240001); (cmd timed e).ripe 0x3003 0 0 e ∧ e.zeroFrom 36 56 = true ∧ 240000 < e.arg 32 4) ∧
    (let x : GroupSt := { timed.group 0 with rate := some (50000, 0xFFFFFFFF), align := some (7, 1) }; let s := timed.setGroup 0 x
     sdiff (0xFFFFFFFF : Word) (s.reg .grpNext 0 0) < 0 ∧ ¬ sdiff (1 : Word) (s.reg .grpNext 0 0) < 0 ∧ s.chooses = true) := by
  unfold State.ripe State.live
  decide +kernel
theorem wit_frameInstant : (timed.captureAt 9 none (timed.reg .grpNext 0 0)).group 0 = timed.group 0 ∧
    (timed.captureAt 9 none (timed.reg .grpNext 0 0)).chooses = true ∧ (timed.group 0).rateDue = none ∧ (timed.group 0).alignDue = none ∧
    (let x : GroupSt := { timed.group 0 with rate := some (50000, 0xFFFFFFFF) }
     ((timed.setGroup 0 x).captureAt 9 none (timed.reg .grpNext 0 0)).group 0 = x) ∧ timed.live ∧ (timed.reg .grpRate 0 0).toNat ≠ 0 ∧ atOrAfter timed.now (timed.reg .grpNext 0 0) = true ∧
    (timed.group 0).rate = none ∧ (timed.group 0).align = none ∧ timed.chooses = true ∧
    sdiff (0xFFFFFFFF : Word) (timed.reg .grpNext 0 0) < 0 := by
  unfold State.live
  decide +kernel
theorem wit_step : (cmd timed (entry 0x3001 0 0xFFFF (le 4 0xFFFFFFFF))).ripe 0x3001 0 0 (entry 0x3001 0 0xFFFF (le 4 0xFFFFFFFF)) ∧
    (entry 0x3001 0 0xFFFF (le 4 0xFFFFFFFF)).zeroFrom 36 56 = true ∧ sext 32 ((entry 0x3001 0 0xFFFF (le 4 0xFFFFFFFF)).arg 32 4) = -1 ∧
    timed.stepBusy = false := by
  unfold State.ripe State.live
  decide +kernel

theorem wit_refInactive : (withF base [fr .refStatus 0 0 6]).live ∧ bit ((withF base [fr .refStatus 0 0 6]).reg .refStatus 0 0) 2 = true ∧
    bit (base.reg .refStatus 0 5) 2 = false ∧ (withF base [fr .refCfg 0 5 3]).fld .refCfg 0 5 0 2 ≠ 0 := by
  unfold State.live
  decide +kernel
def measured : State := withF base [fr .refStatus 0 4 6, fr .refNom 0 4 1000, fr .timXLimits 0 0 0x00640032, fr .timState 0 0 0x70]
theorem wit_refMeasurement : measured.live ∧ bit (measured.reg .refStatus 0 4) 2 = true ∧ measured.refQual 4 = 2 ∧ measured.selected ≠ 4 ∧
    measured.nomMhz 4 * 200000000 ≠ 0 ∧ (((1 * 200000000000 : Nat) : Int) - (measured.nomMhz 4 * 200000000 : Nat)).natAbs * 1000000000 ≤
      measured.fld .timXLimits 0 0 0 16 * (measured.nomMhz 4 * 200000000) ∧
    measured.fld .timXLimits 0 0 0 16 ≤ measured.fld .timXLimits 0 0 16 16 := by
  unfold State.live
  decide +kernel
theorem wit_refQualified : (let s := withF { base with tim := { TimSt.init with refs := [(0, { RefSt.init with goodSecs := 500, qualS := 300 })] } } [fr .refStatus 0 0 5]
    s.live ∧ s.refQual 0 = 1 ∧ (s.refSt 0).qualS ≤ (s.refSt 0).goodSecs) := by
  unfold State.live
  decide +kernel
theorem wit_refCfg : base.reached 0 0x30 0 ∧ kindAllowed 0 (bf (0x11 : Word) 0 2) = true ∧ bf (base.reg .refCfg 0 0) 0 2 ≠ bf (0x11 : Word) 0 2 ∧
    bf (0x53 : Word) 4 3 ≤ 5 := by
  unfold State.reached
  decide +kernel
def waited : State :=
  withF { base with tim := { TimSt.init with refs := [(1, { RefSt.init with wtrAt := some 0, wtrS := 300 })] }, bus := { base.bus with ticks := 200000000000 } }
    [fr .timState 0 0 0x22, fr .timCtl 0 0 1, fr .refStatus 0 1 6, fr .refCfg 0 1 0x11, fr .refStatus 0 2 6, fr .refCfg 0 2 0x21]
theorem wit_wtrExpiry : waited.live ∧ waited.timState = 2 ∧ bit (waited.reg .timCtl 0 0) 0 = true ∧ bit (waited.reg .timCtl 0 0) 1 = false ∧
    waited.selected = 2 ∧ waited.bestOf ((List.range 6).filter fun q => waited.refBetter q && waited.wtrLeft q == 0) = some 1 := by
  unfold State.live
  decide +kernel
theorem wit_hostIncr : (let s := withF base [fr .timHostIncrLo 0 0 0]
    s.reached 0 0x30 0 ∧ ((assocGet s.bus.pairLo (FReg.fkey .timHostIncrLo 0 0)).getD (s.reg .timHostIncrLo 0 0)).toNat = 0) ∧
    0x500000000 - 0x500000000 / 10000 ≤ 0 + (5 : Word).toNat * 2 ^ 32 ∧ 0 + (5 : Word).toNat * 2 ^ 32 ≤ 0x500000000 + 0x500000000 / 10000 := by
  unfold State.reached
  decide +kernel
theorem wit_hostRefTimeout : (let s := { base with tim := { TimSt.init with hostTick := some 0 }, bus := { base.bus with ticks := 20000000000 } }
    s.live ∧ s.tim.hostTick = some 0 ∧ 0 + s.fld .timXHostMs 0 0 0 16 * 200000 ≤ s.ticks) := by
  unfold State.live
  decide +kernel

theorem wit_slew : (let s := { base with bus := { base.bus with ticks := 200000 } }
    s.live ∧ s.tim.slewTick + 200000 ≤ s.ticks) := by
  unfold State.live
  decide +kernel
theorem wit_lock : (let s := withF { base with tim := { TimSt.init with within := some 0 }, bus := { base.bus with ticks := 200000000 } } [fr .timState 0 0 3]
    s.live ∧ s.tim.within = some 0 ∧ s.timState = 3 ∧ 0 + 200000000 ≤ s.ticks ∧ (s.setFld .timState 0 0 0 3 1).live ∧
      (s.setFld .timState 0 0 0 3 1).tim.within = some 0 ∧ (s.setFld .timState 0 0 0 3 1).timState = 1) := by
  unfold State.live
  decide +kernel
theorem wit_hold : (let s := withF { base with bus := { base.bus with ticks := 20000000000000 } } [fr .timState 0 0 4]
    s.live ∧ s.timState = 4 ∧ s.fld .timXHold 0 0 0 16 ≤ (s.ticks - s.tim.holdTick) / 200000000) := by
  unfold State.live
  decide +kernel
theorem wit_wrap : (let s := { base with bus := { base.bus with time := 0xFFFFFFFF } }
    s.live ∧ bit s.bus.time 31 = true ∧ bit s.countTick.bus.time 31 = false) := by
  unfold State.live
  decide +kernel

theorem wit_capture : (withF base [fr .capCtl 0 0 0x80]).live ∧ bit ((withF base [fr .capCtl 0 0 0x80]).reg .capCtl 0 0) 7 = true ∧
    bf ((withF base [fr .capCtl 0 0 0x80]).reg .capCtl 0 0) 0 5 < 5 ∧ bit (base.reg .capCtl 0 0) 7 = false ∧
    5 ≤ bf ((withF base [fr .capCtl 0 0 0x85]).reg .capCtl 0 0) 0 5 := by
  unfold State.live
  decide +kernel
def pulsing (x : PulseSt) : State := withF { base with tim := { TimSt.init with pulses := [(0, x)] } } [fr .timState 0 0 0x800, fr .pulseCtl 0 0 1]
theorem wit_pulse : (let s := pulsing { PulseSt.init with level := true, fall := some 0 }
    s.live ∧ s.fld .thmState 0 0 0 3 < 3 ∧ s.wdn.serviceStep = none ∧ s.fld .debugState 0 0 0 2 ≠ 2 ∧ s.fld .timState 0 0 11 1 ≠ 0 ∧
      (s.pulse 0).fall = some 0 ∧ (s.pulse 0).level = true ∧ atOrAfter s.now 0 = true) ∧
    (let s := pulsing { PulseSt.init with next := some 0 }
    s.live ∧ s.fld .thmState 0 0 0 3 < 3 ∧ s.wdn.serviceStep = none ∧ s.fld .debugState 0 0 0 2 ≠ 2 ∧ s.fld .timState 0 0 11 1 ≠ 0 ∧
      (s.pulse 0).level = false ∧ (s.pulse 0).last = none ∧ (s.pulse 0).next = some 0 ∧ atOrAfter s.now 0 = true ∧
      s.fld .pulseCtl 0 0 0 2 = 1 ∧ (s.pulse 0).align = none) ∧
    (let s := pulsing { PulseSt.init with next := some 0, align := some 5 }
    s.live ∧ (s.pulse 0).level = false ∧ (s.pulse 0).next = some 0 ∧ atOrAfter s.now 0 = true ∧ s.fld .pulseCtl 0 0 0 2 = 1 ∧
      (s.pulse 0).align = some 5 ∧ (s.setFld .pulseCtl 0 0 0 2 2).fld .pulseCtl 0 0 0 2 = 2 ∧
      (s.setFld .pulseCtl 0 0 0 2 3).fld .pulseCtl 0 0 0 2 = 3) := by
  unfold State.live
  decide +kernel

theorem wit_trainingStart : (let s := withB (inPort 0 0 0) [br .fnCtl 0x20 0 4]
    s.live ∧ s.fnState 0x20 0 = 1 ∧ s.portState 0 = 0 ∧ s.bondMate 0 = none) ∧
    (let s := withLane (withF (inPort 0 4 0) [fr .portRetry 0 0 0]) 0 { base.lane 0 with failedAt := some 0 }
     s.live ∧ (s.lane 0).failedAt = some 0 ∧ s.portState 0 = 4 ∧ 0 + s.fld .portRetry 0 0 0 16 * 200000 ≤ s.ticks) := by
  unfold State.live
  decide +kernel
/-- A TRAIN marker with a block on BK, as the far side's line bits (spec/12 R363 to R366, R369). -/
def blkBits (ph : Nat) : List Bool := laneBits 4 false 1 (blk ph).bytes
theorem wit_trainMarker : markRx 1 4 (blkBits 1) = .block (blk 1).bytes false ∧ trainBlock (blk 1).bytes = some (blk 1) ∧
    markRx 1 4 (laneBits 4 false 1 (List.replicate 12 0)) = .block (List.replicate 12 0) false ∧ trainBlock (List.replicate 12 0) = none := by
  decide +kernel
theorem wit_trainBlock : (inPort 0 1 1).live ∧ (inPort 0 1 1).portState 0 = 1 ∧ (inPort 0 1 1).chooser 0 = true ∧
    (inPort 0 1 1).portPhase 0 = 1 ∧ (inPort 0 1 1).clockMaster 0 = true ∧ kindFits ((inPort 0 1 1).plan.role 0) (blk 1).kind = true ∧
    ((inPort 0 1 1).lane 0).short = false ∧ kindFits ((inPort 0 1 1).plan.role 0) 3 = false ∧ (inPort 0 3 4).portState 0 = 3 ∧
    (inPort 0 3 4).portPhase 0 = 4 ∧ ((inPort 0 3 4).lane 0).returning = false ∧ (inPort 0 1 2).portPhase 0 = 2 ∧
    (inPort 0 1 3).portPhase 0 = 3 ∧ (inPort 0 1 5).portPhase 0 = 5 ∧ ({ base.lane 0 with sentZero := true }).sentZero = true ∧
    (let s := withF base [fr .portState 0 0 (w32 (1 + 16)), fr .portCfg 0 0 (w32 0x0D)]
     s.chooser 0 = true ∧ s.portPhase 0 = 1 ∧ s.clockMaster 0 = false) := by
  unfold State.live
  decide +kernel
theorem wit_trainingEnds : (let s := later (inPort 0 1 5) 40000000
    s.live ∧ s.portState 0 = 1 ∧ (s.lane 0).phaseTick + (s.lane 0).phaseMs * 200000 ≤ s.ticks ∧
      (s.lane 0).startTick + 40000000 ≤ s.ticks) := by
  unfold State.live
  decide +kernel

def lanes (s : State) : State := withF s [fr .portLaneMap 0 0 0x00030FE4]
theorem wit_laneLoss : (lanes (inPort 0 2 0)).live ∧ (lanes (inPort 0 2 0)).portState 0 = 2 ∧ (lanes (inPort 0 2 0)).clockMaster 0 = true ∧
    ((lanes (inPort 0 2 0)).fld .portLaneMap 0 0 12 4).testBit 3 = false ∧ max 1 ((lanes (inPort 0 2 0)).fld .portXLock 0 0 0 4) ≤ 15 ∧
    0 < max 1 ((lanes (inPort 0 2 0)).fld .portXLock 0 0 0 4) ∧ ((lanes (inPort 0 2 0)).lane 0).txDead = false ∧
    (let t : TrainBlock := { blk 0 with laneStatus := 7 }
     markRx 2 4 (laneBits 4 false 2 t.bytes) = .block t.bytes false ∧ trainBlock t.bytes = some t ∧
       ((List.range 4).filter fun l => ((lanes (inPort 0 2 0)).fld .portLaneMap 0 0 8 4).testBit l && !t.laneStatus.testBit l) = [3]) := by
  unfold State.live
  decide +kernel
theorem wit_repair : (let s := withLane (lanes (inPort 0 3 5)) 0 { base.lane 0 with repairPassed := true }
    s.live ∧ s.portState 0 = 3 ∧ (s.lane 0).repairPassed = true ∧ (s.link 0).safe = none ∧
      s.ticks < (s.lane 0).repairTick.getD s.ticks + s.repairLimit 0) ∧
    (let s := withLane (later (inPort 0 3 5) 60000000) 0 { base.lane 0 with repairTick := some 0, txDead := true }
     s.live ∧ s.portState 0 = 3 ∧ (s.lane 0).repairTick.getD s.ticks + s.repairLimit 0 ≤ s.ticks ∧ (s.lane 0).txDead = true) := by
  unfold State.live
  decide +kernel

def portCmd (op st : Nat) (args : List Byte) : State := cmd (inPort 0 st 0) (entry op 0 0xFFFF args)
theorem wit_retrain : (let e := entry 0x2001 0 0xFFFF []; let s := portCmd 0x2001 2 []
    s.ripe 0x2001 0 0 e ∧ s.plan.has 0x20 e.inst = true ∧ e.object = 0xFFFF ∧ e.zeroFrom 32 56 = true ∧
      (s.begun 0 e).fnState 0x20 e.inst = 2 ∧ (s.begun 0 e).portState e.inst = 2) := by
  unfold State.ripe State.live
  decide +kernel
/-- Nothing uses port 4, whose SAFE has left. -/
def restful (s : State) : State :=
  (withF s [fr .portState 4 0 2, fr .portCfg 4 0 0x1D]).setLink 4 { base.link 4 with safeSince := true }
def resting : State := withB (restful base) [on 0x20 4]
theorem wit_power : (let e := entry 0x2002 4 0xFFFF [1]; let s := cmd resting e
    s.ripe 0x2002 0 0 e ∧ s.plan.has 0x20 e.inst = true ∧ e.object = 0xFFFF ∧ 0 < e.arg 32 1 ∧ e.arg 32 1 < 3 ∧
      e.zeroFrom 33 56 = true ∧ (s.begun 0 e).fnState 0x20 e.inst = 2 ∧ (s.begun 0 e).mayRest e.inst = true) ∧
    (let s := withLane resting 4 { base.lane 4 with power := some (0, 0, 1) }
     s.live ∧ s.portState 4 = 2 ∧ s.mayRest 4 = true ∧ (s.lane 4).power = some (0, 0, 1) ∧
       (withLane (inPort 0 2 0) 0 (s.lane 4)).mayRest 0 = false) := by
  unfold State.ripe State.live
  decide +kernel
theorem wit_test : (let e := entry 0x2003 4 0xFFFF ([1, 0, 31, 0] ++ le 4 2000); let s := cmd resting e
    s.ripe 0x2003 0 0 e ∧ s.plan.has 0x20 e.inst = true ∧ s.isOn 0x20 e.inst = true ∧ e.object = 0xFFFF ∧ e.arg 32 1 < 4 ∧
      e.arg 33 1 < 2 ∧ e.arg 34 1 < 32 ∧ e.arg 35 1 = 0 ∧ 1 ≤ e.arg 36 4 ∧ e.arg 36 4 ≤ 2000 ∧ e.zeroFrom 40 56 = true ∧
      (s.begun 0 e).mayRest e.inst = true) ∧
    (let s := withLane (inPort 0 5 0) 0 { base.lane 0 with test := some ⟨0, 0, 1, 0, 31, 0⟩ }
     s.live ∧ (s.lane 0).test = some ⟨0, 0, 1, 0, 31, 0⟩) := by
  unfold State.ripe State.live
  decide +kernel
theorem wit_inject : (let e := entry 0x2004 0 0xFFFF ([1, 1, 1, 0]); let s := cmd (inPort 0 5 0) e
    s.ripe 0x2004 0 0 e ∧ s.plan.has 0x20 e.inst = true ∧ s.isOn 0x20 e.inst = true ∧ e.object = 0xFFFF ∧ e.arg 32 1 < 5 ∧
      (s.begun 0 e).drivesLane e.inst (e.arg 32 1) = true ∧ 1 ≤ e.arg 33 1 ∧ 1 ≤ e.arg 34 2 ∧ e.zeroFrom 36 56 = true ∧
      (s.begun 0 e).portState e.inst = 5) := by
  unfold State.ripe State.live
  decide +kernel

def linked (s : State) (x : LinkSt) : State := s.setLink 0 x
theorem wit_safeRepeat : (let s := linked (later (inPort 0 2 0) 2000000) { base.link 0 with safe := some 1 }
    s.live ∧ (s.link 0).safe = some 1 ∧ s.drives = true ∧ s.portState 0 = 2 ∧ (s.link 0).safeTick + 2000000 ≤ s.ticks) := by
  unfold State.live
  decide +kernel
/-- A unit of a tandem pair, in STANDBY. -/
def standby (s : State) : State :=
  withF { s with plan := { s.plan with tandem := some ⟨7, 3, 0xFF, 0⟩ } } [fr .tndState 0 0 2]
theorem wit_epochRepeat : (let s := standby (later (inPort 0 2 0) 20000000)
    s.live ∧ s.drives = false ∧ s.plan.role 0 = 1 ∧ s.portState 0 = 2 ∧ (s.link 0).epochTick + 20000000 ≤ s.ticks) := by
  unfold State.live
  decide +kernel
theorem wit_timeSend : (let s := later (inPort 0 2 0) 200000000
    s.live ∧ s.portState 0 = 2 ∧ (s.link 0).stage ≠ 2 ∧ (s.link 0).timeTick + s.fld .linkXTimeMs 0 0 0 7 * 200000 ≤ s.ticks ∧ (s.link 0).stepLeft = 0) := by
  unfold State.live
  decide +kernel
/-- Port 1, an in-port, ACTIVE, seven echoes taken. -/
def inOne : State := (inPort 1 2 0).setLink 1 { base.link 1 with echoes := [1, 1, 1, 1, 1, 1, 1], skip := false }
/-- A packet as the far side's line bits on BK (spec/12 R362 to R367). -/
def onBk (d : List Byte) : List (List Bool) := portLines [4] [false] d
theorem wit_timeEcho : (let r := inOne.arrive 1 [0] (onBk (packet 6 2 0 1 0 (List.replicate 16 0)))
    (match r.1.receiveItem 1 0x06 (r.2.getD (false, [])).1 (r.2.getD (false, [])).2 with
     | (u, some pk) => r.2.isSome && pk.payload.length == 16 && zeros (slice pk.payload 8 8) && decide (7 ≤ (u.link 1).echoes.length)
     | _ => false) = true) := by decide +kernel
theorem wit_fenceRx : (let r := inOne.arrive 1 [0] (onBk (packet 9 2 0 1 0 (List.replicate 16 0)))
    (match r.1.receiveItem 1 0x09 (r.2.getD (false, [])).1 (r.2.getD (false, [])).2 with
     | (_, some pk) => r.2.isSome && pk.payload.length == 16 && decide (leAt pk.payload 0 2 < 4096) && zeros (slice pk.payload 2 6)
     | _ => false) = true) := by decide +kernel
theorem wit_partnerSilent : (let s := later (inPort 0 2 0) 300000000
    s.live ∧ s.portState 0 = 2 ∧ (s.link 0).silent = false ∧
      max (s.link 0).upTick ((s.link 0).statusTick.getD 0) + s.fld .linkXStatusMs 0 0 0 10 * 200000 ≤ s.ticks) := by
  unfold State.live
  decide +kernel
theorem wit_holdCap : base.live ∧ base.reached 0 0x20 0 ∧ 1 ≤ bf 1000 0 10 ∧ bf 1000 0 10 ≤ 1000 := by
  unfold State.live State.reached
  decide +kernel

def chkEntry (op : Nat) : FEntry := entry op 0 0xFFFF (le 8 0x1000 ++ le 4 8)
def chkCmd (op : Nat) : State := cmd base (chkEntry op)
theorem wit_checkAppend : (let e := chkEntry 0x0701; let s := chkCmd 0x0701
    s.ripe 0x0701 0 0 e ∧ s.plan.has 7 e.inst = true ∧ s.isOn 7 e.inst = true ∧ e.object = 0xFFFF ∧ 1 ≤ e.arg 40 4 ∧
      e.arg 40 4 ≤ 16777216 ∧ e.zeroFrom 44 56 = true) ∧
    (let r := ((chkCmd 0x0701).begun 0 (chkEntry 0x0701)).load 0 0x1000 8
     (match r with | (u, .ok d) => ((u.setPair .chkResultLo .chkResultHi 0 0 (crc (u.chkSpec 0) d)).store 0 0x1008
        (le (cdiv (u.chkSpec 0).width 8) (crc (u.chkSpec 0) d))).2 | _ => false) = true) := by
  unfold State.ripe State.live
  decide +kernel
theorem wit_checkVerify : (let e := chkEntry 0x0702; let s := chkCmd 0x0702
    s.ripe 0x0702 0 0 e ∧ s.plan.has 7 e.inst = true ∧ s.isOn 7 e.inst = true ∧ e.object = 0xFFFF ∧ 1 ≤ e.arg 40 4 ∧
      e.arg 40 4 ≤ 16777216 ∧ e.zeroFrom 44 56 = true) ∧
    (let r := ((chkCmd 0x0702).begun 0 (chkEntry 0x0702)).load 0 0x1000 8
     (match r with
      | (u, .ok d) =>
        (match (u.setPair .chkResultLo .chkResultHi 0 0 (crc (u.chkSpec 0) d)).load 0 0x1008 4 with
         | (_, .ok d') => decide (d' ≠ le (cdiv (u.chkSpec 0).width 8) (crc (u.chkSpec 0) d)) && decide (cdiv (u.chkSpec 0).width 8 = 4)
         | _ => false)
      | _ => false) = true) := by
  unfold State.ripe State.live
  decide +kernel
def cmpEntry (op : Nat) : FEntry := entry op 0 0xFFFF (le 8 0x1000 ++ le 8 0x2000 ++ le 2 8 ++ le 2 4 ++ le 2 1 ++ [0, 0])
def cmpCmd (op : Nat) : State := cmd base (cmpEntry op)
theorem wit_compress : (let e := cmpEntry 0x0601; let s := cmpCmd 0x0601
    s.ripe 0x0601 0 0 e ∧ s.plan.has 6 e.inst = true ∧ s.isOn 6 e.inst = true ∧ e.object = 0xFFFF ∧ cmpArgs e true = true) ∧
    (let e := cmpEntry 0x0601
     let g := cmpGeo e
     (match ((cmpCmd 0x0601).begun 0 e).fetchRows 0 0x1000 64 g.rows g.rowLen with
      | (u, .ok pic) =>
        let coded := g.coded 0 pic
        decide ((coded.filter fun c => c.2.1 == 1).length * 100 < u.fld .cmpXNoGainPct 0 0 0 7 * coded.length) &&
          (u.writePicture 0 0x2000 g 0 pic).2
      | _ => false) = true) := by
  unfold State.ripe State.live
  decide +kernel
theorem wit_noGain : (let s := withF (cmpCmd 0x0601) [fr .cmpXNoGainPct 0 0 0]
    let e := cmpEntry 0x0601
    let g := cmpGeo e
    s.ripe 0x0601 0 0 e ∧
    (match (s.begun 0 e).fetchRows 0 0x1000 64 g.rows g.rowLen with
     | (u, .ok pic) =>
       let coded := g.coded 0 pic
       decide (u.fld .cmpXNoGainPct 0 0 0 7 * coded.length ≤ (coded.filter fun c => c.2.1 == 1).length * 100)
     | _ => false) = true) := by
  unfold State.ripe State.live
  decide +kernel
/-- A store of SOLID blocks at 0x1000. -/
def solidStore : State :=
  let g := cmpGeo (cmpEntry 0x0602)
  { cmpCmd 0x0602 with bus := { (cmpCmd 0x0602).bus with mem := [(0x1000 + g.pixLen, 2)] } }
theorem wit_decompress : (let e := cmpEntry 0x0602; let s := solidStore
    s.ripe 0x0602 0 0 e ∧ s.plan.has 6 e.inst = true ∧ s.isOn 6 e.inst = true ∧ e.object = 0xFFFF ∧ cmpArgs e false = true) ∧
    (let e := cmpEntry 0x0602
     let g := cmpGeo e
     (match (solidStore.begun 0 e).fetchPicture 0 0x1000 g with
      | (u, .ok pic) =>
        let w := u.writeAll 0 (pic.mapIdx fun y row => (0x2000 + y * 64, row))
        w.2 && (match w.1.fetchBytes 0 (0x1000 + g.trailerOff) 64 with | (_, .ok _) => true | _ => false)
      | _ => false) = true) := by
  unfold State.ripe State.live
  decide +kernel

def atTime (s : State) (t : Word) : State := { s with bus := { s.bus with time := t } }
def subEntry : FEntry := entry 0x1001 1 0xFFFF ([0, 2] ++ le 2 1 ++ le 4 5 ++ le 4 0)
/-- Source 1, a host surface of 16 by 8 pixels with four buffers. -/
def surface : State := withF base [fr .srcCfg 1 0 (w32 (2 + 4 * 65536)), fr .srcSize 1 0 0x00080010]
theorem wit_submit : (let e := subEntry; let s := cmd surface e
    s.ripe 0x1001 0 0 e ∧ s.plan.has 0x10 e.inst = true ∧ s.isOn 0x10 e.inst = true ∧ e.object = 0xFFFF ∧
      (s.begun 0 e).srcKind e.inst = 2 ∧ (s.begun 0 e).submitArgs e = true ∧ (s.begun 0 e).bufState e.inst (e.arg 32 1) = 0 ∧
      ((s.begun 0 e).geo e.inst).store = 0 ∧ (e.arg 33 1).testBit 0 = false) := by
  unfold State.ripe State.live
  decide +kernel
theorem wit_submitOther : (let e := subEntry
    ((cmd (withF base [fr .srcCfg 1 0 (w32 (5 + 4 * 65536))]) e).begun 0 e).srcKind e.inst ≠ 2 ∧
      ((cmd (withF surface [fr .srcCfg 1 0 (w32 2)]) e).begun 0 e).submitArgs e = false ∧
      ((cmd (withF surface [fr .srcBufState 1 0 2]) e).begun 0 e).bufState e.inst (e.arg 32 1) ≠ 0) := by
  decide +kernel
theorem wit_srcCull : (let s := (later base 200000).setSrc 0 { base.src 0 with win := some ⟨0, 0, 1, 1, 0, 1⟩ }
    s.live ∧ (s.src 0).win = some ⟨0, 0, 1, 1, 0, 1⟩ ∧ 0 + 200000 ≤ s.ticks) := by
  unfold State.live
  decide +kernel
theorem wit_fill : (let f : FillSt := ⟨0, 0, 0, 1, 0, false, false, false, []⟩
    let s := (later base 500000000).setSrc 0 { base.src 0 with fill := some f }
    s.live ∧ (s.src 0).fill = some f ∧ f.since + s.fld .srcXFillMs 0 0 0 11 * 200000 < s.ticks ∧ s.wb 0 = none ∧ (s.dec 0).dpb = [] ∧
      (∀ c, s.core c = none)) := by
  refine ⟨by unfold State.live; decide +kernel, rfl, by decide +kernel, rfl, rfl, fun c => rfl⟩
theorem wit_fillDec : base.live ∧ (base.src 0).fill = none ∧ base.wb 0 = none := by
  unfold State.live
  decide +kernel
theorem wit_fillWb : (let s := (later base 500000000).setWb 4 (some ⟨0, 0, 0, 1, 0, 0, [], [], false, []⟩)
    (s.src 4).fill = none ∧ (s.wb 4).isSome = true ∧ 0 + s.fld .srcXFillMs 4 0 0 11 * 200000 < s.ticks ∧ (s.dec 4).dpb = [] ∧
      (∀ c, s.core c = none)) := by
  refine ⟨rfl, by decide +kernel, by decide +kernel, rfl, fun c => rfl⟩
/-- Source 3, the test source, of 8 by 4 pixels. -/
def tester : State := withF base [fr .srcCfg 3 0 (w32 (5 + 4 * 65536)), fr .srcSize 3 0 0x00040008, fr .srcTest 3 0 0x00010000]
theorem wit_portTest : tester.live ∧ tester.srcKind 3 = 5 ∧ tester.isOn 0x10 3 = true ∧ (tester.src 3).testAt ≤ tester.ticks ∧
    (tester.setSrc 3 { tester.src 3 with testN := 1, testAt := 200000 }).freeBuf 3 (fun _ => true) = some 0 ∧
    (withF tester [fr .srcCfg 3 0 5]).freeBuf 3 (fun _ => true) = none := by
  unfold State.live
  decide +kernel
theorem wit_credit : (let s := withF base [fr .portState 2 0 2]
    s.live ∧ ((s.portSource 2).map SrcEnt.kind) = some 0 ∧ s.portState 2 = 2) ∧
    (let s := withF base [fr .portState 1 0 2]
     ((s.portSource 1).map SrcEnt.kind) = some 1 ∧ s.portState 1 = 2 ∧ (s.src 0).waiting = [] ∧ s.bufState 0 0 = 0 ∧ s.isOn 0x10 0 = true ∧
       ((List.range 4).any fun b => (withF s [fr .srcBufState 0 0 2, fr .srcBufState 0 1 2, fr .srcBufState 0 2 2, fr .srcBufState 0 3 2]).bufState
         0 b == 0) = false) := by
  unfold State.live
  decide +kernel

/-- Port p ACTIVE with its source (5 on port 2, of 4 by 1 pixels; 0 on port 1, a surface of 4 by 1), four buffers, a free credit limit. -/
def feeding (p n kind : Nat) : State :=
  (withB (withF base [fr .portState p 0 2, fr .srcCfg n 0 (w32 (kind + p * 256 + 4 * 65536)), fr .srcSize n 0 0x00010004,
    fr .linkCreditLimit p 0 1024, fr .srcFormat n 0 0]) ([on 0x20 p, on 0x10 n] ++ grant (84 + p))).setLink p { base.link p with skip := false }
def raw (typ stream : Nat) (payload : List Byte) : List Byte := packet typ 2 stream 1 0 payload
def opened (p n kind : Nat) (parts : List (Nat × Nat × List Byte)) : State :=
  (feeding p n kind).setSrc n { base.src n with fill := some ⟨0, 0, 0, 1, 0, false, false, false, parts⟩ }
theorem wit_rasterStart : (feeding 2 5 0).freeBuf 5 (fun _ => true) = some 0 ∧ base.freeBuf 0 (fun _ => true) = none ∧
    (match (feeding 2 5 0).picRx 2 0x02 0 false (raw 2 1 (List.replicate 16 0)) with
     | (_, some (n, pk)) => decide (n = 5 ∧ pk.payload.length = 16 ∧ byteAt pk.payload 10 < 4)
     | _ => false) = true := by decide +kernel
theorem wit_rasterLine :
    (match (opened 2 5 0 []).picRx 2 0x01 0 false (raw 1 1 (le 2 0 ++ le 2 0 ++ le 2 4 ++ le 2 0 ++ List.replicate (4 * bppOf 0) 7)) with
     | (u, some (n, pk)) =>
       let g := u.geo n
       decide ((u.src n).fill.map FillSt.alive = some pk.alive ∧ leAt pk.payload 6 2 = 0 ∧ leAt pk.payload 0 2 < g.h ∧
         leAt pk.payload 2 2 + leAt pk.payload 4 2 ≤ g.w ∧ pk.payload.length = 8 + leAt pk.payload 4 2 * bppOf g.fmt ∧ g.store = 0)
     | _ => false) = true ∧
    (match (feeding 2 5 0).picRx 2 0x01 0 false (raw 1 1 (le 2 0 ++ le 2 0 ++ le 2 4 ++ le 2 0 ++ List.replicate (4 * bppOf 0) 7)) with
     | (u, some (n, pk)) => decide ((u.src n).fill = none ∧ 8 ≤ pk.payload.length ∧ leAt pk.payload 6 2 = 0)
     | _ => false) = true ∧
    (match (opened 2 5 0 [(0, 0, [])]).picRx 2 0x01 0 false (raw 1 1 (le 2 0 ++ le 2 0 ++ le 2 4 ++ le 2 0 ++ List.replicate (4 * bppOf 0) 7)) with
     | (u, some (n, pk)) => decide ((u.src n).fill.map (fun f => (f.parts.any fun q => q.1 == leAt pk.payload 0 2 && q.2.1 == leAt pk.payload 2 2)) = some true)
     | _ => false) = true ∧
    (match (opened 2 5 0 []).picRx 2 0x01 0 false (raw 1 1 (le 2 1 ++ le 2 0 ++ le 2 4 ++ le 2 0 ++ List.replicate (4 * bppOf 0) 7)) with
     | (u, some (n, pk)) => decide ((u.src n).fill.map FillSt.alive = some pk.alive ∧ (u.geo n).h ≤ leAt pk.payload 0 2)
     | _ => false) = true := by decide +kernel
theorem wit_rasterEnd :
    (match (opened 2 5 0 []).picRx 2 0x03 0 false (raw 3 1 (List.replicate 16 0)) with
     | (u, some (n, pk)) => decide ((u.src n).fill.map FillSt.alive = some pk.alive ∧ pk.payload.length = 16 + 4 * leAt pk.payload 12 2 ∧
         leAt pk.payload 14 2 = 0 ∧ leAt pk.payload 4 4 = 0)
     | _ => false) = true := by decide +kernel
theorem wit_tile :
    (match (feeding 1 0 1).picRx 1 0x07 1 false (raw 7 1 ([0, 0, 0, 0, 0, 0, 1, 0] ++ List.replicate 4 0 ++ List.replicate (4 * bppOf 0) 7)) with
     | (u, some (n, pk)) =>
       let g := u.geo n
       decide ((u.src n).fill = none ∧ (u.src n).waiting = [] ∧ pk.typ = 7 ∧ (u.freeBuf n fun _ => true).isSome = true ∧
         ((u.openFill n pk false).src n).fill.map FillSt.parts = some [] ∧ byteAt pk.payload 7 = 0 ∧
         leAt pk.payload 0 2 < g.tw ∧ leAt pk.payload 2 2 < g.th ∧ byteAt pk.payload 4 = g.fmt ∧
         byteAt pk.payload 5 + byteAt pk.payload 6 ≤ min 64 (g.h - 64 * leAt pk.payload 2 2) ∧
         pk.payload.length = 12 + byteAt pk.payload 6 * min 64 (g.w - 64 * leAt pk.payload 0 2) * bppOf g.fmt)
     | _ => false) = true ∧
    (match (withF (feeding 1 0 1) [fr .srcCfg 0 0 (w32 (1 + 256))]).picRx 1 0x07 1 false
        (raw 7 1 ([0, 0, 0, 0, 0, 0, 1, 0] ++ List.replicate 4 0 ++ List.replicate (4 * bppOf 0) 7)) with
     | (u, some (n, _)) => decide ((u.src n).fill = none ∧ (u.src n).waiting = [] ∧ u.freeBuf n (fun _ => true) = none)
     | _ => false) = true := by decide +kernel
theorem wit_damage :
    (match (opened 1 0 1 [(0, 0, List.replicate (4 * bppOf 0) 7)]).picRx 1 0x08 1 false
        (raw 8 1 (le 4 0 ++ le 4 1 ++ le 2 4 ++ le 2 1 ++ le 4 0)) with
     | (u, some (n, pk)) =>
       let g := u.geo n
       decide ((u.src n).fill.map FillSt.alive = some pk.alive ∧ pk.payload.length = 16 ∧ leAt pk.payload 12 4 = 0 ∧
         (u.src n).waiting = [] ∧ pk.typ = 8 ∧ leAt pk.payload 4 4 = g.tiles ∧ g.tiles = 1 ∧ leAt pk.payload 8 2 = g.w ∧ leAt pk.payload 10 2 = g.h)
     | _ => false) = true ∧
    (match (withF (opened 1 0 1 []) [fr .srcState 0 0 8]).picRx 1 0x08 1 false
        (raw 8 1 (le 4 0 ++ le 4 0 ++ le 2 4 ++ le 2 1 ++ le 4 0)) with
     | (u, some (n, pk)) =>
       let g := u.geo n
       decide ((u.src n).fill.map FillSt.alive = some pk.alive ∧ leAt pk.payload 4 4 = 0 ∧ u.newest n = some 0) &&
         (match u.fetchPicture 85 (u.bufAddr n 0) g with
          | (t, .ok _) => (match t.fetchBytes 85 (t.bufAddr n 0 + g.checkOff) (4 * g.tiles) with | (_, .ok _) => true | _ => false)
          | _ => false)
     | _ => false) = true ∧
    (match (opened 1 0 1 []).picRx 1 0x08 1 false (raw 8 1 (le 4 0 ++ le 4 1 ++ le 2 4 ++ le 2 1 ++ le 4 0)) with
     | (u, some (n, pk)) => decide ((u.src n).fill.map FillSt.alive = some pk.alive ∧ leAt pk.payload 4 4 ≠ 0)
     | _ => false) = true ∧
    (match (opened 1 0 1 []).picRx 1 0x08 1 false (raw 8 1 (le 4 0 ++ le 4 0 ++ le 2 4 ++ le 2 1 ++ le 4 0)) with
     | (u, some (n, pk)) => decide ((u.src n).fill.map FillSt.alive = some pk.alive ∧ leAt pk.payload 4 4 = 0 ∧ u.newest n = none)
     | _ => false) = true := by decide +kernel

/-- Source 2, a coded stream; ring 2 BITSTREAM; the stream starting. -/
def streaming (s : State) : State :=
  withB (withF s [fr .srcCfg 2 0 (w32 (3 + 4 * 65536)), fr .srcFormat 2 0 6, fr .decRing 2 0 2, fr .decXSkip 2 0 0]) ([br .ringCtl 2 0 0x602] ++ grant 4)
theorem wit_bind : (let s := withB (streaming base) [br .fnCtl 0x11 2 4]
    s.live ∧ (s.plan.stream 2).map StreamEnt.host = some 0 ∧ s.fnState 0x11 2 = 1 ∧ s.fld .decRing 2 0 0 9 < 256 ∧
      s.plan.ringHost (s.fld .decRing 2 0 0 9) = some 0 ∧ s.isOn 2 (s.fld .decRing 2 0 0 9) = true ∧
      s.bus.ringKind (s.fld .decRing 2 0 0 9) = 2 ∧ s.isOn 0x10 2 = true ∧ s.fld .srcFormat 2 0 0 4 = 6 ∧
      (s.pickCore 1000).isSome = true) := by
  unfold State.live
  decide +kernel
theorem wit_bindFails : (let s := withB (streaming base) [br .fnCtl 0x11 2 4]
    s.plan.ringHost ((withF s [fr .decRing 2 0 9]).fld .decRing 2 0 0 9) ≠ some 0 ∧ (withF s [fr .srcFormat 2 0 0]).fld .srcFormat 2 0 0 4 = 0 ∧
      (withB s [br .fnCtl 0x10 2 0]).isOn 0x10 2 = false ∧ ({ s with coreOut := List.range 24 } : State).pickCore 1000 = none) := by
  decide +kernel
/-- Parameter sets that source 2 takes, and an access unit of no IRAP picture. -/
def sps : SpsInfo := ⟨1, false, 0, 93, 1, 8, 64, 64, 8, 8, 0, 0, false, false, 1⟩
def unitInfo : AuInfo := ⟨0, 0, true, false, sps⟩
/-- An access unit of 8 bytes at address 0, that begins with a start code. -/
def unitEntry : FEntry :=
  { k := 0, phase := .ready, since := 0, met := false,
    data := le 8 0 ++ le 4 8 ++ le 4 0 ++ le 2 1 ++ [0, 0] ++ le 4 0 ++ List.replicate 40 0 }
def decoding : State :=
  let s := withF (streaming base) [fr .decStatus 2 0 1, fr .srcSize 2 0 0x00080008]
  { s with bus := { s.bus with rings := [(2, { RingSt.init with fetched := [unitEntry] })], mem := [(2, 1), (3, 9)] } }
/-- What the checks of R205 see of that unit in a state. -/
def unitSeen (s : State) : State × Nat × List Byte :=
  let v := { s with tnd := { s.tnd with streams := [] } }
  (v.journal 8 0x11 2 (le 2 2 ++ le 2 0 ++ le 4 0 ++ slice unitEntry.data 0 24)).readUnit 0 unitEntry
theorem wit_pictureStart : decoding.live ∧ decoding.core 0 = none ∧ (decoding.countWaits 0).pickStream 0 = some (2, unitEntry) ∧
    entryOk unitEntry = true ∧ entryOk { unitEntry with data := [] } = false ∧ base.core 0 = none ∧
    (base.countWaits 0).pickStream 0 = none ∧
    (let u := unitSeen decoding
     u.1.syncState 2 = 1 ∧ u.2.1 = 0 ∧ startCode u.2.2 = true ∧ u.1.spsReason 2 sps = 0 ∧ bit (u.1.reg .decXSkip 2 0) 0 = false ∧
       (u.1.freeBuf 2 (u.1.decodable 2)).isSome = true ∧ u.1.spsReason 2 { sps with flexible := true } = 2) := by
  unfold State.live
  decide +kernel
theorem wit_pictureDiscarded : (unitSeen (withF decoding [fr .decStatus 2 0 0])).1.syncState 2 = 0 ∧
    (unitSeen (withF decoding [fr .decStatus 2 0 3])).1.syncState 2 = 3 ∧
    (let u := (unitSeen (withF (atTime decoding 1000000) [fr .decXSkip 2 0 1, fr .srcLimit 2 0 0])).1
     u.syncState 2 = 1 ∧ bit (u.reg .decXSkip 2 0) 0 = true ∧ (u.fld .srcLimit 2 0 0 11 : Int) * 1000000 < u.age (w32 (unitEntry.arg 12 4)) ∧
       byteAt unitEntry.data 18 = 0) := by
  decide +kernel
theorem wit_pictureEnd : (let x : CoreSt := ⟨2, 0, 0, 1, 0, 0, 0, 0, 0, 0, 0, false, false, 8, 64, 64, 0⟩
    let s := decoding.setCore 0 (some x)
    let o : PicObs := ⟨64, [0], [], [], false, [], [], [], 0, 0, 0, 0, true, false, false, [], 0, true⟩
    s.live ∧ s.core 0 = some x ∧ picLost x o 0 0 = true ∧ s.subst 2 = none ∧
      (withF s [fr .decFlags 2 0 0x00110000]).subst 2 = some 1 ∧
      (match s.fetchBlock 4 (s.bufAddr 2 1) (s.geo 2) 0 0 with | (_, .ok _) => true | _ => false) = true) := by
  unfold State.live
  decide +kernel

def layEntry : FEntry := entry 0x1201 0 1 ([1, 1, 0, 0] ++ le 2 1023 ++ le 2 0 ++ le 2 0 ++ le 2 64 ++ le 2 64 ++ le 2 0 ++ le 2 0 ++ le 2 4 ++ le 2 64)
theorem wit_layerSet : (let e := layEntry; let s := cmd base e
    s.ripe 0x1201 0 0 e ∧ s.plan.has 0x12 e.inst = true ∧ s.isOn 0x12 e.inst = true ∧ e.object < s.depth e.inst ∧
      layerArgsOk s.plan e = true ∧ (ratioOk (layerArgs e).cropW (layerArgs e).dstW && ratioOk (layerArgs e).cropH (layerArgs e).dstH) = false) ∧
    (let e := entry 0x1201 0 3 ([1, 1, 0, 0] ++ le 2 1023 ++ le 2 0 ++ le 2 0 ++ le 2 64 ++ le 2 64 ++ le 2 0 ++ le 2 0 ++ le 2 8 ++ le 2 64)
     let s := cmd base e
     s.ripe 0x1201 0 0 e ∧ e.object < s.depth e.inst ∧ layerArgsOk s.plan e = true ∧
       (ratioOk (layerArgs e).cropW (layerArgs e).dstW && ratioOk (layerArgs e).cropH (layerArgs e).dstH) = true) := by
  unfold State.ripe State.live
  decide +kernel
theorem wit_layerFence : (let e := entry 0x1202 0 3 (le 2 4095 ++ List.replicate 6 0 ++ le 8 5); let s := cmd base e
    s.ripe 0x1202 0 0 e ∧ e.object < s.depth e.inst ∧ e.arg 32 2 < 4096 ∧ e.zeroFrom 34 40 = true ∧ e.zeroFrom 48 56 = true) := by
  unfold State.ripe State.live
  decide +kernel
/-- Taps 256, 0, … of all 64 phases at address 0x1000, which head 0 may read; expert level. -/
def coeffMem : List Host.Cell :=
  ((List.range 64).map fun p => (0x1000 + 16 * p + 1, (1 : Byte))) ++ (List.range 64).map fun p => (0x1400 + 12 * p + 1, 1)
def coeffs (e : FEntry) : State :=
  let s := withB (cmd base e) ([br .fnCtl 0x12 0 0xB] ++ grant 36)
  { s with bus := { s.bus with mem := coeffMem } }
theorem wit_coeff : (let e := entry 0x1203 0 3 (le 8 0x1000); let s := coeffs e
    s.ripe 0x1203 0 0 e ∧ s.isOn 0x12 e.inst = true ∧ e.object < s.depth e.inst ∧ e.arg 32 8 % 64 = 0 ∧ e.zeroFrom 40 56 = true ∧
      (s.begun 0 e).expert 0x12 e.inst = true) ∧
    (let e := entry 0x1204 0 3 (le 8 0x1000); let s := coeffs e
     s.ripe 0x1204 0 0 e ∧ e.arg 32 8 % 64 = 0 ∧ e.zeroFrom 40 56 = true ∧ ((s.begun 0 e).store 36 0x1000 [0]).2 = true) := by
  unfold State.ripe State.live
  decide +kernel
def coeffEntry : FEntry := entry 0x1203 0 3 (le 8 0x1000)
theorem wit_coeffTable : (match ((coeffs coeffEntry).begun 0 coeffEntry).load 36 0x1000 1792 with
    | (_, .ok d) => (coeffTable d).isSome | _ => false) = true := by decide +kernel
theorem wit_cursor : (let e := entry 0x1205 0 32 (le 8 0x1000 ++ [1, 128] ++ le 2 1); let s := coeffs e
    s.ripe 0x1205 0 0 e ∧ e.object = 32 ∧ e.arg 32 8 % 64 = 0 ∧ 1 ≤ e.arg 40 1 ∧ e.arg 40 1 ≤ 128 ∧ 1 ≤ e.arg 41 1 ∧
      e.arg 41 1 ≤ 128 ∧ cdiv (e.arg 40 1 * 4) 64 ≤ e.arg 42 2 ∧ e.zeroFrom 44 56 = true ∧
      (match (s.begun 0 e).fetchRows 36 0x1000 64 128 4 with | (_, .ok _) => true | _ => false) = true) := by
  unfold State.ripe State.live
  decide +kernel
theorem wit_commit : (let e := entry 0x1206 0 33 (le 4 15); let s := cmd base e
    s.ripe 0x1206 0 0 e ∧ e.object = 33 ∧ e.arg 32 4 < 2 ^ s.depth e.inst ∧ e.zeroFrom 36 56 = true ∧
      ((((List.range 4).map fun l => s.layerNext 0 l).filter LayerCfg.enabled).map LayerCfg.weight).sum ≤ s.depth 0) ∧
    (let e := entry 0x1206 0 33 (le 4 15)
     let c : LayerCfg := ⟨1, 1, 0, 0, 0, 1023, 0, 0, 64, 64, 0, 0, 8, 8⟩
     let s := (cmd base e).setHead 0 { base.head 0 with pend := { PendSt.init with layers := [(0, c)] } }
     s.ripe 0x1206 0 0 e ∧ s.depth 0 < ((((List.range 4).map fun l => s.layerNext 0 l).filter LayerCfg.enabled).map LayerCfg.weight).sum) := by
  unfold State.ripe State.live
  decide +kernel

theorem wit_limitSet : (let e := entry 0x1301 0 3 (le 2 1000); let s := cmd base e
    s.ripe 0x1301 0 0 e ∧ s.plan.has 0x13 e.inst = true ∧ s.isOn 0x13 e.inst = true ∧ e.object < s.depth e.inst ∧
      e.arg 34 1 = 0 ∧ e.zeroFrom 35 56 = true ∧ 1 ≤ e.arg 32 2 ∧ e.arg 32 2 ≤ 2000 ∧
      (s.plan.freshFor e.inst ((s.begun 0 e).layer 0 3).src).2.1 ≤ 1000 ∧ 1000 ≤ (s.plan.freshFor e.inst ((s.begun 0 e).layer 0 3).src).2.2) ∧
    (let e := entry 0x1301 0 0 (le 2 1001); let s := cmd base e
     s.ripe 0x1301 0 0 e ∧ e.arg 32 2 ≤ 2000 ∧ (s.plan.freshFor e.inst ((s.begun 0 e).layer 0 0).src).2.2 < e.arg 32 2) := by
  unfold State.ripe State.live
  decide +kernel
theorem wit_limitDefault : (let e := entry 0x1301 0 3 (le 2 0 ++ [1]); let s := cmd base e
    s.ripe 0x1301 0 0 e ∧ e.object < s.depth e.inst ∧ e.arg 34 1 = 1 ∧ e.zeroFrom 35 56 = true) ∧
    (let e := entry 0x1303 0 0xFFFF []
     let s := cmd base e
     s.ripe 0x1303 0 0 e ∧ (match s.plan.head e.inst with | some p => p.ports.any (s.begun 0 e).witSafe | none => true) = false ∧
       bit (((withF s [fr .witStatus 0 0 2]).begun 0 e).reg .witStatus e.inst 0) 6 = false) ∧
    (base.setHead 0 { base.head 0 with tiles := [(0, 1)] }).tileBad 0 0 = true := by
  unfold State.ripe State.live
  decide +kernel
theorem wit_policySet : (let e := entry 0x1302 0 3 [255, 6]; let s := cmd base e
    s.ripe 0x1302 0 0 e ∧ e.object < s.depth e.inst ∧ e.arg 33 1 < 8 ∧ e.arg 33 1 % 4 < 3 ∧ e.zeroFrom 34 56 = true) := by
  unfold State.ripe State.live
  decide +kernel
theorem wit_rearm : (let e := entry 0x1303 0 0xFFFF []
    let s := (withF (cmd base e) [fr .witStatus 0 0 0x42]).setLink 0 { base.link 0 with safe := some 0 }
    s.ripe 0x1303 0 0 e ∧ s.isOn 0x13 e.inst = true ∧ e.object = 0xFFFF ∧ e.zeroFrom 32 56 = true ∧
      (match s.plan.head e.inst with | some p => p.ports.any (s.begun 0 e).witSafe | none => false) = true ∧
      bit ((s.begun 0 e).reg .witStatus e.inst 0) 6 = true) := by
  unfold State.ripe State.live
  decide +kernel
theorem wit_cursorPos : base.live ∧ base.reached 0 0x12 0 ∧ base.reached 3 0x13 0 ∧
    (let s := later (withF base [fr .cursorCtl 0 0 0x00010000]) 200000
     s.isOn 0x12 0 = true ∧ s.fld .cursorCtl 0 0 16 11 ≠ 0 ∧ (s.head 0).curHide = false ∧
       (s.head 0).posTick + s.fld .cursorCtl 0 0 16 11 * 200000 ≤ s.ticks) := by
  unfold State.live State.reached
  decide +kernel

def modeEntry : FEntry :=
  entry 0x1401 0 0xFFFF (le 2 256 ++ le 2 40 ++ le 2 40 ++ le 2 64 ++ le 2 64 ++ le 2 8 ++ le 2 8 ++ le 2 8 ++ [0, 0, 0, 0] ++ le 4 0)
/-- Head 0 of 256 pixels by 64 lines on port 0, ACTIVE with four lanes; its group at a rate. -/
def wide (s : State) (rate : Nat) : State :=
  withF { s with plan := { s.plan with heads := [⟨0, 0, 255, 0, 512, 512, 1000, 8, 4, false, true, true, 0⟩] } }
    [fr .grpRate 0 0 (w32 rate), fr .portState 0 0 0x1302]
theorem wit_modeCommit : (let e := modeEntry; let s := wide (cmd base e) 800000
    s.ripe 0x1401 0 0 e ∧ s.plan.has 0x14 e.inst = true ∧ e.object = 0xFFFF ∧ e.zeroFrom 49 52 = true ∧
      (match s.plan.head 0 with
       | some p =>
         let m := modeArgs e
         let rate := ((s.begun 0 e).reg .grpRate 0 p.group).toNat
         modeRanges p m rate && !modeBeyond p m rate && s.isOn 0x14 0 && (p.ports.all fun q => 4 ≤ (s.begun 0 e).lanesOf q) &&
           (p.ports.all fun q => loadFits m (p.portWidth m) rate 4 ((s.begun 0 e).rateOf q) false)
       | none => false) = true) ∧
    (let e := modeEntry; let s := withB (wide (cmd base e) 800000) [br .fnCtl 0x14 0 0]
     s.ripe 0x1401 0 0 e ∧ (s.begun 0 e).fnState 0x14 0 = 0 ∧
      (match s.plan.head 0 with
       | some p => p.ports.all fun q => loadFits (modeArgs e) (p.portWidth (modeArgs e)) 800000 4
           (((s.plan.port q).map PortEnt.rate).getD 0) false
       | none => false) = true) := by
  unfold State.ripe State.live
  decide +kernel
theorem wit_modeRefused : (let e := modeEntry; let s := wide (cmd base e) 800000
    (match s.plan.head 0 with
     | some p => decide (modeRanges p { modeArgs e with hact := 0 } 800000 = false ∧ modeBeyond { p with maxHeight := 1 } (modeArgs e) 800000 = true ∧
         modeRanges { p with maxHeight := 1 } (modeArgs e) 800000 = true ∧ (s.begun 0 e).fnState 0x14 0 = 2 ∧
         (p.ports.any fun q => decide ((withF s [fr .portState 0 0 0x302]).lanesOf q < 4)) = true ∧
         (withB s [br .fnCtl 0x14 0 5]).fnState 0x14 0 = 1)
     | none => false) = true) := by
  decide +kernel
/-- Three curves whose last step is 256, at address 0x1000. -/
def curves (e : FEntry) : State :=
  let s := withB (cmd base e) (grant 36)
  { s with bus := { s.bus with mem := [(0x17FF, 1), (0x1FFF, 1), (0x27FF, 1)] } }
def lutEntry : FEntry := entry 0x1402 0 2 (le 8 0x1000)
theorem wit_lutLoad : (curves lutEntry).ripe 0x1402 0 0 lutEntry ∧ lutEntry.object < 3 ∧ lutEntry.arg 32 8 % 64 = 0 ∧
    lutEntry.zeroFrom 40 56 = true := by
  unfold State.ripe State.live
  decide +kernel
theorem wit_lutTable : (match ((curves lutEntry).begun 0 lutEntry).load 36 0x1000 6144 with
    | (_, .ok d) => (lutTable d).isSome | _ => false) = true := by decide +kernel
theorem wit_lutRead : (let e := entry 0x1403 0 0 (le 8 0x1000); let s := withB (cmd base e) (grant 36)
     s.ripe 0x1403 0 0 e ∧ e.object < 3 ∧ e.arg 32 8 % 64 = 0 ∧ e.zeroFrom 40 56 = true ∧
       ((s.begun 0 e).store 36 0x1000 (((List.range 3072).map fun i => i % 1024).flatMap fun v => le 2 v)).2 = true) := by
  unfold State.ripe State.live
  decide +kernel
def aMode : ModeSt := ⟨256, 40, 40, 64, 64, 8, 8, 8, 0, 0⟩
theorem wit_headStart : (let s := (withB (wide base 800000) [br .fnCtl 0x14 0 4]).setHead 0 { base.head 0 with mode := some aMode }
    s.live ∧ s.fnState 0x14 0 = 1 ∧ (s.head 0).mode = some aMode ∧
      (match s.plan.head 0 with | some e => (e.ports.all fun p => s.portState p == 2) && s.reg .grpRate 0 e.group != 0 | none => false) = true) := by
  unfold State.live
  decide +kernel
theorem wit_ambient : (let s := (later base 200000000000).setHead 0 { base.head 0 with amb := [some 0, none, none, none], ambTick := some 0 }
    s.live ∧ s.isOn 0x14 0 = true ∧ bit (s.reg .headCtl 0 0) 1 = false ∧ (s.head 0).stepTick = none ∧ (s.head 0).bankNext = none ∧
      s.fld .headStatus 0 0 6 2 = 0 ∧ (withF s [fr .headStatus 0 0 0x40]).fld .headStatus 0 0 6 2 = 1 ∧
      (withF s [fr .headStatus 0 0 0x80]).fld .headStatus 0 0 6 2 = 2 ∧ (s.head 0).amb.getD 0 none = some 0 ∧ 0 + (s.head 0).ambDwell ≤ s.ticks ∧
      (s.head 0).ambTick = some 0) := by
  unfold State.live
  decide +kernel

def headEnt : HeadEnt := ⟨0, 0, 255, 0, 512, 512, 1000, 8, 4, false, true, true, 0⟩
/-- Head 0 with a mode, due to latch at time 0. -/
def due (skip : Bool) : State :=
  (withF (wide base 800000) [fr .headStatus 0 0 (w32 (8 * b2n skip))]).setHead 0
    { base.head 0 with mode := some aMode, next := some 0, skip := skip }
theorem wit_headLatch : (let s := due true
    s.live ∧ s.plan.head 0 = some headEnt ∧ (s.head 0).next = some 0 ∧ (s.head 0).mode = some aMode ∧ s.isOn 0x14 0 = true ∧
      s.leavesAtLatch 0 = false ∧ atOrAfter s.now 0 = true ∧ bit (s.reg .headStatus 0 0) 3 = true ∧ (s.head 0).skip = true ∧
      atOrAfter s.now 5 = false) ∧
    (let s := due false
     s.live ∧ s.leavesAtLatch 0 = false ∧ bit (s.reg .headStatus 0 0) 3 = false) ∧
    (let s := { due false with wdn := { (due false).wdn with serviceStep := some (0, 0, 0, [0]) } }
     s.live ∧ s.latchDue 0 = true) := by
  unfold State.live
  decide +kernel
def flipOf : FlipSt := ⟨0, ⟨1, 1, 0, 0, 0, 1023, 0, 0, 8, 8, 0, 0, 8, 8⟩, true, true, 0, some 2⟩
theorem wit_flip : flipOf.buf = some 2 := rfl
/-- Head 0 in a frame of 256 pixels by 64 lines that begins at time 0. -/
def framed : State := (due false).beginFrame headEnt aMode 0 1 []
theorem wit_stripStart : framed.live ∧ (framed.head 0).frame.isSome = true ∧ (framed.head 0).hold = none ∧
    (match (framed.head 0).frame with
     | some f => !f.blank && decide (f.started < f.strips ∧ f.complete = f.started ∧ f.started < f.freed + 3) && atOrAfter framed.now f.time
     | none => false) = true := by
  unfold State.live
  decide +kernel
/-- A layer of head 0 that shows buffer 0 of source 1, 8 by 8 pixels at address 0. -/
def layerAt : LatLayer :=
  { l := 0, cfg := ⟨1, 1, 0, 0, 0, 1023, 0, 0, 8, 8, 0, 0, 8, 8⟩, valid := true, cap := 0, limit := 1000000000, tag := 0, addr := 0,
    w := 8, h := 8, fmt := 0, store := 0, doubt := false, degraded := false, freeze := 0, das := false, outside := false,
    bank := BankSt.init, src := 1, buf := 0 }
def composing (ls : List LatLayer) : State := framed.onFrame 0 fun f => { f with started := 1, masks := [0], layers := ls }
theorem wit_column : (match ((composing []).head 0).frame with
     | some f => decide (0 < f.started ∧ f.complete ≠ f.started ∧ 3 < f.colsN) && f.cols.isEmpty && f.doubts.isEmpty &&
         (composing []).mayCompose 0 0 3 1 f && !(composing []).mayCompose 0 0 3 9 f && !(composing []).tileBad 0 3
     | none => false) = true ∧
    (match ((composing []).onFrame 0 fun f => { f with doubts := [(3, 7)] }).head 0 |>.frame with
     | some f => f.doubts.any fun d => d.1 == 3
     | none => false) = true ∧
    (let s := withB (composing [layerAt]) (grant 36)
     match (s.head 0).frame with
     | some f => (f.visible 0 0 (f.masks.getD 0 0) == [layerAt]) && f.stateOf layerAt 0 != 0 &&
         (s.fetchColumn 0 f 0 0 [layerAt]).2.2 == 0 && ((composing [layerAt]).fetchColumn 0 f 0 0 [layerAt]).2.2 != 0
     | none => false) = true := by decide +kernel
theorem wit_stripComplete : (let s := framed.onFrame 0 fun f => { f with started := 1, masks := [0], cols := (List.range 4).map fun c => ⟨0, c, [], [], []⟩ }
    match (s.head 0).frame with
    | some f => f.started == f.complete + 1 && (List.range f.colsN).all fun c => f.cols.any fun q => q.strip == f.complete && q.col == c
    | none => false) = true := by decide +kernel

/-- That frame with read-out at strip `r` begun, `c` strips complete. -/
def reading (r c : Nat) : State :=
  { (framed.onFrame 0 fun f => { f with started := c + 1, complete := c, readBegun := r, freed := r, masks := List.replicate (c + 1) 0 }) with
    bus := { framed.bus with time := 1000000000 } }
theorem wit_readStart : (match ((reading 0 1).head 0).frame with
     | some f => decide (f.readBegun < f.strips ∧ f.freed = f.readBegun ∧ f.readBegun < f.complete) &&
         atOrAfter (reading 0 1).now (f.readAt f.readBegun)
     | none => false) = true ∧
    (let s := reading 0 0
     match (s.head 0).frame with
     | some f =>
       decide (f.blank = false ∧ f.complete = f.readBegun ∧ f.readBegun < f.started) && atOrAfter s.now (f.readAt 0) &&
         f.cols.isEmpty
     | none => false) = true := by decide +kernel
theorem wit_slotFree : (let s := (reading 0 1).onFrame 0 fun f => { f with readBegun := 1 }
    s.plan.head 0 = some headEnt ∧
    (match (s.head 0).frame with
     | some f => decide (f.readBegun = f.freed + 1) && atOrAfter s.now (f.freeAt f.freed) && f.wb.isNone
     | none => false) = true) ∧
    (match ((reading 0 1).head 0).frame with | some f => decide (f.readBegun ≠ f.freed + 1) | none => false) = true ∧
    (match (((reading 0 1).onFrame 0 fun f => { f with readBegun := 1, wb := some (4, 0, 0, false) }).head 0).frame with
     | some f => f.wb == some (4, 0, 0, false) | none => false) = true := by decide +kernel
theorem wit_frameEnd : (let s := framed.onFrame 0 fun f => { f with freed := 4, readBegun := 4 }
    (match (s.head 0).frame with
     | some f => !f.ended && f.freed == f.strips
     | none => false) = true) := by decide +kernel
theorem wit_doubtWin : (let s := (later base 200000).setHead 0 { base.head 0 with doubtWin := some (0, 0, 1, 3, 1) }
    s.live ∧ (s.head 0).doubtWin = some (0, 0, 1, 3, 1) ∧ 0 + 200000 ≤ s.ticks) := by
  unfold State.live
  decide +kernel

/-- A frame that port 0 has sent, whose compare memory has one tile; what its witness decodes of it. -/
def checked1 : WitEnt := ⟨0, 1, true, false, true, false, 3, 0, 0, [(5, 7, 9, false)], [], 0, false, (0, 4), 1, false, false⟩
def seen1 : WitObs := ⟨[], 1, 0, 0, true, 0, true⟩
def watched : State := (wide base 800000).setHead 0 { base.head 0 with wit := [checked1] }
theorem wit_witness : watched.live ∧ (watched.plan.headOfPort 0).map HeadEnt.head = some 0 ∧ (watched.head 0).witOf 0 = some checked1 ∧
    checked1.tiles.find? (fun q => q.1 == 5) = some (5, 7, 9, false) ∧ checked1.fail = 0 ∧ checked1.ended = true ∧
    checked1.failing [] seen1 (assocGet (watched.head 0).witLast 0) 1000 = [] ∧
    checked1.failing [] { seen1 with pkts := [List.replicate 20 0] } (assocGet (watched.head 0).witLast 0) 1000 = [1] ∧ checked1.badRows [] = [] ∧
    assocGet (watched.head 0).witPrev checked1.port = none ∧
    checked1.tiles.find? (fun q => q.1 == 9) = none ∧ checked1.arrived ≤ 9 / max 1 (watched.tileCols 0) := by
  unfold State.live
  decide +kernel
theorem wit_goLive : (withF watched [fr .headStatus 0 0 2]).output 0 = 2 ∧ checked1.composed = true ∧ checked1.doubt = false ∧
    checked1.unseen = false ∧ ({ checked1 with tiles := [] } : WitEnt).tiles = [] := by
  decide +kernel
theorem wit_report : (let u := later (framed.onFrame 0 fun f => { f with sent := true }) 200000
    let s := { u with bus := { u.bus with time := 1000000 } }
    s.live ∧ s.wdn.witTick + 200000 ≤ s.ticks ∧ base.ticks < base.wdn.witTick + 200000 ∧
      (s.plan.heads.any fun e => match (s.head e.head).frame with
        | some f => f.sent && decide (1000000 ≤ sdiff s.now f.time)
        | none => false) = true) := by
  unfold State.live
  decide +kernel

/-- Encoder core 0, ring 3 ENCODED, group 0 at a rate, due at time 0, of 64 by 64 pixels from source 1. -/
def encoding : State :=
  (withF (withB base ([br .ringCtl 3 0 0x603] ++ grant 28)) [fr .grpRate 0 0 60000, fr .encRing 0 0 3, fr .encSize 0 0 0x00400040,
    fr .encSrc 0 0 1, fr .srcCfg 1 0 (w32 (2 + 4 * 65536)), fr .srcSize 1 0 0x00400040, fr .srcFormat 1 0 0, fr .encCropSize 0 0 0x00400040,
    fr .encOutSize 0 0 4096, fr .encPicCap 0 0 1000, fr .encSecCap 0 0 100000]).setEnc 0 { EncSt.init with next := some 0, idr := some 0 }
def aJob : EncJob := ⟨0, some (1, 0), none, false, false, 0, 1, 5, 1, false, some 0, (0, 0, 64, 64), 30, 1000, 0, false, false⟩
theorem wit_encodeInstant : (let s := encoding
    s.live ∧ (s.enc 0).next = some 0 ∧ s.isOn 0x15 0 = true ∧ (s.reg .grpRate 0 (s.encGroup 0)).toNat ≠ 0 ∧ atOrAfter s.now 0 = true ∧
      s.follows = false) ∧
    (let s := encoding.setEnc 0 { encoding.enc 0 with job := some aJob }
     (s.enc 0).job.isSome = true) ∧
    (let s := withB encoding [br .ringProd 3 0 64]
     let v := (s.setEnc 0 { s.enc 0 with next := some (s.encNext 0 (s.encDiv 0) 0) }).encSelect 0
     (s.enc 0).job = none ∧ v.encBlocked 0 (v.encCap 0) = some 0) ∧
    (let s := withB encoding [br .fnCtl 2 3 0]
     let v := (s.setEnc 0 { s.enc 0 with next := some (s.encNext 0 (s.encDiv 0) 0) }).encSelect 0
     (s.enc 0).job = none ∧ v.encBlocked 0 (v.encCap 0) = none ∧
       (v.enc 0).idr = some 0) ∧
    (let s := (withF (encoding.setEnc 0 { EncSt.init with next := some 0, last := some (4, 0, 1) })
       [fr .srcState 1 0 9, fr .srcBufState 1 0 10, fr .srcBufTag 1 0 5]).setSrc 1 { base.src 1 with readyAt := [(0, 0)] }
     let v := (s.setEnc 0 { s.enc 0 with next := some (s.encNext 0 (s.encDiv 0) 0) }).encSelect 0
     (s.enc 0).job = none ∧ v.encBlocked 0 (v.encCap 0) = none ∧ v.isOn 2 3 = true ∧ (v.enc 0).idr = none ∧ (v.enc 0).cut = false ∧
       v.writerAbsent 1 = false ∧ (v.bus.hostSt 0).underReset = false ∧ v.latchable 1 0 = some 0) := by
  unfold State.live
  decide +kernel
/-- A crop of nothing is read at once. -/
theorem wit_encInput : (let s := withF (encoding.setEnc 0 { encoding.enc 0 with job := some aJob }) [fr .srcSize 1 0 0]
    (s.enc 0).job = some aJob ∧ aJob.input = some (1, 0) ∧ aJob.pic = none ∧
      (match s.encBlocks 0 1 0 aJob.crop with | (_, .ok _) => true | _ => false) = true) := by decide +kernel
theorem wit_encInputFails : (let s := withB (encoding.setEnc 0 { encoding.enc 0 with job := some aJob }) [br .regCtl 28 0 0]
    s.live ∧ (s.enc 0).job = some aJob ∧ (match s.encBlocks 0 1 0 aJob.crop with | (_, .ok _) => false | _ => true) = true) := by
  unfold State.live
  decide +kernel
theorem wit_encodeEnd : (let j : EncJob := { aJob with pic := some [] }; let s := encoding.setEnc 0 { encoding.enc 0 with job := some j }
    s.live ∧ (s.enc 0).job = some j ∧ j.pic.isSome = true ∧ j.idr.isSome = true) ∧
    (let j : EncJob := { aJob with again := true, input := none, idr := none }
     let s := withF (encoding.setEnc 0 { encoding.enc 0 with job := some j }) [fr .encSize 0 0 0]
     (s.enc 0).job = some j ∧ (match s.encWindows 0 (s.refBase 0 false) with | (_, .ok _) => true | _ => false) = true) ∧
    (let j : EncJob := { aJob with again := true, input := none, idr := none }
     let s := withB (encoding.setEnc 0 { encoding.enc 0 with job := some j }) [br .regCtl 28 0 0]
     (s.enc 0).job = some j ∧ (match s.encWindows 0 (s.refBase 0 false) with | (_, .ok _) => false | _ => true) = true) := by
  unfold State.live
  decide +kernel
theorem wit_encPost : (let j : EncJob := { aJob with idr := none, limit := 0 }
    let s := withF encoding [fr .encStatus 0 0 0x200]
    j.idr = none ∧ s.fld .encStatus 0 0 9 2 = j.st ∧ j.degraded = false ∧ j.again = false ∧ j.limit * 3 ≤ ([] : List Byte).length * 4) := by
  decide +kernel
theorem wit_select : (let e := entry 0x1501 0 0xFFFF ([1, 0, 0, 0] ++ le 2 0 ++ le 2 0 ++ le 2 64 ++ le 2 512); let s := cmd encoding e
    s.ripe 0x1501 0 0 e ∧ s.plan.has 0x15 e.inst = true ∧ s.isOn 0x15 e.inst = true ∧ e.object = 0xFFFF ∧
      (s.plan.source (e.arg 32 1)).isSome = true ∧ e.zeroFrom 33 36 = true ∧ e.zeroFrom 44 56 = true ∧
      encRatio ((s.begun 0 e).fld .encCtl e.inst 0 0 2) (e.arg 40 2) (e.arg 42 2) ((s.begun 0 e).encW e.inst) ((s.begun 0 e).encH e.inst) = true) ∧
    (let e := entry 0x1502 0 0xFFFF []; let s := cmd encoding e
     s.ripe 0x1502 0 0 e ∧ e.object = 0xFFFF ∧ e.zeroFrom 32 56 = true) := by
  unfold State.ripe State.live
  decide +kernel
theorem wit_encCap : encoding.live ∧ encoding.reached 0 0x15 0 ∧
    (let u := encoding.regWriteRec 0 0x15 0 0 0x24 64
     u.fnState 0x15 0 ≠ 0 ∧ (64 : Word).toNat < u.encFloor 0) ∧
    (encoding.regWriteRec 0 0x15 0 0 0x24 65).encFloor 0 ≤ (65 : Word).toNat ∧
    (let u := encoding.regWriteRec 0 0x15 0 0 0x28 5000001
     5000000 < (5000001 : Word).toNat ∧ u.encF 0 * u.encFloor 0 ≤ (5000000 : Word).toNat) := by
  unfold State.live State.reached
  decide +kernel

/-- Panel 0 of 4 by 4 nodes in a state, on port 0 in ACTIVE, which carries a valid time. -/
def panel (st : Nat) : State :=
  withF (withB base (grant 149)) [fr .portState 0 0 2, fr .linkState 0 0 8, fr .touchStatus 0 0 (w32 st), fr .touchRing 0 0 2, fr .portCfg 0 0 0x1D]
def panelWith (st : Nat) (x : PanelSt) : State := (panel st).setPan 0 x
theorem wit_panelStart : (let s := panel 1
    s.live ∧ s.panState 0 = 1 ∧ (s.pan 0).started = false ∧ s.portState (s.panEnt 0).port = 2 ∧
      s.fld .linkState (s.panEnt 0).port 0 3 1 = 1 ∧ s.drives = true) := by
  unfold State.live
  decide +kernel
theorem wit_touchCycle : (let s := panel 2
    s.live ∧ s.panCycles 0 = true ∧ (s.pan 0).nextAt = none) ∧
    (let s := panelWith 2 { PanelSt.init with nextAt := some (base.panLead), endAt := some 0 }
     s.panCycles 0 = true ∧ (s.pan 0).nextAt = some base.panLead ∧ (s.pan 0).endAt = some 0 ∧
       atOrAfter s.panLead (if atOrAfter 0 base.panLead then 0 else base.panLead) = true) := by
  unfold State.live
  decide +kernel
theorem wit_selfTestDue : (let s := later (panel 3) (600 * tickS)
    s.live ∧ 2 ≤ s.panState 0 ∧
      (s.pan 0).testTick + (if (s.pan 0).causes.contains 5 then 10 else (s.pan 0).f 8 0 16) * tickS ≤ s.ticks) ∧ (panel 2).live ∧ (panel 2).panState 0 = 2 := by
  unfold State.live
  decide +kernel
theorem wit_keysLoad : (let e := entry 0x2101 0 0xFFFF (le 8 0x20000 ++ [0]); let s := cmd (panel 2) e
    s.ripe 0x2101 0 0 e ∧ s.plan.has 0x21 e.inst = true ∧ s.isOn 0x21 e.inst = true ∧ e.object = 0xFFFF ∧ e.zeroFrom 41 56 = true ∧
      e.arg 32 8 % 64 = 0 ∧ byteAt e.data 40 ≤ ((s.begun 0 e).panEnt e.inst).maxKeys ∧
      (match (s.begun 0 e).load 149 (e.arg 32 8) (8 * byteAt e.data 40) with
        | (u, .ok d) => keysOk (u.panEnt e.inst) d (byteAt e.data 40)
        | _ => false) = true) := by
  unfold State.ripe State.live
  decide +kernel
theorem wit_rebaseline : (let e := entry 0x2102 0 0xFFFF []; let s := cmd (panel 2) e
    s.ripe 0x2102 0 0 e ∧ s.plan.has 0x21 e.inst = true ∧ s.isOn 0x21 e.inst = true ∧ e.object = 0xFFFF ∧ e.zeroFrom 32 56 = true ∧
      ((s.begun 0 e).pan e.inst).rebase = none) ∧
    (let e := entry 0x2103 0 0xFFFF []; let s := cmd (panel 2) e
     s.ripe 0x2103 0 0 e ∧ e.object = 0xFFFF ∧ e.zeroFrom 32 56 = true ∧ ((s.begun 0 e).pan e.inst).testCmd = none) := by
  unfold State.ripe State.live
  decide +kernel
theorem wit_rawRead : (let e := entry 0x2104 0 0xFFFF (le 8 0x20000)
    let s := cmd (panelWith 2 { PanelSt.init with raw := [5], deltas := [-1] }) e
    s.ripe 0x2104 0 0 e ∧ s.plan.has 0x21 e.inst = true ∧ s.isOn 0x21 e.inst = true ∧ e.object = 0xFFFF ∧ e.zeroFrom 40 56 = true ∧
      ((s.begun 0 e).pan e.inst).raw.isEmpty = false ∧
      ((s.begun 0 e).store 149 (e.arg 32 8) ((((s.begun 0 e).pan e.inst).raw.flatMap fun n => le 2 n) ++
        ((s.begun 0 e).pan e.inst).deltas.flatMap fun d => le 2 (code 16 d))).2 = true) := by
  unfold State.ripe State.live
  decide +kernel

/-- A MUTUAL frame of 4 by 4 nodes that answers command 1 at frequency 0. -/
def frameBody : List Byte :=
  let b := le 2 1 ++ [0, 0, 0, 1, 4, 4] ++ le 2 0 ++ le 2 16 ++ le 4 300 ++ (List.range 16).flatMap fun n => le 2 (100 + n)
  b ++ le 2 (touch16 b)
def aCycle : PanCyc := { no := 1, start := 0, freq := 0, first := false, test := false, want := [(1, 0, 0)], got := [] }
def touched : State := panelWith 2 { PanelSt.init with started := true, cycs := [aCycle] }
def framePkt (alive : Nat) : List Byte := packet 0x0C 2 2 alive 0 frameBody
theorem wit_touchFrameRx :
    (let a := touched.arrive 0 [0] (onBk (framePkt 1))
     match a.1.receive 0 (a.2.getD (false, [])).1 (a.2.getD (false, [])).2 with
      | (u, .good pk) => a.2.isSome && (u.plan.panels.any fun e => e.port == 0) && pk.typ == 0x0C && u.panState 0 != 0 && (u.pan 0).started && (u.pan 0).item.isNone && (u.aliveCheck 0 2 pk.alive).2
      | _ => false) = true ∧
    (let a := touched.arrive 0 [0] (onBk (framePkt 0))
     match a.1.receive 0 (a.2.getD (false, [])).1 (a.2.getD (false, [])).2 with
      | (u, .good pk) => a.2.isSome && pk.typ == 0x0C && (u.pan 0).item.isNone && !(u.aliveCheck 0 2 pk.alive).2
      | _ => false) = true ∧
    touched.live ∧ (touched.plan.panels.find? fun e => e.port == 0).isSome = true := by
  unfold State.live
  decide +kernel
def aPkt : Pkt := { typ := 0x0C, flags := 2, stream := 2, alive := 1, stamp := 0, payload := frameBody }
theorem wit_panSegment : (let n := aPkt.payload.length
    leAt aPkt.payload (n - 2) 2 = touch16 (aPkt.payload.take (n - 2)) ∧ n = 18 + 2 * leAt aPkt.payload 10 2 ∧ leAt aPkt.payload 10 2 ≤ 2032) ∧
    max 1 (byteAt aPkt.payload 5) ≤ 1 := by decide +kernel
theorem wit_panFrame : (let key := (leAt aPkt.payload 0 2, byteAt aPkt.payload 2, byteAt aPkt.payload 3)
    (((panel 2).pan 0).cycs.find? fun c => c.want.any fun w => w == key) = none ∧
    ((touched.pan 0).cycs.find? fun c => c.want.any fun w => w == key) = some aCycle) ∧ byteAt aPkt.payload 2 < 5 ∧
    byteAt aPkt.payload 6 = (touched.panEnt 0).cols ∧ byteAt aPkt.payload 7 = (touched.panEnt 0).rows ∧
    16 = (touched.panEnt 0).count (byteAt aPkt.payload 2) ∧ 1000000 < sdiff 2000000 touched.now ∧ sdiff aPkt.stamp touched.now ≤ 1000000 ∧
    atOrAfter 5 aPkt.stamp = true ∧ (touched.pan 0).lastFrame = none ∧
    (aCycle.want.filter fun w => w.1 != leAt aPkt.payload 0 2).isEmpty = true ∧
    (([(1, 0, 0), (2, 1, 0)] : List (Nat × Nat × Nat)).filter fun w => w.1 != leAt aPkt.payload 0 2).isEmpty = false := by decide +kernel
theorem wit_panAge : (let x : PanelSt := { PanelSt.init with lastStamp := some 0xFFFFFFFF }
    let s := panelWith 2 x
    s.live ∧ s.panState 0 = 2 ∧ (s.pan 0).lastStamp = some 0xFFFFFFFF ∧ ((s.pan 0).f 1 0 10 : Int) * 1000000 < sdiff s.now 0xFFFFFFFF) ∧
    (let s := later (panel 3) tickS
     s.live ∧ s.panState 0 = 3 ∧ (s.pan 0).repTick + tickS ≤ s.ticks ∧ 2 ≤ s.panState 0 ∧ (s.pan 0).adaptTick + (s.pan 0).f 6 0 16 * tickMs ≤ s.ticks) ∧
    (let s := later (panel 2) tickS
     s.panState 0 = 2 ∧ (s.pan 0).saveTick + (s.pan 0).f 6 16 16 * tickS ≤ s.ticks ∧ (s.pan 0).quietTick + tickS ≤ s.ticks) := by
  unfold State.live
  decide +kernel

/-- The journal's ring of 64 MiB at 0x1000000 and its flight recorder slots of 1 MiB after it. -/
def journalling : State :=
  withB base [br .jrnBaseLo 0 0 0x01000000, br .jrnSize 0 0 64, br .frBaseLo 0 0 0x06000000, br .frSlotSize 0 0 1, br .jrnXCkpt 0 0 1000,
    br .jrnXFr 0 0 0x001E003C]
def aRun : CkptRun := { pos := 0, cut := 5, tick := 0, data := [1, 2], sound := true }
def aFr : FrRun := { slot := 1, tick := 0, start := 0, pos := 0, len2 := 0, full := true, waits := [] }
def jrnWith (x : JrnSt) : State := journalling.setJrn x
theorem wit_checkpoint : journalling.live ∧ journalling.isOn 0x31 0 = true ∧ journalling.jrn.run = none ∧
    journalling.jrn.nextTick ≤ journalling.ticks ∧
    (let s := jrnWith { JrnSt.init with run := some aRun }
     s.live ∧ s.jrn.run = some aRun ∧ aRun.sound = true ∧ s.ticks ≤ aRun.tick + s.bus.fld .jrnXCkpt 0 0 0 16 * tickMs) ∧
    (let s := later (jrnWith { JrnSt.init with run := some aRun }) (tickS + 1)
     s.live ∧ s.jrn.run = some aRun ∧ aRun.tick + s.bus.fld .jrnXCkpt 0 0 0 16 * tickMs < s.ticks) := by
  unfold State.live
  decide +kernel

theorem wit_frTrigger : (let s := jrnWith { JrnSt.init with trigs := [(3, 0, 0, none)], fr := some aFr }
    s.live ∧ s.jrn.trigs = [(3, 0, 0, none)] ∧ s.jrn.fr = some aFr) ∧
    (let s := jrnWith { JrnSt.init with trigs := [(3, 0, 0, none)] }
     s.jrn.fr = none ∧ s.frFree = some 0) ∧
    (let s := withB (jrnWith { JrnSt.init with trigs := [(3, 0, 0, none)] }) [br .frStatus 0 0 15]
     s.live ∧ s.jrn.fr = none ∧ s.frFree = none) ∧
    (let s := jrnWith { JrnSt.init with fr := some aFr }
     s.live ∧ s.jrn.fr = some aFr ∧ aFr.full = true ∧ s.bus.fld .jrnCtl 0 0 2 1 = 0) ∧
    (let s := withF (withB (jrnWith { JrnSt.init with dumpQ := [1] }) [br .jrnCtl 0 0 4, br .frStatus 0 0 2]) [fr .thmState 0 0 0x400]
     s.bus.fld .jrnCtl 0 0 2 1 = 1 ∧ s.jrn.dump = none ∧ s.fld .thmState 0 0 10 1 = 1 ∧
       (s.jrn.dumpQ.filter fun i => (s.bus.fld .frStatus 0 0 0 4).testBit i) = [1]) ∧
    (let f : FrRun := { aFr with full := false }
     let s := later (jrnWith { JrnSt.init with fr := some f }) (30 * tickS)
     f.tick + s.bus.fld .jrnXFr 0 0 16 16 * tickS ≤ s.ticks) := by
  unfold State.live
  decide +kernel
theorem wit_frDumped : (let s := withF (jrnWith { JrnSt.init with dump := some ⟨1, 0, none, false⟩ }) [fr .thmState 0 0 0x400]
    s.live ∧ s.jrn.dump = some ⟨1, 0, none, false⟩ ∧ s.fld .thmState 0 0 10 1 = 1 ∧
      (match s.load 152 (s.frAddr 1 + (s.dumpSpan 1).1) (s.dumpSpan 1).2 with | (_, .ok _) => true | _ => false) = true) := by
  unfold State.live
  decide +kernel

theorem wit_freeze : (let e := entry 0x3101 0 0xFFFF []; let s := cmd journalling e
    s.ripe 0x3101 0 0 e ∧ s.plan.has 0x31 e.inst = true ∧ s.isOn 0x31 e.inst = true ∧ e.object = 0xFFFF ∧ e.zeroFrom 32 56 = true) ∧
    (let e := entry 0x3102 0 0xFFFF [2]; let s := cmd (withB journalling [br .frStatus 0 0 4]) e
     s.ripe 0x3102 0 0 e ∧ e.object = 0xFFFF ∧ e.zeroFrom 33 56 = true ∧ byteAt e.data 32 < 4 ∧
       ((s.begun 0 e).bus.fld .frStatus 0 0 0 8).testBit (byteAt e.data 32 + 4) = false ∧
       ((s.begun 0 e).bus.fld .frStatus 0 0 0 8).testBit (byteAt e.data 32) = true) ∧
    (let e := entry 0x3102 0 0xFFFF [2]; let s := cmd (withB journalling [br .frStatus 0 0 64]) e
     s.ripe 0x3102 0 0 e ∧ ((s.begun 0 e).bus.fld .frStatus 0 0 0 8).testBit (byteAt e.data 32 + 4) = true) := by
  unfold State.ripe State.live
  decide +kernel
theorem wit_dump : (let e := entry 0x3103 0 0xFFFF [2, 1]; let s := cmd (withF (withB journalling [br .frStatus 0 0 4]) [fr .thmState 0 0 0x400]) e
    s.ripe 0x3103 0 0 e ∧ s.plan.has 0x31 e.inst = true ∧ s.isOn 0x31 e.inst = true ∧ e.object = 0xFFFF ∧ e.zeroFrom 34 56 = true ∧
      byteAt e.data 32 < 4 ∧ byteAt e.data 33 < 2 ∧ ((s.begun 0 e).bus.fld .frStatus 0 0 0 4).testBit (byteAt e.data 32) = true ∧
      (s.begun 0 e).jrn.dump = none ∧ (s.begun 0 e).fld .thmState 0 0 10 1 = 1) ∧
    (let e := entry 0x3104 0 0xFFFF (List.replicate 16 7); let s := cmd journalling e
     s.ripe 0x3104 0 0 e ∧ s.plan.ringHost 0 = some 0 ∧ e.object = 0xFFFF ∧ e.zeroFrom 48 56 = true) := by
  unfold State.ripe State.live
  decide +kernel
theorem wit_dumpRefused : (let e := entry 0x3102 0 0xFFFF [2]; let s := cmd journalling e
    s.ripe 0x3102 0 0 e ∧ ((s.begun 0 e).bus.fld .frStatus 0 0 0 8) = 0) ∧
    (let e := entry 0x3103 0 0xFFFF [2, 1]; let s := cmd journalling e
     s.ripe 0x3103 0 0 e ∧ ((s.begun 0 e).bus.fld .frStatus 0 0 0 4).testBit 2 = false) ∧
    (let e := entry 0x3103 0 0xFFFF [2, 1]
     let s := cmd ((withB journalling [br .frStatus 0 0 4]).setJrn { JrnSt.init with dump := some ⟨1, 0, none, false⟩ }) e
     s.ripe 0x3103 0 0 e ∧ ((s.begun 0 e).bus.fld .frStatus 0 0 0 4).testBit 2 = true ∧ (s.begun 0 e).jrn.dump.isSome = true) ∧
    (let e := entry 0x3103 0 0xFFFF [2, 1]; let s := cmd (withF (withB journalling [br .frStatus 0 0 4]) [fr .thmState 0 0 0]) e
     s.ripe 0x3103 0 0 e ∧ ((s.begun 0 e).bus.fld .frStatus 0 0 0 4).testBit 2 = true ∧ (s.begun 0 e).jrn.dump = none ∧
       (s.begun 0 e).fld .thmState 0 0 10 1 = 0) := by
  unfold State.ripe State.live
  decide +kernel

def tandemEnt : TandemEnt := ⟨7, 3, 255, 0⟩
/-- The device as unit 0 of a tandem on port 3, ACTIVE with TND_STATE st. -/
def paired (st : Nat) : State :=
  let s := withF (withB base [on 0x32 0]) [fr .tndState 0 0 (w32 st), fr .portState 3 0 2, fr .portLaneMap 3 0 0xE4, fr .tndXTimes 0 0 0x13880005]
  { s with plan := { plan with tandem := some tandemEnt } }
def pairedWith (st : Nat) (x : TndSt) : State := (paired st).setTnd x
def hbBody (id role epoch : Nat) : List Byte :=
  le 2 7 ++ le 1 id ++ le 1 role ++ le 4 epoch ++ le 8 0 ++ le 4 0 ++ le 1 0 ++ le 3 0 ++ le 4 0 ++ le 4 0
theorem wit_heartbeatSend : (let s := later (paired 3) tickMs
    s.powered = true ∧ s.plan.tandem = some tandemEnt ∧ s.tnd.silent = false ∧ s.tnd.sendTick + tickMs ≤ s.ticks) := by decide +kernel
/-- A packet as the far side's line bits on the first `n` data lanes. -/
def onData (n : Nat) (d : List Byte) : List (List Bool) := portLines (List.range n) (List.replicate n false) d
theorem wit_heartbeatRx : (paired 3).live ∧
    (let d := hbBody 1 4 9
     d.length = 32 ∧ zeros (slice d 21 3) = true ∧ zeros (slice d 28 4) = true ∧ byteAt d 20 < 4 ∧ byteAt d 3 ≤ 5 ∧ byteAt d 2 ≤ 1 ∧
       leAt d 0 2 = tandemEnt.pairId ∧ byteAt d 2 ≠ (paired 3).tandemId ∧ byteAt (hbBody 0 4 9) 2 = (paired 3).tandemId) ∧
    (let a := (paired 3).arrive 3 [0] (onData 1 (packet 0x80 0 0x100 1 0 (hbBody 1 4 9)))
     a.2.isSome && a.1.plan.tandem == some tandemEnt &&
       (a.1.receiveItem 3 0x80 (a.2.getD (false, [])).1 (a.2.getD (false, [])).2).2.isSome) = true := by
  unfold State.live
  decide +kernel
theorem wit_heartbeatRole : (paired 0).role = 0 ∧ tandemEnt.preferred = (paired 0).tandemId ∧ (paired 1).role = 1 ∧
    (paired 0x42).role = 2 ∧ (paired 0x42).inSync = true ∧ (paired 3).role = 3 ∧ ((paired 3).reg .tndEpoch 0 0).toNat < 1 := by
  decide +kernel
theorem wit_heartbeatTimeout : (let s := later (pairedWith 1 { TndSt.init with hbTick := some 0 }) (5 * tickMs)
    s.live ∧ s.tnd.hbTick = some 0 ∧ 0 + s.takeoverMs * tickMs ≤ s.ticks ∧ s.role = 1) ∧
    (let s := later (paired 0) (5000 * tickMs)
     s.live ∧ s.plan.tandem.isSome = true ∧ s.role = 0 ∧
       max s.tnd.roleTick (s.tnd.hbTick.getD 0) + s.fld .tndXTimes 0 0 16 16 * tickMs ≤ s.ticks) ∧
    (let s := pairedWith 0x42 { TndSt.init with hoRx := some 0 }
     s.live ∧ s.tnd.hoRx = some 0 ∧ s.role = 2 ∧ s.inSync = true ∧ atOrAfter s.now 0 = true) := by
  unfold State.live
  decide +kernel
theorem wit_handover : (let e := entry 0x3201 0 0xFFFF []; let s := cmd (pairedWith 3 { TndSt.init with pRole := 2, pSync := true }) e
    s.ripe 0x3201 0 0 e ∧ s.plan.has 0x32 e.inst = true ∧ s.isOn 0x32 e.inst = true ∧ e.object = 0xFFFF ∧ e.zeroFrom 32 56 = true ∧
      (s.begun 0 e).role = 3 ∧ (s.begun 0 e).tnd.pRole = 2 ∧ (s.begun 0 e).tnd.pSync = true) ∧
    (let e := entry 0x3202 0 0xFFFF []; let s := cmd (paired 2) e
     s.live ∧ s.role = 2 ∧ s.entry 0 0 = some e ∧ e.opcode = 0x3202 ∧ e.phase = .ready ∧ s.isOn 2 0 = true ∧ e.headOk = true ∧
       s.plan.has 0x32 e.inst = true ∧ s.isOn 0x32 e.inst = true ∧ e.object = 0xFFFF ∧ e.zeroFrom 32 56 = true) ∧
    (let e := entry 0x3202 0 0xFFFF []; let s := cmd (paired 3) e
     s.ripe 0x3202 0 0 e ∧ s.role ≠ 2 ∧ (s.begun 0 e).role ≠ 2) := by
  unfold State.ripe State.live
  decide +kernel
theorem wit_joinComplete : (let s := pairedWith 1 { TndSt.init with joinLoaded := true }
    s.live ∧ s.role = 1 ∧ s.tnd.joinLoaded = true ∧ blockAt (s.tnd.blocks / 2) s.windows = none ∧ s.tnd.applied = s.tnd.pSeq ∧
      s.tnd.records = []) := by
  unfold State.live
  decide +kernel
def stBody : List Byte := [0, 0, 0, 0] ++ le 4 6 ++ le 2 0 ++ le 2 0 ++ le 4 1
theorem wit_statusRx : (let a := (inPort 1 2 0).arrive 1 [0] (onBk (packet 0x0D 0 0 1 0 stBody))
    match a.1.receiveItem 1 0x0D (a.2.getD (false, [])).1 (a.2.getD (false, [])).2 with
    | (u, some pk) => a.2.isSome && pk.payload.length == 16 && byteAt pk.payload 3 == 0 && decide (byteAt pk.payload 2 < 32) &&
        decide (byteAt pk.payload 1 ≤ 2) && (u.plan.headOfPort 1).isNone
    | _ => false) = true ∧
    (let a := (inPort 0 2 0).arrive 0 [0] (onBk (packet 0x0D 0 0 1 0 stBody))
     match a.1.receiveItem 0 0x0D (a.2.getD (false, [])).1 (a.2.getD (false, [])).2 with
    | (u, some pk) => a.2.isSome && pk.payload.length == 16 && (u.plan.headOfPort 0).isSome
    | _ => false) = true ∧
    (let s := later (withF base [fr .portState 0 0 2]) (100 * tickMs)
     s.live ∧ s.plan.role 0 = 1 ∧ s.portState 0 = 2 ∧ (s.link 0).statusSeen = false ∧
       (s.link 0).upTick + s.fld .linkXStatusMs 0 0 0 10 * tickMs ≤ s.ticks) := by
  unfold State.live
  decide +kernel

theorem wit_ack : (let s := later (pairedWith 2 { TndSt.init with rxLast := [(0x101, 5)] }) 20000
    s.live ∧ s.tnd.rxLast.isEmpty = false ∧ s.tnd.ackTick + 20000 ≤ s.ticks) ∧
    (let d := le 2 0x101 ++ le 2 5 ++ [1, 0, 0, 0]
     d.length = 8 ∧ zeros (slice d 5 3) = true ∧ byteAt d 4 = 1 ∧
       (let a := (paired 3).arrive 3 [0] (onData 1 (packet 0x84 0 0x100 1 0 d))
        a.2.isSome && (a.1.receiveItem 3 0x84 (a.2.getD (false, [])).1 (a.2.getD (false, [])).2).2.isSome) = true) ∧
    (let d := le 2 0x101 ++ le 2 5 ++ [0, 0, 0, 0]
     d.length = 8 ∧ zeros (slice d 5 3) = true ∧ byteAt d 4 = 0) ∧
    (let d := le 4 0 ++ [1, 0, 0, 0]
     let a := (paired 3).arrive 3 [0] (onData 1 (packet 0x85 0 0x100 1 0 d))
     match a.1.receiveItem 3 0x85 (a.2.getD (false, [])).1 (a.2.getD (false, [])).2 with
     | (u, some pk) => pk.payload == d && u.role == 3
     | _ => false) = true := by
  unfold State.live
  decide +kernel
def ckptBody (off : Nat) : List Byte := le 4 5 ++ le 4 off ++ le 8 0 ++ [1]
theorem wit_checkpointRx : (let a := (paired 1).arrive 3 [0] (onData 1 (packet 0x83 2 0x103 1 0 (ckptBody 0)))
     match a.1.tndItem 3 0x83 (a.2.getD (false, [])).1 (a.2.getD (false, [])).2 with
    | (_, some pk) => decide (16 ≤ pk.payload.length) && zeros (slice pk.payload 8 8) && leAt pk.payload 4 4 == 0
    | _ => false) = true ∧
    (let a := (pairedWith 1 { TndSt.init with joinCut := some 5 }).arrive 3 [0] (onData 1 (packet 0x83 2 0x103 1 0 (ckptBody 1)))
     match a.1.tndItem 3 0x83 (a.2.getD (false, [])).1 (a.2.getD (false, [])).2 with
    | (u, some pk) => decide (16 ≤ pk.payload.length) && zeros (slice pk.payload 8 8) && leAt pk.payload 4 4 != 0 &&
        u.tnd.joinCut == some (w32 (leAt pk.payload 0 4))
    | _ => false) = true ∧ (paired 1).live := by
  unfold State.live
  decide +kernel
def aRec : JRec := { kind := 0x13, flags := 0, seq := 1, time := 0, cap := 0x31, inst := 0, body := List.replicate 8 0 }
theorem wit_journalPacketRx : (let a := (paired 2).arrive 3 [0] (onData 1 (packet 0x81 2 0x101 1 0 aRec.bytes))
     match a.1.tndItem 3 0x81 (a.2.getD (false, [])).1 (a.2.getD (false, [])).2 with
    | (_, some pk) => (splitRecs 130 pk.payload).isSome
    | _ => false) = true ∧
    (let a := (paired 2).arrive 3 [0] (onData 1 (packet 0x82 2 0x102 1 0 (le 8 0x20000 ++ le 4 1 ++ le 4 0 ++ [9])))
     match a.1.tndItem 3 0x82 (a.2.getD (false, [])).1 (a.2.getD (false, [])).2 with
    | (u, some pk) => pk.payload.length == 16 + leAt pk.payload 8 4 && decide (0 < leAt pk.payload 8 4) && zeros (slice pk.payload 12 4) &&
        !(u.store 151 (leAt pk.payload 0 8) (pk.payload.drop 16)).1.tnd.joinLoaded
    | _ => false) = true := by decide +kernel
theorem wit_holdTimeout : (let s := later ((paired 2).setHead 0 { base.head 0 with hold := some 0 }) (2 * tickMs)
    s.live ∧ (s.head 0).hold = some 0 ∧ 0 + 2 * tickMs ≤ s.ticks) := by
  unfold State.live
  decide +kernel
theorem wit_tandemTime : (let s := (paired 1).setLink 3 { base.link 3 with echoes := List.replicate 8 0 }
    let u := s.setReg .tndTimeOfs 0 0 (i32 5000)
    s.live ∧ s.plan.tandem.isSome = true ∧ u.role = 1 ∧ u.tnd.stepped = false ∧
      (u.plan.tandemPorts.any fun p => decide (8 ≤ (u.link p).echoes.length)) = true) ∧
    (let s := withF (later (pairedWith 2 { TndSt.init with ofsTick := some 0 }) tickS) [fr .tndXTimeTol 0 0 1000]
     let u := s.setReg .tndTimeOfs 0 0 (i32 5000)
     u.role = 2 ∧ u.fld .tndXTimeTol 0 0 0 17 < (5000 : Int).natAbs ∧ (5 : Int).natAbs ≤ u.fld .tndXTimeTol 0 0 0 17 ∧
       u.tnd.ofsTick = some 0 ∧ 0 + tickS ≤ u.ticks) ∧
    (let u := (paired 2).setReg .tndTimeOfs 0 0 (i32 5000)
     u.role = 2 ∧ u.tnd.ofsTick = none) := by
  unfold State.live
  decide +kernel
theorem wit_memoryWindow : base.served = true ∧ (base.store 0 (base.bus.mwinAddr 0 0x20000) [1]).2 = true ∧
    (base.store 1 (base.bus.mwinAddr 1 0x20000) [1]).2 = false := by decide +kernel
/-- A NOP whose wait is met. -/
theorem wit_commandWaitEnd : (let e := { entry 0x0100 0xFFFF 0xFFFF [] with phase := .waitFence }; let s := cmd base e
    s.live ∧ s.entry 0 0 = some e ∧ e.phase.waits = true ∧ s.isOn 2 0 = true ∧ s.bus.ringKind 0 = 0 ∧
      beforeMet (s.bus.ringSt 0).fetched e = true ∧ s.bus.waitMet e = true ∧ s.mayRun 0 e = true) := by
  unfold State.live
  decide +kernel

def loadEntry : FEntry := entry 0x3105 0 0xFFFF (le 8 0x01000000 ++ le 4 64)
theorem wit_rerunLoad : (let s := cmd base loadEntry
    s.ripe 0x3105 0 0 loadEntry ∧ s.plan.has 0x31 loadEntry.inst = true ∧ s.isOn 0x31 loadEntry.inst = true ∧ loadEntry.object = 0xFFFF ∧
      loadEntry.zeroFrom 44 56 = true ∧ (s.begun 0 loadEntry).lifecycle = 0 ∧ (s.begun 0 loadEntry).plan.tandem = none ∧
      (s.begun 0 loadEntry).bus.fld .rerunState 0 0 0 2 ≠ 1 ∧ (s.begun 0 loadEntry).rerunning = false ∧
      (match (s.begun 0 loadEntry).load 150 (loadEntry.arg 32 8) (loadEntry.arg 40 4) with | (_, .ok _) => true | _ => false) = true ∧
      (s.begun 0 loadEntry).recordingStart (List.replicate 64 0) = none) ∧
    (let s := withF (cmd base loadEntry) [fr .debugState 0 0 1]
     s.ripe 0x3105 0 0 loadEntry ∧ (s.begun 0 loadEntry).lifecycle ≠ 0) := by
  unfold State.ripe State.live
  decide +kernel
/-- A recording of one checkpoint and nothing else; where the checkpoint layout, which is Efrix's own, reads these 4 bytes, it is good. -/
def recording : List Byte :=
  let d : List Byte := [1, 2, 3, 4]
  let head : JRec := { kind := 0x11, flags := 0, seq := 1, time := 9, cap := 0x31, inst := 0,
                       body := le 4 1 ++ le 4 4 ++ le 8 0 ++ le 4 0 ++ le 4 0 }
  let end_ : JRec := { kind := 0x12, flags := 0, seq := 2, time := 9, cap := 0x31, inst := 0, body := le 8 (jrnl64 d) ++ le 4 4 }
  head.bytes ++ padTo 16 d ++ end_.bytes
theorem wit_recordingStart (c : Ckpt) (h : ckptDecode [1, 2, 3, 4] = some c) : ∃ r, base.recordingStart recording = some (r, c, 64) := by
  have a : ∃ r, readRec recording = some r ∧ recUnits recording = 48 ∧ r.kind = 0x11 ∧ slice r.body 8 8 = base.hashHead ∧
      slice recording 48 (leAt r.body 4 4) = [1, 2, 3, 4] ∧ leAt r.body 4 4 = 4 ∧ r.dataLength = 16 ∧
      closes (recording.length / 32 + 1) [1, 2, 3, 4] (recording.drop 64) = true := by
    refine ⟨(readRec recording).getD aRec, ?_⟩
    decide +kernel
  obtain ⟨r, h1, h2, h3, h4, h5, h6, h7, h8⟩ := a
  rw [h6] at h5
  refine ⟨r, ?_⟩
  unfold State.recordingStart
  simp only [h1, h2, h6, h7, h5]
  rw [if_neg (by simp only [not_or]; exact ⟨by simp [h3], by simp [h4], by simp, by rw [h8]; simp⟩), h]
  rfl
def aRerun : RerunSt := { addr := 0x01000000, len := 0, pos := 0, next := none, rows := [], own := [], ingested := [], missed := [], bad := [], diffEv := none }
theorem wit_rerunEnd : (let s := withB (base.setRerun aRerun) [br .rerunState 0 0 2]
    s.live ∧ s.rerunning = true ∧ s.rerunNext = none) ∧
    (let s := withB (base.setRerun { aRerun with len := 64 }) [br .rerunState 0 0 1]
     s.live ∧ s.jrn.rerun = some { aRerun with len := 64 } ∧ s.bus.fld .rerunState 0 0 0 2 = 1 ∧
       (match s.load 150 0x01000000 64 with | (_, .ok _) => true | _ => false) = true) ∧
    (let e := entry 0x3106 0 0xFFFF []; let s := cmd (base.setRerun aRerun) e
     s.ripe 0x3106 0 0 e ∧ e.object = 0xFFFF ∧ e.zeroFrom 32 56 = true ∧ (s.begun 0 e).jrn.rerun.isSome = true) := by
  unfold State.ripe State.live
  decide +kernel

theorem wit_reset : base.powered = true ∧ base.otp.sound = true := by decide +kernel
/-- After a power-on reset, at a stage of the start-up order. -/
def starting (step : Nat) : State := { base with wdn := { WdnSt.init with waitStep := step } }
theorem wit_structureLoad : (let s := starting 3
    s.powered = true ∧ s.wdn.waitStep = 3 ∧
      (State.trySlots (if s.wdn.order = [] then s.slotOrder else (s, s.wdn.order)).2
        ((if s.wdn.order = [] then s.slotOrder else (s, s.wdn.order)).1.setWdn
          { (if s.wdn.order = [] then s.slotOrder else (s, s.wdn.order)).1.wdn with order := [] })).2 = none) ∧
    (starting 4).wdn.waitStep = 4 ∧ (starting 5).wdn.waitStep = 5 ∧
    (let s := later (starting 5) tickS
     s.wdn.waitTick + tickS ≤ s.ticks) := by decide +kernel
theorem wit_memoryStart : (let s := withB (starting 6) [br .memState 0 0 0]
    s.live ∧ (s.onBus fun b => (b.stackReading 0 25).stackReading 1 25).bus.fld .memState 0 0 0 3 = 0 ∧
      (s.onBus fun b => (b.stackReading 0 25).stackReading 1 25).wdn.waitStep = 6) ∧
    (let s := later (withB (starting 6) [br .memState 0 0 1]) (120 * tickS)
     s.live ∧ s.bus.fld .memState 0 0 0 3 = 1 ∧ s.bus.mx.trainTick + 120 * tickS ≤ s.ticks ∧
       (s.onBus fun b => (b.stackReading 0 25).stackReading 1 25).bus.fld .memState 0 0 0 3 = 1) ∧
    2 ≤ (base.onBus fun b => (b.stackReading 0 25).stackReading 1 25).bus.fld .memState 0 0 0 3 ∧
    (let s := withF (withB (starting 6) [br .memState 0 0 2]) [fr .thmState 0 0 0x400]
     s.live ∧ s.bus.fld .memState 0 0 0 3 = 2 ∧ twiceRepaired [] = none ∧ twiceRepaired [(3, 1), (4, 1), (4, 2)] = some 4 ∧
       (s.onBus fun b => b.trained true []).storeOk = true ∧
       ((withB (starting 6) [br .memState 0 0 2]).onBus fun b => b.trained true []).storeOk = false) ∧
    (let s := withB (starting 6) [br .memState 0 0 3]
     s.live ∧ s.bus.fld .memState 0 0 0 3 = 3 ∧ s.plan.loaded = true) := by
  unfold State.live
  decide +kernel
theorem wit_failedHeartbeatEnd : (let s := later (base.setTnd { TndSt.init with failTick := some 0 }) (10 * tickMs)
    s.powered = true ∧ s.tnd.failTick = some 0 ∧ 0 + 10 * tickMs ≤ s.ticks ∧ s.tnd.resetDue = none) ∧
    (base.setTnd { TndSt.init with failTick := some 0, resetDue := some (1, 2) }).tnd.resetDue = some (1, 2) ∧
    base.fabricUp = true ∧ base.reached 0 0x33 0 ∧ 0x7264 % 65536 = 0x7264 := by
  unfold State.reached
  decide +kernel

/-- The warden with a level, TEMP_MAX q / 4 °C, and the settings WARN 95, CRIT 105, HYST 5 in force. -/
def heat (level : Nat) (q : Nat) (w : WdnSt) : State :=
  withF { base with wdn := { w with force := [0x0000695F, 0x000A0064, 0x000A0005, 0x000A5A01, 0] } }
    [fr .thmState 0 0 (w32 level), fr .thmTemp 0 0 (w32 q)]
theorem wit_readings : base.powered = true ∧ (later base (5 * tickMs)).powered = true ∧
    (assocGet (later base (5 * tickMs)).wdn.sensTick 3).getD (later base (5 * tickMs)).wdn.resetTick + 5 * tickMs ≤ (later base (5 * tickMs)).ticks := by
  decide +kernel
theorem wit_startHold : (let s := heat 0 100 { WdnSt.init with waitStep := 2 }
    s.powered = true ∧ s.wdn.waitStep = 2 ∧ s.tempMax < s.warnTemp - s.hystTemp) := by decide +kernel
theorem wit_grace : (let s := later (heat 1 100 { WdnSt.init with waitStep := 0 }) tickS
    s.powered = true ∧ s.level = 1 ∧ s.wdn.graceTick + s.thmF 1 0 16 * tickMs ≤ s.ticks ∧ s.effTemp < s.warnTemp) ∧
    (let s := later (heat 1 390 { WdnSt.init with waitStep := 0 }) tickS
     s.level = 1 ∧ s.wdn.graceTick + s.thmF 1 0 16 * tickMs ≤ s.ticks ∧ s.warnTemp ≤ s.effTemp) ∧
    (let s := later (heat 2 390 { WdnSt.init with waitStep := 0 }) tickS
     s.powered = true ∧ s.level = 2 ∧ s.thmStep < 18 ∧ s.warnTemp ≤ s.effTemp ∧ s.wdn.stepTick + s.thmF 1 16 16 * tickMs ≤ s.ticks) := by
  decide +kernel
theorem wit_release : (let s := later (heat (2 + 8) 100 { WdnSt.init with waitStep := 0, lowTick := some 0 }) (10 * tickS)
    s.powered = true ∧ s.wdn.lowTick = some 0 ∧ s.level = 2 ∧ 0 + s.thmF 2 16 16 * tickS ≤ s.ticks ∧
      (s.putStep (s.thmStep - 1)).thmStep = 0) ∧
    (let s := later (heat (2 + 16) 100 { WdnSt.init with waitStep := 0, lowTick := some 0 }) (10 * tickS)
     s.level = 2 ∧ (s.putStep (s.thmStep - 1)).thmStep ≠ 0) := by decide +kernel
theorem wit_cutoff : (let s := heat 3 440 { WdnSt.init with waitStep := 0 }
    s.powered = true ∧ s.level = 3 ∧ s.critTemp + 20 ≤ s.tempMax) ∧
    (let s := later (heat 3 100 { WdnSt.init with waitStep := 0, coolTick := some 0, cause := 1 }) (20 * tickS)
     s.powered = true ∧ s.wdn.coolTick = some 0 ∧ 3 ≤ s.level ∧ s.wdn.cause = 1 ∧ s.thmF 3 0 1 = 1 ∧
       0 + s.thmF 3 16 16 * tickS ≤ s.ticks ∧ (s.wdn.recoveries.filter fun t => decide (s.ticks < t + 3600 * tickS)).length < 3) ∧
    (let s := later (heat 3 100 { WdnSt.init with recoveries := [1, 2, 3] }) (20 * tickS)
     3 ≤ (s.wdn.recoveries.filter fun t => decide (s.ticks < t + 3600 * tickS)).length) := by decide +kernel

theorem wit_losses : base.powered = true ∧ base.live ∧ (panel 2).panState 0 ≠ 0 ∧
    (let s : State := { base with fabricUp := false }
     s.level < 3 ∧ s.fabricUp = false ∧ s.wdn.zone = none ∧ s.wdn.cmd = none ∧ s.wdn.serviceStep = none) := by
  unfold State.live
  decide +kernel
theorem wit_vdd : (let s := withF (heat 0 100 { WdnSt.init with waitStep := 0 }) [fr .thmVdd 0 0 800]
    s.powered = true ∧ s.fabricUp = true ∧ s.tempMax < s.warnTemp ∧ s.fld .thmVdd 0 0 0 10 < 850 ∧ 680 < s.fld .thmVdd 0 0 0 10) ∧
    (let s := withF (heat 0 100 { WdnSt.init with waitStep := 0 }) [fr .thmVdd 0 0 850]
     s.tempMax < s.warnTemp ∧ 850 ≤ s.fld .thmVdd 0 0 0 10 ∧ s.fld .thmWear 0 0 16 1 = 0) ∧
    (let s := withF (heat 0 400 { WdnSt.init with waitStep := 0 }) [fr .thmVdd 0 0 680]
     s.warnTemp ≤ s.tempMax ∧ s.fld .thmVdd 0 0 0 10 ≤ 680) ∧
    (let s := withF (heat 0 100 { WdnSt.init with waitStep := 0 }) [fr .thmVdd 0 0 850, fr .thmWear 0 0 0x10000]
     850 ≤ s.fld .thmVdd 0 0 0 10 ∧ s.fld .thmWear 0 0 16 1 = 1) ∧
    (let s := withF (heat 0 400 { WdnSt.init with waitStep := 0 }) [fr .thmVdd 0 0 700]
     s.warnTemp ≤ s.tempMax ∧ s.fld .thmVdd 0 0 0 10 < 850) ∧
    (let s := withF base [fr .thmVdd 0 0 700]
     s.powered = true ∧ s.fabricUp = true ∧ s.ticks < s.wdn.vddTick + 100 * tickMs) ∧
    (let s := later base (100 * tickMs)
     s.wdn.vddTick + 100 * tickMs ≤ s.ticks) := by decide +kernel
theorem wit_life : (let s := later base (3600 * tickS)
    s.powered = true ∧ s.fabricUp = true ∧ s.wdn.hourTick + 3600 * tickS ≤ s.ticks) ∧
    (let s := withF (later base (86400 * tickS)) [fr .thmState 0 0 0x400]
     s.wdn.dayTick + 86400 * tickS ≤ s.ticks ∧ s.storeOk = true) := by decide +kernel
theorem wit_handshake : (let e := { entry 0x1206 0 0xFFFF [] with phase := .running }; let s := cmd base e
    s.live ∧ s.entry 0 0 = some e ∧ e.phase = .running) := by
  unfold State.live
  decide +kernel

theorem wit_smbus : base.powered = true ∧ base.wdn.pointer ≠ 0x1C ∧ (findReg 0x33 false base.wdn.pointer).isSome = true ∧
    (match findReg 0x33 false base.wdn.pointer with
      | some (row, _) => row.acc != .wo && (match row.reg with | .fn _ => true | .bus _ => false)
      | none => false) = true ∧
    findReg 0x33 false 0x8000 = none ∧ bf (0x72640001 : Word) 16 16 = 0x7264 ∧ bf (0x72640001 : Word) 0 8 = 1 ∧
    base.wdn.alertFault = false ∧ base.wdn.alertLevel = false := by decide +kernel

/-- SLOT_A runs, in state st; the store in range. -/
def slotted (st : Nat) : State :=
  let s := withF (heat 0 100 { WdnSt.init with waitStep := 0, slot := 1 }) [fr .thmState 0 0 0x400]
  s.setSlotState 1 st
theorem wit_structCmd : (let s := slotted 2
    s.served = true ∧ s.reached 0 0x34 0 ∧
      (let u := (s.regWriteRec 0 0x34 0 0 0x40 3).structTake 0 3
       (s.regWriteRec 0 0x34 0 0 0x40 3).structBusy = false ∧ u.runSlot ≠ 3 ∧ u.slotState u.runSlot = 2 ∧ u.effTemp < u.critTemp ∧
         u.lifecycle = 0 ∧ (u.otp.hashes.getD 3 []).isEmpty = true ∧ 1 = u.runSlot)) ∧
    ((withF (slotted 2) [fr .structStatus 0 0 1]).regWriteRec 0 0x34 0 0 0x40 3).structBusy = true ∧
    (let u := ((slotted 3).regWriteRec 0 0x34 0 0 0x40 7).structTake 0 7
     u.runSlot ≠ 3 ∧ u.slotState u.runSlot = 3 ∧ (u.reg .structSeq 0 0).toNat ≤ leAt (u.flash.slots.getD 0 []) 64 4) ∧
    (let u := ((slotted 3).regWriteRec 0 0x34 0 0 0x40 (w32 (1 % 16 * 256 + 2))).structTake 0 2
     u.slotState 1 = 3) := by
  unfold State.reached
  decide +kernel
theorem wit_structRefused : (let s := slotted 3
    let u := (s.regWriteRec 0 0x34 0 0 0x40 (w32 (0 * 256 + 1))).structTake 0 1
    (s.regWriteRec 0 0x34 0 0 0x40 (w32 (0 * 256 + 1))).structBusy = false ∧ structRange 1 0 = false ∧ structRange 2 0 = true ∧
      (withF u [fr .debugState 0 0 1]).lifecycle = 1 ∧ 0 ≠ u.runSlot ∧ u.lifecycle = 0 ∧ u.storeOk = true ∧
      (withF u [fr .thmState 0 0 0]).storeOk = false ∧ (withF u [fr .structSrcHi 0 0 1]).staged.2 = none ∧
      (match u.staged with
        | (w, some d) => (firstFailure [checkForm d, checkTrust w.otp w.lifecycle d, failIf ((byteAt d 61).testBit 1) 7 0xFFFF]).isSome
        | _ => false) = true ∧
      u.slotState 2 ≠ 1 ∧ u.slotState 2 ≠ 3 ∧ u.slotState u.runSlot ≠ 2 ∧
      (withF u [fr .thmTemp 0 0 0x800]).critTemp ≤ (withF u [fr .thmTemp 0 0 0x800]).effTemp) ∧
    (let u := ((slotted 2).regWriteRec 0 0x34 0 0 0x40 7).structTake 0 7
     u.slotState u.runSlot ≠ 3) ∧
    (let u := ((keyed (slotted 2)).regWriteRec 0 0x34 0 0 0x40 8).structTake 0 8
     (u.otp.hashes.getD 0 []).isEmpty = false) ∧
    (match base.load 152 0 48 with | (_, .ok _) => true | _ => false) = true := by
  decide +kernel
/-- A container of no records is staged. -/
def stagedEmpty : State := withF (staging (keyed (slotted 3)) empty) [fr .structSrcLen 0 0 272]
theorem wit_writeSlot : (let v := w32 (2 % 16 * 256 + 1)
    let u := (stagedEmpty.regWriteRec 0 0x34 0 0 0x40 v).structTake 0 1
    stagedEmpty.served = true ∧ (stagedEmpty.regWriteRec 0 0x34 0 0 0x40 v).structBusy = false ∧ bf v 0 8 = 1 ∧ 2 ≠ u.runSlot ∧
      u.storeOk = true ∧ u.staged.2 = some empty ∧ checkForm empty = none ∧ checkTrust u.staged.1.otp u.staged.1.lifecycle empty = none ∧
      (byteAt empty 61).testBit 1 = false) ∧
    0x08000000 < (withF base [fr .structSrcHi 0 0 1]).pair .structSrcLo .structSrcHi 0 0 + ((withF base [fr .structSrcHi 0 0 1]).reg .structSrcLen 0 0).toNat := by
  decide +kernel
theorem wit_slotWritten : (let s := (slotted 3).setWdn { (slotted 3).wdn with cmd := some { op := 1, arg := 2, data := empty } }
    s.powered = true ∧ (s.wdn.cmd.map StructRun.op) = some 1) ∧
    (let s := (later (slotted 2) (3000 * tickS)).setWdn { (slotted 2).wdn with confirm := some (1, 0) }
     s.powered = true ∧ s.wdn.confirm = some (1, 0) ∧ 0 + s.fld .structXConfirm 0 0 0 16 * tickS ≤ s.ticks ∧
       (s.setWdn { s.wdn with confirm := none }).slotState 1 = 2 ∧ (s.setWdn { s.wdn with confirm := none }).slotState 0 ≠ 2) := by
  decide +kernel

/-- A structure command runs on those bytes. -/
def structRun (op arg : Nat) (d : List Byte) : State :=
  let s := keyed (slotted 3)
  s.setWdn { s.wdn with cmd := some { op := op, arg := arg, data := d } }
theorem container_loads : (checkContainer (keyed base).otp 0 container).isRight = true := by decide +kernel
theorem wit_verify : (structRun 5 0 container).powered = true ∧
    (checkContainer (structRun 5 0 container).otp (structRun 5 0 container).lifecycle container).isRight = true ∧
    (checkContainer (structRun 5 0 empty).otp (structRun 5 0 empty).lifecycle empty).isLeft = true :=
  have h : (structRun 5 0 container).otp = (keyed base).otp := by decide +kernel
  have h2 : (structRun 5 0 container).lifecycle = 0 := by decide +kernel
  ⟨by decide +kernel, by rw [h, h2]; exact container_loads, by decide +kernel⟩
/-- The structure of the container runs, and the same is loaded again in zone 0. -/
def reloading : State := { structRun 4 0 container with plan := planOf (containerRecs container) }
theorem wit_reload : reloading.effTemp < reloading.critTemp ∧
    (match checkContainer reloading.otp reloading.lifecycle container with
      | .inr l => ((reloading.imageGone l 0).zoneCheck 0 l.plan == none) && ((reloading.imageGone l 1).zoneCheck 1 l.plan).isSome
      | .inl _ => false) = true ∧
    (withF reloading [fr .thmTemp 0 0 0x800]).critTemp ≤ (withF reloading [fr .thmTemp 0 0 0x800]).effTemp :=
  ⟨by decide +kernel, by decide +kernel, by decide +kernel⟩
theorem wit_keys : (let s := structRun 6 1 revocation; checkRevoke s.otp s.lifecycle 1 revocation = none ∧ s.powered = true) ∧
    (let s := structRun 6 0 revocation; (checkRevoke s.otp s.lifecycle 0 revocation).isSome = true) ∧
    (let s := structRun 8 3 (sha384 cKey); (s.wdn.cmd.map StructRun.op) = some 8) := by decide +kernel
def zoneRun (step : Nat) : State :=
  let z : ZoneRun := { zone := 0, step := step, plan := plan, hash := [], seq := 1, image := true, heads := [], drainTick := 0 }
  base.setWdn { base.wdn with zone := some z }
theorem wit_zone : (zoneRun 3).live ∧ (zoneRun 4).live ∧ ((zoneRun 3).wdn.zone.map ZoneRun.step) = some 3 ∧
    ((zoneRun 4).wdn.zone.map ZoneRun.step) = some 4 := by
  unfold State.live
  decide +kernel

/-- A device in a lifecycle state with the token staged; its serial number and nonce are 0. -/
def debugIn (life : Nat) : State := withF (staging (keyed base) token) [fr .debugState 0 0 (w32 life)]
theorem wit_enterService : (debugIn 1).live ∧ (debugIn 1).reached 0 0x35 0 ∧
    (let t := (debugIn 1).regWriteRec 0 0x35 0 0 0x04 1
     t.fld .debugStatus 0 0 0 2 ≠ 1 ∧ t.pair .debugTokenLo .debugTokenHi 0 0 = 0 ∧ (t.load 152 0 256).2 = .ok token ∧
       (t.load 152 0 256).1.tokenCheck 0 token = 0) ∧
    (let t := (debugIn 0).regWriteRec 0 0x35 0 0 0x04 1
     (t.load 152 0 256).2 = .ok token ∧ (t.load 152 0 256).1.tokenCheck 0 token = 2) := by
  unfold State.live State.reached
  decide +kernel
theorem wit_debugBusy : (let s := withF (debugIn 1) [fr .debugStatus 0 0 1]
    (s.regWriteRec 0 0x35 0 0 0x04 1).fld .debugStatus 0 0 0 2 = 1 ∧ (s.regWriteRec 0 0x35 0 0 0x04 2).fld .debugStatus 0 0 0 2 = 1) ∧
    (let t := (withF (debugIn 1) [fr .debugTokenLo 0 0 0x08000000]).regWriteRec 0 0x35 0 0 0x04 1
     t.fld .debugStatus 0 0 0 2 ≠ 1 ∧ 0x08000000 < t.pair .debugTokenLo .debugTokenHi 0 0 + 256 ∧ t.tokenCheck 0x08000000 [] ≠ 0) ∧
    (let t := (withB (debugIn 1) [br .regCtl 152 0 0]).regWriteRec 0 0x35 0 0 0x04 1
     (t.load 152 0 256).2 = .refused) ∧
    ((debugIn 1).regWriteRec 0 0x35 0 0 0x04 2).lifecycle ≠ 0 ∧
    ((debugIn 1).bus.debugRead 1 0 4).2 = .refused ∧
    (let s := { debugIn 0 with bus := (withB (debugIn 0) (grant 153)).bus.poisonWord 0 }
     s.lifecycle = 0 ∧ (match (s.bus.debugRead 0 0 4).2 with | .ue _ => true | _ => false) = true) := by decide +kernel
theorem wit_debug : (let t := (debugIn 0).regWriteRec 0 0x35 0 0 0x04 2
     t.fld .debugStatus 0 0 0 2 ≠ 1 ∧ t.lifecycle = 0 ∧ t.otp.qualifying ≠ []) ∧
    (base.regWriteRec 0 0x35 0 0 0x04 2).otp.qualifying = [] ∧ (debugIn 1).lifecycle = 1 ∧
    ((debugIn 2).bus.debugRead 2 0 4).2 = .ok [0x56, 0x5A, 0x53, 0x54] ∧ (debugIn 2).lifecycle = 2 ∧ (debugIn 2).bus.memReady = true ∧
    ((debugIn 2).bus.writeChecked 153 0 [1]).2 = true ∧ (debugIn 0).bus.touchesLocked 0 1 = false := by decide +kernel
theorem wit_debugRecord : (let s := later (base.setWdn { base.wdn with dbgWrites := some (0, 1, 0, 3) }) tickMs
    s.live ∧ s.wdn.dbgWrites = some (0, 1, 0, 3) ∧ 0 + tickMs ≤ s.ticks) := by
  unfold State.live
  decide +kernel

theorem wit_hotStack : (let s := withB base [br .memTemp 0 0 0x6E69]; 105 ≤ s.stackTemp 0 ∧ 110 ≤ s.stackTemp 1) ∧
    base.stackTemp 0 < 105 ∧ base.stackTemp 1 < 105 := by decide +kernel

theorem wit_thmCmd : base.live ∧ base.reached 0 0x33 0 ∧
    (let t := base.regWriteRec 0 0x33 0 0 0x1C (w32 (0x7264 * 65536 + 1)); t.plan.tandem = none) ∧
    (let t := (paired 3).regWriteRec 0 0x33 0 0 0x1C (w32 (0x7264 * 65536 + 2))
     (paired 3).live ∧ (paired 3).reached 0 0x33 0 ∧ t.plan.tandem.isSome = true ∧ t.role = 3 ∧ t.fabricUp = true) ∧
    bf (5 : Word) 16 16 ≠ 0x7264 ∧ bf (0x72640003 : Word) 0 8 = 3 := by
  unfold State.live State.reached
  decide +kernel

end Sys2Proof.Tests
end

/-! SUPPORT. Barriers and fence objects (spec/03 R105, R106, R115; spec/00 R3): what each command makes of the state once it has reached
the device. -/

namespace Sys2Proof.Machine

/-- A write of CORE_BARRIER that reaches the device adds its barrier after the port's others and sets BUSY (R105). -/
theorem State.barrier_reached {s : State} {port : Nat} (h : s.reached port 1 0) (v : Word) :
    s.barrier port v =
      let u := s.regWriteRec port 1 0 0 0x08 v
      let hs := u.bus.hostSt port
      u.onBus fun b => (b.setHost port { hs with
        barriers := hs.barriers ++ [⟨bf v 16 16, if bit v 1 then u.barrierWaits port else []⟩] }).setFld .coreBarrierDone port 0 0 1 1 := by
  unfold State.barrier
  rw [State.hostWrite_reached h]

/-- The oldest barrier of a port, when what it waits for has completed, leaves the port's barriers and shows its token (R105). -/
theorem State.barrierDone_met {s : State} {port : Nat} {x : Barrier} {rest : List Barrier} (hb : (s.bus.hostSt port).barriers = x :: rest)
    (hm : s.bus.barrierMet x = true) :
    s.barrierDone port = s.onBus fun b => (b.setHost port { b.hostSt port with barriers := rest }).setReg .coreBarrierDone port 0
      (w32 (b2n (!rest.isEmpty) + x.token * 65536)) := by
  simp only [State.barrierDone, State.onBus, hb, hm, if_true]

/-- The owner's write of the high half signals the object with the pair (R106, R115). -/
theorem State.fenceSignalWrite_owned {s : State} {port obj : Nat} (h : s.reached port 3 0) (hn : obj < 4096) (ho : obj % 4 = port)
    (hi : Word) :
    s.fenceSignalWrite port obj hi =
      let u := s.regWriteRec port 3 0 0 (16 * obj + 12) hi
      u.onBus fun b => b.fenceSignal obj
        (((assocGet u.bus.pairLo (BReg.fkey .fenceSignalLo 0 obj)).getD 0).toNat + hi.toNat * 2 ^ 32) := by
  unfold State.fenceSignalWrite
  rw [State.hostWrite_reached h, if_neg (Nat.not_le.mpr hn), if_neg (not_not_intro ho)]

/-- Settles O12: each command goes to its law above by the law of the die or window that answers it; the reads of a fence's value are
State.fenceValueRead by its two cases. -/
theorem barriersAndFenceObjects : Obligations.BarriersAndFenceObjects := by
  refine ⟨?barrier, ?barrierDone, ?signal, ?read⟩
  case barrier =>
    intro s port v hs hr
    rw [exec_barrier, State.window_served hs, State.barrier_reached hr]
    rfl
  case barrierDone =>
    intro s port x rest hs hb hm
    rw [exec_barrierDone, State.window_served hs, State.barrierDone_met hb hm]
  case signal =>
    intro s port obj hi hl hr hn ho
    rw [exec_fenceSignalWrite, State.fabric_live hl, State.fenceSignalWrite_owned hr hn ho]
  case read =>
    intro s port obj hl
    simp only [exec_fenceValueRead, State.fabric_live hl]
    exact ⟨rfl, rfl⟩

end Sys2Proof.Machine

/-! SUPPORT. A write of ENC_SIZE (spec/11, the register table): the register takes the value, and ENC_FLOOR follows it. -/

namespace Sys2Proof.Machine

/-- The row of ENC_SIZE in the register table of ENCODE. -/
def encSizeRow : RegRow := ⟨.fn .encSize, 0x15, false, 0x1C, 0, 1, .rw⟩

theorem findReg_encSize : findReg 0x15 false 0x1C = some (encSizeRow, 0) := by decide +kernel

/-- Once ENC_SIZE has taken a value, ENC_FLOOR shows the floor of that size (R348). -/
theorem State.takeValue_encSize (s : State) (c : Nat) (v : Word) :
    s.takeValue (.fn .encSize) c 0 v = (s.setReg .encSize c 0 (underMask 0xFFFFFFFF (s.reg .encSize c 0) v)).showFloor c := by
  unfold State.takeValue
  rw [if_neg (by decide)]
  rfl

/-- A write of ENC_SIZE in range and in OFF is taken. -/
theorem State.writeRow_encSize {s : State} {c : Nat} {v : Word} (hr : s.inRange .encSize c v = true) (ho : s.regOpen .encSize c 0 = true)
    (port : Nat) : s.writeRow port c encSizeRow 0 v = s.takeValue (.fn .encSize) c 0 v := by
  have hrw : s.writeRow port c encSizeRow 0 v = if !s.inRange .encSize c v then s.ignored port 0x15 c
      else if !s.regOpen .encSize c 0 then s else s.takeValue (.fn .encSize) c 0 v := rfl
  rw [hrw, hr, ho]
  rfl

/-- Refutes O20: its third clause lets a read-write register take a value and nothing else change, but does not except ENC_SIZE. When
encoder core 0, which is OFF, is given the size 128 × 128, ENC_FLOOR goes from 0 to 68. -/
theorem not_registerAccessTakesEffect : ¬ Obligations.RegisterAccessTakesEffect := by
  rintro ⟨-, -, hrw, -⟩
  have hr : State.reset.inRange .encSize 0 0x00800080 = true := by decide
  have ho : State.reset.regOpen .encSize 0 0 = true := by decide
  have hset := (hrw State.reset 0 0 0 encSizeRow 0x00800080 .encSize rfl rfl (by decide) (by decide) (by decide) (by decide) (by decide)
    (by decide) rfl).1 hr ho
  rw [State.writeRow_encSize hr ho, State.takeValue_encSize] at hset
  have hfloor : (68 : Word) = 0 := congrArg (fun s : State => s.reg .encFloor 0 0) hset
  exact absurd hfloor (by decide)

end Sys2Proof.Machine

/-! SUPPORT. Losses of clock and supply, VDD_FAB, the life record and cut-off handshakes (spec/01 R13 to R17; spec/17 R554, R558, R559;
spec/18 R569, R570): what each command makes of the state, and what the fail-safe shows on a die in reset. -/

namespace Sys2Proof.Machine

section
variable {s : State}

/-! ### The fail-safe on a fabric die in reset -/

/-- FAULT_N follows by a message, which leaves everything but the shared part. -/
theorem State.faultPin_eq (s was : State) : s.faultPin was = { s with bus := (s.faultPin was).bus } := by
  unfold State.faultPin
  split <;> rfl

@[simp] theorem State.thmLevel_wdn (s : State) (l : Nat) : (s.thmLevel l).wdn = { s.wdn with alertLevel := l != 0 } := by
  unfold State.thmLevel
  rw [State.faultPin_eq]
  rfl

@[simp] theorem State.thmLevel_fabricUp (s : State) (l : Nat) : (s.thmLevel l).fabricUp = s.fabricUp := by
  unfold State.thmLevel
  rw [State.faultPin_eq]
  rfl

theorem State.thmLevel_fregs (s : State) (l : Nat) : (s.thmLevel l).fregs = (s.setFld .thmState 0 0 0 3 l).fregs := by
  unfold State.thmLevel
  rw [State.faultPin_eq]
  rfl

theorem State.level_congr {s t : State} (h : t.fregs = s.fregs) : t.level = s.level := State.fld_congr h ..

/-- The level reads as it was set. -/
theorem State.thmLevel_level (s : State) {l : Nat} (hl : l < 8) : (s.thmLevel l).level = l :=
  calc (s.thmLevel l).level
    _ = (s.setFld .thmState 0 0 0 3 l).level := State.level_congr (s.thmLevel_fregs l)
    _ = l % 2 ^ 3 := s.fld_setFld_self .thmState 0 0 0 3 l (by decide)
    _ = l := Nat.mod_eq_of_lt hl

/-- A fault writes the code, the count and, at the first since reset, the first code and its time (R554). -/
theorem State.fault_fregs (s : State) (cap inst code : Nat) :
    (s.fault cap inst code).fregs =
      let t := if s.fld .thmFault 0 0 16 16 = 0 then (s.setFld .thmFault 0 0 0 8 code).setReg .thmFaultTime 0 0 s.now else s
      let u := t.setFld .thmFault 0 0 8 8 code
      (u.setFld .thmFault 0 0 16 16 (min 65535 (u.fld .thmFault 0 0 16 16 + 1))).fregs := by
  unfold State.fault
  extract_lets _ _ _ u
  split <;> rfl

@[simp] theorem State.fault_wdn (s : State) (cap inst code : Nat) :
    (s.fault cap inst code).wdn = { s.wdn with alertFault := true } := by
  unfold State.fault
  extract_lets first t
  have ht : t.wdn = s.wdn := by unfold t; split <;> rfl
  split <;> exact congrArg (fun w : WdnSt => { w with alertFault := true }) ht

@[simp] theorem State.fault_fabricUp (s : State) (cap inst code : Nat) : (s.fault cap inst code).fabricUp = s.fabricUp := by
  unfold State.fault
  extract_lets first t
  have ht : t.fabricUp = s.fabricUp := by unfold t; split <;> rfl
  split <;> exact ht

/-- THM_FAULT shows the code of the last fault. -/
theorem State.fault_code (s : State) (cap inst code : Nat) : (s.fault cap inst code).fld .thmFault 0 0 8 8 = code % 256 := by
  rw [State.fld_congr (s.fault_fregs cap inst code), State.fld_setFld_apart _ _ _ _ _ _ _ _ _ (by decide) (.inl (by decide)),
    State.fld_setFld_self _ _ _ _ _ _ _ (by decide)]
  rfl

/-- A fault alone leaves the thermal level. -/
theorem State.fault_level (s : State) (cap inst code : Nat) : (s.fault cap inst code).level = s.level := by
  rw [State.level_congr (s.fault_fregs cap inst code)]
  unfold State.level
  rw [State.fld_setFld_ne _ (by decide), State.fld_setFld_ne _ (by decide)]
  split
  · rw [State.fld_setReg_ne _ (by decide), State.fld_setFld_ne _ (by decide)]
  · rfl

/-- Where no zone reload, structure command or service command runs, the fail-safe has none to end (R550). -/
theorem State.failSafeEnds_idle (hz : s.wdn.zone = none) (hc : s.wdn.cmd = none) (hv : s.wdn.serviceStep = none) :
    s.failSafeEnds = s := by
  simp only [State.failSafeEnds, State.reloadEnds, State.zoneHalt, hz, hc, hv]

/-- The fail-safe on a fabric die in reset, with nothing to end: the cause, the level, the fault and its event (R549). -/
theorem State.failSafe_inReset (hl : s.level < 3) (hf : s.fabricUp = false) (hz : s.wdn.zone = none) (hc : s.wdn.cmd = none)
    (hv : s.wdn.serviceStep = none) (code : Nat) :
    ∃ p : Payload, s.failSafe code = (((s.setWdn { s.wdn with cause := code }).thmLevel 3).fault 0x33 0 code).emit 0x3304 0 2 p := by
  have hi (p : Payload) := State.failSafeEnds_idle
    (s := (((s.setWdn { s.wdn with cause := code }).thmLevel 3).fault 0x33 0 code).emit 0x3304 0 2 p)
    (by simp [hz]) (by simp [hc]) (by simp [hv])
  unfold State.failSafe
  simp only [if_neg (Nat.not_le.mpr hl), State.thmLevel_fabricUp, State.setWdn_fabricUp, hf, hi, State.emit_fabricUp, State.fault_fabricUp,
    Bool.false_eq_true, if_false]
  exact ⟨_, rfl⟩

/-- What that fail-safe shows: level FAILSAFE, its cause and code, and both alerts. -/
theorem State.failSafe_shows (hl : s.level < 3) (hf : s.fabricUp = false) (hz : s.wdn.zone = none) (hc : s.wdn.cmd = none)
    (hv : s.wdn.serviceStep = none) (code : Nat) :
    let u := s.failSafe code
    u.level = 3 ∧ u.wdn.cause = code ∧ u.fld .thmFault 0 0 8 8 = code % 256 ∧ u.wdn.alertLevel = true ∧ u.wdn.alertFault = true := by
  obtain ⟨p, hp⟩ := State.failSafe_inReset hl hf hz hc hv code
  rw [hp]
  refine ⟨?level, by simp, ?fault, by simp, by simp⟩
  case level =>
    rw [State.level_congr (State.emit_fregs ..), State.fault_level, State.thmLevel_level _ (by decide)]
  case fault =>
    rw [State.fld_congr (State.emit_fregs ..), State.fault_code]

/-! ### Supplies -/

/-- A fault of VDD_FAB, after the witness's reports (R10), holds the die. -/
theorem State.supplyOut_vddFab (s : State) :
    s.supplyOut 0 = ((if s.fabricUp then s.islandSafeBy 0x3304 else s).failSafe 6).settle.holdDie := by
  simp [State.supplyOut]

/-- A fault of VDD_WIT, the witness island's own rail, is the loss of the island and the fail-safe (R299). -/
theorem State.supplyOut_vddWit (s : State) : s.supplyOut 1 = (s.islandLost 0).failSafe 6 := by
  simp [State.supplyOut]

/-- A fault of another fabric rail holds the die. -/
theorem State.supplyOut_fabricRail (s : State) {rail : Nat} (h2 : 2 ≤ rail) (h10 : rail < 10) :
    s.supplyOut rail = (s.failSafe 6).settle.holdDie := by
  have h0 : rail ≠ 0 := by omega
  have h1 : rail ≠ 1 := by omega
  have h12 : ¬ 12 ≤ rail := by omega
  simp [State.supplyOut, h0, h1, h10, h12]

/-- A fault of a rail that is not the fabric's leaves the die. -/
theorem State.supplyOut_wardenRail (s : State) {rail : Nat} (h10 : 10 ≤ rail) (h12 : rail < 12) : s.supplyOut rail = s.failSafe 6 := by
  have h0 : rail ≠ 0 := by omega
  have h1 : rail ≠ 1 := by omega
  simp [State.supplyOut, h0, h1, Nat.not_lt.mpr h10, Nat.not_le.mpr h12]

theorem State.faultLow_unpowered (h : s.powered = false) : s.faultLow = false := by
  simp [State.faultLow, h]

/-- Without a warden rail the module is unpowered, and a FAULT_N that was low is released (R569, R556). -/
theorem State.wardenRailLoss_eq (s : State) :
    s.wardenRailLoss =
      let t : State := { s.send (.pins 0) with powered := false, fabricUp := false }
      if s.faultLow then t.send (.faultN false) else t := by
  cases h : s.faultLow <;> simp [State.wardenRailLoss, State.faultPin, State.faultLow_unpowered, h]

/-! ### VDD_FAB -/

section
variable (hu : s.fabricUp = true)
include hu

/-- A raise is a request 5 mV higher, up to 850 mV, below WARN (R14 to R16). -/
theorem State.vddRaise_requests (m : Nat) (ht : s.tempMax < s.warnTemp) (hm : s.fld .thmVdd 0 0 0 10 < 850) :
    s.vddRaise m = s.vddRequest (min 850 (s.fld .thmVdd 0 0 0 10 + 5)) := by
  simp [State.vddRaise, hu, Nat.not_le.mpr hm, not_le.mpr ht]

/-- At the top the first raise raises WEAR_LIMIT (R17). -/
theorem State.vddRaise_limit (m : Nat) (hm : 850 ≤ s.fld .thmVdd 0 0 0 10) (hw : s.fld .thmWear 0 0 16 1 = 0) :
    s.vddRaise m = (s.setFld .thmWear 0 0 16 1 1).emit 0x330A 0 2 (pay [m, s.fld .thmVdd 0 0 0 10]) := by
  simp [State.vddRaise, hu, hm, hw]

/-- At the top later raises do nothing. -/
theorem State.vddRaise_limited (m : Nat) (hm : 850 ≤ s.fld .thmVdd 0 0 0 10) (hw : s.fld .thmWear 0 0 16 1 = 1) : s.vddRaise m = s := by
  simp [State.vddRaise, hu, hm, hw]

/-- From WARN on a raise does nothing (R16). -/
theorem State.vddRaise_warm (m : Nat) (ht : s.warnTemp ≤ s.tempMax) (hm : s.fld .thmVdd 0 0 0 10 < 850) : s.vddRaise m = s := by
  simp [State.vddRaise, hu, Nat.not_le.mpr hm, ht]

/-- 100 ms after the last request it is lowered by 5 mV, never below 680 (R14, R15). -/
theorem State.vddLower_requests (hm : 680 < s.fld .thmVdd 0 0 0 10) (ht : s.wdn.vddTick + 100 * tickMs ≤ s.ticks) :
    s.vddLower = s.vddRequest (max 680 (s.fld .thmVdd 0 0 0 10 - 5)) := by
  simp [State.vddLower, hu, Nat.not_le.mpr hm, Nat.not_lt.mpr ht]

end

/-- At the bottom, or within the 100 ms, it stays. -/
theorem State.vddLower_stays (h : s.fld .thmVdd 0 0 0 10 ≤ 680 ∨ s.ticks < s.wdn.vddTick + 100 * tickMs) : s.vddLower = s := by
  unfold State.vddLower
  exact if_pos (.inr h.symm)

/-- THM_VDD shows the request in force. -/
theorem State.vddRequest_shows (s : State) {mv : Nat} (h : mv < 1024) : (s.vddRequest mv).fld .thmVdd 0 0 0 10 = mv := by
  unfold State.vddRequest State.vddShow
  rw [State.fld_setFld_apart _ _ _ _ _ _ _ _ _ (by decide) (.inl (by decide)), State.fld_congr (State.setWdn_fregs ..),
    State.fld_congr (State.setWdn_fregs ..), State.fld_setFld_self _ _ _ _ _ _ _ (by decide)]
  exact Nat.mod_eq_of_lt h

/-! ### The life record -/

/-- The registers of the life record show it; the store and the warden keep what they hold. -/
@[simp] theorem State.showLife_flash (s : State) : s.showLife.flash = s.flash := by
  unfold State.showLife
  extract_lets
  split <;> rfl

@[simp] theorem State.showLife_wdn (s : State) : s.showLife.wdn = s.wdn := by
  unfold State.showLife
  extract_lets
  split <;> rfl

/-- THM_WEAR shows the margin of the last wear record (R559). -/
theorem State.showLife_margin {ws : List (Nat × Int × Nat)} {w : Nat × Int × Nat} (h : s.flash.wear ++ s.wdn.wearHeld = ws ++ [w]) :
    s.showLife.fld .thmWear 0 0 0 10 = (850 - w.1) % 1024 := by
  unfold State.showLife
  simp only [State.setReg_flash, State.setReg_wdn, h, List.getLast?_concat]
  exact State.fld_setFld_self _ _ _ _ _ _ _ (by decide)

/-- The life record as it is written with what was held (R553). -/
theorem State.writeLife_stored (h : s.storeOk = true) :
    s.writeLife = State.showLife { s with
      flash := { s.flash with lifeHours := s.flash.lifeHours + s.wdn.lifeHeld.1, lifeEq := s.flash.lifeEq + s.wdn.lifeHeld.2,
                              wear := s.flash.wear ++ s.wdn.wearHeld }
      wdn := { s.wdn with lifeHeld := (0, 0), wearHeld := [] } } := by
  simp [State.writeLife, h]

/-- An hour adds itself and its ageing to the life record (R558). -/
theorem State.lifeHour_due (hu : s.fabricUp = true) (ht : s.wdn.hourTick + 3600 * tickS ≤ s.ticks) :
    let mean := if s.wdn.tempCount = 0 then s.tempMax else s.wdn.tempSum / (s.wdn.tempCount : Int)
    s.lifeHour = (s.setWdn { s.wdn with
      hourTick := s.wdn.hourTick + 3600 * tickS, tempSum := 0, tempCount := 0,
      lifeHeld := (s.wdn.lifeHeld.1 + 1, s.wdn.lifeHeld.2 + lifeGain mean) }).writeLife := by
  unfold State.lifeHour
  exact if_neg (by simp [hu, Nat.not_lt.mpr ht])

/-- The state at the end of a day, with the day's highest request held for the life record (R559). -/
def State.dayHeld (s : State) : State :=
  s.setWdn { s.wdn with
    dayTick := s.wdn.dayTick + 86400 * tickS
    wearHeld := s.wdn.wearHeld ++ [(s.wdn.dayMax.1, s.wdn.dayMax.2, s.fld .thmState 0 0 8 2)]
    dayMax := (s.fld .thmVdd 0 0 0 10, s.tempMax) }

/-- A day writes the life record with that request, and at most raises WEAR_WARN after it. -/
theorem State.wearDay_due (hu : s.fabricUp = true) (ht : s.wdn.dayTick + 86400 * tickS ≤ s.ticks) :
    s.wearDay = s.dayHeld.writeLife ∨ ∃ p : Payload, s.wearDay = s.dayHeld.writeLife.emit 0x3309 0 1 p := by
  have hd : ¬ ((!s.fabricUp) = true ∨ s.ticks < s.wdn.dayTick + 86400 * tickS) := by simp [hu, Nat.not_lt.mpr ht]
  unfold State.wearDay
  rw [if_neg hd]
  exact (ite_eq_or_eq _ _ _).symm.imp_right fun h => ⟨_, h⟩

/-- What stands after the write of a day's record, with the store writable. -/
theorem State.dayHeld_written (h : s.storeOk = true) :
    let u := s.dayHeld.writeLife
    u.wdn.wearHeld = [] ∧
      u.flash.wear = s.flash.wear ++ s.wdn.wearHeld ++ [(s.wdn.dayMax.1, s.wdn.dayMax.2, s.fld .thmState 0 0 8 2)] ∧
      u.wdn.dayTick = s.wdn.dayTick + 86400 * tickS ∧ u.wdn.dayMax = (s.fld .thmVdd 0 0 0 10, s.tempMax) ∧
      u.fld .thmWear 0 0 0 10 = (850 - s.wdn.dayMax.1) % 1024 := by
  have hs : s.dayHeld.storeOk = true := h
  rw [State.writeLife_stored hs]
  refine ⟨by simp, by simp [State.dayHeld], by simp [State.dayHeld], by simp [State.dayHeld], ?margin⟩
  case margin =>
    exact State.showLife_margin (ws := s.flash.wear ++ s.wdn.wearHeld)
      (w := (s.wdn.dayMax.1, s.wdn.dayMax.2, s.fld .thmState 0 0 8 2)) (by simp [State.dayHeld])

/-- A day's record with the store writable. -/
theorem State.wearDay_stored (hu : s.fabricUp = true) (ht : s.wdn.dayTick + 86400 * tickS ≤ s.ticks) (h : s.storeOk = true) :
    s.wearDay.wdn.wearHeld = [] ∧
      s.wearDay.flash.wear = s.flash.wear ++ s.wdn.wearHeld ++ [(s.wdn.dayMax.1, s.wdn.dayMax.2, s.fld .thmState 0 0 8 2)] ∧
      s.wearDay.wdn.dayTick = s.wdn.dayTick + 86400 * tickS ∧ s.wearDay.wdn.dayMax = (s.fld .thmVdd 0 0 0 10, s.tempMax) ∧
      s.wearDay.fld .thmWear 0 0 0 10 = (850 - s.wdn.dayMax.1) % 1024 := by
  have hw := State.dayHeld_written h
  obtain he | ⟨p, he⟩ := State.wearDay_due hu ht
  · rw [he]
    exact hw
  · rw [he, State.emit_wdn, State.emit_flash, State.fld_congr (State.emit_fregs ..)]
    exact hw

/-! ### Cut-off handshakes (R13) -/

/-- A picture that is written comes in doubt. -/
theorem State.handshake_fill {n : Nat} {f : FillSt} (h : (s.src n).fill = some f) :
    s.handshake (.fill n) = s.setSrc n { s.src n with fill := some { f with fault := true } } := by
  simp only [State.handshake, h]

/-- The cycle of a running panel comes in doubt. -/
theorem State.handshake_panel {p : Nat} (h : s.panState p ≠ 0) : s.handshake (.panel p) = s.panDoubt p 4 0 0 4 := by
  simp only [State.handshake, if_pos h]

/-- The function that a running command is for stops. -/
theorem State.handshake_command {r k : Nat} {e : FEntry} (he : s.entry r k = some e) (hp : e.phase = .running) :
    s.handshake (.command r k) = s.stop (if followsHead (e.opcode / 256) then 0x14 else e.opcode / 256) e.inst 2 := by
  simp only [State.handshake, he, if_pos hp]

/-- What every frame needs is the fail-safe with fault 0x07. -/
theorem State.handshake_shared (s : State) {g : Stage} (h : g ∈ [Stage.memory, .tiles, .mailbox]) : s.handshake g = s.failSafe 7 := by
  simp only [List.mem_cons, List.not_mem_nil, or_false] at h
  obtain rfl | rfl | rfl := h <;> rfl

end

/-- Settles O50: each command goes by the law of the die that answers it to its law above; the stages of a handshake whose following has
no condition are State.handshake's own branches. -/
theorem lossesTakeEffect : Obligations.LossesTakeEffect := by
  refine ⟨?losses, ?failSafe, ?unpowered, ?raise, ?lower, ?request, ?hour, ?day, ?handshakes⟩
  case losses =>
    intro s h
    simp only [exec_refclkLoss, exec_wclkLoss, exec_avsReadbackFault, exec_supplyOutOfWindow, State.warden_powered h]
    refine ⟨rfl, rfl, rfl, ?vddFab, ?vddWit, ?fabricRail, ?wardenRail⟩
    case vddFab => rw [State.supplyOut_vddFab]
    case vddWit => rw [State.supplyOut_vddWit]
    case fabricRail => exact fun rail h2 h10 => by rw [State.supplyOut_fabricRail s h2 h10]
    case wardenRail => exact fun rail h10 h12 => by rw [State.supplyOut_wardenRail s h10 h12]
  case failSafe => exact fun s code hl hf hz hc hv => State.failSafe_shows hl hf hz hc hv code
  case unpowered => exact fun s => by rw [exec_wardenRailLoss, State.wardenRailLoss_eq]
  case raise =>
    intro s m h hu
    simp only [exec_vddFabRequestRaise, State.warden_powered h]
    refine ⟨fun ht hm => ?_, fun hm hw => ?_, fun hm hw => ?_, fun ht hm => ?_⟩
    · rw [State.vddRaise_requests hu m ht hm]
    · rw [State.vddRaise_limit hu m hm hw]
    · rw [State.vddRaise_limited hu m hm hw]
    · rw [State.vddRaise_warm hu m ht hm]
  case lower =>
    intro s h hu
    simp only [exec_vddFabRequestLower, State.warden_powered h]
    refine ⟨fun hm ht => ?_, fun hs => ?_⟩
    · rw [State.vddLower_requests hu hm ht]
    · rw [State.vddLower_stays hs]
  case request => exact fun s mv h => State.vddRequest_shows s h
  case hour =>
    intro s h hu ht
    simp only [exec_lifeHour, State.warden_powered h, State.lifeHour_due hu ht]
  case day =>
    intro s h hu ht hs
    exact ⟨s.wearDay, by rw [exec_wearDay, State.warden_powered h], State.wearDay_stored hu ht hs⟩
  case handshakes =>
    intro s hl
    simp only [exec_handshakeCompletionTimeout, State.fabric_live hl]
    refine ⟨fun n f hf => ?fill, fun _ _ _ => rfl, fun _ => rfl, fun _ => rfl, fun _ => rfl, fun p hp => ?panel,
      fun r k e he hp => ?command, rfl, fun _ => rfl, rfl, rfl, fun g hg => ?shared, rfl⟩
    case fill => rw [State.handshake_fill hf]
    case panel => rw [State.handshake_panel hp]
    case command => rw [State.handshake_command he hp]
    case shared => rw [State.handshake_shared s hg]

end Sys2Proof.Machine

/-! SUPPORT. Structure commands (spec/02 R54, R58 to R63, R69 to R74, R76, R578): what OTP keeps over a step, what each command makes of an
idle STRUCTURE, and how the warden's checks and the steps of a zone reload end. -/

namespace Sys2Proof.Machine

/-! ### One-time memory -/

/-- Settles O6: an idle tick and a command both keep what OTP holds, and taking a command off the queue leaves OTP alone. -/
theorem stepNeverUndoesOtp : Obligations.StepNeverUndoesOtp := by
  intro s t h
  unfold step at h
  split at h
  case h_1 =>
    cases h
    exact (State.idle_keeps (.refl s)).otp
  case h_2 c rest _ => exact (exec_keeps c { s with pending := rest } t h).otp

/-! ### A write of STRUCT_CMD -/

/-- A write of STRUCT_CMD that reaches STRUCTURE performs the OP and ARG of the word. -/
theorem State.window_structCmd {s : State} {port op arg : Nat} {v : Word} (hs : s.served = true) (hr : s.reached port 0x34 0)
    (hop : bf v 0 8 = op) (harg : bf v 8 4 = arg) :
    (s.window fun s => s.structCmdWrite port v) =
      .next ((s.regWriteRec port 0x34 0 0 0x40 v).structCmd port op arg).watch.settle := by
  rw [State.window_served hs, ← hop, ← harg]
  unfold State.structCmdWrite
  rw [State.hostWrite_reached hr]

/-- While a command is BUSY a write only sets REFUSED (R74). -/
theorem State.structCmd_busy {t : State} (h : t.structBusy = true) (port op arg : Nat) :
    t.structCmd port op arg = t.setFld .structStatus 0 0 4 1 1 := by
  unfold State.structCmd
  rw [if_pos h]

/-- A ZONE_RELOAD that begins at CRIT is refused (R69). -/
theorem State.structCmd_reloadHot {t : State} {arg : Nat} (hb : t.structBusy = false) (ha : structRange 4 arg = false) (port : Nat)
    (ht : (t.structTake port 4).critTemp ≤ (t.structTake port 4).effTemp) :
    t.structCmd port 4 arg = (t.structTake port 4).structFails 0x11 0xFFFF := by
  unfold State.structCmd
  simp only [hb, ha, Bool.false_eq_true, if_false]
  exact if_pos ht

/-- PROVISION_KEY outside MANUFACTURING, or of a slot that holds a hash, is refused (R61). -/
theorem State.structCmd_provisionRefused {t : State} {arg : Nat} (hb : t.structBusy = false) (ha : structRange 8 arg = false) (port : Nat)
    (h : (t.structTake port 8).lifecycle ≠ 0 ∨ ((t.structTake port 8).otp.hashes.getD arg []).isEmpty = false) :
    t.structCmd port 8 arg = (t.structTake port 8).structFails 0x12 0xFFFF := by
  unfold State.structCmd
  simp only [hb, ha, Bool.false_eq_true, if_false]
  exact if_pos (by simpa using h)

/-! ### Slots -/

/-- The slot that runs cannot be written (R54). -/
theorem State.writeSlot_running (s : State) : s.writeSlot s.runSlot = s.structFails 0x12 0xFFFF := by
  unfold State.writeSlot
  exact if_pos (Or.inl rfl)

/-- GOLDEN cannot be written in lifecycle state 1 (R58). -/
theorem State.writeSlot_golden {s : State} (h : s.lifecycle = 1) : s.writeSlot 0 = s.structFails 0x12 0xFFFF := by
  unfold State.writeSlot
  exact if_pos (Or.inr ⟨rfl, h⟩)

section
variable {s : State} {k : Nat} (hk : k ≠ s.runSlot) (hg : ¬ (k = 0 ∧ s.lifecycle = 1))
include hk hg

theorem State.writeSlot_storeRefused (h : s.storeOk = false) :
    s.writeSlot k = (s.storeRefused 0).structFails 0x11 0xFFFF := by
  unfold State.writeSlot
  rw [if_neg (not_or.mpr ⟨hk, hg⟩)]
  exact if_pos (by rw [h]; rfl)

/-- A container that does not lie in the staging partition (R76). -/
theorem State.writeSlot_unstaged (h : s.storeOk = true) (hd : s.staged.2 = none) :
    s.writeSlot k = s.staged.1.structFails 0x10 0xFFFF := by
  unfold State.writeSlot
  rw [if_neg (not_or.mpr ⟨hk, hg⟩), if_neg (by simp [h])]
  generalize s.staged = r at hd ⊢
  obtain ⟨w, o⟩ := r
  cases hd
  rfl

/-- A container that check 1 to 7 of R64 turns away. -/
theorem State.writeSlot_unsound {w : State} {d : List Byte} {f : Nat × Nat} (h : s.storeOk = true) (hd : s.staged = (w, some d))
    (hf : firstFailure [checkForm d, checkTrust w.otp w.lifecycle d, failIf ((byteAt d 61).testBit 1) 7 0xFFFF] = some f) :
    s.writeSlot k = w.structFails f.1 f.2 := by
  unfold State.writeSlot
  rw [if_neg (not_or.mpr ⟨hk, hg⟩), if_neg (by simp [h]), hd]
  simp only [hf]

/-- A container that passes empties the slot, and its write goes on (R54, R59). -/
theorem State.writeSlot_begins {w : State} {d : List Byte} (h : s.storeOk = true) (hd : s.staged = (w, some d)) (hform : checkForm d = none)
    (htrust : checkTrust w.otp w.lifecycle d = none) (hzone : (byteAt d 61).testBit 1 = false) :
    s.writeSlot k =
      let x := { w with flash := { w.flash with slots := w.flash.slots.set k [] } }
      let x := x.putSlots fun r => { r with states := r.states.set k 0, seqs := r.seqs.set k 0, hashes := r.hashes.set k [] }
      x.setWdn { x.wdn with cmd := some { op := 1, arg := k, data := d.take (leAt d 8 4) } } := by
  unfold State.writeSlot
  rw [if_neg (not_or.mpr ⟨hk, hg⟩), if_neg (by simp [h]), hd]
  simp only [hform, htrust, hzone, failIf, firstFailure, Bool.false_eq_true, if_false]

end

theorem State.setPreferred_sound {s : State} {k : Nat} (h : s.slotState k = 1 ∨ s.slotState k = 3) :
    s.setPreferred k =
      (s.putSlots fun r => { r with states := r.states.set k 2, preferred := k, trialBoots := 0 }).structEnd 2 0 := by
  unfold State.setPreferred
  exact if_neg (by omega)

theorem State.setPreferred_refused {s : State} {k : Nat} (h1 : s.slotState k ≠ 1) (h3 : s.slotState k ≠ 3) :
    s.setPreferred k = s.structEnd 3 0x12 := by
  unfold State.setPreferred
  exact if_pos ⟨h1, h3⟩

theorem State.confirmSlot_trial {s : State} (hr : s.runSlot ≠ 3) (ht : s.slotState s.runSlot = 2) :
    s.confirmSlot =
      ((s.setSlotState s.runSlot 3).setWdn { (s.setSlotState s.runSlot 3).wdn with confirm := none }).structEnd 2 0 := by
  unfold State.confirmSlot
  exact if_neg (by simp [hr, ht])

theorem State.confirmSlot_refused {s : State} (h : s.runSlot = 3 ∨ s.slotState s.runSlot ≠ 2) :
    s.confirmSlot = s.structEnd 3 0x12 := by
  unfold State.confirmSlot
  exact if_pos h

/-- The floor rises to the SEQUENCE of a CONFIRMED slot that runs, where GOLDEN's is no lower (R63). -/
theorem State.raiseFloor_raises {s : State} (hr : s.runSlot ≠ 3) (hc : s.slotState s.runSlot = 3)
    (hg : (s.reg .structSeq 0 0).toNat ≤ leAt (s.flash.slots.getD 0 []) 64 4) :
    s.raiseFloor = State.structEnd (State.identity
      { s with otp := { s.otp with floor := max s.otp.floor (s.reg .structSeq 0 0).toNat } }) 2 0 := by
  unfold State.raiseFloor
  exact if_neg (not_or.mpr ⟨hr, not_or.mpr ⟨not_not_intro hc, Nat.not_lt.mpr hg⟩⟩)

theorem State.raiseFloor_refused {s : State} (h : s.runSlot = 3 ∨ s.slotState s.runSlot ≠ 3 ∨
    leAt (s.flash.slots.getD 0 []) 64 4 < (s.reg .structSeq 0 0).toNat) : s.raiseFloor = s.structEnd 3 0x12 := by
  unfold State.raiseFloor
  exact if_pos h

/-! ### What is staged for the checks -/

theorem State.structRead_hash {s w : State} {d : List Byte} (arg : Nat) (h : s.load 152 0 48 = (w, .ok d)) :
    s.structRead 8 arg = w.setWdn { w.wdn with cmd := some { op := 8, arg := arg, data := d } } := by
  unfold State.structRead
  simp only [if_true, h]

theorem State.structRead_staged {s w : State} {op : Nat} {d : List Byte} (arg : Nat) (ho : op ≠ 8) (h : s.staged = (w, some d)) :
    s.structRead op arg = w.setWdn { w.wdn with cmd := some { op := op, arg := arg, data := d } } := by
  unfold State.structRead
  simp only [if_neg ho, h]

/-- A container beyond the staging partition is not read (R76). -/
theorem State.staged_outside {s : State} (h : 0x08000000 < s.pair .structSrcLo .structSrcHi 0 0 + (s.reg .structSrcLen 0 0).toNat) :
    s.staged = (s, none) := by
  unfold State.staged
  exact if_pos h

theorem State.structRead_unstaged {s w : State} {op : Nat} (arg : Nat) (ho : op ≠ 8) (h : s.staged = (w, none)) :
    s.structRead op arg = w.structFails 0x10 0xFFFF := by
  unfold State.structRead
  simp only [if_neg ho, h]

/-! ### The ends of a slot's write and of a trial -/

theorem State.slotWritten_differs {s : State} {c : StructRun} (hc : s.wdn.cmd = some c) (ho : c.op = 1) :
    s.slotWritten false = s.structFails 0x13 0xFFFF := by
  unfold State.slotWritten
  simp only [hc, ho]
  rfl

theorem State.slotWritten_same {s : State} {c : StructRun} (hc : s.wdn.cmd = some c) (ho : c.op = 1) :
    s.slotWritten true =
      let x := { s with flash := { s.flash with slots := s.flash.slots.set c.arg c.data } }
      let x := x.putSlots fun r => { r with
        states := r.states.set c.arg 1, seqs := r.seqs.set c.arg (leAt c.data 64 4), hashes := r.hashes.set c.arg (slice c.data 12 48) }
      (x.structEnd 2 0).emit 0x3406 0 0 (pay [c.arg, 0, leAt c.data 12 4, leAt c.data 16 4]) := by
  unfold State.slotWritten
  simp only [hc, ho]
  rfl

/-- The confirmation time is up (R54): the slot fails if it is still the TRIAL one. -/
theorem State.confirmTimeout_due {s : State} {k t : Nat} (hc : s.wdn.confirm = some (k, t))
    (hd : t + s.fld .structXConfirm 0 0 0 16 * tickS ≤ s.ticks) :
    s.confirmTimeout =
      let u := s.setWdn { s.wdn with confirm := none }
      if u.slotState k = 2 then (u.setSlotState k 4).emit 0x3407 0 1 (pay (k :: 0 :: u.hash8)) else u := by
  unfold State.confirmTimeout
  simp only [hc, if_neg (Nat.not_lt.mpr hd)]

/-! ### The commands together -/

/-- The commands that are writes of STRUCT_CMD, each with the OP and the ARG that it writes. -/
def structCmds (port k : Nat) : List (Instr × Nat × Nat) :=
  [(.writeSlot port k, 1, k % 16), (.setPreferred port k, 2, k % 16), (.confirm port, 3, 0), (.zoneReload port k, 4, k % 16),
    (.verify port, 5, 0), (.revokeKey port k, 6, k % 16), (.raiseFloor port, 7, 0), (.provisionKey port k, 8, k % 16)]

/-- A command of the table that reaches STRUCTURE performs its OP with its ARG. -/
theorem exec_structCmds {s : State} {port k : Nat} (hs : s.served = true) (hr : s.reached port 0x34 0) {p : Instr × Nat × Nat}
    (hp : p ∈ structCmds port k) :
    exec p.1 s =
      .next ((s.regWriteRec port 0x34 0 0 0x40 (w32 (p.2.2 * 256 + p.2.1))).structCmd port p.2.1 p.2.2).watch.settle := by
  have arg (o : Nat) (ho : o < 256) := State.window_structCmd hs hr (bf_arg k o ho).2 (bf_arg k o ho).1
  have noArg (o : Nat) (ho : o < 256) := State.window_structCmd hs hr (bf_arg 0 o ho).2 (bf_arg 0 o ho).1
  simp only [structCmds, List.mem_cons, List.not_mem_nil, or_false] at hp
  obtain rfl | rfl | rfl | rfl | rfl | rfl | rfl | rfl := hp
  · exact arg 1 (by decide)
  · exact arg 2 (by decide)
  · exact noArg 3 (by decide)
  · exact arg 4 (by decide)
  · exact noArg 5 (by decide)
  · exact arg 6 (by decide)
  · exact noArg 7 (by decide)
  · exact arg 8 (by decide)

/-- CONFIRM and RAISE_FLOOR are written with ARG 0. -/
theorem structCmds_arg_zero (port k : Nat) : ∀ p ∈ structCmds port k, p.2.1 = 3 ∨ p.2.1 = 7 → p.2.2 = 0 := by
  simp [structCmds]

/-- Settles O52: a write that reaches STRUCTURE performs the OP and ARG of its word, and each OP, on an idle STRUCTURE with its ARG in
range, is the operation that the laws above follow through its branches. -/
theorem structureCommandsTakeEffect : Obligations.StructureCommandsTakeEffect := by
  refine ⟨?taken, ?refused, fun s w arg d h => State.structRead_hash arg h, fun s w op arg d ho h => State.structRead_staged arg ho h,
    fun s h op arg ho => State.structRead_unstaged arg ho (State.staged_outside h), ?slotWritten, ?confirmTimeout⟩
  case taken =>
    intro s port v op hs hr hop
    have write {arg : Nat} (harg : bf v 8 4 = arg) := State.window_structCmd hs hr hop harg
    refine ⟨fun hb => ?busy, fun hb => ?idle⟩
    case busy =>
      have busy := State.structCmd_busy hb port op (bf v 8 4)
      refine ⟨?_, ?_, ?_⟩ <;> rintro rfl
      · rw [exec_confirm, write rfl, busy]
      · rw [exec_verify, write rfl, busy]
      · rw [exec_raiseFloor, write rfl, busy]
    case idle =>
      obtain ⟨writes, prefers, confirms, reloads, verifies, revokes, raises, provisions, outOfRange⟩ := State.structCmd_idle hb port
      have op_eq {k o : Nat} (ho : o < 256) (hv : v = w32 (k % 16 * 256 + o)) : o = op ∧ bf v 8 4 = k % 16 :=
        ⟨(bf_arg k o ho).2.symm.trans (hv ▸ hop), hv ▸ (bf_arg k o ho).1⟩
      have op_arg {k o : Nat} (ho : o < 256) (hk : k < 16) (hv : v = w32 (k % 16 * 256 + o)) : o = op ∧ bf v 8 4 = k :=
        (op_eq ho hv).imp_right fun h => h.trans (Nat.mod_eq_of_lt hk)
      have op_alone {o : Nat} (hv : bf v 0 8 = o) : o = op := hv.symm.trans hop
      refine ⟨?prefer, ?preferRange, ?confirm, ?writeRunning, ?writeBegins, ?reload, ?verify, ?revoke, ?raise, ?provision⟩
      case prefer =>
        intro k hv hk hst
        obtain ⟨rfl, harg⟩ := op_arg (by decide) (by omega) hv
        have range : structRange 2 k = false := by obtain rfl | rfl := hk <;> rfl
        rw [exec_setPreferred, ← hv, write harg, prefers k range, State.setPreferred_sound hst]
      case preferRange =>
        intro k hv hk
        obtain ⟨rfl, harg⟩ := op_eq (by decide) hv
        have range : structRange 2 (k % 16) = true := by simp only [structRange, Bool.and_eq_true, bne_iff_ne]; omega
        rw [exec_setPreferred, ← hv, write harg, outOfRange 2 (k % 16) range]
      case confirm =>
        rintro rfl hr3 hst
        obtain rfl := op_alone (by decide : bf (3 : Word) 0 8 = 3)
        rw [exec_confirm, write (by decide : bf (3 : Word) 8 4 = 0), confirms, State.confirmSlot_trial hr3 hst]
      case writeRunning =>
        intro k hv hk hrun
        obtain ⟨rfl, harg⟩ := op_arg (by decide) (by omega) hv
        rw [exec_writeSlot, ← hv, write harg, writes k (decide_eq_false (by omega)), hrun, State.writeSlot_running]
      case writeBegins =>
        intro k w d hv hk hg hrun hok hd hform htrust hzone
        obtain ⟨rfl, harg⟩ := op_arg (by decide) (by omega) hv
        rw [exec_writeSlot, ← hv, write harg, writes k (decide_eq_false (by omega)),
          State.writeSlot_begins hrun (fun h => hg h.1 h.2) hok hd hform htrust hzone]
      case reload =>
        intro z hv hz ht
        obtain ⟨rfl, harg⟩ := op_arg (by decide) (by omega) hv
        rw [exec_zoneReload, ← hv, write harg, reloads z (decide_eq_false (by omega)) ht]
      case verify =>
        rintro rfl
        obtain rfl := op_alone (by decide : bf (5 : Word) 0 8 = 5)
        rw [exec_verify, write (by decide : bf (5 : Word) 8 4 = 0), verifies]
      case revoke =>
        intro k hv hk
        obtain ⟨rfl, harg⟩ := op_arg (by decide) (by omega) hv
        rw [exec_revokeKey, ← hv, write harg, revokes k (decide_eq_false (by omega))]
      case raise =>
        rintro rfl hr3 hst hg
        obtain rfl := op_alone (by decide : bf (7 : Word) 0 8 = 7)
        rw [exec_raiseFloor, write (by decide : bf (7 : Word) 8 4 = 0), raises, State.raiseFloor_raises hr3 hst hg]
      case provision =>
        intro k hv hk hl he
        obtain ⟨rfl, harg⟩ := op_arg (by decide) (by omega) hv
        rw [exec_provisionKey, ← hv, write harg, provisions k (decide_eq_false (by omega)) hl he]
  case refused =>
    rintro s port k hs hr p hp
    have run := exec_structCmds hs hr hp
    refine ⟨fun hb => by rw [run, State.structCmd_busy hb], fun hb ha => ?range, fun hb ha => ?inRange⟩
    case range =>
      obtain ⟨-, -, -, -, -, -, -, -, outOfRange⟩ := State.structCmd_idle hb port
      rw [run, outOfRange _ _ ha]
    case inRange =>
      obtain ⟨writes, prefers, confirms, -, -, -, raises, -, -⟩ := State.structCmd_idle hb port
      have noArg := structCmds_arg_zero port k p hp
      obtain ⟨c, op, arg⟩ := p
      dsimp only at *
      refine ⟨?golden, ?write, ?prefer, ?confirm, ?reload, ?raise, ?provision⟩
      case golden =>
        rintro rfl rfl hl
        rw [run, writes 0 ha, State.writeSlot_golden hl]
      case write =>
        rintro rfl hk hg
        refine ⟨fun h => ?_, fun h hd => ?_, fun w d f h hd hf => ?_⟩
        · rw [run, writes _ ha, State.writeSlot_storeRefused hk hg h]
        · rw [run, writes _ ha, State.writeSlot_unstaged hk hg h hd]
        · rw [run, writes _ ha, State.writeSlot_unsound hk hg h hd hf]
      case prefer =>
        rintro rfl h1 h3
        rw [run, prefers _ ha, State.setPreferred_refused h1 h3]
      case confirm =>
        rintro rfl h
        obtain rfl := noArg (.inl rfl)
        rw [run, confirms, State.confirmSlot_refused h]
      case reload =>
        rintro rfl h
        rw [run, State.structCmd_reloadHot hb ha port h]
      case raise =>
        rintro rfl h
        obtain rfl := noArg (.inr rfl)
        rw [run, raises, State.raiseFloor_refused h]
      case provision =>
        rintro rfl h
        rw [run, State.structCmd_provisionRefused hb ha port h]
  case slotWritten =>
    intro s c hp hc ho
    simp only [exec_slotWritten, State.warden_powered hp]
    exact ⟨by rw [State.slotWritten_differs hc ho], by rw [State.slotWritten_same hc ho]⟩
  case confirmTimeout =>
    intro s k t hp hc hd
    rw [exec_confirmTimeout, State.warden_powered hp, State.confirmTimeout_due hc hd]
    exact ⟨fun h => by rw [if_pos h], fun h => by rw [if_neg h]⟩

/-! ### The ends of the warden's checks -/

section
variable {s : State} {c : StructRun} (hc : s.wdn.cmd = some c)
include hc

theorem State.structChecked_verifyFails {f : Nat × Nat} (ho : c.op = 5) (hf : checkContainer s.otp s.lifecycle c.data = .inl f) :
    s.structChecked = s.structFails f.1 f.2 := by
  unfold State.structChecked
  simp only [hc, ho, hf]

theorem State.structChecked_verified {l : Loaded} (ho : c.op = 5) (hl : checkContainer s.otp s.lifecycle c.data = .inr l) :
    s.structChecked = (s.imageGone l 3).structEnd 2 0 := by
  unfold State.structChecked
  simp only [hc, ho, hl]

/-- A ZONE_RELOAD whose checks end at CRIT is refused (R69). -/
theorem State.structChecked_reloadHot (ho : c.op = 4) (ht : s.critTemp ≤ s.effTemp) : s.structChecked = s.structFails 0x11 0xFFFF := by
  unfold State.structChecked
  simp only [hc, ho, if_pos ht]

theorem State.structChecked_reloadFails {f : Nat × Nat} (ho : c.op = 4) (ht : s.effTemp < s.critTemp)
    (hf : checkContainer s.otp s.lifecycle c.data = .inl f) : s.structChecked = s.structFails f.1 f.2 := by
  unfold State.structChecked
  simp only [hc, ho, if_neg (Int.not_le.mpr ht), hf]

section
variable {l : Loaded} (ho : c.op = 4) (ht : s.effTemp < s.critTemp) (hl : checkContainer s.otp s.lifecycle c.data = .inr l)
include ho ht hl

/-- A container that passes R64 and one of R69's checks turns away. -/
theorem State.structChecked_reloadRefused {f : Nat × Nat} (hz : (s.imageGone l c.arg).zoneCheck c.arg l.plan = some f) :
    s.structChecked = (s.imageGone l c.arg).structFails f.1 f.2 := by
  unfold State.structChecked
  simp only [hc, ho, if_neg (Int.not_le.mpr ht), hl, hz]

theorem State.structChecked_reloadBegins (hz : (s.imageGone l c.arg).zoneCheck c.arg l.plan = none) :
    s.structChecked =
      ((s.imageGone l c.arg).setWdn { (s.imageGone l c.arg).wdn with cmd := none }).zoneBegin c.arg l := by
  unfold State.structChecked
  simp only [hc, ho, if_neg (Int.not_le.mpr ht), hl, hz]

end

theorem State.structChecked_revokeFails {f : Nat × Nat} (ho : c.op = 6) (hf : checkRevoke s.otp s.lifecycle c.arg c.data = some f) :
    s.structChecked = s.structFails f.1 f.2 := by
  unfold State.structChecked
  simp only [hc, ho, hf]

/-- An order that passes blows the revoke bit of its slot (R62). -/
theorem State.structChecked_revokes (ho : c.op = 6) (hf : checkRevoke s.otp s.lifecycle c.arg c.data = none) :
    s.structChecked =
      let u : State := { s with otp := { s.otp with revoked := s.otp.revoked.set c.arg true } }
      (u.identity.structEnd 2 0).emit 0x3408 0 1 (pay [c.arg, 0, leAt c.data 12 4, leAt c.data 16 4]) := by
  unfold State.structChecked
  simp only [hc, ho, hf]

/-- The staged hash is programmed into its slot (R61). -/
theorem State.structChecked_provisions (ho : c.op = 8) :
    s.structChecked =
      let u : State := { s with otp := { s.otp with hashes := s.otp.hashes.set c.arg (fit 48 c.data) } }
      u.identity.structEnd 2 0 := by
  unfold State.structChecked
  simp only [hc, ho]

end

/-! ### The steps of a zone reload -/

section
variable {s : State} {z : ZoneRun} (hz : s.wdn.zone = some z)
include hz

/-- Step 3 ends once the drain's time is up (R70). -/
theorem State.zoneDrainEnd_due (h3 : z.step = 3) (ht : z.drainTick ≤ s.ticks) :
    s.zoneDrainEnd =
      (s.zoneRec z.zone 3 0).setWdn { (s.zoneRec z.zone 3 0).wdn with zone := some { z with step := 4 } } := by
  unfold State.zoneDrainEnd
  simp only [hz]
  exact if_neg (by omega)

theorem State.zoneHalt_running (reason : Nat) :
    s.zoneHalt reason =
      let u := ((s.zoneRec z.zone z.step 1).setZoneState z.zone 3).setFld .structState 0 0 0 3 2
      let u := (u.structFail reason 3 0xFFFF).structEnd 3 reason
      (u.setWdn { u.wdn with zone := none }).emit 0x3405 0 2 (pay (z.zone :: reason :: u.hash8)) := by
  unfold State.zoneHalt
  simp only [hz]

/-- A routing that fails halts the zone (R72). -/
theorem State.zoneRouted_fails {reason : Nat} (h4 : z.step = 4) (hf : reason ≠ 0) : s.zoneRouted reason = s.zoneHalt reason := by
  unfold State.zoneRouted
  simp only [hz, h4, hf, ne_eq, not_true, not_false_eq_true, if_false, if_true]

end

/-- Settles O53: the checks end by the laws of State.structChecked above, one per OP and finding; the load of step 4 is the branch of
State.zoneRouted for no failure, as the statement writes it out. -/
theorem structureEndsTakeEffect : Obligations.StructureEndsTakeEffect := by
  refine ⟨?checks, ?drain, ?routing⟩
  case checks =>
    intro s c hp hc
    simp only [exec_structCmdDone, State.warden_powered hp]
    refine ⟨fun ho => ⟨fun f hf => ?verifyFails, fun l hl => ?verified⟩, fun ho ht => ?hot,
      fun ho ht => ⟨fun f hf => ?reloadFails, fun l hl => ⟨fun f hz => ?reloadRefused, fun hz => ?reloadBegins⟩⟩,
      fun ho => ⟨fun f hf => ?revokeFails, fun hf => ?revokes⟩, fun ho => ?provisions⟩
    case verifyFails => rw [State.structChecked_verifyFails hc ho hf]
    case verified => rw [State.structChecked_verified hc ho hl]
    case hot => rw [State.structChecked_reloadHot hc ho ht]
    case reloadFails => rw [State.structChecked_reloadFails hc ho ht hf]
    case reloadRefused => rw [State.structChecked_reloadRefused hc ho ht hl hz]
    case reloadBegins => rw [State.structChecked_reloadBegins hc ho ht hl hz]
    case revokeFails => rw [State.structChecked_revokeFails hc ho hf]
    case revokes => rw [State.structChecked_revokes hc ho hf]
    case provisions => rw [State.structChecked_provisions hc ho]
  case drain =>
    intro s z hl hz h3 ht
    rw [exec_zoneDrainEnd, State.fabric_live hl, State.zoneDrainEnd_due hz h3 ht]
  case routing =>
    intro s z hl hz h4
    simp only [exec_zoneRoutingLoaded, State.fabric_live hl]
    refine ⟨fun reason hf => ?halts, ?loads⟩
    case halts => rw [State.zoneRouted_fails hz h4 hf, State.zoneHalt_running hz, h4]
    case loads =>
      unfold State.zoneRouted
      simp only [hz, h4, ne_eq, not_true, if_false]

end Sys2Proof.Machine

/-! SUPPORT. Rings and host ports (spec/03): the frame of a command's end, what a host's writes of ring registers and the waits of ring
commands come to, and what a NOP does. -/

namespace Sys2Proof.Machine

/-! ### The frame of a command's end -/

/-- A function register that no panel's state or report stands in. -/
theorem panelReg_eq_false {r : FReg} (h1 : r ≠ .touchStatus) (h2 : r ≠ .touchSuspect) (h3 : r ≠ .touchDropped) (h4 : r ≠ .touchReports)
    (h5 : r ≠ .touchLastAge) : panelReg r = false := by
  unfold panelReg
  split
  case h_6 => rfl
  all_goals contradiction

/-- A bus register that delivery leaves: not FN_CTL of a ring, nor one that posting to rings counts in. -/
theorem eventReg_eq_false {r : BReg} {i : Nat} (hc : r ≠ .fnCtl ∨ i ≠ 2)
    (hr : r ∉ [BReg.ringProd, .ringCons, .ringStatus, .coreEvtLost, .accWriteRefused, .memUnmapped,
      .memBytesS0Lo, .memBytesS0Hi, .memBytesS1Lo, .memBytesS1Hi, .fenceValueLo, .fenceValueHi]) : eventReg r i = false := by
  unfold eventReg
  split
  case h_1 => exact beq_false_of_ne (hc.resolve_left (not_not_intro rfl))
  case h_14 => rfl
  all_goals exact absurd (by decide) hr

/-- Settles O8: the law `State.ends_only` of a command's end, from the state in which the waits that are met are marked; the marks stand in
rings and heads alone. -/
theorem deliveryLeavesEverythingElse : Obligations.DeliveryLeavesEverythingElse := by
  rintro s _ rfl
  have e := State.ends_only s
  exact ⟨e.bus.time, e.bus.frac, e.bus.ticks, e.bus.pairLo, e.bus.froz, e.bus.jbuf, e.bus.jlost,
    fun r i j h1 h2 h3 h4 h5 => e.reg r i j (panelReg_eq_false h1 h2 h3 h4 h5),
    fun r i j hc hr => e.bus.reg r i j (eventReg_eq_false hc hr),
    e.powered, e.fabricUp, e.plan, e.lanes, e.links, e.tim, e.srcs, e.decs, e.cores, e.heads, e.wbs, e.encs, e.jrn, e.tnd, e.wdn, e.flash,
    e.otp, e.pending⟩

/-! ### Commands that wait, NOP and the holdoff -/

/-- A NOP where DEVICE_CORE is ON ends at once (R102). -/
theorem nop_begun {s : State} {r : Nat} {e : FEntry} (hh : s.plan.has 1 e.inst = true) (ho : e.object = 0xFFFF)
    (hz : e.zeroFrom 32 56 = true) (hn : s.isOn 1 e.inst = true) (host : Nat) :
    nop host r e (s.begun r e) = (s.begun r e, some (0, 0)) :=
  State.checked_begun hh (beq_of_eq ho) hz hn

/-- A command that has waited past the limit completes with FENCE_TIMEOUT (R102). -/
theorem State.fenceTimeout_waitedOut {s : State} {r k : Nat} {e : FEntry} (he : s.entry r k = some e) (hw : s.bus.waitedOut r e = true) :
    s.fenceTimeout r k = s.timeOut r e := by
  simp only [State.fenceTimeout, he, hw, if_true]

/-- The owner's limit of at most 2,000 is taken, and what has waited past it times out (R102). -/
theorem State.waitLimitWrite_owned {s : State} {port r : Nat} {v : Word} (h : s.reached port 2 r) (ho : s.plan.ringHost r = some port)
    (hv : bf v 0 11 ≤ 2000) :
    s.waitLimitWrite port r v =
      let u := (s.regWriteRec port 2 r 0 0x1C v).onBus fun b => b.setReg .ringWaitLimit r 0 (w32 (bf v 0 11))
      forEach ((u.bus.ringSt r).fetched.filter fun e => u.bus.waitedOut r e) (fun e s => s.timeOut r e) u := by
  unfold State.waitLimitWrite
  rw [State.hostWrite_reached h, State.regWriteRec_plan, if_neg (not_not_intro ho), if_neg (Nat.not_lt.mpr hv)]

/-- What fell due during a holdoff is signalled at its end (R110). -/
theorem State.holdoffExpiry_due {s : State} {r h : Nat} (ho : s.plan.ringHost r = some h) (ht : (s.bus.ringSt r).holdUntil ≤ s.ticks)
    (hd : (s.bus.ringSt r).due = true) : s.holdoffExpiry r = s.onBus fun b => b.signal h r := by
  simp only [State.holdoffExpiry, State.onBus, ho]
  rw [if_pos ⟨ht, hd⟩]

/-- Settles O9: each command goes to its law above by the law of the fabric die. -/
theorem nopAndWaitLimitsComplete : Obligations.NopAndWaitLimitsComplete := by
  refine ⟨?nop, ?timeout, ?limit, ?holdoff⟩
  case nop =>
    intro s r k e h hh ho hz hn
    rw [exec_nop, State.fabric_done h (nop_begun hh ho hz hn _)]
  case timeout =>
    intro s r k e hl he hw
    rw [exec_fenceTimeout, State.fabric_live hl, State.fenceTimeout_waitedOut he hw]
    rfl
  case limit =>
    intro s port r v hl hr ho hv
    refine ⟨(s.regWriteRec port 2 r 0 0x1C v).onBus fun b => b.setReg .ringWaitLimit r 0 (w32 (bf v 0 11)), ?_,
      Bus.reg_setReg_self .., fun q i j hq hj => ?_⟩
    · rw [exec_ringWaitLimitWrite, State.fabric_live hl, State.waitLimitWrite_owned hr ho hv]
    · rw [State.onBus_bus, Bus.reg_setReg_ne _ (Ne.symm hq), State.regWriteRec_bus_reg _ _ _ _ _ _ _ _ _ _ hj]
  case holdoff =>
    intro s r h hl ho ht hd
    rw [exec_holdoffExpiry, State.fabric_live hl, State.holdoffExpiry_due ho ht hd]

/-! ### Doorbells and consumed entries -/

/-- A REG_WRITE record leaves what a ring's registers give. -/
theorem State.regWriteRec_ringCons (s : State) (port cap inst blk off : Nat) (v : Word) (r : Nat) :
    (s.regWriteRec port cap inst blk off v).bus.ringCons r = s.bus.ringCons r := State.regWriteRec_bus_reg _ _ _ _ _ _ _ _ _ _ (by decide)

theorem State.regWriteRec_ringCtl (s : State) (port cap inst blk off : Nat) (v : Word) (r lo n : Nat) :
    (s.regWriteRec port cap inst blk off v).bus.fld .ringCtl r 0 lo n = s.bus.fld .ringCtl r 0 lo n :=
  congrArg (bf · lo n) (State.regWriteRec_bus_reg _ _ _ _ _ _ _ _ _ _ (by decide))

theorem State.regWriteRec_ringKind (s : State) (port cap inst blk off : Nat) (v : Word) (r : Nat) :
    (s.regWriteRec port cap inst blk off v).bus.ringKind r = s.bus.ringKind r := State.regWriteRec_ringCtl ..

theorem State.regWriteRec_ringSize (s : State) (port cap inst blk off : Nat) (v : Word) (r : Nat) :
    (s.regWriteRec port cap inst blk off v).bus.ringSize r = s.bus.ringSize r := congrArg (2 ^ ·) (State.regWriteRec_ringCtl ..)

/-- A write of another register leaves RING_CTL's fields, and so a ring's size. -/
theorem Bus.ringSize_setReg (b : Bus) {q : BReg} (h : q ≠ .ringCtl) (i j : Nat) (v : Word) (r : Nat) :
    (b.setReg q i j v).ringSize r = b.ringSize r := by
  unfold Bus.ringSize Bus.fld
  rw [Bus.reg_setReg_ne b h]

section
variable {s : State} {port r : Nat} (v : Word) (h : s.reached port 2 r) (ho : s.plan.ringHost r = some port)
include h ho

/-- The owner's doorbell within the ring sets PROD, and the entries up to it are fetched (R95, R97). -/
theorem State.doorbell_owned (hk : hostProduced (s.bus.ringKind r) = true) (hv : (v - s.bus.ringCons r).toNat ≤ s.bus.ringSize r) :
    s.doorbell port r v =
      let u := (s.regWriteRec port 2 r 0 0x0C v).onBus fun b => b.setReg .ringProd r 0 v
      State.fetchUpTo (u.bus.ringSize r) u port r := by
  unfold State.doorbell
  rw [State.hostReach_reached h]
  simp only [hk, if_true, State.regWriteRec_plan, ho, State.regWriteRec_ringKind, State.regWriteRec_ringCons, State.regWriteRec_ringSize,
    ne_eq, not_true, if_false, Bool.not_true, Bool.false_eq_true, if_neg (Nat.not_lt.mpr hv)]

/-- The owner frees entries of a ring that the device produces, and events that waited go on (R95, R114). -/
theorem State.consWrite_owned (hk : hostProduced (s.bus.ringKind r) = false) :
    s.consWrite port r v =
      let u := (s.regWriteRec port 2 r 0 0x10 v).onBus fun b => b.setReg .ringCons r 0 v
      u.onBus fun b => b.flushAll u.plan := by
  unfold State.consWrite
  rw [State.hostReach_reached h]
  simp only [hk, Bool.false_eq_true, if_false, State.regWriteRec_plan, ho, State.regWriteRec_ringKind, ne_eq, not_true, State.onBus_plan]

end

/-- A REG_WRITE record and the write of one ring's register leave every other register but JRN_SEQ. -/
theorem State.regWriteRec_setReg_frame (s : State) (port cap inst blk off : Nat) (v : Word) (x : BReg) (r : Nat) {q : BReg} {i j : Nat}
    (hj : q ≠ .jrnSeq) (hq : q = x → i ≠ r) :
    (((s.regWriteRec port cap inst blk off v).onBus fun b => b.setReg x r 0 v).bus).reg q i j = s.bus.reg q i j := by
  rw [State.onBus_bus, Bus.reg_setReg, if_neg fun e => hq e.1.symm e.2.1.symm, State.regWriteRec_bus_reg _ _ _ _ _ _ _ _ _ _ hj]

/-- Settles O10: the two writes by their laws above; the state they set up is the one the registers are read in. -/
theorem doorbellsMoveTheRing : Obligations.DoorbellsMoveTheRing := by
  refine ⟨?prod, ?cons⟩
  case prod =>
    intro s port r v hl hr ho hk hv
    refine ⟨(s.regWriteRec port 2 r 0 0x0C v).onBus fun b => b.setReg .ringProd r 0 v, ?_, Bus.reg_setReg_self .., ?_,
      fun q i j hj hq => State.regWriteRec_setReg_frame s port 2 r 0 0x0C v .ringProd r hj hq⟩
    · rw [exec_ringDoorbell, State.fabric_live hl, State.doorbell_owned v hr ho hk hv]
    · rw [State.onBus_bus, Bus.ringSize_setReg _ (by decide), State.regWriteRec_ringSize]
  case cons =>
    intro s port r v hl hr ho hk
    refine ⟨(s.regWriteRec port 2 r 0 0x10 v).onBus fun b => b.setReg .ringCons r 0 v, ?_, Bus.reg_setReg_self .., ?_,
      fun q i j hj hq => State.regWriteRec_setReg_frame s port 2 r 0 0x10 v .ringCons r hj hq⟩
    · rw [exec_ringConsWrite, State.fabric_live hl, State.consWrite_owned v hr ho hk]
    · rw [State.onBus_plan, State.regWriteRec_plan]

end Sys2Proof.Machine

/-! SUPPORT. What the work of a host port's rings leaves (spec/03 R82, R101, R110, R114): stores, completions, signals, stops and posts. -/

namespace Sys2Proof.Machine

/-- What the work of the rings of host port `h` leaves: the counts of lost events, a ring that is not ON, the port's own state but the
pending bits of its vectors, and every other port. -/
structure RingWork (h : Nat) (a b : Bus) : Prop where
  lost : ∀ q, b.reg .coreEvtLost q 0 = a.reg .coreEvtLost q 0
  off : ∀ i, a.isOn 2 i = false → b.isOn 2 i = false
  own : b.hostSt h = { a.hostSt h with pba := (b.hostSt h).pba }
  others : ∀ q, q ≠ h → b.hostSt q = a.hostSt q

theorem Bus.isOn_congr {a b : Bus} {cap i : Nat} (h : b.reg .fnCtl cap i = a.reg .fnCtl cap i) : b.isOn cap i = a.isOn cap i := by
  unfold Bus.isOn Bus.fnState Bus.fld
  rw [h]

namespace RingWork

theorem refl (h : Nat) (a : Bus) : RingWork h a a := ⟨fun _ => rfl, fun _ => id, rfl, fun _ _ => rfl⟩

theorem trans {h : Nat} {a b c : Bus} (w : RingWork h a b) (x : RingWork h b c) : RingWork h a c :=
  ⟨fun q => (x.lost q).trans (w.lost q), fun i hi => x.off i (w.off i hi), x.own.trans (by rw [w.own]),
    fun q hq => (x.others q hq).trans (w.others q hq)⟩

theorem ite {h : Nat} {z a b : Bus} {c : Prop} [Decidable c] (wa : RingWork h z a) (wb : RingWork h z b) :
    RingWork h z (if c then a else b) := by
  split <;> assumption

theorem foldl {α : Type} {h : Nat} {z t : Bus} {xs : List α} {f : Bus → α → Bus} (w : RingWork h z t)
    (hf : ∀ u x, RingWork h z u → RingWork h z (f u x)) : RingWork h z (xs.foldl f t) := by
  induction xs generalizing t with
  | nil => exact w
  | cons x xs ih => exact ih (hf t x w)

theorem forEach {α : Type} {h : Nat} {z : Bus} {t : State} {xs : List α} {f : α → State → State} (w : RingWork h z t.bus)
    (hf : ∀ x u, RingWork h z u.bus → RingWork h z (f x u).bus) : RingWork h z (Machine.forEach xs f t).bus := by
  unfold Machine.forEach
  induction xs generalizing t with
  | nil => exact w
  | cons x xs ih => exact ih (hf x t w)

theorem ofFst {α : Type} {h : Nat} {z t : Bus} {p : Bus × α} {x : α} (wp : RingWork h z p.1) (e : p = (t, x)) : RingWork h z t := by
  rw [e] at wp
  exact wp

section
variable {h : Nat} {z b : Bus} (w : RingWork h z b)
include w

/-- An update that leaves registers and host ports. -/
theorem upd {c : Bus} (hr : c.regs = b.regs) (hh : c.hosts = b.hosts) : RingWork h z c := by
  have hs (q : Nat) : c.hostSt q = b.hostSt q := by unfold Bus.hostSt; rw [hh]
  exact w.trans ⟨fun _ => Bus.reg_congr hr .., fun _ hi => (Bus.isOn_congr (Bus.reg_congr hr ..)).trans hi, by rw [hs], fun q _ => hs q⟩

/-! ### Registers -/

theorem setReg (r : BReg) (i j : Nat) (v : Word) (hr : r ≠ .coreEvtLost ∧ r ≠ .fnCtl := by decide) : RingWork h z (b.setReg r i j v) :=
  w.trans ⟨fun _ => Bus.reg_setReg_ne b hr.1 .., fun _ hi => (Bus.isOn_congr (Bus.reg_setReg_ne b hr.2 ..)).trans hi, rfl, fun _ _ => rfl⟩

theorem setFld (r : BReg) (i j lo n v : Nat) (hr : r ≠ .coreEvtLost ∧ r ≠ .fnCtl := by decide) : RingWork h z (b.setFld r i j lo n v) :=
  w.setReg r i j _ hr

theorem setPair (lo hi : BReg) (i j v : Nat) (hl : lo ≠ .coreEvtLost ∧ lo ≠ .fnCtl := by decide)
    (hh : hi ≠ .coreEvtLost ∧ hi ≠ .fnCtl := by decide) : RingWork h z (b.setPair lo hi i j v) := (w.setReg lo i j _ hl).setReg hi i j _ hh

/-- A write of a ring's FN_CTL that does not put it in ON. -/
theorem setCtl {r : Nat} {v : Word} (hv : bf v 2 3 = 2 → bf (b.reg .fnCtl 2 r) 2 3 = 2) : RingWork h z (b.setReg .fnCtl 2 r v) := by
  refine w.trans ⟨fun _ => Bus.reg_setReg_ne b (by decide) .., fun i hi => ?_, rfl, fun _ _ => rfl⟩
  by_cases e : r = i
  · subst e
    have hb : bf (b.reg .fnCtl 2 r) 2 3 ≠ 2 := ne_of_beq_false hi
    unfold Bus.isOn Bus.fnState Bus.fld
    rw [Bus.reg_setReg_self]
    exact beq_false_of_ne (mt hv hb)
  · exact (Bus.isOn_congr (by rw [Bus.reg_setReg, if_neg fun x => e x.2.2])).trans hi

/-! ### Device memory -/

theorem drain (p : QWrite → Bool) : RingWork h z (b.drain p) := (foldl (f := Bus.retire) w fun _ _ x => x.upd rfl rfl).upd rfl rfl

theorem rowDrain (a n : Nat) : RingWork h z (b.rowDrain a n) := w.drain _

theorem unmapped (m a : Nat) (write : Bool) : RingWork h z (b.unmapped m a write) := by
  have wb : RingWork h z (b.bump .memUnmapped 0 0 1) := w.setReg ..
  unfold Bus.unmapped
  extract_lets
  exact .ite (wb.upd rfl rfl) wb

theorem writeChecked (m a : Nat) (data : List Byte) : RingWork h z (b.writeChecked m a data).1 := by
  have wc : RingWork h z (b.countBytes a data.length) := (w.setPair ..).setPair ..
  unfold Bus.writeChecked
  split
  · exact w.unmapped ..
  · refine .ite (rowDrain ?_ _ _) ?_ <;> exact wc.upd rfl rfl

theorem store (m a : Nat) (data : List Byte) : RingWork h z (b.store m a data).1 := by
  have wr : RingWork h z (b.bump .accWriteRefused m 0 1) := w.setReg ..
  unfold Bus.store
  split
  · exact w.writeChecked ..
  · exact wr.upd rfl rfl

/-! ### Signals and completions -/

/-- The port's own pending bits. -/
theorem setPba (p : List Nat) : RingWork h z (b.setHost h { b.hostSt h with pba := p }) :=
  w.trans ⟨fun _ => rfl, fun _ => id, by rw [Bus.hostSt_setHost_self],
    fun q hq => (Bus.hostSt_setHost b h q _).trans (if_neg (Ne.symm hq))⟩

theorem msix (v : Nat) : RingWork h z (b.msix h v) := .ite (w.setPba _) (w.upd rfl rfl)

theorem signal (r : Nat) : RingWork h z (b.signal h r) := .ite w (.ite (w.upd rfl rfl) ((w.msix _).upd rfl rfl))

theorem fenceSignal (n v : Nat) : RingWork h z (b.fenceSignal n v) := .ite w (.ite (w.setPair ..) (w.upd rfl rfl))

theorem stalled (r : Nat) : RingWork h z (b.stalled r) := w.setFld ..

theorem advanceCons (n r : Nat) : RingWork h z (Bus.advanceCons n b r) := by
  induction n generalizing b with
  | zero => exact w
  | succ n ih =>
    unfold Bus.advanceCons
    dsimp only
    split
    · exact w
    · split
      · exact ih ((w.setReg .ringCons r 0 _).upd rfl rfl)
      · exact w

theorem completeRaw (r k status reason : Nat) : RingWork h z (b.completeRaw h r k status reason).1 := by
  unfold Bus.completeRaw
  split
  · exact w
  · split
    rename_i e he t taken hs
    have wt : RingWork h z t := (w.store ..).ofFst hs
    have wp : RingWork h z (t.setPhase r k .done) := wt.upd rfl rfl
    extract_lets
    refine stalled (advanceCons (.ite (signal ?fence _) ?fence) _ _) _
    exact .ite wp (.ite (wp.fenceSignal ..) (wp.upd rfl rfl))

/-- A field of a ring's FN_CTL apart from STATE. -/
theorem setCtlFld {r lo n v : Nat} (hn : lo + n ≤ 32) (hd : lo + n ≤ 2 ∨ 5 ≤ lo) : RingWork h z (b.setFld .fnCtl 2 r lo n v) := by
  refine w.setCtl fun e => ?_
  rwa [bf_setBf_ne _ _ _ _ _ _ hn (by omega)] at e

theorem toStopping (r cause : Nat) : RingWork h z (b.toStopping 2 r cause) := by
  have wc : RingWork h z ((b.setFld .fnCtl 2 r 0 1 0).setFld .fnCtl 2 r 8 4 cause) :=
    (w.setCtlFld (by decide) (.inl (by decide))).setCtlFld (by decide) (.inr (by decide))
  refine RingWork.upd (wc.setCtl (v := setBf _ 2 3 3) fun e => ?_) rfl rfl
  rw [bf_setBf_self _ _ _ _ (by decide)] at e
  exact absurd e (by decide)

theorem ringStop (r cause : Nat) : RingWork h z (b.ringStop h r cause) := foldl (w.toStopping r cause) fun _ _ x => x.completeRaw ..

theorem ringFault (r k cause : Nat) : RingWork h z (b.ringFault h r k cause) := .ite ((w.ringStop r 2).upd rfl rfl) w

theorem ringFull (r n : Nat) : RingWork h z (b.ringFull r n) := by
  have wf : RingWork h z (b.setFld .ringStatus r 0 0 1 1) := w.setFld ..
  exact .ite (wf.upd rfl rfl) (wf.upd rfl rfl)

theorem post (r : Nat) (data : List Byte) : RingWork h z (b.post h r data).1 := by
  unfold Bus.post
  split
  · exact w
  · split
    · exact w.ringFull ..
    · split
      rename_i t taken hs
      have wt : RingWork h z t := (w.store ..).ofFst hs
      split
      · exact (wt.setReg ..).signal r
      · exact wt.ringFault ..

end

end RingWork

/-! ### Waiting events -/

@[simp] theorem Bus.setHost_isOn (b : Bus) (h : Nat) (x : HostSt) (cap i : Nat) : (b.setHost h x).isOn cap i = b.isOn cap i := rfl
@[simp] theorem Bus.setRing_isOn (b : Bus) (r : Nat) (x : RingSt) (cap i : Nat) : (b.setRing r x).isOn cap i = b.isOn cap i := rfl

/-- Posting the events that wait puts no ring in ON (R98, R114). -/
theorem Bus.flush_off (p : Plan) (h : Nat) {i : Nat} (n : Nat) {b : Bus} (hi : b.isOn 2 i = false) : (Bus.flush n p b h).isOn 2 i = false := by
  induction n generalizing b with
  | zero => exact hi
  | succ n ih =>
    have posted (r : Nat) (d : List Byte) : (b.post h r d).1.isOn 2 i = false := ((RingWork.refl h b).post r d).off i hi
    have counted (c : Bus) : (c.bump .coreEvtLost h 0 1).isOn 2 i = c.isOn 2 i := Bus.isOn_congr (Bus.reg_setReg_ne _ (by decide) ..)
    unfold Bus.flush
    dsimp only
    split
    · rename_i r e rest hr hq
      split
      · exact ih (by rw [Bus.setHost_isOn, Bus.setRing_isOn, counted, posted])
      · split
        · exact ih (by rw [Bus.setHost_isOn, Bus.setRing_isOn, posted])
        · exact posted r _
    · exact hi

theorem Bus.flushAll_off (p : Plan) {i : Nat} {b : Bus} (hi : b.isOn 2 i = false) : (b.flushAll p).isOn 2 i = false := by
  have all (hs : List Nat) : (hs.foldl (fun b h => Bus.flush (b.hostSt h).evq.length p b h) b).isOn 2 i = false := by
    induction hs generalizing b with
    | nil => exact hi
    | cons h hs ih => exact ih (Bus.flush_off p h _ hi)
  exact all _

end Sys2Proof.Machine

/-! SUPPORT. Host ports (spec/03 R80 to R82, R111, R112): resets, memory window reads and PTM. -/

namespace Sys2Proof.Machine

/-! ### Host port resets -/

/-- What encoders make of a reset stands outside the shared part (R355). -/
theorem State.encCuts_bus (s z : State) : (s.encCuts z).bus = s.bus := by
  have all (cs : List Nat) (s : State) : (Machine.forEach cs (fun c s =>
      if s.isOn 0x15 c && z.encFed c && !s.encFed c then s.setEnc c { s.enc c with cut := true } else s) s).bus = s.bus := by
    unfold Machine.forEach
    induction cs generalizing s with
    | nil => rfl
    | cons c cs ih =>
      refine (ih _).trans ?_
      dsimp only
      split <;> rfl
  exact all _ s

/-- A reset of a host port: the work of its rings as they stop, then the port's own state and its count of lost events (R82, R114). -/
theorem State.hostPortReset_stops (s : State) (port : Nat) :
    ∃ b : Bus, RingWork port s.bus b ∧ (s.hostPortReset port).bus =
      (b.bump .coreEvtLost port 0 (b.hostSt port).evq.length).setHost port { b.hostSt port with
        underReset := true, evq := [], lostNext := (b.hostSt port).lostNext || !(b.hostSt port).evq.isEmpty, msix := [], pba := [] } :=
  ⟨_, RingWork.forEach (.refl port s.bus) fun r u w => by
    split
    · exact w.ringStop r 5
    · exact w, rfl⟩

/-! ### PTM dialogues -/

/-- What every dialogue that runs writes: PTM is enabled, the tick, one more dialogue (R111, R112). -/
def Bus.ptmBegins (b : Bus) (port : Nat) : Bus :=
  let b := b.setFld .corePtmStatus port 0 1 1 1
  let b := b.setHost port { b.hostSt port with ptmTick := some b.ticks }
  b.setFld .corePtmStatus port 0 16 16 (b.fld .corePtmStatus port 0 16 16 + 1)

/-- A good dialogue stores the set and VALID, and ends a run of failed ones. -/
def Bus.ptmGood (b : Bus) (port hostTime delay : Nat) : Bus :=
  let b := b.setPair .corePtmHostLo .corePtmHostHi port 0 hostTime
  let b := (b.setReg .corePtmDev port 0 b.time).setReg .corePtmLinkDelay port 0 (w32 delay)
  (b.setFld .corePtmStatus port 0 8 8 0).setFld .corePtmStatus port 0 0 1 1

/-- A failed one is counted, and the third in a row raises PTM_LOST. -/
def Bus.ptmFailed (b : Bus) (port : Nat) : Bus :=
  let n := b.fld .corePtmStatus port 0 8 8 + 1
  let b := b.setFld .corePtmStatus port 0 8 8 (min n 255)
  if n = 3 then b.emit 0x0106 0 1 (payCap 1 [(b.reg .corePtmDev port 0).toNat]) else b

/-- The period has passed since the last dialogue, or there was none. -/
def Bus.ptmDue (b : Bus) (port : Nat) : Bool :=
  match (b.hostSt port).ptmTick with
  | none => true
  | some t => decide (t + b.fld .coreXPtmPeriod port 0 0 10 * 200000 ≤ b.ticks)

theorem Bus.ptmDue_iff (b : Bus) (port : Nat) : b.ptmDue port = true ↔
    ∀ t, (b.hostSt port).ptmTick = some t → t + b.fld .coreXPtmPeriod port 0 0 10 * 200000 ≤ b.ticks := by
  unfold Bus.ptmDue
  cases (b.hostSt port).ptmTick <;> simp

theorem Bus.ptmDue_setStatus (b : Bus) (port lo n v : Nat) : (b.setFld .corePtmStatus port 0 lo n v).ptmDue port = b.ptmDue port := by
  unfold Bus.ptmDue
  rw [Bus.hostSt_setFld, Bus.fld_setFld_ne b (by decide), Bus.setFld_ticks]

theorem State.onBus_congr {s : State} {f g : Bus → Bus} (h : f s.bus = g s.bus) : s.onBus f = s.onBus g := by
  unfold State.onBus
  rw [h]

/-- A dialogue of a port with PTM shows ENABLED, and runs when it is due. -/
theorem State.ptmDialogue_enabled (s : State) (port hostTime delay : Nat) (ok : Bool) :
    s.ptmDialogue port true hostTime delay ok = s.onBus fun b =>
      if !(b.setFld .corePtmStatus port 0 1 1 1).ptmDue port then b.setFld .corePtmStatus port 0 1 1 1
      else if ok then (b.ptmBegins port).ptmGood port hostTime delay else (b.ptmBegins port).ptmFailed port := by
  refine State.onBus_congr ?_
  dsimp only
  rw [if_neg (by decide)]
  rfl

section
variable {s : State} {port : Nat}
  (hd : ∀ t, (s.bus.hostSt port).ptmTick = some t → t + s.bus.fld .coreXPtmPeriod port 0 0 10 * 200000 ≤ s.ticks)
include hd

theorem State.ptmDialogue_due (hostTime delay : Nat) (ok : Bool) :
    s.ptmDialogue port true hostTime delay ok =
      s.onBus fun b => if ok then (b.ptmBegins port).ptmGood port hostTime delay else (b.ptmBegins port).ptmFailed port := by
  have due : s.bus.ptmDue port = true := (Bus.ptmDue_iff ..).mpr hd
  refine (State.ptmDialogue_enabled ..).trans (State.onBus_congr (if_neg ?_))
  simp [Bus.ptmDue_setStatus, due]

theorem State.ptmDialogue_good (hostTime delay : Nat) :
    s.ptmDialogue port true hostTime delay true = s.onBus fun b => (b.ptmBegins port).ptmGood port hostTime delay :=
  (State.ptmDialogue_due hd ..).trans (State.onBus_congr (if_pos rfl))

theorem State.ptmDialogue_failed (hostTime delay : Nat) :
    s.ptmDialogue port true hostTime delay false = s.onBus fun b => (b.ptmBegins port).ptmFailed port :=
  (State.ptmDialogue_due hd ..).trans (State.onBus_congr (if_neg (by decide)))

end

/-- Before its period a dialogue shows ENABLED alone. -/
theorem State.ptmDialogue_early {s : State} {port t : Nat} (ht : (s.bus.hostSt port).ptmTick = some t)
    (he : s.ticks < t + s.bus.fld .coreXPtmPeriod port 0 0 10 * 200000) (hostTime delay : Nat) (ok : Bool) :
    s.ptmDialogue port true hostTime delay ok = s.onBus fun b => b.setFld .corePtmStatus port 0 1 1 1 := by
  have early : s.bus.ptmDue port = false :=
    Bool.eq_false_iff.mpr fun h => absurd ((Bus.ptmDue_iff ..).mp h t ht) (Nat.not_le.mpr he)
  refine (State.ptmDialogue_enabled ..).trans (State.onBus_congr (if_pos ?_))
  simp [Bus.ptmDue_setStatus, early]

/-- Without PTM it shows that, and the next dialogue will be the first. -/
theorem State.ptmDialogue_disabled (s : State) (port hostTime delay : Nat) (ok : Bool) :
    s.ptmDialogue port false hostTime delay ok = s.onBus fun b =>
      let b := b.setFld .corePtmStatus port 0 1 1 0
      b.setHost port { b.hostSt port with ptmTick := none } := by
  refine State.onBus_congr ?_
  dsimp only
  rw [if_pos (by decide)]
  rfl

/-- Beginning a dialogue writes no register but CORE_PTM_STATUS, and of it not the count of failed ones. -/
theorem Bus.ptmBegins_reg (b : Bus) (port : Nat) {q : BReg} (h : q ≠ .corePtmStatus) (i j : Nat) :
    (b.ptmBegins port).reg q i j = b.reg q i j := by
  simp only [Bus.ptmBegins, Bus.reg_setFld_ne _ (Ne.symm h), Bus.setHost_reg]

theorem Bus.ptmBegins_failures (b : Bus) (port : Nat) : (b.ptmBegins port).fld .corePtmStatus port 0 8 8 = b.fld .corePtmStatus port 0 8 8 := by
  unfold Bus.ptmBegins
  rw [Bus.fld_setFld_apart _ _ _ _ _ _ _ _ _ (by decide) (.inl (by decide)), Bus.setHost_fld,
    Bus.fld_setFld_apart _ _ _ _ _ _ _ _ _ (by decide) (.inr (by decide))]

/-- The set that a good dialogue stores (R111). -/
theorem Bus.ptmGood_set (b : Bus) (port hostTime delay : Nat) :
    let c := b.ptmGood port hostTime delay
    c.reg .corePtmHostLo port 0 = w32 hostTime ∧ c.reg .corePtmHostHi port 0 = w32 (hostTime / 2 ^ 32) ∧
      c.reg .corePtmDev port 0 = b.time ∧ c.reg .corePtmLinkDelay port 0 = w32 delay ∧ c.fld .corePtmStatus port 0 0 1 = 1 := by
  refine ⟨?_, ?_, ?_, ?_, Bus.fld_setFld_self _ _ _ _ _ _ _ (by decide)⟩ <;> simp [Bus.ptmGood, Bus.setPair, Bus.setFld, Bus.reg_setReg]

/-- A failed dialogue counts up to 255 (R112). -/
theorem Bus.ptmFailed_count (b : Bus) (port : Nat) :
    (b.ptmFailed port).fld .corePtmStatus port 0 8 8 = min 255 (b.fld .corePtmStatus port 0 8 8 + 1) := by
  have hn : ∀ n, min n 255 % 2 ^ 8 = min 255 n := by omega
  unfold Bus.ptmFailed
  extract_lets n c
  have hc : c.fld .corePtmStatus port 0 8 8 = min 255 n := (Bus.fld_setFld_self _ _ _ _ _ _ _ (by decide)).trans (hn n)
  split <;> exact hc

theorem Bus.ptmFailed_reg (b : Bus) (port : Nat) {q : BReg} (h : q ≠ .corePtmStatus) (i j : Nat) :
    (b.ptmFailed port).reg q i j = b.reg q i j := by
  unfold Bus.ptmFailed
  extract_lets n c
  have hc : c.reg q i j = b.reg q i j := Bus.reg_setFld_ne _ (Ne.symm h) ..
  split <;> exact hc

/-- The third failure in a row raises its event. -/
theorem Bus.ptmFailed_lost (b : Bus) (port : Nat) (h : b.fld .corePtmStatus port 0 8 8 = 2) :
    ∃ e ∈ (b.ptmFailed port).outbox, e.typ = 0x0106 := by
  unfold Bus.ptmFailed
  simp only [h, if_true]
  exact ⟨_, List.mem_append_right _ (List.mem_singleton_self _), rfl⟩

/-! ### Memory window and snapshot reads -/

/-- A memory window read answers what the port's load gave, and logs what did not succeed (R81, R124). -/
theorem State.mwinRead_load {s u : State} {port off n : Nat} {res : MemRes} (h : s.load port (s.bus.mwinAddr port off) n = (u, res)) :
    s.mwinRead port off n = match res with
      | .ok d => u.send (.hostRead port .ok d)
      | .refused => (u.onBus fun b => b.aerLog port 1 (s.bus.mwinAddr port off)).send (.hostRead port .abort (List.replicate n 0xFF))
      | .ue d => (u.onBus fun b => b.aerLog port 2 (s.bus.mwinAddr port off)).send (.hostRead port .poisoned d) := by
  simp only [State.mwinRead, h]
  cases res <;> rfl

/-- A snapshot read of CORE_PTM_HOST_LO leaves a set that is held (R111). -/
theorem State.ptmRead_held {s : State} {port : Nat} (h : (assocGet s.bus.froz (BReg.fkey .corePtmDev port 0)).isSome = true) :
    s.ptmRead port 0 = s.onBus fun b => b.answer port (b.frozen .corePtmHostLo port 0) := by
  simp only [State.ptmRead, State.onBus, h, if_true]

/-- And holds the set where none is. -/
theorem State.ptmRead_holds {s : State} {port : Nat} (h : assocGet s.bus.froz (BReg.fkey .corePtmDev port 0) = none) :
    s.ptmRead port 0 = s.onBus fun b =>
      let b := ((b.freeze .corePtmHostLo port 0).freeze .corePtmHostHi port 0).freeze .corePtmDev port 0
      b.answer port (b.frozen .corePtmHostLo port 0) := by
  simp only [State.ptmRead, State.onBus, h, if_true, Option.isSome_none, Bool.false_eq_true, if_false]

/-- Settles O13: each command goes to its laws above by the law of the die or window that answers it; of a reset, the state it leaves is
read through the work of the port's rings. -/
theorem hostPortCommandsTakeEffect : Obligations.HostPortCommandsTakeEffect := by
  refine ⟨?reset, ?resetEnd, ?perst, ?badAccess, ?windowRead, ?good, ?failed, ?early, ?disabled, ?snapshot, ?holds⟩
  case reset =>
    intro s port hl
    obtain ⟨b, w, hb⟩ := s.hostPortReset_stops port
    refine ⟨(s.hostPortReset port).encCuts s, by rw [exec_hostPortReset, State.fabric_live hl], ?_⟩
    rw [State.encCuts_bus, hb, Bus.hostSt_setHost_self]
    refine ⟨rfl, rfl, rfl, rfl, by rw [w.own], fun q hq => ?others, ?lost⟩
    case others => rw [Bus.hostSt_setHost, if_neg (Ne.symm hq), Bus.hostSt_bump, w.others q hq]
    case lost => rw [Bus.setHost_reg, Bus.bump, Bus.reg_setReg_self, w.lost, w.own]
  case resetEnd =>
    intro s port hl
    rw [exec_hostPortResetEnd, State.fabric_live hl]
    rfl
  case perst =>
    intro s port hp
    rw [exec_perstDeassert, State.warden_powered hp]
  case badAccess =>
    intro s port write hs
    rw [exec_controlWindowBadAccess, State.window_served hs]
    rfl
  case windowRead =>
    intro s u port off n res hs h
    rw [exec_memoryWindowRead, State.window_served hs, State.mwinRead_load h]
    cases res <;> rfl
  case good =>
    intro s port hostTime delay hl hd
    refine ⟨_, by rw [exec_ptmDialogue, State.fabric_live hl, State.ptmDialogue_good hd], ?_⟩
    exact Bus.ptmGood_set (s.bus.ptmBegins port) port hostTime delay
  case failed =>
    intro s port hostTime delay hl hd
    refine ⟨_, by rw [exec_ptmDialogue, State.fabric_live hl, State.ptmDialogue_failed hd], ?count, fun h2 => ?lost, fun q i j hq => ?frame⟩
    case count => exact (Bus.ptmFailed_count _ port).trans (by rw [Bus.ptmBegins_failures])
    case lost => exact Bus.ptmFailed_lost _ port ((Bus.ptmBegins_failures ..).trans h2)
    case frame => exact (Bus.ptmFailed_reg _ port hq i j).trans (Bus.ptmBegins_reg _ port hq i j)
  case early =>
    intro s port hostTime delay t ok hl ht he
    rw [exec_ptmDialogue, State.fabric_live hl, State.ptmDialogue_early ht he]
  case disabled =>
    intro s port hostTime delay ok hl
    rw [exec_ptmDialogue, State.fabric_live hl, State.ptmDialogue_disabled]
  case snapshot =>
    intro s port hl
    simp only [exec_ptmSnapshotRead, State.fabric_live hl]
    exact ⟨fun h => by rw [State.ptmRead_held h], rfl, rfl⟩
  case holds =>
    intro s port hl h
    rw [exec_ptmSnapshotRead, State.fabric_live hl, State.ptmRead_holds h]

end Sys2Proof.Machine

/-! SUPPORT. Starts and shut-downs of function instances (spec/03 R91, R92, R99): what FN_CTL shows once a start or a shut-down has
ended, and what each of the two commands makes of the state. -/

namespace Sys2Proof.Machine

/-! ### FN_CTL at the end of a start or a shut-down -/

/-- Entering a state writes FN_CTL alone. -/
theorem Bus.enter_regs (b : Bus) (cap i st : Nat) : (b.enter cap i st).regs = (b.setFld .fnCtl cap i 2 3 st).regs := by
  unfold Bus.enter
  extract_lets
  split <;> rfl

theorem Bus.fnState_enter (b : Bus) (cap i : Nat) {st : Nat} (h : st < 8) : (b.enter cap i st).fnState cap i = st :=
  calc (b.enter cap i st).fnState cap i
    _ = (b.setFld .fnCtl cap i 2 3 st).fnState cap i := congrArg (bf · 2 3) (Bus.reg_congr (Bus.enter_regs ..) ..)
    _ = st % 2 ^ 3 := Bus.fld_setFld_self b .fnCtl cap i 2 3 st (by decide)
    _ = st := Nat.mod_eq_of_lt h

theorem Bus.enter_reg_frame (b : Bus) (cap i st : Nat) {r : BReg} {k j : Nat} (h : (r, k, j) ≠ (.fnCtl, cap, i)) :
    (b.enter cap i st).reg r k j = b.reg r k j := by
  rw [Bus.reg_congr (Bus.enter_regs ..), Bus.setFld, Bus.reg_setReg, if_neg]
  rintro ⟨rfl, rfl, rfl⟩
  exact h rfl

theorem Bus.fnState_startFailed (b : Bus) (cap i reason : Nat) : (b.startFailed cap i reason).fnState cap i = 0 :=
  Bus.fnState_enter _ cap i (by decide)

/-! ### FUNCTION_STARTED -/

/-- A ring whose checks fail goes OFF, and what waited for other rings goes on (R91, R114). -/
theorem State.functionStarted_ringFails {s : State} {i r : Nat} (h : s.fnState 2 i = 1) (hc : s.bus.ringCheck s.plan i = some r) :
    s.functionStarted 2 i = (s.onBus fun b => b.startFailed 2 i r).onBus fun b => b.flushAll s.plan := by
  have hoff : (s.bus.startFailed 2 i r).isOn 2 i = false := by
    unfold Bus.isOn
    rw [Bus.fnState_startFailed]
    rfl
  have stays : ((s.bus.startFailed 2 i r).flushAll s.plan).isOn 2 i = false := Bus.flushAll_off s.plan hoff
  simp only [State.functionStarted_ring h, hc, State.startEnds, State.onBus_plan]
  rw [if_neg]
  simp [State.isOn, stays]

/-- A source on an in-port waits for the port (spec/12 R384). -/
theorem State.functionStarted_sourceWaits {s : State} {n : Nat} (h : s.fnState 0x10 n = 1) (hw : s.linkWaits n = true) :
    s.functionStarted 0x10 n = s := by
  unfold State.functionStarted
  rw [if_neg (by rw [h]; decide), if_neg (by decide), if_pos rfl]
  exact if_pos hw

theorem State.functionStarted_tandemWaits {s : State} (hw : s.tandemWaits = true) (i : Nat) : s.functionStarted 0x32 i = s := by
  unfold State.functionStarted
  by_cases h : s.fnState 0x32 i ≠ 1 ∨ ownStart 0x32 = true
  · rw [if_pos h]
  · rw [if_neg h, if_neg (by decide), if_neg (by decide), if_neg (by decide), if_neg (by decide)]
    exact if_pos ⟨rfl, hw⟩

/-- The journal waits until it has an area (spec/16 R502). -/
theorem State.functionStarted_journalWaits {s : State} {i : Nat} (h : s.fnState 0x31 i = 1) (hz : s.jrnSize = 0) :
    s.functionStarted 0x31 i = s := by
  unfold State.functionStarted
  rw [if_neg (by rw [h]; decide), if_neg (by decide), if_neg (by decide), if_neg (by decide), if_pos rfl]
  exact if_pos hz

/-! ### SHUTDOWN_COMPLETE -/

/-- What the scrub leaves, with COMPOSE and FRESH of a head that shuts down with it. -/
def State.scrubbed (s : State) (cap i : Nat) : State :=
  let v := s.scrub cap i
  if cap = 0x14 then v.onBus fun b =>
      let b := if b.fnState 0x12 i = 3 then b.enter 0x12 i 0 else b
      if b.fnState 0x13 i = 3 then b.enter 0x13 i 0 else b
    else v

section
variable {s : State} {cap i : Nat} (h3 : s.fnState cap i = 3) (hf : followsHead cap = false) (hd : s.shutDown cap i = true)
include h3 hf hd

theorem State.shutdownComplete_ends (hp : (s.scrubbed cap i).bus.fld .fnCtl cap i 5 1 ≠ 1) :
    s.shutdownComplete cap i = (s.scrubbed cap i).onBus fun b => b.enter cap i 0 := by
  unfold State.shutdownComplete
  rw [if_neg (by simp [h3, hf, hd])]
  exact if_neg hp

/-- A start that is pending follows the shut-down (R91). -/
theorem State.shutdownComplete_restarts (hp : (s.scrubbed cap i).bus.fld .fnCtl cap i 5 1 = 1) :
    s.shutdownComplete cap i =
      ((s.scrubbed cap i).onBus fun b => (b.setFld .fnCtl cap i 5 1 0).setFld .fnCtl cap i 0 1 1).toStarting cap i := by
  unfold State.shutdownComplete
  rw [if_neg (by simp [h3, hf, hd])]
  exact if_pos hp

end

/-- With no zone reload and no entry to SERVICE nothing follows a command. -/
theorem State.progress_none {u : State} (hz : u.wdn.zone = none) (hv : u.wdn.serviceStep = none) :
    u.zoneProgress.zoneDone.serviceProgress = u := by
  have hp : u.zoneProgress = u := by simp only [State.zoneProgress, hz]
  have hd : u.zoneDone = u := by simp only [State.zoneDone, hz]
  rw [hp, hd]
  simp only [State.serviceProgress, hv]

/-- What a ring's scrub leaves of the counts and the entries: none; other rings stay (R99). -/
theorem State.scrub_ring (s : State) (i : Nat) :
    (s.scrub 2 i).bus.ringProd i = 0 ∧ (s.scrub 2 i).bus.ringCons i = 0 ∧ ((s.scrub 2 i).bus.ringSt i).fetched = [] ∧
      (∀ j, j ≠ i → (s.scrub 2 i).bus.ringSt j = s.bus.ringSt j) := by
  refine ⟨?prod, ?cons, ?entries, fun j hj => ?others⟩ <;> simp only [State.scrub, State.onBus_bus]
  case prod =>
    unfold Bus.ringProd
    rw [Bus.setRing_reg, Bus.reg_setReg_ne _ (by decide), Bus.reg_setReg_self]
  case cons =>
    unfold Bus.ringCons
    rw [Bus.setRing_reg, Bus.reg_setReg_self]
  case entries => rw [Bus.ringSt_setRing_self]; rfl
  case others => rw [Bus.ringSt_setRing, if_neg (Ne.symm hj), Bus.ringSt_setReg, Bus.ringSt_setReg]

theorem State.scrub_plain (s : State) {cap : Nat} (i : Nat) (h : cap ∉ [2, 3, 0x20]) : s.scrub cap i = s := by
  simp only [List.mem_cons, List.not_mem_nil, or_false, not_or] at h
  obtain ⟨h2, h3, h20⟩ := h
  unfold State.scrub
  split
  case h_4 => rfl
  all_goals contradiction

/-- Settles O19: the starts by the laws of FUNCTION_STARTED, one per kind of function; the shut-down by its two ends. -/
theorem startsAndShutDownsEnd : Obligations.StartsAndShutDownsEnd := by
  refine ⟨?plain, ?ring, ?ringFails, ?source, ?tandem, ?encoder, ?journal, ?own, ?shutdown, State.scrub_ring,
    fun s _ i h => s.scrub_plain i h⟩
  case plain =>
    intro s cap i hl ho hc hw h
    refine ⟨s.onBus fun b => b.enter cap i 2, ?_, Bus.fnState_enter _ _ _ (by decide), fun _ _ _ => rfl,
      fun r k j hr => Bus.enter_reg_frame _ _ _ _ hr⟩
    rw [exec_functionStarted, State.fabric_live hl, State.functionStarted_plain h ho hc hw]
  case ring =>
    intro s i hl h hc
    rw [exec_functionStarted, State.fabric_live hl, State.functionStarted_ring h, hc]
    rfl
  case ringFails =>
    intro s i r hl h hc
    rw [exec_functionStarted, State.fabric_live hl, State.functionStarted_ringFails h hc]
  case source =>
    intro s n hl h
    rw [exec_functionStarted, State.fabric_live hl]
    refine ⟨fun hw => by rw [State.functionStarted_sourceWaits h hw], fun hw => ?_⟩
    rw [State.functionStarted_source h hw]
    cases s.sourceCheck n <;> rfl
  case tandem =>
    intro s i hl hw
    rw [exec_functionStarted, State.fabric_live hl, State.functionStarted_tandemWaits hw]
  case encoder =>
    intro s c hl h
    rw [exec_functionStarted, State.fabric_live hl, State.functionStarted_encoder h]
    cases s.encCheck c <;> rfl
  case journal =>
    intro s i hl h
    rw [exec_functionStarted, State.fabric_live hl]
    refine ⟨fun hz => by rw [State.functionStarted_journalWaits h hz], fun hz => ?_⟩
    rw [State.functionStarted_journal h hz]
    cases s.jrnCheck <;> rfl
  case own =>
    intro s cap i hl ho
    rw [exec_functionStarted, State.fabric_live hl, State.functionStarted_own i ho]
  case shutdown =>
    intro s cap i hl h3 h12 h13 hr
    have hf : followsHead cap = false := by simp [followsHead, h12, h13]
    have hd : s.shutDown cap i = true := by
      by_cases hc : cap = 2
      · simp [State.shutDown, hc, hr hc]
      · simp [State.shutDown, hc]
    have run : exec (.shutdownComplete cap i) s =
        .next (s.shutdownComplete cap i).zoneProgress.zoneDone.serviceProgress.watch.settle := by
      rw [exec_shutdownComplete, State.fabric_live hl]
    refine ⟨s.shutdownComplete cap i, run, fun hp => ?ends, fun hp => ?restarts, fun hz hv => ?quiet⟩
    case ends =>
      have e := State.shutdownComplete_ends h3 hf hd hp
      exact ⟨e, by rw [e]; exact Bus.fnState_enter _ _ _ (by decide)⟩
    case restarts => exact State.shutdownComplete_restarts h3 hf hd hp
    case quiet => rw [run, State.progress_none hz hv]

end Sys2Proof.Machine

/-! SUPPORT. Access check units (spec/04 R120 to R122, R126 to R130): what a write of a region's registers, a sync and the end of a notice
window make of the state. -/

namespace Sys2Proof.Machine

/-! ### Flags -/

/-- A bit of a register is its field of one bit. -/
theorem bit_eq (w : Word) (i : Nat) : bit w i = decide (bf w i 1 = 1) := by
  rw [bit, Nat.testBit_eq_decide_div_mod_eq, bf_eq, pow_one]

/-- A bit that is set reads as set. -/
theorem Bus.bit_setFld_one (b : Bus) (r : BReg) (i j : Nat) {k : Nat} (h : k < 32) : bit ((b.setFld r i j k 1 1).reg r i j) k = true := by
  have hf : bf ((b.setFld r i j k 1 1).reg r i j) k 1 = 1 := b.fld_setFld_self r i j k 1 1 h
  rw [bit_eq, hf]
  rfl

/-! ### Locked regions (R129) -/

theorem Bus.regionUpdate_locked {b : Bus} {m r : Nat} (h : bit (b.reg .regCtl m r) 3 = true) (v : Word) :
    b.regionUpdate m r v = b.lockedWrite m r := if_pos h

theorem Bus.regionHalf_locked {b : Bus} {m r : Nat} (h : bit (b.reg .regCtl m r) 3 = true) (q : Nat) (v : Word) :
    b.regionHalf m r q v = b.lockedWrite m r := if_pos h

/-- Settles O16: either write is the one refusal `Bus.lockedWrite`, which flags it in ACC_STATUS and reports it. -/
theorem lockedRegionIgnoresWrites : Obligations.LockedRegionIgnoresWrites := by
  intro b m r q v hlock c hc
  have refused : c = b.lockedWrite m r := by
    rw [Bus.regionUpdate_locked hlock, Bus.regionHalf_locked hlock, or_self] at hc
    exact hc
  subst refused
  exact ⟨fun x i j hx => Bus.reg_setFld_ne b (Ne.symm hx) .., rfl, b.bit_setFld_one .accStatus m 0 (by decide), rfl⟩

/-! ### Writes of REG_CTL (R120 to R122) -/

/-- The register of each half, by its number. -/
def halfReg : Nat → BReg
  | 0 => .regBaseLo
  | 1 => .regBaseHi
  | 2 => .regSizeLo
  | _ => .regSizeHi

theorem halfReg_mem (q : Nat) : halfReg q ∈ [BReg.regBaseLo, .regBaseHi, .regSizeLo, .regSizeHi] := by
  unfold halfReg
  split <;> decide

theorem Bus.pendHalf_eq (b : Bus) (m r q : Nat) :
    b.pendHalf m r q = (assocGet (b.accSt m).pend (4 * r + q)).getD (b.reg (halfReg q) m r) := rfl

/-- BASE and SIZE as a write of REG_CTL takes them: each half the pending one, else the one in force. -/
def Bus.nextBase (b : Bus) (m r : Nat) : Nat := (b.pendHalf m r 0).toNat + (b.pendHalf m r 1).toNat * 2 ^ 32
def Bus.nextSize (b : Bus) (m r : Nat) : Nat := (b.pendHalf m r 2).toNat + (b.pendHalf m r 3).toNat * 2 ^ 32

/-- The registers of a region that takes its new values, before ACC_ENABLED follows. -/
def Bus.regionSet (b : Bus) (m r base size : Nat) (v : Word) : Bus :=
  ((b.setPair .regBaseLo .regBaseHi m r base).setPair .regSizeLo .regSizeHi m r size).setReg .regCtl m r (w32 (bf v 0 4))

/-- The unit without the pending halves of a region. -/
def Bus.pendDrop (b : Bus) (m r : Nat) : Bus := b.setAcc m { b.accSt m with pend := (b.accSt m).pend.filter fun e => e.1 / 4 != r }

/-- The write taken: BASE, SIZE, REG_CTL and ACC_ENABLED at once, and the region's pending halves dropped. -/
def Bus.regionTake (b : Bus) (m r : Nat) (v : Word) : Bus :=
  ((b.regionSet m r (b.nextBase m r) (b.nextSize m r) v).setFld .accEnabled m 0 r 1 (b2n (bit v 0))).pendDrop m r

section
variable {b : Bus} {m r : Nat} {v : Word} (hlock : bit (b.reg .regCtl m r) 3 = false)
include hlock

/-- The decisions of a write to an unlocked region, in their order. -/
theorem Bus.regionUpdate_unlocked (v : Word) : b.regionUpdate m r v =
    if bit v 3 && !bit v 0 then b.accFlag m 2
    else if bit v 0 && (b.nextSize m r == 0 || decide (memEnd < b.nextBase m r + b.nextSize m r)) then b.accFlag m 2
    else match if bit v 0 then b.overlapping m r (b.nextBase m r) (b.nextSize m r) else none with
      | some q => (b.accFlag m 0).emit 0x0403 m 1 (pay [m, r, q])
      | none => b.regionTake m r v := if_neg (by simp [hlock])

theorem Bus.regionUpdate_taken (hl : bit v 3 = true → bit v 0 = true)
    (he : bit v 0 = true → b.nextSize m r ≠ 0 ∧ b.nextBase m r + b.nextSize m r ≤ memEnd ∧
      b.overlapping m r (b.nextBase m r) (b.nextSize m r) = none) :
    b.regionUpdate m r v = b.regionTake m r v := by
  rw [Bus.regionUpdate_unlocked hlock]
  cases h0 : bit v 0
  case false =>
    have h3 : bit v 3 = false := by simpa [h0] using hl
    simp [h3]
  case true =>
    obtain ⟨hs, hr, ho⟩ := he h0
    simp [hs, Nat.not_lt.mpr hr, ho]

/-- A write that locks without enabling, or enables size 0 or beyond memory, only sets CFG_REFUSED (R122, R130). -/
theorem Bus.regionUpdate_refused (h : (bit v 3 = true ∧ bit v 0 = false) ∨
      (bit v 0 = true ∧ (b.nextSize m r = 0 ∨ memEnd < b.nextBase m r + b.nextSize m r))) :
    b.regionUpdate m r v = b.accFlag m 2 := by
  rw [Bus.regionUpdate_unlocked hlock]
  obtain ⟨h3, h0⟩ | ⟨h0, hs⟩ := h
  · simp [h3, h0]
  · simp [h0, hs]

/-- A write that would overlap another enabled region only reports it (R120). -/
theorem Bus.regionUpdate_overlaps {q : Nat} (h0 : bit v 0 = true) (hs : b.nextSize m r ≠ 0)
    (hr : b.nextBase m r + b.nextSize m r ≤ memEnd) (ho : b.overlapping m r (b.nextBase m r) (b.nextSize m r) = some q) :
    b.regionUpdate m r v = (b.accFlag m 0).emit 0x0403 m 1 (pay [m, r, q]) := by
  rw [Bus.regionUpdate_unlocked hlock]
  simp [h0, hs, Nat.not_lt.mpr hr, ho]

end

/-! ### What a region shows once a write is taken -/

theorem pair_lt (lo hi : Word) : lo.toNat + hi.toNat * 2 ^ 32 < 2 ^ 64 := by
  have := lo.isLt
  have := hi.isLt
  omega

section
variable (b : Bus) (m r : Nat)

/-- A pair reads as it was written. -/
theorem Bus.pair_setPair {lo hi : BReg} (h : lo ≠ hi) (i j : Nat) {v : Nat} (hv : v < 2 ^ 64) : (b.setPair lo hi i j v).pair lo hi i j = v := by
  unfold Bus.pair Bus.setPair w32
  rw [Bus.reg_setReg_self, Bus.reg_setReg_ne _ (Ne.symm h), Bus.reg_setReg_self, BitVec.toNat_ofNat, BitVec.toNat_ofNat]
  omega

theorem Bus.pendDrop_reg (x : BReg) (q k : Nat) : (b.pendDrop m r).reg x q k = b.reg x q k := Bus.setAcc_reg ..

/-- No half of the region is pending, so what it takes next is what it has. -/
theorem Bus.pendDrop_pendHalf {q : Nat} (hq : q < 4) :
    (b.pendDrop m r).pendHalf m r q = (b.pendDrop m r).reg (halfReg q) m r := by
  have no_half : assocGet ((b.pendDrop m r).accSt m).pend (4 * r + q) = none := by
    rw [Bus.pendDrop, Bus.accSt_setAcc_self, assocGet, List.find?_eq_none.mpr]
    · rfl
    · simp only [List.mem_filter, bne_iff_ne, beq_iff_eq]
      omega
  rw [Bus.pendHalf_eq, no_half]
  rfl

theorem Bus.regionSet_base {base : Nat} (h : base < 2 ^ 64) (size : Nat) (v : Word) :
    (b.regionSet m r base size v).pair .regBaseLo .regBaseHi m r = base :=
  calc (b.regionSet m r base size v).pair .regBaseLo .regBaseHi m r
    _ = (b.setPair .regBaseLo .regBaseHi m r base).pair .regBaseLo .regBaseHi m r := by
      simp [Bus.regionSet, Bus.pair, Bus.setPair, Bus.reg_setReg]
    _ = base := b.pair_setPair (by decide) m r h

theorem Bus.regionSet_size {size : Nat} (h : size < 2 ^ 64) (base : Nat) (v : Word) :
    (b.regionSet m r base size v).pair .regSizeLo .regSizeHi m r = size :=
  calc (b.regionSet m r base size v).pair .regSizeLo .regSizeHi m r
    _ = (b.setPair .regSizeLo .regSizeHi m r size).pair .regSizeLo .regSizeHi m r := by
      simp [Bus.regionSet, Bus.pair, Bus.setPair, Bus.reg_setReg]
    _ = size := b.pair_setPair (by decide) m r h

theorem Bus.regionSet_frame (base size : Nat) (v : Word) (x : BReg) {q k : Nat} (h : (m, r) ≠ (q, k)) :
    (b.regionSet m r base size v).reg x q k = b.reg x q k := by
  have apart : ¬ (m = q ∧ r = k) := fun e => h (Prod.ext e.1 e.2)
  simp [Bus.regionSet, Bus.setPair, Bus.reg_setReg, apart]

end

section
variable (b : Bus) (m r : Nat) (v : Word)

/-- Apart from ACC_ENABLED, the registers are those that the region takes. -/
theorem Bus.regionTake_reg {x : BReg} (hx : x ≠ .accEnabled) (q k : Nat) :
    (b.regionTake m r v).reg x q k = (b.regionSet m r (b.nextBase m r) (b.nextSize m r) v).reg x q k := by
  rw [Bus.regionTake, Bus.pendDrop_reg, Bus.reg_setFld_ne _ (Ne.symm hx)]

theorem Bus.regionTake_base : (b.regionTake m r v).pair .regBaseLo .regBaseHi m r = b.nextBase m r := by
  rw [Bus.pair, Bus.regionTake_reg _ _ _ _ (by decide), Bus.regionTake_reg _ _ _ _ (by decide)]
  exact b.regionSet_base m r (pair_lt ..) ..

theorem Bus.regionTake_size : (b.regionTake m r v).pair .regSizeLo .regSizeHi m r = b.nextSize m r := by
  rw [Bus.pair, Bus.regionTake_reg _ _ _ _ (by decide), Bus.regionTake_reg _ _ _ _ (by decide)]
  exact b.regionSet_size m r (pair_lt ..) ..

theorem Bus.regionTake_ctl : (b.regionTake m r v).reg .regCtl m r = w32 (bf v 0 4) := by
  rw [Bus.regionTake_reg _ _ _ _ (by decide), Bus.regionSet, Bus.reg_setReg_self]

theorem Bus.regionTake_enabled (hr : r < 32) : bf ((b.regionTake m r v).reg .accEnabled m 0) r 1 = b2n (bit v 0) := by
  rw [Bus.regionTake, Bus.pendDrop_reg]
  exact (Bus.fld_setFld_self _ .accEnabled m 0 r 1 _ hr).trans (by cases bit v 0 <;> rfl)

theorem Bus.regionTake_pendHalf {q : Nat} (hq : q < 4) :
    (b.regionTake m r v).pendHalf m r q = (b.regionTake m r v).reg (halfReg q) m r := Bus.pendDrop_pendHalf _ m r hq

/-- Every other region keeps its registers. -/
theorem Bus.regionTake_frame {x : BReg} (hx : x ≠ .accEnabled) {q k : Nat} (h : (m, r) ≠ (q, k)) :
    (b.regionTake m r v).reg x q k = b.reg x q k :=
  (b.regionTake_reg m r v hx q k).trans (b.regionSet_frame m r _ _ v x h)

end

/-! ### What a REG_WRITE record leaves of the units and of memory -/

/-- Trimming the buffer changes what stands in it and the count of what was lost. -/
theorem Bus.jtrim_eq (n : Nat) (b : Bus) : Bus.jtrim n b =
    { b with jbuf := (Bus.jtrim n b).jbuf, jlost := (Bus.jtrim n b).jlost, jlostFirst := (Bus.jtrim n b).jlostFirst } := by
  induction n generalizing b with
  | zero => rfl
  | succ n ih =>
    unfold Bus.jtrim
    split
    · rfl
    · split
      · rfl
      · rw [ih]

section
variable (s : State) (port cap inst blk off : Nat) (v : Word)

/-- A REG_WRITE record changes the journal's buffer and the registers alone. -/
theorem State.regWriteRec_bus_eq : ∃ regs jbuf jlost jlostFirst jgap, (s.regWriteRec port cap inst blk off v).bus =
    { s.bus with regs := regs, jbuf := jbuf, jlost := jlost, jlostFirst := jlostFirst, jgap := jgap } := by
  unfold State.regWriteRec State.journal State.onBus
  split
  · exact ⟨_, _, _, _, _, rfl⟩
  · split
    · exact ⟨_, _, _, _, _, Bus.jtrim_eq ..⟩
    · exact ⟨_, _, _, _, _, rfl⟩

theorem State.regWriteRec_accSt (m : Nat) : (s.regWriteRec port cap inst blk off v).bus.accSt m = s.bus.accSt m := by
  obtain ⟨_, _, _, _, _, h⟩ := s.regWriteRec_bus_eq port cap inst blk off v
  rw [h]
  rfl

theorem State.regWriteRec_memory : (s.regWriteRec port cap inst blk off v).bus.mem = s.bus.mem ∧
    (s.regWriteRec port cap inst blk off v).bus.wq = s.bus.wq ∧ (s.regWriteRec port cap inst blk off v).bus.ticks = s.bus.ticks := by
  obtain ⟨_, _, _, _, _, h⟩ := s.regWriteRec_bus_eq port cap inst blk off v
  rw [h]
  exact ⟨rfl, rfl, rfl⟩

theorem State.regWriteRec_pendHalf (m r q : Nat) : (s.regWriteRec port cap inst blk off v).bus.pendHalf m r q = s.bus.pendHalf m r q := by
  have half : halfReg q ≠ .jrnSeq := fun h => absurd (h ▸ halfReg_mem q) (by decide)
  rw [Bus.pendHalf_eq, Bus.pendHalf_eq, State.regWriteRec_accSt, State.regWriteRec_bus_reg _ _ _ _ _ _ _ _ _ _ half]

theorem State.regWriteRec_nextBase (m r : Nat) : (s.regWriteRec port cap inst blk off v).bus.nextBase m r = s.bus.nextBase m r := by
  rw [Bus.nextBase, State.regWriteRec_pendHalf, State.regWriteRec_pendHalf, Bus.nextBase]

theorem State.regWriteRec_nextSize (m r : Nat) : (s.regWriteRec port cap inst blk off v).bus.nextSize m r = s.bus.nextSize m r := by
  rw [Bus.nextSize, State.regWriteRec_pendHalf, State.regWriteRec_pendHalf, Bus.nextSize]

theorem State.regWriteRec_overlapping (m r base size : Nat) :
    (s.regWriteRec port cap inst blk off v).bus.overlapping m r base size = s.bus.overlapping m r base size := by
  have record {x : BReg} (hx : x ≠ .jrnSeq) (i j : Nat) := s.regWriteRec_bus_reg port cap inst blk off v x i j hx
  unfold Bus.overlapping Bus.pair
  congr 1
  funext k
  rw [record (by decide), record (by decide), record (by decide), record (by decide), record (by decide)]

end

/-- A command's answer depends on what it makes of the shared part. -/
theorem State.onBus_answer {s : State} {f g : Bus → Bus} (h : f s.bus = g s.bus) :
    (.next (s.onBus f).watch.settle : Answer) = .next (s.onBus g).watch.settle := by
  rw [State.onBus_congr h]

/-- A write of REG_CTL that reaches its unit is the region's update, after the record of the write. -/
theorem State.regionUpdate_reached {s : State} {port m r : Nat} (h : s.reached port 4 m) (hr : r < 32) (v : Word) :
    s.regionUpdate port m r v = (s.regWriteRec port 4 m 0 (0x30 + 0x20 * r) v).onBus fun b => b.regionUpdate m r v := by
  unfold State.regionUpdate
  rw [State.hostWrite_reached h, if_neg (Nat.not_le.mpr hr)]

theorem State.accSync_reached {s : State} {port m : Nat} (h : s.reached port 4 m) (token : Nat) :
    s.accSync port m token = (s.regWriteRec port 4 m 0 0x08 (w32 token)).onBus fun b => b.accSync m token := by
  unfold State.accSync
  rw [State.hostWrite_reached h]

/-! ### Syncs (R127, R128) -/

/-- A sync starts after those in progress. -/
theorem Bus.accSync_starts (b : Bus) (m token : Nat) :
    ((b.accSync m token).accSt m).syncs = (b.accSt m).syncs ++ [(token % 65536, b.ticks)] ∧
      bit ((b.accSync m token).reg .accSyncDone m 0) 0 = true := by
  refine ⟨?_, Bus.bit_setFld_one _ .accSyncDone m 0 (by decide)⟩
  rw [Bus.accSync, Bus.accSt_setFld, Bus.accSt_setAcc_self]

theorem Bus.accSync_reg (b : Bus) (m token : Nat) {q : BReg} (hq : q ≠ .accSyncDone) (i j : Nat) :
    (b.accSync m token).reg q i j = b.reg q i j := by
  rw [Bus.accSync, Bus.reg_setFld_ne _ (Ne.symm hq), Bus.setAcc_reg]

theorem Bus.accSync_memory (b : Bus) (m token : Nat) : (b.accSync m token).mem = b.mem ∧ (b.accSync m token).wq = b.wq := ⟨rfl, rfl⟩

/-- What follows the last write of a master is none of its writes. -/
theorem upToLast_rest {m : Nat} {wq : List QWrite} {w : QWrite} (h : w ∈ wq.drop (upToLast m wq).length) : w.master ≠ m := by
  have hk : (wq.reverse.takeWhile fun w => w.master != m).length ≤ wq.length := by
    simpa using (List.takeWhile_prefix (l := wq.reverse) fun w => w.master != m).length_le
  have last : wq.drop (upToLast m wq).length = (wq.reverse.takeWhile fun w => w.master != m).reverse := by
    rw [upToLast, List.length_take, Nat.min_eq_left (Nat.sub_le ..)]
    have := List.prefix_iff_eq_take.mp (List.takeWhile_prefix (l := wq.reverse) fun w => w.master != m)
    conv_rhs => rw [this, List.take_reverse, List.reverse_reverse]
  rw [last, List.mem_reverse] at h
  simpa using List.mem_takeWhile_imp h

/-- The array takes queued writes: memory and its single-bit errors change, and nothing else. -/
theorem Bus.foldl_retire_eq (ws : List QWrite) (b : Bus) :
    ws.foldl Bus.retire b = { b with mem := (ws.foldl Bus.retire b).mem, mx := (ws.foldl Bus.retire b).mx } := by
  induction ws generalizing b with
  | nil => rfl
  | cons w ws ih => rw [List.foldl_cons, ih]; rfl

/-- The queue once the writes up to a master's last have gone to the array, as far as their pseudo-channels are not held. -/
def Bus.syncDrain (b : Bus) (m : Nat) : Bus :=
  let ws := upToLast m b.wq
  { ((ws.filter fun w => !b.heldAt w.addr).foldl Bus.retire b) with wq := (ws.filter fun w => b.heldAt w.addr) ++ b.wq.drop ws.length }

/-- The oldest sync ended: its token in ACC_SYNC_DONE, with BUSY while others are in progress. -/
def Bus.syncEnd (b : Bus) (m t : Nat) (rest : List (Nat × Nat)) : Bus :=
  ((b.syncDrain m).setAcc m { b.accSt m with syncs := rest }).setReg .accSyncDone m 0 (w32 (b2n (!rest.isEmpty) + t * 65536))

theorem Bus.syncDrain_regs (b : Bus) (m : Nat) : (b.syncDrain m).regs = b.regs := by
  rw [Bus.syncDrain, Bus.foldl_retire_eq]

/-- `c` is what the end of the oldest sync, of token `t`, makes of `b`. -/
structure SyncEnded (b : Bus) (m t : Nat) (rest : List (Nat × Nat)) (c : Bus) : Prop where
  syncs : (c.accSt m).syncs = rest
  queue : ∀ w ∈ c.wq, w.master ≠ m
  done : c.reg .accSyncDone m 0 = w32 (b2n (!rest.isEmpty) + t * 65536)
  frame : ∀ q i j, (q, i, j) ≠ (.accSyncDone, m, 0) → c.reg q i j = b.reg q i j

section
variable {b : Bus} {m : Nat} (hh : ∀ w ∈ b.wq, w.master = m → b.heldAt w.addr = false)
include hh

/-- With no write of the unit at a held pseudo-channel, none of its writes is left queued. -/
theorem Bus.syncDrain_queue : ∀ w ∈ (b.syncDrain m).wq, w.master ≠ m := by
  intro w hw
  obtain hw | hw := List.mem_append.mp hw
  · obtain ⟨hq, held⟩ := List.mem_filter.mp hw
    exact fun hm => absurd held (by simp [hh w (List.mem_of_mem_take hq) hm])
  · exact upToLast_rest hw

theorem Bus.syncEnd_ended (t : Nat) (rest : List (Nat × Nat)) : SyncEnded b m t rest (b.syncEnd m t rest) where
  syncs := by rw [Bus.syncEnd, Bus.accSt_setReg, Bus.accSt_setAcc_self]
  queue := by
    rw [Bus.syncEnd, Bus.setReg_wq, Bus.setAcc_wq]
    exact Bus.syncDrain_queue hh
  done := Bus.reg_setReg_self ..
  frame q i j h := by
    rw [Bus.syncEnd, Bus.reg_setReg, if_neg, Bus.setAcc_reg, Bus.reg_congr (b.syncDrain_regs m)]
    rintro ⟨rfl, rfl, rfl⟩
    exact h rfl

/-- SYNC_DONE is that end, and at most SYNC_SLOW after it (R127, R128). -/
theorem Bus.syncDone_ended {t t0 : Nat} {rest : List (Nat × Nat)} (h : (b.accSt m).syncs = (t, t0) :: rest) :
    SyncEnded b m t rest (b.syncDone m) := by
  have ended := Bus.syncEnd_ended hh t rest
  have slow {c : Bus} (p : Payload) (e : SyncEnded b m t rest c) : SyncEnded b m t rest (c.emit 0x0405 m 1 p) :=
    ⟨e.syncs, e.queue, e.done, e.frame⟩
  have outcome : b.syncDone m = b.syncEnd m t rest ∨ ∃ p, b.syncDone m = (b.syncEnd m t rest).emit 0x0405 m 1 p := by
    unfold Bus.syncDone
    simp only [h]
    exact (ite_eq_or_eq _ _ _).symm.imp_right fun h => ⟨_, h⟩
  obtain e | ⟨p, e⟩ := outcome
  · exact e ▸ ended
  · exact e ▸ slow p ended

end

/-! ### Notice windows (R126) -/

section
variable {b : Bus} {m : Nat} {n : Notice} (hd : n.opened + b.fld .accXNoticeWindow m 0 0 10 * tickMs ≤ b.ticks)
include hd

theorem Bus.noticeClose_reads (hw : (b.accSt m).rwin = some n) :
    b.noticeClose m false = (b.setAcc m { b.accSt m with rwin := none }).emit 0x0401 m 1
      (payB (le 2 m ++ le 2 0 ++ le 4 n.count ++ le 8 n.first)) := by
  simp only [Bus.noticeClose, hw, hd, decide_true, if_true, Bool.false_eq_true, if_false]

theorem Bus.noticeClose_writes (hw : (b.accSt m).wwin = some n) :
    b.noticeClose m true = (b.setAcc m { b.accSt m with wwin := none }).emit 0x0402 m 1
      (payB (le 2 m ++ le 2 ((List.range 32).filter fun r => bit (b.reg .regCtl m r) 0).length ++ le 4 n.count ++
        le 4 n.start.toNat ++ le 4 b.time.toNat)) := by
  simp only [Bus.noticeClose, hw, hd, decide_true, if_true]

end

/-- Settles O14: each command goes to its law above by the law of the fabric die; what a region takes, or is refused for, is the same
before and after the REG_WRITE record. -/
theorem accessCommandsTakeEffect : Obligations.AccessCommandsTakeEffect := by
  refine ⟨?region, ?sync, ?syncDone, ?reads, ?writes⟩
  case region =>
    intro s port m r v hl hreach hr b base size hlock
    have run : exec (.regionUpdate port m r v) s =
        .next ((s.regWriteRec port 4 m 0 (0x30 + 0x20 * r) v).onBus fun b => b.regionUpdate m r v).watch.settle := by
      rw [exec_regionUpdate, State.fabric_live hl, State.regionUpdate_reached hreach hr]
    have record {x : BReg} (hx : x ≠ .jrnSeq) (q k : Nat) := s.regWriteRec_bus_reg port 4 m 0 (0x30 + 0x20 * r) v x q k hx
    have hbase : _ = base := s.regWriteRec_nextBase port 4 m 0 (0x30 + 0x20 * r) v m r
    have hsize : _ = size := s.regWriteRec_nextSize port 4 m 0 (0x30 + 0x20 * r) v m r
    have hover := s.regWriteRec_overlapping port 4 m 0 (0x30 + 0x20 * r) v m r
    have unlocked := (congrArg (bit · 3) (record (x := .regCtl) (by decide) m r)).trans hlock
    rw [run]
    generalize s.regWriteRec port 4 m 0 (0x30 + 0x20 * r) v = t at *
    refine ⟨fun hlk hen => ?taken, fun h => ?refused, fun q h0 hs he ho => ?overlaps⟩
    case taken =>
      have took : t.bus.regionUpdate m r v = t.bus.regionTake m r v :=
        Bus.regionUpdate_taken unlocked hlk (by rw [hbase, hsize, hover]; exact hen)
      refine ⟨t.onBus fun b => b.regionUpdate m r v, rfl, ?_⟩
      rw [State.onBus_bus, took]
      refine ⟨(t.bus.regionTake_base m r v).trans hbase, (t.bus.regionTake_size m r v).trans hsize, t.bus.regionTake_ctl m r v,
        t.bus.regionTake_enabled m r v hr, fun q hq => ?halves, fun q k hk x hx => ?others⟩
      case halves =>
        have half := t.bus.regionTake_pendHalf m r v hq
        interval_cases q <;> exact half
      case others =>
        have known : x ≠ .accEnabled ∧ x ≠ .jrnSeq := by
          constructor <;> (rintro rfl; exact absurd hx (by decide))
        exact (t.bus.regionTake_frame m r v known.1 hk).trans (record known.2 q k)
    case refused => exact State.onBus_answer (Bus.regionUpdate_refused unlocked (by rw [hbase, hsize]; exact h))
    case overlaps =>
      exact State.onBus_answer (Bus.regionUpdate_overlaps unlocked h0 (by rw [hsize]; exact hs) (by rw [hbase, hsize]; exact he)
        (by rw [hbase, hsize, hover]; exact ho))
  case sync =>
    intro s port m token hl hreach
    obtain ⟨hmem, hwq, hticks⟩ := s.regWriteRec_memory port 4 m 0 0x08 (w32 token)
    have hacc := s.regWriteRec_accSt port 4 m 0 0x08 (w32 token) m
    have record {q : BReg} (hq : q ≠ .jrnSeq) (i j : Nat) := s.regWriteRec_bus_reg port 4 m 0 0x08 (w32 token) q i j hq
    refine ⟨_, by rw [exec_accSync, State.fabric_live hl, State.accSync_reached hreach], ?_⟩
    rw [State.onBus_bus]
    generalize s.regWriteRec port 4 m 0 0x08 (w32 token) = t at *
    obtain ⟨syncs, busy⟩ := Bus.accSync_starts t.bus m token
    obtain ⟨mem, wq⟩ := Bus.accSync_memory t.bus m token
    rw [hacc, hticks] at syncs
    exact ⟨syncs, busy, fun q i j hq hj => (Bus.accSync_reg _ _ _ hq i j).trans (record hj i j), mem.trans hmem, wq.trans hwq⟩
  case syncDone =>
    intro s m t t0 rest hl hs hh
    have e := Bus.syncDone_ended hh hs
    exact ⟨s.onBus fun b => b.syncDone m, by rw [exec_syncDone, State.fabric_live hl], e.syncs, e.queue, e.done, e.frame⟩
  case reads =>
    intro s m n hl hw hd
    rw [exec_noticeWindowClose, State.fabric_live hl]
    exact State.onBus_answer (Bus.noticeClose_reads hd hw)
  case writes =>
    intro s m n hl hw hd
    rw [exec_noticeWindowClose, State.fabric_live hl]
    exact State.onBus_answer (Bus.noticeClose_writes hd hw)

end Sys2Proof.Machine

/-! SUPPORT. Lifecycle states and the debug master (spec/04 R131 to R137): what DEBUG_CMD makes of an idle and of a BUSY DEBUG, what each
lifecycle state lets the debug master do, and the record of its writes. -/

namespace Sys2Proof.Machine

/-! ### DEBUG_CMD (R132 to R135, R137) -/

/-- While a command is BUSY a write of DEBUG_CMD is ignored. -/
theorem State.debugCmd_busy {s : State} {port : Nat} (hr : s.reached port 0x35 0) {v : Word}
    (hb : (s.regWriteRec port 0x35 0 0 0x04 v).fld .debugStatus 0 0 0 2 = 1) :
    s.debugCmd port v = s.regWriteRec port 0x35 0 0 0x04 v := by
  unfold State.debugCmd
  rw [State.hostWrite_reached hr, if_pos hb]

/-- The state `w` and the token `d` once ENTER_SERVICE has read it: none beyond the address space, all ones where the read fails (R133). -/
def State.tokenRead (s w : State) (a : Nat) (d : List Byte) : Prop :=
  if 0x08000000 < a + 256 then w = s ∧ d = []
  else s.load 152 a 256 = (w, .ok d) ∨
    ((s.load 152 a 256).1 = w ∧ (∀ x, (s.load 152 a 256).2 ≠ .ok x) ∧ d = List.replicate 256 0xFF)

section
variable {s w : State} {d : List Byte} (h : s.tokenRead w (s.pair .debugTokenLo .debugTokenHi 0 0) d)
include h

/-- ENTER_SERVICE judges the token that it has read, and draws a fresh nonce either way. -/
theorem State.enterService_read : s.enterService =
    let reason := w.tokenCheck (s.pair .debugTokenLo .debugTokenHi 0 0) d
    if reason ≠ 0 then
      let v := if reason = 9 then w.drawNonce.giveUp 0x35 0 3 6 0x3502 none else w.drawNonce
      ((v.debugEnds 3 reason).bump .debugRefused 0 0 1).emit 0x3502 0 1 (pay [reason])
    else w.drawNonce.serviceBegin d := by
  unfold State.enterService
  unfold State.tokenRead at h
  split at h
  case isTrue hout =>
    obtain ⟨rfl, rfl⟩ := h
    simp only [if_pos hout]
  case isFalse hin =>
    simp only [if_neg hin]
    obtain h | ⟨h1, h2, rfl⟩ := h
    · simp only [h]
    · generalize s.load 152 _ 256 = r at h1 h2 ⊢
      obtain ⟨x, res⟩ := r
      subst h1
      cases res with
      | ok d => exact absurd rfl (h2 d)
      | refused => rfl
      | ue d => rfl

theorem State.enterService_passes (hc : w.tokenCheck (s.pair .debugTokenLo .debugTokenHi 0 0) d = 0) :
    s.enterService = w.drawNonce.serviceBegin d := by
  rw [State.enterService_read h]
  exact if_neg (not_not_intro hc)

theorem State.enterService_fails {reason : Nat} (hc : w.tokenCheck (s.pair .debugTokenLo .debugTokenHi 0 0) d = reason) (h0 : reason ≠ 0) :
    s.enterService =
      let v := if reason = 9 then w.drawNonce.giveUp 0x35 0 3 6 0x3502 none else w.drawNonce
      ((v.debugEnds 3 reason).bump .debugRefused 0 0 1).emit 0x3502 0 1 (pay [reason]) := by
  subst hc
  rw [State.enterService_read h]
  exact if_pos h0

end

/-- SET_FIELD outside DEVELOPMENT is refused with reason 2 (log 68). -/
theorem State.setField_state {s : State} (h : s.lifecycle ≠ 0) : s.setField = s.debugEnds 3 2 := if_pos h

/-- In DEVELOPMENT without a qualifying key it is refused with reason 5 (R137). -/
theorem State.setField_noKey {s : State} (h : s.lifecycle = 0) (hk : s.otp.qualifying = []) : s.setField = s.debugEnds 3 5 :=
  (if_neg (not_not_intro h)).trans (if_pos hk)

/-- In DEVELOPMENT with a qualifying key it programs FIELD (R132). -/
theorem State.setField_programs {s : State} (h : s.lifecycle = 0) (hk : s.otp.qualifying ≠ []) :
    s.setField =
      let u : State := { s with otp := { s.otp with field := true } }
      ((u.setReg .debugState 0 0 1).debugEnds 2 0).identity.emit 0x3503 0 0 (pay [(s.otp.qualifying.map fun k => 2 ^ k).sum]) :=
  (if_neg (not_not_intro h)).trans (if_neg hk)

/-! ### The debug master (R131, R136) -/

/-- What the debug master's read answers: the bytes, the bytes with an error flag, or all ones. -/
theorem State.debugAccess_read (s : State) (a n : Nat) (d : List Byte) :
    s.debugAccess false a n d = State.send { s with bus := (s.bus.debugRead s.lifecycle a n).1 }
      (match (s.bus.debugRead s.lifecycle a n).2 with
        | .ok d => .memRead 153 true d
        | .ue d => .memRead 153 false d
        | .refused => .memRead 153 false (List.replicate n 0xFF)) := by
  unfold State.debugAccess
  simp only [Bool.false_eq_true, if_false]
  cases (s.bus.debugRead s.lifecycle a n).2 <;> rfl

/-- Whether its write was taken; a write in SERVICE counts for the record (R136). -/
theorem State.debugAccess_write (s : State) (a n : Nat) (d : List Byte) :
    s.debugAccess true a n d =
      let r := s.bus.debugWrite s.lifecycle a d
      let u := State.send { s with bus := r.1 } (.memWritten 153 r.2)
      if s.lifecycle = 2 ∧ r.2 = true ∧ d ≠ [] then u.debugCount a d.length else u := rfl

/-- In FIELD it reads nothing. -/
theorem Bus.debugRead_field (b : Bus) (a n : Nat) : b.debugRead 1 a n = (b.refuseRead 153 a, .refused) := rfl

theorem Bus.debugWrite_development {b : Bus} {a : Nat} {d : List Byte} (h : b.touchesLocked a d.length = false) :
    b.debugWrite 0 a d = b.store 153 a d := if_neg (by simp [h])

theorem Bus.debugWrite_service {b : Bus} (h : b.memReady = true) (a : Nat) (d : List Byte) :
    b.debugWrite 2 a d = b.writeChecked 153 a d := if_pos h

/-- The record of a millisecond in which it wrote, once that has ended. -/
theorem State.debugRecord_due {s : State} {t n lo hi : Nat} (hw : s.wdn.dbgWrites = some (t, n, lo, hi)) (ht : t + tickMs ≤ s.ticks) :
    s.debugRecord = (s.setWdn { s.wdn with dbgWrites := none }).journal 0x0F 0x35 0 (le 4 n ++ le 4 0 ++ le 8 lo ++ le 8 hi) := by
  simp only [State.debugRecord, hw, if_neg (Nat.not_lt.mpr ht)]

/-- Settles O54: a write of DEBUG_CMD goes by the laws of BUSY and idle to ENTER_SERVICE or SET_FIELD, an access of the debug master by
what its lifecycle state allows. -/
theorem debugTakesEffect : Obligations.DebugTakesEffect := by
  refine ⟨?enter, ?field, ?access, ?record⟩
  case enter =>
    intro s port hl hr t a
    have run : exec (.enterService port) s = .next (s.debugCmd port 1).watch.settle := by rw [exec_enterService, State.fabric_live hl]
    refine ⟨fun hb => by rw [run, State.debugCmd_busy hr hb], fun w d hb hread => ?token⟩
    case token =>
      rw [State.debugCmd_enter hr hb] at run
      refine ⟨fun hc => ?passes, fun reason hc h0 => ?fails⟩
      case passes => rw [run, State.enterService_passes hread hc]; rfl
      case fails => rw [run, State.enterService_fails hread hc h0]
  case field =>
    intro s port hl hr t
    have run : exec (.setField port) s = .next (s.debugCmd port 2).watch.settle := by rw [exec_setField, State.fabric_live hl]
    have idle (hb : t.fld .debugStatus 0 0 0 2 ≠ 1) : s.debugCmd port 2 = t.setField := State.debugCmd_set hr hb
    refine ⟨fun hb => by rw [run, State.debugCmd_busy hr hb], fun hb h => by rw [run, idle hb, State.setField_state h],
      fun hb h => ⟨fun hk => by rw [run, idle hb, State.setField_noKey h hk], fun hk => by rw [run, idle hb, State.setField_programs h hk]⟩⟩
  case access =>
    intro s a n d hl
    simp only [exec_debugMasterAccess, State.fabric_live hl, State.debugAccess_read, State.debugAccess_write]
    refine ⟨fun h => by rw [h], fun h => by rw [h], fun h => by rw [h], trivial, fun h => ?_, fun h hk => ?_, fun h hm hw hd => ?_⟩
    · rw [h, Bus.debugRead_field]
    · simp only [h, Bus.debugWrite_development hk]
      rw [if_neg (by simp)]
    · simp only [h, Bus.debugWrite_service hm, hw]
      rw [if_pos (by simp [hd])]
  case record =>
    intro s t n lo hi hl hw ht
    rw [exec_debugAccessRecord, State.fabric_live hl, State.debugRecord_due hw ht]

end Sys2Proof.Machine

/-! SUPPORT. The patrol read (spec/05 R154, R162): a word of a pseudo-channel that is held while it retrains is not read. -/

namespace Sys2Proof.Machine

/-- A patrol read whose word is held does nothing. -/
theorem Bus.scrubRead_held {b : Bus} (h : b.heldAt (b.nextMapped b.mx.scrubAddr) = true) (result : Nat) : b.scrubRead result = b :=
  if_pos (.inr h)

/-- A device that runs, with memory READY, 1 GiB of stack 0 mapped from address 0, and pseudo-channel 0 held for a retrain. -/
def retraining : State :=
  { State.reset with
    fabricUp := true
    bus :=
      let b := ((State.reset.bus.setFld .memState 0 0 0 3 4).setReg .memPartCtl 0 0 3).setReg .memPartSizeLo 0 0 0x40000000
      { b with mx := { b.mx with held := [(0, 0)] } } }

theorem retraining_nextMapped : retraining.bus.nextMapped retraining.bus.mx.scrubAddr = 0 := by decide

theorem retraining_held : retraining.bus.heldAt 0 = true := by decide

/-- Refutes O15: its clauses for a patrol read let the word be at a pseudo-channel that is held, where nothing is read. On `retraining` the
next word of the patrol is at address 0, in the held pseudo-channel 0: a read that would find an uncorrectable error leaves MEM_UE_COUNT at
0, where the statement gives 1. -/
theorem not_memoryCommandsTakeEffect : ¬ Obligations.MemoryCommandsTakeEffect := by
  rintro ⟨-, -, -, uncorrectable, -⟩
  obtain ⟨u, run, counted, -⟩ := uncorrectable retraining ⟨rfl, rfl⟩ (by rw [retraining_nextMapped]; decide)
  have held := Bus.scrubRead_held (by rw [retraining_nextMapped]; exact retraining_held) 2
  have same : retraining.watch.settle = u.watch.settle := by
    rw [exec_scrubRead, State.fabric_live ⟨rfl, rfl⟩, State.onBus, held] at run
    exact Host.Outcome.next.inj run
  have stays (s : State) : s.watch.settle.bus.reg .memUeCount 0 0 = s.bus.reg .memUeCount 0 0 := s.ends_only.bus.reg .memUeCount 0 0 rfl
  have rises : retraining.bus.reg .memUeCount 0 0 = retraining.bus.reg .memUeCount 0 0 + 1 :=
    calc retraining.bus.reg .memUeCount 0 0
      _ = retraining.watch.settle.bus.reg .memUeCount 0 0 := (stays retraining).symm
      _ = u.watch.settle.bus.reg .memUeCount 0 0 := by rw [same]
      _ = u.bus.reg .memUeCount 0 0 := stays u
      _ = retraining.bus.reg .memUeCount 0 0 + 1 := counted
  exact absurd rises (by decide)

end Sys2Proof.Machine

/-! SUPPORT. Device memory (spec/05 R148 to R150): the form that every step keeps it in, and that bytes once written are the bytes read. -/

namespace Sys2Proof.Machine

/-! ### The canonical form -/

/-- A step keeps of the shared part what an idle tick and a command keep of it: taking a command off the queue leaves it alone. -/
theorem step_busKeeps {s t : State} (h : step s = .next t) : BusKeeps s.bus t.bus := by
  unfold step at h
  split at h
  case h_1 =>
    cases h
    exact (State.idle_keeps (.refl s)).bus
  case h_2 c rest _ => exact (exec_keeps c { s with pending := rest } t h).bus

/-- Settles O4: the form of memory is part of what every step keeps of the shared part. -/
theorem stepKeepsMemoryForm : Obligations.StepKeepsMemoryForm :=
  fun _ _ hwf hstep => (step_busKeeps hstep).mem hwf

/-! ### The byte at an address -/

/-- The byte at `x` after one queued write: the write's own where it covers `x`. -/
def QWrite.over (x : Nat) (v : Byte) (w : QWrite) : Byte :=
  if w.addr ≤ x ∧ x < w.addr + w.data.length then w.data.getD (x - w.addr) 0 else v

theorem Bus.byte_eq_foldl (b : Bus) (x : Nat) : b.byte x = b.wq.foldl (QWrite.over x) (tabGet 0 b.mem x) := rfl

/-- What the array and the queues hold is all that a read returns. -/
theorem Bus.byte_congr {b c : Bus} (hm : c.mem = b.mem) (hq : c.wq = b.wq) (x : Nat) : c.byte x = b.byte x := by
  rw [Bus.byte_eq_foldl, Bus.byte_eq_foldl, hm, hq]

/-- Writes accepted last are merged last (R150). -/
theorem Bus.byte_append {b c : Bus} {ws : List QWrite} (hm : c.mem = b.mem) (hq : c.wq = b.wq ++ ws) (x : Nat) :
    c.byte x = ws.foldl (QWrite.over x) (b.byte x) := by
  rw [Bus.byte_eq_foldl, Bus.byte_eq_foldl, hm, hq, List.foldl_append]

/-- A write in two pieces puts what the whole puts. -/
theorem QWrite.over_take_drop (m a n x : Nat) (v : Byte) (data : List Byte) :
    QWrite.over x (QWrite.over x v ⟨m, a, data.take n⟩) ⟨m, a + n, data.drop n⟩ = QWrite.over x v ⟨m, a, data⟩ := by
  simp only [QWrite.over, List.length_take, List.length_drop, List.getD_eq_getElem?_getD]
  rcases Nat.lt_or_ge x (a + n) with hx | hx
  case inl =>
    rw [if_neg (by omega)]
    refine ite_congr (propext (by omega)) (fun h => ?_) fun _ => rfl
    rw [List.getElem?_take_of_lt (by omega)]
  case inr =>
    rw [if_neg (c := a ≤ x ∧ x < a + min n data.length) (by omega)]
    refine ite_congr (propext (by omega)) (fun h => ?_) fun _ => rfl
    rw [List.getElem?_drop, show n + (x - (a + n)) = x - a by omega]

/-- The pieces of a write cut at the 64-byte words (R148) together put the whole of its bytes, and no other. -/
theorem foldl_over_splitWords (m x : Nat) {fuel a : Nat} {data : List Byte} (hfuel : data.length ≤ fuel) (v : Byte) :
    ((splitWords fuel a data).map fun w => (⟨m, w.1, w.2⟩ : QWrite)).foldl (QWrite.over x) v = QWrite.over x v ⟨m, a, data⟩ := by
  induction fuel generalizing a data v with
  | zero =>
    obtain rfl : data = [] := List.length_eq_zero_iff.mp (Nat.le_zero.mp hfuel)
    exact (if_neg (by simp)).symm
  | succ fuel ih =>
    cases data with
    | nil => exact (if_neg (by simp)).symm
    | cons d data =>
      simp only [splitWords, List.isEmpty_cons, Bool.false_eq_true, if_false, List.map_cons, List.foldl_cons]
      rw [ih (by rw [List.length_drop]; omega), QWrite.over_take_drop]

/-! ### Loads and stores -/

theorem Bus.byte_countBytes (b : Bus) (a n x : Nat) : (b.countBytes a n).byte x = b.byte x :=
  Bus.byte_congr (by rw [Bus.countBytes, Bus.setPair_mem, Bus.setPair_mem]) (by rw [Bus.countBytes, Bus.setPair_wq, Bus.setPair_wq]) x

theorem Bus.byte_corrected (b : Bus) (a n x : Nat) : (b.corrected a n).byte x = b.byte x := by
  unfold Bus.corrected
  split <;> rfl

/-- Correcting single-bit errors changes no byte: the array holds the corrected data (R152). -/
theorem Bus.byte_correctWords (b : Bus) (a n x : Nat) : (b.correctWords a n).byte x = b.byte x := by
  unfold Bus.correctWords
  refine List.foldlRecOn (motive := fun c : Bus => c.byte x = b.byte x) _ _ rfl fun c hc w _ => ?_
  dsimp only
  split
  · rw [Bus.byte_corrected, hc]
  · exact (Bus.byte_corrected c (w * 8) 1 x).trans hc

/-- A load that answers data, by a master not in strict mode, answers the bytes as they stand. -/
theorem Bus.load_ok {b c : Bus} {m a n : Nat} {d : List Byte} (hs : strictMaster m = false) (h : b.load m a n = (c, .ok d)) :
    d = b.bytes a n := by
  unfold Bus.load Bus.readChecked at h
  simp only [hs, Bool.false_eq_true, if_false] at h
  split at h
  case isFalse => cases h
  split at h
  case isTrue => cases h
  split at h
  case isFalse => cases h
  obtain rfl := MemRes.ok.inj (Prod.mk.inj h).2
  simp only [Bus.bytes, Bus.byte_correctWords, Bus.byte_countBytes]

/-- A store that takes every word, by a master not in strict mode, leaves the array alone and queues the pieces of the write. -/
theorem Bus.store_taken {b c : Bus} {m a : Nat} {data : List Byte} (hs : strictMaster m = false) (h : b.store m a data = (c, true)) :
    c.mem = b.mem ∧ c.wq = b.wq ++ (splitWords data.length a data).map fun w => ⟨m, w.1, w.2⟩ := by
  unfold Bus.store Bus.writeChecked at h
  simp only [hs, Bool.false_eq_true, if_false] at h
  split at h
  case isFalse => cases h
  split at h
  case isTrue => cases h
  obtain ⟨rfl, hall⟩ := Prod.mk.inj h
  have whole : (splitWords data.length a data).filter (fun w => !b.failedAt w.1) = splitWords data.length a data :=
    List.filter_eq_self.mpr (List.length_filter_eq_length_iff.mp (beq_iff_eq.mp hall))
  exact ⟨rfl, by rw [whole]; rfl⟩

/-- The byte at any address after a store that takes every word. -/
theorem Bus.byte_store {b c : Bus} {m a : Nat} {data : List Byte} (hs : strictMaster m = false) (h : b.store m a data = (c, true))
    (x : Nat) : c.byte x = QWrite.over x (b.byte x) ⟨m, a, data⟩ := by
  obtain ⟨hm, hq⟩ := Bus.store_taken hs h
  rw [Bus.byte_append hm hq, foldl_over_splitWords m x (Nat.le_refl _)]

/-- Settles O17: the pieces of the write are merged last over every byte, and a load answers the merged bytes. -/
theorem writtenBytesReadBack : Obligations.WrittenBytesReadBack := by
  intro b c m a data hs hstore
  have written (i : Nat) (hi : i < data.length) : c.byte (a + i) = data.getD i 0 := by
    rw [Bus.byte_store hs hstore, QWrite.over, if_pos ⟨by simp, by simpa using hi⟩, Nat.add_sub_cancel_left]
  refine ⟨written, fun x hx => ?frame, fun m' d d' n i hs' hn hload => ?readBack⟩
  case frame =>
    rw [Bus.byte_store hs hstore]
    exact if_neg (by simp only; omega)
  case readBack =>
    rw [Bus.load_ok hs' hload]
    refine List.ext_getElem (by simp [Bus.bytes]; omega) fun j hj _ => ?_
    have hj : j < n := by simpa [Bus.bytes] using hj
    simp only [Bus.bytes, List.getElem_map, List.getElem_range, List.getElem_take, List.getElem_drop]
    rw [Nat.add_assoc, written (i + j) (by omega), List.getD_eq_getElem _ _ (by omega)]

end Sys2Proof.Machine

/-! SUPPORT. The check units and the compression engine (spec/06 R190 to R193; spec/13 R431 to R434): what CHECK_APPEND, CHECK_VERIFY,
COMPRESS and DECOMPRESS come to once their reads have succeeded. -/

namespace Sys2Proof.Machine

/-- The common checks of a command of a function that is ON, with OBJECT 0xFFFF. -/
theorem State.checked_on {s : State} {r cap : Nat} {argsOk : Bool} {e : FEntry} {f : State → State × Option (Nat × Nat)}
    (hh : s.plan.has cap e.inst = true) (hn : s.isOn cap e.inst = true) (ho : e.object = 0xFFFF) (ha : argsOk = true) :
    checked cap (e.object == 0xFFFF) argsOk false e (s.begun r e) f = f (s.begun r e) :=
  State.checked_begun hh (beq_of_eq ho) ha hn

/-! ### Check units -/

/-- A check command whose bytes are read leaves their check value in CHK_RESULT and goes on with the value's bytes (R431, R432). -/
theorem checkCmd_begun {s u : State} {r host : Nat} {e : FEntry} {d : List Byte}
    {f : Nat → FEntry → Nat → List Byte → State → State × Option (Nat × Nat)} (hh : s.plan.has 7 e.inst = true)
    (hn : s.isOn 7 e.inst = true) (ho : e.object = 0xFFFF) (h1 : 1 ≤ e.arg 40 4) (h2 : e.arg 40 4 ≤ 16777216)
    (hz : e.zeroFrom 44 56 = true) (hl : (s.begun r e).load host (e.arg 32 8) (e.arg 40 4) = (u, .ok d)) :
    let v := crc (u.chkSpec e.inst) d
    checkCmd f host r e (s.begun r e) =
      f host e (e.arg 32 8 + e.arg 40 4) (le (cdiv (u.chkSpec e.inst).width 8) v) (u.setPair .chkResultLo .chkResultHi e.inst 0 v) := by
  unfold checkCmd
  dsimp only
  rw [State.checked_on hh hn ho (by simp [h1, h2, hz])]
  simp only [hl]

/-! ### Pictures by blocks -/

/-- One block of a picture that is fetched: the blocks so far and this one, or the first error. -/
def fetchStep (m addr : Nat) (g : Geo) (acc : State × Fetch (List (List Byte))) (q : Nat × Nat) : State × Fetch (List (List Byte)) :=
  match acc with
  | (s, .ok bs) =>
    match s.fetchBlock m addr g q.1 q.2 with
    | (s, .ok b) => (s, .ok (bs ++ [b]))
    | (s, .refused) => (s, .refused)
    | (s, .ue) => (s, .ue)
    | (s, .bad a c) => (s, .bad a c)
  | other => other

/-- One block of DECOMPRESS: the blocks so far, the status of an access that failed, and whether a block was unsound (R192). -/
def expandStep (host addr : Nat) (g : Geo) (acc : State × List (List Byte) × Nat × Bool) (q : Nat × Nat) :
    State × List (List Byte) × Nat × Bool :=
  match acc with
  | (s, bs, err, bad) =>
    if err ≠ 0 then acc
    else
      match s.expand host addr g q.1 q.2 bad with
      | (s, .ok b) => (s, bs ++ [b], 0, bad)
      | (s, .refused) => (s, bs, stAccess, bad)
      | (s, .ue) => (s, bs, stEcc, bad)
      | (s, .bad _ _) => (s, bs ++ [List.replicate (rawBlk g.fmt) 0xFF], 0, true)

/-- The blocks of a picture, row by row. -/
def Geo.places (g : Geo) : List (Nat × Nat) := (List.range g.bh).flatMap fun y => (List.range g.bw).map fun x => (x, y)

/-- A picture that is fetched is the fold of its blocks. -/
theorem State.fetchPicture_eq (s : State) (m addr : Nat) (g : Geo) : s.fetchPicture m addr g =
    match g.places.foldl (fetchStep m addr g) (s, .ok []) with
    | (s, .ok bs) => (s, .ok (g.ofBlocks bs))
    | other => other := rfl

/-- A step that succeeds follows steps that did, with a block that is sound. -/
theorem fetchStep_ok {m addr : Nat} {g : Geo} {acc : State × Fetch (List (List Byte))} {q : Nat × Nat} {t : State} {cs : List (List Byte)}
    (h : fetchStep m addr g acc q = (t, .ok cs)) :
    ∃ s bs b, acc = (s, .ok bs) ∧ s.fetchBlock m addr g q.1 q.2 = (t, .ok b) ∧ cs = bs ++ [b] := by
  unfold fetchStep at h
  split at h
  case h_1 s bs =>
    split at h
    case h_1 v b hb =>
      cases h
      exact ⟨s, bs, b, rfl, hb, rfl⟩
    all_goals cases h
  case h_2 hne => exact absurd h (hne t cs)

/-- DECOMPRESS expands the blocks that a fetch of the picture finds sound. -/
theorem expand_of_fetch {m addr : Nat} {g : Geo} {s t : State} {qs : List (Nat × Nat)} {bs : List (List Byte)}
    (h : qs.foldl (fetchStep m addr g) (s, .ok []) = (t, .ok bs)) :
    qs.foldl (expandStep m addr g) (s, [], 0, false) = (t, bs, 0, false) := by
  induction qs using List.reverseRecOn generalizing t bs with
  | nil =>
    cases h
    rfl
  | append_singleton qs q ih =>
    rw [List.foldl_concat] at h ⊢
    obtain ⟨u, as, b, hacc, hb, rfl⟩ := fetchStep_ok h
    rw [ih hacc]
    simp only [expandStep, State.expand, hb, ne_eq, not_true, if_false, Bool.false_eq_true]

/-- The picture that a fetch gives stands in the blocks that DECOMPRESS expands. -/
theorem State.fetchPicture_ok {s t : State} {m addr : Nat} {g : Geo} {pic : List (List Byte)}
    (h : s.fetchPicture m addr g = (t, .ok pic)) :
    ∃ bs, g.places.foldl (expandStep m addr g) (s, [], 0, false) = (t, bs, 0, false) ∧ pic = g.ofBlocks bs := by
  rw [State.fetchPicture_eq] at h
  split at h
  case h_1 u bs hb =>
    cases h
    exact ⟨bs, expand_of_fetch hb, rfl⟩
  case h_2 hne => exact absurd h (hne t pic)

/-- DECOMPRESS of a store whose blocks are sound writes its pixels, and the content check of its trailer decides (R191, R192). -/
theorem decompress_begun {s u t x : State} {r host : Nat} {e : FEntry} {pic : List (List Byte)} {tr : List Byte}
    (hh : s.plan.has 6 e.inst = true) (hn : s.isOn 6 e.inst = true) (ho : e.object = 0xFFFF) (ha : cmpArgs e false = true)
    (hf : (s.begun r e).fetchPicture host (e.arg 32 8) (cmpGeo e) = (u, .ok pic))
    (hw : u.writeAll host (pic.mapIdx fun y row => (e.arg 40 8 + y * (e.arg 52 2 * 64), row)) = (t, true))
    (ht : t.fetchBytes host (e.arg 32 8 + (cmpGeo e).trailerOff) 64 = (x, .ok tr)) :
    decompress host r e (s.begun r e) =
      (x, some (if leAt tr 12 4 = contentCheck ((cmpGeo e).checks pic) then (stOk, 0) else (stFailed, 2))) := by
  obtain ⟨bs, hb, rfl⟩ := State.fetchPicture_ok hf
  unfold decompress
  rw [State.checked_on hh hn ho ha]
  extract_lets g src places blocks
  have expanded : blocks = (u, bs, 0, false) := hb
  simp only [expanded, g, src, hw, ht, ne_eq, not_true, if_false, Bool.false_eq_true]
  split <;> rfl

/-! ### COMPRESS -/

section
variable {s u : State} {r host : Nat} {e : FEntry} {pic : List (List Byte)} (hh : s.plan.has 6 e.inst = true)
  (hn : s.isOn 6 e.inst = true) (ho : e.object = 0xFFFF) (ha : cmpArgs e true = true)
  (hf : (s.begun r e).fetchRows host (e.arg 32 8) (e.arg 52 2 * 64) (cmpGeo e).rows (cmpGeo e).rowLen = (u, .ok pic))
include hh hn ho ha hf

/-- COMPRESS of a picture of which too many blocks stay raw writes nothing (R190). -/
theorem compress_noGain
    (hg : u.fld .cmpXNoGainPct 0 0 0 7 * ((cmpGeo e).coded (e.arg 55 1 % 4) pic).length ≤
      (((cmpGeo e).coded (e.arg 55 1 % 4) pic).filter fun c => c.2.1 == 1).length * 100) :
    compress host r e (s.begun r e) = (u.bump .cmpNoGain 0 0 1, some (stNoGain, 0)) := by
  unfold compress
  rw [State.checked_on hh hn ho ha]
  simp only [hf, if_pos hg]
  rfl

/-- COMPRESS of a picture that gains writes it as a frame store (R190). -/
theorem compress_gains {t : State}
    (hg : (((cmpGeo e).coded (e.arg 55 1 % 4) pic).filter fun c => c.2.1 == 1).length * 100 <
      u.fld .cmpXNoGainPct 0 0 0 7 * ((cmpGeo e).coded (e.arg 55 1 % 4) pic).length)
    (hw : u.writePicture host (e.arg 40 8) (cmpGeo e) (e.arg 55 1 % 4) pic = (t, true)) :
    compress host r e (s.begun r e) = (t, some (stOk, 0)) := by
  unfold compress
  rw [State.checked_on hh hn ho ha]
  simp only [hf, if_neg (Nat.not_le.mpr hg), hw]
  rfl

end

/-- Settles O29: each command goes by the law of a ripe command to what its performer gives above; a check that differs is a failure. -/
theorem checkAndCompressTakeEffect : Obligations.CheckAndCompressTakeEffect := by
  refine ⟨?append, ?verify, ?compress, ?decompress⟩
  case append =>
    intro s u t r k e d h hh hn ho h1 h2 hz host hl v hw
    refine State.fabric_done h ?_
    rw [checkAppend, checkCmd_begun hh hn ho h1 h2 hz hl]
    dsimp only [v] at hw ⊢
    simp only [hw]
    rfl
  case verify =>
    intro s u t r k e d d' h hh hn ho h1 h2 hz host hl v w hv
    refine ⟨fun hd => State.fabric_done h ?_, fun hd => State.fabric_done h ?_⟩
    all_goals
      rw [checkVerify, checkCmd_begun hh hn ho h1 h2 hz hl]
      dsimp only [v, w] at hv hd ⊢
      simp only [hv, hd, if_true, if_false]
      rfl
  case compress =>
    intro s u r k e pic h hh hn ho ha host g hf coded raw
    exact ⟨fun hg => State.fabric_done h (compress_noGain hh hn ho ha hf hg),
      fun t hg hw => State.fabric_done h (compress_gains hh hn ho ha hf hg hw)⟩
  case decompress =>
    intro s u t x r k e pic tr h hh hn ho ha host g hf hw ht
    rw [exec_decompress]
    by_cases hc : leAt tr 12 4 = contentCheck (g.checks pic)
    · rw [State.fabric_done h ((decompress_begun hh hn ho ha hf hw ht).trans (by rw [if_pos hc])), if_pos hc]
      rfl
    · rw [State.fabric_done h ((decompress_begun hh hn ho ha hf hw ht).trans (by rw [if_neg hc])), if_neg hc]
      rfl

end Sys2Proof.Machine

/-! SUPPORT. What moves a source without a packet (spec/06 R169, R179, R184, R187, R188, R194, R196; spec/13 R417): SUBMIT, the source's state,
its cull window and fill limit, the test pattern and the credits of its in-port. -/

namespace Sys2Proof.Machine

/-! ### SUBMIT (R187, R188) -/

/-- The decisions of SUBMIT to a source that is ON, in their order. -/
theorem submit_begun {s : State} {r : Nat} {e : FEntry} (hh : s.plan.has 0x10 e.inst = true) (hn : s.isOn 0x10 e.inst = true)
    (ho : e.object = 0xFFFF) (host : Nat) :
    submit host r e (s.begun r e) =
      let v := s.begun r e
      if v.srcKind e.inst ≠ 2 then (v, some (stBadOpcode, 0))
      else if !v.submitArgs e then (v, some (stBadArgument, 0))
      else if v.bufState e.inst (e.arg 32 1) ≠ 0 then (v.poolNone e.inst 0, some (stBusy, 0))
      else if (v.geo e.inst).store = 0 then v.submitHere e
      else v.submitFrom e := State.checked_on hh hn ho rfl

/-- A picture that stands in its buffer, without VERIFY: the checks of ingest with the check value given decide (R188). -/
theorem State.submitHere_unverified {s u : State} {e : FEntry} {reason : Nat} (hv : (e.arg 33 1).testBit 0 = false)
    (h : s.finish e.inst (e.arg 32 1)
      { alive := e.arg 34 2, cap := w32 (e.arg 36 4), check := e.arg 40 4, given := none, degraded := (e.arg 33 1).testBit 2,
        fromHost := true, fault := false, incomplete := false, since := s.ticks, doubts := (s.src e.inst).doubts } = (u, reason)) :
    s.submitHere e = (u, some (if reason = 0 then stOk else stFailed, reason)) := by
  unfold State.submitHere
  extract_lets g addr
  rw [if_pos (by rw [hv]; rfl)]
  rw [State.submitEnd]
  simp only [Bool.not_true, Bool.false_eq_true, and_false, if_false, h]
  cases reason <;> rfl

/-! ### The state of a source (R184) -/

/-- A source's state by the pseudocode of R184, with its event when it changes. -/
theorem State.evalSource_eq (s : State) (n : Nat) :
    s.evalSource n =
      let gone : Bool := !s.isOn 0x10 n || (s.newest n).isNone || s.writerAbsent n
      let age := s.age (s.reg .srcNewestTime n 0)
      let old := s.fld .srcState n 0 0 2
      let v := if gone = false ∧ 2000000000 ≤ age then s.dropNewest n else s
      let st := if gone = true ∨ 2000000000 ≤ age then 0
        else if bit (s.reg .srcState n 0) 2 = true ∨ (s.fld .srcLimit n 0 0 11 : Int) * 1000000 < age then 3
        else if bit (s.reg .srcBufState n (s.fld .srcState n 0 4 4)) 4 = true then 2
        else 1
      let t := v.setFld .srcState n 0 0 2 st
      if st = old then v else
        t.emit 0x1001 n (if st = 0 ∨ st = 3 then 1 else 0) (pay [old, st, t.fld .srcState n 0 2 1, (t.reg .srcNewestTime n 0).toNat]) := by
  unfold State.evalSource
  extract_lets old age gone tooOld v st v' st' t'
  have same_state : v = v' := by simp only [v, v', tooOld, Bool.and_eq_true, Bool.not_eq_true', decide_eq_true_eq]
  have same_value : st = st' := by
    by_cases ends : gone = true ∨ 2000000000 ≤ age
    · have ends' : (gone || tooOld) = true := by simpa [tooOld] using ends
      simp only [st, st', if_pos ends, if_pos ends']
    · have ends' : ¬ (gone || tooOld) = true := by simpa [tooOld] using ends
      have kept : v = s := if_neg fun h => ends' (by rw [(Bool.and_eq_true_iff.mp h).2, Bool.or_true])
      simp only [st, st', if_neg ends, if_neg ends', kept, Bool.or_eq_true, decide_eq_true_eq]
  have flag : t'.fld .srcState n 0 2 1 = v'.fld .srcState n 0 2 1 := v'.fld_setFld_apart _ _ _ _ _ _ _ _ (by decide) (.inr (by decide))
  have time : t'.reg .srcNewestTime n 0 = v'.reg .srcNewestTime n 0 := v'.reg_setFld_ne (by decide) ..
  rw [flag, time, ← same_value, ← same_state]
  simp only [t', ← same_state, ← same_value]

/-! ### The cull window and the fill limit (R179, R196) -/

/-- A cull window that is over posts its event. -/
theorem State.srcCull_due {s : State} {n : Nat} {w : CullWin} (hw : (s.src n).win = some w) (ht : w.opened + tickMs ≤ s.ticks) :
    s.srcCull n = (s.setSrc n { s.src n with win := none }).emitAt w.time none 0x1002 n 1 (pay [w.reason, w.alive, w.cap.toNat, w.count]) := by
  unfold State.srcCull
  simp only [hw, if_pos ht]

/-- What the work of a source's pictures leaves: write-backs, decoders and cores. -/
structure PicturesOnly (s t : State) : Prop where
  wbs : t.wbs = s.wbs
  decs : t.decs = s.decs
  cores : t.cores = s.cores

theorem PicturesOnly.refl (s : State) : PicturesOnly s s := ⟨rfl, rfl, rfl⟩

theorem PicturesOnly.trans {s t u : State} (h : PicturesOnly s t) (g : PicturesOnly t u) : PicturesOnly s u :=
  ⟨g.wbs.trans h.wbs, g.decs.trans h.decs, g.cores.trans h.cores⟩

theorem PicturesOnly.ite {c : Prop} [Decidable c] {s t u : State} (ht : PicturesOnly s t) (hu : PicturesOnly s u) :
    PicturesOnly s (if c then t else u) := by
  split <;> assumption

section
variable {s t : State} (h : PicturesOnly s t)
include h

theorem PicturesOnly.wb (n : Nat) : t.wb n = s.wb n := congrArg (tabGet none · n) h.wbs

theorem PicturesOnly.dec (n : Nat) : t.dec n = s.dec n := congrArg (tabGet DecSt.init · n) h.decs

theorem PicturesOnly.core (c : Nat) : t.core c = s.core c := congrArg (tabGet none · c) h.cores

end

theorem PicturesOnly.forEach {α : Type} {s t : State} {xs : List α} {f : α → State → State} (ht : PicturesOnly s t)
    (hf : ∀ x u, PicturesOnly s u → PicturesOnly s (f x u)) : PicturesOnly s (Machine.forEach xs f t) := by
  unfold Machine.forEach
  induction xs generalizing t with
  | nil => exact ht
  | cons x xs ih => exact ih (hf x t ht)

/-! The updates that pictures are moved by. -/

section
variable {z s : State} (h : PicturesOnly z s)
include h

theorem PicturesOnly.setFld (r : FReg) (i j lo n v : Nat) : PicturesOnly z (s.setFld r i j lo n v) := h.trans ⟨rfl, rfl, rfl⟩

theorem PicturesOnly.bump (r : FReg) (i j n : Nat) : PicturesOnly z (s.bump r i j n) := h.trans ⟨rfl, rfl, rfl⟩

theorem PicturesOnly.onBus (f : Bus → Bus) : PicturesOnly z (s.onBus f) := h.trans ⟨rfl, rfl, rfl⟩

theorem PicturesOnly.setSrc (n : Nat) (x : SrcSt) : PicturesOnly z (s.setSrc n x) := h.trans ⟨rfl, rfl, rfl⟩

theorem PicturesOnly.setBufState (n b st : Nat) : PicturesOnly z (s.setBufState n b st) :=
  ((h.setFld ..).setFld ..).setFld ..

theorem PicturesOnly.dropNewest (n : Nat) : PicturesOnly z (s.dropNewest n) := by
  unfold State.dropNewest
  split
  case h_1 => exact h
  case h_2 b _ =>
    have dropped := (h.setFld .srcState n 0 3 1 0).setFld .srcBufState n b 3 1 0
    exact .ite (dropped.setBufState ..) dropped

theorem PicturesOnly.evalSource (n : Nat) : PicturesOnly z (s.evalSource n) := by
  rw [State.evalSource_eq]
  extract_lets gone age old v st t
  have dropped : PicturesOnly z v := .ite (h.dropNewest n) h
  exact .ite dropped ((dropped.setFld ..).onBus _)

theorem PicturesOnly.cull (n b reason alive : Nat) (cap : Word) : PicturesOnly z (s.cull n b reason alive cap) := by
  unfold State.cull
  extract_lets counted freed x win culled doubted
  have kept : PicturesOnly z culled := (((h.bump ..).setFld ..).setBufState ..).setSrc ..
  exact (PicturesOnly.ite (kept.setFld ..) kept).evalSource n

theorem PicturesOnly.signalsDue (n : Nat) : PicturesOnly z (s.signalsDue n) :=
  .ite h (.forEach (h.setSrc ..) fun _ _ g => g.onBus _)

end

/-- A picture that was begun at tick `since` is past the fill limit of its source. -/
def State.pastLimit (s : State) (n since : Nat) : Bool := decide (since + s.fld .srcXFillMs n 0 0 11 * tickMs < s.ticks)

/-- What the fill limit makes of a decoder's pictures: those that wait for their output, and those that cores still decode. -/
def State.decodeLimit (late : Nat → Bool) (n : Nat) (s : State) : State :=
  forEach (List.range 24) (fun c s =>
    match s.core c with
    | some x => if x.stream = n ∧ late x.since = true ∧ x.culled = false then
        (s.setCore c (some { x with culled := true })).cull n x.buf 1 x.alive x.cap else s
    | none => s)
    (forEach ((s.dec n).dpb.filter fun d => d.pending && late d.since) (fun d s =>
      let x := s.dec n
      let s := s.setDec n { x with dpb := x.dpb.map fun e => if e.buf = d.buf then { e with pending := false } else e }
      (s.cull n d.buf 1 d.alive d.cap).showPending n) s)

/-- The fill limit takes an in-port's fill first, then a write-back's, then a decoder's pictures. -/
theorem State.fillLimit_eq (s : State) (n : Nat) :
    s.fillLimit n =
      let t := s.fillTimeout n
      State.decodeLimit (s.pastLimit n) n (match t.wb n with
        | some w => if s.pastLimit n w.since then (t.setWb n none).cull n w.buf 1 w.alive w.time else t
        | none => t) := by
  unfold State.fillLimit State.decodeLimit
  simp only [Bool.not_eq_true']
  rfl

/-- A loop whose every round leaves the state leaves it. -/
theorem forEach_fixed {α : Type} {xs : List α} {f : α → State → State} {s : State} (h : ∀ x ∈ xs, f x s = s) : forEach xs f s = s := by
  unfold forEach
  induction xs with
  | nil => rfl
  | cons x xs ih =>
    rw [List.foldl_cons, h x List.mem_cons_self]
    exact ih fun y hy => h y (List.mem_cons_of_mem x hy)

/-- A decoder without pictures has none that is late. -/
theorem State.decodeLimit_idle {s : State} {n : Nat} (hd : (s.dec n).dpb = []) (hc : ∀ c, s.core c = none) (late : Nat → Bool) :
    State.decodeLimit late n s = s := by
  unfold State.decodeLimit
  rw [hd]
  exact forEach_fixed fun c _ => by simp only [forEach, List.filter_nil, List.foldl_nil, hc]

section
variable {s : State} {n : Nat}

theorem State.fillTimeout_none (h : (s.src n).fill = none) : s.fillTimeout n = s := by
  unfold State.fillTimeout
  rw [h]

/-- A late fill is culled as INCOMPLETE. -/
theorem State.fillTimeout_late {f : FillSt} (h : (s.src n).fill = some f) (ht : f.since + s.fld .srcXFillMs n 0 0 11 * tickMs < s.ticks) :
    s.fillTimeout n = ((s.setSrc n { s.src n with fill := none }).cull n f.buf 1 f.alive f.cap).signalsDue n := by
  unfold State.fillTimeout State.abandon
  simp only [h, if_pos ht]

section
variable (hd : (s.dec n).dpb = []) (hc : ∀ c, s.core c = none)
include hd hc

/-- The limit of an in-port's fill, with no write-back and no decoder's picture. -/
theorem State.fillLimit_fill {f : FillSt} (h : (s.src n).fill = some f) (ht : f.since + s.fld .srcXFillMs n 0 0 11 * tickMs < s.ticks)
    (hw : s.wb n = none) :
    s.fillLimit n = ((s.setSrc n { s.src n with fill := none }).cull n f.buf 1 f.alive f.cap).signalsDue n := by
  have only := (((PicturesOnly.refl s).setSrc n { s.src n with fill := none }).cull n f.buf 1 f.alive f.cap).signalsDue n
  rw [State.fillLimit_eq, State.fillTimeout_late h ht]
  generalize ((s.setSrc n { s.src n with fill := none }).cull n f.buf 1 f.alive f.cap).signalsDue n = t at only ⊢
  simp only [only.wb n, hw]
  exact State.decodeLimit_idle (by rw [only.dec, hd]) (fun c => by rw [only.core, hc]) _

/-- That of a write-back. -/
theorem State.fillLimit_writeBack {w : WbSt} (h : (s.src n).fill = none) (hw : s.wb n = some w)
    (ht : w.since + s.fld .srcXFillMs n 0 0 11 * tickMs < s.ticks) :
    s.fillLimit n = (s.setWb n none).cull n w.buf 1 w.alive w.time := by
  have only := (PicturesOnly.refl (s.setWb n none)).cull n w.buf 1 w.alive w.time
  rw [State.fillLimit_eq, State.fillTimeout_none h]
  simp only [hw, State.pastLimit, decide_eq_true ht, if_true]
  exact State.decodeLimit_idle (by rw [only.dec]; exact hd) (fun c => by rw [only.core]; exact hc c) _

end

/-- That of a decoder's pictures alone. -/
theorem State.fillLimit_decoder (h : (s.src n).fill = none) (hw : s.wb n = none) :
    s.fillLimit n = State.decodeLimit (s.pastLimit n) n s := by
  rw [State.fillLimit_eq, State.fillTimeout_none h]
  simp only [hw]

end

/-! ### The test pattern (R169, R194) -/

/-- The test pattern's next picture is counted, and its time set. -/
def State.testNext (s : State) (n : Nat) : State :=
  s.setSrc n { s.src n with testN := (s.src n).testN + 1, testAt := (s.src n).testAt + s.fld .srcTest n 0 16 10 * tickMs }

section
variable {s : State} {n : Nat} (hk : s.srcKind n = 5) (ho : s.isOn 0x10 n = true) (ht : (s.src n).testAt ≤ s.ticks)
include hk ho ht

/-- With no FREE buffer it is dropped. -/
theorem State.testRegen_full (hb : (s.testNext n).freeBuf n (fun _ => true) = none) : s.testRegen n = (s.testNext n).poolEmpty n := by
  have due : ¬ (s.srcKind n ≠ 5 ∨ (!s.isOn 0x10 n) = true ∨ s.ticks < (s.src n).testAt) := by simp [hk, ho, Nat.not_lt.mpr ht]
  unfold State.testRegen
  extract_lets x t k v
  have next : v = s.testNext n := rfl
  rw [if_neg due]
  simp only [next, hb]

/-- Into a FREE buffer the engine writes it, and it is checked as any picture. -/
theorem State.testRegen_free {u : State} {b : Nat} {ok : Bool} (hb : (s.testNext n).freeBuf n (fun _ => true) = some b)
    (hw : (s.testNext n).writePicture 148 ((s.testNext n).bufAddr n b) ((s.testNext n).geo n) ((s.testNext n).fld .cmpXEffort 0 0 0 2)
      (testPicture ((s.testNext n).geo n) ((s.testNext n).fld .srcTest n 0 0 4) ((s.testNext n).fld .srcTestColour n 0 0 24)
        (s.src n).testN) = (u, ok)) :
    s.testRegen n =
      let pic := testPicture ((s.testNext n).geo n) ((s.testNext n).fld .srcTest n 0 0 4) ((s.testNext n).fld .srcTestColour n 0 0 24)
        (s.src n).testN
      let q := u.engineFault n
      (q.1.finish n b
        { alive := (s.src n).testN % 65535 + 1, cap := s.now, check := contentCheck (((s.testNext n).geo n).checks pic), given := none,
          degraded := false, fromHost := false, fault := q.2 || !ok, incomplete := false, since := q.1.ticks,
          doubts := (q.1.src n).doubts }).1 := by
  have due : ¬ (s.srcKind n ≠ 5 ∨ (!s.isOn 0x10 n) = true ∨ s.ticks < (s.src n).testAt) := by simp [hk, ho, Nat.not_lt.mpr ht]
  unfold State.testRegen
  extract_lets x t k v g pic
  have found : v.freeBuf n (fun _ => true) = some b := hb
  have written : v.writePicture 148 (v.bufAddr n b) g (v.fld .cmpXEffort 0 0 0 2) pic = (u, ok) := hw
  rw [if_neg due]
  simp only [found, written]
  rfl

end

/-! ### Credits (R417) -/

section
variable {s : State} {p : Nat} {e : SrcEnt} (he : s.portSource p = some e) (hp : s.portState p = 2)
include he hp

/-- The limit of an ACTIVE in-port of a raster source is renewed. -/
theorem State.creditSend_raster (hk : e.kind = 0) :
    s.creditSend p = s.sendCredit p (((s.link p).used + 1024) % 2 ^ 32) (bit (s.reg .linkState p 0) 2) := by
  unfold State.creditSend
  simp [he, hp, hk]

section
variable (hk : e.kind = 1) (hw : (s.src e.source).waiting = [])
include hk hw

/-- So is a surface's while a buffer is FREE or FILLING. -/
theorem State.creditSend_open
    (hb : ((List.range e.buffers).any fun b => s.bufState e.source b == 0 || s.bufState e.source b == 1) = true) :
    s.creditSend p = s.sendCredit p (((s.link p).used + 1024) % 2 ^ 32) (bit (s.reg .linkState p 0) 2) := by
  unfold State.creditSend
  simp only [he, hp, hk, hw, List.length_nil, State.drainWaiting, if_true, hb]
  simp

/-- With none its credits are withheld, which POOL_EMPTY tells. -/
theorem State.creditSend_withheld
    (hb : ((List.range e.buffers).any fun b => s.bufState e.source b == 0 || s.bufState e.source b == 1) = false)
    (ho : s.isOn 0x10 e.source = true) :
    s.creditSend p =
      let v := s.poolNone e.source 0
      v.sendCredit p (v.reg .linkCreditLimit p 0).toNat (bit (v.reg .linkState p 0) 2) := by
  unfold State.creditSend
  simp only [he, hp, hk, hw, List.length_nil, State.drainWaiting, if_true, hb, ho]
  simp

end

end

/-- Settles O30: each command goes to its law above by the law of the fabric die. -/
theorem sourcesTakeEffect : Obligations.SourcesTakeEffect := by
  refine ⟨?submit, fun s u e reason hv h => State.submitHere_unverified hv h, ?state, ?cull, ?fill, ?writeBack, ?decoder, ?pattern, ?credits⟩
  case submit =>
    intro s r k e h hh hn ho v
    have begun := submit_begun (r := r) hh hn ho ((s.plan.ringHost r).getD 0)
    refine ⟨fun hk => ?kind, fun hk => ⟨fun ha => ?args, fun ha hb => ?busy, fun ha hb u st reason hu => ?taken⟩⟩
    case kind => exact State.fabric_done h (begun.trans (if_pos hk))
    all_goals have begun := begun.trans (if_neg (not_not_intro hk))
    case args => exact State.fabric_done h (begun.trans (if_pos (by rw [ha]; rfl)))
    all_goals have begun := begun.trans (if_neg (by rw [ha]; decide))
    case busy => exact State.fabric_done h (begun.trans (if_pos hb))
    case taken => exact State.fabric_done h ((begun.trans (if_neg (not_not_intro hb))).trans hu)
  case state =>
    intro s n hl
    rw [exec_sourceStateEval, State.fabric_live hl, State.evalSource_eq]
  case cull =>
    intro s n w hl hw ht
    rw [exec_srcCull, State.fabric_live hl, State.srcCull_due hw ht]
  case fill =>
    intro s n f hl hf ht hw hd hc
    rw [exec_fillTimeout, State.fabric_live hl, State.fillLimit_fill hd hc hf ht hw]
  case writeBack =>
    intro s n w hl hf hw ht hd hc
    rw [exec_fillTimeout, State.fabric_live hl, State.fillLimit_writeBack hd hc hf hw ht]
  case decoder =>
    intro s n hl hf hw
    rw [exec_fillTimeout, State.fabric_live hl, State.fillLimit_decoder hf hw]
    rfl
  case pattern =>
    intro s n hl hk ho ht x v pic
    have run : exec (.testPatternRegen n) s = .next (s.testRegen n).watch.settle := by rw [exec_testPatternRegen, State.fabric_live hl]
    refine ⟨fun hb => ?full, fun u b ok hb hw => ?free⟩
    case full =>
      rw [run, State.testRegen_full hk ho ht hb]
      rfl
    case free =>
      rw [run, State.testRegen_free hk ho ht hb hw]
      rfl
  case credits =>
    intro s p e hl he hp
    have run : exec (.creditSend p) s = .next (s.creditSend p).watch.settle := by rw [exec_creditSend, State.fabric_live hl]
    refine ⟨fun hk => ?raster, fun hk hw => ⟨fun hb => ?opened, fun hb ho => ?withheld⟩⟩
    case raster => rw [run, State.creditSend_raster he hp hk]
    case opened => rw [run, State.creditSend_open he hp hk hw hb]
    case withheld => rw [run, State.creditSend_withheld he hp hk hw hb ho]

end Sys2Proof.Machine

/-! SUPPORT. Pictures from in-ports (spec/06 R169, R177; spec/13 R399 to R409): how an item opens, and what each packet that has passed the
packet checks makes of it. -/

namespace Sys2Proof.Machine

/-- A packet among the line bits, answered as a whole by the row that gives it its meaning. -/
theorem State.fabric_arrives {s r : State} {p : Nat} {skew : List Nat} {lines : List (List Bool)} {sync : Bool} {raw : List Byte}
    (hl : s.live) (ha : s.arrive p skew lines = (r, some (sync, raw))) (f : State → Bool → List Byte → State) :
    s.fabric (fun s => s.arrives p skew lines f) = .next (f r sync raw).watch.settle :=
  State.fabric_to hl (State.arrives_some f ha)

/-! ### Items (R169, R399) -/

section
variable {s t : State} {p n : Nat} {pk : Pkt} {broken : Bool}

/-- An item opens in a FREE buffer, which is FILLING. -/
theorem State.openFill_free {b : Nat} (h : s.freeBuf n (fun _ => true) = some b) :
    s.openFill n pk broken =
      let v := s.moveBuf n b 1
      v.setSrc n { v.src n with
        skipping := none
        fill := some ⟨b, v.ticks, (v.src n).doubts, pk.alive, pk.stamp, pk.flags.testBit 0, (v.src n).waitBad.contains pk.alive, broken, []⟩
        waitBad := (v.src n).waitBad.filter fun a => a != pk.alive } := by
  unfold State.openFill
  rw [h]

/-- With none FREE it is skipped. -/
theorem State.openFill_full (h : s.freeBuf n (fun _ => true) = none) :
    s.openFill n pk broken = (s.setSrc n { s.src n with fill := none, skipping := some pk.alive }).poolEmpty n := by
  unfold State.openFill
  rw [h]

/-- A first packet whose ALIVE advances opens its item, which ends the one in progress. -/
theorem State.openItem_advances (h : s.aliveCheck p 1 pk.alive = (t, true)) :
    s.openItem p n pk broken = (t.abandon n).openFill n pk broken := by
  unfold State.openItem
  rw [h]

/-- One whose ALIVE does not is discarded with its item. -/
theorem State.openItem_late (h : s.aliveCheck p 1 pk.alive = (t, false)) :
    s.openItem p n pk broken = (t.breakFill n).setSrc n { (t.breakFill n).src n with skipping := some pk.alive } := by
  unfold State.openItem
  rw [h]

end

/-! ### Raster packets (R400, R402, R403, R407) -/

section
variable {s u : State} {p n : Nat} {sync : Bool} {raw : List Byte} {pk : Pkt}

/-- A good frame start abandons the item in progress and opens its own, broken where the frame is not the source's. -/
theorem State.rasterStart_taken (h : s.picRx p 0x02 0 sync raw = (u, some (n, pk))) (hn : pk.payload.length = 16)
    (hf : byteAt pk.payload 10 < 4) :
    s.rasterStart p sync raw =
      let v := u.abandon n
      let g := v.geo n
      (v.openItem p n pk (!(leAt pk.payload 4 2 == 0 && leAt pk.payload 6 2 == g.w && leAt pk.payload 8 2 == g.h &&
        byteAt pk.payload 11 == g.fmt && leAt pk.payload 12 4 == 0))).signalsDue n := by
  have form : ¬ (pk.payload.length ≠ 16 ∨ 4 ≤ byteAt pk.payload 10) := by omega
  unfold State.rasterStart
  simp only [h, if_neg form]

section
variable (h : s.picRx p 0x01 0 sync raw = (u, some (n, pk))) (h8 : 8 ≤ pk.payload.length) (hz : leAt pk.payload 6 2 = 0)
include h h8 hz

/-- A line of no item in progress is cullet. -/
theorem State.rasterLine_stray (hf : ∀ f, (u.src n).fill = some f → f.alive ≠ pk.alive) :
    s.rasterLine p sync raw = u.strayPacket p n pk := by
  have form : ¬ (pk.payload.length < 8 ∨ leAt pk.payload 6 2 ≠ 0) := by omega
  unfold State.rasterLine
  simp only [h, if_neg form]
  cases hfill : (u.src n).fill with
  | none => rfl
  | some f => exact if_pos (hf f hfill)

section
variable {f : FillSt} (hf : (u.src n).fill = some f) (ha : f.alive = pk.alive)
include hf ha

/-- So is one that repeats a line of the item in progress. -/
theorem State.rasterLine_repeats (hr : (f.parts.any fun q => q.1 == leAt pk.payload 0 2 && q.2.1 == leAt pk.payload 2 2) = true) :
    s.rasterLine p sync raw = u.linkCull p pk.stream pk.alive := by
  have form : ¬ (pk.payload.length < 8 ∨ leAt pk.payload 6 2 ≠ 0) := by omega
  unfold State.rasterLine
  simp only [h, if_neg form, hf, ha, hr, ne_eq, not_true, if_false, if_true]
  rfl

section
variable (hr : (f.parts.any fun q => q.1 == leAt pk.payload 0 2 && q.2.1 == leAt pk.payload 2 2) = false)
include hr

/-- A line that is not within the picture breaks the item. -/
theorem State.rasterLine_outside (ho : (u.geo n).h ≤ leAt pk.payload 0 2 ∨ (u.geo n).w < leAt pk.payload 2 2 + leAt pk.payload 4 2 ∨
      pk.payload.length ≠ 8 + leAt pk.payload 4 2 * bppOf (u.geo n).fmt) :
    s.rasterLine p sync raw = u.breakFill n := by
  have form : ¬ (pk.payload.length < 8 ∨ leAt pk.payload 6 2 ≠ 0) := by omega
  unfold State.rasterLine
  simp only [h, if_neg form, hf, ha, hr, ne_eq, not_true, Bool.false_eq_true, if_false]
  exact if_pos ho

/-- A line within it joins the item; in a raw store it reaches memory at once. -/
theorem State.rasterLine_joins {t : State} {ok : Bool} (hy : leAt pk.payload 0 2 < (u.geo n).h)
    (hx : leAt pk.payload 2 2 + leAt pk.payload 4 2 ≤ (u.geo n).w)
    (hb : pk.payload.length = 8 + leAt pk.payload 4 2 * bppOf (u.geo n).fmt)
    (hw : (if (u.geo n).store = 0 then u.writeAll (84 + p) [(u.bufAddr n f.buf + leAt pk.payload 0 2 * (u.geo n).pitch +
        leAt pk.payload 2 2 * bppOf (u.geo n).fmt, pk.payload.drop 8)] else (u, true)) = (t, ok)) :
    s.rasterLine p sync raw = t.setSrc n { t.src n with
      fill := some { f with parts := f.parts ++ [(leAt pk.payload 0 2, leAt pk.payload 2 2, pk.payload.drop 8)]
                            degraded := f.degraded || pk.flags.testBit 0, fault := f.fault || !ok } } := by
  have form : ¬ (pk.payload.length < 8 ∨ leAt pk.payload 6 2 ≠ 0) := by omega
  have inside : ¬ ((u.geo n).h ≤ leAt pk.payload 0 2 ∨ (u.geo n).w < leAt pk.payload 2 2 + leAt pk.payload 4 2 ∨
      pk.payload.length ≠ 8 + leAt pk.payload 4 2 * bppOf (u.geo n).fmt) := by omega
  unfold State.rasterLine
  simp only [h, if_neg form, hf, ha, hr, ne_eq, not_true, Bool.false_eq_true, if_false]
  rw [if_neg inside, hw]

end

end

end

/-- A frame end closes the item in progress with the lines that it has and the check value that it carries. -/
theorem State.rasterEnd_closes {f : FillSt} (h : s.picRx p 0x03 0 sync raw = (u, some (n, pk))) (hf : (u.src n).fill = some f)
    (ha : f.alive = pk.alive) (h16 : 16 ≤ pk.payload.length) (hlen : pk.payload.length = 16 + 4 * leAt pk.payload 12 2)
    (hz : leAt pk.payload 14 2 = 0) (hr : leAt pk.payload 4 4 = 0) :
    s.rasterEnd p sync raw =
      let g := u.geo n
      let rows := (List.range g.h).map fun y => lineOf f.parts (bppOf g.fmt) g.w y
      (u.closeFill n p { f with degraded := f.degraded || pk.flags.testBit 0 }
        (if rows.all Option.isSome then some (rows.map fun r => r.getD []) else none) [] (leAt pk.payload 8 4) false).signalsDue n := by
  have form : ¬ (pk.payload.length < 16 ∨ pk.payload.length ≠ 16 + 4 * leAt pk.payload 12 2 ∨ leAt pk.payload 14 2 ≠ 0 ∨
      leAt pk.payload 4 4 ≠ 0) := by omega
  unfold State.rasterEnd
  simp only [h, if_neg form, hf, ha, ne_eq, not_true, if_false]

end

/-! ### Surface packets (R169, R177, R408, R409) -/

section
variable {u : State} {p n : Nat} {pk : Pkt} (hw : (u.src n).waiting = [])
include hw

/-- With none waiting and no FREE buffer, a packet that no open update takes waits. -/
theorem State.surfacePkt_waits (hf : (u.src n).fill = none) (hb : u.freeBuf n (fun _ => true) = none) :
    u.surfacePkt p n pk =
      let v := u.poolNone n 0
      v.setSrc n { v.src n with waiting := (v.src n).waiting ++ [pk] } := by
  unfold State.surfacePkt
  simp [hw, State.drainWaiting, hf, hb]

/-- One that an open update or a FREE buffer awaits is taken. -/
theorem State.surfacePkt_taken (h : (u.src n).fill.isSome = true ∨ (u.freeBuf n (fun _ => true)).isSome = true) :
    u.surfacePkt p n pk = u.surfaceTake p n pk := by
  have room : ¬ ((u.src n).fill.isNone = true ∧ (u.freeBuf n (fun _ => true)).isNone = true) := by
    simpa [Option.isNone_iff_eq_none, Option.isSome_iff_ne_none, imp_iff_not_or] using h
  unfold State.surfacePkt
  simp only [hw, List.length_nil, State.drainWaiting, List.isEmpty_nil, Bool.not_true, Bool.false_eq_true, false_or, if_neg room]

end

theorem State.surfaceTile_taken {s u : State} {p n : Nat} {sync : Bool} {raw : List Byte} {pk : Pkt}
    (h : s.picRx p 0x07 1 sync raw = (u, some (n, pk))) : s.surfaceTile p sync raw = u.surfacePkt p n pk := by
  unfold State.surfaceTile
  rw [h]

theorem State.damage_taken {s u : State} {p n : Nat} {sync : Bool} {raw : List Byte} {pk : Pkt}
    (h : s.picRx p 0x08 1 sync raw = (u, some (n, pk))) : s.damage p sync raw = u.surfacePkt p n pk := by
  unfold State.damage
  rw [h]

/-- The state in which a packet of a surface update is taken: its first packet opens it, but for one whose update is skipped. -/
def State.updateOpened (u : State) (p n : Nat) (pk : Pkt) : State :=
  match (u.src n).fill with
  | none => if (u.src n).skipping = some pk.alive then u else u.openItem p n pk false
  | some f => if f.alive = pk.alive ∨ (u.src n).skipping = some pk.alive then u else u.openItem p n pk false

theorem State.updateOpened_open {u : State} {p n : Nat} {pk : Pkt} {f : FillSt} (hf : (u.src n).fill = some f) (ha : f.alive = pk.alive) :
    u.updateOpened p n pk = u := by
  unfold State.updateOpened
  rw [hf]
  exact if_pos (.inl ha)

/-- A tile within the picture joins its update. -/
theorem State.tileTake_joins {u : State} {p n : Nat} {pk : Pkt} {f : FillSt} (h12 : 12 ≤ pk.payload.length) (hz : byteAt pk.payload 7 = 0)
    (hf : ((u.updateOpened p n pk).src n).fill = some f) (ha : f.alive = pk.alive)
    (hr : (f.parts.any fun q => q.1 == leAt pk.payload 2 2 * (u.geo n).tw + leAt pk.payload 0 2 && q.2.1 == byteAt pk.payload 5) = false)
    (hx : leAt pk.payload 0 2 < (u.geo n).tw) (hy : leAt pk.payload 2 2 < (u.geo n).th) (hm : byteAt pk.payload 4 = (u.geo n).fmt)
    (hrow : byteAt pk.payload 5 + byteAt pk.payload 6 ≤ min 64 ((u.geo n).h - 64 * leAt pk.payload 2 2))
    (hlen : pk.payload.length =
      12 + byteAt pk.payload 6 * min 64 ((u.geo n).w - 64 * leAt pk.payload 0 2) * bppOf (u.geo n).fmt) :
    u.tileTake p n pk =
      let t := u.updateOpened p n pk
      t.setSrc n { t.src n with
        fill := some { f with
          parts := f.parts ++ [(leAt pk.payload 2 2 * (u.geo n).tw + leAt pk.payload 0 2, byteAt pk.payload 5, pk.payload.drop 12)]
          degraded := f.degraded || pk.flags.testBit 0 } } := by
  have form : ¬ (pk.payload.length < 12 ∨ byteAt pk.payload 7 ≠ 0) := by omega
  have inside : ¬ ((u.geo n).tw ≤ leAt pk.payload 0 2 ∨ (u.geo n).th ≤ leAt pk.payload 2 2 ∨ byteAt pk.payload 4 ≠ (u.geo n).fmt ∨
      min 64 ((u.geo n).h - 64 * leAt pk.payload 2 2) < byteAt pk.payload 5 + byteAt pk.payload 6 ∨
      pk.payload.length ≠ 12 + byteAt pk.payload 6 * min 64 ((u.geo n).w - 64 * leAt pk.payload 0 2) * bppOf (u.geo n).fmt) := by
    simp only [not_or, not_le, not_lt, ne_eq, not_not]
    exact ⟨hx, hy, hm, hrow, hlen⟩
  unfold State.tileTake
  extract_lets b g tx ty row0 rows w h t
  have opened : t = u.updateOpened p n pk := rfl
  rw [if_neg form]
  simp only [opened, hf, ha, ne_eq, not_true, if_false]
  exact (if_neg (ne_true_of_eq_false hr)).trans (if_neg inside)

/-- A tile that joins its update, taken (R408). -/
theorem State.surfaceTake_tile {u : State} (p n : Nat) {pk : Pkt} (h : pk.typ = 0x07) :
    u.surfaceTake p n pk = (u.tileTake p n pk).signalsDue n := by
  unfold State.surfaceTake
  rw [h]
  rfl

theorem State.surfaceTake_damage {u : State} (p n : Nat) {pk : Pkt} (h : pk.typ = 0x08) :
    u.surfaceTake p n pk = (u.damageTake p n pk).signalsDue n := by
  unfold State.surfaceTake
  rw [h]
  rfl

/-- The tiles of a picture that packets carry rows of. -/
def Geo.carried (g : Geo) (parts : List (Nat × Nat × List Byte)) : List Nat :=
  (List.range g.tiles).filter fun t => parts.any fun q => q.1 == t

/-- The fill as DAMAGE closes it: with the packet's capture time. -/
def FillSt.damaged (f : FillSt) (pk : Pkt) : FillSt := { f with cap := pk.stamp, degraded := f.degraded || pk.flags.testBit 0 }

/-- The counts of a DAMAGE packet agree with the tiles carried and the size of the picture (R409). -/
def Geo.damageAgrees (g : Geo) (pk : Pkt) (parts : List (Nat × Nat × List Byte)) : Prop :=
  leAt pk.payload 4 4 = (g.carried parts).length ∧ leAt pk.payload 8 2 = g.w ∧ leAt pk.payload 10 2 = g.h

section
variable {u : State} {p n : Nat} {pk : Pkt} {f : FillSt} (hf : (u.src n).fill = some f) (ha : f.alive = pk.alive)
  (h16 : pk.payload.length = 16) (hz : leAt pk.payload 12 4 = 0)
include hf ha h16 hz

/-- DAMAGE that does not agree with the tiles carried closes its update incomplete. -/
theorem State.damageTake_disagrees (hd : leAt pk.payload 4 4 ≠ ((u.geo n).carried f.parts).length ∨ leAt pk.payload 8 2 ≠ (u.geo n).w ∨
      leAt pk.payload 10 2 ≠ (u.geo n).h) :
    u.damageTake p n pk = u.closeFill n p (f.damaged pk) none [] (leAt pk.payload 0 4) false := by
  have form : ¬ (pk.payload.length ≠ 16 ∨ leAt pk.payload 12 4 ≠ 0) := by omega
  have differs : ¬ (u.geo n).damageAgrees pk f.parts := fun ⟨hc, hw, hh⟩ => by omega
  unfold State.damageTake
  extract_lets b s g
  have opened : s = u := State.updateOpened_open hf ha
  rw [if_neg form]
  simp only [g, opened, hf, if_neg (not_not_intro ha)]
  exact if_pos (by rw [Bool.not_eq_true']; exact decide_eq_false differs)

section
variable (hd : (u.geo n).damageAgrees pk f.parts)
include hd

/-- One that agrees closes it over the newest picture: none is needed where every tile is carried, and without one it is incomplete. -/
theorem State.damageTake_agrees :
    u.damageTake p n pk =
      let g := u.geo n
      let x := f.damaged pk
      let given := leAt pk.payload 0 4
      if (g.carried f.parts).length = g.tiles then u.closeFill n p x (g.update [] f.parts) [] given false
      else match u.newest n with
        | none => u.closeFill n p x none [] given false
        | some old => match u.fetchPicture (84 + p) (u.bufAddr n old) g with
          | (s, .ok base) => match s.fetchBytes (84 + p) (s.bufAddr n old + g.checkOff) (4 * g.tiles) with
            | (s, .ok c) => s.closeFill n p x (g.update base f.parts)
                ((List.range g.tiles).map fun t => if (g.carried f.parts).contains t then none else some (leAt c (4 * t) 4)) given false
            | (s, _) => s.closeFill n p x (g.update base f.parts) [] given true
          | (s, _) => s.closeFill n p x (g.update [] f.parts) [] given true := by
  have form : ¬ (pk.payload.length ≠ 16 ∨ leAt pk.payload 12 4 ≠ 0) := by omega
  unfold State.damageTake
  extract_lets b s g
  have opened : s = u := State.updateOpened_open hf ha
  rw [if_neg form]
  simp only [g, opened, hf, if_neg (not_not_intro ha)]
  exact if_neg (by rw [Bool.not_eq_true', Bool.not_eq_false]; exact decide_eq_true hd)

theorem State.damageTake_whole (hall : ((u.geo n).carried f.parts).length = (u.geo n).tiles) :
    u.damageTake p n pk = u.closeFill n p (f.damaged pk) ((u.geo n).update [] f.parts) [] (leAt pk.payload 0 4) false :=
  (State.damageTake_agrees hf ha h16 hz hd).trans (if_pos hall)

section
variable (hpart : ((u.geo n).carried f.parts).length ≠ (u.geo n).tiles)
include hpart

theorem State.damageTake_noBase (hn : u.newest n = none) :
    u.damageTake p n pk = u.closeFill n p (f.damaged pk) none [] (leAt pk.payload 0 4) false := by
  rw [State.damageTake_agrees hf ha h16 hz hd]
  simp only [if_neg hpart, hn]

/-- Tiles that are not carried are those of the newest picture, with their check array entries (R177). -/
theorem State.damageTake_overBase {t v : State} {old : Nat} {pic : List (List Byte)} {c : List Byte} (hn : u.newest n = some old)
    (hpic : u.fetchPicture (84 + p) (u.bufAddr n old) (u.geo n) = (t, .ok pic))
    (hc : t.fetchBytes (84 + p) (t.bufAddr n old + (u.geo n).checkOff) (4 * (u.geo n).tiles) = (v, .ok c)) :
    u.damageTake p n pk = v.closeFill n p (f.damaged pk) ((u.geo n).update pic f.parts)
      ((List.range (u.geo n).tiles).map fun t => if ((u.geo n).carried f.parts).contains t then none else some (leAt c (4 * t) 4))
      (leAt pk.payload 0 4) false := by
  rw [State.damageTake_agrees hf ha h16 hz hd]
  simp only [if_neg hpart, hn, hpic, hc]

end

end

end

/-- Settles O31: each packet goes by the law of what arrives on a port to its law above. -/
theorem inPortPicturesTakeEffect : Obligations.InPortPicturesTakeEffect := by
  refine ⟨fun s n b pk broken h => State.openFill_free h, fun s n pk broken h => State.openFill_full h,
    fun s t p n pk broken => ⟨State.openItem_advances, State.openItem_late⟩, ?start, ?line, ?frameEnd, ?tile, ?damage⟩
  case start =>
    intro s r u p n skew lines sync raw pk hl ha h hn hf v g
    rw [exec_rasterFrameStartRx, State.fabric_arrives hl ha, State.rasterStart_taken h hn hf]
  case line =>
    intro s r u p n skew lines sync raw pk hl ha h h8 hz g line x0 count
    have run : exec (.rasterLineRx p skew lines) s = .next (r.rasterLine p sync raw).watch.settle := State.fabric_arrives hl ha _
    refine ⟨fun hf => ?none, fun f hf => ⟨fun hne => ?stray, fun he hr => ?repeats, fun he hr => ⟨fun ho => ?outside, ?joins⟩⟩⟩
    case none => rw [run, State.rasterLine_stray h h8 hz fun f hf' => by rw [hf] at hf'; cases hf']
    case stray => rw [run, State.rasterLine_stray h h8 hz fun f' hf' => by rw [hf] at hf'; cases hf'; exact hne]
    case repeats => rw [run, State.rasterLine_repeats h h8 hz hf he hr]
    case outside => rw [run, State.rasterLine_outside h h8 hz hf he hr ho]
    case joins =>
      intro t ok hy hx hb hw
      rw [run, State.rasterLine_joins h h8 hz hf he hr hy hx hb hw]
  case frameEnd =>
    intro s r u p n skew lines sync raw pk f hl ha h hf he h16 hlen hz hr g rows
    rw [exec_rasterFrameEndRx, State.fabric_arrives hl ha, State.rasterEnd_closes h hf he h16 hlen hz hr]
  case tile =>
    intro s r u p n skew lines sync raw pk hl ha h hw
    have run : exec (.surfaceTileRx p skew lines) s = .next (u.surfacePkt p n pk).watch.settle := by
      rw [exec_surfaceTileRx, State.fabric_arrives hl ha, State.surfaceTile_taken h]
    refine ⟨fun hf hb => ?waits, fun htyp hroom h12 hz => ?joins⟩
    case waits => rw [run, State.surfacePkt_waits hw hf hb]
    case joins =>
      intro t f hf he g tx ty row0 rows hr hx hy hm hrow hlen
      rw [run, State.surfacePkt_taken hw hroom, State.surfaceTake_tile p n htyp,
        State.tileTake_joins h12 hz hf he hr hx hy hm hrow hlen]
      rfl
  case damage =>
    intro s r u p n skew lines sync raw pk f hl ha h hw hf he htyp h16 hz g x carried
    have closes {v : State} (hv : u.damageTake p n pk = v) : exec (.damageRx p skew lines) s = .next (v.signalsDue n).watch.settle := by
      rw [exec_damageRx, State.fabric_arrives hl ha, State.damage_taken h, State.surfacePkt_taken hw (.inl (by rw [hf]; rfl)),
        State.surfaceTake_damage p n htyp, hv]
    refine ⟨fun hd => closes (State.damageTake_disagrees hf he h16 hz hd), fun hc hw' hh' => ?agrees⟩
    have agrees : (u.geo n).damageAgrees pk f.parts := ⟨hc, hw', hh'⟩
    exact ⟨fun hall => closes (State.damageTake_whole hf he h16 hz agrees hall),
      fun hpart hn => closes (State.damageTake_noBase hf he h16 hz agrees hpart hn),
      fun t v old pic c hpart hn hpic hck => closes (State.damageTake_overBase hf he h16 hz agrees hpart hn hpic hck)⟩

end Sys2Proof.Machine

/-! SUPPORT. A head's frame (spec/06 R168; spec/08 R222 to R264; spec/09 R286; spec/10 R308, R310, R332): its latch instant, the flip of a
layer, and the strips and tile columns of its composition. -/

namespace Sys2Proof.Machine

/-! ### The latch instant (R308, R310, R332) -/

section
variable {s : State} {h : Nat}

/-- A head that a zone reload or SERVICE takes off leaves at its latch instant. -/
theorem State.latchInstant_leaves (hv : s.leavesAtLatch h = true) :
    s.latchInstant h = if s.latchDue h = true then (s.zoneLatch h).serviceLatch h else s := by
  unfold State.latchInstant
  exact if_pos hv

/-- At any other what waits for the latch follows where the frame was counted. -/
theorem State.latchInstant_stays (hv : s.leavesAtLatch h = false) :
    s.latchInstant h =
      let v := s.headLatch h
      if v.reg .headFrame h 0 = s.reg .headFrame h 0 then v else (v.tryLatch h).zoneDone := by
  unfold State.latchInstant
  exact if_neg (ne_true_of_eq_false hv)

section
variable {e : HeadEnt} {t : Word} {m : ModeSt} (he : s.plan.head h = some e) (ht : (s.head h).next = some t) (hm : (s.head h).mode = some m)
include he ht hm

/-- Before the instant nothing happens. -/
theorem State.headLatch_early (hn : atOrAfter s.now t = false) : s.headLatch h = s := by
  unfold State.headLatch
  simp only [he, ht, hm]
  exact if_pos (.inr (by rw [hn]; rfl))

/-- At the instant the frame is counted; at half cadence every second one is passed over. -/
theorem State.headLatch_due (ho : s.isOn 0x14 h = true) (hn : atOrAfter s.now t = true) :
    s.headLatch h =
      let u := s.setReg .headFrame h 0 (s.reg .headFrame h 0 + 1)
      if bit (u.reg .headStatus h 0) 3 = true ∧ (s.head h).skip = true
        then (u.setHead h { u.head h with skip := false }).nextLatch h e.group m.phase t false else u.latchFull h e t m := by
  unfold State.headLatch
  simp only [he, ht, hm]
  exact if_neg (by simp [ho, hn])

end

end

/-! ### Flips (R246, R247) -/

/-- A bit taken from a mask is not in it. -/
theorem testBit_taken (m l : Nat) : (if m.testBit l then m - 2 ^ l else m).testBit l = false := by
  split
  case isTrue hm =>
    rw [Nat.testBit_eq_decide_div_mod_eq, decide_eq_true_eq] at hm
    have pos := Nat.two_pow_pos l
    have less : (m - 2 ^ l) / 2 ^ l = m / 2 ^ l - 1 := by
      simpa using Nat.sub_mul_div m (2 ^ l) 1
    rw [Nat.testBit_eq_decide_div_mod_eq, less]
    exact decide_eq_false (by omega)
  case isFalse hm => exact Bool.eq_false_iff.mpr hm

/-- The state in which a layer that flips takes its new buffer: the head holds it, and has released the old one. -/
def State.flipHeld (s : State) (h : Nat) (f : FlipSt) (b : Nat) : State :=
  if s.shown h f.l = some (f.cfg.src, b) then s.showBuf h f.l f.cfg.src b else (s.showBuf h f.l f.cfg.src b).unshow h f.l

/-- What a flip writes of its layer: the tag, that it shows, and no late frames. -/
def State.flipShows (v : State) (h : Nat) (f : FlipSt) (b : Nat) : State :=
  ((v.setReg .layerTag h f.l (v.reg .srcBufTag f.cfg.src b)).setFld .layerState h f.l 0 1 1).setFld .layerState h f.l 16 16 0

/-- A flip holds and shows the new buffer; what was asked for the layer is done. -/
theorem State.flip_eq {s : State} {h b : Nat} {f : FlipSt} (hb : f.buf = some b) :
    s.flip h f =
      let u := (s.flipHeld h f b).flipShows h f b
      let off (m : Nat) : Nat := if m.testBit f.l then m - 2 ^ f.l else m
      u.setHead h { u.head h with
        flips := off (u.head h).flips, moved := off (u.head h).moved,
        fences := assocDel (u.head h).fences f.l, met := delSet (u.head h).met f.l } := by
  unfold State.flip
  simp only [hb, beq_iff_eq]
  rfl

theorem State.flipShows_tag (v : State) (h : Nat) (f : FlipSt) (b : Nat) :
    (v.flipShows h f b).reg .layerTag h f.l = v.reg .srcBufTag f.cfg.src b := by
  unfold State.flipShows
  rw [State.reg_setFld_ne _ (by decide), State.reg_setFld_ne _ (by decide), State.reg_setReg_self]

theorem State.flipShows_shown (v : State) (h : Nat) (f : FlipSt) (b : Nat) : (v.flipShows h f b).fld .layerState h f.l 0 1 = 1 := by
  unfold State.flipShows
  rw [State.fld_setFld_apart _ _ _ _ _ _ _ _ _ (by decide) (.inl (by decide)), State.fld_setFld_self _ _ _ _ _ _ _ (by decide)]
  rfl

theorem State.flipShows_onTime (v : State) (h : Nat) (f : FlipSt) (b : Nat) : (v.flipShows h f b).fld .layerState h f.l 16 16 = 0 := by
  unfold State.flipShows
  exact State.fld_setFld_self _ _ _ _ _ _ _ (by decide)

/-- A layer that flips shows its new buffer, on time and with nothing left to do. -/
theorem State.flip_shows {s : State} {h b : Nat} {f : FlipSt} (hb : f.buf = some b) :
    let u := s.flip h f
    u.reg .layerTag h f.l = (s.flipHeld h f b).reg .srcBufTag f.cfg.src b ∧ u.fld .layerState h f.l 0 1 = 1 ∧
      u.fld .layerState h f.l 16 16 = 0 ∧ (u.head h).flips.testBit f.l = false ∧ f.l ∉ (u.head h).met := by
  rw [State.flip_eq hb]
  extract_lets v off x u
  have regs : u.fregs = v.fregs := State.setHead_fregs ..
  refine ⟨(State.reg_congr regs ..).trans (State.flipShows_tag ..), (State.fld_congr regs ..).trans (State.flipShows_shown ..),
    (State.fld_congr regs ..).trans (State.flipShows_onTime ..), ?asked, ?met⟩
  case asked =>
    rw [State.head_setHead_self]
    exact testBit_taken ..
  case met =>
    rw [State.head_setHead_self]
    simp [delSet]

/-! ### Strips (R223, R257, R261) -/

section
variable {s : State} {h : Nat} {f : FrameSt} (hf : (s.head h).frame = some f)
include hf

theorem State.onFrame_some (g : FrameSt → FrameSt) : s.onFrame h g = s.setFrame h (g f) := by
  unfold State.onFrame State.setFrame
  rw [hf]
  rfl

/-- A strip starts when its slot is free and the strip before it is complete. -/
theorem State.stripStart_due (hh : (s.head h).hold = none) (hb : f.blank = false) (hs : f.started < f.strips) (hc : f.complete = f.started)
    (hr : f.started < f.freed + 3) (ht : atOrAfter s.now f.time = true) :
    s.stripStart h = (s.startFrameStrip h f.started).readRow h (f.started / 4) := by
  have due : ¬ ((s.head h).hold.isSome = true ∨ f.blank = true ∨ f.strips ≤ f.started ∨ f.complete ≠ f.started ∨
      f.freed + 3 ≤ f.started ∨ (!atOrAfter s.now f.time) = true) := by
    simp only [hh, hb, ht, Option.isSome_none, Bool.not_true, Bool.false_eq_true, false_or, or_false]
    omega
  unfold State.stripStart
  simp only [hf, if_neg due]

/-- It starts with the sheds and settings then in force (R257, R264). -/
theorem State.startFrameStrip_eq (j : Nat) :
    s.startFrameStrip h j = (s.setHead h { s.head h with stripNo := (s.head h).stripNo + 1 }).setFrame h { f with
      started := j + 1, masks := f.masks ++ [(s.reg .composeShedMask h 0).toNat], shed := s.fld .composeXShed h 0 0 5
      again := bit (s.reg .composeXRecompose h 0) 0, rest := f.rest ++ [s.fld .composeXShed h 0 8 5]
      restFrames := s.fld .composeXShed h 0 16 4 } := by
  unfold State.startFrameStrip
  exact State.onFrame_some (by rw [State.head_setHead_self]; exact hf) _

/-- When every column of the strip is written it is complete with its margin. -/
theorem State.stripComplete_written (hs : f.started = f.complete + 1)
    (hw : ((List.range f.colsN).all fun c => f.cols.any fun q => q.strip == f.complete && q.col == c) = true) :
    s.stripComplete h = s.stripDone h f.complete (sdiff (f.readAt f.complete) s.now).toNat := by
  unfold State.stripComplete
  simp only [hf, hs, hw, ne_eq, not_true, Bool.not_true, Bool.false_eq_true, or_self, if_false]

/-! ### Tile columns (R222, R226, R261, R286) -/

/-- A column of a unit that may not compose it is ignored. -/
theorem State.columnDone_otherUnit {c unit : Nat} (hu : s.mayCompose h (f.started - 1) c unit f = false) (timeout parity : Bool) :
    s.columnDone h c unit timeout parity = s := by
  unfold State.columnDone
  simp only [hf]
  exact if_pos (.inr (.inr (.inr (.inr (by rw [hu]; rfl)))))

section
variable {c unit : Nat} (h0 : 0 < f.started) (hc : f.complete ≠ f.started) (hn : c < f.colsN)
  (hd : (f.cols.any fun q => q.strip == f.started - 1 && q.col == c) = false) (hu : s.mayCompose h (f.started - 1) c unit f = true)
include h0 hc hn hd hu

/-- A column that is taken from its unit: left to its timeout, or composed with its tile's entry read, of which bad parity is found (R286). -/
theorem State.columnDone_taken (timeout parity : Bool) :
    s.columnDone h c unit timeout parity =
      let j := f.started - 1
      if timeout = true then s.columnTimeout h f j c unit
      else
        let tile := j / 4 * s.tileCols h + c
        let u := if parity = true ∨ s.tileBad h tile = true then s.parityFound h tile else s
        if ((u.head h).frame.map fun g => g.doubts.any fun d => d.1 == tile).getD false = true then u.columnLeaves h ⟨j, c, [], [], []⟩
        else
          let r := u.fetchColumn h f j c (f.visible c (j / 4) (f.masks.getD j 0))
          (if r.2.2 = 0 then r.1 else r.1.addDoubt h tile r.2.2).columnLeaves h (f.compose j c r.2.1) := by
  have taken : ¬ (f.started = 0 ∨ f.complete = f.started ∨ f.colsN ≤ c ∨
      (f.cols.any fun q => q.strip == f.started - 1 && q.col == c) = true ∨ (!s.mayCompose h (f.started - 1) c unit f) = true) := by
    simp only [hd, hu, Bool.not_true, Bool.false_eq_true, or_false]
    omega
  unfold State.columnDone
  simp only [hf]
  exact if_neg taken

theorem State.columnDone_timeout (parity : Bool) : s.columnDone h c unit true parity = s.columnTimeout h f (f.started - 1) c unit :=
  (State.columnDone_taken hf h0 hc hn hd hu true parity).trans (if_pos rfl)

section
variable {j tile : Nat} {parity : Bool} {u : State} (hj : f.started - 1 = j) (ht : j / 4 * s.tileCols h + c = tile)
  (hp : (if parity = true ∨ s.tileBad h tile = true then s.parityFound h tile else s) = u)
include hj ht hp

/-- The column of a tile in doubt is left to the doubt fill. -/
theorem State.columnDone_doubted (hx : ((u.head h).frame.map fun g => g.doubts.any fun d => d.1 == tile).getD false = true) :
    s.columnDone h c unit false parity = u.columnLeaves h ⟨j, c, [], [], []⟩ := by
  subst hj ht hp
  exact ((State.columnDone_taken hf h0 hc hn hd hu false parity).trans (if_neg Bool.false_ne_true)).trans (if_pos hx)

/-- Any other is composed from the blocks of its visible layers; the first error puts the tile in doubt (R226). -/
theorem State.columnDone_composed (hx : ((u.head h).frame.map fun g => g.doubts.any fun d => d.1 == tile).getD false = false) :
    s.columnDone h c unit false parity =
      let r := u.fetchColumn h f j c (f.visible c (j / 4) (f.masks.getD j 0))
      (if r.2.2 = 0 then r.1 else r.1.addDoubt h tile r.2.2).columnLeaves h (f.compose j c r.2.1) := by
  subst hj ht hp
  exact ((State.columnDone_taken hf h0 hc hn hd hu false parity).trans (if_neg Bool.false_ne_true)).trans (if_neg (ne_true_of_eq_false hx))

end

end

end

/-- Settles O36: each command goes to its law above by the law of the fabric die; a flip is read register by register. -/
theorem frameBeginsAndIsComposed : Obligations.FrameBeginsAndIsComposed := by
  refine ⟨?latch, ?leaves, ?flip, ?start, ?other, ?column, ?complete⟩
  case latch =>
    intro s h e t m hl he ht hm ho hv
    rw [exec_headLatch, State.fabric_live hl, State.latchInstant_stays hv]
    refine ⟨fun hn => ?early, fun hn => ?due⟩
    case early =>
      rw [State.headLatch_early he ht hm hn]
      simp only [if_true]
    case due => rw [State.headLatch_due he ht hm ho hn]
  case leaves =>
    intro s h hl hv
    rw [exec_headLatch, State.fabric_live hl, State.latchInstant_leaves hv]
  case flip =>
    intro s h b f hb
    exact State.flip_shows hb
  case start =>
    intro s h f hl hf hh hb hs hc hr ht u
    rw [exec_stripStart, State.fabric_live hl, State.stripStart_due hf hh hb hs hc hr ht, State.startFrameStrip_eq hf]
  case other =>
    intro s h c unit timeout parity f hl hf j hu
    rw [exec_tileColumnDone, State.fabric_live hl, State.columnDone_otherUnit hf hu]
  case column =>
    intro s h c unit parity f hl hf h0 hc hn j tile hd hu
    simp only [exec_tileColumnDone, State.fabric_live hl]
    exact ⟨by rw [State.columnDone_timeout hf h0 hc hn hd hu],
      fun hx => by rw [State.columnDone_doubted hf h0 hc hn hd hu rfl rfl rfl hx],
      fun hx => by rw [State.columnDone_composed hf h0 hc hn hd hu rfl rfl rfl hx]⟩
  case complete =>
    intro s h f hl hf hs hw
    rw [exec_stripComplete, State.fabric_live hl, State.stripComplete_written hf hs hw]

end Sys2Proof.Machine

/-! SUPPORT. Coded video input (spec/07 R198 to R219): how a stream binds to a core, what a free core makes of the access unit it takes, and
the end of its picture. -/

namespace Sys2Proof.Machine

/-! ### Binding (R198, R219) -/

/-- A stream that binds to core c is ON, in WAIT_IRAP and without pictures, and tells the core and what capacity it has left. -/
def State.bindTo (s : State) (n : Nat) (e : StreamEnt) (c : Nat) : State :=
  let u := (s.codingRec 0x11 n 1 c 0 0 s.now).setReg .decStatus n 0 (w32 (c * 4))
  let u := ((u.setReg .decMarks n 0 0).setReg .decFlags n 0 0).setDec n { DecSt.init with secTick := u.ticks }
  ((u.onBus fun b => b.enter 0x11 n 2).emit 0x1106 n 0 (pay [c, s.coreLeft c - e.lumaKps])).evalSource n

section
variable {s : State} {n : Nat} {e : StreamEnt} (he : s.plan.stream n = some e) (hs : s.fnState 0x11 n = 1)
  (hr : s.fld .decRing n 0 0 9 < 256)
include he hs hr

/-- The decisions of a stream in STARTING whose DEC_RING names a ring, in their order. -/
theorem State.streamBind_starting :
    s.streamBind n =
      let r := s.fld .decRing n 0 0 9
      if s.plan.ringHost r ≠ some e.host ∨ s.bus.ringKind r ≠ 2 then s.onBus fun b => b.startFailed 0x11 n 1
      else if s.fld .srcFormat n 0 0 4 ≠ 6 ∧ s.fld .srcFormat n 0 0 4 ≠ 7 then s.onBus fun b => b.startFailed 0x11 n 3
      else if s.isOn 2 r = false ∨ s.isOn 0x10 n = false then s
      else (s.pickCore e.lumaKps).elim (s.onBus fun b => b.startFailed 0x11 n 2) (s.bindTo n e) := by
  have starting : ¬ (s.fnState 0x11 n ≠ 1 ∨ 256 ≤ s.fld .decRing n 0 0 9) := by omega
  unfold State.streamBind
  simp only [he, if_neg starting, ite_or, Bool.not_eq_true']
  cases s.pickCore e.lumaKps <;> rfl

/-- A ring of another host or of another KIND fails the start. -/
theorem State.streamBind_wrongRing
    (h : s.plan.ringHost (s.fld .decRing n 0 0 9) ≠ some e.host ∨ s.bus.ringKind (s.fld .decRing n 0 0 9) ≠ 2) :
    s.streamBind n = s.onBus fun b => b.startFailed 0x11 n 1 :=
  (State.streamBind_starting he hs hr).trans (if_pos h)

section
variable (hh : s.plan.ringHost (s.fld .decRing n 0 0 9) = some e.host) (hk : s.bus.ringKind (s.fld .decRing n 0 0 9) = 2)
include hh hk

/-- The decisions that remain once the ring is right. -/
theorem State.streamBind_ring :
    s.streamBind n =
      if s.fld .srcFormat n 0 0 4 ≠ 6 ∧ s.fld .srcFormat n 0 0 4 ≠ 7 then s.onBus fun b => b.startFailed 0x11 n 3
      else if s.isOn 2 (s.fld .decRing n 0 0 9) = false ∨ s.isOn 0x10 n = false then s
      else (s.pickCore e.lumaKps).elim (s.onBus fun b => b.startFailed 0x11 n 2) (s.bindTo n e) :=
  (State.streamBind_starting he hs hr).trans (if_neg fun h => h.elim (· hh) (· hk))

/-- So does a source in a format that no core writes. -/
theorem State.streamBind_wrongFormat (h6 : s.fld .srcFormat n 0 0 4 ≠ 6) (h7 : s.fld .srcFormat n 0 0 4 ≠ 7) :
    s.streamBind n = s.onBus fun b => b.startFailed 0x11 n 3 :=
  (State.streamBind_ring he hs hr hh hk).trans (if_pos ⟨h6, h7⟩)

section
variable (hf : s.fld .srcFormat n 0 0 4 = 6 ∨ s.fld .srcFormat n 0 0 4 = 7)
include hf

/-- The stream waits for its ring and its source. -/
theorem State.streamBind_waits (h : s.isOn 2 (s.fld .decRing n 0 0 9) = false ∨ s.isOn 0x10 n = false) : s.streamBind n = s :=
  ((State.streamBind_ring he hs hr hh hk).trans (if_neg fun g => hf.elim g.1 g.2)).trans (if_pos h)

/-- With both ON it binds, or its start fails where no core has room. -/
theorem State.streamBind_on (ho : s.isOn 2 (s.fld .decRing n 0 0 9) = true) (hn : s.isOn 0x10 n = true) :
    s.streamBind n = (s.pickCore e.lumaKps).elim (s.onBus fun b => b.startFailed 0x11 n 2) (s.bindTo n e) :=
  ((State.streamBind_ring he hs hr hh hk).trans (if_neg fun g => hf.elim g.1 g.2)).trans (if_neg (by simp [ho, hn]))

end

end

end

/-! ### The access unit that a core takes (R199, R204 to R206, R210, R218) -/

section
variable {s : State} {c : Nat}

/-- A core that decodes takes nothing. -/
theorem State.pictureStart_busy (h : (s.core c).isSome = true) (i : AuInfo) : s.pictureStart c i = s := by
  unfold State.pictureStart
  exact if_pos h

section
variable (hc : s.core c = none)
include hc

/-- So does one whose streams have nothing that can be taken: only the waits for a buffer are counted. -/
theorem State.pictureStart_idle (h : (s.countWaits c).pickStream c = none) (i : AuInfo) : s.pictureStart c i = s.countWaits c := by
  unfold State.pictureStart
  simp only [hc, h, Option.isSome_none, Bool.false_eq_true, if_false]

/-- A free core starts the unit that is picked. -/
theorem State.pictureStart_picked {n : Nat} {e : FEntry} (h : (s.countWaits c).pickStream c = some (n, e)) (i : AuInfo) :
    s.pictureStart c i = (s.countWaits c).startUnit c n e i := by
  unfold State.pictureStart
  simp only [hc, h, Option.isSome_none, Bool.false_eq_true, if_false]

end

end

/-- The state with the unit's CODED_INPUT record written; a partner's or a recording's choice of it is used up. -/
def State.unitTaken (s : State) (n : Nat) (e : FEntry) : State :=
  let r := s.fld .decRing n 0 0 9
  { s with tnd := { s.tnd with streams := s.tnd.streams.filter fun q => q != (r, e.k) } }.journal 8 0x11 n
    (le 2 r ++ le 2 0 ++ le 4 e.k ++ slice e.data 0 24)

/-- What the core finds in the unit: data that it could read and that starts with no start code makes the unit unsound (R205). -/
def unitAsRead (i : AuInfo) (fault : Nat) (d : List Byte) : AuInfo :=
  if fault = 0 ∧ startCode d = false then { i with reason := 1 } else i

/-- The last decision about a sound unit: a picture that is too old, and that nothing refers to, is skipped where the host allows it (R218);
any other is taken. -/
def State.unitDecoded (v : State) (c n r : Nat) (e : FEntry) (j : AuInfo) (fault : Nat) : State :=
  if bit (v.reg .decXSkip n 0) 0 = true ∧ j.nonRef = true ∧ (v.fld .srcLimit n 0 0 11 : Int) * 1000000 < v.age (w32 (e.arg 12 4)) ∧
      fault = 0 then
    let u := (v.codingRec 0x11 n 2 c (e.arg 16 2) (e.arg 20 4) v.now).bump .decSkipped n 0 1
    let u := (u.unitDamage n j ((byteAt e.data 18).testBit 0 && j.irap == 0) 0 (e.arg 16 2) (e.arg 20 4)).complete r e.k stNoGain 0
    if (byteAt e.data 18).testBit 1 then u.endStream n else u
  else v.coreTake c n r e j fault

section
variable {s u : State} {c n fault : Nat} {e : FEntry} {i j : AuInfo} {d : List Byte}

/-- An entry out of form is not read. -/
theorem State.startUnit_malformed (h : entryOk e = false) :
    s.startUnit c n e i = (s.unitTaken n e).complete (s.fld .decRing n 0 0 9) e.k stBadArgument 0 := by
  unfold State.startUnit
  exact if_pos (by rw [h]; rfl)

section
variable (hok : entryOk e = true) (hu : (s.unitTaken n e).readUnit c e = (u, fault, d)) (hj : unitAsRead i fault d = j)
include hok hu hj

/-- The decisions about a unit that has been read, in their order. -/
theorem State.startUnit_read :
    s.startUnit c n e i =
      let r := s.fld .decRing n 0 0 9
      let why := if j.reason = 0 then u.spsReason n j.sps else 0
      if j.irap = 0 ∧ u.syncState n = 0 then u.discard n r e.k fault 8
      else if u.syncState n = 3 ∧ (j.irap = 0 ∨ j.reason ≠ 0) then u.discard n r e.k fault (u.fld .decStatus n 0 8 8)
      else if why ≠ 0 then
        ((if u.syncState n = 3 then u.setFld .decStatus n 0 8 8 why else u.reject n j why (e.arg 20 4)).showSps n j.sps).discard
          n r e.k fault why
      else if j.reason ≠ 0 then
        let v := (u.unitDamage n j ((byteAt e.data 18).testBit 0 && j.irap == 0) fault (e.arg 16 2) (e.arg 20 4)).discard
          n r e.k fault j.reason
        if (byteAt e.data 18).testBit 1 then v.endStream n else v
      else
        (if u.syncState n = 0 ∨ u.syncState n = 3 then
          ((u.setSync n 1).setDec n { u.dec n with dropRasl := true }).emit 0x1101 n 0
            (pay [j.irap, e.arg 16 2, (w32 (e.arg 12 4)).toNat])
        else if j.irap ≠ 0 then u.setDec n { u.dec n with dropRasl := j.irap == 3 }
        else u).unitDecoded c n r e j fault := by
  subst hj
  unfold State.unitTaken at hu
  unfold State.startUnit unitAsRead State.unitDecoded
  simp only [hok, hu, Bool.not_true, Bool.false_eq_true, if_false, Bool.not_eq_true', decide_eq_true_eq]

/-- Before an IRAP nothing is decoded. -/
theorem State.startUnit_unsynced (hi : j.irap = 0) (hs : u.syncState n = 0) :
    s.startUnit c n e i = u.discard n (s.fld .decRing n 0 0 9) e.k fault 8 :=
  (State.startUnit_read hok hu hj).trans (if_pos ⟨hi, hs⟩)

/-- Nor is anything of a REJECTED stream but a sound IRAP. -/
theorem State.startUnit_rejected (hs : u.syncState n = 3) (h : j.irap = 0 ∨ j.reason ≠ 0) :
    s.startUnit c n e i = u.discard n (s.fld .decRing n 0 0 9) e.k fault (u.fld .decStatus n 0 8 8) :=
  ((State.startUnit_read hok hu hj).trans (if_neg fun g => by omega)).trans (if_pos ⟨hs, h⟩)

section
variable (hs : u.syncState n = 1 ∨ u.syncState n = 2) (hr : j.reason = 0)
include hs hr

/-- Parameter sets that no core supports make a stream REJECTED. -/
theorem State.startUnit_unsupported (hw : u.spsReason n j.sps ≠ 0) :
    s.startUnit c n e i =
      ((u.reject n j (u.spsReason n j.sps) (e.arg 20 4)).showSps n j.sps).discard n (s.fld .decRing n 0 0 9) e.k fault
        (u.spsReason n j.sps) := by
  have decided := ((State.startUnit_read hok hu hj).trans (if_neg fun g => by omega)).trans (if_neg fun g => by omega)
  simp only [if_pos hr] at decided
  rw [decided, if_pos hw, if_neg (by omega)]

section
variable (hi : j.irap = 0) (hw : u.spsReason n j.sps = 0)
include hi hw

/-- A supported picture that is no IRAP leaves the stream's state. -/
theorem State.startUnit_supported : s.startUnit c n e i = u.unitDecoded c n (s.fld .decRing n 0 0 9) e j fault := by
  have decided := ((State.startUnit_read hok hu hj).trans (if_neg fun g => by omega)).trans (if_neg fun g => by omega)
  have kept : ¬ (u.syncState n = 0 ∨ u.syncState n = 3) := by omega
  rw [decided]
  simp only [hr, hw, hi, ne_eq, not_true, if_true, if_false, if_neg kept]

/-- Without LATE it is taken. -/
theorem State.startUnit_taken (hx : bit (u.reg .decXSkip n 0) 0 = false) :
    s.startUnit c n e i = u.coreTake c n (s.fld .decRing n 0 0 9) e j fault :=
  (State.startUnit_supported hok hu hj hs hr hi hw).trans (if_neg fun g => ne_true_of_eq_false hx g.1)

/-- With LATE a picture that is too old, and that nothing refers to, is skipped; its entry tells of no gap and of no end (R218). -/
theorem State.startUnit_skipped (hx : bit (u.reg .decXSkip n 0) 0 = true) (hn : j.nonRef = true) (hf : fault = 0)
    (ha : (u.fld .srcLimit n 0 0 11 : Int) * 1000000 < u.age (w32 (e.arg 12 4))) (hb : byteAt e.data 18 = 0) :
    s.startUnit c n e i =
      ((u.codingRec 0x11 n 2 c (e.arg 16 2) (e.arg 20 4) u.now).bump .decSkipped n 0 1).complete
        (s.fld .decRing n 0 0 9) e.k stNoGain 0 := by
  have skipped := (State.startUnit_supported hok hu hj hs hr hi hw).trans (if_pos ⟨hx, hn, ha, hf⟩)
  have undamaged (v : State) : v.unitDamage n j false 0 (e.arg 16 2) (e.arg 20 4) = v := by
    simp [State.unitDamage, hr]
  simpa [hb, undamaged] using skipped

end

end

end

end

/-! ### The picture that a core holds (R208, R220) -/

/-- What a core takes buffer `b` of the stream for: the picture by its entry and by what the unit declares, under the settings in force as it
starts. -/
def State.pictureOf (v : State) (n b : Nat) (e : FEntry) (i : AuInfo) (fault : Nat) : CoreSt where
  stream := n
  k := e.k
  buf := b
  alive := e.arg 16 2
  cap := w32 (e.arg 12 4)
  flags := byteAt e.data 18
  tag := e.arg 20 4
  irap := i.irap
  dataFault := fault
  since := v.ticks
  doubts := (v.src n).doubts
  culled := false
  hidden := i.rasl && (v.dec n).dropRasl
  depth := i.sps.depth
  codedW := i.sps.codedW
  codedH := i.sps.codedH
  concealMax := v.fld .decXConcealMax n 0 0 10

/-- The parameter sets are shown; after an IRAP no frame_num is missed before its own (R216). -/
def State.unitShown (v : State) (n : Nat) (i : AuInfo) : State :=
  let u := v.showSps n i.sps
  if i.irap = 0 then u else u.setDec n { u.dec n with lastNum := none }

/-- Registers and the stream's own state aside, all is left. -/
theorem State.unitShown_rest (v : State) (n : Nat) (i : AuInfo) :
    (v.unitShown n i).bus = v.bus ∧ (v.unitShown n i).srcs = v.srcs ∧ (v.unitShown n i).cores = v.cores := by
  have shown : (v.showSps n i.sps).bus = v.bus ∧ (v.showSps n i.sps).srcs = v.srcs ∧ (v.showSps n i.sps).cores = v.cores := by
    unfold State.showSps
    refine ⟨?_, ?_, ?_⟩
    · rw [State.setFld_bus, State.setFld_bus]
    · rw [State.setFld_srcs, State.setFld_srcs]
    · rw [State.setFld_cores, State.setFld_cores]
  unfold State.unitShown
  split
  case isTrue => exact shown
  case isFalse => rwa [State.setDec_bus, State.setDec_srcs, State.setDec_cores]

theorem State.unitShown_fld (v : State) (n : Nat) (i : AuInfo) (r : FReg) (a b lo k : Nat) :
    (v.unitShown n i).fld r a b lo k = (v.showSps n i.sps).fld r a b lo k := by
  apply State.fld_congr
  unfold State.unitShown
  extract_lets u
  rw [apply_ite State.fregs, State.setDec_fregs, ite_self]

theorem State.unitShown_dropRasl (v : State) (n : Nat) (i : AuInfo) : ((v.unitShown n i).dec n).dropRasl = (v.dec n).dropRasl := by
  have shown : (v.showSps n i.sps).dec n = v.dec n := by
    unfold State.showSps State.dec
    rw [State.setFld_decs, State.setFld_decs]
  unfold State.unitShown
  split
  case isTrue => rw [shown]
  case isFalse => rw [State.dec_setDec_self, shown]

section
variable (v : State) (n : Nat) (i : AuInfo)

theorem State.unitShown_level : (v.unitShown n i).fld .decStatus n 0 16 8 = i.sps.level % 256 := by
  rw [State.unitShown_fld]
  unfold State.showSps
  rw [State.fld_setFld_apart _ _ _ _ _ _ _ _ _ (by decide) (.inl (by decide)), State.fld_setFld_self _ _ _ _ _ _ _ (by decide)]
  rfl

theorem State.unitShown_depth : (v.unitShown n i).fld .decStatus n 0 24 4 = i.sps.depth % 16 := by
  rw [State.unitShown_fld]
  unfold State.showSps
  exact State.fld_setFld_self _ _ _ _ _ _ _ (by decide)

theorem State.unitShown_concealMax : (v.unitShown n i).fld .decXConcealMax n 0 0 10 = v.fld .decXConcealMax n 0 0 10 := by
  rw [State.unitShown_fld]
  unfold State.showSps
  rw [State.fld_setFld_ne _ (by decide), State.fld_setFld_ne _ (by decide)]

end

/-- A picture is described alike before and after its parameter sets are shown. -/
theorem State.pictureOf_unitShown (v : State) (n b : Nat) (e : FEntry) (i : AuInfo) (fault : Nat) :
    (v.unitShown n i).pictureOf n b e i fault = v.pictureOf n b e i fault := by
  obtain ⟨bus, srcs, -⟩ := v.unitShown_rest n i
  unfold State.pictureOf State.ticks State.src
  rw [bus, srcs, State.unitShown_dropRasl, State.unitShown_concealMax]

/-- The state in which buffer `b` is FILLING for entry k of ring r, which runs. -/
def State.unitFilling (s : State) (n r k b : Nat) : State := (s.moveBuf n b 1).onBus fun q => q.setPhase r k .running

theorem State.unitFilling_core (s : State) (n r k b c : Nat) : (s.unitFilling n r k b).core c = s.core c :=
  ((((PicturesOnly.refl s).setBufState n b 1).evalSource n).onBus _).core c

/-- The core holds the picture, whose buffer is FILLING and whose entry runs. -/
theorem State.coreTake_free {s : State} {n b : Nat} (hb : s.freeBuf n (s.decodable n) = some b) (c r : Nat) (e : FEntry) (i : AuInfo)
    (fault : Nat) :
    s.coreTake c n r e i fault =
      ((s.unitFilling n r e.k b).unitShown n i).setCore c (some ((s.unitFilling n r e.k b).pictureOf n b e i fault)) := by
  rw [← State.pictureOf_unitShown]
  unfold State.coreTake
  simp only [hb]
  rfl

/-- What the core shows of the picture it takes; no other core is touched. -/
theorem State.coreTake_holds {s : State} {n b : Nat} (hb : s.freeBuf n (s.decodable n) = some b) (c r : Nat) (e : FEntry) (i : AuInfo)
    (fault : Nat) :
    let u := s.coreTake c n r e i fault
    u.core c = some ((s.unitFilling n r e.k b).pictureOf n b e i fault) ∧ u.fld .decStatus n 0 16 8 = i.sps.level % 256 ∧
      u.fld .decStatus n 0 24 4 = i.sps.depth % 16 ∧ ∀ c', c' ≠ c → u.core c' = s.core c' := by
  rw [State.coreTake_free hb]
  intro u
  have regs : u.fregs = ((s.unitFilling n r e.k b).unitShown n i).fregs := State.setCore_fregs ..
  refine ⟨State.core_setCore_self .., (State.fld_congr regs ..).trans (State.unitShown_level ..),
    (State.fld_congr regs ..).trans (State.unitShown_depth ..), fun c' hc => ?other⟩
  case other =>
    obtain ⟨-, -, cores⟩ := (s.unitFilling n r e.k b).unitShown_rest n i
    calc u.core c'
      _ = ((s.unitFilling n r e.k b).unitShown n i).core c' := by rw [State.core_setCore, if_neg (Ne.symm hc)]
      _ = (s.unitFilling n r e.k b).core c' := by rw [State.core, cores, State.core]
      _ = s.core c' := State.unitFilling_core ..

/-! ### The end of the picture (R205 to R217) -/

section
variable {s : State} {c : Nat}

theorem State.pictureEnd_idle (h : s.core c = none) (o : PicObs) : s.pictureEnd c o = s := by
  unfold State.pictureEnd
  rw [h]

/-- The free core reads the references, fills the concealed blocks and writes the picture, which goes through the rules that follow. -/
theorem State.pictureEnd_written {u v w : State} {x : CoreSt} {o : PicObs} {bad lost wrote : Bool} {rows : List (List Byte)}
    (hx : s.core c = some x) (hr : (s.freeCore c).refReads c x.stream o = (u, bad)) (hp : u.picRows c x o = (v, rows, lost))
    (hw : v.writePicture (4 + c) (v.bufAddr x.stream x.buf) (v.geo x.stream) 1 rows = (w, wrote)) :
    s.pictureEnd c o =
      w.picTake x (s.fld .decRing x.stream 0 0 9) o ⟨s.refsAbsent x.stream o, bad || lost, picConcealed x o⟩ rows wrote := by
  unfold State.pictureEnd
  simp only [hx, hr, hp, hw]

section
variable {x : CoreSt} {o : PicObs} {bx bY : Nat} (hl : picLost x o bx bY = true)
include hl

/-- A concealed block without a candidate is mid-grey (R212). -/
theorem State.picBlock_grey (h : s.subst x.stream = none) :
    s.picBlock c x o bx bY = (s, greyBlock (s.geo x.stream).fmt, false) := by
  unfold State.picBlock
  simp only [hl, h, Bool.not_true, Bool.false_eq_true, if_false]

/-- With one it is the candidate's co-located block, where that can be read. -/
theorem State.picBlock_candidate {u : State} {b : Nat} {d : List Byte} (h : s.subst x.stream = some b)
    (hd : s.fetchBlock (4 + c) (s.bufAddr x.stream b) (s.geo x.stream) bx bY = (u, .ok d)) : s.picBlock c x o bx bY = (u, d, false) := by
  unfold State.picBlock
  simp only [hl, h, hd, Bool.not_true, Bool.false_eq_true, if_false]

end

end

/-- Settles O32: each command goes to its law above by the law of the fabric die; a unit that is taken, and a concealed block, are read from
the laws of the operations themselves. -/
theorem decodingTakesEffect : Obligations.DecodingTakesEffect := by
  refine ⟨?binds, ?fails, ?start, ?unit, fun s c n r b fault e i hb => State.coreTake_holds hb c r e i fault, ?idle, ?written, ?block⟩
  case binds =>
    intro s n c e hl he hs hr hh ho hk hn hf hc
    rw [exec_decodeStreamBind, State.fabric_live hl, State.streamBind_on he hs hr hh hk hf ho hn, hc]
    rfl
  case fails =>
    intro s n e hl he hs hr r fmt
    have run : exec (.decodeStreamBind n) s = .next (s.streamBind n).watch.settle := by rw [exec_decodeStreamBind, State.fabric_live hl]
    refine ⟨fun h => ?ring, fun hh hk => ⟨fun h6 h7 => ?format, fun hf => ⟨fun h => ?waits, fun ho hn hc => ?full⟩⟩⟩
    case ring => rw [run, State.streamBind_wrongRing he hs hr h]
    case format => rw [run, State.streamBind_wrongFormat he hs hr hh hk h6 h7]
    case waits => rw [run, State.streamBind_waits he hs hr hh hk hf h]
    case full =>
      rw [run, State.streamBind_on he hs hr hh hk hf ho hn, hc]
      rfl
  case start =>
    intro s c i hl
    rw [exec_decodePictureStart, State.fabric_live hl]
    exact ⟨fun h => by rw [State.pictureStart_busy h], fun hc h => by rw [State.pictureStart_idle hc h],
      fun n e hc h => by rw [State.pictureStart_picked hc h]⟩
  case unit =>
    intro s c n e i r _ v
    refine ⟨fun hok => State.startUnit_malformed hok, ?read⟩
    intro hok u fault d hu j
    refine ⟨fun hi hs => ?unsynced, fun hs h => ?rejected, fun hs hr hw => ?unsupported,
      fun hs hi hr hw => ⟨fun hx => ?taken, fun hx hn hf ha hb => ?skipped⟩⟩
    case unsynced => exact State.startUnit_unsynced hok hu rfl hi hs
    case rejected => exact State.startUnit_rejected hok hu rfl hs h
    case unsupported => exact State.startUnit_unsupported hok hu rfl hs hr hw
    case taken => exact State.startUnit_taken hok hu rfl hs hr hi hw hx
    case skipped => exact State.startUnit_skipped hok hu rfl hs hr hi hw hx hn hf ha hb
  case idle =>
    intro s c o hl hc
    rw [exec_decodePictureEnd, State.fabric_live hl, State.pictureEnd_idle hc]
  case written =>
    intro s u v w c x o bad lost wrote rows hl hx hr hp hw
    rw [exec_decodePictureEnd, State.fabric_live hl, State.pictureEnd_written hx hr hp hw]
  case block =>
    intro s c bx bY x o hl g
    exact ⟨fun h => State.picBlock_grey hl h, fun b u d h hd => State.picBlock_candidate hl h hd⟩

end Sys2Proof.Machine

/-! SUPPORT. The commands of COMPOSE (spec/08 R231 to R252): what each makes of what is pending of its head, once the common checks have
passed. -/

namespace Sys2Proof.Machine

/-! ### The common checks of a layer command (R241) -/

/-- The start of a command leaves the layers that a head has. -/
theorem State.begun_depth (s : State) (r : Nat) (e : FEntry) (h : Nat) : (s.begun r e).depth h = s.depth h := by
  unfold State.depth
  rw [State.begun_plan]

section
variable {s : State} {r cap : Nat} {argsOk : Bool} {e : FEntry} (hh : s.plan.has cap e.inst = true) (hn : s.isOn cap e.inst = true)
include hh hn

/-- The common checks of a command of a function that is ON, by its object and arguments. -/
theorem State.checked_passes {objOk : Bool} (ho : objOk = true) (ha : argsOk = true) (f : State → State × Option (Nat × Nat)) :
    checked cap objOk argsOk false e (s.begun r e) f = f (s.begun r e) := State.checked_begun hh ho ha hn

/-- Those of a command on a layer that exists. -/
theorem State.checked_layer (ho : e.object < s.depth e.inst) (ha : argsOk = true) (f : State → State × Option (Nat × Nat)) :
    checked cap ((s.begun r e).layerOk e) argsOk false e (s.begun r e) f = f (s.begun r e) :=
  State.checked_passes hh hn (by unfold State.layerOk; rw [State.begun_depth]; exact decide_eq_true ho) ha f

end

/-- What is pending of a head, changed. -/
def State.onPend (s : State) (h : Nat) (f : PendSt → PendSt) : State := s.setHead h { s.head h with pend := f (s.head h).pend }

/-- The weight of a head's enabled layers with everything pending applied (R232). -/
def State.pendingWeight (s : State) (h : Nat) : Nat :=
  ((((List.range (s.depth h)).map fun l => s.layerNext h l).filter LayerCfg.enabled).map LayerCfg.weight).sum

section
variable {s : State} {r host : Nat} {e : FEntry} (hh : s.plan.has 0x12 e.inst = true) (hn : s.isOn 0x12 e.inst = true)
include hh hn

section
variable (ho : e.object < s.depth e.inst)
include ho

/-! ### LAYER_SET and LAYER_FENCE (R231, R242, R250) -/

section
variable (ha : layerArgsOk s.plan e = true)
include ha

/-- With ratios in the limits its configuration is pending. -/
theorem layerSet_pends (hr : (ratioOk (layerArgs e).cropW (layerArgs e).dstW && ratioOk (layerArgs e).cropH (layerArgs e).dstH) = true) :
    layerSet host r e (s.begun r e) =
      ((s.begun r e).onPend e.inst fun p => { p with layers := assocSet p.layers e.object (layerArgs e) }, some (0, 0)) := by
  unfold layerSet
  rw [State.checked_layer hh hn ho (by rw [State.begun_plan]; exact ha)]
  simp only [hr, Bool.not_true, Bool.false_eq_true, if_false]
  rfl

/-- Beyond the limits it is refused. -/
theorem layerSet_beyond (hr : (ratioOk (layerArgs e).cropW (layerArgs e).dstW && ratioOk (layerArgs e).cropH (layerArgs e).dstH) = false) :
    layerSet host r e (s.begun r e) = (s.begun r e, some (0x8007, 0)) := by
  unfold layerSet
  rw [State.checked_layer hh hn ho (by rw [State.begun_plan]; exact ha)]
  simp only [hr, Bool.not_false, if_true]
  rfl

end

/-- LAYER_FENCE of a fence object, or of none, makes it pending. -/
theorem layerFence_pends (ha : e.arg 32 2 < 4096 ∨ e.arg 32 2 = 0xFFFF) (hz : e.zeroFrom 34 40 = true) (hy : e.zeroFrom 48 56 = true) :
    layerFence host r e (s.begun r e) =
      ((s.begun r e).onPend e.inst fun p => { p with fences := assocSet p.fences e.object (e.arg 32 2, e.arg 40 8) }, some (0, 0)) := by
  unfold layerFence
  dsimp only
  rw [State.checked_layer hh hn ho (by simp [ha, hz, hy])]
  rfl

/-! ### Coefficient tables (R236) -/

section
variable {u : State} (ha : e.arg 32 8 % 64 = 0) (hz : e.zeroFrom 40 56 = true)
include ha hz

/-- LOAD_COEFF at expert level makes a table that R236 accepts pending. -/
theorem loadCoeff_pends {d : List Byte} {t : List Int} (hx : (s.begun r e).expert 0x12 e.inst = true)
    (hl : (s.begun r e).load (headMaster e.inst) (e.arg 32 8) 1792 = (u, .ok d)) (ht : coeffTable d = some t) :
    loadCoeff host r e (s.begun r e) =
      (u.onPend e.inst fun p => { p with coeffs := assocSet p.coeffs e.object t }, some (0, 0)) := by
  unfold loadCoeff
  rw [State.checked_layer hh hn ho (by simp [ha, hz])]
  simp only [hx, hl, ht, Bool.not_true, Bool.false_eq_true, if_false]
  rfl

/-- READ_COEFF whose store is taken has written the bank's table. -/
theorem readCoeff_writes
    (hw : (s.begun r e).store (headMaster e.inst) (e.arg 32 8) (tabGet BankSt.init ((s.begun r e).head e.inst).banks e.object).bytes =
      (u, true)) :
    readCoeff host r e (s.begun r e) = (u, some (0, 0)) := by
  unfold readCoeff
  rw [State.checked_layer hh hn ho (by simp [ha, hz])]
  simp only [hw]
  rfl

end

end

/-! ### The cursor and COMMIT (R232, R244, R252) -/

/-- CURSOR_LOAD whose rows are read makes the image pending. -/
theorem cursorLoad_pends {u : State} {rows : List (List Byte)} (ho : e.object = 32) (ha : e.arg 32 8 % 64 = 0)
    (hw : 1 ≤ e.arg 40 1 ∧ e.arg 40 1 ≤ 128) (hv : 1 ≤ e.arg 41 1 ∧ e.arg 41 1 ≤ 128) (hs : cdiv (e.arg 40 1 * 4) 64 ≤ e.arg 42 2)
    (hz : e.zeroFrom 44 56 = true)
    (hf : (s.begun r e).fetchRows (headMaster e.inst) (e.arg 32 8) (e.arg 42 2 * 64) (e.arg 41 1) (e.arg 40 1 * 4) = (u, .ok rows)) :
    cursorLoad host r e (s.begun r e) =
      (u.onPend e.inst fun p => { p with cursor := some ⟨e.arg 40 1, e.arg 41 1, rows.flatten⟩ }, some (0, 0)) := by
  unfold cursorLoad
  dsimp only
  rw [State.checked_passes hh hn (beq_of_eq ho) (by simp [ha, hw, hv, hs, hz])]
  simp only [hf]
  rfl

section
variable (ho : e.object = 33) (ha : e.arg 32 4 < 2 ^ s.depth e.inst) (hz : e.zeroFrom 36 56 = true)
include ho ha hz

/-- COMMIT goes by the weight that its layers would have. -/
theorem commit_begun :
    commit host r e (s.begun r e) =
      let u := s.begun r e
      let x := u.head e.inst
      if u.depth e.inst < u.pendingWeight e.inst then (u, some (0x8007, 0))
      else ((u.setHead e.inst { x with
        pend := PendSt.init, commits := x.commits ++ [⟨u.now, e.tag, e.arg 32 4, x.pend⟩] }).setFld .composeStatus e.inst 0 18 1 1,
        some (1, 0)) := by
  unfold commit
  dsimp only
  rw [State.checked_passes hh hn (beq_of_eq ho) (by rw [State.begun_depth]; simp [ha, hz])]
  rfl

/-- Layers beyond the depth are refused. -/
theorem commit_beyond (hw : (s.begun r e).depth e.inst < (s.begun r e).pendingWeight e.inst) :
    commit host r e (s.begun r e) = (s.begun r e, some (0x8007, 0)) := (commit_begun hh hn ho ha hz).trans (if_pos hw)

/-- Within it what is pending waits as a commit. -/
theorem commit_waits (hw : (s.begun r e).pendingWeight e.inst ≤ (s.begun r e).depth e.inst) :
    commit host r e (s.begun r e) =
      let u := s.begun r e
      let x := u.head e.inst
      ((u.setHead e.inst { x with
        pend := PendSt.init, commits := x.commits ++ [⟨u.now, e.tag, e.arg 32 4, x.pend⟩] }).setFld .composeStatus e.inst 0 18 1 1,
        some (1, 0)) := (commit_begun hh hn ho ha hz).trans (if_neg (Nat.not_lt.mpr hw))

end

end

/-- Settles O33: each command goes by the law of a ripe command to what its performer gives above. -/
theorem layerCommandsTakeEffect : Obligations.LayerCommandsTakeEffect := by
  refine ⟨?layer, ?fence, ?load, ?read, ?cursor, ?commit⟩
  case layer =>
    intro s r k e h hh hn ho ha c u x
    exact ⟨fun hr => State.fabric_done h (layerSet_pends hh hn ho ha hr), fun hr => State.fabric_done h (layerSet_beyond hh hn ho ha hr)⟩
  case fence =>
    intro s r k e h hh hn ho ha hz hy u x
    exact State.fabric_done h (layerFence_pends hh hn ho ha hz hy)
  case load =>
    intro s u r k e d t h hh hn ho ha hz hx hl ht x
    exact State.fabric_done h (loadCoeff_pends hh hn ho ha hz hx hl ht)
  case read =>
    intro s u r k e h hh hn ho ha hz hw
    exact State.fabric_done h (readCoeff_writes hh hn ho ha hz hw)
  case cursor =>
    intro s u r k e rows h hh hn ho ha hw hw' hv hv' hs hz hf x
    exact State.fabric_done h (cursorLoad_pends hh hn ho ha ⟨hw, hw'⟩ ⟨hv, hv'⟩ hs hz hf)
  case commit =>
    intro s r k e h hh hn ho ha hz u x weight
    exact ⟨fun hw => State.fabric_done h (commit_beyond hh hn ho ha hz hw), fun hw => State.fabric_done h (commit_waits hh hn ho ha hz hw)⟩

end Sys2Proof.Machine

/-! SUPPORT. Freshness commands (spec/09 R273, R275, R298, R302), the cursor (spec/08 R253), the tile table snapshot (spec/09 R286) and the
reads of a head's frame (spec/10 R313). -/

namespace Sys2Proof.Machine

section
variable {s : State} {r host : Nat} {e : FEntry} (hh : s.plan.has 0x13 e.inst = true) (hn : s.isOn 0x13 e.inst = true)
include hh hn

/-! ### LIMIT_SET and POLICY_SET (R273, R275, R302) -/

section
variable (ho : e.object < s.depth e.inst)
include ho

section
variable (hz : e.zeroFrom 35 56 = true)
include hz

/-- A limit that R273 lets stand is kept for the next latch instant, one beyond floor or ceiling is refused. -/
theorem limitSet_begun (hd : e.arg 34 1 = 0) (h1 : 1 ≤ e.arg 32 2) (h2 : e.arg 32 2 ≤ 2000) :
    limitSet host r e (s.begun r e) =
      let u := s.begun r e
      let x := u.head e.inst
      let f := s.plan.freshFor e.inst (u.layer e.inst e.object).src
      if e.arg 32 2 < f.2.1 ∨ f.2.2 < e.arg 32 2 then (u, some (0x8007, 0))
      else (u.setHead e.inst { x with limits := x.limits ++ [(u.now, e.object, e.arg 32 2, false)] }, some (0, 0)) := by
  unfold limitSet
  dsimp only
  rw [State.checked_layer hh hn ho (by simp [hd, hz, h1, h2])]
  simp only [hd, Nat.zero_testBit, Bool.not_false, Bool.true_and, decide_eq_true_eq, State.begun_plan]
  rfl

/-- The default is kept whatever the limit. -/
theorem limitSet_default (hd : e.arg 34 1 = 1) :
    limitSet host r e (s.begun r e) =
      let u := s.begun r e
      let x := u.head e.inst
      (u.setHead e.inst { x with limits := x.limits ++ [(u.now, e.object, e.arg 32 2, true)] }, some (0, 0)) := by
  unfold limitSet
  dsimp only
  rw [State.checked_layer hh hn ho (by simp [hd, hz])]
  simp only [hd, Nat.testBit_one_zero, Bool.not_true, Bool.false_and, Bool.false_eq_true, if_false]
  rfl

end

/-- A policy in range is kept for the next latch instant. -/
theorem policySet_kept (h8 : e.arg 33 1 < 8) (h3 : e.arg 33 1 % 4 < 3) (hz : e.zeroFrom 34 56 = true) :
    policySet host r e (s.begun r e) =
      let u := s.begun r e
      let x := u.head e.inst
      (u.setHead e.inst { x with policies := x.policies ++ [(u.now, e.object, e.arg 32 1 + e.arg 33 1 * 256)] }, some (0, 0)) := by
  unfold policySet
  dsimp only
  rw [State.checked_layer hh hn ho (by simp [h8, h3, hz])]
  rfl

end

/-! ### REARM (R298) -/

section
variable {p : HeadEnt} (ho : e.object = 0xFFFF) (hz : e.zeroFrom 32 56 = true) (hp : s.plan.head e.inst = some p)
include ho hz hp

/-- REARM goes by the SAFE of the head's ports and the state of its island. -/
theorem rearm_begun :
    rearm host r e (s.begun r e) =
      let u := s.begun r e
      let v := u.setHead e.inst { u.head e.inst with rearm := true, witPrev := [] }
      if (p.ports.any u.witSafe) = false then (u, some (stState, 0))
      else if bit (u.reg .witStatus e.inst 0) 6 = false then (u, some (stFailed, 1))
      else ((v.setFld .witStatus e.inst 0 0 2 0).emit 0x1308 e.inst 0 (pay [p.primary, v.fld .witStatus e.inst 0 16 16]),
        some (0, 0)) := by
  unfold rearm
  dsimp only
  rw [State.checked_passes hh hn (beq_of_eq ho) hz]
  simp only [State.begun_plan, hp, Bool.not_eq_true']
  rfl

end

end

/-! ### The cursor (R253) -/

/-- A position written is kept for the next latch, where a hidden cursor shows again. -/
theorem State.cursorPosWrite_reached {s : State} {host h : Nat} (hr : s.reached host 0x12 h) (v : Word) :
    s.cursorPosWrite host h v =
      let u := s.regWriteRec host 0x12 h 0 0x2C v
      (u.setReg .cursorPos h 0 v).setHead h { u.head h with posTick := u.ticks, curHide := false } := by
  unfold State.cursorPosWrite
  rw [State.hostWrite_reached hr]

/-- A cursor that shows hides once its time without a write is over. -/
theorem State.cursorHidden_due {s : State} {h : Nat} (hn : s.isOn 0x12 h = true) (hm : s.fld .cursorCtl h 0 16 11 ≠ 0)
    (hc : (s.head h).curHide = false) (ht : (s.head h).posTick + s.fld .cursorCtl h 0 16 11 * 200000 ≤ s.ticks) :
    s.cursorHidden h = (s.setHead h { s.head h with curHide := true }).emit 0x1207 h 0 (pay [(s.reg .cursorPos h 0).toNat]) := by
  unfold State.cursorHidden
  exact if_pos ⟨hn, hm, by rw [hc]; rfl, ht⟩

/-! ### The tile table snapshot (R286) -/

/-- A snapshot shows the entry and its index; bad parity is first found and rewritten. -/
theorem State.tileSnapshot_reached {s : State} {host h : Nat} (hr : s.reached host 0x13 h) (v : Word) :
    s.tileSnapshot host h v =
      let i := bf v 0 14
      let w := s.regWriteRec host 0x13 h 0 0x24 v
      let u := if w.tileBad h i = true then w.parityFound h i else w
      ((u.setReg .freshTileIndex h 0 (w32 i)).setReg .freshTileLo h 0 (w32 (tabGet 0 (u.head h).tiles i))).setReg .freshTileHi h 0
        (w32 (tabGet 0 (u.head h).tiles i / 2 ^ 32)) := by
  unfold State.tileSnapshot
  rw [State.hostWrite_reached hr]
  rfl

/-! ### A head's frame number and latch time (R313) -/

/-- A read of HEAD_FRAME freezes HEAD_LATCH_TIME. -/
theorem State.headFrameRead_frame (s : State) (port h : Nat) :
    s.headFrameRead port h false = (s.answer port (s.reg .headFrame h 0)).freeze .headLatchTime h 0 := rfl

/-- A read of HEAD_LATCH_TIME lets it go. -/
theorem State.headFrameRead_time (s : State) (port h : Nat) :
    s.headFrameRead port h true = (s.answer port (s.frozen .headLatchTime h 0)).thaw .headLatchTime h 0 := rfl

/-- Settles O34: a ring command goes by the law of a ripe command to what its performer gives above, any other by the law of the fabric
die. -/
theorem freshnessCommandsTakeEffect : Obligations.FreshnessCommandsTakeEffect := by
  refine ⟨?limit, ?default, ?policy, ?rearms, ?refuses, ?position, ?hides, ?snapshot, ?frame⟩
  case limit =>
    intro s r k e h hh hn ho hd hz h1 h2 u x f
    have begun := limitSet_begun (host := (s.plan.ringHost r).getD 0) (r := r) hh hn ho hz hd h1 h2
    exact ⟨fun hf hc => State.fabric_done h (begun.trans (if_neg (not_or.mpr ⟨Nat.not_lt.mpr hf, Nat.not_lt.mpr hc⟩))),
      fun hf => State.fabric_done h (begun.trans (if_pos hf))⟩
  case default =>
    intro s r k e h hh hn ho hd hz u x
    exact State.fabric_done h (limitSet_default hh hn ho hz hd)
  case policy =>
    intro s r k e h hh hn ho h8 h3 hz u x
    exact State.fabric_done h (policySet_kept hh hn ho h8 h3 hz)
  case rearms =>
    intro s r k e p h hh hn ho hz hp hs hi
    exact State.fabric_done h ((rearm_begun hh hn ho hz hp).trans
      ((if_neg (ne_false_of_eq_true hs)).trans (if_neg (ne_false_of_eq_true hi))))
  case refuses =>
    intro s r k e p h hh hn ho hz hp
    have begun := rearm_begun (host := (s.plan.ringHost r).getD 0) (r := r) hh hn ho hz hp
    exact ⟨fun hs => State.fabric_done h (begun.trans (if_pos hs)),
      fun hs hi => State.fabric_done h (begun.trans ((if_neg (ne_false_of_eq_true hs)).trans (if_pos hi)))⟩
  case position =>
    intro s host h v hl hr u
    rw [exec_cursorPosWrite, State.fabric_live hl, State.cursorPosWrite_reached hr]
  case hides =>
    intro s h hl hn hm hc ht
    rw [exec_cursorHidden, State.fabric_live hl, State.cursorHidden_due hn hm hc ht]
  case snapshot =>
    intro s host h v hl hr i w u
    rw [exec_tileSnapshotWrite, State.fabric_live hl, State.tileSnapshot_reached hr]
  case frame =>
    intro s port h hl
    exact ⟨by rw [exec_headFrameRead, State.fabric_live hl, State.headFrameRead_frame],
      by rw [exec_headFrameRead, State.fabric_live hl, State.headFrameRead_time]⟩

end Sys2Proof.Machine

/-! SUPPORT. Read-out of a head's frame (spec/08 R223, R254 to R257; spec/09 R283, R284, R287; spec/10 R321, R322): a strip's start and its
slot's freeing, the end of the frame, and the window of tiles in doubt. -/

namespace Sys2Proof.Machine

section
variable {s : State} {h : Nat} {f : FrameSt} (hf : (s.head h).frame = some f)
include hf

/-! ### A strip's read-out starts (R257, R321, R322) -/

section
variable (hs : f.readBegun < f.strips) (hj : f.freed = f.readBegun) (ht : atOrAfter s.now (f.readAt f.readBegun) = true)
include hs hj ht

/-- Read-out goes by whether the strip is complete by then; one that is not counts as complete with margin 0. -/
theorem State.readStart_due :
    s.readStart h =
      let j := f.readBegun
      let u := s.setFrame h { f with readBegun := j + 1 }
      if f.blank = true ∨ j < f.complete then u.readRow h (j / 4)
      else
        let missing := (List.range f.colsN).filter fun c => !(f.cols.any fun q => q.strip == j && q.col == c)
        let v := (if f.started ≤ j then u.startFrameStrip h j else u).readRow h (j / 4)
        (if missing = [] then v else v.underrun h j missing).stripDone h j 0 := by
  have due : ¬ (f.strips ≤ f.readBegun ∨ f.freed ≠ f.readBegun ∨ (!atOrAfter s.now (f.readAt f.readBegun)) = true) := by
    simp only [ht, hj, Bool.not_true, Bool.false_eq_true, or_false, ne_eq, not_true]
    omega
  unfold State.readStart
  simp only [hf, if_neg due, List.isEmpty_iff]

/-- A strip that is complete, or of a blank frame, has its row's entries read. -/
theorem State.readStart_complete (hc : f.blank = true ∨ f.readBegun < f.complete) :
    s.readStart h = (s.setFrame h { f with readBegun := f.readBegun + 1 }).readRow h (f.readBegun / 4) :=
  (State.readStart_due hf hs hj ht).trans (if_pos hc)

/-- Any other underruns in its missing columns. -/
theorem State.readStart_unfinished (hb : f.blank = false) (hc : f.complete ≤ f.readBegun) :
    s.readStart h =
      let j := f.readBegun
      let u := s.setFrame h { f with readBegun := j + 1 }
      let missing := (List.range f.colsN).filter fun c => !(f.cols.any fun q => q.strip == j && q.col == c)
      let v := (if f.started ≤ j then u.startFrameStrip h j else u).readRow h (j / 4)
      (if missing = [] then v else v.underrun h j missing).stripDone h j 0 :=
  (State.readStart_due hf hs hj ht).trans (if_neg (not_or.mpr ⟨ne_true_of_eq_false hb, Nat.not_lt.mpr hc⟩))

end

/-! ### A strip's slot frees (R223, R254, R256, R284) -/

section
variable {e : HeadEnt} (he : s.plan.head h = some e)
include he

/-- Before the end of its last line no slot frees. -/
theorem State.slotFree_early (hn : f.readBegun ≠ f.freed + 1 ∨ atOrAfter s.now (f.freeAt f.freed) = false) (late : Bool) :
    s.slotFree h late = s := by
  unfold State.slotFree
  simp only [he, hf]
  exact if_pos (hn.imp_right fun ht => by rw [ht]; rfl)

section
variable (hr : f.readBegun = f.freed + 1) (ht : atOrAfter s.now (f.freeAt f.freed) = true)
include hr ht

/-- Without write-back the strip is sent and its slot is free; the end of a tile row closes the row. -/
theorem State.slotFree_sent (hw : f.wb = none) (late : Bool) :
    s.slotFree h late =
      let j := f.freed
      let u := (s.sendStrip e j).onFrame h fun f => { f with freed := j + 1 }
      if (j + 1) % 4 = 0 ∨ j + 1 = f.strips then u.rowEnd e (j / 4) else u := by
  unfold State.slotFree
  simp only [he, hf, hw]
  exact if_neg (by simp [hr, ht])

/-- With write-back the strip is written back too, unless it is late, which abandons the picture. -/
theorem State.slotFree_writesBack {n x y : Nat} {cursor : Bool} (hw : f.wb = some (n, x, y, cursor)) (late : Bool) :
    s.slotFree h late =
      let j := f.freed
      let u := s.sendStrip e j
      let u := (if late = true then u.wbDrop n 0 else u.wbStrip e j).onFrame h fun f => { f with freed := j + 1 }
      (if (j + 1) % 4 = 0 ∨ j + 1 = f.strips then u.rowEnd e (j / 4) else u).wbEnd n := by
  unfold State.slotFree
  simp only [he, hf, hw]
  exact if_neg (by simp [hr, ht])

end

end

end

/-! ### What the end of a frame leaves (R287, R303) -/

/-- The registers that count the tiles of a head's frame. -/
def FReg.countsTiles : FReg → Bool
  | .freshStaleTiles | .freshDegradedTiles | .freshDoubtTiles => true
  | _ => false

/-- What the other work of a frame's end leaves: the other heads, and the counts of the frame's tiles. -/
structure FrameEndOnly (h : Nat) (s t : State) : Prop where
  head : ∀ h', h' ≠ h → t.head h' = s.head h'
  count : ∀ r, r.countsTiles = true → t.reg r h 0 = s.reg r h 0

namespace FrameEndOnly

variable {h : Nat} {z s t : State}

theorem refl (s : State) : FrameEndOnly h s s := ⟨fun _ _ => rfl, fun _ _ => rfl⟩

theorem ite {c : Prop} [Decidable c] (hs : FrameEndOnly h z s) (ht : FrameEndOnly h z t) : FrameEndOnly h z (if c then s else t) := by
  split <;> assumption

theorem foldl {α : Type} {xs : List α} {f : State → α → State} (hs : FrameEndOnly h z s)
    (hf : ∀ u x, FrameEndOnly h z u → FrameEndOnly h z (f u x)) : FrameEndOnly h z (xs.foldl f s) := by
  induction xs generalizing s with
  | nil => exact hs
  | cons x xs ih => exact ih (hf s x hs)

section
variable (hs : FrameEndOnly h z s)
include hs

/-- An update of neither heads nor registers. -/
theorem upd (hh : t.heads = s.heads) (hr : t.fregs = s.fregs) : FrameEndOnly h z t :=
  ⟨fun h' hne => (congrArg (tabGet HeadSt.init · h') hh).trans (hs.head h' hne),
    fun r hc => (State.reg_congr hr r h 0).trans (hs.count r hc)⟩

theorem setReg {r : FReg} (i j : Nat) (v : Word) (hr : r.countsTiles = false) : FrameEndOnly h z (s.setReg r i j v) :=
  ⟨hs.head, fun q hq => (State.reg_setReg_ne s (fun e => by rw [e, hq] at hr; cases hr) i j h 0 v).trans (hs.count q hq)⟩

theorem setFld {r : FReg} (i j lo n v : Nat) (hr : r.countsTiles = false) : FrameEndOnly h z (s.setFld r i j lo n v) := hs.setReg i j _ hr

theorem setHead (x : HeadSt) : FrameEndOnly h z (s.setHead h x) :=
  ⟨fun h' hne => ((State.head_setHead s h h' x).trans (if_neg hne.symm)).trans (hs.head h' hne), hs.count⟩

theorem sendItem (p typ flags stream alive : Nat) (stamp : Word) (payload : List Byte) :
    FrameEndOnly h z (s.sendItem p typ flags stream alive stamp payload) := by
  have link {u : State} (hu : FrameEndOnly h z u) (x : LinkSt) : FrameEndOnly h z (u.setLink p x) := hu.upd rfl rfl
  have put {u : State} (hu : FrameEndOnly h z u) (typ flags stream alive : Nat) (stamp : Word) (payload : List Byte) :
      FrameEndOnly h z (u.putPacket p typ flags stream alive stamp payload) := hu.upd rfl rfl
  unfold State.sendItem
  have sent := put hs typ flags stream alive stamp payload
  exact .ite hs (.ite (link hs _) (.ite (link sent _) (.ite (.foldl (link sent _) fun u r hu => put hu ..) sent)))

theorem journal (kind cap inst : Nat) (body : List Byte) : FrameEndOnly h z (s.journal kind cap inst body) := by
  rw [State.journal_eq]
  exact hs.upd rfl rfl

theorem recRuns (n kind cap inst : Nat) (items : List (List Byte)) (hdr : Nat → Nat → List Byte) :
    FrameEndOnly h z (s.recRuns n kind cap inst items hdr) := .foldl hs fun _ _ hu => hu.journal ..

theorem rerunDiff (k frame row n : Nat) : FrameEndOnly h z (s.rerunDiff k frame row n) := by
  unfold State.rerunDiff
  split
  case h_1 => exact hs
  case h_2 => exact .ite (hs.upd rfl rfl) (hs.upd rfl rfl)

theorem rerunRows (k frame first : Nat) (checks : List Nat) (own : List (Nat × Bool)) :
    FrameEndOnly h z (s.rerunRows k frame first checks own) := by
  have counted (g : Bus → Bus) : FrameEndOnly h z (s.onBus g) := hs.upd rfl rfl
  unfold State.rerunRows
  extract_lets pairs incomparable equal differing compared
  clear_value differing
  split
  case h_1 => exact counted _
  case h_2 => exact (counted _).rerunDiff ..

theorem rerunOwn (k frame port : Nat) (own : List (Nat × Bool)) : FrameEndOnly h z (s.rerunOwn k frame port own) := by
  unfold State.rerunOwn
  split
  case h_1 => exact hs
  case h_2 => exact .foldl (hs.upd rfl rfl) fun _ _ hu => hu.rerunRows ..

theorem layerEvent (f : FrameSt) (l : LatLayer) : FrameEndOnly h z (s.layerEvent h f l) := by
  have event {u : State} (hu : FrameEndOnly h z u) (t : Word) (typ inst sev : Nat) (p : Payload) :
      FrameEndOnly h z (u.emitAt t none typ inst sev p) := hu.upd rfl rfl
  unfold State.layerEvent
  extract_lets seen old age aged new v x last due noted row t n cause
  have shown : FrameEndOnly h z v := (hs.setFld _ _ _ _ _ rfl).setFld _ _ _ _ _ rfl
  refine .ite shown (.ite (shown.setHead _) ?posted)
  clear_value new
  split <;> exact event (shown.setHead _) ..

end

end FrameEndOnly

/-- At the end of a frame the head shows how many of its tiles are STALE, DEGRADED and in doubt; the other heads stand. -/
theorem State.frameEnd_counts {s : State} {h : Nat} {e : HeadEnt} {f : FrameSt} (he : s.plan.head h = some e)
    (hf : (s.head h).frame = some f) (hn : f.ended = false) (hd : f.freed = f.strips) :
    let u := s.frameEnd h
    u.reg .freshStaleTiles h 0 = w32 (f.states.filter fun q => q.2 == 0 || q.2 == 3).length ∧
      u.reg .freshDegradedTiles h 0 = w32 (f.states.filter fun q => q.2 == 2).length ∧
      u.reg .freshDoubtTiles h 0 = w32 f.doubts.length ∧ (∀ h', h' ≠ h → u.head h' = s.head h') := by
  unfold State.frameEnd
  simp -zeta only [he, hf]
  rw [if_neg (by simp [hn, hd])]
  extract_lets cols validity rows ports own checks begun ended valid recorded seen compared count staled counted worst evented x good low
    margin u
  have upToCounts : FrameEndOnly h s compared := by
    have begins : FrameEndOnly h s begun := (FrameEndOnly.refl s).setHead _
    have ends : FrameEndOnly h s ended := .ite (.foldl begins fun _ _ hu => hu.sendItem ..) begins
    have validated : FrameEndOnly h s valid := .ite ((ends.setReg _ _ _ rfl).setFld _ _ _ _ _ rfl) ends
    have records : FrameEndOnly h s recorded := .ite (.foldl validated fun _ _ hu => hu.recRuns ..) validated
    exact .ite (.foldl records fun _ _ hu => hu.rerunOwn ..) records
  have afterCounts : FrameEndOnly h counted u := by
    have worsened : FrameEndOnly h counted worst := (FrameEndOnly.refl counted).setFld _ _ _ _ _ rfl
    have events : FrameEndOnly h counted evented := .ite worsened (.foldl worsened fun _ _ hu => hu.layerEvent ..)
    have margins : FrameEndOnly h counted margin := by
      unfold margin
      clear_value low
      split
      case h_1 => exact events.setReg _ _ _ rfl
      case h_2 => exact events
    exact margins.setHead _
  refine ⟨?stale, ?degraded, ?doubt, fun h' hne => (afterCounts.head h' hne).trans (upToCounts.head h' hne)⟩
  case stale =>
    rw [afterCounts.count _ rfl, State.reg_setReg_ne _ (by decide), State.reg_setReg_ne _ (by decide), State.reg_setReg_self]
  case degraded =>
    rw [afterCounts.count _ rfl, State.reg_setReg_ne _ (by decide), State.reg_setReg_self]
  case doubt =>
    rw [afterCounts.count _ rfl, State.reg_setReg_self]

/-! ### The window of tiles in doubt (R283) -/

/-- A window that has closed posts its event. -/
theorem State.tileDoubt_closes {s : State} {h t tile reason n : Nat} {w : Word} (hw : (s.head h).doubtWin = some (t, w, tile, reason, n))
    (ht : t + tickMs ≤ s.ticks) :
    s.tileDoubt h = (s.setHead h { s.head h with doubtWin := none }).emitAt w none 0x1304 h 1 (pay [tile, reason, n]) := by
  unfold State.tileDoubt
  simp only [hw, if_pos ht]

/-- Settles O37: each command goes to its law above by the law of the fabric die; what the end of a frame leaves is read from the state it
gives. -/
theorem frameIsReadOut : Obligations.FrameIsReadOut := by
  refine ⟨?readout, ?slot, ?early, ?ends, ?doubt⟩
  case readout =>
    intro s h f hl hf hs hj ht j u
    simp only [exec_stripReadoutStart, State.fabric_live hl]
    refine ⟨fun hc => ?complete, fun hb hc => ?unfinished⟩
    case complete => rw [State.readStart_complete hf hs hj ht hc]
    case unfinished => rw [State.readStart_unfinished hf hs hj ht hb hc]
  case slot =>
    intro s h late e f hl he hf hr ht j
    simp only [exec_stripSlotFree, State.fabric_live hl]
    refine ⟨fun hw => ?sent, fun n x y cursor hw => ?writesBack⟩
    case sent => rw [State.slotFree_sent hf he hr ht hw]
    case writesBack => rw [State.slotFree_writesBack hf he hr ht hw]
  case early =>
    intro s h late e f hl he hf hn
    rw [exec_stripSlotFree, State.fabric_live hl, State.slotFree_early hf he hn]
  case ends =>
    intro s h e f hl he hf hn hd
    exact ⟨s.frameEnd h, by rw [exec_frameReadoutEnd, State.fabric_live hl], State.frameEnd_counts he hf hn hd⟩
  case doubt =>
    intro s h t tile reason n w hl hw ht
    rw [exec_tileDoubt, State.fabric_live hl, State.tileDoubt_closes hw ht]

end Sys2Proof.Machine

/-! SUPPORT. The witness and its island (spec/09 R294 to R299), and a fully live frame (spec/10 R316). -/

namespace Sys2Proof.Machine

/-! ### A tile is checked (R294, R296) -/

/-- The digest of a tile that STAMP says is filled is not compared: its doubt-fill report is. -/
theorem tileCheck_eq (v : Nat × Nat × Nat × Bool) (t32 digest : Nat) (fill : Bool) :
    tileCheck v t32 digest fill =
      if t32 ≠ v.2.1 then 2 else if (fill = true ∧ v.2.2.2 = true) ∨ (fill = false ∧ digest = v.2.2.1) then 0 else 4 := by
  cases fill <;> simp [tileCheck]

section
variable {s : State} {p : Nat} {e : HeadEnt} {w : WitEnt} (he : s.plan.headOfPort p = some e) (hw : (s.head e.head).witOf p = some w)
include he hw

/-- A tile of the compare memory leaves it, whatever its check gives; the check sets its flag and may mismatch the frame. -/
theorem State.witTile_compared {tile : Nat} {v : Nat × Nat × Nat × Bool} (hv : w.tiles.find? (fun q => q.1 == tile) = some v)
    (t32 digest : Nat) (fill : Bool) :
    s.witTile p tile t32 digest fill =
      let check := tileCheck v t32 digest fill
      let x := { w with tiles := w.tiles.filter fun q => q.1 != tile }
      let u := (s.setHead e.head ((s.head e.head).putWit x)).witReport
      if check = 0 then u.flagTile e.head tile false
      else if w.fail = 0 then (u.flagTile e.head tile true).mismatch e.head x check tile
      else u.flagTile e.head tile true := by
  unfold State.witTile
  simp only [he, hw, hv]

/-- A tile ahead of its compare record is remembered for check 8. -/
theorem State.witTile_ahead {tile : Nat} (hv : w.tiles.find? (fun q => q.1 == tile) = none)
    (ha : w.arrived ≤ tile / max 1 (s.tileCols e.head)) (t32 digest : Nat) (fill : Bool) :
    s.witTile p tile t32 digest fill = (s.setHead e.head ((s.head e.head).putWit { w with late := true })).witReport := by
  unfold State.witTile
  simp only [he, hw, hv, if_neg (Nat.not_lt.mpr ha)]

end

/-! ### A frame is checked (R294 to R297) -/

/-- The first mismatched frame of a port is counted and recorded, and puts STATE at 1. -/
theorem State.mismatch_first {s : State} {h : Nat} {w : WitEnt} (hp : assocGet (s.head h).witPrev w.port = none) (check tile : Nat) :
    s.mismatch h w check tile =
      let u := s.setHead h { (s.head h).putWit { w with fail := check, tile := tile } with witBad := some w.num }
      let u := (u.bump .witMismatchCount h 0 1).setFld .witStatus h 0 2 4 check
      let u := (u.setFld .witLastTile h 0 0 14 tile).setFld .witLastTile h 0 16 8 (w.num.toNat % 256)
      (u.setWit h 1).emit 0x1306 h 1 (pay [w.port, check, tile, w.num.toNat]) := by
  unfold State.mismatch
  simp only [hp]

/-- A frame without a failing check has no bad row. -/
theorem WitEnt.badRows_of_failing_eq_nil {w : WitEnt} {rows : List Nat} {o : WitObs} {last : Option (Word × Word × Word)} {period : Nat}
    (hf : w.failing rows o last period = []) : w.badRows rows = [] := by
  by_contra hb
  simp [WitEnt.failing, hb] at hf

/-- What the check of a frame leaves before its verdict: the frame counted, a report to the warden, and the frame remembered as the port's
last. -/
def State.frameChecked (s : State) (h p : Nat) (o : WitObs) : State :=
  let v := (s.bump .witFramesChecked h 0 1).witReport
  v.setHead h { v.head h with witLast := assocSet (v.head h).witLast p (o.num, o.time, o.at_) }

section
variable {s : State} {p : Nat} {rows : List Nat} {o : WitObs} {e : HeadEnt} {w : WitEnt} (he : s.plan.headOfPort p = some e)
  (hw : (s.head e.head).witOf p = some w) (hn : w.ended = true) (h0 : w.fail = 0)
include he hw hn h0

/-- A frame whose every check passes clears STATE where no port's mismatch stands and may take the output LIVE. -/
theorem State.witFrame_passes
    (hf : w.failing rows o (assocGet (s.head e.head).witLast p) (framePs (s.reg .grpRate 0 e.group).toNat / 1000) = []) :
    s.witFrame p rows o =
      let h := e.head
      let v := s.frameChecked h p o
      let x := { v.head h with wit := (v.head h).endWit p w, witPrev := assocDel (v.head h).witPrev p }
      let u := v.setHead h x
      let u := if u.output h = 4 ∨ x.witPrev.isEmpty = false then u else u.setWit h 0
      if (x.witBad == some w.num || x.wit.any fun q => q.num == w.num) = true then u else u.goLive h w := by
  unfold State.witFrame
  simp [he, hw, hn, h0, hf, WitEnt.badRows_of_failing_eq_nil hf, forEach, State.frameChecked]

/-- A frame that fails a check of its own, no row check, is mismatched by its lowest failing check. -/
theorem State.witFrame_fails {c : Nat} {cs : List Nat}
    (hf : w.failing rows o (assocGet (s.head e.head).witLast p) (framePs (s.reg .grpRate 0 e.group).toNat / 1000) = c :: cs)
    (hb : w.badRows rows = []) :
    s.witFrame p rows o =
      let h := e.head
      let m := (s.frameChecked h p o).mismatch h w (cs.foldl min c) 0
      m.setHead h { m.head h with
        wit := (m.head h).endWit p w
        witPrev := if m.output h = 4 then (m.head h).witPrev else assocSet (m.head h).witPrev p ((c :: cs).foldl min 8) } := by
  unfold State.witFrame State.frameChecked
  simp only [he, hw, hn, h0, hf, hb, forEach, List.flatMap_nil, List.foldl_nil, List.headD_nil, Bool.not_true, Bool.false_eq_true, ne_eq,
    not_true, not_false_eq_true, reduceCtorEq, false_or, decide_true, if_true, if_false]

end

/-- The output goes LIVE with a composed frame that is without doubt and has every tile checked at every port. -/
theorem State.goLive_fullyLive {s : State} {h : Nat} {w : WitEnt} (ho : s.output h = 2) (hc : w.composed = true) (hd : w.doubt = false)
    (ht : w.tiles = []) (hu : w.unseen = false) : s.goLive h w = (s.setOutput h 3 0).headEvent h 0x1403 0 (pay [w.since]) := by
  unfold State.goLive
  exact if_pos (by simp [ho, hc, hd, ht, hu])

/-! ### The island (R299) -/

/-- What no round of a loop changes stands after it. -/
theorem forEach_frame {α β : Type} {f : α → State → State} {g : State → β} (hf : ∀ x t, g (f x t) = g t) (xs : List α) (s : State) :
    g (forEach xs f s) = g s :=
  List.foldlRecOn (motive := fun t => g t = g s) xs _ rfl fun t ht x _ => (hf x t).trans ht

/-- What the round of one item establishes and every round keeps holds after the loop. -/
theorem forEach_establishes {α : Type} {f : α → State → State} {P : State → Prop} {x : α} {xs : List α} (hx : x ∈ xs)
    (hest : ∀ t, P (f x t)) (hkeep : ∀ y t, P t → P (f y t)) (s : State) : P (forEach xs f s) := by
  obtain ⟨before, after, rfl⟩ := List.append_of_mem hx
  unfold forEach
  rw [List.foldl_append, List.foldl_cons]
  exact List.foldlRecOn after _ (hest _) fun t ht y _ => hkeep y t ht

@[simp] theorem State.showIsland_fabricUp (s : State) (ok : Bool) : (s.showIsland ok).fabricUp = s.fabricUp :=
  forEach_frame (g := State.fabricUp) (fun _ _ => State.setFld_fabricUp ..) ..

@[simp] theorem State.showIsland_island (s : State) (ok : Bool) : (s.showIsland ok).wdn.island = ok :=
  forEach_frame (g := fun t => t.wdn.island) (fun _ t => congrArg WdnSt.island (State.setFld_wdn t ..)) ..

/-- ISLAND_OK stands in WIT_STATUS; every other register stays. -/
theorem State.showIsland_reg {r : FReg} (hr : r ≠ .witStatus) (s : State) (ok : Bool) (k j : Nat) :
    (s.showIsland ok).reg r k j = s.reg r k j :=
  forEach_frame (g := fun t => t.reg r k j) (fun _ t => State.reg_setFld_ne t hr.symm ..) ..

/-- A write of a field leaves the fields of every other instance's register. -/
theorem State.fld_setFld_otherInst (s : State) (r : FReg) {i i' : Nat} (hi : i ≠ i') (j lo n v j' lo' n' : Nat) :
    (s.setFld r i j lo n v).fld r i' j' lo' n' = s.fld r i' j' lo' n' := by
  unfold State.fld State.setFld
  rw [State.reg_setReg, if_neg fun hk => hi hk.2.1]

/-- Each head of the plan shows ISLAND_OK. -/
theorem State.showIsland_shows {s : State} {e : HeadEnt} (he : e ∈ s.plan.heads) (ok : Bool) :
    (s.showIsland ok).fld .witStatus e.head 0 6 1 = b2n ok := by
  have hbit : b2n ok % 2 ^ 1 = b2n ok := by cases ok <;> decide
  have hself (t : State) : (t.setFld .witStatus e.head 0 6 1 (b2n ok)).fld .witStatus e.head 0 6 1 = b2n ok :=
    (State.fld_setFld_self t _ _ _ _ _ _ (by decide)).trans hbit
  have hmem : e.head ∈ s.plan.heads.map HeadEnt.head := List.mem_map_of_mem he
  unfold State.showIsland
  refine forEach_establishes (f := fun h t => t.setFld .witStatus h 0 6 1 (b2n ok)) (P := fun t => t.fld .witStatus e.head 0 6 1 = b2n ok)
    hmem hself (fun h t ht => ?_) _
  by_cases hh : h = e.head
  · rw [hh]
    exact hself t
  · exact (State.fld_setFld_otherInst t _ hh ..).trans ht

/-- The loss clears ISLAND_OK, drives the out-ports of a die that runs to SAFE and raises the event. -/
theorem State.islandLost_eq (s : State) (reason : Nat) :
    s.islandLost reason = (if s.fabricUp = true then (s.showIsland false).islandSafe else s.showIsland false).emit
      0x1309 0xFFFF 2 (pay [reason, if s.fabricUp = true then ((List.range 64).filter fun p => s.plan.role p == 1).length else 0]) := by
  unfold State.islandLost
  simp only [State.showIsland_fabricUp]

/-- A millisecond without a report, while a frame has been sent all that time, is the loss of the island. -/
theorem State.reportTimeout_lost {s : State} (hu : s.fabricUp = true) (ht : s.wdn.witTick + tickMs ≤ s.ticks)
    (hs : ∃ e ∈ s.plan.heads, ∃ f : FrameSt, (s.head e.head).frame = some f ∧ f.sent = true ∧
      (1000000 ≤ sdiff s.now f.time ∨ 1 < (s.head e.head).sinceMode)) : s.reportTimeout = s.islandLost 1 := by
  obtain ⟨e, he, f, hf, hsent, hlong⟩ := hs
  unfold State.reportTimeout
  refine if_pos ⟨hu, List.any_eq_true.mpr ⟨e, he, ?_⟩, ht⟩
  simpa [hf, hsent] using hlong

/-- Within a millisecond of the last report nothing is lost. -/
theorem State.reportTimeout_early {s : State} (ht : s.ticks < s.wdn.witTick + tickMs) : s.reportTimeout = s := by
  unfold State.reportTimeout
  exact if_neg fun h => Nat.not_le.mpr ht h.2.2

/-- Settles O38: each command goes to its law above by the law of the die it reaches. What the witness decodes at the pads is the command's
operand (log 38). -/
theorem witnessTakesEffect : Obligations.WitnessTakesEffect := by
  refine ⟨?tile, ?mismatch, ?frame, ?ahead, ?live, ?powerLoss, ?lost, ?timeout, ?reported, ?restored, ?island⟩
  case tile =>
    intro s p tile t32 digest fill e w v hl he hw hv check x u
    rw [exec_witnessTileCheck, State.fabric_live hl, State.witTile_compared he hw hv, tileCheck_eq]
  case mismatch =>
    intro s h check tile w hp
    exact State.mismatch_first hp check tile
  case frame =>
    intro s p rows o e w hl he hw hn h fails v
    rw [exec_witnessFrameCheck, State.fabric_live hl]
    refine ⟨fun h0 hf => ?passes, fun c cs h0 hf hb => ?fails⟩
    case passes => rw [State.witFrame_passes he hw hn h0 hf]; rfl
    case fails => rw [State.witFrame_fails he hw hn h0 hf hb, hf]; rfl
  case ahead =>
    intro s p tile t32 digest fill e w hl he hw hv ha
    rw [exec_witnessTileCheck, State.fabric_live hl, State.witTile_ahead he hw hv ha]
  case live =>
    intro s h w
    exact State.goLive_fullyLive
  case powerLoss =>
    intro s hp
    rw [exec_witnessIslandPowerLoss, State.warden_powered hp, State.islandPowerLoss]
  case lost => exact State.islandLost_eq
  case timeout =>
    intro s hl ht hs
    rw [exec_witnessReportTimeout, State.warden_powered hl.1, State.reportTimeout_lost hl.2 ht hs]
  case reported =>
    intro s hp ht
    rw [exec_witnessReportTimeout, State.warden_powered hp, State.reportTimeout_early ht]
  case restored =>
    intro s hp
    rw [exec_witnessIslandRestored, State.warden_powered hp, State.islandRestored]
  case island =>
    intro s ok
    exact ⟨s.showIsland_island ok, fun e he => State.showIsland_shows he ok, fun r k j hr => State.showIsland_reg hr s ok k j⟩

end Sys2Proof.Machine

/-! SUPPORT. Head commands (spec/10): modes (R304 to R307, R314), LUT banks (R326, R328), the start of a head (R319, R320) and ambient light
(R327). -/

namespace Sys2Proof.Machine

/-! ### The start of a head command -/

/-- A command starts on a function that is ON as on one in state 2. -/
theorem State.begun_fnState_of_isOn {s : State} {cap i : Nat} (r : Nat) (e : FEntry) (hn : s.isOn cap i = true) :
    (s.begun r e).fnState cap i = 2 :=
  eq_of_beq ((State.begun_isOn s r e cap i).trans hn)

/-- A function whose state is not 2 as a command starts is not ON. -/
theorem State.isOn_of_begun_fnState {s : State} {r cap i : Nat} {e : FEntry} (h : (s.begun r e).fnState cap i ≠ 2) : s.isOn cap i = false :=
  (State.begun_isOn s r e cap i).symm.trans (beq_false_of_ne h)

/-- Arguments that are not in order end a command at the common checks (R100). -/
theorem State.checked_badArguments {s : State} {r cap : Nat} {objOk argsOk offOk : Bool} {e : FEntry} (hh : s.plan.has cap e.inst = true)
    (ho : objOk = true) (ha : argsOk = false) (f : State → State × Option (Nat × Nat)) :
    checked cap objOk argsOk offOk e (s.begun r e) f = (s.begun r e, some (stBadArgument, 0)) := by
  simp [checked, done, State.begun_plan, hh, ho, ha]

/-! ### MODE_COMMIT (R307, R314) -/

section
variable {s : State} {r host : Nat} {e : FEntry} {p : HeadEnt} (hh : s.plan.has 0x14 e.inst = true) (hp : s.plan.head e.inst = some p)
  (ho : e.object = 0xFFFF)
include hh hp ho

/-- A mode outside the ranges of R307 is a bad argument. -/
theorem modeCommit_outOfRange (hr : modeRanges p (modeArgs e) ((s.begun r e).reg .grpRate 0 p.group).toNat = false) :
    modeCommit host r e (s.begun r e) = (s.begun r e, some (stBadArgument, 0)) := by
  unfold modeCommit
  dsimp only
  rw [State.begun_plan, hp]
  exact State.checked_badArguments hh (beq_of_eq ho) (by rw [hr, Bool.and_false]) _

section
variable (hz : e.zeroFrom 49 52 = true) (hr : modeRanges p (modeArgs e) ((s.begun r e).reg .grpRate 0 p.group).toNat = true)
  (h3 : (s.begun r e).fnState 0x14 e.inst ≠ 3)
include hz hr h3

/-- One in range, on a head that does not shut down, goes by the plan, the lanes and the state of the head. -/
theorem modeCommit_inRange :
    modeCommit host r e (s.begun r e) =
      let u := s.begun r e
      let m := modeArgs e
      let rate := (u.reg .grpRate 0 p.group).toNat
      let on := s.isOn 0x14 e.inst
      if modeBeyond p m rate = true then (u, some (stLimit, 0))
      else if (on && p.ports.any fun q => u.lanesOf q < 4) = true then (u, some (stState, 0))
      else if (!p.ports.all fun q => loadFits m (p.portWidth m) rate 4
          (if on then u.rateOf q else ((s.plan.port q).map PortEnt.rate).getD 0) false) = true then (u, some (stBadArgument, 0))
      else if on = true then (((u.setHead e.inst { u.head e.inst with
          modeNext := some (m, u.now, e.tag), modeDue := u.modeMet e.inst }).setFld .headStatus e.inst 0 8 1 1), some (1, 0))
      else (u.setMode e.inst m false, some (0, 0)) := by
  unfold modeCommit
  dsimp only
  rw [State.begun_plan, hp]
  dsimp only
  rw [State.checked_begun hh (beq_of_eq ho) (by rw [hz, hr]; rfl) rfl, if_neg h3, State.begun_isOn, State.begun_plan]
  rfl

/-- Beyond what the structure plans it is refused. -/
theorem modeCommit_beyond (hb : modeBeyond p (modeArgs e) ((s.begun r e).reg .grpRate 0 p.group).toNat = true) :
    modeCommit host r e (s.begun r e) = (s.begun r e, some (stLimit, 0)) :=
  (modeCommit_inRange hh hp ho hz hr h3).trans (if_pos hb)

section
variable (hb : modeBeyond p (modeArgs e) ((s.begun r e).reg .grpRate 0 p.group).toNat = false)
include hb

/-- A head that is ON without four lanes on each of its ports takes no mode. -/
theorem modeCommit_lanesMissing (hn : s.isOn 0x14 e.inst = true) (hl : (p.ports.any fun q => decide ((s.begun r e).lanesOf q < 4)) = true) :
    modeCommit host r e (s.begun r e) = (s.begun r e, some (stState, 0)) := by
  rw [modeCommit_inRange hh hp ho hz hr h3]
  simp only [hb, hn, hl, Bool.and_self, Bool.false_eq_true, if_false, if_true]

/-- On a head that is ON, whose lanes carry it, it waits for the next latch instant. -/
theorem modeCommit_waits (hn : s.isOn 0x14 e.inst = true) (hl : (p.ports.all fun q => decide (4 ≤ (s.begun r e).lanesOf q)) = true)
    (hf : (p.ports.all fun q => loadFits (modeArgs e) (p.portWidth (modeArgs e)) ((s.begun r e).reg .grpRate 0 p.group).toNat 4
      ((s.begun r e).rateOf q) false) = true) :
    modeCommit host r e (s.begun r e) =
      let u := s.begun r e
      ((u.setHead e.inst { u.head e.inst with
        modeNext := some (modeArgs e, u.now, e.tag), modeDue := u.modeMet e.inst }).setFld .headStatus e.inst 0 8 1 1, some (1, 0)) := by
  have lanes : (p.ports.any fun q => decide ((s.begun r e).lanesOf q < 4)) = false := by
    simpa [List.any_eq_false, List.all_eq_true] using hl
  rw [modeCommit_inRange hh hp ho hz hr h3]
  simp only [hb, hn, lanes, hf, Bool.and_false, Bool.not_true, Bool.false_eq_true, if_false, if_true]

/-- On one in OFF or STARTING, whose planned ports carry it, it is active at once. -/
theorem modeCommit_active (hn : s.isOn 0x14 e.inst = false)
    (hf : (p.ports.all fun q => loadFits (modeArgs e) (p.portWidth (modeArgs e)) ((s.begun r e).reg .grpRate 0 p.group).toNat 4
      (((s.plan.port q).map PortEnt.rate).getD 0) false) = true) :
    modeCommit host r e (s.begun r e) = ((s.begun r e).setMode e.inst (modeArgs e) false, some (0, 0)) := by
  rw [modeCommit_inRange hh hp ho hz hr h3]
  simp only [hb, hn, hf, Bool.false_and, Bool.not_true, Bool.false_eq_true, if_false]

end

end

end

/-! ### LUT banks (R326 to R328) -/

section
variable {s u : State} {r host : Nat} {e : FEntry} (hh : s.plan.has 0x14 e.inst = true) (ho : e.object < 3) (ha : e.arg 32 8 % 64 = 0)
  (hz : e.zeroFrom 40 56 = true)
include hh ho ha hz

/-- The common checks of a command on a LUT bank, which may come in every state of the head. -/
theorem State.checked_lut (f : State → State × Option (Nat × Nat)) :
    checked 0x14 (decide (e.object < 3)) (lutArgs e) true e (s.begun r e) f = f (s.begun r e) :=
  State.checked_begun hh (decide_eq_true ho) (by simp [lutArgs, ha, hz]) rfl

/-- LUT_LOAD of a table that R326 and R328 accept makes it wait for its bank, in the place of one that no latch instant has met. -/
theorem lutLoad_waits {d : List Byte} {t : List Nat} (hl : (s.begun r e).load (headMaster e.inst) (e.arg 32 8) 6144 = (u, .ok d))
    (ht : lutTable d = some t) :
    lutLoad host r e (s.begun r e) =
      let x := u.head e.inst
      (u.setHead e.inst { x with
        lutLoads := x.lutLoads.filter (fun y => y.bank != e.object || u.latchMet e.inst y.at_) ++ [⟨e.object, t, u.now, e.tag⟩] },
        some (1, 0)) := by
  unfold lutLoad
  rw [State.checked_lut hh ho ha hz]
  simp only [hl, ht]
  rfl

/-- The table of a LUT bank in force: the identity where none was loaded (R326). -/
def State.lutInForce (s : State) (h bank : Nat) : List Nat :=
  let t := tabGet [] (s.head h).luts bank
  if t.isEmpty then (List.range 3072).map fun i => i % 1024 else t

/-- LUT_READ whose store is taken has written the bank's table. -/
theorem lutRead_writes (hw : (s.begun r e).store (headMaster e.inst) (e.arg 32 8)
      (((s.begun r e).lutInForce e.inst e.object).flatMap fun v => le 2 v) = (u, true)) :
    lutRead host r e (s.begun r e) = (u, some (0, 0)) := by
  unfold State.lutInForce at hw
  unfold lutRead
  rw [State.checked_lut hh ho ha hz]
  simp only [hw]
  rfl

end

/-! ### The start of a head (R319, R320) -/

/-- Entering a state leaves the state of every other function instance. -/
theorem Bus.fnState_enter_ne (b : Bus) {cap cap' : Nat} (i i' st : Nat) (h : cap' ≠ cap) :
    (b.enter cap i st).fnState cap' i' = b.fnState cap' i' :=
  congrArg (bf · 2 3) (Bus.enter_reg_frame b cap i st fun eq => h (Prod.mk.inj (Prod.mk.inj eq).2).1)

/-- An update that leaves the table of heads leaves each of them. -/
theorem State.head_congr {s t : State} (h : t.heads = s.heads) (k : Nat) : t.head k = s.head k :=
  congrArg (tabGet HeadSt.init · k) h

/-- An update that leaves the shared part leaves the state of each function instance. -/
theorem State.fnState_congr {s t : State} (h : t.bus = s.bus) (cap i : Nat) : t.fnState cap i = s.fnState cap i :=
  congrArg (Bus.fnState · cap i) h

theorem State.setHead_fnState (s : State) (h : Nat) (x : HeadSt) (cap i : Nat) : (s.setHead h x).fnState cap i = s.fnState cap i :=
  State.fnState_congr (State.setHead_bus ..) cap i

/-- A head, its COMPOSE and its FRESH instance enter ON. -/
def State.headOn (s : State) (h : Nat) : State := s.onBus fun b => ((b.enter 0x14 h 2).enter 0x12 h 2).enter 0x13 h 2

theorem State.headOn_fnState (s : State) (h : Nat) :
    (s.headOn h).fnState 0x14 h = 2 ∧ (s.headOn h).fnState 0x12 h = 2 ∧ (s.headOn h).fnState 0x13 h = 2 := by
  unfold State.headOn State.fnState
  rw [State.onBus_bus]
  refine ⟨?head, ?compose, Bus.fnState_enter _ _ _ (by decide)⟩
  case head => rw [Bus.fnState_enter_ne _ _ _ _ (by decide), Bus.fnState_enter_ne _ _ _ _ (by decide), Bus.fnState_enter _ _ _ (by decide)]
  case compose => rw [Bus.fnState_enter_ne _ _ _ _ (by decide), Bus.fnState_enter _ _ _ (by decide)]

theorem State.headOn_head (s : State) (h k : Nat) : (s.headOn h).head k = s.head k := State.head_congr (State.onBus_heads ..) k

/-- What a head that enters ON starts from, at the phase of its mode: its lane check and its first latch instant, fresh and without a
frame. -/
def State.headAtStart (s : State) (h : Nat) (e : HeadEnt) (phase : Nat) : HeadSt :=
  let k := s.firstK e.group (s.now - w32 phase) 1
  { s.head h with
    lane := s.laneCheck h, fresh := true, blanks := 0, skip := false, k := k, next := some (s.instant e.group k + w32 phase),
    cad := some (s.reg .grpAnchor 0 e.group, s.reg .grpPhase 0 e.group, (s.reg .grpRate 0 e.group).toNat, phase),
    posTick := s.ticks, curHide := false, frame := none, baseline := true }

/-- What the registers of a head and of its COMPOSE and FRESH instances show as it enters ON with so many of its units out of service. -/
def State.headShown (s : State) (h : Nat) (e : HeadEnt) (out : Nat) : State :=
  let s := (s.setReg .headFrame h 0 0).setFld .headStatus h 0 10 3 (s.lanesOf e.primary)
  let s := s.setFld .headStatus h 0 13 1 1
  let s := s.setFld .composeStatus h 0 14 4 (thermalRank (s.fld .thmState 0 0 3 5))
  let units := (s.plan.units.filter fun u => u.owner == h).length - out
  let s := (s.setFld .composeStatus h 0 0 8 units).setFld .witStatus h 0 6 1 (b2n s.wdn.island)
  s.setFld .witStatus h 0 0 2 (if e.ports.any s.witSafe then 2 else 0)

section
variable (s : State) (h : Nat) (e : HeadEnt) (out : Nat)

theorem State.headShown_head (k : Nat) : (s.headShown h e out).head k = s.head k :=
  State.head_congr (by simp only [State.headShown, State.setFld_heads, State.setReg_heads]) k

theorem State.headShown_fnState (cap i : Nat) : (s.headShown h e out).fnState cap i = s.fnState cap i :=
  State.fnState_congr (by simp only [State.headShown, State.setFld_bus, State.setReg_bus]) cap i

theorem State.headShown_headFrame : (s.headShown h e out).reg .headFrame h 0 = 0 := by
  simp only [State.headShown, ne_eq, reduceCtorEq, not_false_eq_true, State.reg_setFld_ne, State.reg_setReg_self]

end

/-- A STARTING head with a mode, trained ports and a group at a rate enters ON with its COMPOSE and FRESH instances (log 28). -/
theorem State.headStart_ready {s : State} {h : Nat} {e : HeadEnt} (hp : s.plan.head h = some e) (h1 : s.fnState 0x14 h = 1)
    (hm : (s.head h).mode.isSome = true) (ht : (e.ports.all fun p => s.portState p == 2) = true) (hr : s.reg .grpRate 0 e.group ≠ 0) :
    s.headStart h = ((s.headOn h).setHead h ((s.headOn h).headAtStart h e (((s.head h).mode.map ModeSt.phase).getD 0))).headShown h e
      (s.head h).unitsOut.length := by
  have rate : (s.reg .grpRate 0 e.group).toNat ≠ 0 := fun h0 => hr (BitVec.eq_of_toNat_eq h0)
  have starts : ¬ (s.fnState 0x14 h ≠ 1 ∨ (s.head h).mode.isNone = true ∨ (!e.ports.all fun p => s.portState p == 2) = true ∨
      (s.reg .grpRate 0 e.group).toNat = 0) := by
    rw [h1, ht, Option.isNone_eq_false_iff.mpr hm]
    simp [rate]
  unfold State.headStart
  rw [hp]
  exact if_neg starts

/-! ### Ambient light (R327) -/

section
variable {s : State} {h : Nat}

/-- The dwell time has not passed since the last step of the bank. -/
def State.stepEarly (s : State) (h : Nat) : Bool :=
  match (s.head h).stepTick with
  | some t => decide (s.ticks < t + (s.head h).ambDwell)
  | none => false

/-- Dwell run i, as long as the dwell time. -/
def State.dwelled (s : State) (h i : Nat) : Bool :=
  match (s.head h).amb.getD i none with
  | some t => decide (t + (s.head h).ambDwell ≤ s.ticks)
  | none => false

/-- The bank that follows on a bank: a step up goes before a step down. -/
def State.nextBank (s : State) (h bank : Nat) : Option Nat :=
  if bank = 0 ∧ s.dwelled h 0 = true then some 1
  else if bank = 1 ∧ s.dwelled h 2 = true then some 2
  else if bank = 1 ∧ s.dwelled h 1 = true then some 0
  else if bank = 2 ∧ s.dwelled h 3 = true then some 1
  else none

/-- AMBIENT_DWELL_MET by the runs: nothing on a head that is not ON, whose bank is set by hand, or that has just stepped. -/
theorem State.dwellMet_eq :
    s.dwellMet h =
      if (!s.isOn 0x14 h) = true ∨ bit (s.reg .headCtl h 0) 1 = true ∨ s.stepEarly h = true then s
      else match s.nextBank h ((s.head h).bankNext.getD (s.fld .headStatus h 0 6 2)) with
        | some n => s.setHead h { s.head h with bankNext := some n, stepTick := some s.ticks }
        | none => s := rfl

/-- The bank of a head that is ON and follows the light goes where its dwell runs lead. -/
theorem State.dwellMet_next {n : Nat} (hn : s.isOn 0x14 h = true) (hc : bit (s.reg .headCtl h 0) 1 = false) (he : s.stepEarly h = false)
    (hg : s.nextBank h ((s.head h).bankNext.getD (s.fld .headStatus h 0 6 2)) = some n) :
    s.dwellMet h = s.setHead h { s.head h with bankNext := some n, stepTick := some s.ticks } := by
  have follows : ¬ ((!s.isOn 0x14 h) = true ∨ bit (s.reg .headCtl h 0) 1 = true ∨ s.stepEarly h = true) := by simp [hn, hc, he]
  rw [State.dwellMet_eq, if_neg follows, hg]

theorem State.stepEarly_false (he : ∀ t, (s.head h).stepTick = some t → t + (s.head h).ambDwell ≤ s.ticks) : s.stepEarly h = false := by
  unfold State.stepEarly
  split
  · next t ht => exact decide_eq_false (Nat.not_lt.mpr (he t ht))
  · rfl

theorem State.dwelled_run {i t : Nat} (ha : (s.head h).amb.getD i none = some t) (ht : t + (s.head h).ambDwell ≤ s.ticks) :
    s.dwelled h i = true := by
  unfold State.dwelled
  rw [ha]
  exact decide_eq_true ht

theorem State.dwelled_none {i : Nat} (ha : (s.head h).amb.getD i none = none) : s.dwelled h i = false := by
  unfold State.dwelled
  rw [ha]

/-- Where a run that is long enough leads from a bank: up from 0 and 1, down from 1 where nothing leads up, and down from 2. -/
theorem State.nextBank_run {bank i n t : Nat}
    (hs : (bank = 0 ∧ i = 0 ∧ n = 1) ∨ (bank = 1 ∧ i = 2 ∧ n = 2) ∨ (bank = 1 ∧ i = 1 ∧ n = 0 ∧ (s.head h).amb.getD 2 none = none) ∨
      (bank = 2 ∧ i = 3 ∧ n = 1)) (ha : (s.head h).amb.getD i none = some t) (ht : t + (s.head h).ambDwell ≤ s.ticks) :
    s.nextBank h bank = some n := by
  have run := State.dwelled_run ha ht
  unfold State.nextBank
  obtain ⟨rfl, rfl, rfl⟩ | ⟨rfl, rfl, rfl⟩ | ⟨rfl, rfl, rfl, up⟩ | ⟨rfl, rfl, rfl⟩ := hs
  · simp [run]
  · simp [run]
  · simp [run, State.dwelled_none up]
  · simp [run]

/-- After a second without a reading the reading is no longer valid, and no run goes on. -/
theorem State.ambientTimeout_due {t : Nat} (ha : (s.head h).ambTick = some t) (ht : t + 200000000 ≤ s.ticks) :
    s.ambientTimeout h =
      (s.setFld .headAmbient h 0 16 1 0).setHead h { s.head h with ambTick := none, amb := [none, none, none, none] } := by
  unfold State.ambientTimeout
  simp only [ha]
  exact if_pos ht

end

/-- Settles O35: each ring command goes by the law of a ripe command to what its performer gives above, the start of a head and the ambient
light by the law of the fabric die. The order of MODE_COMMIT's checks and HEAD_FRAME at a start are the model's choice (log 28). -/
theorem headCommandsTakeEffect : Obligations.HeadCommandsTakeEffect := by
  refine ⟨?mode, ?refuses, ?load, ?read, ?start, ?steps, ?timeout⟩
  case mode =>
    intro s r k e p h hh hp ho hz u m rate hr hb
    have onState (hn : s.isOn 0x14 e.inst = true) : u.fnState 0x14 e.inst ≠ 3 := by rw [State.begun_fnState_of_isOn r e hn]; decide
    refine ⟨fun hn hl hf => ?waits, fun hn hl => ?lanes, fun h01 hf => ?active⟩
    case waits => exact State.fabric_done h (modeCommit_waits hh hp ho hz hr (onState hn) hb hn hl hf)
    case lanes => exact State.fabric_done h (modeCommit_lanesMissing hh hp ho hz hr (onState hn) hb hn hl)
    case active =>
      have h3 : u.fnState 0x14 e.inst ≠ 3 := by omega
      have hn : s.isOn 0x14 e.inst = false := State.isOn_of_begun_fnState (show u.fnState 0x14 e.inst ≠ 2 by omega)
      exact State.fabric_done h (modeCommit_active hh hp ho hz hr h3 hb hn hf)
  case refuses =>
    intro s r k e p h hh hp ho hz u m rate
    exact ⟨fun hr => State.fabric_done h (modeCommit_outOfRange hh hp ho hr),
      fun hr h3 hb => State.fabric_done h (modeCommit_beyond hh hp ho hz hr h3 hb)⟩
  case load =>
    intro s u r k e d t h hh ho ha hz hl ht x
    exact State.fabric_done h (lutLoad_waits hh ho ha hz hl ht)
  case read =>
    intro s u r k e h hh ho ha hz t _ hw
    exact State.fabric_done h (lutRead_writes hh ho ha hz hw)
  case start =>
    intro s h e m hl hp h1 hm ht hr
    obtain ⟨headOn, composeOn, freshOn⟩ := s.headOn_fnState h
    refine ⟨_, by rw [exec_headStartReady, State.fabric_live hl, State.headStart_ready hp h1 (by rw [hm]; rfl) ht hr], ?_⟩
    simp only [State.headShown_fnState, State.headShown_head, State.headShown_headFrame, State.setHead_fnState, State.head_setHead_self]
    refine ⟨headOn, composeOn, freshOn, ?mode, rfl, rfl, trivial, fun h' hne => ?others⟩
    case mode => exact (congrArg HeadSt.mode (s.headOn_head h h)).trans hm
    case others => rw [State.head_setHead, if_neg (Ne.symm hne), State.headOn_head]
  case steps =>
    intro s h i n t hl hn hc dwell bank he hs ha ht
    rw [exec_ambientDwellMet, State.fabric_live hl, State.dwellMet_next hn hc (State.stepEarly_false he) (State.nextBank_run hs ha ht)]
  case timeout =>
    intro s h t hl ha ht
    rw [exec_ambientTimeout, State.fabric_live hl, State.ambientTimeout_due ha ht]

end Sys2Proof.Machine

/-! SUPPORT. Steps and the state after reset (spec/95; spec/15 R472), what a command keeps of queue, time and wire, and what a hot stack
counts as (spec/17 R544). -/

namespace Sys2Proof.Machine

/-- Settles O1. -/
theorem stepRunsTheFrontCommand : Obligations.StepRunsTheFrontCommand := fun _ _ _ => rfl

/-- Settles O3: whichever die or window answers a command, it answers with a next state. -/
theorem everyCommandAnswersANextState : Obligations.EveryCommandAnswersANextState := by
  intro c s
  cases c <;> exact ⟨_, rfl⟩

/-- Settles O7: what every command keeps (`exec_keeps`), read off for the queue, time and the wire. -/
theorem commandKeepsQueueTimeAndWire : Obligations.CommandKeepsQueueTimeAndWire := by
  intro c s t h
  obtain ⟨⟨_, ticks, free, wire⟩, _, queue⟩ := exec_keeps c s t h
  exact ⟨queue, ticks, free, wire⟩

/-- Settles O5. That memory lists nothing, that the queue is empty and that the module is powered are the model's choice (log 2, 5 and 7). -/
theorem resetMeetsTheInvariants : Obligations.ResetMeetsTheInvariants := by
  refine ⟨rfl, rfl, rfl, rfl, rfl, rfl, rfl, by decide, fun cap inst => ?off, by decide⟩
  case off =>
    show bf (BReg.reset .fnCtl cap inst) 2 3 = 0
    unfold BReg.reset
    dsimp only
    split <;> decide

/-! ### What a stack reading counts as (R544) -/

/-- The hotter stack's reading, as throttling takes it. -/
def State.hotStack (s : State) : Int := max (s.stackTemp 0) (s.stackTemp 1)

theorem State.stackTemp_le_hotStack (s : State) {k : Nat} (hk : k < 2) : s.stackTemp k ≤ s.hotStack := by
  obtain rfl | rfl : k = 0 ∨ k = 1 := by omega
  · exact le_max_left ..
  · exact le_max_right ..

theorem State.effTemp_of_crit {s : State} (h : 110 ≤ s.hotStack) : s.effTemp = max s.tempMax (max s.warnTemp s.critTemp) := by
  unfold State.effTemp
  exact congrArg (max s.tempMax) (if_pos h)

theorem State.effTemp_of_warn {s : State} (h : 105 ≤ s.hotStack) (h' : s.hotStack < 110) : s.effTemp = max s.tempMax s.warnTemp := by
  unfold State.effTemp
  exact congrArg (max s.tempMax) ((if_neg (not_le.mpr h')).trans (if_pos h))

theorem State.effTemp_of_cool {s : State} (h : s.hotStack < 105) : s.effTemp = s.tempMax := by
  unfold State.effTemp
  exact (congrArg (max s.tempMax) ((if_neg (by show ¬ 110 ≤ s.hotStack; omega)).trans (if_neg (not_le.mpr h)))).trans (max_self _)

/-- Settles O55. -/
theorem hotStackCounts : Obligations.HotStackCounts := by
  intro s k hk
  have hot := s.stackTemp_le_hotStack hk
  refine ⟨fun h => ?warn, fun h => ?crit, fun h0 h1 => State.effTemp_of_cool (max_lt h0 h1)⟩
  case warn =>
    by_cases h' : 110 ≤ s.hotStack
    · rw [State.effTemp_of_crit h']
      exact max_le_max_left _ (le_max_left ..)
    · exact (State.effTemp_of_warn (h.trans hot) (not_le.mp h')).ge
  case crit =>
    rw [State.effTemp_of_crit (h.trans hot)]
    exact max_le_max_left _ (le_max_right ..)

end Sys2Proof.Machine

/-! SUPPORT. THM_CMD (spec/17 R560) and the SMBus target (spec/18 R573, R574). -/

namespace Sys2Proof.Machine

/-! ### THM_CMD (R560) -/

/-- The fields of a THM_CMD word. -/
theorem bf_thmCmd {key op : Nat} (hk : key < 65536) (ho : op < 256) :
    bf (w32 (key * 65536 + op)) 16 16 = key ∧ bf (w32 (key * 65536 + op)) 0 8 = op := by
  unfold bf w32
  simp only [BitVec.toNat_ofNat, Nat.shiftRight_eq_div_pow]
  constructor <;> omega

section
variable {s : State} {port : Nat} (hr : s.reached port 0x33 0)
include hr

/-- A write without the key, or of another OP, is ignored and counted. -/
theorem State.thmCmdWrite_ignored {v : Word} (hv : bf v 16 16 ≠ 0x7264 ∨ (bf v 0 8 ≠ 1 ∧ bf v 0 8 ≠ 2)) :
    s.thmCmdWrite port v = (s.regWriteRec port 0x33 0 0 0x1C v).onBus fun b => b.bump .coreBadAccess port 0 1 := by
  unfold State.thmCmdWrite State.thmCmd
  rw [State.hostWrite_reached hr]
  exact if_pos hv

/-- A write with the key of OP 1 or 2 resets. -/
theorem State.thmCmdWrite_resets {op : Nat} (ho : op = 1 ∨ op = 2) :
    s.thmCmdWrite port (w32 (0x7264 * 65536 + op)) =
      (s.regWriteRec port 0x33 0 0 0x1C (w32 (0x7264 * 65536 + op))).writtenReset op 2 := by
  obtain ⟨hkey, hop⟩ := bf_thmCmd (key := 0x7264) (op := op) (by decide) (by omega)
  have acts : ¬ (bf (w32 (0x7264 * 65536 + op)) 16 16 ≠ 0x7264 ∨
      (bf (w32 (0x7264 * 65536 + op)) 0 8 ≠ 1 ∧ bf (w32 (0x7264 * 65536 + op)) 0 8 ≠ 2)) := by rw [hkey, hop]; omega
  unfold State.thmCmdWrite State.thmCmd
  rw [State.hostWrite_reached hr]
  exact (if_neg acts).trans (by rw [hop])

end

/-- Without a partner to serve, a written reset is made at once. -/
theorem State.writtenReset_alone {t : State} (h : t.plan.tandem = none ∨ (t.role ≠ 3 ∧ t.role ≠ 5)) (kind cause : Nat) :
    t.writtenReset kind cause = t.resetTo kind cause t.wdn.straps := by
  unfold State.writtenReset
  refine if_neg fun ⟨ht, hrole, _⟩ => ?_
  obtain h | ⟨h3, h5⟩ := h
  · rw [h] at ht; exact Bool.false_ne_true ht
  · exact hrole.elim h3 h5

/-- The ACTIVE of a pair declares itself failed first, and the reset waits (R536). -/
theorem State.writtenReset_pair {t : State} (ht : t.plan.tandem.isSome = true) (hrole : t.role = 3 ∨ t.role = 5) (hu : t.fabricUp = true)
    (kind cause : Nat) : t.writtenReset kind cause = t.toFailed.setTnd { t.toFailed.tnd with resetDue := some (kind, cause) } := by
  unfold State.writtenReset
  exact if_pos ⟨ht, hrole, hu⟩

/-- Settles O56. That HANDING_OVER counts as ACTIVE is the model's reading of R536. -/
theorem thmCmdActs : Obligations.ThmCmdActs := by
  intro s port key hl hr hk alone pair
  refine ⟨⟨?warm, ?warmPair, ?warmIgnored⟩, ⟨?fabric, ?fabricPair, ?fabricIgnored⟩, fun v hv => State.thmCmdWrite_ignored hr hv⟩
  case warm =>
    rintro rfl ha
    rw [exec_warmReset, State.fabric_live hl, State.thmCmdWrite_resets hr (.inl rfl), State.writtenReset_alone ha]
  case warmPair =>
    rintro rfl ⟨ht, hrole⟩ hu
    rw [exec_warmReset, State.fabric_live hl, State.thmCmdWrite_resets hr (.inl rfl), State.writtenReset_pair ht hrole hu]
  case warmIgnored =>
    intro hn
    rw [exec_warmReset, State.fabric_live hl, State.thmCmdWrite_ignored hr (.inl ((bf_thmCmd hk (by decide : 1 < 256)).1.trans_ne hn))]
  case fabric =>
    rintro rfl ha
    rw [exec_fabricReset, State.fabric_live hl, State.thmCmdWrite_resets hr (.inr rfl), State.writtenReset_alone ha]
  case fabricPair =>
    rintro rfl ⟨ht, hrole⟩ hu
    rw [exec_fabricReset, State.fabric_live hl, State.thmCmdWrite_resets hr (.inr rfl), State.writtenReset_pair ht hrole hu]
  case fabricIgnored =>
    intro hn
    rw [exec_fabricReset, State.fabric_live hl, State.thmCmdWrite_ignored hr (.inl ((bf_thmCmd hk (by decide : 2 < 256)).1.trans_ne hn))]

/-! ### SMBus (R573, R574) -/

section
variable {s : State}

theorem State.smbRead_none (h : findReg 0x33 false s.wdn.pointer = none) :
    s.smbRead = (s.setWdn { s.wdn with pointer := (s.wdn.pointer + 4) % 2 ^ 32 }).smb true (le 4 0) := by
  unfold State.smbRead
  rw [h]
  rfl

theorem State.smbRead_fn {row : RegRow} {j : Nat} {r : FReg} (h : findReg 0x33 false s.wdn.pointer = some (row, j)) (ha : row.acc ≠ .wo)
    (hr : row.reg = .fn r) :
    s.smbRead = (s.setWdn { s.wdn with pointer := (s.wdn.pointer + 4) % 2 ^ 32 }).smb true (le 4 (s.reg r 0 j).toNat) := by
  unfold State.smbRead
  simp only [h, if_neg ha, hr]

/-- A block write elsewhere, or without good PEC, is not acknowledged. -/
theorem State.smbWrite_refused {pec : Bool} (h : pec = false ∨ s.wdn.pointer ≠ 0x1C) (v : Word) : s.smbWrite v pec = s.smb false [] := by
  unfold State.smbWrite
  exact if_pos (h.imp_left fun e => by rw [e]; rfl)

theorem State.smbWrite_thmCmd (hp : s.wdn.pointer = 0x1C) (v : Word) :
    s.smbWrite v true = if bf v 16 16 ≠ 0x7264 ∨ (bf v 0 8 ≠ 1 ∧ bf v 0 8 ≠ 2) then s.smb true []
      else (s.smb true []).writtenReset (bf v 0 8) 2 := by
  unfold State.smbWrite
  exact if_neg (by simp [hp])

theorem State.smbReset_refused {d : Nat} {pec : Bool} (h : d ≠ 0x72 ∨ pec = false) : s.smbReset d pec = s.smb false [] := by
  unfold State.smbReset
  refine if_neg fun ⟨hp, hd⟩ => h.elim (fun n => n hd) fun n => ?_
  rw [n] at hp
  exact Bool.false_ne_true hp

end

/-- Settles O51. -/
theorem smbusTakesEffect : Obligations.SmbusTakesEffect := by
  refine ⟨?pointer, ?read, ?write, ?reset, ?alert⟩
  case pointer =>
    intro s off hp
    constructor <;> rw [exec_smbusSetPointer, State.warden_powered hp] <;> rfl
  case read =>
    intro s hp u
    exact ⟨fun row j r h ha hr => by rw [exec_smbusRead, State.warden_powered hp, State.smbRead_fn h ha hr],
      fun h => by rw [exec_smbusRead, State.warden_powered hp, State.smbRead_none h]⟩
  case write =>
    intro s v hp
    refine ⟨?unsound, fun h => ?elsewhere, fun h hk ho => ?acts, fun h hn => ?ignored⟩ <;> rw [exec_smbusWrite, State.warden_powered hp]
    case unsound => rw [State.smbWrite_refused (.inl rfl)]
    case elsewhere => rw [State.smbWrite_refused (.inr h)]
    case acts => rw [State.smbWrite_thmCmd h, if_neg (by omega)]
    case ignored => rw [State.smbWrite_thmCmd h, if_pos hn]
  case reset =>
    intro s hp
    exact ⟨by rw [exec_smbusReset, State.warden_powered hp]; rfl, fun d pec h => by rw [exec_smbusReset, State.warden_powered hp, State.smbReset_refused h]⟩
  case alert =>
    intro s hp
    refine ⟨fun h => ?holds, fun hf hl => ?idle⟩ <;> rw [exec_smbusAlertResponse, State.warden_powered hp] <;> unfold State.smbAlert
    case holds => rw [if_pos h]
    case idle => rw [if_neg (by simp [hf, hl])]

end Sys2Proof.Machine

/-! SUPPORT. The journal (spec/16): checkpoints (R501 to R505, R521), the flight recorder (R506, R508) and the commands of JOURNAL (R506 to
R508, R530). -/

namespace Sys2Proof.Machine

/-! ### Checkpoints (R504, R505, R521) -/

section
variable {s : State}

/-- A checkpoint that is due, with none open, writes its record and its data. -/
theorem State.ckptStart_due (hn : s.isOn 0x31 0 = true) (hr : s.jrn.run = none) (ht : s.jrn.nextTick ≤ s.ticks) :
    s.ckptStart =
      let due := s.setJrn { s.jrn with nextTick := s.ticks + s.bus.fld .jrnXCkpt 0 0 0 16 * tickMs }
      let cut := s.bus.reg .jrnSeq 0 0
      let data := ckptEncode due.ckpt
      let u := due.jrnDrain
      let begun := u.journal 0x11 0x31 0 (le 4 cut.toNat ++ le 4 data.length ++ le 4 (u.reg .structHash 0 0).toNat ++
        le 4 (u.reg .structHash 0 1).toNat ++ le 4 u.epoch ++ le 4 0)
      let left := max 1 begun.jrnSize - begun.jrn.span % max 1 begun.jrnSize
      let pos := if left < 48 then begun.jrn.span + left else begun.jrn.span
      let w := begun.jrnDrain.jrnWrite (padTo 16 data)
      let v := w.1.onBus fun b => b.setFld .jrnStatus 0 0 2 1 1
      (v.setJrn { v.jrn with run := some ⟨pos, cut, v.ticks, data, w.2⟩ }).frCopy := by
  have due : ¬ ((!s.isOn 0x31 0) = true ∨ s.jrn.run.isSome = true ∨ s.ticks < s.jrn.nextTick) := by simp [hn, hr, ht]
  unfold State.ckptStart
  exact if_neg due

section
variable {c : CkptRun} (hr : s.jrn.run = some c)
include hr

/-- A sound checkpoint in time is closed, and its registers show it. -/
theorem State.ckptEnd_inTime (hs : c.sound = true) (ht : s.ticks ≤ c.tick + s.bus.fld .jrnXCkpt 0 0 0 16 * tickMs) :
    s.ckptEnd =
      let v := (s.journal 0x12 0x31 0 (le 8 (jrnl64 c.data) ++ le 4 c.data.length)).jrnDrain
      let offs := match v.jrn.fr with
        | some f => if f.start ≤ c.pos then assocSet v.jrn.frCkpts f.slot (((assocGet v.jrn.frCkpts f.slot).getD []) ++ [c.pos - f.start])
          else v.jrn.frCkpts
        | none => v.jrn.frCkpts
      let t := v.setJrn { v.jrn with run := none, ckpts := v.jrn.ckpts ++ [⟨c.pos, c.cut, c.tick⟩], frCkpts := offs }
      t.onBus fun b => (((b.setFld .jrnStatus 0 0 2 1 0).setReg .jrnCkptSeq 0 0 c.cut).setReg .jrnCkptOfs 0 0
        (w32 (c.pos % max 1 t.jrnSize))).setReg .jrnCkptLen 0 0 (w32 c.data.length) := by
  have inTime : ¬ ((!c.sound) = true ∨ c.tick + s.bus.fld .jrnXCkpt 0 0 0 16 * tickMs < s.ticks) := by simp [hs, ht]
  unfold State.ckptEnd
  rw [hr]
  exact if_neg inTime

/-- Where the checkpoint is closed, a partner that waits for one is fed it. -/
theorem State.ckptEndFeed_closed (he : s.ckptEnd.jrn.run = none) :
    s.ckptEndFeed = if s.ckptEnd.tnd.feed = 1 then s.ckptEnd.feedCkpt c.cut c.data else s.ckptEnd.feedRecords := by
  unfold State.ckptEndFeed
  rw [hr]
  simp only [he, Option.isNone_none, true_and]

theorem State.ckptAbandoned_late (ht : c.tick + s.bus.fld .jrnXCkpt 0 0 0 16 * tickMs < s.ticks) :
    s.ckptAbandoned =
      ((s.setJrn { s.jrn with run := none }).onBus fun b => b.setFld .jrnStatus 0 0 2 1 0).emit 0x3105 0 1 (pay [c.cut.toNat]) := by
  unfold State.ckptAbandoned
  rw [hr]
  exact if_neg (by omega)

end

end

/-- Settles O42: the start and the end of a checkpoint go by the laws above. The readings of log 42, 43, 52 and 55 are the model's. -/
theorem checkpointsTakeEffect : Obligations.CheckpointsTakeEffect := by
  refine ⟨fun s hl => ?drains, ?start, ?ends, ?abandoned⟩
  case drains => rw [exec_journalRingWrite, State.fabric_live hl]; rfl
  case start =>
    intro s hl hn hr ht
    exact (exec_checkpointStart s).trans (State.fabric_to hl (State.ckptStart_due hn hr ht))
  case ends =>
    intro s c hl hr hs ht v inSlot offs t u
    have closed : s.ckptEnd = u := State.ckptEnd_inTime hr hs ht
    rw [exec_checkpointEnd, State.fabric_live hl, State.ckptEndFeed_closed hr (by rw [closed]; rfl), closed]
  case abandoned =>
    intro s c hl hr ht
    rw [exec_ckptAbandoned, State.fabric_live hl, State.ckptAbandoned_late hr ht]

/-! ### The flight recorder (R506, R508) -/

section
variable {s : State}

theorem State.frTrigger_oldest {cause tick : Nat} {t : Word} {wait : Option (Nat × Nat)}
    {rest : List (Nat × Word × Nat × Option (Nat × Nat))} (h : s.jrn.trigs = (cause, t, tick, wait) :: rest) :
    s.frTrigger =
      let u := s.setJrn { s.jrn with trigs := rest }
      match s.jrn.fr with
      | some f => u.frCount f wait
      | none => u.frStart cause t tick wait := by
  unfold State.frTrigger
  rw [h]
  rfl

theorem State.frFree_setJrn (j : JrnSt) : (s.setJrn j).frFree = s.frFree := rfl

theorem State.frStart_free {i : Nat} (h : s.frFree = some i) (cause : Nat) (t : Word) (tick : Nat) (wait : Option (Nat × Nat)) :
    s.frStart cause t tick wait = s.frOpen i cause t tick wait := by
  unfold State.frStart
  rw [h]

theorem State.frStart_full (h : s.frFree = none) (cause : Nat) (t : Word) (tick : Nat) (wait : Option (Nat × Nat)) :
    s.frStart cause t tick wait = s.frLost cause wait := by
  unfold State.frStart
  rw [h]

/-- A slot that is full, or whose POST_S have passed, is frozen. -/
theorem State.frFrozen_due {f : FrRun} (hf : s.jrn.fr = some f)
    (ht : f.full = true ∨ f.tick + s.bus.fld .jrnXFr 0 0 16 16 * tickS ≤ s.ticks) :
    s.frFrozen =
      let u := s.setJrn { s.jrn with fr := none, frLen2 := assocSet s.jrn.frLen2 f.slot f.len2 }
      let u := u.onBus fun b => (b.setFld .frStatus 0 0 (4 + f.slot) 1 0).setFld .frStatus 0 0 f.slot 1 1
      let u := u.emit 0x3102 0 0 (pay [f.slot, u.bus.fld .frSlotCause 0 f.slot 0 8, (u.bus.reg .frSlotLen 0 f.slot).toNat])
      let u := forEach f.waits (fun w s => s.complete w.1 w.2 0 0) u
      if u.bus.fld .jrnCtl 0 0 2 1 = 1 then (u.setJrn { u.jrn with dumpQ := u.jrn.dumpQ ++ [f.slot] }).dumpNext else u := by
  have frozen : ¬ ((!f.full) = true ∧ s.ticks < f.tick + s.bus.fld .jrnXFr 0 0 16 16 * tickS) := fun ⟨hfull, hearly⟩ =>
    ht.elim (fun h => by rw [h] at hfull; exact Bool.false_ne_true hfull) fun h => by omega
  unfold State.frFrozen
  rw [hf]
  exact if_neg frozen

theorem State.dumpNext_running (h : s.jrn.dump.isSome = true) : s.dumpNext = s := by
  unfold State.dumpNext
  exact if_pos h

theorem State.dumpNext_idle (h : s.jrn.dump = none) :
    s.dumpNext = match s.jrn.dumpQ.filter fun i => (s.bus.fld .frStatus 0 0 0 4).testBit i with
      | [] => s.setJrn { s.jrn with dumpQ := [] }
      | i :: rest =>
        let ok : Bool := s.fld .thmState 0 0 10 1 == 1
        let s := if ok then s else s.storeRefused 3
        s.setJrn { s.jrn with dump := some { slot := i, which := s.bus.fld .frStatus 0 0 8 2, cmd := none, held := !ok }, dumpQ := rest } := by
  unfold State.dumpNext
  exact if_neg (by rw [h]; exact Bool.false_ne_true)

/-- The warden's copy of a slot ends in the dump slot. -/
theorem State.frDumped_copied {u : State} {d : DumpRun} {b : List Byte} (hd : s.jrn.dump = some d) (ht : s.fld .thmState 0 0 10 1 = 1)
    (hl : s.load 152 (s.frAddr d.slot + (s.dumpSpan d.slot).1) (s.dumpSpan d.slot).2 = (u, .ok b)) :
    s.frDumped =
      let v := (({ u with flash := { u.flash with dumps := u.flash.dumps.set d.which b } } : State).dumpEnds (some d.which)).emit
        0x3104 0 0 (pay [d.slot, d.which, b.length])
      match d.cmd with
      | some w => v.complete w.1 w.2 stOk 0
      | none => v := by
  unfold State.frDumped
  rw [hd]
  refine (if_neg (by rw [ht]; decide)).trans ?_
  dsimp only
  rw [hl] <;> rfl

end

/-- Settles O43. The readings of log 52 are the model's. -/
theorem flightRecorderTakesEffect : Obligations.FlightRecorderTakesEffect := by
  refine ⟨?trigger, ?frozen, ?next, ?dumped⟩
  case trigger =>
    intro s cause tick t wait rest hl hq u
    rw [exec_frTrigger, State.fabric_live hl, State.frTrigger_oldest hq]
    refine ⟨fun f hf => ?counts, ?opens, fun hf hi => ?lost⟩
    case counts => rw [hf]; rfl
    case opens =>
      intro i hf hi early c hc start v
      subst hc
      rw [hf]
      dsimp only
      rw [State.frStart_free (s := u) hi]
      rfl
    case lost =>
      rw [hf]
      dsimp only
      rw [State.frStart_full (s := u) hi]
      rfl
  case frozen =>
    intro s f hl hf ht u0 u1 u2 u
    refine ⟨fun hn => ?kept, fun hn => ?dumps⟩ <;> rw [exec_frFrozen, State.fabric_live hl, State.frFrozen_due hf ht]
    case kept => exact congrArg (fun t : State => Host.Outcome.next t.watch.settle) (if_neg (by rw [hn]; decide))
    case dumps => exact congrArg (fun t : State => Host.Outcome.next t.watch.settle) (if_pos hn)
  case next =>
    intro u waits
    refine ⟨State.dumpNext_running, fun hd hw => ?none, fun i rest hd hw ht => ?some⟩ <;> rw [State.dumpNext_idle hd]
    case none => rw [show (u.jrn.dumpQ.filter fun i => (u.bus.fld .frStatus 0 0 0 4).testBit i) = [] from hw]
    case some =>
      rw [show (u.jrn.dumpQ.filter fun i => (u.bus.fld .frStatus 0 0 0 4).testBit i) = i :: rest from hw]
      simp only [ht, beq_self_eq_true, if_true, Bool.not_true]
  case dumped =>
    intro s u d b hl hd ht hb
    rw [exec_frDumped, State.fabric_live hl, State.frDumped_copied hd ht hb]
    rfl

/-! ### The commands of JOURNAL (R506 to R508, R530) -/

section
variable {s : State} {r host : Nat} {e : FEntry} (hh : s.plan.has 0x31 e.inst = true) (hn : s.isOn 0x31 e.inst = true)
  (ho : e.object = 0xFFFF)
include hh hn ho

theorem freeze_begun (hz : e.zeroFrom 32 56 = true) : freeze host r e (s.begun r e) = ((s.begun r e).trigger 3 (some (r, e.k)), none) :=
  State.checked_on hh hn ho hz

theorem release_begun (hz : e.zeroFrom 33 56 = true) (hi : byteAt e.data 32 < 4) :
    release host r e (s.begun r e) =
      let i := byteAt e.data 32
      let st := (s.begun r e).bus.fld .frStatus 0 0 0 8
      if st.testBit (i + 4) = true then (s.begun r e, some (stBusy, 0))
      else if (!st.testBit i) = true then (s.begun r e, some (stState, 0))
      else ((s.begun r e).onBus fun b => b.setFld .frStatus 0 0 i 1 0, some (0, 0)) := by
  unfold release
  exact State.checked_on hh hn ho (by rw [hz, decide_eq_true hi]; rfl)

theorem dump_begun (hz : e.zeroFrom 34 56 = true) (hi : byteAt e.data 32 < 4) (hd : byteAt e.data 33 < 2) :
    dump host r e (s.begun r e) =
      let u := s.begun r e
      if (!(u.bus.fld .frStatus 0 0 0 4).testBit (byteAt e.data 32)) = true then (u, some (stState, 0))
      else if u.jrn.dump.isSome = true then (u, some (stBusy, 0))
      else if u.fld .thmState 0 0 10 1 = 0 then (u.storeRefused 3, some (stTemp, 0))
      else (u.setJrn { u.jrn with
        dump := some { slot := byteAt e.data 32, which := byteAt e.data 33, cmd := some (r, e.k), held := false } }, none) := by
  unfold dump
  exact State.checked_on hh hn ho (by rw [hz, decide_eq_true hi, decide_eq_true hd]; rfl)

theorem mark_begun (hz : e.zeroFrom 48 56 = true) :
    mark host r e (s.begun r e) =
      ((s.begun r e).journal 0x13 0x31 0 (le 1 host ++ le 3 0 ++ slice e.data 32 16), some (0, 0)) :=
  State.checked_on hh hn ho hz

end

/-- Settles O44. The statuses of a slot that is not frozen are the model's choice (log 52). -/
theorem journalCommandsTakeEffect : Obligations.JournalCommandsTakeEffect := by
  refine ⟨?freeze, ?release, ?dump, ?mark⟩
  case freeze =>
    intro s r k e h hh hn ho hz
    exact State.fabric_goes h (freeze_begun hh hn ho hz)
  case release =>
    intro s r k e h hh hn ho hz hi i st
    have begun := release_begun (r := r) (host := (s.plan.ringHost r).getD 0) hh hn ho hz hi
    refine ⟨fun hb hf => ?frees, fun hb => ?busy, fun hb hf => ?free⟩
    case frees =>
      exact State.fabric_done h (begun.trans ((if_neg (by rw [hb]; decide)).trans (if_neg (by rw [hf]; decide))))
    case busy => exact State.fabric_done h (begun.trans (if_pos hb))
    case free => exact State.fabric_done h (begun.trans ((if_neg (by rw [hb]; decide)).trans (if_pos (by rw [hf]; rfl))))
  case dump =>
    intro s r k e h hh hn ho hz hi hd u frozen
    have begun := dump_begun (r := r) (host := (s.plan.ringHost r).getD 0) hh hn ho hz hi hd
    have isFrozen (hf : frozen = true) : ¬ (!frozen) = true := by rw [hf]; decide
    have noDump (hj : u.jrn.dump = none) : ¬ u.jrn.dump.isSome = true := by rw [hj]; decide
    refine ⟨fun hf hj ht => ?starts, fun hf => ?notFrozen, fun hf hj => ?busy, fun hf hj ht => ?warm⟩
    case starts =>
      exact State.fabric_goes h (begun.trans ((if_neg (isFrozen hf)).trans ((if_neg (noDump hj)).trans (if_neg (by rw [ht]; decide)))))
    case notFrozen => exact State.fabric_done h (begun.trans (if_pos (congrArg not hf)))
    case busy => exact State.fabric_done h (begun.trans ((if_neg (isFrozen hf)).trans (if_pos hj)))
    case warm => exact State.fabric_done h (begun.trans ((if_neg (isFrozen hf)).trans ((if_neg (noDump hj)).trans (if_pos ht))))
  case mark =>
    intro s r k host e h hp hh hn ho hz
    have marks := mark_begun (r := r) (host := host) hh hn ho hz
    exact State.fabric_done h (by rw [hp]; exact marks)

end Sys2Proof.Machine

/-! SUPPORT. Re-run of a recording (spec/16 R526, R528). -/

namespace Sys2Proof.Machine

section
variable {s u : State} {r host : Nat} {e : FEntry} (hh : s.plan.has 0x31 e.inst = true) (hn : s.isOn 0x31 e.inst = true)
  (ho : e.object = 0xFFFF)
include hh hn ho

section
variable (hz : e.zeroFrom 44 56 = true)
include hz

/-- Outside DEVELOPMENT no recording is loaded. -/
theorem rerunLoad_locked (hc : (s.begun r e).lifecycle ≠ 0) : rerunLoad host r e (s.begun r e) = (s.begun r e, some (stState, 0)) := by
  unfold rerunLoad
  exact (State.checked_on hh hn ho hz).trans (if_pos (.inl hc))

/-- On a unit in DEVELOPMENT that is not ACTIVE in a tandem and re-runs nothing, it goes by what the recording begins with. -/
theorem rerunLoad_read {b : List Byte} (hc : (s.begun r e).lifecycle = 0)
    (ht : (s.begun r e).plan.tandem = none ∨ (s.begun r e).role ≠ 3) (h1 : (s.begun r e).bus.fld .rerunState 0 0 0 2 ≠ 1)
    (h2 : (s.begun r e).rerunning = false) (hl : (s.begun r e).load 150 (e.arg 32 8) (e.arg 40 4) = (u, .ok b)) :
    rerunLoad host r e (s.begun r e) = match u.recordingStart b with
      | none => (u, some (stFailed, 1))
      | some _ =>
        ((u.setRerun { addr := e.arg 32 8, len := e.arg 40 4, pos := 0, next := none, rows := [], own := [], ingested := [], missed := [],
                       bad := [], diffEv := none }).onBus fun b =>
          (((b.setReg .rerunState 0 0 1).setReg .rerunEqual 0 0 0).setReg .rerunDiffRows 0 0 0).setReg .rerunNc 0 0 0, some (0, 0)) := by
  have allowed : ¬ ((s.begun r e).lifecycle ≠ 0 ∨ ((s.begun r e).plan.tandem.isSome = true ∧ (s.begun r e).role = 3)) := by
    rintro (h | ⟨hp, hr⟩)
    · exact h hc
    · exact ht.elim (fun h => by rw [h] at hp; exact Bool.false_ne_true hp) fun h => h hr
  have idle : ¬ ((s.begun r e).bus.fld .rerunState 0 0 0 2 = 1 ∨ (s.begun r e).rerunning = true) := by simp [h1, h2]
  unfold rerunLoad
  refine (State.checked_on hh hn ho hz).trans ((if_neg allowed).trans ((if_neg idle).trans ?_))
  rw [hl]
  rfl

end

theorem rerunStop_ends (hz : e.zeroFrom 32 56 = true) (hr : (s.begun r e).jrn.rerun.isSome = true) :
    rerunStop host r e (s.begun r e) = ((s.begun r e).rerunEnds, some (0, 0)) := by
  have running : ¬ (s.begun r e).jrn.rerun.isNone = true := by rw [Option.isNone_eq_false_iff.mpr hr]; decide
  unfold rerunStop
  exact (State.checked_on hh hn ho hz).trans (if_neg running)

end

/-- What a recording begins with: a good CKPT_BEGIN record of the running structure and its checkpoint. -/
theorem State.recordingStart_some {s : State} {b : List Byte} {r : JRec} {c : Ckpt} {n : Nat} (h : s.recordingStart b = some (r, c, n)) :
    readRec b = some r ∧ r.kind = 0x11 ∧ slice r.body 8 8 = s.hashHead ∧ n = recUnits b + r.dataLength ∧
      ckptDecode (slice b (recUnits b) (leAt r.body 4 4)) = some c := by
  unfold State.recordingStart at h
  split at h
  · cases h
  · next r' hr =>
    dsimp only at h
    split at h
    · cases h
    · next sound =>
      obtain ⟨c', hc, heq⟩ := Option.map_eq_some_iff.mp h
      obtain ⟨rfl, rfl, rfl⟩ := Prod.mk.inj heq |>.imp id Prod.mk.inj
      simp only [not_or, not_not] at sound
      exact ⟨hr, sound.1, sound.2.1, rfl, hc⟩

/-- A recording that is loaded is re-run from its checkpoint, at its time. -/
theorem State.rerunLoaded_starts {s u : State} {x : RerunSt} {b : List Byte} {r : JRec} {c : Ckpt} {pos : Nat} (hx : s.jrn.rerun = some x)
    (h1 : s.bus.fld .rerunState 0 0 0 2 = 1) (hl : s.load 150 x.addr x.len = (u, .ok b)) (hs : u.recordingStart b = some (r, c, pos)) :
    s.rerunLoaded = ((((u.loadCkpt c).timeStep (sdiff r.time (u.loadCkpt c).now) 0).setRerun { x with pos := pos }).rerunFetch).onBus fun b =>
      b.setReg .rerunState 0 0 2 := by
  unfold State.rerunLoaded
  rw [hx]
  dsimp only
  rw [if_neg (not_not.mpr h1), hl]
  dsimp only
  rw [hs]

theorem State.rerunDone_last {s : State} (hr : s.rerunning = true) (hn : s.rerunNext = none) : s.rerunDone = s.rerunEnds := by
  unfold State.rerunDone
  rw [hr, hn]
  rfl

theorem State.rerunEnds_rerun (s : State) : s.rerunEnds.jrn.rerun = none := rfl

theorem State.rerunEnds_state (s : State) : s.rerunEnds.bus.reg .rerunState 0 0 = 3 := by
  unfold State.rerunEnds
  exact (Bus.reg_emit ..).trans (Bus.reg_setReg_self ..)

/-- Settles O47. That RERUN_LOAD completes at once is the model's choice (log 53). -/
theorem rerunTakesEffect : Obligations.RerunTakesEffect := by
  refine ⟨?load, ?locked, fun _ _ _ _ _ => State.recordingStart_some, ?loaded, ?done, ?stop,
    fun s => ⟨s.rerunEnds_rerun, s.rerunEnds_state⟩⟩
  case load =>
    intro s u r k e b h hh hn ho hz hc ht h1 h2 hl
    have read := rerunLoad_read (host := (s.plan.ringHost r).getD 0) hh hn ho hz hc ht h1 h2 hl
    refine ⟨?starts, fun hq => ?fails⟩
    case starts =>
      intro q hq x v
      rw [hq] at read
      exact State.fabric_done h read
    case fails =>
      rw [hq] at read
      exact State.fabric_done h read
  case locked =>
    intro s r k e h hh hn ho hz hc
    exact State.fabric_done h (rerunLoad_locked hh hn ho hz hc)
  case loaded =>
    intro s u x b r c pos hl hx h1 hb hs v
    rw [exec_rerunLoaded, State.fabric_live hl, State.rerunLoaded_starts hx h1 hb hs]
  case done =>
    intro s hl hr hn
    rw [exec_rerunDone, State.fabric_live hl, State.rerunDone_last hr hn]
  case stop =>
    intro s r k e h hh hn ho hz hr
    exact State.fabric_done h (rerunStop_ends hh hn ho hz hr)

end Sys2Proof.Machine

/-! SUPPORT. The tandem pair (spec/16 R511 to R530, R580; spec/13 R416): heartbeats, roles and epochs. -/

namespace Sys2Proof.Machine

/-! ### Heartbeats (R512, R513) -/

section
variable {s : State}

theorem State.heartbeatSend_due {t : TandemEnt} (hp : s.plan.tandem = some t) (hs : s.tnd.silent = false)
    (ht : s.tnd.sendTick + tickMs ≤ s.ticks) :
    s.heartbeatSend =
      let seq := if s.role = 2 ∨ s.role = 1 then s.tnd.applied else s.tnd.sent
      let ho := match s.tnd.handover with | some (_, _, w) => w | none => 0
      let body := le 2 t.pairId ++ le 1 s.tandemId ++ le 1 s.role ++ le 4 (s.reg .tndEpoch 0 0).toNat ++
        le 4 (s.reg .structHash 0 0).toNat ++ le 4 (s.reg .structHash 0 1).toNat ++ le 4 seq.toNat ++
        le 1 (b2n s.inSync + 2 * b2n s.tnd.handover.isSome) ++ le 3 0 ++ le 4 ho.toNat ++ le 4 0
      forEach s.plan.tandemPorts (fun p u => u.tndControl p 0x80 body) (s.setTnd { s.tnd with sendTick := s.ticks }) := by
  have due : ¬ (s.tnd.silent = true ∨ s.ticks < s.tnd.sendTick + tickMs) := by simp [hs, ht]
  unfold State.heartbeatSend
  rw [hp]
  exact if_neg due

/-- What the registers and the tandem show once a partner's heartbeat of payload `d` is taken. -/
def State.heartbeatShown (u : State) (d : List Byte) : State :=
  let v := (u.setFld .tndState 0 0 3 3 (byteAt d 3)).setReg .tndPartnerEpoch 0 0 (w32 (leAt d 4 4))
  let v := v.hashMatch (slice d 8 8 == le 4 (v.reg .structHash 0 0).toNat ++ le 4 (v.reg .structHash 0 1).toNat)
  let v := v.setTnd { v.tnd with
    hbTick := some v.ticks, pRole := byteAt d 3, pSync := (byteAt d 20).testBit 0, pSeq := w32 (leAt d 16 4),
    hoRx := if (byteAt d 20).testBit 1 ∧ v.role = 2 then some (w32 (leAt d 24 4)) else none }
  if byteAt d 3 = 4 then (v.emit 0x3204 0 2 (pay [leAt d 4 4])).trigger 2 none else v

/-- A heartbeat in form goes by its pair and its unit's number. -/
theorem State.heartbeatRx_form {r u : State} {t : TandemEnt} {p : Nat} {sync : Bool} {raw : List Byte} {pk : Pkt}
    (hp : r.plan.tandem = some t) (hu : r.receiveItem p 0x80 sync raw = (u, some pk)) (hlen : pk.payload.length = 32)
    (hz : zeros (slice pk.payload 21 3) = true) (hz' : zeros (slice pk.payload 28 4) = true) (hf : byteAt pk.payload 20 < 4)
    (hr : byteAt pk.payload 3 ≤ 5) (hi : byteAt pk.payload 2 ≤ 1) :
    r.heartbeatRx p sync raw =
      let d := pk.payload
      if leAt d 0 2 ≠ t.pairId then u
      else if byteAt d 2 = u.tandemId then u.emit 0x3207 0 2 (pay [p, byteAt d 2])
      else (u.heartbeatShown d).heartbeatRole t (byteAt d 3) (leAt d 4 4) := by
  have form : ¬ (pk.payload.length ≠ 32 ∨ (!zeros (slice pk.payload 21 3)) = true ∨ (!zeros (slice pk.payload 28 4)) = true ∨
      4 ≤ byteAt pk.payload 20 ∨ 5 < byteAt pk.payload 3 ∨ 1 < byteAt pk.payload 2) := by
    simp [hlen, hz, hz', hf, hr, hi]
  unfold State.heartbeatRx
  rw [hp, hu]
  exact if_neg form

/-! ### What a heartbeat, or none, does to the role (R511, R516, R523) -/

/-- No valid heartbeat for TAKEOVER_MS: what the unit knows of its partner is gone. -/
def State.partnerGone (s : State) : State :=
  (s.setFld .tndState 0 0 3 3 7).setTnd { s.tnd with hbTick := none, pRole := 7, pSync := false, hoRx := none }

theorem State.partnerGone_role (s : State) : s.partnerGone.role = s.role :=
  State.fld_setFld_apart s .tndState 0 0 3 3 7 0 3 (by decide) (.inl (by decide))

theorem State.partnerGone_inSync (s : State) : s.partnerGone.inSync = s.inSync := by
  unfold State.inSync
  rw [bit_eq, bit_eq]
  exact congrArg (fun n => decide (n = 1)) (State.fld_setFld_apart s .tndState 0 0 3 3 7 6 1 (by decide) (.inr (by decide)))

theorem State.heartbeatTimeout_due {t : Nat} (ht : s.tnd.hbTick = some t) (hd : t + s.takeoverMs * tickMs ≤ s.ticks) :
    s.heartbeatTimeout =
      let u := s.partnerGone
      match s.role with
      | 1 => u.goActive 0 true
      | 2 => if s.inSync then u.goActive 0 false else u
      | 3 => (u.setTnd { u.tnd with feed := 0, winPos := none, outq := [] }).emit 0x3203 0 2 (pay [s.tnd.pRole])
      | 5 => (u.setTnd { u.tnd with feed := 0, winPos := none, outq := [] }).emit 0x3203 0 2 (pay [s.tnd.pRole])
      | _ => u := by
  rw [← s.partnerGone_role, ← s.partnerGone_inSync]
  unfold State.heartbeatTimeout
  rw [ht]
  exact if_neg (by omega)

theorem State.joinTimeout_due (hp : s.plan.tandem.isSome = true) (hr : s.role = 0)
    (ht : max s.tnd.roleTick (s.tnd.hbTick.getD 0) + s.fld .tndXTimes 0 0 16 16 * tickMs ≤ s.ticks) :
    s.joinTimeout = s.goActive 3 true := by
  unfold State.joinTimeout
  exact if_pos ⟨hp, hr, ht⟩

theorem State.handoverReached_due {t : Word} (hh : s.tnd.hoRx = some t) (hr : s.role = 2) (hs : s.inSync = true)
    (ht : atOrAfter s.now t = true) : s.handoverReached = s.goActive 2 false := by
  unfold State.handoverReached
  rw [hh]
  exact if_pos ⟨hr, hs, ht⟩

theorem State.joinComplete_done (hr : s.role = 1) (hl : s.tnd.joinLoaded = true) (hw : blockAt (s.tnd.blocks / 2) s.windows = none)
    (hn : s.tnd.applied = s.tnd.pSeq ∨ sdiff s.now s.tnd.appliedTime ≤ 2000000) (he : s.tnd.records = []) :
    s.joinComplete = (s.setRole 2 0).setInSync true 0 := by
  have near : (s.tnd.applied == s.tnd.pSeq || decide (sdiff s.now s.tnd.appliedTime ≤ 2000000)) = true := by simpa using hn
  unfold State.joinComplete
  refine (if_pos ⟨.inl hr, hl, by rw [hw]; rfl, near, by rw [he]; rfl⟩).trans ?_
  rw [if_pos hr]

end

/-! ### HANDOVER and RESYNC (R525, R530) -/

section
variable {s : State} {r host : Nat} {e : FEntry} (hh : s.plan.has 0x32 e.inst = true) (hn : s.isOn 0x32 e.inst = true)
  (ho : e.object = 0xFFFF) (hz : e.zeroFrom 32 56 = true)
include hh hn ho hz

theorem handover_begun :
    handover host r e (s.begun r e) =
      let u := s.begun r e
      if u.role ≠ 3 ∨ u.tnd.pRole ≠ 2 ∨ (!u.tnd.pSync) = true then (u, some (stState, 0))
      else ((u.setTnd { u.tnd with handover := some (r, e.k, u.now + 20000000) }).setRole 5 0, none) := by
  unfold handover
  exact State.checked_on hh hn ho hz

theorem resync_begun :
    resync host r e (s.begun r e) =
      let u := s.begun r e
      if u.role ≠ 2 then (u, some (stState, 0)) else ((u.setInSync false 2).askFull, some (0, 0)) := by
  unfold resync
  exact State.checked_on hh hn ho hz

end

/-- A command whose head is in order and which its performer ends. -/
theorem State.perform_done {s u : State} {r st reason : Nat} {e : FEntry} {p : Perf} (hh : e.headOk = true)
    (hp : p (((s.begun r e).plan.ringHost r).getD 0) r e (s.begun r e) = (u, some (st, reason))) :
    s.perform r e p = u.complete r e.k st reason := by
  unfold State.perform
  dsimp only
  rw [if_neg (by rw [hh]; decide), hp]

/-- A STANDBY performs RESYNC from its own copy of the ring. -/
theorem State.resyncCmd_standby {s : State} {r k : Nat} {e : FEntry} (hr : s.role = 2) (he : s.entry r k = some e) (ho : e.opcode = 0x3202)
    (hp : e.phase = .ready) (hn : s.isOn 2 r = true) :
    s.resyncCmd r k =
      let u := (s.setTnd { s.tnd with applying := true }).perform r e resync
      u.setTnd { u.tnd with applying := false } := by
  have performs : ¬ (e.opcode ≠ 0x3202 ∨ e.phase = .done ∨ e.phase = .running ∨ (!s.isOn 2 r) = true) := by simp [ho, hp, hn]
  unfold State.resyncCmd
  rw [if_pos hr, he]
  exact if_neg performs

/-! ### Epochs (R515 to R517) -/

/-- The smallest epoch of a unit's parity above another. -/
theorem epochAbove_least {id : Nat} (hid : id < 2) (m : Nat) :
    m < epochAbove id m ∧ epochAbove id m % 2 = id ∧ ∀ n, m < n → n % 2 = id → epochAbove id m ≤ n := by
  unfold epochAbove
  split
  · exact ⟨by omega, by omega, fun n _ _ => by omega⟩
  · exact ⟨by omega, by omega, fun n _ _ => by omega⟩

theorem le_foldl_max {α : Type} (f : α → Nat) (xs : List α) (m : Nat) : m ≤ xs.foldl (fun m x => max m (f x)) m := by
  induction xs generalizing m with
  | nil => exact le_refl _
  | cons x xs ih => exact (le_max_left ..).trans (ih _)

theorem le_foldl_max_of_mem {α : Type} (f : α → Nat) {x : α} {xs : List α} (hx : x ∈ xs) (m : Nat) :
    f x ≤ xs.foldl (fun m x => max m (f x)) m := by
  induction xs generalizing m with
  | nil => cases hx
  | cons y xs ih =>
    rcases List.mem_cons.mp hx with rfl | hx
    · exact (le_max_right ..).trans (le_foldl_max f xs _)
    · exact ih hx _

section
variable (s : State)

theorem State.ownEpoch_le_epochsSeen : (s.reg .tndEpoch 0 0).toNat ≤ s.epochsSeen := (le_max_left ..).trans (le_foldl_max ..)

theorem State.partnerEpoch_le_epochsSeen : (s.reg .tndPartnerEpoch 0 0).toNat ≤ s.epochsSeen := (le_max_right ..).trans (le_foldl_max ..)

theorem State.endpointEpoch_le_epochsSeen {p : Nat} (hp : p ∈ s.plan.outPorts) : (s.reg .linkPartnerEpoch p 0).toNat ≤ s.epochsSeen :=
  le_foldl_max_of_mem (fun p => (s.reg .linkPartnerEpoch p 0).toNat) hp _

/-- Port p owes its endpoint the unit's epoch. -/
def State.oweEpoch (p : Nat) (s : State) : State := s.setLink p { s.link p with needEpoch := true }

theorem State.takeEpoch_eq :
    s.takeEpoch = forEach s.plan.outPorts State.oweEpoch (s.setReg .tndEpoch 0 0 (w32 (epochAbove s.tandemId s.epochsSeen))) := rfl

theorem State.takeEpoch_epoch : s.takeEpoch.reg .tndEpoch 0 0 = w32 (epochAbove s.tandemId s.epochsSeen) := by
  rw [State.takeEpoch_eq, forEach_frame (f := State.oweEpoch) (g := fun t : State => t.reg .tndEpoch 0 0) (fun _ _ => rfl),
    State.reg_setReg_self]

/-- Every out-port owes the new epoch. -/
theorem State.takeEpoch_needEpoch {p : Nat} (hp : p ∈ s.plan.outPorts) : (s.takeEpoch.link p).needEpoch = true := by
  rw [State.takeEpoch_eq]
  refine forEach_establishes (P := fun t => (t.link p).needEpoch = true) hp (fun t => ?_) (fun q t ht => ?_) _ <;> unfold State.oweEpoch
  · rw [State.link_setLink_self]
  · rw [State.link_setLink]
    split
    · rfl
    · exact ht

end

/-! ### STATUS (R416, R515 to R517, R580) -/

section
variable {s : State} {p : Nat}

/-- What the registers show, and the events raised, once a STATUS packet of payload `d` is taken at port p. -/
def State.statusShown (u : State) (p : Nat) (d : List Byte) : State :=
  let flags := byteAt d 2
  let rise : Bool := flags.testBit 2 && !bit (u.reg .linkState p 0) 6
  let v := u.setLink p { u.link p with statusTick := some u.ticks, statusSeen := true, silent := false, status4 := d.take 4 }
  let v := ((v.setFld .linkState p 0 4 2 (byteAt d 1)).setFld .linkState p 0 6 1 (b2n (flags.testBit 2))).setFld .linkState p 0 7 1
    (b2n (flags.testBit 4))
  let v := v.setReg .linkPartner p 0 (w32 (byteAt d 0 + flags * 2 ^ 8 + leAt d 8 2 * 2 ^ 16))
  let v := (v.setReg .linkPartnerEpoch p 0 (w32 (leAt d 4 4))).setReg .linkPartnerFrame p 0 (w32 (leAt d 12 4))
  let v := if (u.link p).status4 != d.take 4 then
    v.emit 0x2014 p (if byteAt d 1 = 0 then 0 else 1) (pay [u.fld .linkState p 0 4 2, byteAt d 1, flags]) else v
  if rise then v.emit 0x2016 p 2 (pay [leAt d 4 4, (v.reg .linkEpoch p 0).toNat]) else v

theorem State.statusShown_plan (u : State) (p : Nat) (d : List Byte) : (u.statusShown p d).plan = u.plan := by
  simp only [State.statusShown, apply_ite State.plan, State.emit_plan, State.setReg_plan, State.setFld_plan, State.setLink_plan, ite_self]

/-- A STATUS packet in form is shown, its light reading goes to the head of the port, and its epoch is weighed on an out-port. -/
theorem State.statusRx_form {r u : State} {sync : Bool} {raw : List Byte} {pk : Pkt} (hu : r.receiveItem p 0x0D sync raw = (u, some pk))
    (hlen : pk.payload.length = 16) (h3 : byteAt pk.payload 3 = 0) (hf : byteAt pk.payload 2 < 32) (hs : byteAt pk.payload 1 ≤ 2) :
    r.statusRx p sync raw =
      let d := pk.payload
      let v := u.statusShown p d
      let w := match u.plan.headOfPort p with
        | some e => if (byteAt d 2).testBit 0 ∧ e.primary = p then v.ambient e.head (leAt d 8 2) else v
        | none => v
      if w.plan.role p = 1 then w.epochReport p (leAt d 4 4) ((byteAt d 2).testBit 2 && !bit (u.reg .linkState p 0) 6) else w := by
  have form : ¬ (pk.payload.length ≠ 16 ∨ byteAt pk.payload 3 ≠ 0 ∨ 32 ≤ byteAt pk.payload 2 ∨ 2 < byteAt pk.payload 1) := by omega
  dsimp only
  rw [← State.statusShown_plan u p pk.payload]
  unfold State.statusRx
  rw [hu]
  exact if_neg form

theorem State.epochWaitOver_due (hr : s.plan.role p = 1) (hp : s.portState p = 2) (hs : (s.link p).statusSeen = false)
    (ht : (s.link p).upTick + s.fld .linkXStatusMs p 0 0 10 * tickMs ≤ s.ticks) :
    s.epochWaitOver p =
      ((s.setLink p { s.link p with statusSeen := true }).setReg .linkPartnerEpoch p 0 0).epochReport p 0 false := by
  unfold State.epochWaitOver
  exact if_pos ⟨hr, hp, by rw [hs]; rfl, ht⟩

end

/-- Settles O45. The causes and reasons of ROLE records (log 54) and a RESYNC performed by a STANDBY (log 58) are the model's choice. -/
theorem tandemRolesTakeEffect : Obligations.TandemRolesTakeEffect := by
  refine ⟨?send, ?heartbeat, ?role, ?timeout, ?join, ?reached, ?handover, ?resync, ?refused, ?complete, fun id m hid => epochAbove_least hid m,
    ?epoch, ?status, ?waited⟩
  case send =>
    intro s t hpw hp hs ht
    rw [exec_heartbeatSend, State.warden_powered hpw, State.heartbeatSend_due hp hs ht] <;> rfl
  case heartbeat =>
    intro s r u t p skew lines sync raw pk hl ha hp hu d hlen hz hz' hf hr hi
    have taken := State.heartbeatRx_form hp hu hlen hz hz' hf hr hi
    refine ⟨fun hpair hid => ?same, ?other⟩
    case same =>
      rw [exec_heartbeatRx, State.fabric_live hl, State.arrives_some _ ha, taken]
      dsimp only
      rw [if_neg (not_not.mpr hpair), if_pos hid]
    case other =>
      intro hpair hid v1 v2 v3 v
      rw [exec_heartbeatRx, State.fabric_live hl, State.arrives_some _ ha, taken]
      dsimp only
      rw [if_neg (not_not.mpr hpair), if_neg hid]
      rfl
  case role =>
    intro s t epoch
    refine ⟨fun h => ?joins, fun h hp => ?preferred, fun h => ?alone, fun h hs => ?takesOver, fun r h he => ?stepsDown, fun r h hr => ?stays⟩ <;>
      unfold State.heartbeatRole
    case joins => simp [h]
    case preferred => simp [h, hp]
    case alone => simp [h]
    case takesOver => simp [h, hs]
    case stepsDown => simp [h, he]
    case stays => simp [h, hr]
  case timeout =>
    intro s t hl ht hd u
    refine ⟨fun h => ?joining, fun h hs => ?standby, fun h => ?active⟩ <;>
      rw [exec_heartbeatTimeout, State.fabric_live hl, State.heartbeatTimeout_due ht hd, h]
    case joining => rfl
    case standby => simp only [hs, if_true]; rfl
    case active => rfl
  case join =>
    intro s hl hp hr ht
    rw [exec_joinTimeout, State.fabric_live hl, State.joinTimeout_due hp hr ht]
  case reached =>
    intro s t hl hh hr hs ht
    rw [exec_handoverTimeReached, State.fabric_live hl, State.handoverReached_due hh hr hs ht]
  case handover =>
    intro s r k e h hh hn ho hz u
    have begun := handover_begun (r := r) (host := (s.plan.ringHost r).getD 0) hh hn ho hz
    refine ⟨fun h3 h2 hs => ?goes, fun h3 => ?notActive⟩
    case goes =>
      have active : ¬ (u.role ≠ 3 ∨ u.tnd.pRole ≠ 2 ∨ (!u.tnd.pSync) = true) := by simp [h3, h2, hs]
      exact State.fabric_goes h (begun.trans (if_neg active))
    case notActive => exact State.fabric_done h (begun.trans (if_pos (.inl h3)))
  case resync =>
    intro s r k e hl hr he ho hp hn hhead hh hon hobj hz u
    let t := s.setTnd { s.tnd with applying := true }
    have standby : ¬ (t.begun r e).role ≠ 2 := not_not.mpr ((congrArg (bf · 0 3) (State.begun_reg t r e .tndState 0 0)).trans hr)
    have performed : t.perform r e resync = u :=
      State.perform_done hhead ((resync_begun (s := t) hh hon hobj hz).trans (if_neg standby))
    rw [exec_resync, State.fabric_live hl, State.resyncCmd_standby hr he ho hp hn]
    dsimp only
    rw [performed]
  case refused =>
    intro s r k e h hh hn ho hz hr hb
    have notStandby : s.resyncCmd r k = s.runCmd 0x3202 resync r k := by
      unfold State.resyncCmd
      exact if_neg hr
    rw [exec_resync, State.fabric_live h.1, notStandby]
    exact congrArg (fun t : State => Host.Outcome.next t.watch.settle) (State.runCmd_done h ((resync_begun hh hn ho hz).trans (if_pos hb)))
  case complete =>
    intro s hl hr hj hw hn he
    rw [exec_joinComplete, State.fabric_live hl, State.joinComplete_done hr hj hw hn he]
  case epoch =>
    intro s
    exact ⟨s.takeEpoch_epoch, s.ownEpoch_le_epochsSeen, s.partnerEpoch_le_epochsSeen,
      fun p hp => ⟨s.endpointEpoch_le_epochsSeen hp, s.takeEpoch_needEpoch hp⟩⟩
  case status =>
    intro s r u p skew lines sync raw pk hl ha hu d flags hlen h3 hf hs rise v1 v2 v3 v4 v5 v
    have taken := State.statusRx_form hu hlen h3 hf hs
    refine ⟨fun hp => ?noHead, ?head⟩
    case noHead =>
      rw [exec_statusRx, State.fabric_live hl, State.arrives_some _ ha, taken, hp]
      rfl
    case head =>
      intro e hp w
      rw [exec_statusRx, State.fabric_live hl, State.arrives_some _ ha, taken, hp]
      rfl
  case waited =>
    intro s p hl hr hp hs ht
    rw [exec_epochStatusWaitTimeout, State.fabric_live hl, State.epochWaitOver_due hr hp hs ht]

end Sys2Proof.Machine

/-! SUPPORT. Following a partner (spec/16 R512, R514, R519 to R522; spec/03 R81, R101, R107). -/

namespace Sys2Proof.Machine

/-! ### Acknowledgement and requests (R514, R521) -/

theorem State.ackSend_due {s : State} (hr : s.tnd.rxLast.isEmpty = false) (ht : s.tnd.ackTick + 20000 ≤ s.ticks) :
    s.ackSend = forEach (s.tnd.rxLast.map Prod.fst) (fun q s => s.ack q (assocGet s.tnd.rxJump q).isSome)
      (s.setTnd { s.tnd with ackTick := s.ticks }) := by
  unfold State.ackSend
  exact if_neg (by simp [hr, ht])

section
variable {r u : State} {p : Nat} {sync : Bool} {raw : List Byte} {pk : Pkt}

/-- An ACK in form frees what it names; with NAK the rest of the stream leaves again. -/
theorem State.ackRx_form (hu : r.receiveItem p 0x84 sync raw = (u, some pk)) (hlen : pk.payload.length = 8)
    (hz : zeros (slice pk.payload 5 3) = true) (hb : byteAt pk.payload 4 < 2) :
    r.ackRx p sync raw =
      let d := pk.payload
      let q := leAt d 0 2
      let a := leAt d 2 2
      let keep := u.tnd.replay.filter fun r => r.stream != q || (a != 0 && decide (32767 < aliveAhead r.alive a)) || a == 0
      let v := u.setTnd { u.tnd with replay := keep }
      State.feedBlocks 1100 (if byteAt d 4 = 1 then forEach (keep.filter fun r => r.stream == q)
        (fun r s => s.sendItem s.dataPort r.typ 2 r.stream r.alive s.now r.payload) v else v) := by
  have form : ¬ (pk.payload.length ≠ 8 ∨ (!zeros (slice pk.payload 5 3)) = true ∨ 2 ≤ byteAt pk.payload 4) := by simp [hlen, hz, hb]
  unfold State.ackRx
  rw [hu]
  exact if_neg form

/-- A SYNC_REQ with FULL makes an ACTIVE feed its next checkpoint. -/
theorem State.syncReqRx_full (hu : r.receiveItem p 0x85 sync raw = (u, some pk)) (hlen : pk.payload.length = 8)
    (hz : zeros (slice pk.payload 5 3) = true) (hb : byteAt pk.payload 4 = 1) (hr : u.role = 3) :
    r.syncReqRx p sync raw = u.setTnd { u.tnd with feed := 1, outq := [], replay := [], winPos := none } := by
  have form : ¬ (pk.payload.length ≠ 8 ∨ (!zeros (slice pk.payload 5 3)) = true ∨ 2 ≤ byteAt pk.payload 4) := by simp [hlen, hz, hb]
  unfold State.syncReqRx
  rw [hu]
  exact (if_neg form).trans (if_pos ⟨hb, .inl hr⟩)

/-! ### What is received of a partner (R519 to R521) -/

/-- Checkpoint data in form is kept, after what came of the same checkpoint. -/
theorem State.checkpointRx_form (hu : r.tndItem p 0x83 sync raw = (u, some pk)) (hlen : 16 ≤ pk.payload.length)
    (hz : zeros (slice pk.payload 8 8) = true) :
    r.checkpointRx p sync raw =
      let d := pk.payload
      let cut := w32 (leAt d 0 4)
      let x := u.tnd
      let fresh : Bool := x.joinCut != some cut || leAt d 4 4 == 0
      u.setTnd { x with joinCut := some cut, joinData := (if fresh then [] else x.joinData) ++ [(leAt d 4 4, d.drop 16)],
                        joinLoaded := x.joinLoaded && !fresh, applied := if fresh then cut else x.applied } := by
  have form : ¬ (pk.payload.length < 16 ∨ (!zeros (slice pk.payload 8 8)) = true) := by simp [hlen, hz]
  unfold State.checkpointRx
  rw [hu]
  exact if_neg form

theorem State.journalRx_records {rs : List JRec} (hu : r.tndItem p 0x81 sync raw = (u, some pk)) (hs : splitRecs 130 pk.payload = some rs) :
    r.journalRx p sync raw =
      let v := forEach rs (fun r s => (s.storeRec r).joinLoad r) u
      let v := v.setTnd { v.tnd with records := v.tnd.records ++ rs }
      v.drainRecs (v.tnd.records.length + 1) := by
  unfold State.journalRx
  rw [hu]
  dsimp only
  rw [hs]

/-- Mirror data in form, on a unit that joins nothing or has joined, is stored as master MIRROR. -/
theorem State.mirrorRx_stored (hu : r.tndItem p 0x82 sync raw = (u, some pk)) (hlen : pk.payload.length = 16 + leAt pk.payload 8 4)
    (hn : 0 < leAt pk.payload 8 4) (hz : zeros (slice pk.payload 12 4) = true)
    (hj : (u.store 151 (leAt pk.payload 0 8) (pk.payload.drop 16)).1.tnd.joinLoaded = false ∨
      (u.store 151 (leAt pk.payload 0 8) (pk.payload.drop 16)).1.inSync = true) :
    r.mirrorRx p sync raw = (u.store 151 (leAt pk.payload 0 8) (pk.payload.drop 16)).1 := by
  have form : ¬ (pk.payload.length ≠ 16 + leAt pk.payload 8 4 ∨ leAt pk.payload 8 4 = 0 ∨ (!zeros (slice pk.payload 12 4)) = true) := by
    simp only [hlen, hz]
    simp
    omega
  unfold State.mirrorRx
  rw [hu]
  refine (if_neg form).trans (if_neg fun ⟨hl, hs, _⟩ => ?_)
  exact hj.elim (fun h => by rw [h] at hl; exact Bool.false_ne_true hl) fun h => by rw [h] at hs; exact Bool.false_ne_true hs

end

/-! ### How a unit follows (R519, R522) -/

theorem State.holdTimeout_due {s : State} {h t : Nat} (hh : (s.head h).hold = some t) (ht : t + 2 * tickMs ≤ s.ticks) :
    s.holdTimeout h =
      let u := s.setHead h { s.head h with hold := none }
      u.setTnd { u.tnd with followed := assocSet u.tnd.followed h (u.reg .headFrame h 0).toNat } := by
  unfold State.holdTimeout
  rw [hh]
  exact if_pos ht

/-- TIME_NS steps to the partner's, and the offset is gone. -/
def State.stepsToPartner (u : State) (ofs : Int) : State := (u.timeStep ofs 0).setReg .tndTimeOfs 0 0 0

/-- On a unit of a pair the measured offset is shown, and acts by role. -/
theorem State.tandemTime_paired {s : State} (hp : s.plan.tandem.isSome = true) (ofs : Int) :
    s.tandemTime ofs =
      let u := s.setReg .tndTimeOfs 0 0 (i32 ofs)
      let v := u.stepsToPartner ofs
      if u.role = 1 ∧ (!u.tnd.stepped) = true ∧ (u.plan.tandemPorts.any fun p => decide (8 ≤ (u.link p).echoes.length)) = true then
        v.setTnd { v.tnd with stepped := true, ofsTick := none }
      else if u.role ≠ 2 ∨ ofs.natAbs ≤ u.fld .tndXTimeTol 0 0 0 17 then u.setTnd { u.tnd with ofsTick := none }
      else match u.tnd.ofsTick with
        | none => u.setTnd { u.tnd with ofsTick := some u.ticks }
        | some t => if t + tickS ≤ u.ticks then v.setTnd { v.tnd with ofsTick := none } else u := by
  unfold State.tandemTime
  exact if_neg (by rw [Option.isNone_eq_false_iff.mpr hp]; decide)

/-! ### Memory windows and waits (R81, R101, R107) -/

theorem State.mwinWrite_eq (s : State) (port off : Nat) (data : List Byte) :
    s.mwinWrite port off data =
      let a := s.bus.mwinAddr port off
      if (s.store port a data).2 = true then (s.store port a data).1.mirrorWrite port a data else (s.store port a data).1 := by
  unfold State.mwinWrite
  dsimp only
  split <;> simp only [*, if_true, Bool.false_eq_true, if_false]

/-- An entry whose waits are met, and that may run, runs. -/
theorem State.waitEnd_runs {s : State} {r k : Nat} {e : FEntry} (he : s.entry r k = some e) (hw : e.phase.waits = true)
    (hn : s.isOn 2 r = true) (hk : s.bus.ringKind r = 0) (hb : beforeMet (s.bus.ringSt r).fetched e = true) (hm : s.bus.waitMet e = true)
    (hr : s.mayRun r e = true) : s.waitEnd r k = State.withPorts (fun s => s.perform r e (performOf e.opcode)) s := by
  have waits : ¬ ((!(e.phase.waits || (e.phase == .ready && !knownOps.contains e.opcode))) = true ∨ (!s.isOn 2 r) = true ∨
      s.bus.ringKind r ≠ 0 ∨ (!beforeMet (s.bus.ringSt r).fetched e) = true) := by simp [hw, hn, hk, hb]
  unfold State.waitEnd
  rw [he]
  exact (if_neg waits).trans ((if_neg (by rw [hm]; decide)).trans (if_pos hr))

/-- Settles O46. One data port and the order of blocks (log 55), and what a follower takes and stores (log 56, 57), are the model's choice. -/
theorem followingTakesEffect : Obligations.FollowingTakesEffect := by
  refine ⟨?send, ?ack, ?syncReq, ?checkpoint, ?records, ?mirror, ?hold, ?time, ?mirrored, ?dropped, ?waits⟩
  case send =>
    intro s hl hr ht u
    rw [exec_ackSend, State.fabric_live hl, State.ackSend_due hr ht]
    rfl
  case ack =>
    intro s r u p skew lines sync raw pk hl ha hu d hlen hz q a keep v
    refine ⟨fun hb => ?frees, fun hb => ?again⟩
    case frees =>
      have hb' : byteAt pk.payload 4 = 0 := hb
      rw [exec_ackRx, State.fabric_live hl, State.arrives_some _ ha, State.ackRx_form hu hlen hz (by omega)]
      dsimp only
      rw [if_neg (by omega)]
    case again =>
      have hb' : byteAt pk.payload 4 = 1 := hb
      rw [exec_ackRx, State.fabric_live hl, State.arrives_some _ ha, State.ackRx_form hu hlen hz (by omega)]
      dsimp only
      rw [if_pos hb']
  case syncReq =>
    intro s r u p skew lines sync raw pk hl ha hu hlen hz hb hr
    rw [exec_syncReqRx, State.fabric_live hl, State.arrives_some _ ha, State.syncReqRx_full hu hlen hz hb hr]
  case checkpoint =>
    intro s r u p skew lines sync raw pk hl ha hu d cut hlen hz
    have kept := State.checkpointRx_form hu hlen hz
    refine ⟨fun hj hd => ?goesOn, fun hd => ?fresh⟩ <;> rw [exec_checkpointRx, State.fabric_live hl, State.arrives_some _ ha, kept]
    case goesOn =>
      have same : (u.tnd.joinCut != some cut || leAt d 4 4 == 0) = false := by simp [hj, hd]
      dsimp only
      rw [same, ← hj]
      simp
      rfl
    case fresh =>
      have fresh : (u.tnd.joinCut != some cut || leAt d 4 4 == 0) = true := by simp [hd]
      dsimp only
      rw [fresh, show leAt pk.payload 4 4 = 0 from hd]
      simp
      rfl
  case records =>
    intro s r u p skew lines sync raw pk rs hl ha hu hs v
    rw [exec_journalPacketRx, State.fabric_live hl, State.arrives_some _ ha, State.journalRx_records hu hs]
  case mirror =>
    intro s r u p skew lines sync raw pk hl ha hu d hlen hn hz v hj
    rw [exec_mirrorRx, State.fabric_live hl, State.arrives_some _ ha]
    unfold State.mirrorThenRecs
    rw [State.mirrorRx_stored hu hlen hn hz hj]
  case hold =>
    intro s h t hl hh ht u
    rw [exec_followHoldTimeout, State.fabric_live hl, State.holdTimeout_due hh ht]
  case time =>
    intro s ofs hl hp u v
    rw [exec_tandemTimeStep, State.fabric_live hl, State.tandemTime_paired hp]
    dsimp only
    refine ⟨fun h1 hs hx => ?joins, fun h2 ht => ?within, fun h2 ht hx => ?starts, fun t h2 ht hx hd => ?steps⟩
    case joins =>
      obtain ⟨p, hp8, h8⟩ := hx
      rw [if_pos ⟨h1, by rw [hs]; rfl, List.any_eq_true.mpr ⟨p, hp8, decide_eq_true h8⟩⟩]
      rfl
    case within => rw [if_neg fun h => absurd (h2.symm.trans h.1) (by decide), if_pos (.inr ht)]
    case starts =>
      rw [if_neg fun h => absurd (h2.symm.trans h.1) (by decide), if_neg fun h => h.elim (· h2) (absurd ht ∘ not_lt_of_ge), hx]
    case steps =>
      rw [if_neg fun h => absurd (h2.symm.trans h.1) (by decide), if_neg fun h => h.elim (· h2) (absurd ht ∘ not_lt_of_ge), hx]
      dsimp only
      rw [if_pos hd]
      rfl
  case mirrored =>
    intro s u port off data hs hw
    rw [exec_memoryWindowWrite, State.window_served hs, State.mwinWrite_eq]
    dsimp only
    rw [hw]
    rfl
  case dropped =>
    intro s u port off data hs hw
    rw [exec_memoryWindowWrite, State.window_served hs, State.mwinWrite_eq]
    dsimp only
    rw [hw]
    rfl
  case waits =>
    intro s r k e hl he hw hn hk hb hm hr
    rw [exec_commandWaitEnd, State.fabric_live hl,
      State.waitEnd_runs he hw hn hk hb hm hr]

end Sys2Proof.Machine

/-! SUPPORT. -/

namespace Sys2Proof.Machine

/-! The wait-to-restore display writes fields of its own. -/

@[simp] theorem State.showWtr_tim (s : State) : s.showWtr.tim = s.tim := by
  unfold State.showWtr
  split <;> rw [State.setReg_tim, State.setFld_tim]

theorem State.showWtr_reg (s : State) {r : FReg} (hs : r ≠ .timState) (hw : r ≠ .timWtrLeft) (i j : Nat) :
    s.showWtr.reg r i j = s.reg r i j := by
  unfold State.showWtr
  split <;> rw [State.reg_setReg_ne _ hw.symm, State.reg_setFld_ne _ hs.symm]

theorem State.showWtr_fld (s : State) (lo n : Nat) (h : lo + n ≤ 8) : s.showWtr.fld .timState 0 0 lo n = s.fld .timState 0 0 lo n := by
  unfold State.showWtr
  split <;> rw [State.fld_setReg_ne _ (by decide), State.fld_setFld_apart _ _ _ _ _ _ _ _ _ (by decide) (.inl h)]

/-- The two words of a register pair read together. -/
theorem words_toNat (v : Nat) : (w32 v).toNat + (w32 (v / 2 ^ 32)).toNat * 2 ^ 32 = v % 2 ^ 64 := by
  simp only [w32, BitVec.toNat_ofNat]
  omega

theorem State.incr_setPair (s : State) (v : Nat) : (s.setPair .timIncrLo .timIncrHi 0 0 v).incr = v % 2 ^ 64 := by
  unfold State.incr State.pair State.setPair
  rw [State.reg_setReg_ne _ (by decide), State.reg_setReg_self, State.reg_setReg_self, words_toNat]

theorem State.incr_congr {s t : State} (hl : t.reg .timIncrLo 0 0 = s.reg .timIncrLo 0 0) (hh : t.reg .timIncrHi 0 0 = s.reg .timIncrHi 0 0) :
    t.incr = s.incr := by
  unfold State.incr State.pair
  rw [hl, hh]

/-- What a slew step has done so far: the increment, its tick, and the core's state and selection as they were. -/
def Slewed (s : State) (n : Nat) (v : State) : Prop :=
  v.incr = n ∧ v.tim.slewTick = s.ticks ∧ ∀ lo w, lo + w ≤ 8 → v.fld .timState 0 0 lo w = s.fld .timState 0 0 lo w

section
variable {s v : State} {n : Nat}

theorem Slewed.showWtr (h : Slewed s n v) : Slewed s n v.showWtr := by
  obtain ⟨hn, ht, hf⟩ := h
  refine ⟨?_, ?_, fun lo w hl => (v.showWtr_fld lo w hl).trans (hf lo w hl)⟩
  · rw [State.incr_congr (v.showWtr_reg (by decide) (by decide) 0 0) (v.showWtr_reg (by decide) (by decide) 0 0), hn]
  · rw [State.showWtr_tim, ht]

theorem Slewed.setReg (h : Slewed s n v) {r : FReg} (hr : r = .timHoldS ∨ r = .timFreqErr) (w : Word) : Slewed s n (v.setReg r 0 0 w) := by
  obtain ⟨hn, ht, hf⟩ := h
  have away : r ≠ .timIncrLo ∧ r ≠ .timIncrHi ∧ r ≠ .timState := by rcases hr with rfl | rfl <;> decide
  refine ⟨?_, ht, fun lo w hl => (State.fld_setReg_ne _ away.2.2 ..).trans (hf lo w hl)⟩
  rw [State.incr_congr (State.reg_setReg_ne _ away.1 ..) (State.reg_setReg_ne _ away.2.1 ..), hn]

theorem Slewed.limited (h : Slewed s n v) (b : Nat) : Slewed s n (v.setFld .timState 0 0 13 1 b) := by
  obtain ⟨hn, ht, hf⟩ := h
  refine ⟨?_, ht, fun lo w hl => (State.fld_setFld_apart _ _ _ _ _ _ _ _ _ (by decide) (.inl (by omega))).trans (hf lo w hl)⟩
  rw [State.incr_congr (State.reg_setFld_ne _ (by decide) ..) (State.reg_setFld_ne _ (by decide) ..), hn]

theorem Slewed.emit (h : Slewed s n v) (typ inst sev : Nat) (p : Payload) : Slewed s n (v.emit typ inst sev p) := h

theorem Slewed.setTim (h : Slewed s n v) {x : TimSt} (hx : x.slewTick = v.tim.slewTick) : Slewed s n (v.setTim x) := by
  obtain ⟨hn, ht, hf⟩ := h
  exact ⟨hn, hx.trans ht, hf⟩

theorem Slewed.ite {c : Prop} [Decidable c] {u : State} (hu : Slewed s n u) (hv : Slewed s n v) : Slewed s n (if c then u else v) := by
  split
  · exact hu
  · exact hv

end

/-- The increment after one millisecond's move (R473). -/
def State.slewTo (s : State) : Nat :=
  let step : Int := nominal * s.fld .timXSlew 0 0 0 17 / 1000000000000
  ((s.incr : Int) + clampI (-step) step ((s.tim.target : Int) - s.incr)).toNat

theorem Slewed.moved (s : State) : Slewed s (s.slewTo % 2 ^ 64)
    ((s.setTim { s.tim with slewTick := s.ticks }).setPair .timIncrLo .timIncrHi 0 0 s.slewTo) :=
  ⟨State.incr_setPair _ _, rfl, fun _ _ _ => (State.fld_setReg_ne _ (by decide) ..).trans (State.fld_setReg_ne _ (by decide) ..)⟩

theorem State.slewStep_slewed {s : State} (hd : ¬ s.ticks < s.tim.slewTick + tickMs) : Slewed s (s.slewTo % 2 ^ 64) s.slewStep := by
  unfold State.slewStep
  rw [if_neg hd]
  apply Slewed.showWtr
  apply Slewed.ite
  on_goal 1 => apply Slewed.setReg _ (.inl rfl)
  all_goals apply Slewed.ite
  on_goal 1 => apply Slewed.emit
  on_goal 3 => apply Slewed.emit
  all_goals
    apply Slewed.limited
    refine Slewed.setTim ?_ rfl
    apply Slewed.setReg _ (.inr rfl)
    exact Slewed.moved s

theorem State.refTarget_congr {s t : State} (hr : t.fregs = s.fregs) (hx : t.tim.refs = s.tim.refs) (hd : t.tim.d0 = s.tim.d0) (r : Nat) :
    t.refTarget r = s.refTarget r := by
  unfold State.refTarget State.refSt State.pair
  rw [State.reg_congr hr, State.reg_congr hr, State.fld_congr hr, hx, hd]

/-- D0 is taken: the present phase, an error of 0, and the target from there (R483). -/
theorem State.takeD0_takes (s : State) (r : Nat) : (s.takeD0 r).tim.d0 = (s.refSt r).phase ∧ (s.takeD0 r).reg .timPhaseErr 0 0 = 0 ∧
    (s.takeD0 r).tim.target = (s.takeD0 r).refTarget r := by
  refine ⟨rfl, ?_, (State.refTarget_congr (by rfl) (by rfl) (by rfl) r).symm⟩
  exact State.reg_setReg_self (s.setTim { s.tim with d0 := (s.refSt r).phase }) .timPhaseErr 0 0 0

theorem State.setTimState_reg (s : State) (st : Nat) {r : FReg} (hr : r ≠ .timState) (i j : Nat) : (s.setTimState st).reg r i j = s.reg r i j := by
  unfold State.setTimState State.timingRec
  dsimp only
  rw [State.journal_eq]
  exact State.reg_setFld_ne _ hr.symm ..

theorem State.setTimState_timState (s : State) {st : Nat} (hs : st < 8) : (s.setTimState st).timState = st := by
  unfold State.setTimState State.timingRec
  dsimp only
  rw [State.journal_eq]
  exact (State.fld_setFld_self _ .timState 0 0 0 3 st (by decide)).trans (Nat.mod_eq_of_lt hs)

theorem State.lockTestMet_due {s : State} {t : Nat} (hw : s.tim.within = some t) (hs : s.timState = 1 ∨ s.timState = 3)
    (ht : t + 200000000 ≤ s.ticks) : s.lockTestMet = ((s.takeD0 s.selected).setFld .timState 0 0 12 1 1).setTimState 2 := by
  unfold State.lockTestMet
  rw [hw]
  exact if_pos ⟨hs, ht⟩

theorem State.holdExpired_due {s : State} (hs : s.timState = 4) (hh : s.fld .timXHold 0 0 0 16 ≤ (s.ticks - s.tim.holdTick) / 200000000) :
    ∃ u : State, s.holdExpired = u ∧ u.timState = 5 ∧ u.reg .timHoldS 0 0 = w32 ((s.ticks - s.tim.holdTick) / 200000000) := by
  refine ⟨_, if_pos ⟨hs, hh⟩, State.setTimState_timState _ (by decide), ?_⟩
  exact (State.setTimState_reg _ _ (by decide) ..).trans (State.reg_setReg_self ..)

/-- A tick before its wrap is counted. -/
def State.tickOn (s : State) : State :=
  let v := (s.bus.time.toNat * 2 ^ 32 + s.bus.frac.toNat + s.incr) % 2 ^ 64
  s.onBus fun b => { b with time := w32 (v / 2 ^ 32), frac := w32 v, ticks := b.ticks + 1 }

theorem State.countTick_eq (s : State) :
    s.countTick = if bit s.bus.time 31 && !bit s.tickOn.bus.time 31 then s.tickOn.wrapBy true else s.tickOn := by
  unfold State.countTick State.tickOn
  generalize (s.bus.time.toNat * 2 ^ 32 + s.bus.frac.toNat + s.incr) % 2 ^ 64 = v
  rfl

theorem State.wrapBy_time (t : State) (wraps : Bool) : (if wraps then t.wrapBy true else t).bus.time = t.bus.time := by
  cases wraps
  · rfl
  · rfl

theorem State.countTick_time (s : State) : s.countTick.bus.time = s.tickOn.bus.time := by
  rw [State.countTick_eq]
  exact State.wrapBy_time ..

theorem State.wrapBy_up (s : State) : (s.wrapBy true).fld .timWrap 0 0 0 16 = (s.fld .timWrap 0 0 0 16 + 1) % 65536 := by
  refine (State.fld_setFld_self _ .timWrap 0 0 0 16 _ (by decide)).trans ?_
  exact Nat.mod_mod _ _

theorem State.tickOn_fld (s : State) (r : FReg) (i j lo n : Nat) : s.tickOn.fld r i j lo n = s.fld r i j lo n :=
  State.fld_congr (State.onBus_fregs ..) ..

theorem State.countTick_wraps {s : State} (h1 : bit s.bus.time 31 = true) (h0 : bit s.countTick.bus.time 31 = false) :
    s.wrapTick = s.countTick ∧ s.countTick.fld .timWrap 0 0 0 16 = (s.fld .timWrap 0 0 0 16 + 1) % 65536 := by
  refine ⟨if_pos (by rw [h1, h0]; rfl), ?_⟩
  have hw : s.countTick = s.tickOn.wrapBy true := by
    rw [State.countTick_eq, h1, ← State.countTick_time, h0]
    exact if_pos rfl
  rw [hw, State.wrapBy_up, s.tickOn_fld]

/-- Settles O23. LOCKED_EVER set from SWITCHING, and a WRAP that makes the tick itself (log 1), are the model's choices. -/
theorem timingCoreMoves : Obligations.TimingCoreMoves := by
  refine ⟨?slew, ?switched, ?acquired, ?d0, ?hold, ?wrap⟩
  case slew =>
    intro s hl hd
    rw [exec_incrementSlewStep, State.fabric_live hl]
    obtain ⟨hn, ht, hf⟩ := s.slewStep_slewed (by unfold tickMs; omega)
    exact ⟨_, rfl, hn, ht, hf 0 3 (by decide), hf 4 3 (by decide)⟩
  case switched =>
    intro s t hl hw hs ht
    rw [exec_lockTestMet, State.fabric_live hl, State.lockTestMet_due hw (.inr hs) ht]
  case acquired =>
    intro s t hl hw hs ht
    rw [exec_lockTestMet, State.fabric_live hl, State.lockTestMet_due hw (.inl hs) ht]
  case d0 =>
    intro s r
    exact s.takeD0_takes r
  case hold =>
    intro s hl hs hh
    rw [exec_holdExpired, State.fabric_live hl]
    obtain ⟨u, hu, h5, hr⟩ := State.holdExpired_due hs hh
    exact ⟨u, by rw [hu], h5, hr⟩
  case wrap =>
    intro s hl h1 h0
    obtain ⟨hw, hn⟩ := State.countTick_wraps h1 h0
    exact ⟨by rw [exec_wrap, State.fabric_live hl, hw], hn⟩

end Sys2Proof.Machine

/-! SUPPORT. -/

namespace Sys2Proof.Machine

/-! ### Activity, measurement and qualification (R476 to R479) -/

theorem State.refInactive_active {s : State} {r : Nat} (hr : r < 6) (hb : bit (s.reg .refStatus 0 r) 2 = true) :
    s.refInactive r = (s.setFld .refStatus 0 r 2 1 0).setQual r 0 0 :=
  if_neg fun h => h.elim (Nat.not_le.mpr hr) (by simp [hb])

theorem State.refActive_inactive {s : State} {r : Nat} (hr : r < 6) (hb : bit (s.reg .refStatus 0 r) 2 = false) (hk : s.fld .refCfg 0 r 0 2 ≠ 0) :
    s.refActive r = ((s.setFld .refStatus 0 r 2 1 1).setFld .refStatus 0 r 8 8
      (min 255 ((s.setFld .refStatus 0 r 2 1 1).fld .timXTimes 0 0 0 16))).setQual r 1 0 :=
  if_neg fun h => by
    rcases h with h | h | h
    · omega
    · rw [hb] at h
      exact absurd h (by decide)
    · exact hk h

theorem State.setRef_selected (s : State) (r : Nat) (x : RefSt) : (s.setRef r x).selected = s.selected := rfl
theorem State.setRef_qual (s : State) (r : Nat) (x : RefSt) (q : Nat) : (s.setRef r x).refQual q = s.refQual q := rfl

theorem State.setRef_reg (s : State) (r : Nat) (x : RefSt) (q : FReg) (i j : Nat) : (s.setRef r x).reg q i j = s.reg q i j := rfl

theorem State.setRef_refSt (s : State) (r : Nat) (x : RefSt) : (s.setRef r x).refSt r = x := tabGet_tabSet_self ..

/-- What a measurement within the limits shows of a reference. -/
def State.refMarked (s : State) (r : Nat) (offset : Int) : State :=
  ((s.setReg .refOffset 0 r (i32 offset)).setFld .refStatus 0 r 3 1 1).setFld .refStatus 0 r 4 1 1

theorem State.refMarked_qual (s : State) (r : Nat) (offset : Int) : (s.refMarked r offset).refQual r = s.refQual r := by
  unfold State.refMarked State.refQual
  rw [State.fld_setFld_apart _ _ _ _ _ _ _ _ _ (by decide) (.inl (by decide)),
    State.fld_setFld_apart _ _ _ _ _ _ _ _ _ (by decide) (.inl (by decide)), State.fld_setReg_ne _ (by decide)]

theorem State.refMarked_selected (s : State) (r : Nat) (offset : Int) : (s.refMarked r offset).selected = s.selected := by
  unfold State.refMarked State.selected
  rw [State.fld_setFld_ne _ (by decide), State.fld_setFld_ne _ (by decide), State.fld_setReg_ne _ (by decide)]

theorem State.refMarked_offset (s : State) (r : Nat) (offset : Int) : (s.refMarked r offset).reg .refOffset 0 r = i32 offset := by
  unfold State.refMarked
  rw [State.reg_setFld_ne _ (by decide), State.reg_setFld_ne _ (by decide), State.reg_setReg_self]

theorem State.bit_setFld_one (s : State) (r : FReg) (i j : Nat) {k : Nat} (h : k < 32) : bit ((s.setFld r i j k 1 1).reg r i j) k = true := by
  have hf : bf ((s.setFld r i j k 1 1).reg r i j) k 1 = 1 := s.fld_setFld_self r i j k 1 1 h
  rw [bit_eq, hf]
  rfl

theorem State.bit_setFld_apart (s : State) (r : FReg) (i j v : Nat) {k l : Nat} (h : k < 32) (hl : l ≠ k) :
    bit ((s.setFld r i j k 1 v).reg r i j) l = bit (s.reg r i j) l := by
  have hf : bf ((s.setFld r i j k 1 v).reg r i j) l 1 = bf (s.reg r i j) l 1 := s.fld_setFld_apart r i j k 1 v l 1 h (by omega)
  rw [bit_eq, bit_eq, hf]

theorem State.refMarked_within (s : State) (r : Nat) (offset : Int) :
    bit ((s.refMarked r offset).reg .refStatus 0 r) 3 = true ∧ bit ((s.refMarked r offset).reg .refStatus 0 r) 4 = true := by
  unfold State.refMarked
  exact ⟨(State.bit_setFld_apart _ _ _ _ _ (by decide) (by decide)).trans (State.bit_setFld_one _ _ _ _ (by decide)),
    State.bit_setFld_one _ _ _ _ (by decide)⟩

/-- A measurement of a QUALIFIED reference that is not selected, within the accept limit (R478, R479). -/
theorem State.refMeasure_accepted {s : State} {r edges n : Nat} {phase : Int} (hr : r < 5) (hb : bit (s.reg .refStatus 0 r) 2 = true)
    (hq : s.refQual r = 2) (hs : s.selected ≠ r) (hn : s.nomMhz r * n ≠ 0)
    (ha : (((edges * 200000000000 : Nat) : Int) - (s.nomMhz r * n : Nat)).natAbs * 1000000000 ≤ s.fld .timXLimits 0 0 0 16 * (s.nomMhz r * n))
    (hl : s.fld .timXLimits 0 0 0 16 ≤ s.fld .timXLimits 0 0 16 16) :
    ∃ target : Nat, let u := s.refMarked r ((((edges * 200000000000 : Nat) : Int) - (s.nomMhz r * n : Nat)) * 1000000000 / (s.nomMhz r * n : Nat))
      s.refMeasure r edges n phase = u.setRef r { u.refSt r with target := target, phase := phase } := by
  have h5 : r ≠ 5 := by omega
  have inAccept : ((((edges * 200000000000 : Nat) : Int) - (s.nomMhz r * n : Nat)) * 1000000000).natAbs ≤ s.fld .timXLimits 0 0 0 16 * (s.nomMhz r * n) := by
    rw [Int.natAbs_mul]
    exact ha
  have inReject := inAccept.trans (Nat.mul_le_mul_right (s.nomMhz r * n) hl)
  refine ⟨(2 * nominal * (edges * 200000000000) + s.nomMhz r * n) / (2 * (s.nomMhz r * n)), ?_⟩
  unfold State.refMeasure
  rw [if_neg (by simp [hb]; omega), if_neg h5, if_neg h5]
  obtain ⟨num, hnum⟩ : ∃ num, num = edges * 200000000000 := ⟨_, rfl⟩
  obtain ⟨den, hden⟩ : ∃ den, den = s.nomMhz r * n := ⟨_, rfl⟩
  rw [← hden] at hn
  rw [← hnum, ← hden] at inAccept inReject ⊢
  clear ha
  rw [if_neg hn]
  extract_lets u dev acc rej inA inR s1 s2 x s3 s4 y good len s5
  have hA : inA = true := decide_eq_true inAccept
  have hR : inR = true := decide_eq_true inReject
  have e2 : s2 = u := by
    unfold s2
    rw [hA, hR]
    rfl
  have q3 : s3.refQual r = 2 := by
    unfold s3
    rw [e2, State.setRef_qual]
    unfold u
    rw [State.refMarked_qual]
    exact hq
  have e4 : s4 = s3 := by
    unfold s4
    rw [if_neg (by rw [hR]; decide), if_neg (by rw [q3]; decide)]
  have e5 : s5 = s3 := by
    unfold s5
    rw [e4, if_neg (by rw [q3]; decide)]
  have unselected : s3.selected ≠ r := by
    unfold s3
    rw [e2, State.setRef_selected]
    unfold u
    rw [State.refMarked_selected]
    exact hs
  rw [e5, if_neg unselected]
  unfold s3 x
  rw [e2]

theorem State.refQualified_due {s : State} {r : Nat} (hr : r < 6) (hq : s.refQual r = 1) (hg : (s.refSt r).qualS ≤ (s.refSt r).goodSecs) :
    s.refQualified r = s.setQual r 2 0 := if_pos ⟨hr, hq, hg⟩

/-! ### Host writes of the references (R476, R480, R481) -/

/-- The fields of a REF_CFG that was written. -/
theorem bf_refCfg (v : Word) : bf (w32 (bf v 0 2 + bf v 4 4 * 16 + bf v 8 1 * 256)) 0 2 = bf v 0 2 := by
  have h2 := bf_lt v 0 2
  have h4 := bf_lt v 4 4
  have h1 := bf_lt v 8 1
  generalize bf v 0 2 = a at *
  generalize bf v 4 4 = b at *
  generalize bf v 8 1 = c at *
  rw [bf_eq]
  simp only [w32, BitVec.toNat_ofNat]
  omega

theorem State.refCfgWrite_kind {s : State} {host r : Nat} {v : Word} (h : s.reached host 0x30 0) (hr : r < 6) (hk : kindAllowed r (bf v 0 2) = true)
    (hn : bf (s.reg .refCfg 0 r) 0 2 ≠ bf v 0 2) :
    s.refCfgWrite host r false v = ((s.regWriteRec host 0x30 0 0 (0x40 + 0x10 * r) v).setReg .refCfg 0 r
      (w32 (bf v 0 2 + bf v 4 4 * 16 + bf v 8 1 * 256))).requalify r := by
  unfold State.refCfgWrite
  rw [State.hostWrite_reached h, if_neg (by omega), if_neg (by decide), if_neg (by simp [hk])]
  dsimp only
  rw [bf_refCfg, State.regWriteRec_reg]
  exact if_pos (.inl hn)

theorem State.timCtlWrite_inRange {s : State} {host : Nat} {v : Word} (h : s.reached host 0x30 0) (hf : bf v 4 3 ≤ 5) :
    s.timCtlWrite host v = ((s.regWriteRec host 0x30 0 0 0x04 v).setReg .timCtl 0 0 (w32 (bf v 0 2 + bf v 4 3 * 16))).reselect 2 := by
  unfold State.timCtlWrite
  rw [State.hostWrite_reached h, if_neg (Nat.not_lt.mpr hf)]

theorem State.wtrExpiry_best {s : State} {r : Nat} (hs : s.timState = 2) (hv : bit (s.reg .timCtl 0 0) 0 = true)
    (hf : bit (s.reg .timCtl 0 0) 1 = false)
    (hb : s.bestOf ((List.range 6).filter fun q => s.refBetter q && s.wtrLeft q == 0) = some r) : s.wtrExpiry r = s.selectRef r 1 :=
  if_pos ⟨hs, hv, by rw [hf]; rfl, hb⟩

theorem State.hostRefTimeout_due {s : State} {t : Nat} (ht : s.tim.hostTick = some t) (hd : t + s.fld .timXHostMs 0 0 0 16 * 200000 ≤ s.ticks) :
    s.hostRefTimeout = s.refInactive 5 := by
  unfold State.hostRefTimeout
  rw [ht]
  exact if_pos hd

/-- The host's increment and the time of its write stand. -/
def HostIncr (lo hi : Word) (tick : Nat) (v : State) : Prop :=
  v.reg .timHostIncrLo 0 0 = lo ∧ v.reg .timHostIncrHi 0 0 = hi ∧ v.tim.hostTick = some tick

section
variable {lo hi : Word} {tick : Nat} {v : State}

theorem HostIncr.setReg (h : HostIncr lo hi tick v) {r : FReg} (hr : r ≠ .timHostIncrLo ∧ r ≠ .timHostIncrHi) (i j : Nat) (w : Word) :
    HostIncr lo hi tick (v.setReg r i j w) := by
  obtain ⟨hl, hh, ht⟩ := h
  exact ⟨(State.reg_setReg_ne _ hr.1 ..).trans hl, (State.reg_setReg_ne _ hr.2 ..).trans hh, ht⟩

theorem HostIncr.setFld (h : HostIncr lo hi tick v) {r : FReg} (hr : r ≠ .timHostIncrLo ∧ r ≠ .timHostIncrHi) (i j k n w : Nat) :
    HostIncr lo hi tick (v.setFld r i j k n w) := h.setReg hr ..

theorem HostIncr.setTim (h : HostIncr lo hi tick v) {x : TimSt} (hx : x.hostTick = v.tim.hostTick) : HostIncr lo hi tick (v.setTim x) :=
  ⟨h.1, h.2.1, hx.trans h.2.2⟩

theorem HostIncr.setRef (h : HostIncr lo hi tick v) (r : Nat) (x : RefSt) : HostIncr lo hi tick (v.setRef r x) := h

theorem HostIncr.ite (c : Prop) [Decidable c] {u : State} (hu : HostIncr lo hi tick u) (hv : HostIncr lo hi tick v) :
    HostIncr lo hi tick (if c then u else v) := by
  split
  · exact hu
  · exact hv

theorem HostIncr.timingRec (h : HostIncr lo hi tick v) (what ref st v4 v5 : Nat) : HostIncr lo hi tick (v.timingRec what ref st v4 v5) := by
  unfold State.timingRec
  rw [State.journal_eq]
  exact h

theorem HostIncr.setTimState (h : HostIncr lo hi tick v) (st : Nat) : HostIncr lo hi tick (v.setTimState st) :=
  ((h.setFld (by decide) ..).timingRec ..).setTim rfl

theorem HostIncr.takeD0 (h : HostIncr lo hi tick v) (r : Nat) : HostIncr lo hi tick (v.takeD0 r) := by
  unfold State.takeD0
  refine HostIncr.setTim (HostIncr.setReg ?_ (by decide) ..) rfl
  exact h.setTim rfl

theorem HostIncr.selectRef (h : HostIncr lo hi tick v) (r cause : Nat) : HostIncr lo hi tick (v.selectRef r cause) := by
  unfold State.selectRef
  dsimp only
  apply HostIncr.setTimState
  have selected : HostIncr lo hi tick (v.setFld .timState 0 0 4 3 r) := h.setFld (by decide) ..
  exact selected.takeD0 r

theorem HostIncr.written {n : Nat} (hl : w32 n = lo) (hh : w32 (n / 2 ^ 32) = hi) (ht : v.ticks = tick) :
    HostIncr lo hi tick (let u := v.setPair .timHostIncrLo .timHostIncrHi 0 0 n
      u.setTim { u.tim with hostTick := some u.ticks }) :=
  ⟨(State.reg_setReg_ne _ (by decide) ..).trans ((State.reg_setReg_self ..).trans hl), (State.reg_setReg_self ..).trans hh, congrArg some ht⟩

theorem HostIncr.freewheel (h : HostIncr lo hi tick v) (target tick' : Nat) :
    HostIncr lo hi tick ((v.setTim { v.tim with target := target, holdTick := tick' }).setReg .timHoldS 0 0 0) := by
  refine HostIncr.setReg ?_ (by decide) ..
  exact h.setTim rfl

theorem HostIncr.deselect (h : HostIncr lo hi tick v) : HostIncr lo hi tick v.deselect := by
  unfold State.deselect
  have free : HostIncr lo hi tick (v.setFld .timState 0 0 4 3 7) := h.setFld (by decide) ..
  generalize v.setFld .timState 0 0 4 3 7 = u at *
  refine .ite _ (.ite _ ?_ ?_) free
  · exact (free.freewheel _ _).setTimState 4
  · refine HostIncr.setTimState ?_ 0
    exact free.setTim rfl

theorem HostIncr.reselect (h : HostIncr lo hi tick v) (cause : Nat) : HostIncr lo hi tick (v.reselect cause) := by
  unfold State.reselect
  dsimp only
  split
  · exact .ite _ h h.deselect
  · exact .ite _ h (.ite _ h (h.selectRef ..))

theorem HostIncr.setQual (h : HostIncr lo hi tick v) (r q cause : Nat) : HostIncr lo hi tick (v.setQual r q cause) := by
  unfold State.setQual
  refine .ite _ h ?_
  apply HostIncr.reselect
  apply HostIncr.setRef
  have shown : ∀ y, HostIncr lo hi tick ((v.setFld .refStatus 0 r 0 2 q).timingRec 2 r q 0 y) := fun y => (h.setFld (by decide) ..).timingRec ..
  exact .ite _ (shown _) (.ite _ (shown _) (shown _))

theorem HostIncr.refActive (h : HostIncr lo hi tick v) (r : Nat) : HostIncr lo hi tick (v.refActive r) := by
  unfold State.refActive
  refine .ite _ h ?_
  apply HostIncr.setQual
  apply HostIncr.setFld _ (by decide)
  exact h.setFld (by decide) ..

end

/-- The words of a number that two registers hold. -/
theorem words_of_pair (lo hi : Word) : w32 (lo.toNat + hi.toNat * 2 ^ 32) = lo ∧ w32 ((lo.toNat + hi.toNat * 2 ^ 32) / 2 ^ 32) = hi := by
  have hl := lo.isLt
  have hh := hi.isLt
  constructor <;> apply BitVec.eq_of_toNat_eq <;> simp only [w32, BitVec.toNat_ofNat] <;> omega

theorem State.regWriteRec_pairLo (s : State) (port cap inst blk off : Nat) (v : Word) :
    (s.regWriteRec port cap inst blk off v).bus.pairLo = s.bus.pairLo := by
  obtain ⟨_, _, _, _, _, h⟩ := s.regWriteRec_bus_eq port cap inst blk off v
  rw [h]

/-- The increment a host has written is taken whole, with the tick of its write (R480). -/
theorem State.hostIncrWrite_taken {s : State} {host : Nat} {lo hi : Word} (h : s.reached host 0x30 0)
    (hlo : (assocGet s.bus.pairLo (FReg.fkey .timHostIncrLo 0 0)).getD (s.reg .timHostIncrLo 0 0) = lo)
    (hmin : nominal - nominal / 10000 ≤ lo.toNat + hi.toNat * 2 ^ 32) (hmax : lo.toNat + hi.toNat * 2 ^ 32 ≤ nominal + nominal / 10000) :
    HostIncr lo hi s.ticks (s.hostIncrWrite host hi) := by
  unfold State.hostIncrWrite
  rw [State.hostWrite_reached h, State.regWriteRec_pairLo, State.regWriteRec_reg, hlo]
  have ranged : ¬ (lo.toNat + hi.toNat * 2 ^ 32 < nominal - nominal / 10000 ∨ nominal + nominal / 10000 < lo.toNat + hi.toNat * 2 ^ 32) :=
    fun h => h.elim (Nat.not_lt.mpr hmin) (Nat.not_lt.mpr hmax)
  obtain ⟨wl, wh⟩ := words_of_pair lo hi
  refine (congrArg (HostIncr lo hi s.ticks) (if_neg ranged)).mpr ?_
  have active : ∀ u, HostIncr lo hi s.ticks u → ∀ c [Decidable c], HostIncr lo hi s.ticks (if c then u.refActive 5 else u) :=
    fun u hu c _ => .ite c (hu.refActive 5) hu
  have followed : ∀ u, HostIncr lo hi s.ticks u →
      HostIncr lo hi s.ticks (if u.selected = 5 then u.setTim { u.tim with target := u.refTarget 5 } else u) :=
    fun u hu => .ite _ (hu.setTim rfl) hu
  apply followed
  apply active
  apply HostIncr.setRef
  apply HostIncr.setReg _ (by decide)
  apply HostIncr.written wl wh
  exact (s.regWriteRec_memory host 0x30 0 0 0x1C hi).2.2

/-- Settles O22. An OFFSET rounded down, a wait-to-restore timer for each better reference and a running count that keeps its QUAL_S are the
model's choices (log 21). -/
theorem referencesAreQualifiedAndSelected : Obligations.ReferencesAreQualifiedAndSelected := by
  refine ⟨?inactive, ?active, ?measured, ?qualified, ?kind, ?ctl, ?wtr, ?increment, ?silent⟩
  case inactive =>
    intro s r hl hr hb
    rw [exec_refInactive, State.fabric_live hl, State.refInactive_active hr hb]
  case active =>
    intro s r hl hr hb hk
    rw [exec_refActive, State.fabric_live hl, State.refActive_inactive hr hb hk, State.fld_setFld_ne _ (by decide)]
  case measured =>
    intro s r edges n phase hl hr hb hq hs hn ha hlim
    obtain ⟨target, hm⟩ := State.refMeasure_accepted (phase := phase) hr hb hq hs hn ha hlim
    rw [exec_refMeasurement, State.fabric_live hl, hm]
    refine ⟨_, rfl, ?_, ?_, ?_, ?_, ?_⟩
    · rw [State.setRef_qual, State.refMarked_qual, hq]
    · rw [State.setRef_reg, State.refMarked_offset]
    · rw [State.setRef_reg, (s.refMarked_within r _).1]
    · rw [State.setRef_reg, (s.refMarked_within r _).2]
    · rw [State.setRef_refSt]
  case qualified =>
    intro s r hl hr hq hg
    rw [exec_refQualified, State.fabric_live hl, State.refQualified_due hr hq hg]
  case kind =>
    intro s host r v hl h hr hk hn
    rw [exec_refCfgWrite, State.fabric_live hl, State.refCfgWrite_kind h hr hk hn]
  case ctl =>
    intro s host v hl h hf
    rw [exec_timCtlWrite, State.fabric_live hl, State.timCtlWrite_inRange h hf]
  case wtr =>
    intro s r hl hs hv hf hb
    rw [exec_wtrExpiry, State.fabric_live hl, State.wtrExpiry_best hs hv hf hb]
  case increment =>
    intro s host hi hl h lo v hmin hmax
    obtain ⟨hlo, hhi, ht⟩ := State.hostIncrWrite_taken (lo := lo) h rfl hmin hmax
    rw [exec_timHostIncrWrite, State.fabric_live hl]
    exact ⟨_, rfl, hlo, hhi, ht⟩
  case silent =>
    intro s t hl ht hd
    rw [exec_hostRefTimeout, State.fabric_live hl, State.hostRefTimeout_due ht hd]

end Sys2Proof.Machine

/-! SUPPORT. -/

namespace Sys2Proof.Machine

/-! ### Captures (R492) -/

/-- A result that is taken, with what a channel's registers show of it. -/
theorem State.record_shows (s : State) (c : Nat) (t : Word) (sub : Nat) :
    (s.record c t sub).reg .capTime 0 c = t ∧
      (s.record c t sub).reg .capSub 0 c = w32 (sub % 16 + b2n ((tabGet CapSt.init s.tim.caps c).unread || bit (s.reg .capSub 0 c) 4) * 16) ∧
      (s.record c t sub).reg .capCount 0 c = s.reg .capCount 0 c + 1 ∧
      (tabGet CapSt.init (s.record c t sub).tim.caps c).unread = true ∧ (tabGet CapSt.init (s.record c t sub).tim.caps c).valid = true := by
  unfold State.record
  extract_lets ctl x fresh n lost s1 s2 s3 t0 y x' s4
  have quiet : (if bit ctl 6 = true ∧ n ≤ 1000 then s4.emit 0x3009 0 0 (pay [c, t.toNat, (s4.reg .capSub 0 c).toNat]) else s4).fregs = s4.fregs ∧
      (if bit ctl 6 = true ∧ n ≤ 1000 then s4.emit 0x3009 0 0 (pay [c, t.toNat, (s4.reg .capSub 0 c).toNat]) else s4).tim = s4.tim := by
    split <;> exact ⟨rfl, rfl⟩
  rw [State.reg_congr quiet.1, State.reg_congr quiet.1, State.reg_congr quiet.1, quiet.2]
  have entry : tabGet CapSt.init s4.tim.caps c = y := tabGet_tabSet_self CapSt.init y s3.tim.caps c
  refine ⟨?time, ?sub, ?count, ?unread, ?valid⟩
  case time => exact (State.reg_setReg_ne s2 (by decide) ..).trans (State.reg_setReg_self s1 ..)
  case sub => exact State.reg_setReg_self s2 ..
  case count =>
    refine (State.reg_setReg_ne s2 (by decide) ..).trans ((State.reg_setReg_ne s1 (by decide) ..).trans ?_)
    exact State.reg_setReg_self s ..
  case unread => rw [entry]
  case valid => rw [entry]

theorem State.capture_pin {s : State} {c : Nat} (hc : c < 16) (he : bit (s.reg .capCtl 0 c) 7 = true) (hi : bf (s.reg .capCtl 0 c) 0 5 < 5)
    (t : Word) (sub : Nat) : s.capture c t sub = s.record c t sub :=
  if_neg fun h => by
    rcases h with h | h | h
    · omega
    · rw [he] at h
      exact absurd h (by decide)
    · omega

theorem State.capture_none {s : State} {c : Nat} (h : bit (s.reg .capCtl 0 c) 7 = false ∨ 5 ≤ bf (s.reg .capCtl 0 c) 0 5) (t : Word)
    (sub : Nat) : s.capture c t sub = s :=
  if_pos (.inr (h.imp (fun h => by rw [h]; rfl) id))

/-! ### Pulse outputs (R493, R494) -/

/-- A pulse output drives its edges: the module is below the fail-safe, out of service, and its timing core is sound. -/
def State.pulseRuns (s : State) (p : Nat) : Prop :=
  p < 4 ∧ s.fld .thmState 0 0 0 3 < 3 ∧ s.wdn.serviceStep = none ∧ s.fld .debugState 0 0 0 2 ≠ 2 ∧ s.fld .timState 0 0 11 1 ≠ 0

/-- A rising edge at `t` lies within a pulse's width and 10 ns of the last one. -/
def State.pulseNear (s : State) (p : Nat) (t : Word) : Bool :=
  match (s.pulse p).last with | some l => decide (sdiff t l < (s.reg .pulseWidth 0 p).toNat + 10) | none => false

/-- The state after a due rising edge, before the next one is scheduled. -/
def State.pulseRisen (s : State) (p : Nat) (t : Word) : State :=
  if s.pulseNear p t = true then s else (s.drivePulse p true t).setPulse p
    { s.pulse p with level := true, fall := some (t + s.reg .pulseWidth 0 p), last := some t }

/-- The next rising edge of an output after one at `t`, by its mode. -/
def State.pulseScheduled (u : State) (p : Nat) (t : Word) (mode : Nat) : State :=
  let x := u.pulse p
  match mode with
  | 1 =>
    match x.align with
    | some a =>
      let v := (u.setReg .pulseStart 0 p a).setPulse p { x with align := none }
      let v := v.setPulse p { v.pulse p with next := some (v.firstEdge p 1) }
      v.emit 0x3008 0 0 (pay [p + 8, (((v.pulse p).next).getD 0).toNat])
    | none => u.setPulse p { x with next := some (t + u.reg .pulsePeriod 0 p) }
  | 2 =>
    let g := u.fld .pulseCtl 0 p 4 3
    let k := u.firstK g (t - u.reg .pulseStart 0 p) 1
    u.setPulse p { x with next := some (u.instant g k + u.reg .pulseStart 0 p) }
  | _ => (u.setPulse p { x with next := none }).setFld .pulseCtl 0 p 0 2 0

theorem State.pulseScheduled_aligned {u : State} {p : Nat} {a : Word} (h : (u.pulse p).align = some a) (t : Word) :
    u.pulseScheduled p t 1 =
      let v := (u.setReg .pulseStart 0 p a).setPulse p { u.pulse p with align := none }
      let v := v.setPulse p { v.pulse p with next := some (v.firstEdge p 1) }
      v.emit 0x3008 0 0 (pay [p + 8, (((v.pulse p).next).getD 0).toNat]) := by
  simp only [State.pulseScheduled, h]

theorem State.pulseScheduled_free {u : State} {p : Nat} (h : (u.pulse p).align = none) (t : Word) :
    u.pulseScheduled p t 1 = u.setPulse p { u.pulse p with next := some (t + u.reg .pulsePeriod 0 p) } := by
  simp only [State.pulseScheduled, h]

section
variable {s : State} {p : Nat} {t : Word} (hr : s.pulseRuns p)
include hr

theorem State.not_stopped_of_pulseRuns : ¬ (4 ≤ p ∨ 3 ≤ s.fld .thmState 0 0 0 3 ∨ s.wdn.serviceStep.isSome = true ∨ s.fld .debugState 0 0 0 2 = 2 ∨
    s.fld .timState 0 0 11 1 = 0) := by
  obtain ⟨hp, hl, hs, hd, ht⟩ := hr
  simp [hs, hd, ht]
  omega

theorem State.pulseEdge_falls (hf : (s.pulse p).fall = some t) (hl : (s.pulse p).level = true) (hn : atOrAfter s.now t = true) :
    s.pulseEdge p = (s.drivePulse p false t).setPulse p { s.pulse p with level := false, fall := none } := by
  unfold State.pulseEdge
  dsimp only
  rw [if_neg (State.not_stopped_of_pulseRuns hr), hf, hl]
  exact if_pos hn

theorem State.pulseEdge_rises (hl : (s.pulse p).level = false) (hx : (s.pulse p).next = some t) (hn : atOrAfter s.now t = true) :
    s.pulseEdge p = (s.pulseRisen p t).pulseScheduled p t (s.fld .pulseCtl 0 p 0 2) := by
  unfold State.pulseEdge
  rw [if_neg (State.not_stopped_of_pulseRuns hr)]
  refine (if_neg ?high).trans ?edge
  case high =>
    rw [hl]
    split <;> simp
  case edge =>
    split
    case h_1 hnone => exact absurd (hx.symm.trans hnone) (by simp)
    case h_2 t' hsome =>
      obtain rfl : t' = t := Option.some.inj (hsome.symm.trans hx)
      exact if_neg (by rw [hn]; decide)

end

theorem State.pulse_setPulse (s : State) (p : Nat) (x : PulseSt) : (s.setPulse p x).pulse p = x := tabGet_tabSet_self ..

/-- A rising edge with no edge before it is driven. -/
theorem State.pulseRisen_first {s : State} {p : Nat} (h : (s.pulse p).last = none) (t : Word) :
    s.pulseRisen p t = (s.drivePulse p true t).setPulse p
      { s.pulse p with level := true, fall := some (t + s.reg .pulseWidth 0 p), last := some t } := by
  have far : s.pulseNear p t = false := by
    unfold State.pulseNear
    rw [h]
  unfold State.pulseRisen
  rw [far]
  rfl

theorem assocGet_assocSet_self {β : Type} (l : List (Nat × β)) (k : Nat) (v : β) : assocGet (assocSet l k v) k = some v := by
  have absent : (l.filter fun e => e.1 != k).find? (fun e => e.1 == k) = none :=
    List.find?_eq_none.mpr fun e he => by simpa using (List.mem_filter.mp he).2
  simp [assocGet, assocSet, List.find?_append, absent]

/-- Settles O24. That the device's own edges are recorded as they are driven, and a pin's alone by the CAPTURE row, is the model's choice
(log 22). -/
theorem captureAndPulsesTakeEffect : Obligations.CaptureAndPulsesTakeEffect := by
  refine ⟨?edge, ?noEdge, ?timeRead, ?subRead, ?now, ?frac, ?rises, ?falls, fun _ _ _ _ => rfl, ?first⟩
  case edge =>
    intro s c t sub hl hc he hi
    rw [exec_capture, State.fabric_live hl, State.capture_pin hc he hi]
    exact ⟨_, rfl, s.record_shows c t sub⟩
  case noEdge =>
    intro s c t sub hl hc h
    rw [exec_capture, State.fabric_live hl, State.capture_none h]
  case timeRead =>
    intro s port c hl hc
    rw [exec_capTimeRead, State.fabric_live hl]
    unfold State.capTimeRead
    rw [if_neg (by omega)]
    rfl
  case subRead =>
    intro s port c hl hc
    rw [exec_capSubRead, State.fabric_live hl]
    unfold State.capSubRead
    rw [if_neg (by omega)]
  case now =>
    intro s port hl
    rw [exec_timNowRead, State.fabric_live hl]
    refine ⟨_, rfl, rfl, ?_⟩
    exact assocGet_assocSet_self ..
  case frac =>
    intro s port hl
    rw [exec_timNowRead, State.fabric_live hl]
    rfl
  case rises =>
    intro s p t hl hp hlev hsvc hdbg htim hlow hx hn near u x
    have run : s.pulseRuns p := ⟨hp, hlev, hsvc, hdbg, htim⟩
    have risen : s.pulseRisen p t = u := rfl
    have edge := State.pulseEdge_rises run hlow hx hn
    rw [risen] at edge
    refine ⟨fun a hm ha => ?aligned, fun hm => ?group, fun hm => ?single⟩ <;> rw [exec_pulseEdge, State.fabric_live hl, edge, hm]
    case aligned => rw [State.pulseScheduled_aligned ha]
    case group => rfl
    case single => rfl
  case falls =>
    intro s p t hl hp hlev hsvc hdbg htim hf hhigh hn
    rw [exec_pulseEdge, State.fabric_live hl, State.pulseEdge_falls ⟨hp, hlev, hsvc, hdbg, htim⟩ hf hhigh hn]
  case first =>
    intro s p t hl hp hlev hsvc hdbg htim hlow hlast hx hn hm ha
    rw [exec_pulseEdge, State.fabric_live hl, State.pulseEdge_rises ⟨hp, hlev, hsvc, hdbg, htim⟩ hlow hx hn, hm, State.pulseRisen_first hlast,
      State.pulseScheduled_free (by rw [State.pulse_setPulse]; exact ha)]
    refine ⟨_, rfl, rfl, ?_, ?_, ?_⟩ <;> simp only [State.pulse_setPulse]
    rfl

end Sys2Proof.Machine

/-! SUPPORT. -/

namespace Sys2Proof.Machine

/-! ### What leaves the device changes the ports' layers and the wire alone -/

/-- A part of the state that neither a port's lane and link layer nor what leaves the device is. -/
structure OffWire {β : Type} (g : State → β) : Prop where
  link : ∀ s p x, g (State.setLink s p x) = g s
  lane : ∀ s p x, g (State.setLane s p x) = g s
  send : ∀ s o, g (State.send s o) = g s

theorem OffWire.fregs : OffWire State.fregs := ⟨fun _ _ _ => rfl, fun _ _ _ => rfl, fun _ _ => rfl⟩
theorem OffWire.tim : OffWire State.tim := ⟨fun _ _ _ => rfl, fun _ _ _ => rfl, fun _ _ => rfl⟩

section
variable {β : Type} {g : State → β} (hg : OffWire g)
include hg

theorem OffWire.putPacket (s : State) (p typ flags stream alive : Nat) (stamp : Word) (d : List Byte) :
    g (s.putPacket p typ flags stream alive stamp d) = g s := (hg.send _ _).trans (hg.lane ..)

theorem OffWire.sendItem (s : State) (p typ flags stream alive : Nat) (stamp : Word) (d : List Byte) :
    g (s.sendItem p typ flags stream alive stamp d) = g s := by
  unfold State.sendItem
  dsimp only
  split
  · rfl
  split
  · exact hg.link ..
  split
  · exact (hg.link ..).trans (hg.putPacket ..)
  split
  · exact (forEach_frame (g := g) (fun _ _ => hg.putPacket ..) _ _).trans ((hg.link ..).trans (hg.putPacket ..))
  · exact hg.putPacket ..

theorem OffWire.control (s : State) (p code : Nat) (body : List Byte) : g (s.control p code body) = g s := by
  unfold State.control State.sendNew
  split
  · rfl
  · exact (hg.sendItem ..).trans (hg.link ..)

theorem OffWire.alignNotes (s : State) (k : Nat) : g (s.alignNotes k) = g s := by
  unfold State.alignNotes
  refine forEach_frame (g := g) (fun h t => ?_) _ _
  refine forEach_frame (g := g) (fun p u => ?_) _ _
  dsimp only
  split
  · exact hg.control ..
  · rfl

end

/-! ### The start of a command leaves TIME_NS -/

theorem Bus.journalAt_time (b : Bus) (t : Word) (kind cap inst : Nat) (body : List Byte) : (b.journalAt t kind cap inst body).time = b.time := by
  unfold Bus.journalAt
  rw [Bus.jtrim_eq]
  rfl

theorem State.journal_now (s : State) (kind cap inst : Nat) (body : List Byte) : (s.journal kind cap inst body).now = s.now := by
  unfold State.journal
  split
  · exact Bus.journalAt_time ..
  · rfl

theorem State.begun_now (s : State) (r : Nat) (e : FEntry) : (s.begun r e).now = s.now := s.journal_now ..

theorem State.begun_group (s : State) (r : Nat) (e : FEntry) (g : Nat) : (s.begun r e).group g = s.group g := by
  rw [State.begun_eq]
  rfl

theorem State.begun_groupMet (s : State) (r : Nat) (e : FEntry) (g : Nat) : (s.begun r e).groupMet g = s.groupMet g := by
  unfold State.groupMet
  rw [State.begun_now, State.begun_reg]

/-! ### GROUP_RATE and ALIGN (R490, R491) -/

section
variable {s : State} {r host : Nat} {e : FEntry} (hh : s.plan.has 0x30 e.inst = true) (ho : e.object < 8)
include hh ho

theorem groupRate_inRange {c : CadEnt} (hc : s.plan.cad e.object = some c) (hz : e.zeroFrom 36 56 = true) (hl : c.rateMin ≤ e.arg 32 4)
    (hm : e.arg 32 4 ≤ c.rateMax) : groupRate host r e (s.begun r e) = ((s.begun r e).setGroup e.object
      { s.group e.object with
        rate := some (e.arg 32 4, s.now)
        rateDue := ((s.group e.object).rate.filter fun q => s.groupMet e.object q.2) <|> (s.group e.object).rateDue }, some (1, 0)) := by
  unfold groupRate
  rw [State.checked_begun hh (by rw [State.begun_plan, hc]; simp [ho]) hz rfl]
  simp only [State.begun_plan, hc, State.begun_now, State.begun_group, State.begun_groupMet]
  exact if_neg (by omega)

theorem groupRate_limit {c : CadEnt} (hc : s.plan.cad e.object = some c) (hz : e.zeroFrom 36 56 = true)
    (hl : e.arg 32 4 < c.rateMin ∨ c.rateMax < e.arg 32 4) : groupRate host r e (s.begun r e) = (s.begun r e, some (0x8007, 0)) := by
  unfold groupRate
  rw [State.checked_begun hh (by rw [State.begun_plan, hc]; simp [ho]) hz rfl]
  simp only [State.begun_plan, hc]
  exact if_pos hl

variable (hc : (s.plan.cad e.object).isSome = true)
  (ha : (e.arg 32 1 < 2 && (e.arg 32 1 == 0 || e.arg 33 1 < 16) && e.zeroFrom 34 36 && e.zeroFrom 44 56) = true)
include hc ha

theorem align_group {a : Word} (hw : (s.begun r e).alignAnchor e = some a) : align host r e (s.begun r e) =
    ((s.begun r e).setGroup e.object
      { s.group e.object with
        align := some (a, s.now)
        alignDue := ((s.group e.object).align.filter fun q => s.groupMet e.object q.2) <|> (s.group e.object).alignDue }, some (1, 0)) := by
  unfold align
  dsimp only
  rw [State.checked_begun hh (by rw [State.begun_plan]; simp [ho, hc]) ha rfl]
  simp only [hw, State.begun_now, State.begun_group, State.begun_groupMet]
  exact if_pos ho

theorem align_noResult (hw : (s.begun r e).alignAnchor e = none) : align host r e (s.begun r e) = (s.begun r e, some (0x8008, 0)) := by
  unfold align
  dsimp only
  rw [State.checked_begun hh (by rw [State.begun_plan]; simp [ho, hc]) ha rfl]
  simp only [hw]
  rfl

end

theorem State.begun_caps (s : State) (r : Nat) (e : FEntry) : (s.begun r e).tim = s.tim := by rw [State.begun_eq]

theorem State.alignAnchor_given {s : State} {e : FEntry} (h : e.arg 32 1 = 0) : s.alignAnchor e = some (w32 (e.arg 36 4)) := if_pos h

theorem State.alignAnchor_channel {s : State} {e : FEntry} (h : e.arg 32 1 = 1) :
    s.alignAnchor e = if (tabGet CapSt.init s.tim.caps (e.arg 33 1)).valid then some (s.reg .capTime 0 (e.arg 33 1) + w32 (e.arg 40 4)) else none :=
  if_neg (by rw [h]; decide)

/-- What applies at a frame instant of what is pending and of what was due before. -/
def readyOf {α : Type} (ready : Word → Bool) (x due : Option (α × Word)) : Option α :=
  ((x.filter fun q => ready q.2) <|> due.filter fun q => ready q.2).map Prod.fst

theorem readyOf_met {α : Type} {ready : Word → Bool} {a : α} {d : Word} (h : ready d = true) (due : Option (α × Word)) :
    readyOf ready (some (a, d)) due = some a := by
  simp [readyOf, Option.filter, h]

/-! ### A group's frame instant (R489, R490) -/

theorem State.timingRec_fregs (s : State) (what ref st v4 v5 : Nat) : (s.timingRec what ref st v4 v5).fregs = s.fregs := by
  unfold State.timingRec
  rw [State.journal_eq]

theorem State.timingRec_plan (s : State) (what ref st v4 v5 : Nat) : (s.timingRec what ref st v4 v5).plan = s.plan := by
  unfold State.timingRec
  rw [State.journal_eq]

theorem State.timingRec_tim (s : State) (what ref st v4 v5 : Nat) : (s.timingRec what ref st v4 v5).tim = s.tim := by
  unfold State.timingRec
  rw [State.journal_eq]

theorem State.group_setGroup (s : State) (g : Nat) (x : GroupSt) : (s.setGroup g x).group g = x := tabGet_tabSet_self ..

/-- The rate a group takes at its frame instant `t`, with its anchor there. -/
def State.takeRate (c : State) (g : Nat) (t : Word) : Option Nat → State
  | some r => (c.setReg .grpRate 0 g (w32 r)).setReg .grpAnchor 0 g (t - c.reg .grpPhase 0 g)
  | none => c

/-- The anchor a group takes. -/
def State.takeAnchor (c : State) (g : Nat) : Option Word → State
  | some a => c.setReg .grpAnchor 0 g a
  | none => c

theorem State.takeRate_shows (c : State) (g : Nat) (t : Word) (rate : Option Nat) :
    (c.takeRate g t rate).reg .grpRate 0 g = (rate.map w32).getD (c.reg .grpRate 0 g) ∧
      (c.takeRate g t rate).reg .grpAnchor 0 g = if rate.isSome then t - c.reg .grpPhase 0 g else c.reg .grpAnchor 0 g := by
  cases rate with
  | none => exact ⟨rfl, rfl⟩
  | some r => exact ⟨(State.reg_setReg_ne _ (by decide) ..).trans (State.reg_setReg_self ..), State.reg_setReg_self ..⟩

theorem State.takeAnchor_shows (c : State) (g : Nat) (anchor : Option Word) :
    (c.takeAnchor g anchor).reg .grpRate 0 g = c.reg .grpRate 0 g ∧
      (c.takeAnchor g anchor).reg .grpAnchor 0 g = anchor.getD (c.reg .grpAnchor 0 g) := by
  cases anchor with
  | none => exact ⟨rfl, rfl⟩
  | some a => exact ⟨State.reg_setReg_ne _ (by decide) .., State.reg_setReg_self ..⟩

/-- What a group has taken stands when its next instant is shown, recorded and noted. -/
theorem State.instantShown_keeps (v : State) (g : Nat) (x : GroupSt) (k : Int) (what ref st v4 v5 typ inst sev : Nat) (p : Payload) :
    let u := ((((v.setGroup g x).setNext g k).timingRec what ref st v4 v5).emit typ inst sev p).alignNotes g
    u.reg .grpRate 0 g = v.reg .grpRate 0 g ∧ u.reg .grpAnchor 0 g = v.reg .grpAnchor 0 g ∧ (u.group g).rate = x.rate ∧
      (u.group g).align = x.align := by
  intro u
  have regs (r : FReg) (hr : .grpNext ≠ r) : u.reg r 0 g = v.reg r 0 g := by
    refine (State.reg_congr (OffWire.fregs.alignNotes _ g) ..).trans ((State.reg_congr (State.emit_fregs ..) ..).trans ?_)
    exact (State.reg_congr (State.timingRec_fregs ..) ..).trans (State.reg_setReg_ne _ hr ..)
  have group : u.group g = { x with k := k } := by
    unfold u State.group
    rw [OffWire.tim.alignNotes, State.emit_tim, State.timingRec_tim]
    refine ((v.setGroup g x).group_setGroup g _).trans ?_
    rw [State.group_setGroup]
  exact ⟨regs _ (by decide), regs _ (by decide), by rw [group], by rw [group]⟩

section
variable {s c : State} {g : Nat} (hg : g < 8) (hr : (s.reg .grpRate 0 g).toNat ≠ 0) (hd : atOrAfter s.now (s.reg .grpNext 0 g) = true)
  (hc : s.captureAt (9 + g) none (s.reg .grpNext 0 g) = c)
include hg hr hd hc

omit hc in
theorem State.frameInstant_met : ¬ (8 ≤ g ∨ (s.reg .grpRate 0 g).toNat = 0 ∨ (!atOrAfter s.now (s.reg .grpNext 0 g)) = true) := by
  rw [hd]
  simp [hr]
  omega

variable {ready : Word → Bool} (hready : ∀ d, (c.chooses && decide (sdiff d (s.reg .grpNext 0 g) < 0)) = ready d)
  {rate : Option Nat} {anchor : Option Word} (hrate : readyOf ready (c.group g).rate (c.group g).rateDue = rate)
  (halign : readyOf ready (c.group g).align (c.group g).alignDue = anchor)
include hready hrate halign

/-- Where neither a rate nor an anchor is ready, the group goes on by one period. -/
theorem State.frameInstant_goesOn (hrn : rate = none) (han : anchor = none) : s.frameInstant g = c.setNext g ((c.group g).k + 1) := by
  subst hc
  unfold State.frameInstant
  rw [if_neg (State.frameInstant_met hg hr hd)]
  extract_lets t c x rdy rate' align' rate2 align2
  have same : rdy = ready := funext hready
  have hrate2 : rate2 = none := by
    unfold rate2
    rw [same]
    exact hrate.trans hrn
  have halign2 : align2 = none := by
    unfold align2
    rw [same]
    exact halign.trans han
  rw [hrate2, halign2]
  rfl

/-- A rate or an anchor that is ready is taken, the rate first; what is not ready waits on. -/
theorem State.frameInstant_takes (hsome : rate.isSome = true ∨ anchor.isSome = true) :
    ∃ (x : GroupSt) (k : Int) (v4 v5 : Nat) (p : Payload), x.rate = ((c.group g).rate.filter fun q => !ready q.2) ∧
      x.align = ((c.group g).align.filter fun q => !ready q.2) ∧
      s.frameInstant g = ((((((c.takeRate g (s.reg .grpNext 0 g) rate).takeAnchor g anchor).setGroup g x).setNext g k).timingRec 4 g 0 v4 v5).emit
        0x3008 0 0 p).alignNotes g := by
  subst hc
  unfold State.frameInstant
  rw [if_neg (State.frameInstant_met hg hr hd)]
  extract_lets t c x rdy rate' align' rate2 align2 u1 u2 u3 p u4 u5
  have same : rdy = ready := funext hready
  have hrate2 : rate2 = rate := by
    unfold rate2
    rw [same]
    exact hrate
  have halign2 : align2 = anchor := by
    unfold align2
    rw [same]
    exact halign
  have taken : u2 = (c.takeRate g t rate).takeAnchor g anchor := by
    unfold u2 u1
    rw [hrate2, halign2]
    cases rate <;> cases anchor <;> rfl
  rw [if_neg (by rw [hrate2, halign2]; rcases hsome with h | h <;> simp [Option.isSome_iff_ne_none.mp h])]
  refine ⟨{ k := 0, rate := rate', align := align', rateDue := none, alignDue := none }, u3.firstK g t (p / 1000),
    (u4.reg .grpAnchor 0 g).toNat, (u4.reg .grpRate 0 g).toNat, pay [g, (u5.reg .grpNext 0 g).toNat], ?_, ?_, ?_⟩
  · unfold rate'
    rw [same]
  · unfold align'
    rw [same]
  · rw [← taken]

/-- What a group shows of what it has taken. -/
theorem State.frameInstant_shows (hsome : rate.isSome = true ∨ anchor.isSome = true) :
    (s.frameInstant g).reg .grpRate 0 g = (rate.map w32).getD (c.reg .grpRate 0 g) ∧
      (s.frameInstant g).reg .grpAnchor 0 g =
        anchor.getD (if rate.isSome then s.reg .grpNext 0 g - c.reg .grpPhase 0 g else c.reg .grpAnchor 0 g) ∧
      ((s.frameInstant g).group g).rate = ((c.group g).rate.filter fun q => !ready q.2) ∧
      ((s.frameInstant g).group g).align = ((c.group g).align.filter fun q => !ready q.2) := by
  obtain ⟨x, k, v4, v5, p, hx, hy, hf⟩ := State.frameInstant_takes hg hr hd hc hready hrate halign hsome
  obtain ⟨keptRate, keptAnchor, groupRate, groupAlign⟩ :=
    ((c.takeRate g (s.reg .grpNext 0 g) rate).takeAnchor g anchor).instantShown_keeps g x k 4 g 0 v4 v5 0x3008 0 0 p
  obtain ⟨rateShown, anchorShown⟩ := c.takeRate_shows g (s.reg .grpNext 0 g) rate
  obtain ⟨rateKept, anchorTaken⟩ := (c.takeRate g (s.reg .grpNext 0 g) rate).takeAnchor_shows g anchor
  rw [hf]
  exact ⟨keptRate.trans (rateKept.trans rateShown), keptAnchor.trans (anchorTaken.trans (by rw [anchorShown])), groupRate.trans hx,
    groupAlign.trans hy⟩

end


/-! ### STEP (R474, R475) -/

/-- What the moves of stored instants leave besides the anchors: the shared part, the plan and the anchors. -/
structure ShiftOnly (s t : State) : Prop where
  bus : t.bus = s.bus
  plan : t.plan = s.plan
  anchor : ∀ g, t.reg .grpAnchor 0 g = s.reg .grpAnchor 0 g

namespace ShiftOnly

variable {z s t : State}

theorem refl (s : State) : ShiftOnly s s := ⟨rfl, rfl, fun _ => rfl⟩

theorem upd (h : ShiftOnly z s) (hb : t.bus = s.bus) (hp : t.plan = s.plan) (hr : t.fregs = s.fregs) : ShiftOnly z t :=
  ⟨hb.trans h.bus, hp.trans h.plan, fun g => (State.reg_congr hr ..).trans (h.anchor g)⟩

theorem setReg (h : ShiftOnly z s) {r : FReg} (hr : r ≠ .grpAnchor) (i j : Nat) (v : Word) : ShiftOnly z (s.setReg r i j v) :=
  ⟨h.bus, h.plan, fun g => (State.reg_setReg_ne _ hr ..).trans (h.anchor g)⟩

theorem ite {c : Prop} [Decidable c] (hs : ShiftOnly z s) (ht : ShiftOnly z t) : ShiftOnly z (if c then s else t) := by
  split
  · exact hs
  · exact ht

theorem forEach {α : Type} {xs : List α} {f : α → State → State} (hs : ShiftOnly z s) (hf : ∀ x u, ShiftOnly z u → ShiftOnly z (f x u)) :
    ShiftOnly z (forEach xs f s) :=
  List.foldlRecOn (motive := ShiftOnly z) xs _ hs fun t ht x _ => hf x t ht

theorem shiftPulses (h : ShiftOnly z s) (d : Int) : ShiftOnly z (s.shiftPulses d) := by
  unfold State.shiftPulses
  refine h.forEach fun p u hu => ?_
  refine upd (s := if u.fld .pulseCtl 0 p 0 2 = 2 then u else u.shiftReg d .pulseStart 0 p) ?_ rfl rfl rfl
  exact .ite hu (hu.setReg (by decide) ..)

theorem shiftCaps (h : ShiftOnly z s) (d : Int) : ShiftOnly z (s.shiftCaps d) := by
  unfold State.shiftCaps
  exact h.forEach fun c u hu => .ite (setReg (hu.setReg (by decide) ..) (by decide) ..) hu

theorem shiftSources (h : ShiftOnly z s) (d : Int) : ShiftOnly z (s.shiftSources d) := by
  unfold State.shiftSources
  refine forEach (forEach (h.forEach fun e u hu => ?source) fun e u hu => hu.upd rfl rfl rfl) fun c u hu => ?core
  case source =>
    have newest : ShiftOnly z (if (u.newest e.source).isSome then u.shiftReg d .srcNewestTime e.source 0 else u) :=
      .ite (hu.setReg (by decide) ..) hu
    extract_lets n u1 u2 x u3
    have stored : ShiftOnly z u3 := upd (s := u2) (newest.forEach fun b v hv => hv.setReg (by decide) ..) rfl rfl rfl
    split
    · exact stored.upd rfl rfl rfl
    · exact stored
  case core =>
    split
    · exact hu.upd rfl rfl rfl
    · exact hu

theorem shiftHeads (h : ShiftOnly z s) (d : Int) : ShiftOnly z (s.shiftHeads d) := by
  unfold State.shiftHeads
  refine h.forEach fun e u hu => ?_
  extract_lets n x u1 lay
  have expiries : ShiftOnly z u1 := .ite (forEach (hu.setReg (by decide) ..) fun l v hv => hv.setReg (by decide) ..) hu
  exact expiries.upd rfl rfl rfl

theorem shiftEncs (h : ShiftOnly z s) (d : Int) : ShiftOnly z (s.shiftEncs d) := by
  unfold State.shiftEncs
  exact h.forEach fun c u hu => .ite hu (hu.upd rfl rfl rfl)

theorem shiftPanels (h : ShiftOnly z s) (d : Int) : ShiftOnly z (s.shiftPanels d) := by
  unfold State.shiftPanels
  exact h.forEach fun e u hu => hu.upd rfl rfl rfl

end ShiftOnly


/-- A loop whose rounds leave a value, but for the one of `x`, changes it once. -/
theorem forEach_once {α β : Type} {f : α → State → State} {g : State → β} {h : β → β} {x : α} {xs : List α} (hn : xs.Nodup) (hx : x ∈ xs)
    (hf : ∀ t, g (f x t) = h (g t)) (hk : ∀ y t, y ≠ x → g (f y t) = g t) (s : State) : g (forEach xs f s) = h (g s) := by
  have kept (ys : List α) (hy : x ∉ ys) (t : State) : g (forEach ys f t) = g t :=
    List.foldlRecOn (motive := fun u => g u = g t) ys _ rfl fun u hu y hm => (hk y u fun e => hy (e ▸ hm)).trans hu
  obtain ⟨before, after, rfl⟩ := List.append_of_mem hx
  have hb : x ∉ before := fun h => (List.nodup_append.mp hn).2.2 x h x List.mem_cons_self rfl
  have ha : x ∉ after := (List.nodup_cons.mp (List.nodup_append.mp hn).2.1).1
  calc g (forEach (before ++ x :: after) f s)
      = g (forEach after f (f x (forEach before f s))) := by
        unfold forEach
        rw [List.foldl_append, List.foldl_cons]
    _ = h (g s) := by rw [kept after ha, hf, kept before hb]

/-- One group's stored instants, moved. -/
def State.shiftGroup (d : Int) (g : Nat) (s : State) : State :=
  if (s.plan.cad g).isNone then s
  else
    let x := s.group g
    ((s.shiftReg d .grpAnchor 0 g).shiftReg d .grpNext 0 g).setGroup g
      { x with rate := x.rate.map fun q => (q.1, addNs q.2 d), align := x.align.map fun q => (addNs q.1 d, addNs q.2 d),
               rateDue := x.rateDue.map fun q => (q.1, addNs q.2 d), alignDue := x.alignDue.map fun q => (addNs q.1 d, addNs q.2 d) }

theorem State.shiftGroup_frame (d : Int) (g : Nat) (s : State) : (s.shiftGroup d g).bus = s.bus ∧ (s.shiftGroup d g).plan = s.plan := by
  unfold State.shiftGroup
  split
  · exact ⟨rfl, rfl⟩
  · exact ⟨rfl, rfl⟩

theorem State.setGroup_reg (s : State) (g : Nat) (x : GroupSt) (r : FReg) (i j : Nat) : (s.setGroup g x).reg r i j = s.reg r i j := rfl

theorem State.shiftGroup_anchor {d : Int} {g : Nat} {s : State} (hp : (s.plan.cad g).isSome = true) :
    (s.shiftGroup d g).reg .grpAnchor 0 g = addNs (s.reg .grpAnchor 0 g) d := by
  unfold State.shiftGroup
  rw [if_neg (by simp [Option.isSome_iff_ne_none.mp hp]), State.setGroup_reg]
  unfold State.shiftReg
  rw [State.reg_setReg_ne _ (by decide), State.reg_setReg_self]

theorem State.shiftGroup_otherAnchor {d : Int} {g k : Nat} (hk : g ≠ k) (s : State) :
    (s.shiftGroup d g).reg .grpAnchor 0 k = s.reg .grpAnchor 0 k := by
  unfold State.shiftGroup
  split
  · rfl
  · rw [State.setGroup_reg]
    unfold State.shiftReg
    rw [State.reg_setReg_ne _ (by decide), State.reg_setReg, if_neg fun h => hk h.2.2]

theorem State.shiftGroups_frame (s : State) (d : Int) : (s.shiftGroups d).bus = s.bus ∧ (s.shiftGroups d).plan = s.plan :=
  ⟨forEach_frame (f := State.shiftGroup d) (g := State.bus) (fun g t => (t.shiftGroup_frame d g).1) _ _,
    forEach_frame (f := State.shiftGroup d) (g := State.plan) (fun g t => (t.shiftGroup_frame d g).2) _ _⟩

/-- Each group's anchor is moved once. -/
theorem State.shiftGroups_anchor {s : State} {g : Nat} (hg : g < 8) (hp : (s.plan.cad g).isSome = true) (d : Int) :
    (s.shiftGroups d).reg .grpAnchor 0 g = addNs (s.reg .grpAnchor 0 g) d := by
  have moved := forEach_once (f := State.shiftGroup d) (g := fun t => (t.plan, t.reg .grpAnchor 0 g))
    (h := fun q => (q.1, if (q.1.cad g).isSome then addNs q.2 d else q.2)) List.nodup_range (List.mem_range.mpr hg) (fun t => ?_)
    (fun k t hk => Prod.ext (t.shiftGroup_frame d k).2 (State.shiftGroup_otherAnchor hk t)) s
  · have loop : s.shiftGroups d = forEach (List.range 8) (State.shiftGroup d) s := rfl
    have snd := congrArg Prod.snd moved
    dsimp only at snd
    rw [loop, snd, if_pos hp]
  · refine Prod.ext (t.shiftGroup_frame d g).2 ?_
    dsimp only
    split
    case isTrue hsome => exact State.shiftGroup_anchor hsome
    case isFalse hnone => exact congrArg (State.reg · .grpAnchor 0 g) (if_pos (by simpa using hnone))


/-- The PTM pairs of the ports are marked as not valid. -/
def Bus.clearPtm (b : Bus) : Bus := (List.range 4).foldl (fun b h => b.setFld .corePtmStatus h 0 0 1 0) b

theorem Bus.clearPtm_time (b : Bus) : b.clearPtm.time = b.time :=
  List.foldlRecOn (motive := fun c : Bus => c.time = b.time) _ _ rfl fun c hc _ _ => (c.setFld_time ..).trans hc

theorem Bus.clearPtm_cleared (b : Bus) {h : Nat} (hh : h < 4) : b.clearPtm.fld .corePtmStatus h 0 0 1 = 0 := by
  have cleared (c : Bus) : (c.setFld .corePtmStatus h 0 0 1 0).fld .corePtmStatus h 0 0 1 = 0 :=
    c.fld_setFld_self .corePtmStatus h 0 0 1 0 (by decide)
  obtain ⟨before, after, hl⟩ := List.append_of_mem (List.mem_range.mpr hh)
  unfold Bus.clearPtm
  rw [hl, List.foldl_append, List.foldl_cons]
  refine List.foldlRecOn (motive := fun c : Bus => c.fld .corePtmStatus h 0 0 1 = 0) after _ (cleared _) fun c hc k _ => ?_
  by_cases hk : k = h
  · rw [hk, cleared]
  · unfold Bus.fld Bus.setFld
    rw [Bus.reg_setReg, if_neg fun e => hk e.2.1]
    exact hc

theorem ShiftOnly.now {s t : State} (h : ShiftOnly s t) : t.now = s.now := congrArg Bus.time h.bus

/-- Every port's TIME packets carry the step. -/
theorem ShiftOnly.owed {z s : State} (h : ShiftOnly z s) (ps : List Nat) :
    ShiftOnly z (Machine.forEach ps (fun p s => s.setLink p { s.link p with stepLeft := 3 }) s) := h.forEach fun _ _ hu => hu.upd rfl rfl rfl

/-- The end of a step, with its event: no PTM pair is valid. -/
theorem State.stepShown (v : State) (p : Payload) :
    ((v.onBus Bus.clearPtm).emit 0x3006 0 1 p).now = v.now ∧
      (∀ h, h < 4 → ((v.onBus Bus.clearPtm).emit 0x3006 0 1 p).bus.fld .corePtmStatus h 0 0 1 = 0) ∧
      ∀ g, ((v.onBus Bus.clearPtm).emit 0x3006 0 1 p).reg .grpAnchor 0 g = v.reg .grpAnchor 0 g := by
  refine ⟨?_, fun h hh => ?_, fun g => (State.reg_congr (State.emit_fregs ..) ..).trans (State.reg_congr (State.onBus_fregs ..) ..)⟩
  · exact v.bus.clearPtm_time
  · unfold State.emit
    rw [State.onBus_bus, Bus.fld_emit, State.onBus_bus]
    exact v.bus.clearPtm_cleared hh

/-- The wrap that a step makes touches neither TIME_NS nor an anchor. -/
theorem State.wrapBy_leaves (s : State) (up : Bool) : (s.wrapBy up).now = s.now ∧ (s.wrapBy up).plan = s.plan ∧
    ∀ g, (s.wrapBy up).reg .grpAnchor 0 g = s.reg .grpAnchor 0 g :=
  ⟨rfl, rfl, fun g => State.reg_setFld_ne _ (by decide) ..⟩

/-- STEP moves TIME_NS and every group's anchor by its argument, and the ports' PTM pairs are valid no more (R474, R475). -/
theorem State.timeStep_steps (s : State) (d : Int) (tag : Nat) :
    (s.timeStep d tag).now = addNs s.now d ∧ (∀ h, h < 4 → (s.timeStep d tag).bus.fld .corePtmStatus h 0 0 1 = 0) ∧
      (∀ g, g < 8 → (s.plan.cad g).isSome = true → (s.timeStep d tag).reg .grpAnchor 0 g = addNs (s.reg .grpAnchor 0 g) d) := by
  unfold State.timeStep
  extract_lets old u1 u2 u3 u4 u5 x u6 y u7 u8 u9
  have start : u2.now = addNs s.now d ∧ u2.plan = s.plan ∧ ∀ g, u2.reg .grpAnchor 0 g = s.reg .grpAnchor 0 g := by
    unfold u2 u1
    refine ⟨congrArg (addNs · d) (s.journal_now ..), ?_, fun g => State.reg_congr (State.timingRec_fregs ..) ..⟩
    rw [State.onBus_plan, State.timingRec_plan]
  have wrapped : u3.now = addNs s.now d ∧ u3.plan = s.plan ∧ ∀ g, u3.reg .grpAnchor 0 g = s.reg .grpAnchor 0 g := by
    obtain ⟨now, plan, anchor⟩ := start
    have wrap (up : Bool) := u2.wrapBy_leaves up
    unfold u3
    split
    · exact ⟨(wrap true).1.trans now, (wrap true).2.1.trans plan, fun g => ((wrap true).2.2 g).trans (anchor g)⟩
    split
    · exact ⟨(wrap false).1.trans now, (wrap false).2.1.trans plan, fun g => ((wrap false).2.2 g).trans (anchor g)⟩
    · exact ⟨now, plan, anchor⟩
  have shifted : ShiftOnly (u3.shiftGroups d) u8 := by
    have moved := ((((((ShiftOnly.refl (u3.shiftGroups d)).shiftPulses d).shiftCaps d).shiftSources d).shiftHeads d).shiftEncs d).shiftPanels d
    have stepped : ShiftOnly (u3.shiftGroups d) u7 := (moved.upd (t := u6) rfl rfl rfl).upd rfl rfl rfl
    exact stepped.owed _
  obtain ⟨now, plan, anchor⟩ := wrapped
  obtain ⟨nowShown, ptm, anchorShown⟩ := u8.stepShown (pay [(i32 d).toNat, tag])
  refine ⟨nowShown.trans (shifted.now.trans ?_), ptm, fun g hg hp => (anchorShown g).trans ((shifted.anchor g).trans ?_)⟩
  · exact (congrArg Bus.time (u3.shiftGroups_frame d).1).trans now
  · rw [State.shiftGroups_anchor hg (by rw [plan]; exact hp) d, anchor]

theorem State.begun_chooses (s : State) (r : Nat) (e : FEntry) : (s.begun r e).chooses = s.chooses := by
  unfold State.chooses State.rerunning Bus.fld State.fld
  rw [State.begun_bus_reg _ _ _ _ _ _ (by decide) (by decide), State.begun_reg, State.begun_plan, State.begun_eq]

theorem State.begun_stepBusy (s : State) (r : Nat) (e : FEntry) : (s.begun r e).stepBusy = s.stepBusy := by
  rw [State.begun_eq]
  rfl

theorem State.ripe_chooses {s : State} {op r k : Nat} {e : FEntry} (h : s.ripe op r k e) : s.chooses = true := by
  obtain ⟨_, _, _, hm, _⟩ := h
  unfold State.mayRun at hm
  simp only [Bool.and_eq_true] at hm
  exact hm.1.1.1.1.1.1.1

theorem stepCmd_steps {s : State} {r host : Nat} {e : FEntry} (hh : s.plan.has 0x30 e.inst = true) (ho : e.object = 0xFFFF)
    (hz : e.zeroFrom 36 56 = true) (hl : -1000000000 ≤ sext 32 (e.arg 32 4)) (hm : sext 32 (e.arg 32 4) ≤ 1000000000)
    (hc : s.chooses = true) (hb : s.stepBusy = false) :
    stepCmd host r e (s.begun r e) = ((s.begun r e).timeStep (sext 32 (e.arg 32 4)) e.tag, some (0, 0)) := by
  unfold stepCmd
  dsimp only
  rw [State.checked_begun hh (beq_of_eq ho) (by rw [hz]; simp [hl, hm]) rfl, State.begun_chooses, hc, State.begun_stepBusy, hb]
  rfl

/-- Settles O21. That a rate or an anchor met at a frame instant is not replaced, and applies at the first instant after its command, is the
model's choice (log 22). -/
theorem cadenceGroupsAndStep : Obligations.CadenceGroupsAndStep := by
  refine ⟨?rate, ?limit, ?channel, ?anchor, ?idle, ?instant, ?rateAlone, ?step⟩
  case rate =>
    intro s r k e c h hh ho hc hz hl hm
    rw [exec_groupRate, State.fabric_done h (groupRate_inRange hh ho hc hz hl hm)]
  case limit =>
    intro s r k e c h hh ho hc hz hl
    rw [exec_groupRate, State.fabric_done h (groupRate_limit hh ho hc hz hl)]
  case channel =>
    intro s r k e h hh ho hp h1 hch hz hz' c
    have args : (e.arg 32 1 < 2 && (e.arg 32 1 == 0 || e.arg 33 1 < 16) && e.zeroFrom 34 36 && e.zeroFrom 44 56) = true := by
      simp [h1, hch, hz, hz']
    have given := State.alignAnchor_channel (s := s.begun r e) h1
    rw [State.begun_caps, State.begun_reg] at given
    refine ⟨fun hv => ?valid, fun hv => ?empty⟩
    case valid => rw [exec_align, State.fabric_done h (align_group hh ho hp args (given.trans (if_pos hv)))]
    case empty => rw [exec_align, State.fabric_done h (align_noResult hh ho hp args (given.trans (if_neg (by rw [hv]; decide))))]
  case anchor =>
    intro s r k e h hh ho hp h0 hz hz'
    have args : (e.arg 32 1 < 2 && (e.arg 32 1 == 0 || e.arg 33 1 < 16) && e.zeroFrom 34 36 && e.zeroFrom 44 56) = true := by
      simp [h0, hz, hz']
    rw [exec_align, State.fabric_done h (align_group hh ho hp args (State.alignAnchor_given h0))]
  case idle =>
    intro s g hl hg hr hd c hrate halign hrateDue halignDue
    rw [exec_cadenceFrameInstant, State.fabric_live hl,
      State.frameInstant_goesOn hg hr hd rfl (fun _ => rfl) rfl rfl (by rw [hrate, hrateDue]; rfl) (by rw [halign, halignDue]; rfl)]
  case instant =>
    intro s g hl hg hr hd t c hc x rate anchor
    have ready (d : Word) : (c.chooses && decide (sdiff d t < 0)) = decide (sdiff d t < 0) := by rw [hc]; rfl
    refine ⟨fun hrn han => ?goesOn, fun hsome => ?takes⟩
    case goesOn => rw [exec_cadenceFrameInstant, State.fabric_live hl, State.frameInstant_goesOn hg hr hd rfl ready rfl rfl hrn han]
    case takes =>
      rw [exec_cadenceFrameInstant, State.fabric_live hl]
      exact ⟨_, rfl, State.frameInstant_shows hg hr hd rfl ready rfl rfl hsome⟩
  case rateAlone =>
    intro s g rate d hl hg hr hd c hrate hmet halign halignDue hc
    have ready (d : Word) : (c.chooses && decide (sdiff d (s.reg .grpNext 0 g) < 0)) = decide (sdiff d (s.reg .grpNext 0 g) < 0) := by
      rw [hc]
      rfl
    have rateReady : readyOf (fun d => decide (sdiff d (s.reg .grpNext 0 g) < 0)) (c.group g).rate (c.group g).rateDue = some rate := by
      rw [hrate]
      exact readyOf_met (decide_eq_true hmet) _
    have anchorWaits : readyOf (fun d => decide (sdiff d (s.reg .grpNext 0 g) < 0)) (c.group g).align (c.group g).alignDue = none := by
      simp [readyOf, halign, halignDue]
    obtain ⟨rateShown, anchorShown, rateTaken, _⟩ := State.frameInstant_shows hg hr hd rfl ready rateReady anchorWaits (.inl rfl)
    rw [exec_cadenceFrameInstant, State.fabric_live hl]
    refine ⟨_, rfl, rateShown, anchorShown, rateTaken.trans ?_⟩
    exact (congrArg (Option.filter _) hrate).trans (by simp [Option.filter, hmet])
  case step =>
    intro s r k e h hh ho hz hl hm hb
    obtain ⟨now, ptm, anchor⟩ := (s.begun r e).timeStep_steps (sext 32 (e.arg 32 4)) e.tag
    rw [State.begun_now] at now
    refine ⟨(s.begun r e).timeStep (sext 32 (e.arg 32 4)) e.tag, ?_, now, ptm, fun g hg hp => ?_⟩
    · rw [exec_step, State.fabric_done h (stepCmd_steps hh ho hz hl hm (State.ripe_chooses h) hb)]
    · rw [anchor g hg (by rw [State.begun_plan]; exact hp), State.begun_reg]
      rfl

end Sys2Proof.Machine

/-! SUPPORT. -/

namespace Sys2Proof.Machine

/-! ### What leaves a port by itself (R395, R412 to R414) -/

section
variable {s : State} {p : Nat}

theorem State.safeRepeat_due {reason : Nat} (hs : (s.link p).safe = some reason) (hd : s.drives = true) (hp : s.portState p = 2)
    (ht : (s.link p).safeTick + 2000000 ≤ s.ticks) :
    s.safeRepeat p = (s.setLink p { s.link p with safeTick := s.ticks }).control p 2 (le 1 reason ++ le 3 0) := by
  unfold State.safeRepeat
  dsimp only
  rw [hs]
  exact if_pos ⟨hd, hp, ht⟩

theorem State.epochRepeat_due (hd : s.drives = false) (hr : s.plan.role p = 1) (hp : s.portState p = 2)
    (ht : (s.link p).epochTick + 20000000 ≤ s.ticks) : s.epochRepeat p = s.sendEpoch p false := if_pos ⟨by rw [hd]; rfl, hr, hp, ht⟩

theorem State.timeSend_due (hp : s.portState p = 2) (hs : (s.link p).stage ≠ 2)
    (ht : (s.link p).timeTick + s.fld .linkXTimeMs p 0 0 7 * 200000 ≤ s.ticks) (hl : (s.link p).stepLeft = 0) :
    s.timeSend p =
      let u := s.sendNew p 0x06 0 0 (le 4 s.now.toNat ++ le 4 (s.reg .linkDelayNs p 0).toNat ++ [0, 0, 0, 0] ++
        le 1 (2 * b2n (s.fld .timState 0 0 0 3 == 4 || s.fld .timState 0 0 0 3 == 5) + 4 * b2n ((s.link p).timeCount % 10 == 0)) ++
        le 1 s.tim.stepSeq ++ [0, 0])
      u.setLink p { u.link p with timeTick := u.ticks, timeCount := (s.link p).timeCount + 1, stepLeft := 0 } := by
  have due : ¬ (s.portState p ≠ 2 ∨ (s.link p).stage = 2 ∨ s.ticks < (s.link p).timeTick + s.fld .linkXTimeMs p 0 0 7 * tickMs) := by
    rintro (h | h | h)
    · exact h hp
    · exact hs h
    · exact absurd ht (Nat.not_le.mpr h)
  unfold State.timeSend
  dsimp only
  rw [if_neg due, hl]
  have noStep : b2n (decide False) = 0 := rfl
  have noOffset : le 4 (0 : Word).toNat = [0, 0, 0, 0] := rfl
  have reserved : le 2 0 = [0, 0] := rfl
  simp only [ne_eq, not_true_eq_false, if_false, noStep, noOffset, reserved, Nat.zero_add, Nat.zero_sub]

theorem State.partnerSilent_due (hp : s.portState p = 2) (hs : (s.link p).silent = false)
    (ht : max (s.link p).upTick ((s.link p).statusTick.getD 0) + s.fld .linkXStatusMs p 0 0 10 * 200000 ≤ s.ticks) :
    s.partnerSilent p = (s.setLink p { s.link p with silent := true }).emit 0x2015 p 1
      (pay [min 65535 ((s.ticks - (s.link p).statusTick.getD 0) / 200000)]) :=
  if_pos ⟨hp, by rw [hs]; rfl, ht⟩

theorem State.holdCapWrite_inRange {host : Nat} {v : Word} (h : s.reached host 0x20 p) (h1 : 1 ≤ bf v 0 10) (hm : bf v 0 10 ≤ 1000) :
    s.holdCapWrite host p v = ((s.regWriteRec host 0x20 p 0 0x88 v).setReg .linkHoldCap p 0 (w32 (bf v 0 10))).sendHold p := by
  unfold State.holdCapWrite
  rw [State.hostWrite_reached h]
  exact if_neg (by omega)

end

/-! ### What arrives (R413, R419) -/

section
variable {r u : State} {p : Nat} {sync : Bool} {raw : List Byte} {pk : Pkt}

/-- The eighth echo, and each later one, gives a delay. -/
theorem State.timeEcho_measures (hu : r.receiveItem p 0x06 sync raw = (u, some pk)) (hlen : pk.payload.length = 16)
    (hz : zeros (slice pk.payload 8 8) = true) (he : 7 ≤ (u.link p).echoes.length) :
    r.timeEcho p sync raw =
      let v := (sdiff u.now (w32 (leAt pk.payload 0 4)) - leAt pk.payload 4 4) / 2
      let es := (v :: (u.link p).echoes).take 8
      ((u.setLink p { u.link p with echoes := es }).setReg .linkDelayNs p 0 (i32 (median8 es))).setFld .linkState p 0 3 1 1 := by
  unfold State.timeEcho
  rw [hu]
  dsimp only
  rw [if_neg (by simp [hlen, hz]), if_pos (by simp; omega)]

variable (hu : r.receiveItem p 0x09 sync raw = (u, some pk)) (hlen : pk.payload.length = 16) (ho : leAt pk.payload 0 2 < 4096)
  (hz : zeros (slice pk.payload 2 6) = true)
include hu hlen ho hz

theorem State.fenceSignalRx_atOnce (hn : u.portSource p = none) :
    r.fenceSignalRx p sync raw = u.onBus fun b => b.fenceSignal (leAt pk.payload 0 2) (leAt pk.payload 8 8) := by
  unfold State.fenceSignalRx
  rw [hu]
  dsimp only
  rw [if_neg (by simp [hlen, hz]; omega), hn]

theorem State.fenceSignalRx_source {e : SrcEnt} (hn : u.portSource p = some e) :
    r.fenceSignalRx p sync raw =
      if (u.src e.source).waiting.isEmpty then u.signalTake e.source (leAt pk.payload 0 2) (leAt pk.payload 8 8)
      else u.setSrc e.source { u.src e.source with waiting := (u.src e.source).waiting ++ [pk] } := by
  unfold State.fenceSignalRx
  rw [hu]
  dsimp only
  rw [if_neg (by simp [hlen, hz]; omega), hn]

end

/-- Settles O28. A signal behind unfinished or culled data (log 78) and the median of eight as the mean of the middle two (log 12) are the
model's choices. -/
theorem linkLayerTakesEffect : Obligations.LinkLayerTakesEffect := by
  refine ⟨?safeRepeat, ?epochRepeat, ?time, ?echo, ?fence, ?silent, ?holdCap⟩
  case safeRepeat =>
    intro s p reason hl hs hd hp ht
    rw [exec_safeRepeat, State.fabric_live hl, State.safeRepeat_due hs hd hp ht]
    rfl
  case epochRepeat =>
    intro s p hl hd hr hp ht
    rw [exec_epochRepeat, State.fabric_live hl, State.epochRepeat_due hd hr hp ht]
  case time =>
    intro s p hl hp hs ht hz
    rw [exec_timeSend, State.fabric_live hl, State.timeSend_due hp hs ht hz]
  case echo =>
    intro s r u p skew lines sync raw pk hl ha hu hlen hz he
    rw [exec_timeEchoRx, State.fabric_live hl, State.arrives_some _ ha, State.timeEcho_measures hu hlen hz he]
  case fence =>
    intro s r u p skew lines sync raw pk hl ha hu hlen ho hz signalled
    refine ⟨fun hn => ?atOnce, fun e he hw => ?behind, fun e he hw => ?waits⟩ <;>
      rw [exec_fenceSignalRx, State.fabric_live hl, State.arrives_some _ ha]
    case atOnce => rw [State.fenceSignalRx_atOnce hu hlen ho hz hn]
    case behind =>
      rw [State.fenceSignalRx_source hu hlen ho hz he, hw]
      unfold State.signalTake
      simp only [Option.isNone_iff_eq_none]
      rfl
    case waits => rw [State.fenceSignalRx_source hu hlen ho hz he, if_neg (by simp [hw])]
  case silent =>
    intro s p hl hp hs ht
    rw [exec_partnerSilent, State.fabric_live hl, State.partnerSilent_due hp hs ht]
  case holdCap =>
    intro s host p v hl h h1 hm
    rw [exec_linkHoldCapWrite, State.fabric_live hl, State.holdCapWrite_inRange h h1 hm]

end Sys2Proof.Machine

/-! SUPPORT. -/

namespace Sys2Proof.Machine

/-! ### What a marker that leaves changes (R368) -/

section
variable (s : State) (p code : Nat) (lanes : List Nat) (block : List Byte)

theorem State.sendMarker_frame : (s.sendMarker p code lanes block).fregs = s.fregs ∧ (s.sendMarker p code lanes block).plan = s.plan ∧
    (s.sendMarker p code lanes block).bus.ticks = s.bus.ticks := by
  unfold State.sendMarker
  dsimp only
  split <;> exact ⟨rfl, rfl, rfl⟩

theorem State.sendMarker_lane : ∃ lasts, (s.sendMarker p code lanes block).lane p = { s.lane p with lasts := lasts } := by
  unfold State.sendMarker
  dsimp only
  split
  · exact ⟨(s.lane p).lasts, rfl⟩
  · exact ⟨_, State.lane_setLane_self ..⟩

theorem State.sendMarker_otherLane {q : Nat} (hq : p ≠ q) : (s.sendMarker p code lanes block).lane q = s.lane q := by
  unfold State.sendMarker
  dsimp only
  split
  · rfl
  · exact (State.lane_setLane ..).trans (if_neg hq)

theorem State.sendMarker_wire (h : (s.lane p).txDead = false) :
    ∃ lines, (s.sendMarker p code lanes block).bus.wire = s.bus.wire ++ [.marker p code block lines] := by
  unfold State.sendMarker
  dsimp only
  rw [if_neg (by rw [h]; decide)]
  exact ⟨_, rfl⟩

end

/-- A training block is formed of registers and of what the lane layer knows of the lanes. -/
theorem State.blockOf_congr {s t : State} {p : Nat} (hr : t.fregs = s.fregs) (hp : t.plan = s.plan) (hl : (t.lane p).locked = (s.lane p).locked)
    (hh : (t.lane p).healthy = (s.lane p).healthy) (ha : (t.lane p).rate = (s.lane p).rate) (phase ask : Nat) :
    t.blockOf p phase ask = s.blockOf p phase ask := by
  unfold State.blockOf State.chooser State.clockMaster
  dsimp only
  rw [hl, hh, ha, hp, State.reg_congr hr, State.fld_congr hr, State.fld_congr hr, State.fld_congr hr]

/-! ### Entering a phase (R369, R370) -/

/-- A phase entered, before its block leaves. -/
def State.phaseEntered (s : State) (p ph : Nat) : State :=
  let s := s.setFld .portState p 0 4 3 ph
  s.setLane p { s.lane p with phaseTick := s.ticks, cleanTick := s.ticks, goodRun := 0, sentZero := false, sweep := [] }

theorem State.enterPhase_eq (s : State) (p ph : Nat) :
    s.enterPhase p ph = (s.phaseEntered p ph).sendMarker p 1 ((s.phaseEntered p ph).bitLanes p) ((s.phaseEntered p ph).blockOf p ph 0xFF).bytes := rfl

section
variable (s : State) (p ph : Nat)

theorem State.enterPhase_fregs : (s.enterPhase p ph).fregs = (s.setFld .portState p 0 4 3 ph).fregs := by
  rw [State.enterPhase_eq, (State.sendMarker_frame ..).1]
  rfl

theorem State.enterPhase_portPhase (h : ph < 8) : (s.enterPhase p ph).portPhase p = ph := by
  unfold State.portPhase
  rw [State.fld_congr (s.enterPhase_fregs p ph), State.fld_setFld_self _ _ _ _ _ _ _ (by decide)]
  exact Nat.mod_eq_of_lt h

theorem State.enterPhase_portState_fld {lo n : Nat} (h : lo + n ≤ 4 ∨ 7 ≤ lo) :
    (s.enterPhase p ph).fld .portState p 0 lo n = s.fld .portState p 0 lo n := by
  rw [State.fld_congr (s.enterPhase_fregs p ph), State.fld_setFld_apart _ _ _ _ _ _ _ _ _ (by decide) h]

theorem State.enterPhase_otherPortState {q : Nat} (h : p ≠ q) : (s.enterPhase p ph).portState q = s.portState q := by
  unfold State.portState
  rw [State.fld_congr (s.enterPhase_fregs p ph), State.fld_setFld_otherInst _ _ h]

theorem State.enterPhase_fld {r : FReg} (h : r ≠ .portState) (i j lo n : Nat) : (s.enterPhase p ph).fld r i j lo n = s.fld r i j lo n := by
  rw [State.fld_congr (s.enterPhase_fregs p ph), State.fld_setFld_ne _ h.symm]

theorem State.enterPhase_plan : (s.enterPhase p ph).plan = s.plan := by
  rw [State.enterPhase_eq, (State.sendMarker_frame ..).2.1]
  rfl

theorem State.enterPhase_lane : ∃ lasts, (s.enterPhase p ph).lane p =
    { s.lane p with phaseTick := s.ticks, cleanTick := s.ticks, goodRun := 0, sentZero := false, sweep := [], lasts := lasts } := by
  obtain ⟨lasts, hl⟩ := (s.phaseEntered p ph).sendMarker_lane p 1 ((s.phaseEntered p ph).bitLanes p) ((s.phaseEntered p ph).blockOf p ph 0xFF).bytes
  refine ⟨lasts, (congrArg (State.lane · p) (s.enterPhase_eq p ph)).trans (hl.trans ?_)⟩
  unfold State.phaseEntered
  dsimp only
  rw [State.lane_setLane_self]
  rfl

theorem State.enterPhase_otherLane {q : Nat} (h : p ≠ q) : (s.enterPhase p ph).lane q = s.lane q := by
  rw [State.enterPhase_eq, State.sendMarker_otherLane _ _ _ _ _ h]
  exact (State.lane_setLane ..).trans (if_neg h)

/-- The block of the phase leaves, as the port's state then forms it. -/
theorem State.enterPhase_wire (h : (s.lane p).txDead = false) :
    ∃ lines, (s.enterPhase p ph).bus.wire = s.bus.wire ++ [.marker p 1 ((s.enterPhase p ph).blockOf p ph 0xFF).bytes lines] := by
  have alive : ((s.phaseEntered p ph).lane p).txDead = false := by
    unfold State.phaseEntered
    dsimp only
    rw [State.lane_setLane_self]
    exact h
  obtain ⟨lasts, hl⟩ := (s.phaseEntered p ph).sendMarker_lane p 1 ((s.phaseEntered p ph).bitLanes p) ((s.phaseEntered p ph).blockOf p ph 0xFF).bytes
  have same : (s.enterPhase p ph).blockOf p ph 0xFF = (s.phaseEntered p ph).blockOf p ph 0xFF := by
    rw [State.enterPhase_eq]
    exact State.blockOf_congr (State.sendMarker_frame ..).1 (State.sendMarker_frame ..).2.1 (by rw [hl]) (by rw [hl]) (by rw [hl]) ..
  rw [same, State.enterPhase_eq]
  exact (s.phaseEntered p ph).sendMarker_wire p 1 _ _ alive

end

/-! ### The start of a training (R372, R375) -/

/-- The settings of PORT_X_EQ_FIX come into use on a lane. -/
def State.putFixLane (p : Nat) (v : Word) (l : Nat) (s : State) : State :=
  let s := if s.receivesLane p l then s.setFld .portEq p l 0 4 (bf v 4 4) else s
  if s.drivesLane p l then (s.setFld .portEq p l 8 4 (bf v 8 4)).setFld .portEq p l 12 4 (bf v 12 4) else s

/-- What PORT_EQ stands apart from. -/
def State.besideEq (s : State) : Bus × Plan × Tab LaneSt × (FReg → Nat → Nat → Word) :=
  (s.bus, s.plan, s.lanes, fun r i j => if r = .portEq then 0 else s.reg r i j)

theorem State.besideEq_setFld (s : State) (i j lo n v : Nat) : (s.setFld .portEq i j lo n v).besideEq = s.besideEq := by
  unfold State.besideEq
  refine congrArg (fun f => (s.bus, s.plan, s.lanes, f)) ?_
  funext r i' j'
  split
  · rfl
  · rename_i h
    exact State.reg_setFld_ne _ (Ne.symm h) ..

theorem State.putFixLane_beside (p : Nat) (v : Word) (l : Nat) (s : State) : (s.putFixLane p v l).besideEq = s.besideEq := by
  unfold State.putFixLane
  dsimp only
  split <;> split <;> simp only [State.besideEq_setFld]

theorem State.putFix_beside (s : State) (p : Nat) (v : Word) : (s.putFix p v).besideEq = s.besideEq :=
  forEach_frame (f := State.putFixLane p v) (g := State.besideEq) (fun l t => t.putFixLane_beside p v l) _ _


/-- A training's lane layer and PORT_STATE as it starts, before the settings of PORT_X_EQ_FIX. -/
def State.trainBegun (s : State) (p : Nat) (fix : Option Word) : State :=
  let s := s.setLane p { s.lane p with startTick := s.ticks, phaseMs := s.fld .portXPhaseMs p 0 0 8, fix := fix, kept := [],
                                       returning := false, short := false, rateCap := s.portCap p, failedAt := none, repairTick := none,
                                       repairPassed := false, txDead := false }
  (s.setPortState p 1).setFld .portLaneMap p 0 12 4 0

/-- A full training ready for its first attempt. -/
def State.trainReady (s : State) (p : Nat) : State :=
  match s.eqFix p with
  | some v => (s.trainBegun p (some v)).putFix p v
  | none => s.trainBegun p none

theorem State.trainOne_full (s : State) (p : Nat) : s.trainOne p false = (s.trainReady p).startAttempt p 1 := by
  unfold State.trainOne State.trainReady
  cases s.eqFix p
  · rfl
  · rfl

theorem State.trainReady_beside (s : State) (p : Nat) : (s.trainReady p).besideEq = (s.trainBegun p (s.eqFix p)).besideEq := by
  unfold State.trainReady
  cases s.eqFix p
  · rfl
  · exact State.putFix_beside ..

theorem State.bondMate_congr {s t : State} (h : t.plan = s.plan) (p : Nat) : t.bondMate p = s.bondMate p := by
  unfold State.bondMate
  rw [h]

section
variable (s : State) (p : Nat)

theorem State.trainReady_bus : (s.trainReady p).bus = s.bus := congrArg Prod.fst (s.trainReady_beside p)
theorem State.trainReady_plan : (s.trainReady p).plan = s.plan := congrArg (fun x => x.2.1) (s.trainReady_beside p)
theorem State.trainReady_lanes : (s.trainReady p).lanes = (s.trainBegun p (s.eqFix p)).lanes := congrArg (fun x => x.2.2.1) (s.trainReady_beside p)

theorem State.trainReady_fld {r : FReg} (hr : r ≠ .portEq) (i j lo n : Nat) : (s.trainReady p).fld r i j lo n = (s.trainBegun p (s.eqFix p)).fld r i j lo n := by
  have same := congrFun (congrFun (congrFun (congrArg (fun x => x.2.2.2) (s.trainReady_beside p)) r) i) j
  unfold State.besideEq at same
  simp only [if_neg hr] at same
  unfold State.fld
  rw [same]

/-- What startAttempt changes besides the phase it enters. -/
def State.attemptBegun (s : State) (p n : Nat) : State :=
  let s := s.setFld .portState p 0 13 2 n
  s.setLane p { s.lane p with locked := if (s.lane p).short then maskOf (s.dataMap p) else 0, healthy := 0, rates := 0 }

theorem State.startAttempt_eq (n : Nat) : s.startAttempt p n = (s.attemptBegun p n).enterPhase p 1 := rfl

theorem State.startAttempt_portState_fld (n : Nat) {lo w : Nat} (h : lo + w ≤ 4) :
    (s.startAttempt p n).fld .portState p 0 lo w = s.fld .portState p 0 lo w := by
  rw [State.startAttempt_eq, State.enterPhase_portState_fld _ _ _ (.inl h)]
  exact State.fld_setFld_apart s .portState p 0 13 2 n lo w (by decide) (.inl (by omega))

theorem State.startAttempt_attempt {n : Nat} (h : n < 4) : (s.startAttempt p n).fld .portState p 0 13 2 = n := by
  rw [State.startAttempt_eq, State.enterPhase_portState_fld _ _ _ (.inr (by decide))]
  exact (s.fld_setFld_self .portState p 0 13 2 n (by decide)).trans (Nat.mod_eq_of_lt h)

theorem State.startAttempt_otherPortState (n : Nat) {q : Nat} (h : p ≠ q) : (s.startAttempt p n).portState q = s.portState q := by
  rw [State.startAttempt_eq, State.enterPhase_otherPortState _ _ _ h]
  exact State.fld_setFld_otherInst s .portState h ..

theorem State.startAttempt_fld (n : Nat) {r : FReg} (h : r ≠ .portState) (i j lo w : Nat) :
    (s.startAttempt p n).fld r i j lo w = s.fld r i j lo w := by
  rw [State.startAttempt_eq, State.enterPhase_fld _ _ _ h]
  exact State.fld_setFld_ne s h.symm ..

theorem State.startAttempt_plan (n : Nat) : (s.startAttempt p n).plan = s.plan := by
  rw [State.startAttempt_eq, State.enterPhase_plan]
  rfl

theorem State.startAttempt_otherLane (n : Nat) {q : Nat} (h : p ≠ q) : (s.startAttempt p n).lane q = s.lane q := by
  rw [State.startAttempt_eq, State.enterPhase_otherLane _ _ _ h]
  exact (State.lane_setLane ..).trans (if_neg h)

theorem State.attemptBegun_lane (n : Nat) : (s.attemptBegun p n).lane p =
    { s.lane p with locked := if (s.lane p).short then maskOf ((s.setFld .portState p 0 13 2 n).dataMap p) else 0, healthy := 0, rates := 0 } :=
  State.lane_setLane_self ..

theorem State.startAttempt_clock (n : Nat) : ((s.startAttempt p n).lane p).startTick = (s.lane p).startTick ∧
    ((s.startAttempt p n).lane p).phaseMs = (s.lane p).phaseMs := by
  obtain ⟨lasts, hl⟩ := (s.attemptBegun p n).enterPhase_lane p 1
  rw [State.startAttempt_eq, hl, State.attemptBegun_lane]
  exact ⟨rfl, rfl⟩

theorem State.startAttempt_wire (n : Nat) (h : (s.lane p).txDead = false) :
    ∃ lines, (s.startAttempt p n).bus.wire = s.bus.wire ++ [.marker p 1 ((s.startAttempt p n).blockOf p 1 0xFF).bytes lines] :=
  (s.attemptBegun p n).enterPhase_wire p 1 (by rw [State.attemptBegun_lane]; exact h)

theorem State.trainReady_portState : (s.trainReady p).portState p = 1 := by
  unfold State.portState
  rw [State.trainReady_fld _ _ (by decide)]
  refine (State.fld_setFld_ne (r := .portLaneMap) _ (by decide) ..).trans ?_
  exact State.fld_setFld_self _ .portState p 0 0 4 1 (by decide)

theorem State.trainReady_lost : (s.trainReady p).fld .portLaneMap p 0 12 4 = 0 := by
  rw [State.trainReady_fld _ _ (by decide)]
  exact State.fld_setFld_self _ .portLaneMap p 0 12 4 0 (by decide)

theorem State.trainReady_otherPortState {q : Nat} (h : p ≠ q) : (s.trainReady p).portState q = s.portState q := by
  unfold State.portState
  rw [State.trainReady_fld _ _ (by decide)]
  refine (State.fld_setFld_ne (r := .portLaneMap) _ (by decide) ..).trans ?_
  exact State.fld_setFld_otherInst _ .portState h ..

theorem State.trainReady_lane : ((s.trainReady p).lane p).startTick = s.ticks ∧ ((s.trainReady p).lane p).phaseMs = s.fld .portXPhaseMs p 0 0 8 ∧
    ((s.trainReady p).lane p).txDead = false := by
  have begun : (s.trainReady p).lane p = (s.trainBegun p (s.eqFix p)).lane p := congrArg (tabGet LaneSt.init · p) (s.trainReady_lanes p)
  have set : (s.trainBegun p (s.eqFix p)).lane p = _ := State.lane_setLane_self ..
  rw [begun, set]
  exact ⟨rfl, rfl, rfl⟩

theorem State.trainReady_otherLane {q : Nat} (h : p ≠ q) : (s.trainReady p).lane q = s.lane q := by
  refine (congrArg (tabGet LaneSt.init · q) (s.trainReady_lanes p)).trans ?_
  exact (State.lane_setLane ..).trans (if_neg h)

variable {s p} in
theorem State.startTraining_alone (h : s.bondMate p = none) : s.startTraining p false = (s.trainReady p).startAttempt p 1 := by
  have mate : ((s.trainReady p).startAttempt p 1).bondMate p = none := by
    rw [State.bondMate_congr ((State.startAttempt_plan ..).trans (s.trainReady_plan p)), h]
  unfold State.startTraining
  rw [State.trainOne_full]
  dsimp only
  rw [mate]

end

section
variable {s : State} {p : Nat}

/-- What a full training of a port alone leaves when it has begun. -/
theorem State.startTraining_leaves (alone : s.bondMate p = none) :
    let u := s.startTraining p false
    u.portState p = 1 ∧ u.portPhase p = 1 ∧ u.fld .portState p 0 13 2 = 1 ∧ u.fld .portLaneMap p 0 12 4 = 0 ∧
      (u.lane p).startTick = s.ticks ∧ (u.lane p).phaseMs = s.fld .portXPhaseMs p 0 0 8 ∧
      (∃ lines, u.bus.wire = s.bus.wire ++ [.marker p 1 (u.blockOf p 1 0xFF).bytes lines]) ∧
      (∀ q, q ≠ p → u.portState q = s.portState q ∧ u.lane q = s.lane q) := by
  rw [State.startTraining_alone alone]
  obtain ⟨start, phaseMs, alive⟩ := s.trainReady_lane p
  obtain ⟨sameStart, samePhaseMs⟩ := (s.trainReady p).startAttempt_clock p 1
  refine ⟨?_, ?_, ?_, ?_, sameStart.trans start, samePhaseMs.trans phaseMs, ?_, fun q hq => ⟨?_, ?_⟩⟩
  · exact (State.startAttempt_portState_fld _ p 1 (by decide)).trans (s.trainReady_portState p)
  · exact State.enterPhase_portPhase _ p 1 (by decide)
  · exact State.startAttempt_attempt _ p (by decide)
  · rw [State.startAttempt_fld _ _ _ (by decide), s.trainReady_lost]
  · have wire := State.startAttempt_wire (s.trainReady p) p 1 alive
    rwa [s.trainReady_bus] at wire
  · rw [State.startAttempt_otherPortState _ _ _ hq.symm, s.trainReady_otherPortState p hq.symm]
  · rw [State.startAttempt_otherLane _ _ _ hq.symm, s.trainReady_otherLane p hq.symm]

theorem State.trainingRetry_due {t : Nat} (hf : (s.lane p).failedAt = some t) (hp : s.portState p = 4)
    (ht : t + s.fld .portRetry p 0 0 16 * 200000 ≤ s.ticks) : s.trainingRetry p = s.startTraining p false := by
  unfold State.trainingRetry
  rw [hf]
  exact if_pos ⟨hp, ht⟩

/-! ### Blocks that arrive (R369, R374) -/

theorem State.markBlock_bad {lane code : Nat} {bits : List Bool}
    (h : markRx code lane bits = .bad false ∨ ∃ raw, markRx code lane bits = .block raw false ∧ trainBlock raw = none) :
    s.markBlock p lane code bits = (s.codeError p lane 1, none) := by
  unfold State.markBlock
  obtain h | ⟨raw, h, ht⟩ := h
  · rw [h]
    rfl
  · rw [h]
    dsimp only
    rw [ht]
    rfl

theorem State.markBlock_good {lane code : Nat} {bits : List Bool} {raw : List Byte} {corr : Bool} {t : TrainBlock}
    (h : markRx code lane bits = .block raw corr) (ht : trainBlock raw = some t) :
    s.markBlock p lane code bits = (if corr then s.bump .portMarkerCorr p 0 1 else s, some t) := by
  unfold State.markBlock
  rw [h]
  dsimp only
  rw [ht]

theorem State.trainBlockRx_bad {lane : Nat} {bits : List Bool} {obs : LaneObs} (hp : s.portState p = 1 ∨ s.portState p = 3)
    (h : s.markBlock p lane 1 bits = (s.codeError p lane 1, none)) :
    s.trainBlockRx p lane bits obs = (s.codeError p lane 1).setLane p { (s.codeError p lane 1).lane p with goodRun := 0 } := by
  unfold State.trainBlockRx
  rw [if_neg (by omega), h]

/-- A good block as PORT_PARTNER and the lock bits of PORT_LANE_MAP note it. -/
def State.blockNoted (s : State) (p : Nat) (t : TrainBlock) (obs : LaneObs) : State :=
  let u := s.setReg .portPartner p 0 (w32 (t.kind + (t.rates % 16) * 256))
  let u := u.setFld .portLaneMap p 0 16 1 (b2n (u.clockMaster p || obs.locked.testBit 5))
  u.setFld .portLaneMap p 0 17 1 (b2n (if u.clockMaster p then obs.locked.testBit 4 else t.laneStatus.testBit 4))

theorem State.clockMaster_setFld_map (i j lo n v q : Nat) : (s.setFld .portLaneMap i j lo n v).clockMaster q = s.clockMaster q := by
  unfold State.clockMaster
  rw [State.reg_setFld_ne _ (by decide)]

theorem State.trainBlockRx_good {lane : Nat} {bits : List Bool} {obs : LaneObs} {u : State} {t : TrainBlock}
    (hp : s.portState p = 1 ∨ s.portState p = 3) (h : s.markBlock p lane 1 bits = (u, some t)) (hs : u.plan = s.plan) :
    s.trainBlockRx p lane bits obs = if kindFits (s.plan.role p) t.kind = true then (u.blockNoted p t obs).blockRx p lane t obs
      else (u.blockNoted p t obs).phaseFailed p := by
  unfold State.trainBlockRx State.blockNoted
  rw [if_neg (by omega), h, ← hs]
  simp only [State.setFld_plan, State.setReg_plan, State.clockMaster_setFld_map]
  by_cases fits : kindFits (u.plan.role p) t.kind = true <;> simp [fits]

/-! ### What a good block does in each phase (R370, R371) -/

section
variable {lane : Nat} {t : TrainBlock} {obs : LaneObs} (chooses : s.chooser p = true)
include chooses

theorem State.blockRx_phase1 (h : s.portPhase p = 1) : s.blockRx p lane t obs = if s.clockMaster p then
    if lane ≠ 4 then s
    else if (s.lane p).goodRun + 1 < 8 then s.setLane p { s.lane p with goodRun := (s.lane p).goodRun + 1 } else s.nextPhase p
    else if 2 ≤ t.phase then s.nextPhase p else s := by
  unfold State.blockRx
  rw [chooses, h]
  rfl

theorem State.blockRx_phase2 (h : s.portPhase p = 2) : s.blockRx p lane t obs = 
    let x := s.lane p
    let status := if s.clockMaster p = true then t.laneStatus % 16 else obs.locked % 16
    let allowed := status &&& (15 - s.fld .portLaneMap p 0 12 4)
    let run := if status = x.lastStatus then x.goodRun + 1 else 1
    let w := s.setLane p { x with lastStatus := status, goodRun := run, rates := t.rates % 16, locked := allowed }
    if run < 8 ∨ (w.portState p = 1 ∧ (w.mateRate p).isNone = true) then w
        else if allowed = 0 then w.phaseFailed p else w.nextPhase p := by
  unfold State.blockRx
  rw [chooses, h]
  dsimp only
  rw [if_neg (by simp), if_neg (by simp)]
  exact if_neg (by
    have same : ∀ y, (s.setLane p y).chooser p = s.chooser p := fun _ => rfl
    rw [same, chooses]
    decide)

theorem State.blockRx_phase3 (h : s.portPhase p = 3) : s.blockRx p lane t obs =
    let x := s.lane p
    let status := if s.clockMaster p = true then t.laneStatus % 16 else obs.locked % 16
    if status &&& x.locked = x.locked ∧ (if s.clockMaster p then obs.locked.testBit 4 else t.laneStatus.testBit 4) = true
      then s.nextPhase p else s := by
  unfold State.blockRx
  rw [chooses, h]
  rfl

theorem State.blockRx_phase4 (h : s.portPhase p = 4) (hp : s.portState p = 3) (hr : (s.lane p).returning = false) :
    s.blockRx p lane t obs =
      let x := s.lane p
      let sweep := x.sweep ++ obs.sweep
      let w := s.setLane p { x with sweep := sweep }
      let wide := x.locked &&& wideLanes sweep
      if sweptLanes sweep &&& x.locked ≠ x.locked ∨ wide = 0 then w
        else (w.setLane p { x with sweep := sweep, healthy := wide }).nextPhase p := by
  have same : ∀ y, (s.setLane p y).chooser p = true := fun _ => chooses
  unfold State.blockRx
  rw [chooses, h, hp]
  simp only [Bool.not_true, Bool.false_and, Bool.false_eq_true, if_false, show (3 == 1) = false from rfl, State.lane_setLane_self, hr, same]

theorem State.blockRx_phase5 (h : s.portPhase p = 5) (hz : (s.lane p).sentZero = true) : s.blockRx p lane t obs =
    if t.phase = 0 ∧ max (s.lane p).phaseTick (s.lane p).cleanTick + 200000 ≤ s.ticks then s.nextPhase p else s := by
  unfold State.blockRx
  dsimp only
  rw [chooses, h, hz]
  simp only [Bool.not_true, Bool.false_and, Bool.false_eq_true, if_false, and_false, decide_eq_true_eq]
  rfl

end

/-! ### Where the phases lead, and their limits (R370, R372) -/

theorem State.nextPhase_full (hp : s.portState p = 1) (hs : (s.lane p).short = false) :
    (s.portPhase p = 1 → s.nextPhase p = s.enterPhase p 2) ∧ (s.portPhase p = 3 → s.nextPhase p = s.enterPhase p 4) ∧
    (s.portPhase p = 4 → s.nextPhase p = s.phase4Passed p) ∧ (s.portPhase p = 5 → s.nextPhase p = s.linkUp p) := by
  refine ⟨?_, ?_, ?_, ?_⟩ <;>
  · intro h
    unfold State.nextPhase
    dsimp only
    rw [hp, hs, h]
    rfl

theorem State.phaseTimeout_due (hp : s.portState p = 1 ∨ s.portState p = 3)
    (ht : (s.lane p).phaseTick + (s.lane p).phaseMs * 200000 ≤ s.ticks) : s.phaseTimeout p = s.phaseFailed p := if_pos ⟨hp, ht⟩

theorem State.trainingLimit_due (hp : s.portState p = 1) (ht : (s.lane p).startTick + 40000000 ≤ s.ticks) :
    s.trainingLimit p = if (s.lane p).short then s.startTraining p false else s.trainingFailed p true := if_pos ⟨hp, ht⟩

end

/-- Settles O25. What the receivers see is an operand of each block (log 20); the loop side and bonded ports follow the model's corners of
training (log 77). -/
theorem trainingTakesEffect : Obligations.TrainingTakesEffect := by
  refine ⟨?start, ?starting, ?retry, ?bad, ?good, ?phases, ?next, ?timeout, ?limit⟩
  case start => exact fun s p alone => State.startTraining_leaves alone
  case starting =>
    intro s p hl hf hp
    rw [exec_trainingStart]
    exact State.fabric_ports hl (if_pos ⟨hf, hp⟩)
  case retry =>
    intro s p t hl hf hp ht
    rw [exec_trainingRetry]
    exact State.fabric_ports hl (State.trainingRetry_due hf hp ht)
  case bad =>
    intro s p lane locked ask bits sweep hl hp h
    rw [exec_trainBlockRx]
    exact State.fabric_ports hl (State.trainBlockRx_bad hp (State.markBlock_bad h))
  case good =>
    intro s p lane locked ask bits sweep raw corr t hl hp h ht
    rw [exec_trainBlockRx]
    refine State.fabric_ports hl (State.trainBlockRx_good hp (State.markBlock_good h ht) ?_)
    split <;> rfl
  case phases =>
    intro u p lane t obs chooses
    refine ⟨fun h hm => ?_, fun h hm => ?_, State.blockRx_phase2 chooses, State.blockRx_phase3 chooses, State.blockRx_phase4 chooses,
      State.blockRx_phase5 chooses⟩
    · rw [State.blockRx_phase1 chooses h, if_pos hm]
    · rw [State.blockRx_phase1 chooses h, if_neg (by rw [hm]; decide)]
  case next => exact fun s p hp hs => State.nextPhase_full hp hs
  case timeout =>
    intro s p hl hp ht
    rw [exec_phaseTimeout]
    exact State.fabric_ports hl (State.phaseTimeout_due hp ht)
  case limit =>
    intro s p hl hp ht
    rw [exec_trainingLimit]
    exact State.fabric_ports hl (State.trainingLimit_due hp ht)

end Sys2Proof.Machine

/-! SUPPORT. -/

namespace Sys2Proof.Machine

section
variable {s : State} {p : Nat}

/-! ### A data lane that is lost (R376 to R379) -/

/-- A lost lane of a map as PORT_LANE_MAP, its counter and its event note it. -/
def State.lossNoted (s : State) (p lane cause : Nat) : State :=
  let u := s.setFld .portLaneMap p 0 12 4 (s.fld .portLaneMap p 0 12 4 + 2 ^ lane)
  (u.bump .portLaneFaults p 0 1).emit 0x2004 p 1 (pay [lane, cause])

theorem State.lossNoted_reg {r : FReg} (hm : r ≠ .portLaneMap) (hf : r ≠ .portLaneFaults) (lane cause i j : Nat) :
    (s.lossNoted p lane cause).reg r i j = s.reg r i j := by
  unfold State.lossNoted State.bump
  dsimp only
  rw [State.reg_congr (State.emit_fregs ..), State.reg_setReg_ne _ hf.symm, State.reg_setFld_ne _ hm.symm]

theorem State.sendLaneFault_reg (r : FReg) (i j : Nat) : (s.sendLaneFault p).reg r i j = s.reg r i j :=
  State.reg_congr (State.sendMarker_frame ..).1 _ _ _

/-- The loss once it is noted: the repair starts where a healthy lane is left, and the link goes down where none is. -/
theorem State.laneLost_active {lane : Nat} (cause : Nat) (hp : s.portState p = 2) (hl : (s.fld .portLaneMap p 0 12 4).testBit lane = false) :
    s.laneLost p lane cause =
      let u := s.lossNoted p lane cause
      let left := u.fld .portLaneMap p 0 8 4 &&& (15 - u.fld .portLaneMap p 0 12 4)
      let u := if s.clockMaster p then u else u.sendLaneFault p
      if left = 0 then u.linkDown p (u.fld .portLaneMap p 0 12 4) false false else u.startRepair p := by
  have master : (s.lossNoted p lane cause).clockMaster p = s.clockMaster p := by
    unfold State.clockMaster
    rw [State.lossNoted_reg (by decide) (by decide)]
  have active : ∀ c : Bool, (if c then s.lossNoted p lane cause else (s.lossNoted p lane cause).sendLaneFault p).portState p ≠ 6 := by
    intro c
    have same : (if c then s.lossNoted p lane cause else (s.lossNoted p lane cause).sendLaneFault p).portState p = s.portState p := by
      unfold State.portState State.fld
      split
      · rw [State.lossNoted_reg (by decide) (by decide)]
      · rw [State.sendLaneFault_reg, State.lossNoted_reg (by decide) (by decide)]
    rw [same, hp]
    decide
  unfold State.laneLost
  rw [if_neg (by rw [hl]; decide)]
  dsimp only
  rw [← master]
  exact if_congr Iff.rfl rfl (if_neg (active _))

theorem State.laneLoss_met {lane : Nat} {test : LossTest} (hp : s.portState p = 2) (hn : ∀ n, test ≠ .errors n) (hm : s.lossMet p lane test = true) :
    s.laneLoss p lane test = if 4 ≤ lane then s.linkDown p 0 (lane == 5) (lane == 4) else s.laneLost p lane (lossCause test) := by
  unfold State.laneLoss
  cases test with
  | markers n => rw [if_neg (by omega)]; exact if_neg (by rw [hm]; decide)
  | clock => rw [if_neg (by omega)]; exact if_neg (by rw [hm]; decide)
  | errors n => exact absurd rfl (hn n)

theorem State.laneLoss_fewMarkers {lane n : Nat} (hp : s.portState p = 2) (hn : n < max 1 (s.fld .portXLock p 0 0 4)) :
    s.laneLoss p lane (.markers n) = s := by
  unfold State.laneLoss
  rw [if_neg (by omega)]
  have unmet : s.lossMet p lane (.markers n) = false := decide_eq_false (Nat.not_le.mpr hn)
  exact if_pos (by rw [unmet]; rfl)

theorem State.laneLoss_errors {lane n : Nat} (hp : s.portState p = 2) (hl : lane < 4) :
    s.laneLoss p lane (.errors n) =
      let u := s.codeError p lane n
      let sum := (((u.lane p).errMs.filter fun e => e.1 == lane && decide (u.ticks < e.2.1 + 200000)).map fun e => e.2.2).sum
      if max 1 (u.fld .portXLock p 0 8 8) ≤ sum then u.laneLost p lane 2 else u := by
  unfold State.laneLoss
  rw [if_neg (by omega)]
  dsimp only
  by_cases met : (s.codeError p lane n).lossMet p lane (.errors n) = true
  · rw [if_neg (by rw [met]; decide), if_neg (by omega)]
    exact (if_pos (of_decide_eq_true met)).symm
  · rw [if_pos (by simpa using met)]
    exact (if_neg fun h => met (decide_eq_true h)).symm

theorem State.laneFaultRx_one {lane : Nat} {bits : List Bool} {t : TrainBlock} (hp : s.portState p = 2) (hm : s.clockMaster p = true)
    (hb : s.markBlock p 4 2 bits = (s, some t))
    (hl : ((List.range 4).filter fun l => (s.fld .portLaneMap p 0 8 4).testBit l && !t.laneStatus.testBit l) = [lane]) :
    s.laneFaultRx p bits = s.laneLost p lane 0 := by
  unfold State.laneFaultRx
  dsimp only
  rw [if_neg (by rw [hp, hm]; decide), hb]
  dsimp only
  rw [hl]
  exact if_pos (.inl hp)

/-! ### The end of a repair (R378) -/

theorem State.repairLate_iff : s.repairLate p = true ↔ (s.lane p).repairTick.getD s.ticks + s.repairLimit p ≤ s.ticks := decide_eq_true_iff

/-- A repair that ends well, before SAFE is looked at. -/
def State.repaired (s : State) (p : Nat) : State :=
  let u := (s.setPortState p 2).setFld .portState p 0 4 3 0
  let u := u.setLane p { s.lane p with repairTick := none, repairPassed := false, rxNext := 0, rxLanes := [] }
  u.emit 0x2005 p 1 (pay [u.fld .portState p 0 10 3, u.fld .portLaneMap p 0 0 8, (s.ticks - (s.lane p).repairTick.getD s.ticks) / 200])

theorem State.repairDone_met (hp : s.portState p = 3) (hr : (s.lane p).repairPassed = true) (hs : (s.link p).safe = none)
    (ht : s.ticks < (s.lane p).repairTick.getD s.ticks + s.repairLimit p) : s.repairDone p = s.repaired p := by
  have inTime : s.repairLate p = false := decide_eq_false (Nat.not_le.mpr ht)
  have calm : ((s.repaired p).link p).safe = none := hs
  have none_due : (s.repaired p).safeIfDue p = s.repaired p := by
    unfold State.safeIfDue
    rw [calm]
  unfold State.repairDone
  dsimp only
  rw [if_pos ⟨hp, hr, by rw [inTime]; rfl⟩]
  exact none_due

theorem State.repaired_fregs : (s.repaired p).fregs = ((s.setPortState p 2).setFld .portState p 0 4 3 0).fregs := State.emit_fregs ..

theorem State.repaired_leaves : (s.repaired p).portState p = 2 ∧ (s.repaired p).portPhase p = 0 ∧ ((s.repaired p).lane p).repairTick = none ∧
    ((s.repaired p).lane p).repairPassed = false ∧ (∀ r k j, r ≠ .portState → (s.repaired p).reg r k j = s.reg r k j) ∧
    (∀ q, q ≠ p → (s.repaired p).portState q = s.portState q) := by
  have lane : (s.repaired p).lane p = _ := State.lane_setLane_self ..
  refine ⟨?_, ?_, by rw [lane], by rw [lane], fun r k j hr => ?_, fun q hq => ?_⟩
  · unfold State.portState
    rw [State.fld_congr State.repaired_fregs, State.fld_setFld_apart _ _ _ _ _ _ _ _ _ (by decide) (by decide)]
    exact State.fld_setFld_self s .portState p 0 0 4 2 (by decide)
  · unfold State.portPhase
    rw [State.fld_congr State.repaired_fregs, State.fld_setFld_self _ _ _ _ _ _ _ (by decide)]
    rfl
  · rw [State.reg_congr State.repaired_fregs, State.reg_setFld_ne _ hr.symm]
    exact State.reg_setFld_ne _ hr.symm ..
  · unfold State.portState
    rw [State.fld_congr State.repaired_fregs, State.fld_setFld_otherInst _ _ hq.symm]
    exact State.fld_setFld_otherInst _ _ hq.symm ..

theorem State.repairTimeout_late (hp : s.portState p = 3) (ht : (s.lane p).repairTick.getD s.ticks + s.repairLimit p ≤ s.ticks) :
    s.repairTimeout p = s.repairFailed p := if_pos ⟨hp, State.repairLate_iff.mpr ht⟩

/-! ### Transmitters without power (R381) -/

theorem State.sendItem_txDead (h : (s.lane p).txDead = true) (typ flags stream alive : Nat) (stamp : Word) (payload : List Byte) :
    s.sendItem p typ flags stream alive stamp payload = s := if_pos (.inr (.inl h))

end

/-- Settles O26. A lane that is lost outside the map (log 20) and a transmit island that stays without packets until a new training (log 77)
are the model's choices. -/
theorem laneRepairTakesEffect : Obligations.LaneRepairTakesEffect := by
  refine ⟨?lost, ?errors, ?clocks, ?fault, ?reported, ?done, ?late, ?island, fun s p typ flags stream alive stamp payload h =>
    State.sendItem_txDead h ..⟩
  case lost =>
    intro s p lane n hl hp h4 ho
    have data : ¬ 4 ≤ lane := by omega
    refine ⟨?_, fun hn => ?_, fun hn => ?_⟩ <;> rw [exec_laneLoss]
    · refine State.fabric_ports hl ((State.laneLoss_met hp (by simp) rfl).trans ?_)
      rw [if_neg data]
      exact State.laneLost_active 1 hp ho
    · refine State.fabric_ports hl ((State.laneLoss_met (test := .markers n) hp (by simp) (decide_eq_true hn)).trans ?_)
      rw [if_neg data]
      exact State.laneLost_active 0 hp ho
    · exact State.fabric_ports hl (State.laneLoss_fewMarkers hp hn)
  case errors =>
    intro s p lane n hl hp h4
    rw [exec_laneLoss]
    exact State.fabric_ports hl (State.laneLoss_errors hp h4)
  case clocks =>
    intro s p lane hl hp h4
    rw [exec_laneLoss]
    exact State.fabric_ports hl ((State.laneLoss_met hp (by simp) rfl).trans (if_pos h4))
  case fault => exact fun s p h => State.sendMarker_wire _ _ _ _ _ h
  case reported =>
    intro s p lane bits raw t hl hp hm hb ht h1
    rw [exec_laneFaultMarkerRx]
    exact State.fabric_ports hl (State.laneFaultRx_one hp hm (State.markBlock_good hb ht) h1)
  case done =>
    intro s p hl hp hr hs ht
    refine ⟨s.repaired p, ?_, State.repaired_leaves⟩
    rw [exec_repairDone]
    exact State.fabric_ports hl (State.repairDone_met hp hr hs ht)
  case late =>
    intro s p hl hp ht
    rw [exec_repairTimeout]
    exact State.fabric_ports hl (State.repairTimeout_late hp ht)
  case island =>
    intro s p hl
    rw [exec_txIslandLoss]
    exact State.fabric_ports hl rfl

end Sys2Proof.Machine

/-! SUPPORT. -/

namespace Sys2Proof.Machine

/-! ### The commands of SPOKE_PORT where they are taken (R391) -/

theorem State.active_of_mayRest {s : State} {p : Nat} (h : s.mayRest p = true) : s.portState p = 2 := by
  unfold State.mayRest at h
  simp only [Bool.and_eq_true, beq_iff_eq] at h
  exact h.1.1

section
variable {s : State} {r host : Nat} {e : FEntry} (hh : s.plan.has 0x20 e.inst = true) (ho : e.object = 0xFFFF)
include hh ho

theorem retrain_taken (hz : e.zeroFrom 32 56 = true) (hn : (s.begun r e).fnState 0x20 e.inst = 2) (hp : (s.begun r e).portState e.inst = 2) :
    retrain host r e (s.begun r e) =
      let u := ((s.begun r e).bump .portLinkDown e.inst 0 1).startTraining e.inst false
      (u.setLane e.inst { u.lane e.inst with retrain := some (r, e.k) }, none) := by
  unfold retrain
  dsimp only
  rw [State.checked_begun hh (beq_of_eq ho) hz rfl, if_neg (by rw [hn]; decide), if_neg (by rw [hp]; decide), if_pos (.inl hp)]

theorem power_noted (h0 : 0 < e.arg 32 1) (h3 : e.arg 32 1 < 3) (hz : e.zeroFrom 33 56 = true) (hn : (s.begun r e).fnState 0x20 e.inst = 2)
    (hr : (s.begun r e).mayRest e.inst = true) :
    power host r e (s.begun r e) =
      let u := s.begun r e
      (u.setLane e.inst { u.lane e.inst with power := some (r, e.k, e.arg 32 1), powerTick := u.ticks }, none) := by
  have hp := State.active_of_mayRest hr
  unfold power
  dsimp only
  rw [State.checked_begun hh (beq_of_eq ho) (by simp [h3, hz]) rfl, if_neg (by rw [hn]; simp), if_neg (by rw [hp]; decide),
    if_neg (by rw [hp]; decide), if_neg (Nat.ne_of_gt h0), if_neg (by rw [hr]; decide)]

theorem laneTest_starts (hn : s.isOn 0x20 e.inst = true) (h32 : e.arg 32 1 < 4) (h33 : e.arg 33 1 < 2) (h34 : e.arg 34 1 < 32) (h35 : e.arg 35 1 = 0)
    (h1 : 1 ≤ e.arg 36 4) (hm : e.arg 36 4 ≤ 2000) (hz : e.zeroFrom 40 56 = true) (hr : (s.begun r e).mayRest e.inst = true) :
    laneTest host r e (s.begun r e) =
      let u := ((s.begun r e).setPortState e.inst 5).setFld .portTestStatus e.inst 0 0 6 1
      let u := if e.arg 33 1 = 0 then u.sendMarker e.inst 5 (u.bitLanes e.inst) (u.blockOf e.inst 0 (e.arg 32 1)).bytes else u
      let u := u.send (.testPattern e.inst (e.arg 32 1) (e.arg 33 1 == 1) (u.patternLines e.inst (e.arg 32 1) (e.arg 34 1)))
      (u.setLane e.inst { u.lane e.inst with
        test := some ⟨r, e.k, e.arg 32 1, e.arg 33 1, e.arg 34 1, u.ticks + e.arg 36 4 * 200000⟩ }, none) := by
  have hp := State.active_of_mayRest hr
  unfold laneTest
  dsimp only
  rw [State.checked_on hh hn ho (by simp [h32, h33, h34, h35, h1, hm, hz]), if_neg (by rw [hp]; decide), if_neg (by rw [hr]; decide)]
  rfl

theorem inject_made (hn : s.isOn 0x20 e.inst = true) (h5 : e.arg 32 1 < 5) (hd : (s.begun r e).drivesLane e.inst (e.arg 32 1) = true)
    (h33 : 1 ≤ e.arg 33 1) (h34 : 1 ≤ e.arg 34 2) (hz : e.zeroFrom 36 56 = true) (hp : (s.begun r e).portState e.inst = 5) :
    inject host r e (s.begun r e) = ((s.begun r e).send (.injected e.inst (e.arg 32 1) (e.arg 33 1) (e.arg 34 2)), some (0, 0)) := by
  unfold inject
  dsimp only
  rw [State.checked_on hh hn ho (by simp [h5, hd, h33, h34, hz]), if_neg (by rw [hp]; decide), if_neg (by rw [hp]; decide),
    if_neg (fun h => h.1 hp)]
  rfl

end

/-! ### Power states and the end of a test (R382 to R386) -/

section
variable {s : State} {p r k : Nat}

/-- What completes a POWER whose state is reached. -/
def State.powerEnded (s : State) (p st r k : Nat) : State :=
  let v := (s.setPortState p st).emit 0x2008 p 0 (pay [2, st, (s.ticks - (s.lane p).powerTick) / 200])
  (v.setLane p { v.lane p with power := none }).complete r k 0 0

theorem State.powerReached_ends {st t : Nat} (hp : s.portState p = 2) (hc : (s.lane p).power = some (r, k, t)) :
    s.powerReached p st = s.powerEnded p st r k := by
  unfold State.powerReached
  dsimp only
  rw [hp, hc]
  rfl

theorem State.sendMarker_portState (code : Nat) (lanes : List Nat) (block : List Byte) (q : Nat) :
    (s.sendMarker p code lanes block).portState q = s.portState q := State.fld_congr (State.sendMarker_frame ..).1 _ _ _ _ _

theorem State.sendMarker_power (code : Nat) (lanes : List Nat) (block : List Byte) :
    ((s.sendMarker p code lanes block).lane p).power = (s.lane p).power := by
  obtain ⟨lasts, h⟩ := s.sendMarker_lane p code lanes block
  rw [h]

theorem State.powerState_idle (hp : s.portState p = 2) (hr : s.mayRest p = true) (hc : (s.lane p).power = some (r, k, 1)) :
    s.powerState p = (if (s.dataLanes p).isEmpty then s else (s.sendMarker p 3 (s.dataLanes p) []).send (.dataIdle p)).powerEnded p 6 r k := by
  have reached : s.powerState p =
      (if (s.dataLanes p).isEmpty then s else (s.sendMarker p 3 (s.dataLanes p) []).send (.dataIdle p)).powerReached p 6 := by
    unfold State.powerState
    simp only [hp, hr, hc, and_self, if_true]
  rw [reached]
  split
  · exact State.powerReached_ends hp hc
  · exact State.powerReached_ends ((State.sendMarker_portState ..).trans hp) ((State.sendMarker_power ..).trans hc)

theorem State.powerState_deep (hp : s.portState p = 2) (hr : s.mayRest p = true) (hc : (s.lane p).power = some (r, k, 2)) :
    s.powerState p = (s.send (.electricalIdle p)).powerEnded p 7 r k := by
  have reached : s.powerState p = (s.send (.electricalIdle p)).powerReached p 7 := by
    unfold State.powerState
    simp only [hp, hr, hc, and_self, if_true]
  rw [reached]
  exact State.powerReached_ends hp hc

theorem State.powerState_refused {st : Nat} (hp : s.portState p = 2) (hr : s.mayRest p = false) (hc : (s.lane p).power = some (r, k, st)) :
    s.powerState p = (s.setLane p { s.lane p with power := none }).complete r k 0x8008 0 := by
  unfold State.powerState
  dsimp only
  rw [if_neg (by rw [hr]; simp), if_pos hp, hc]
  rfl

theorem State.testDone_due {rx : List (List Bool)} {heard : Nat} {t : LaneTest} (ht : (s.lane p).test = some t) (hd : t.until_ ≤ s.ticks) :
    s.testDone p rx heard =
      let got := (List.range 5).map fun l => if heard.testBit l then s.testChecked p t rx l else none
      let u := forEach (List.range 5) (fun l s => s.bump .portPrbsErr p l ((got.getD l none).getD 0)) s
      let u := u.setReg .portTestStatus p 0 (w32 (((List.range 5).map fun l => b2n (got.getD l none).isSome * 2 ^ (l + 1)).sum))
      let u := u.emit 0x2009 p 0 (pay ([t.pattern, t.mode] ++ got.map fun n => min 65535 (n.getD 0)))
      let u := if t.mode = 0 then u.sendMarker p 6 (u.bitLanes p) [] else u
      let u := u.setPortState p 2
      ((u.setLane p { u.lane p with test := none }).complete t.ring t.k 0 0).safeIfDue p := by
  unfold State.testDone
  rw [ht]
  exact if_neg (Nat.not_lt.mpr hd)

end

/-- Settles O27. A POWER that can no longer rest completing with STATE is the model's choice (log 77). -/
theorem portCommandsTakeEffect : Obligations.PortCommandsTakeEffect := by
  refine ⟨?retrain, ?power, ?powerState, ?test, ?testDone, ?inject⟩
  case retrain =>
    intro s r k e h hh ho hz hn hp
    rw [exec_retrain]
    exact State.fabric_ports h.1 (State.runCmd_goes h (retrain_taken hh ho hz hn hp))
  case power =>
    intro s r k e h hh ho h0 h3 hz hn hr
    rw [exec_power]
    exact State.fabric_ports h.1 (State.runCmd_goes h (power_noted hh ho h0 h3 hz hn hr))
  case powerState =>
    intro s p r k hl hp
    refine ⟨fun hr hc => ?_, fun hr hc => ?_, fun st hr hc => ?_⟩ <;> rw [exec_powerState]
    · exact State.fabric_ports hl (State.powerState_idle hp hr hc)
    · exact State.fabric_ports hl (State.powerState_deep hp hr hc)
    · exact State.fabric_ports hl (State.powerState_refused hp hr hc)
  case test =>
    intro s r k e h hh hn ho h32 h33 h34 h35 h1 hm hz hr
    rw [exec_test]
    exact State.fabric_ports h.1 (State.runCmd_goes h (laneTest_starts hh ho hn h32 h33 h34 h35 h1 hm hz hr))
  case testDone =>
    intro s p heard rx t hl ht hd
    rw [exec_testDone]
    exact State.fabric_ports hl (State.testDone_due ht hd)
  case inject =>
    intro s r k e h hh hn ho h5 hd h33 h34 hz hp
    rw [exec_inject]
    exact State.fabric_ports h.1 (State.runCmd_done h (inject_made hh ho hn h5 hd h33 h34 hz hp))

end Sys2Proof.Machine

/-! SUPPORT. -/

namespace Sys2Proof.Machine

/-! ### Sensors (R542, R543) -/

/-- A value of 16 bits is what its code shows. -/
theorem sext_code16 {q : Int} (hl : -32768 ≤ q) (hh : q < 32768) : sext 16 (code 16 q % 2 ^ 16) = q := by
  unfold sext code
  norm_num
  split <;> omega

section
variable {s : State}

theorem State.takeSensor_fabric {n : Nat} (h : n < 32) (q : Int) :
    s.takeSensor n (some q) = (s.setWdn { s.wdn with sensTick := assocSet s.wdn.sensTick n s.ticks }).setFld .thmSensor 0 n 0 16 (code 16 q) :=
  if_pos h

theorem State.sensor_fabric {n : Nat} (h : n < 32) : s.sensor n = sext 16 (s.fld .thmSensor 0 n 0 16) := congrArg (sext 16) (if_pos h)

theorem State.fld_setFld_otherEntry (u : State) (r : FReg) {i j j' : Nat} (h : j ≠ j') (lo n v lo' n' : Nat) :
    (u.setFld r i j lo n v).fld r i j' lo' n' = u.fld r i j' lo' n' := by
  unfold State.fld State.setFld
  rw [State.reg_setReg, if_neg (by simp [h])]

theorem State.takeSensor_shows {n : Nat} {q : Int} (hn : n < 32) (hl : -32768 ≤ q) (hh : q < 32768) :
    (s.takeSensor n (some q)).sensor n = q ∧ ∀ m, m < 32 → m ≠ n → (s.takeSensor n (some q)).sensor m = s.sensor m := by
  refine ⟨?_, fun m hm hne => ?_⟩
  · rw [State.sensor_fabric hn, State.takeSensor_fabric hn, State.fld_setFld_self _ _ _ _ _ _ _ (by decide), sext_code16 hl hh]
  · rw [State.sensor_fabric hm, State.sensor_fabric hm, State.takeSensor_fabric hn, State.fld_setFld_otherEntry _ _ hne.symm]
    rfl

theorem State.sensorTimeout_due {n : Nat} (hn : n < 35) (ht : (assocGet s.wdn.sensTick n).getD s.wdn.resetTick + 5 * tickMs ≤ s.ticks) :
    s.sensorTimeout n = (s.judgeSensors).showTemps false := if_pos ⟨hn, ht⟩

theorem State.sensorBad_silent {n : Nat} (ht : (assocGet s.wdn.sensTick n).getD s.wdn.resetTick + 5 * tickMs ≤ s.ticks) : s.sensorBad n = true := by
  unfold State.sensorBad
  simp only [decide_eq_true ht, Bool.true_or]

/-! ### The start hold, GRACE and the steps of enforcement (R541, R545 to R547) -/

theorem State.holdRelease_cool (hw : s.wdn.waitStep = 2) (ht : s.tempMax < s.warnTemp - s.hystTemp) :
    s.holdRelease = (s.setFld .thmState 0 0 12 1 0).setWdn { s.wdn with waitStep := 3, waitTick := s.ticks } := if_pos ⟨hw, ht⟩

theorem State.graceEnd_due (hl : s.level = 1) (ht : s.wdn.graceTick + s.thmF 1 0 16 * tickMs ≤ s.ticks) :
    s.graceEnd = if s.effTemp < s.warnTemp then s.thmLevel 0 else (s.thmLevel 2).enforce :=
  if_neg (by rintro (h | h)
             · exact h hl
             · exact Nat.not_lt.mpr ht h)

theorem State.enforceStep_due (hl : s.level = 2) (hs : s.thmStep < 18) (hw : s.warnTemp ≤ s.effTemp)
    (ht : s.wdn.stepTick + s.thmF 1 16 16 * tickMs ≤ s.ticks) : s.enforceStep = s.enforce := if_pos ⟨hl, hs, hw, ht⟩

/-- A step down leaves the warden's own state and the time. -/
theorem State.putStep_down {n : Nat} (h : n ≤ s.thmStep) : (s.putStep n).wdn = s.wdn ∧ (s.putStep n).ticks = s.ticks := by
  have frame : ∀ u : State, ((forEach s.plan.heads (fun e s => s.setFld .composeStatus e.head 0 14 4 (thermalRank n)) u).wdn = u.wdn ∧
      (forEach s.plan.heads (fun e s => s.setFld .composeStatus e.head 0 14 4 (thermalRank n)) u).ticks = u.ticks) := by
    intro u
    exact ⟨forEach_frame (f := fun (e : HeadEnt) s => s.setFld .composeStatus e.head 0 14 4 (thermalRank n)) (g := State.wdn) (fun _ _ => rfl) _ _,
      forEach_frame (f := fun (e : HeadEnt) s => s.setFld .composeStatus e.head 0 14 4 (thermalRank n)) (g := State.ticks) (fun _ _ => rfl) _ _⟩
  unfold State.putStep
  dsimp only
  rw [if_neg (Nat.not_lt.mpr h)]
  exact frame (s.setFld .thmState 0 0 3 5 n)

theorem State.enforceRelease_due {t : Nat} (hc : s.wdn.lowTick = some t) (hl : s.level = 2) (ht : t + s.thmF 2 16 16 * tickS ≤ s.ticks) :
    s.enforceRelease =
      let v := s.putStep (s.thmStep - 1)
      let u := v.setWdn { v.wdn with lowTick := some v.ticks }
      if u.thmStep = 0 then (u.thmLevel 0).emit 0x3303 0 0 (pay [code 16 u.wdn.peak]) else u := by
  obtain ⟨sameWdn, sameTicks⟩ := State.putStep_down (Nat.sub_le s.thmStep 1)
  unfold State.enforceRelease
  rw [hc]
  dsimp only
  rw [if_neg (by rintro (h | h)
                 · exact h hl
                 · exact Nat.not_lt.mpr ht h), sameWdn, sameTicks]

/-! ### CUTOFF and recovery (R551, R552) -/

theorem State.cutoff_met (hl : s.level = 3)
    (ht : s.critTemp + 20 ≤ s.tempMax ∨ ∃ t : Nat, s.wdn.critTick = some t ∧ t + 5 * tickS ≤ s.ticks) :
    s.cutoff = ((s.thmLevel 4).emit 0x3305 0 2 (pay [s.fld .thmTemp 0 0 0 16])).settle.holdDie := by
  unfold State.cutoff
  dsimp only
  refine if_pos ⟨hl, ht.imp_right ?_⟩
  rintro ⟨t, hc, h5⟩
  rw [hc]
  exact decide_eq_true h5

/-- The recoveries of the last hour. -/
def State.recentRecoveries (s : State) : List Nat := s.wdn.recoveries.filter fun t => decide (s.ticks < t + 3600 * tickS)

theorem State.autoRecovery_few {t : Nat} (hc : s.wdn.coolTick = some t) (hl : 3 ≤ s.level) (hw : s.wdn.cause = 1) (hx : s.thmF 3 0 1 = 1)
    (ht : t + s.thmF 3 16 16 * tickS ≤ s.ticks) (hr : s.recentRecoveries.length < 3) :
    s.autoRecovery =
      let u := ((s.thmLevel 0).setFld .thmState 0 0 3 5 0).setWdn { s.wdn with
        recoveries := s.recentRecoveries ++ [s.ticks], recovered := some s.wdn.cause, cause := 0, coolTick := none, lowTick := none,
        alertLevel := false }
      (u.resetTo 2 5 u.wdn.straps).setFld .thmReset 0 0 8 8 (s.recentRecoveries.length + 1) := by
  unfold State.autoRecovery
  rw [hc]
  refine if_neg ?_
  rintro (h | h | h | h | h)
  · omega
  · exact h hw
  · omega
  · exact Nat.not_lt.mpr ht h
  · exact Nat.not_lt.mpr h hr

theorem State.autoRecovery_many {t : Nat} (hc : s.wdn.coolTick = some t) (hr : 3 ≤ s.recentRecoveries.length) : s.autoRecovery = s := by
  unfold State.autoRecovery
  rw [hc]
  exact if_pos (.inr (.inr (.inr (.inr hr))))

end

/-- Settles O49. A failed sensor judged at each reading, a stack counted from the next sensor reading and the level in the start hold are the
model's choices (log 64). -/
theorem thermalTakesEffect : Obligations.ThermalTakesEffect := by
  refine ⟨?reading, fun s n q hn hl hh => State.takeSensor_shows hn hl hh, ?silent, ?hold, ?grace, ?step, ?release, ?cutoff, ?recovery⟩
  case reading =>
    intro s ts hp
    rw [exec_sensorReading, State.warden_powered hp]
    rfl
  case silent =>
    intro s n hp hn ht
    rw [exec_sensorTimeout, State.warden_powered hp, State.sensorTimeout_due hn ht]
    exact ⟨rfl, State.sensorBad_silent ht⟩
  case hold =>
    intro s hp hw ht
    rw [exec_startHoldRelease, State.warden_powered hp, State.holdRelease_cool hw ht]
  case grace =>
    intro s hp hl ht
    rw [exec_graceEnd, State.warden_powered hp, State.graceEnd_due hl ht]
    exact ⟨fun h => by rw [if_pos h], fun h => by rw [if_neg (Int.not_lt.mpr h)]⟩
  case step =>
    intro s hp hl hs hw ht
    rw [exec_enforceStep, State.warden_powered hp, State.enforceStep_due hl hs hw ht]
    rfl
  case release =>
    intro s t hp hc hl ht
    rw [exec_enforceRelease, State.warden_powered hp, State.enforceRelease_due hc hl ht]
    exact ⟨fun h => by rw [if_neg h], fun h => by rw [if_pos h]⟩
  case cutoff =>
    intro s hp hl ht
    rw [exec_cutoff, State.warden_powered hp, State.cutoff_met hl ht]
  case recovery =>
    intro s t hp hc hl hw hx ht
    rw [exec_autoRecovery, State.warden_powered hp]
    exact ⟨fun hr => by rw [State.autoRecovery_few hc hl hw hx ht hr]; rfl, fun hr => by rw [State.autoRecovery_many hc hr]⟩

end Sys2Proof.Machine

/-! SUPPORT. -/

namespace Sys2Proof.Machine

/-! ### What a FABRIC reset leaves of the warden's own state (R532, R551) -/

section
variable (s : State)

theorem State.faultPin_wdn (was : State) : (s.faultPin was).wdn = s.wdn := by
  unfold State.faultPin
  split <;> rfl

theorem State.showSlots_wdn : s.showSlots.wdn = s.wdn := rfl
theorem State.identity_wdn : s.identity.wdn = s.wdn := by
  unfold State.identity
  simp only [State.setReg_wdn, State.onBus_wdn]

theorem State.drawNonce_wdn : s.drawNonce.wdn = s.wdn :=
  forEach_frame (f := fun i s => (s.free.2).setReg .debugNonce 0 i s.free.1) (g := State.wdn) (fun _ _ => rfl) _ _

/-- A FABRIC reset starts the order of start-up at step 1, but in CUTOFF, which holds the die in reset. -/
theorem State.resetTo_fabric_waitStep (cause straps : Nat) : (s.resetTo 2 cause straps).wdn.waitStep = if s.level = 4 then 0 else 1 := by
  unfold State.resetTo
  dsimp only
  rw [if_neg (fun h => h.1 rfl), State.faultPin_wdn, State.showLife_wdn, State.showSlots_wdn, State.identity_wdn, State.setFld_wdn,
    State.drawNonce_wdn]
  rfl

end

/-- A unit in CUTOFF. -/
def cutOff : State := State.reset.setFld .thmState 0 0 0 3 4

theorem cutOff_level : cutOff.level = 4 := State.fld_setFld_self _ _ _ _ _ _ _ (by decide)

/-- Refutes O48: a FABRIC reset of a unit in CUTOFF (`cutOff`) holds the fabric die in reset (R551), so that WAIT_STEP is 0 and not 1; the
statement's fourth clause asks for 1 at every level. -/
theorem not_resetsAndStartTakeEffect : ¬ Obligations.ResetsAndStartTakeEffect := by
  rintro ⟨-, -, -, resets, -⟩
  obtain ⟨-, -, -, -, -, fabric, -⟩ := resets cutOff 2 0 0 (by decide) (.inl rfl)
  have held : (cutOff.resetTo 2 0 0).wdn.waitStep = 0 := by rw [State.resetTo_fabric_waitStep, if_pos cutOff_level]
  exact absurd (held.symm.trans (fabric rfl).1) (by decide)

end Sys2Proof.Machine

/-! SUPPORT. -/

namespace Sys2Proof.Machine

/-! ### Encode instants (R336, R339, R353) -/

section
variable {s : State} {c : Nat}

/-- A core whose next encode instant is set, with a performed SELECT in effect. -/
def State.encTurned (s : State) (c : Nat) (t : Word) : State :=
  (s.setEnc c { s.enc c with next := some (s.encNext c (s.encDiv c) t) }).encSelect c

theorem State.encSelect_reg {r : FReg} (hs : r ≠ .encSrc) (hp : r ≠ .encCropPos) (hz : r ≠ .encCropSize) (u : State) (i j : Nat) :
    (u.encSelect c).reg r i j = u.reg r i j := by
  unfold State.encSelect
  split
  · rfl
  · rw [State.reg_congr (State.setEnc_fregs ..), State.reg_setReg_ne _ hz.symm, State.reg_setReg_ne _ hp.symm, State.reg_setReg_ne _ hs.symm]

theorem State.encSelect_plan (u : State) : (u.encSelect c).plan = u.plan := by
  unfold State.encSelect
  split <;> rfl

theorem State.encTurned_follows (t : Word) : (s.encTurned c t).follows = s.follows := by
  have same : (s.encTurned c t).reg .tndState 0 0 = s.reg .tndState 0 0 := State.encSelect_reg (by decide) (by decide) (by decide) ..
  have plan : (s.encTurned c t).plan = s.plan := State.encSelect_plan _
  unfold State.follows State.fld
  rw [same, plan]

theorem State.encSelect_job (u : State) : ((u.encSelect c).enc c).job = (u.enc c).job := by
  unfold State.encSelect
  split
  · rfl
  · rw [State.enc_setEnc_self]
    rfl

theorem State.encTurned_job (t : Word) : ((s.encTurned c t).enc c).job = (s.enc c).job := by
  unfold State.encTurned
  rw [State.encSelect_job, State.enc_setEnc_self]

/-- The buffer that can be latched at an instant while the core is fed. -/
def State.encCand (v : State) (c : Nat) (t : Word) : Option Nat :=
  let n := v.fld .encSrc c 0 0 7
  let r := v.fld .encRing c 0 0 9
  let live := !(v.enc c).cut && v.isOn 2 r && !v.writerAbsent n && !(v.bus.hostSt ((v.plan.ringHost r).getD 0)).underReset
  if live then v.latchable n t else none

/-- The buffer that a picture begun at an instant takes: the one that can be latched, unless the last picture showed its tag. -/
def State.encFresh (v : State) (c : Nat) (t : Word) : Option Nat :=
  (v.encCand c t).filter fun b => (v.enc c).last.map Prod.fst != some (v.reg .srcBufTag (v.fld .encSrc c 0 0 7) b).toNat

/-- Why the next picture is an IDR. -/
def State.encIdr (v : State) (c : Nat) : Option Nat :=
  if (v.enc c).idr.isSome then (v.enc c).idr
  else if v.fld .encCtl c 0 16 16 ≠ 0 ∧ (v.enc c).pics % v.fld .encCtl c 0 16 16 = 0 then some 4 else none

/-- A picture dropped at an instant, before its event. -/
def State.encDrop (v : State) (c why : Nat) (t : Word) : State :=
  let w := ((v.codingRec 0x15 c 5 c 0 0 t).bump .encDropped c 0 1).setEnc c
    { v.enc c with idr := some 3, lost := true, poc := (v.enc c).poc + 1 }
  if why = 0 then w.onBus fun b => b.ringFull (w.fld .encRing c 0 0 9) 1 else w

/-- A picture begun at an instant with the buffer taken. -/
def State.encBegin (v : State) (c : Nat) (t : Word) (fresh idr : Option Nat) : State :=
  let x := v.enc c
  let n := v.fld .encSrc c 0 0 7
  let st := match fresh with
    | some b => ((v.reg .srcBufTag n b).toNat, v.reg .srcBufTime n b, v.fld .srcBufAlive n b 0 16)
    | none => x.last.getD (0, 0, 0)
  let poc := if idr.isSome then 0 else x.poc + x.late + 1
  let degraded := (v.srcKind n == 3 && v.syncState n == 2) || (fresh.map fun b => bit (v.reg .srcBufState n b) 4).getD false
  let w := (fresh.map (v.holdBuf n)).getD v
  ((w.codingRec 0x15 c 3 c st.2.2 st.1 t).setEnc c { x with
    job := some ⟨t, fresh.map fun b => (n, b), none, fresh.isNone, (v.newest n).isNone, st.2.1, st.2.2, st.1,
      v.fld .srcState n 0 0 2, degraded, idr,
      (v.fld .encCropPos c 0 0 16, v.fld .encCropPos c 0 16 16, v.fld .encCropSize c 0 0 16, v.fld .encCropSize c 0 16 16),
      min 51 (v.fld .encQp c 0 0 6 + v.fld .encStatus c 0 0 8), v.encCap c, poc,
      decide (0 < x.late), x.lost⟩,
    idr := none, late := 0, lost := false, poc := poc }).setFld .encStatus c 0 12 1 1

section
variable {t : Word} (hn : (s.enc c).next = some t) (ho : s.isOn 0x15 c = true) (hr : (s.reg .grpRate 0 (s.encGroup c)).toNat ≠ 0)
  (ha : atOrAfter s.now t = true) (hf : s.follows = false)
include hn ho hr ha hf

theorem State.encInstant_busy (hj : (s.enc c).job.isSome = true) : s.encInstant c = (s.encTurned c t).encPass c t := by
  have due : ¬ ((!s.isOn 0x15 c) = true ∨ (s.reg .grpRate 0 (s.encGroup c)).toNat = 0 ∨ (!atOrAfter s.now t) = true) := by simp [ho, hr, ha]
  have leads : ¬ (s.encTurned c t).follows = true := by rw [State.encTurned_follows, hf]; decide
  have busy : ((s.encTurned c t).enc c).job.isSome = true := by rw [State.encTurned_job, hj]
  unfold State.encInstant
  rw [hn]
  dsimp only
  rw [if_neg due]
  exact (if_neg leads).trans (if_pos busy)

theorem State.encInstant_blocked {why : Nat} (hj : (s.enc c).job = none)
    (hb : (s.encTurned c t).encBlocked c ((s.encTurned c t).encCap c) = some why) :
    s.encInstant c = ((s.encTurned c t).encDrop c why t).emit 0x1502 c 1 (pay [why, t.toNat]) := by
  have due : ¬ ((!s.isOn 0x15 c) = true ∨ (s.reg .grpRate 0 (s.encGroup c)).toNat = 0 ∨ (!atOrAfter s.now t) = true) := by simp [ho, hr, ha]
  have leads : ¬ (s.encTurned c t).follows = true := by rw [State.encTurned_follows, hf]; decide
  have idle : ¬ ((s.encTurned c t).enc c).job.isSome = true := by rw [State.encTurned_job, hj]; decide
  unfold State.encInstant
  rw [hn]
  dsimp only
  rw [if_neg due]
  refine (if_neg leads).trans ((if_neg idle).trans ?_)
  change (match (s.encTurned c t).encBlocked c ((s.encTurned c t).encCap c) with | some why => _ | none => _) = _
  rw [hb]
  rfl

theorem State.encInstant_begins (hj : (s.enc c).job = none)
    (hb : (s.encTurned c t).encBlocked c ((s.encTurned c t).encCap c) = none) :
    s.encInstant c = (s.encTurned c t).encBegin c t ((s.encTurned c t).encFresh c t) ((s.encTurned c t).encIdr c) := by
  have due : ¬ ((!s.isOn 0x15 c) = true ∨ (s.reg .grpRate 0 (s.encGroup c)).toNat = 0 ∨ (!atOrAfter s.now t) = true) := by simp [ho, hr, ha]
  have leads : ¬ (s.encTurned c t).follows = true := by rw [State.encTurned_follows, hf]; decide
  have idle : ¬ ((s.encTurned c t).enc c).job.isSome = true := by rw [State.encTurned_job, hj]; decide
  unfold State.encInstant
  rw [hn]
  refine (if_neg due).trans ?_
  extract_lets e u v x limit d d' n r writer cand fresh stamps period idr taint degraded j
  change v.encBlocked c limit = none at hb
  change _ = v.encBegin c t (v.encFresh c t) (v.encIdr c)
  refine (if_neg leads).trans ((if_neg idle).trans ?_)
  rw [hb]
  clear_value v
  have hfresh : fresh = v.encFresh c t := by
    show fresh = cand.filter fun b => x.last.map Prod.fst != some (v.reg .srcBufTag n b).toNat
    unfold fresh
    cases cand with
    | none => rfl
    | some b =>
      rcases x.last with _ | ⟨tag, _⟩
      · rfl
      · by_cases ht : (v.reg .srcBufTag n b).toNat = tag
        · simp [Option.filter, ht]
        · simp [Option.filter, ht, Ne.symm ht]
  have hidr : idr = v.encIdr c := by
    unfold idr State.encIdr
    change _ = if x.idr.isSome then x.idr else _
    cases x.idr <;> rfl
  rw [← hfresh, ← hidr]
  clear hfresh hidr
  clear_value fresh idr
  cases fresh <;> rfl

end
end

/-! ### The input picture and the end of a picture (R336, R341 to R345, R354) -/

section
variable {s u : State} {c n b : Nat} {j : EncJob}

theorem State.encInput_taken {bs : Blocks} (hj : (s.enc c).job = some j) (hi : j.input = some (n, b)) (hp : j.pic = none)
    (hb : s.encBlocks c n b j.crop = (u, .ok bs)) :
    s.encInput c =
      let pic := encPicture (u.geo n) bs (u.reg .encCtl c 0) j.crop.1 j.crop.2.1 j.crop.2.2.1 j.crop.2.2.2
        (u.encW c) (u.encH c) (u.encTen c)
      (u.releaseBuf n b).setEnc c { u.enc c with job := some { j with pic := some pic } } := by
  unfold State.encInput
  simp only [hj, hi, hp, Option.isSome_none, Bool.false_eq_true, if_false, hb]

theorem State.encInput_failed {f : Fetch Blocks} (hj : (s.enc c).job = some j) (hi : j.input = some (n, b)) (hp : j.pic = none)
    (hb : s.encBlocks c n b j.crop = (u, f)) (hf : ∀ bs, f ≠ .ok bs) : s.encInput c = u.encAbandon c := by
  unfold State.encInput
  simp only [hj, hi, hp, Option.isSome_none, Bool.false_eq_true, if_false, hb]

theorem ite_bnot (b : Bool) (x y : State) : (if (!b) = true then x else y) = if b = true then y else x := by cases b <;> rfl

/-- What a core makes of a picture whose reference windows are read. -/
def State.encFinish (s : State) (c : Nat) (x : EncSt) (j : EncJob) (ref : List (List Byte)) : State :=
  let out := s.encCode c j (if j.idr.isSome then (0, 0) else s.encBand c) ref
  let pos := if x.pos + out.1.length ≤ (s.reg .encOutSize c 0).toNat then x.pos else 0
  let w1 := s.store (encMaster c) (s.refBase c (!x.refB)) out.2.2
  let w2 := w1.1.store (encMaster c) (s.pair .encOutBaseLo .encOutBaseHi c 0 + pos) out.1
  if w1.2 && w2.2 then w2.1.encPost c j out.1 out.2.1 pos else w2.1.encAbandon c

theorem State.encEnd_windows {s0 : State} {ref : List (List Byte)} (hj : (s0.enc c).job = some j) (ha : j.again = true ∨ j.pic.isSome = true)
    (hr : (if j.idr.isSome then (s0, Fetch.ok []) else s0.encWindows c (s0.refBase c (s0.enc c).refB)) = (s, .ok ref)) :
    s0.encEnd c = s.encFinish c (s0.enc c) j ref := by
  unfold State.encEnd
  simp only [hj]
  rw [if_neg (by rintro ⟨h1, h2⟩; obtain h | h := ha <;> simp_all)]
  simp only [hr]
  exact ite_bnot ..

theorem State.encEnd_failed {f : Fetch (List (List Byte))} (hj : (s.enc c).job = some j) (ha : j.again = true ∨ j.pic.isSome = true)
    (hi : j.idr = none) (hw : s.encWindows c (s.refBase c (s.enc c).refB) = (u, f)) (hf : ∀ ref, f ≠ .ok ref) :
    s.encEnd c = u.encAbandon c := by
  unfold State.encEnd
  simp only [hj]
  rw [if_neg (by rintro ⟨h1, h2⟩; obtain h | h := ha <;> simp_all)]
  simp only [hi, Option.isSome_none, Bool.false_eq_true, if_false, hw]

/-! ### A picture posted within its cap (R350, R354) -/

/-- The entry of a picture that is no IDR, nothing having been skipped, and what the core then holds. -/
def State.encHeld (s : State) (c : Nat) (j : EncJob) (au : List Byte) (p : Bus × Bool) (pos : Nat) : EncSt :=
  let x := s.enc c
  let t : State := { s with bus := p.1 }
  { x with
    job := none, last := some (j.tag, j.cap, j.alive), pics := x.pics + 1, band := x.band + 1, sizes := (au.length :: x.sizes).take (t.encF c),
    outs := if p.2 then t.encOuts c ++ [((s.bus.ringProd (s.fld .encRing c 0 0 9)).toNat, pos, au.length)] else t.encOuts c,
    pos := pos + au.length, seq := aliveNext x.seq, refB := !x.refB }

/-- A posted picture in the core and its registers. -/
def State.encPosted (t : State) (c : Nat) (x : EncSt) : State :=
  let t := ((t.setEnc c x).setFld .encStatus c 0 12 1 0).setReg .encWindowBytes c 0 (w32 x.sizes.sum)
  ((t.bump .encPictures c 0 1).bump .encRepeats c 0 0).setFld .encStatus c 0 8 1 0

section
variable (t : State) (x : EncSt)

theorem State.encPosted_enc : (t.encPosted c x).enc c = x := State.enc_setEnc_self ..

theorem State.encPosted_pictures : (t.encPosted c x).reg .encPictures c 0 = t.reg .encPictures c 0 + 1 := by
  unfold State.encPosted State.bump
  dsimp only
  rw [State.reg_setFld_ne _ (by decide), State.reg_setReg_ne _ (by decide), State.reg_setReg_self, State.reg_setReg_ne _ (by decide),
    State.reg_setFld_ne _ (by decide)]
  rfl

theorem State.encPosted_capped : (t.encPosted c x).fld .encStatus c 0 8 1 = 0 :=
  (State.fld_setFld_self _ .encStatus c 0 8 1 0 (by decide)).trans rfl

/-- The rest of ENC_STATUS but the bit of a picture in progress stays. -/
theorem State.encPosted_apart {lo n : Nat} (h : lo + n ≤ 8 ∨ 9 ≤ lo) (h' : lo + n ≤ 12 ∨ 13 ≤ lo) :
    (t.encPosted c x).fld .encStatus c 0 lo n = t.fld .encStatus c 0 lo n := by
  unfold State.encPosted State.bump
  dsimp only
  rw [State.fld_setFld_apart _ _ _ _ _ _ _ _ _ (by decide) h, State.fld_setReg_ne _ (by decide), State.fld_setReg_ne _ (by decide),
    State.fld_setReg_ne _ (by decide), State.fld_setFld_apart _ _ _ _ _ _ _ _ _ (by decide) h']
  rfl

theorem State.encPosted_idle : (t.encPosted c x).fld .encStatus c 0 12 1 = 0 := by
  unfold State.encPosted State.bump
  dsimp only
  rw [State.fld_setFld_apart _ _ _ _ _ _ _ _ _ (by decide) (by decide), State.fld_setReg_ne _ (by decide), State.fld_setReg_ne _ (by decide),
    State.fld_setReg_ne _ (by decide), State.fld_setFld_self _ _ _ _ _ _ _ (by decide)]
  rfl

end

theorem State.encPost_within {pos : Nat} {au : List Byte} (hi : j.idr = none) (hs : s.fld .encStatus c 0 9 2 = j.st) (hd : j.degraded = false)
    (ha : j.again = false) (hl : j.limit * 3 ≤ au.length * 4) :
    ∃ p : Bus × Bool, s.encPost c j au none pos = { s with bus := p.1 }.encPosted c (s.encHeld c j au p pos) := by
  have rate : ¬ au.length * 4 < j.limit * 3 := Nat.not_lt.mpr hl
  unfold State.encPost
  simp only [hi, ha, hd, Option.isSome_none, Bool.false_and, Bool.or_false, Bool.not_false, Bool.and_true, Bool.false_eq_true, if_false, rate]
  generalize s.bus.post _ _ _ = p
  refine ⟨p, ?_⟩
  have shown : ({ s with bus := p.1 }.encPosted c (s.encHeld c j au p pos)).fld .encStatus c 0 9 2 = j.st :=
    (State.encPosted_apart _ _ (by decide) (by decide)).trans hs
  exact if_pos shown

theorem State.encPost_leaves {pos : Nat} {au : List Byte} (hi : j.idr = none) (hs : s.fld .encStatus c 0 9 2 = j.st) (hd : j.degraded = false)
    (ha : j.again = false) (hl : j.limit * 3 ≤ au.length * 4) :
    let u := s.encPost c j au none pos
    (u.enc c).job = none ∧ (u.enc c).last = some (j.tag, j.cap, j.alive) ∧ (u.enc c).pics = (s.enc c).pics + 1 ∧
      (u.enc c).pos = pos + au.length ∧ (u.enc c).refB = !(s.enc c).refB ∧
      u.reg .encPictures c 0 = s.reg .encPictures c 0 + 1 ∧ u.fld .encStatus c 0 8 1 = 0 ∧ u.fld .encStatus c 0 12 1 = 0 := by
  obtain ⟨p, hp⟩ := State.encPost_within (pos := pos) hi hs hd ha hl
  dsimp only
  rw [hp, State.encPosted_enc]
  exact ⟨rfl, rfl, rfl, rfl, rfl, State.encPosted_pictures .., State.encPosted_capped .., State.encPosted_idle ..⟩

end

/-! ### Commands and caps (R348, R356) -/

section
variable {s : State} {r host : Nat} {e : FEntry} (hh : s.plan.has 0x15 e.inst = true) (hn : s.isOn 0x15 e.inst = true) (ho : e.object = 0xFFFF)
include hh hn ho

theorem select_taken (hs : (s.plan.source (e.arg 32 1)).isSome = true) (hz : e.zeroFrom 33 36 = true) (hz' : e.zeroFrom 44 56 = true)
    (hr : encRatio ((s.begun r e).fld .encCtl e.inst 0 0 2) (e.arg 40 2) (e.arg 42 2) ((s.begun r e).encW e.inst) ((s.begun r e).encH e.inst) = true) :
    select host r e (s.begun r e) =
      let u := s.begun r e
      let x := u.enc e.inst
      (u.setEnc e.inst { x with sel := some (e.arg 32 1, e.arg 36 2, e.arg 38 2, e.arg 40 2, e.arg 42 2),
                                idr := some (min (x.idr.getD 1) 1) }, some (0, 0)) := by
  unfold select
  dsimp only
  rw [State.checked_on hh hn ho (by rw [State.begun_plan]; simp [hs, hz, hz', hr])]
  rfl

theorem requestIdr_taken (hz : e.zeroFrom 32 56 = true) :
    requestIdr host r e (s.begun r e) =
      let u := s.begun r e
      let x := u.enc e.inst
      (u.setEnc e.inst { x with idr := some (min (x.idr.getD 2) 2) }, some (0, 0)) := by
  unfold requestIdr
  dsimp only
  rw [State.checked_on hh hn ho hz]
  rfl

end

/-- The least cap that a core takes. -/
def State.leastCap (u : State) (c : Nat) (sec : Bool) : Nat := if sec then u.encF c * u.encFloor c else u.encFloor c

section
variable {s : State} {host c : Nat} {sec : Bool} {v : Word} (hr : s.reached host 0x15 c)
include hr

theorem State.encCapWrite_reached :
    s.encCapWrite host c sec v =
      let u := s.regWriteRec host 0x15 c 0 (if sec then 0x28 else 0x24) v
      if (u.fnState 0x15 c ≠ 0 ∧ v.toNat < u.leastCap c sec) ∨ (sec = true ∧ 5000000 < v.toNat) then u.setFld .encStatus c 0 11 1 1
      else u.setReg (if sec then .encSecCap else .encPicCap) c 0 v := by
  refine (State.hostWrite_reached hr ..).trans (if_congr ?_ rfl rfl)
  simp only [Bool.or_eq_true, Bool.and_eq_true, bne_iff_ne, decide_eq_true_eq]
  rfl

end

/-- Settles O39. POC 0 at an IDR, POC advanced by a dropped picture and cause 3 of the IDR after a fetch error are the model's choices
(log 39). -/
theorem encodingTakesEffect : Obligations.EncodingTakesEffect := by
  refine ⟨?instant, ?taken, ?failed, ?finish, ?windows, ?post, ?select, ?request, ?cap⟩
  case instant =>
    intro s c t hl hn ho hr ha hf
    refine ⟨fun hj => ?_, fun why hj hb => ?_, fun hj hb fresh idr hfresh hidr => ?_⟩ <;> rw [exec_encodeInstant, State.fabric_live hl]
    · rw [State.encInstant_busy hn ho hr ha hf hj]
      rfl
    · rw [State.encInstant_blocked hn ho hr ha hf hj hb]
      rfl
    · rw [State.encInstant_begins hn ho hr ha hf hj hb]
      subst hfresh hidr
      rfl
  case taken =>
    intro s u c n b j bs hl hj hi hp hb
    rw [exec_encInputRelease, State.fabric_live hl, State.encInput_taken hj hi hp hb]
  case failed =>
    intro s u c n b j f hl hj hi hp hb hf
    rw [exec_encInputRelease, State.fabric_live hl, State.encInput_failed hj hi hp hb hf]
  case finish =>
    intro s0 s c j ref hl hj ha hr
    have read : (if j.idr.isSome then (s0, Fetch.ok []) else s0.encWindows c (s0.refBase c (s0.enc c).refB)) = (s, .ok ref) := by
      split at hr
      · rename_i h
        rw [if_pos h, hr.1, hr.2]
      · rename_i h
        rw [if_neg h, hr]
    rw [exec_encodePictureEnd, State.fabric_live hl, State.encEnd_windows hj ha read]
    rfl
  case windows =>
    intro s u c j f hl hj ha hi hw hf
    rw [exec_encodePictureEnd, State.fabric_live hl, State.encEnd_failed hj ha hi hw hf]
  case post => exact fun s c pos j au hi hs hd ha hl => State.encPost_leaves hi hs hd ha hl
  case select =>
    intro s r k e h hh hn ho hs hz hz' u x hr
    rw [exec_select]
    exact State.fabric_done h (select_taken hh hn ho hs hz hz' hr)
  case request =>
    intro s r k e h hh hn ho hz
    rw [exec_requestIdr]
    exact State.fabric_done h (requestIdr_taken hh hn ho hz)
  case cap =>
    intro s host c sec v hl hr
    refine ⟨fun h => ?_, fun h h' => ?_⟩ <;> rw [exec_encCapWrite]
    · exact State.fabric_to hl ((State.encCapWrite_reached hr).trans (if_pos h))
    · refine State.fabric_to hl ((State.encCapWrite_reached hr).trans (if_neg ?_))
      rintro (⟨hs, hv⟩ | ⟨hs, hv⟩)
      · exact h.elim hs (Nat.not_le.mpr hv)
      · exact Nat.not_le.mpr hv (h' hs)

end Sys2Proof.Machine

/-! SUPPORT. -/

namespace Sys2Proof.Machine

/-! ### What the shared operations of a panel leave of its record -/

/-- The contacts, the keys pressed and the causes that a panel holds. -/
def PanelSt.held (x : PanelSt) : List Contact × List (Nat × Nat) × List Nat := (x.contacts, x.pressed, x.causes)

section
variable (s : State) (p : Nat)

theorem State.pan_congr {s t : State} (h : t.panels = s.panels) (q : Nat) : t.pan q = s.pan q := congrArg (tabGet PanelSt.init · q) h

theorem State.panShow_panels : (s.panShow p).panels = s.panels := by
  unfold State.panShow
  simp only [State.setReg_panels, State.setFld_panels]

theorem State.panShow_pan (q : Nat) : (s.panShow p).pan q = s.pan q := State.pan_congr (s.panShow_panels p) q

theorem State.emit_pan (typ inst sev : Nat) (d : Payload) (q : Nat) : (s.emit typ inst sev d).pan q = s.pan q := State.pan_congr rfl q

theorem State.bump_pan (r : FReg) (i j n q : Nat) : (s.bump r i j n).pan q = s.pan q := State.pan_congr (s.bump_panels r i j n) q

theorem State.panSuspect_held (add clear : List Nat) : ((s.panSuspect p add clear).pan p).held = (s.pan p).held := by
  unfold State.panSuspect
  dsimp only
  split
  · rfl
  · split
    · rw [State.emit_pan, State.pan_setPan_self]
      rfl
    · rw [State.pan_setPan_self]
      rfl

end

/-! ### The start and the cycles of a panel (R438, R439, R464) -/

section
variable {s : State} {p : Nat}

theorem atOrAfter_self (t : Word) : atOrAfter t t = true := by
  unfold atOrAfter sdiff
  simp

theorem State.panStart_due (h1 : s.panState p = 1) (hs : (s.pan p).started = false) (hp : s.portState (s.panEnt p).port = 2)
    (hl : s.fld .linkState (s.panEnt p).port 0 3 1 = 1) (hd : s.drives = true) :
    s.panStart p =
      let u := s.setPan p { s.pan p with force := s.panSettings p, started := true, chosen := false, item := none }
      let y := (List.range 8).foldl (fun (y : State × PanCyc) f => y.1.panSend p 3 0 f y.1.now 5 y.2) (u, u.panCyc p 0 true false u.panLead)
      let z := y.1.panMeasure p ((y.1.pan p).chain p y.1.panLead ((List.range 8).map fun f => (2, f))).1 y.2
      z.1.panOpen p z.2 := by
  unfold State.panStart
  dsimp only
  rw [if_neg (by rw [h1, hs, hp, hl, hd]; decide)]

theorem State.panCycleStart_due (hc : s.panCycles p = true) (hd : atOrAfter s.panLead (s.panDue p) = true) :
    s.panCycleStart p = s.panCycle p (if atOrAfter (s.panDue p) s.panLead then s.panDue p else s.panLead) :=
  if_neg (by rw [hc, hd]; decide)

theorem State.panDue_first (hn : (s.pan p).nextAt = none) : s.panDue p = s.panLead := by
  unfold State.panDue
  rw [hn]

theorem State.panDue_next {t0 t1 : Word} (hn : (s.pan p).nextAt = some t0) (he : (s.pan p).endAt = some t1) :
    s.panDue p = if atOrAfter t1 t0 then t1 else t0 := by
  unfold State.panDue
  rw [hn, he]

theorem State.panTestDue_due (h2 : 2 ≤ s.panState p)
    (ht : (s.pan p).testTick + (if (s.pan p).causes.contains 5 then 10 else (s.pan p).f 8 0 16) * tickS ≤ s.ticks) :
    s.panTestDue p = s.setPan p { s.pan p with testDue := true } := if_pos ⟨h2, ht⟩

/-! ### Contacts past MAX_CONTACT_S (R452) -/

/-- Nodes that become SUSPECT one after the other, each with its event, leave contacts, keys and causes. -/
theorem State.suspects_held {α : Type} (l : List α) (nodes : α → List Nat) (d : α → Payload) (t : State) :
    ((forEach l (fun a t => (t.panSuspect p (nodes a) []).emit 0x2103 p 1 (d a)) t).pan p).held = (t.pan p).held :=
  forEach_frame (f := fun a t => (t.panSuspect p (nodes a) []).emit 0x2103 p 1 (d a)) (g := fun t => (t.pan p).held)
    (fun a t => (congrArg PanelSt.held (State.emit_pan ..)).trans (t.panSuspect_held p (nodes a) [])) _ _

theorem State.panExpire_contacts :
    ((s.panExpire p).pan p).contacts = (s.pan p).contacts.filter fun c => !decide (c.since + (s.pan p).f 1 16 11 * tickS < s.ticks) := by
  unfold State.panExpire
  extract_lets e x old cs ks s1 s2 s3
  have keys : (s3.pan p).held = (s2.pan p).held := State.suspects_held ..
  have contacts : (s2.pan p).held = (s1.pan p).held := State.suspects_held ..
  have set : s1.pan p = _ := State.pan_setPan_self ..
  have left : (s3.pan p).contacts = (s1.pan p).contacts := congrArg Prod.fst (keys.trans contacts)
  rw [State.panShow_pan, State.bump_pan, left, set]

/-- Every contact that is left is within MAX_CONTACT_S. -/
theorem State.panExpire_within {c : Contact} (hc : c ∈ ((s.panExpire p).pan p).contacts) :
    c ∈ (s.pan p).contacts ∧ s.ticks ≤ c.since + (s.pan p).f 1 16 11 * tickS := by
  rw [State.panExpire_contacts] at hc
  simpa using hc

end

/-! ### The commands of a panel where they are taken (R446, R454, R457, R470) -/

section
variable {s u : State} {r host : Nat} {e : FEntry} (hh : s.plan.has 0x21 e.inst = true) (hn : s.isOn 0x21 e.inst = true) (ho : e.object = 0xFFFF)
include hh hn ho

theorem keysLoad_taken {d : List Byte} (hz : e.zeroFrom 41 56 = true) (ha : e.arg 32 8 % 64 = 0)
    (hm : byteAt e.data 40 ≤ ((s.begun r e).panEnt e.inst).maxKeys)
    (hl : (s.begun r e).load 149 (e.arg 32 8) (8 * byteAt e.data 40) = (u, .ok d))
    (hk : keysOk (u.panEnt e.inst) d (byteAt e.data 40) = true) :
    keysLoad host r e (s.begun r e) = (u.setPan e.inst { u.pan e.inst with
      keysNext := some ((u.pan e.inst).cycNo + 1, keyTable d (byteAt e.data 40)) }, some (0, 0)) := by
  unfold keysLoad
  dsimp only
  rw [State.checked_on hh hn ho (by simp [hz, ha]), if_neg (Nat.not_lt.mpr hm), hl]
  exact if_neg (by rw [hk]; decide)

theorem rebaseline_goes (hz : e.zeroFrom 32 56 = true) (hr : ((s.begun r e).pan e.inst).rebase = none) :
    rebaseline host r e (s.begun r e) =
      let u := (s.begun r e).panRelease e.inst 4
      let x := u.pan e.inst
      ((u.setPan e.inst { x with
        rebase := some (r, e.k),
        rebaseFrom := (x.cycs.filter fun c => c.got.any fun g => g.1 == 0).foldl (fun n c => max n (c.no + 1)) 0 }).panShow e.inst, none) := by
  unfold rebaseline
  dsimp only
  rw [State.checked_on hh hn ho hz]
  exact if_neg (by rw [hr]; decide)

theorem selfTest_goes (hz : e.zeroFrom 32 56 = true) (ht : ((s.begun r e).pan e.inst).testCmd = none) :
    selfTest host r e (s.begun r e) =
      ((s.begun r e).setPan e.inst { (s.begun r e).pan e.inst with testCmd := some (r, e.k) }, none) := by
  unfold selfTest
  dsimp only
  rw [State.checked_on hh hn ho hz]
  exact if_neg (by rw [ht]; decide)

theorem rawRead_writes (hz : e.zeroFrom 40 56 = true) (hr : ((s.begun r e).pan e.inst).raw.isEmpty = false)
    (hs : (s.begun r e).store 149 (e.arg 32 8) ((((s.begun r e).pan e.inst).raw.flatMap fun n => le 2 n) ++
      ((s.begun r e).pan e.inst).deltas.flatMap fun d => le 2 (code 16 d)) = (u, true)) :
    rawRead host r e (s.begun r e) = (u, some (0, 0)) := by
  unfold rawRead
  dsimp only
  rw [State.checked_on hh hn ho hz, if_neg (by rw [hr]; decide), hs]
  rfl

end

/-- Settles O40. A cycle that starts up to 200 µs ahead (log 50) and a key table that applies from the first cycle started after it (log 49)
are the model's choices. -/
theorem touchCyclesTakeEffect : Obligations.TouchCyclesTakeEffect := by
  refine ⟨?start, ?cycle, fun x p start f g => rfl, ?testDue, ?expired, ?keys, ?rebaseline, ?selfTest, ?rawRead⟩
  case start =>
    intro s p hl h1 hs hp hk hd
    rw [exec_panelStart, State.fabric_live hl, State.panStart_due h1 hs hp hk hd]
  case cycle =>
    intro s p hl hc
    refine ⟨fun hn => ?_, fun t0 t1 hn he => ?_⟩
    · rw [exec_touchCycleStart]
      have now := atOrAfter_self s.panLead
      refine State.fabric_to hl ((State.panCycleStart_due hc ?_).trans ?_) <;> rw [State.panDue_first hn]
      · exact now
      · rw [if_pos now]
    · intro due hd
      rw [exec_touchCycleStart]
      have next : s.panDue p = due := State.panDue_next hn he
      refine State.fabric_to hl ((State.panCycleStart_due hc ?_).trans ?_) <;> rw [next]
      exact hd
  case testDue =>
    intro s p hl h2 ht
    rw [exec_selfTestDue]
    exact State.fabric_to hl (State.panTestDue_due h2 ht)
  case expired =>
    intro s p hl h2
    rw [exec_contactExpired]
    exact ⟨State.fabric_to hl (if_pos h2), fun c hc => State.panExpire_within hc⟩
  case keys =>
    intro s u r k e d h hh hn ho hz ha hm hl hk
    rw [exec_keysLoad]
    exact State.fabric_done h (keysLoad_taken hh hn ho hz ha hm hl hk)
  case rebaseline =>
    intro s r k e h hh hn ho hz hr
    rw [exec_rebaseline]
    exact State.fabric_goes h (rebaseline_goes hh hn ho hz hr)
  case selfTest =>
    intro s r k e h hh hn ho hz ht
    rw [exec_selfTest]
    exact State.fabric_goes h (selfTest_goes hh hn ho hz ht)
  case rawRead =>
    intro s u r k e h hh hn ho hz x hr hs
    rw [exec_rawRead]
    exact State.fabric_done h (rawRead_writes hh hn ho hz hr hs)

end Sys2Proof.Machine

/-! SUPPORT. -/

namespace Sys2Proof.Machine

/-! ### A TOUCH_FRAME packet and its segments (R421) -/

section
variable {s : State} {p port : Nat} {pk : Pkt}

/-- A panel's packet is one of a new item, or of the item in reception. -/
theorem State.panRx_new {w u v : State} {sync ok good : Bool} {raw : List Byte} {e : PanelEnt}
    (he : (u.plan.panels.find? fun e => e.port == port) = some e) (hr : w.receive port sync raw = (u, .good pk)) (ht : pk.typ = 0x0C)
    (h0 : u.panState e.panel ≠ 0) (hs : (u.pan e.panel).started = true) (hi : (u.pan e.panel).item = none)
    (ha : u.aliveCheck port 2 pk.alive = (v, good)) :
    w.panRx port sync raw ok =
      if good then v.panSegment e.panel port pk { alive := pk.alive, segs := [], bad := false, ended := false } ok
      else v.panDoubt e.panel 0 (leAt pk.payload 0 2) pk.stamp 4 := by
  have taken : ¬ (pk.typ ≠ 0x0C ∨ u.panState e.panel = 0 ∨ (!(u.pan e.panel).started) = true) := by simp [ht, h0, hs]
  unfold State.panRx
  simp only [hr, he]
  rw [if_neg taken]
  simp only [hi, if_true, ha]
  cases good <;> rfl

theorem State.panRx_same {w u : State} {sync ok : Bool} {raw : List Byte} {e : PanelEnt} {i : PanItem}
    (he : (u.plan.panels.find? fun e => e.port == port) = some e) (hr : w.receive port sync raw = (u, .good pk)) (ht : pk.typ = 0x0C)
    (h0 : u.panState e.panel ≠ 0) (hs : (u.pan e.panel).started = true) (hi : (u.pan e.panel).item = some i) (ha : i.alive = pk.alive)
    (hd : i.ended = false) : w.panRx port sync raw ok = u.panSegment e.panel port pk i ok := by
  have taken : ¬ (pk.typ ≠ 0x0C ∨ u.panState e.panel = 0 ∨ (!(u.pan e.panel).started) = true) := by simp [ht, h0, hs]
  unfold State.panRx
  simp only [hr, he]
  rw [if_neg taken]
  simp [hi, ha, hd]

/-- A panel's record with another item in reception, whole. -/
def State.panWhole (s : State) (p : Nat) (i it : PanItem) : State :=
  let s := s.setPan p { s.pan p with item := some i }
  s.setPan p { s.pan p with item := some { it with ended := true } }

theorem State.panWhole_leaves (i it : PanItem) :
    ((s.panWhole p i it).pan p).item = some { it with ended := true } ∧ ((s.panWhole p i it).pan p).cycs = (s.pan p).cycs ∧
      ((s.panWhole p i it).pan p).raw = (s.pan p).raw ∧ (∀ q, q ≠ p → (s.panWhole p i it).pan q = s.pan q) ∧
      (s.panWhole p i it).fregs = s.fregs ∧ (s.panWhole p i it).bus = s.bus := by
  have set : (s.panWhole p i it).pan p = { s.pan p with item := some { it with ended := true } } := by
    unfold State.panWhole
    dsimp only
    rw [State.pan_setPan_self, State.pan_setPan_self]
  refine ⟨by rw [set], by rw [set], by rw [set], fun q hq => ?_, rfl, rfl⟩
  unfold State.panWhole
  dsimp only
  rw [State.pan_setPan, if_neg hq.symm, State.pan_setPan, if_neg hq.symm]

/-- The item with the values of one more segment. -/
def PanItem.with (i : PanItem) (pk : Pkt) : PanItem :=
  { i with segs := i.segs ++ [(leAt pk.payload 8 2, byteAt pk.payload 4,
      (List.range (leAt pk.payload 10 2)).map fun i => leAt pk.payload (16 + 2 * i) 2)] }

theorem State.panSegment_last {i : PanItem} (hb : i.bad = false)
    (hc : leAt pk.payload (pk.payload.length - 2) 2 = touch16 (pk.payload.take (pk.payload.length - 2)))
    (hn : pk.payload.length = 18 + 2 * leAt pk.payload 10 2) (hm : leAt pk.payload 10 2 ≤ 2032)
    (hd : (i.segs.any fun g => g.2.1 == byteAt pk.payload 4) = false) (hw : max 1 (byteAt pk.payload 5) ≤ (i.with pk).segs.length) (ok : Bool) :
    s.panSegment p port pk i ok =
      if ok then (s.panWhole p i (i.with pk)).panFrame p pk (i.with pk).values
      else (s.panWhole p i (i.with pk)).panDoubt p 5 (leAt pk.payload 0 2) pk.stamp 4 := by
  have whole : decide (max 1 (byteAt pk.payload 5) ≤ (i.with pk).segs.length) = true := decide_eq_true hw
  unfold PanItem.with at whole
  unfold State.panSegment
  dsimp only at whole ⊢
  rw [if_neg (by rw [hb]; decide), if_neg (by omega), if_neg (by rw [hd]; decide), whole]
  cases ok <;> rfl

/-! ### A frame that is whole (R421, R463) -/

theorem State.panFrame_stray {v : List Nat}
    (h : ((s.pan p).cycs.find? fun c => c.want.any fun w => w == (leAt pk.payload 0 2, byteAt pk.payload 2, byteAt pk.payload 3)) = none) :
    s.panFrame p pk v = s.panDoubt p 3 (leAt pk.payload 0 2) pk.stamp 4 := by
  unfold State.panFrame
  dsimp only
  rw [h]

/-- A frame stamped after the last one. -/
theorem State.lastFrame_before (hf : ∀ t, (s.pan p).lastFrame = some t → atOrAfter t pk.stamp = false) :
    ¬ (((s.pan p).lastFrame.map fun t => atOrAfter t pk.stamp).getD false) = true := by
  cases hl : (s.pan p).lastFrame with
  | none => simp
  | some t => simp [hf t hl]

section
variable {v : List Nat} {c : PanCyc}
  (h : ((s.pan p).cycs.find? fun c => c.want.any fun w => w == (leAt pk.payload 0 2, byteAt pk.payload 2, byteAt pk.payload 3)) = some c)
  (hk : byteAt pk.payload 2 < 5) (hcols : byteAt pk.payload 6 = (s.panEnt p).cols) (hrows : byteAt pk.payload 7 = (s.panEnt p).rows)
  (hv : v.length = (s.panEnt p).count (byteAt pk.payload 2))
include h hk hcols hrows hv

/-- The frame with its cycle. -/
def PanCyc.answered (c : PanCyc) (pk : Pkt) (v : List Nat) : PanCyc :=
  { c with want := c.want.filter fun w => w.1 != leAt pk.payload 0 2,
           got := c.got ++ [(byteAt pk.payload 2, byteAt pk.payload 3, leAt pk.payload 0 2, pk.stamp, v)] }

/-- What a frame does whose command, size and values fit: it is looked at in time, and then goes to its cycle. -/
theorem State.panFrame_fits :
    s.panFrame p pk v =
      if 1000000 < sdiff pk.stamp s.now then s.panDoubt p 1 (leAt pk.payload 0 2) pk.stamp 4
      else if ((s.pan p).lastFrame.map fun t => atOrAfter t pk.stamp).getD false then s.panDoubt p 2 (leAt pk.payload 0 2) pk.stamp 4
      else
        let c' := c.answered pk v
        let ended := c'.want.isEmpty
        let u := s.setPan p { s.pan p with
          lastFrame := some pk.stamp, measure := assocSet (s.pan p).measure (byteAt pk.payload 2) (leAt pk.payload 12 4),
          cycs := if ended then (s.pan p).cycs.filter fun d => d.no != c.no else (s.pan p).cycs.map fun d => if d.no = c.no then c' else d }
        if !ended then u
        else if c.first then (if c.test then u.panStartTested p c' else u.panStarted p c')
        else u.panProcess p c' := by
  have size : (byteAt pk.payload 6 == (s.panEnt p).cols && byteAt pk.payload 7 == (s.panEnt p).rows) = true := by simp [hcols, hrows]
  have notStored : ¬ byteAt pk.payload 2 = 5 := by omega
  unfold State.panFrame
  simp only [h, size, hv, notStored, hk, ne_eq, not_true_eq_false, not_false_eq_true, Bool.not_true, Bool.false_eq_true, and_false, or_false,
    if_true, if_false]
  cases (s.pan p).lastFrame <;> rfl

theorem State.panFrame_late (ht : 1000000 < sdiff pk.stamp s.now) : s.panFrame p pk v = s.panDoubt p 1 (leAt pk.payload 0 2) pk.stamp 4 := by
  rw [State.panFrame_fits h hk hcols hrows hv, if_pos ht]

theorem State.panFrame_stale {t : Word} (ht : sdiff pk.stamp s.now ≤ 1000000) (hf : (s.pan p).lastFrame = some t) (ha : atOrAfter t pk.stamp = true) :
    s.panFrame p pk v = s.panDoubt p 2 (leAt pk.payload 0 2) pk.stamp 4 := by
  rw [State.panFrame_fits h hk hcols hrows hv, if_neg (Int.not_lt.mpr ht), hf]
  exact if_pos ha

section
variable (ht : sdiff pk.stamp s.now ≤ 1000000) (hf : ∀ t, (s.pan p).lastFrame = some t → atOrAfter t pk.stamp = false)
include ht hf

theorem State.panFrame_more (he : (c.answered pk v).want.isEmpty = false) :
    s.panFrame p pk v = s.setPan p { s.pan p with
      lastFrame := some pk.stamp, measure := assocSet (s.pan p).measure (byteAt pk.payload 2) (leAt pk.payload 12 4),
      cycs := (s.pan p).cycs.map fun d => if d.no = c.no then c.answered pk v else d } := by
  rw [State.panFrame_fits h hk hcols hrows hv, if_neg (Int.not_lt.mpr ht), if_neg (State.lastFrame_before hf)]
  dsimp only
  rw [he]
  rfl

theorem State.panFrame_last (he : (c.answered pk v).want.isEmpty = true) (h1 : c.first = false) :
    s.panFrame p pk v = (s.setPan p { s.pan p with
      lastFrame := some pk.stamp, measure := assocSet (s.pan p).measure (byteAt pk.payload 2) (leAt pk.payload 12 4),
      cycs := (s.pan p).cycs.filter fun d => d.no != c.no }).panProcess p (c.answered pk v) := by
  rw [State.panFrame_fits h hk hcols hrows hv, if_neg (Int.not_lt.mpr ht), if_neg (State.lastFrame_before hf)]
  dsimp only
  rw [he, h1]
  rfl

end
end
end

/-! ### Doubt releases every contact and key (R463) -/

section
variable (s : State) (p : Nat)

theorem State.panRelease_held (reason : Nat) : ((s.panRelease p reason).pan p).held = ([], [], (s.pan p).causes) := by
  unfold State.panRelease
  extract_lets x e old s1 y
  have set : ((s1.setPan p { y with
      contacts := [], ups := y.ups ++ y.contacts.map (fun c => c.slot 3 reason),
      keysChanged := y.keysChanged || !y.pressed.isEmpty, pressed := [] }).pan p).held = ([], [], y.causes) := by
    rw [State.pan_setPan_self]
    rfl
  have causes : y.causes = x.causes := congrArg (fun h => h.2.2) (s.panSuspect_held p _ _)
  exact set.trans (by rw [causes])

theorem State.panPost_held (st cause : Nat) (stamp : Option Word) (h : (s.pan p).contacts = []) :
    ((s.panPost p st cause stamp).pan p).held = (s.pan p).held := by
  unfold State.panPost
  dsimp only
  split
  · rw [State.emit_pan, State.pan_setPan_self]
    rfl
  · rw [State.pan_congr (State.setReg_panels ..), State.bump_pan, State.pan_setPan_self]
    simp only [PanelSt.held, h, List.map_nil]

theorem State.giveUp_frame (cap inst kept given code : Nat) :
    (s.giveUp cap inst kept given code none).panels = s.panels ∧ (s.giveUp cap inst kept given code none).fregs = s.fregs := by
  unfold State.giveUp
  dsimp only
  rw [State.journal_eq]
  exact ⟨rfl, rfl⟩

/-- A panel that has released everything for a cause, before its report. -/
def State.panFallen (s : State) (p cause : Nat) : State :=
  let s := s.setPan p { s.pan p with causes := addSet (s.pan p).causes cause }
  let s := s.panRelease p (if cause = 3 then 2 else 3)
  let s := (s.setFld .touchStatus p 0 0 2 3).panShow p
  (s.emit 0x2101 p 1 (pay [2, 3, s.fld .touchStatus p 0 2 3])).setPan p { s.pan p with repTick := s.ticks }

theorem PanelSt.held_repTick (x : PanelSt) (t : Nat) : { x with repTick := t }.held = x.held := rfl

theorem State.setFld_pan (r : FReg) (i j lo n v q : Nat) : (s.setFld r i j lo n v).pan q = s.pan q :=
  State.pan_congr (State.setFld_panels ..) q

theorem State.panFallen_held (cause : Nat) : ((s.panFallen p cause).pan p).held = ([], [], addSet (s.pan p).causes cause) := by
  unfold State.panFallen
  dsimp only
  rw [State.pan_setPan_self, PanelSt.held_repTick, State.panShow_pan, State.setFld_pan, State.panRelease_held, State.pan_setPan_self]

variable {s p}

/-- From AVAILABLE a cause of UNAVAILABLE releases everything, and stands. -/
theorem State.panFall_held (cause : Nat) (stamp : Option Word) (h2 : s.panState p = 2) :
    ((s.panFall p cause stamp).pan p).held = ([], [], addSet (s.pan p).causes cause) := by
  have available : (s.setPan p { s.pan p with causes := addSet (s.pan p).causes cause }).panState p = 2 := h2
  have fallen := s.panFallen_held p cause
  have posted : ∃ low, s.panFall p cause stamp = ((s.panFallen p cause).panPost p 1 low stamp).panShow p := by
    unfold State.panFall State.panFallen
    dsimp only
    rw [if_pos available]
    exact ⟨_, rfl⟩
  obtain ⟨low, hp⟩ := posted
  rw [hp, State.panShow_pan, State.panPost_held _ _ _ _ _ (congrArg Prod.fst fallen), fallen]

theorem State.panDoubt_releases (h2 : s.panState p = 2) (cond id : Nat) (stamp : Word) :
    ((s.panDoubt p cond id stamp 4).pan p).held = ([], [], addSet (s.pan p).causes 4) := by
  obtain ⟨panels, fregs⟩ := s.giveUp_frame 0x21 p 2 6 0x210A
  obtain ⟨w, hw⟩ : ∃ w, w = ((s.giveUp 0x21 p 2 6 0x210A none).bump .touchDoubt p 0 1).emit 0x210A p 2 (pay [cond, id, stamp.toNat]) := ⟨_, rfl⟩
  have noted : w.pan p = s.pan p := by rw [hw, State.emit_pan, State.bump_pan, State.pan_congr panels]
  have available : w.panState p = 2 := by
    unfold State.panState
    rw [hw, State.fld_congr (State.emit_fregs ..), State.bump, State.fld_setReg_ne _ (by decide), State.fld_congr fregs]
    exact h2
  have doubted : (w.setPan p { w.pan p with doubtTick := some w.ticks }).panState p = 2 := available
  unfold State.panDoubt State.panUnavail
  dsimp only
  rw [if_pos rfl, ← hw, State.panFall_held 4 none doubted, State.pan_setPan_self, noted]

end

theorem mem_addSet (l : List Nat) (a : Nat) : a ∈ addSet l a := by
  unfold addSet
  split
  · rename_i h
    simpa using h
  · simp

/-! ### Age, repeats, adaptation and the save (R450, R453, R461, R464) -/

section
variable {s : State} {p : Nat}

theorem State.panAge_due {t : Word} (h2 : s.panState p = 2) (hl : (s.pan p).lastStamp = some t)
    (ht : ((s.pan p).f 1 0 10 : Int) * 1000000 < sdiff s.now t) : s.panAge p = s.panStale p t false := by
  unfold State.panAge
  dsimp only
  rw [hl]
  exact if_pos ⟨h2, ht⟩

theorem State.panRepeat_due (h3 : s.panState p = 3) (ht : (s.pan p).repTick + tickS ≤ s.ticks) :
    s.panRepeat p = (s.setPan p { s.pan p with repTick := s.ticks }).panPost p 1 (s.fld .touchStatus p 0 2 3) none := if_pos ⟨h3, ht⟩

theorem State.panSaveDue_due (h2 : s.panState p = 2) (ht : (s.pan p).saveTick + (s.pan p).f 6 16 16 * tickS ≤ s.ticks)
    (hq : (s.pan p).quietTick + tickS ≤ s.ticks) : s.panSaveDue p = s.panSave p := if_pos ⟨h2, ht, hq⟩

/-- What a panel holds and adaptation leaves, with the tick of the last one. -/
def PanelSt.adapted (x : PanelSt) : Nat × List Contact × List (Nat × Nat) × List Nat := (x.adaptTick, x.contacts, x.pressed, x.suspect)

theorem State.panSetFreq_pan (u : State) (f : Nat) (v : PanFreq) :
    (u.panSetFreq p f v).pan p = { u.pan p with freqs := tabSet PanFreq.init (u.pan p).freqs f v } := by
  unfold State.panSetFreq
  dsimp only
  rw [State.pan_congr (State.setFld_panels ..), State.pan_setPan_self]

theorem State.panSetFreq_other {q : Nat} (hq : q ≠ p) (u : State) (f : Nat) (v : PanFreq) : (u.panSetFreq p f v).pan q = u.pan q := by
  unfold State.panSetFreq
  dsimp only
  rw [State.pan_congr (State.setFld_panels ..), State.pan_setPan, if_neg hq.symm]

theorem State.panRecord_pan (u : State) (what f src : Nat) (stamp : Word) (up down check q : Nat) :
    (u.panRecord p what f src stamp up down check).pan q = u.pan q := by
  unfold State.panRecord
  rw [State.journal_eq]
  rfl

/-- The panel with its adaptation timer started again. -/
def State.adaptTimed (s : State) (p : Nat) : State := s.setPan p { s.pan p with adaptTick := s.ticks }

/-- Adaptation that is due starts its timer again and, where the last cycle left a frame to adapt to, moves the baseline of its frequency. -/
theorem State.panAdapt_due (h2 : 2 ≤ s.panState p) (ht : (s.pan p).adaptTick + (s.pan p).f 6 0 16 * tickMs ≤ s.ticks) :
    ((s.pan p).last = none → s.panAdapt p = s.adaptTimed p) ∧
    (∀ l, (s.pan p).last = some l → ∃ (f src : Nat) (stamp : Word) (up down check : Nat) (v : PanFreq),
      s.panAdapt p = ((s.adaptTimed p).panRecord p 4 f src stamp up down check).panSetFreq p f v) := by
  have due : ¬ (s.panState p < 2 ∨ s.ticks < (s.pan p).adaptTick + (s.pan p).f 6 0 16 * tickMs) := by omega
  unfold State.panAdapt
  dsimp only
  rw [if_neg due]
  split
  · rename_i none
    exact ⟨fun _ => rfl, fun l hl => absurd (none.symm.trans hl) (by simp)⟩
  · rename_i f stamp raw sraw some
    exact ⟨fun hl => absurd (some.symm.trans hl) (by simp), fun l _ => ⟨f, _, stamp, _, _, _, _, rfl⟩⟩

theorem State.panAdapt_leaves (h2 : 2 ≤ s.panState p) (ht : (s.pan p).adaptTick + (s.pan p).f 6 0 16 * tickMs ≤ s.ticks) :
    ((s.panAdapt p).pan p).adapted = { s.pan p with adaptTick := s.ticks }.adapted ∧ (∀ q, q ≠ p → (s.panAdapt p).pan q = s.pan q) ∧
      ((s.pan p).last = none → ((s.panAdapt p).pan p).freqs = (s.pan p).freqs) := by
  obtain ⟨quiet, moves⟩ := State.panAdapt_due h2 ht
  have timed : (s.adaptTimed p).pan p = { s.pan p with adaptTick := s.ticks } := State.pan_setPan_self ..
  have others (q : Nat) (hq : q ≠ p) : (s.adaptTimed p).pan q = s.pan q := (State.pan_setPan ..).trans (if_neg hq.symm)
  cases hl : (s.pan p).last with
  | none =>
    rw [quiet hl, timed]
    exact ⟨rfl, others, fun _ => rfl⟩
  | some l =>
    obtain ⟨f, src, stamp, up, down, check, v, he⟩ := moves l hl
    refine ⟨?_, fun q hq => ?_, fun h => absurd h (by simp)⟩
    · rw [he, State.panSetFreq_pan, State.panRecord_pan, timed]
      rfl
    · rw [he, State.panSetFreq_other hq, State.panRecord_pan, others q hq]

end

/-- Settles O41. The result of the engine's access as an operand and processing once every frame is in (log 50), and the corners of stale and
repeated reports (log 51), are the model's choices. -/
theorem touchFramesTakeEffect : Obligations.TouchFramesTakeEffect := by
  refine ⟨?packet, ?segment, ?frame, ?doubt, ?age, ?again, ?adapt, ?save⟩
  case packet =>
    intro s w u v port skew lines sync raw ok e pk hl ha he hr ht h0 hs
    refine ⟨fun hi hv => ?_, fun hi hv => ?_, fun i hi hal hd => ?_⟩ <;>
      rw [exec_touchFrameRx, State.fabric_live hl, State.arrives_some _ ha]
    · rw [State.panRx_new he hr ht h0 hs hi hv, if_pos rfl]
    · rw [State.panRx_new he hr ht h0 hs hi hv, if_neg (by decide)]
    · rw [State.panRx_same he hr ht h0 hs hi hal hd]
  case segment =>
    intro s p port pk i hb n nodes hc hn hm hd it hw
    obtain ⟨item, cycs, raw, others, fregs, bus⟩ := s.panWhole_leaves (p := p) i (i.with pk)
    exact ⟨s.panWhole p i (i.with pk), item, cycs, raw, others, fregs, bus, State.panSegment_last hb hc hn hm hd hw true,
      State.panSegment_last hb hc hn hm hd hw false⟩
  case frame =>
    intro s p pk v key
    refine ⟨fun h => State.panFrame_stray h, fun c h hk hcols hrows hv => ⟨fun ht => ?_, fun t ht hf ha => ?_, fun ht hf => ⟨fun he => ?_, fun he h1 => ?_⟩⟩⟩
    · exact State.panFrame_late h hk hcols hrows hv ht
    · exact State.panFrame_stale h hk hcols hrows hv ht hf ha
    · exact State.panFrame_more h hk hcols hrows hv ht hf he
    · exact State.panFrame_last h hk hcols hrows hv ht hf he h1
  case doubt =>
    intro s p cond id stamp h2
    have held := State.panDoubt_releases h2 cond id stamp
    refine ⟨congrArg Prod.fst held, congrArg (fun h => h.2.1) held, ?_⟩
    rw [show (((s.panDoubt p cond id stamp 4).pan p).causes) = addSet (s.pan p).causes 4 from congrArg (fun h => h.2.2) held]
    exact mem_addSet ..
  case age =>
    intro s p t hl h2 hs ht
    rw [exec_touchAgeTimeout]
    exact State.fabric_to hl (State.panAge_due h2 hs ht)
  case again =>
    intro s p hl h3 ht
    rw [exec_unavailableRepeat]
    exact State.fabric_to hl (State.panRepeat_due h3 ht)
  case adapt =>
    intro s p hl h2 ht
    obtain ⟨adapted, others, freqs⟩ := State.panAdapt_leaves h2 ht
    refine ⟨s.panAdapt p, ?_, congrArg Prod.fst adapted, congrArg (fun x => x.2.1) adapted, congrArg (fun x => x.2.2.1) adapted,
      congrArg (fun x => x.2.2.2) adapted, others, freqs⟩
    rw [exec_baselineAdapt, State.fabric_live hl]
  case save =>
    intro s p hl h2 ht hq
    rw [exec_baselineSaved]
    exact State.fabric_to hl (State.panSaveDue_due h2 ht hq)

end Sys2Proof.Machine

/-! SUPPORT. What leaves the elapsed ticks as they are: every operation that a re-run performs (spec/15 R472, spec/16 R526, log 1).
Only an idle step counts a tick. The laws stand in the order of the model's definitions; `h.f` says that `f` leaves the ticks. -/

namespace Sys2Proof.Machine

/-- From `a` to `b` no tick elapses. -/
structure BusStill (a b : Bus) : Prop where
  ticks : b.ticks = a.ticks

/-- From `s` to `t` no tick elapses. -/
structure Still (s t : State) : Prop where
  bus : BusStill s.bus t.bus

/-! ### Rules of the relation -/

section
variable {α β : Type} {a b c : Bus} {s t u : State}

theorem BusStill.refl (a : Bus) : BusStill a a := ⟨rfl⟩

theorem BusStill.trans (h : BusStill a b) (g : BusStill b c) : BusStill a c := ⟨g.ticks.trans h.ticks⟩

theorem BusStill.upd (h : BusStill a b) (ht : c.ticks = b.ticks) : BusStill a c := h.trans ⟨ht⟩

/-- What delivery leaves of the bus (`BusOnly`) holds the ticks. -/
theorem BusStill.only (h : BusStill a b) (g : BusOnly b c) : BusStill a c := h.upd g.ticks

theorem Still.refl (s : State) : Still s s := ⟨.refl _⟩

theorem Still.updBus (h : Still s t) (hb : BusStill t.bus u.bus) : Still s u := ⟨h.bus.trans hb⟩

theorem Still.upd (h : Still s t) (hb : u.bus = t.bus) : Still s u := h.updBus (hb ▸ .refl _)

/-- A bus built anew from its fields, with the ticks of one before it. -/
theorem BusStill.mk' {time frac regs pairLo froz mem wq mx acc hosts rings fns jbuf jlost jlostFirst jgap outbox wire free}
    (h : BusStill a b) :
    BusStill a (Bus.mk time frac b.ticks regs pairLo froz mem wq mx acc hosts rings fns jbuf jlost jlostFirst jgap outbox wire free) :=
  h.upd rfl

/-- A state built anew from its fields, with the bus of one before it. -/
theorem Still.mk' {powered fabricUp plan fregs lanes links tim srcs decs cores coreBad coreOut heads wbs encs panels jrn tnd wdn flash otp
    pending} (h : Still s t) :
    Still s (State.mk powered fabricUp t.bus plan fregs lanes links tim srcs decs cores coreBad coreOut heads wbs encs panels jrn tnd wdn
      flash otp pending) :=
  h.upd rfl

/-- What delivery and following leave of the state (`PanelOnly`) holds the ticks. -/
theorem Still.panel (h : Still s t) (g : PanelOnly t u) : Still s u := h.updBus ⟨g.bus.ticks⟩

section
variable {p : Prop} [Decidable p]

theorem BusStill.ite (hb : BusStill a b) (hc : BusStill a c) : BusStill a (if p then b else c) := by split <;> assumption

theorem Still.ite (ht : Still s t) (hu : Still s u) : Still s (if p then t else u) := by split <;> assumption

theorem Still.iteFst {x y : State × α} (hx : Still s x.1) (hy : Still s y.1) : Still s (if p then x else y).1 := by split <;> assumption

end

/-- The state of a pair that a definition takes apart. -/
theorem Still.ofPair {x : State × α} {y : α} (hx : Still s x.1) (h : x = (t, y)) : Still s t := by
  rw [h] at hx
  exact hx

theorem BusStill.foldl {xs : List α} {f : Bus → α → Bus} (hb : BusStill a b) (hf : ∀ b x, BusStill a b → BusStill a (f b x)) :
    BusStill a (xs.foldl f b) := by
  induction xs generalizing b with
  | nil => exact hb
  | cons x xs ih => exact ih (hf b x hb)

theorem Still.foldlFst {xs : List α} {f : State × β → α → State × β} {x : State × β} (hx : Still s x.1)
    (hf : ∀ u x, Still s u.1 → Still s (f u x).1) : Still s (xs.foldl f x).1 := by
  induction xs generalizing x with
  | nil => exact hx
  | cons y ys ih => exact ih (hf x y hx)

theorem Still.foldl {xs : List α} {f : State → α → State} (ht : Still s t) (hf : ∀ u x, Still s u → Still s (f u x)) :
    Still s (xs.foldl f t) := by
  induction xs generalizing t with
  | nil => exact ht
  | cons x xs ih => exact ih (hf t x ht)

theorem Still.forEach {xs : List α} {f : α → State → State} (ht : Still s t) (hf : ∀ x u, Still s u → Still s (f x u)) :
    Still s (Machine.forEach xs f t) :=
  .foldl ht fun u x => hf x u

end

section
variable {z s : State} {y b : Bus}

/-! ### The bus -/

theorem BusStill.setReg {r : BReg} {i j : Nat} {v : Word} (h : BusStill y b) : BusStill y (b.setReg r i j v) := h.upd rfl

theorem BusStill.setFld {r : BReg} {i j lo n v : Nat} (h : BusStill y b) : BusStill y (b.setFld r i j lo n v) := h.setReg

theorem BusStill.bump {r : BReg} {i j n : Nat} (h : BusStill y b) : BusStill y (b.bump r i j n) := h.setReg

theorem BusStill.setPair {lo hi : BReg} {i j v : Nat} (h : BusStill y b) : BusStill y (b.setPair lo hi i j v) := h.setReg.setReg

theorem BusStill.send {o : Out} (h : BusStill y b) : BusStill y (b.send o) := h.upd rfl

theorem BusStill.emitAt {time : Word} {frame : Option Word} {typ inst sev : Nat} {pay : Payload} (h : BusStill y b) :
    BusStill y (b.emitAt time frame typ inst sev pay) :=
  h.only (Bus.emitAt_only (.refl b))

theorem BusStill.emit {typ inst sev : Nat} {pay : Payload} (h : BusStill y b) : BusStill y (b.emit typ inst sev pay) :=
  h.only (Bus.emit_only (.refl b))

theorem BusStill.freeWord (h : BusStill y b) : BusStill y b.freeWord.2 := h.upd rfl

theorem BusStill.jtrim {n : Nat} (h : BusStill y b) : BusStill y (Bus.jtrim n b) := by
  induction n generalizing b with
  | zero => exact h
  | succ n ih =>
    unfold Bus.jtrim
    split
    · exact h
    · split
      · exact h
      · exact ih (h.upd rfl)

theorem BusStill.journalAt {time : Word} {kind cap inst : Nat} {body : List Byte} (h : BusStill y b) :
    BusStill y (b.journalAt time kind cap inst body) := by
  unfold Bus.journalAt
  extract_lets
  exact .jtrim (.mk' h.setReg)

theorem BusStill.journal {kind cap inst : Nat} {body : List Byte} (h : BusStill y b) : BusStill y (b.journal kind cap inst body) :=
  h.journalAt

theorem BusStill.enter {cap inst st : Nat} (h : BusStill y b) : BusStill y (b.enter cap inst st) := by
  unfold Bus.enter
  extract_lets
  exact .ite h.setFld.emit h.setFld

theorem BusStill.toStopping {cap inst cause : Nat} (h : BusStill y b) : BusStill y (b.toStopping cap inst cause) := by
  unfold Bus.toStopping
  extract_lets
  exact .mk' h.setFld.setFld.enter

theorem BusStill.startFailed {cap inst reason : Nat} (h : BusStill y b) : BusStill y (b.startFailed cap inst reason) := by
  unfold Bus.startFailed
  extract_lets
  exact h.setFld.setFld.emit.enter

theorem BusStill.setAcc {m : Nat} {x : AccSt} (h : BusStill y b) : BusStill y (b.setAcc m x) := h.upd rfl

theorem BusStill.refuseRead {m a : Nat} (h : BusStill y b) : BusStill y (b.refuseRead m a) := h.bump.setAcc

theorem BusStill.rowDrain {a n : Nat} (h : BusStill y b) : BusStill y (b.rowDrain a n) := h.only (Bus.rowDrain_only (.refl b))

theorem BusStill.countBytes {a n : Nat} (h : BusStill y b) : BusStill y (b.countBytes a n) := h.only (Bus.countBytes_only (.refl b))

theorem BusStill.unmapped {m a : Nat} {write : Bool} (h : BusStill y b) : BusStill y (b.unmapped m a write) :=
  h.only (Bus.unmapped_only (.refl b))

theorem BusStill.uncorrectable {m a : Nat} {scrub : Bool} (h : BusStill y b) : BusStill y (b.uncorrectable m a scrub) := by
  unfold Bus.uncorrectable
  extract_lets
  exact .emit (.ite h.bump h.bump.setPair.setFld)

theorem BusStill.corrected {a n : Nat} (h : BusStill y b) : BusStill y (b.corrected a n) := by
  unfold Bus.corrected
  extract_lets
  refine .ite h ?_
  extract_lets
  split <;> exact .mk' h.bump

theorem BusStill.correctWords {a n : Nat} (h : BusStill y b) : BusStill y (b.correctWords a n) := by
  unfold Bus.correctWords
  refine .foldl h fun _ _ h2 => ?_
  extract_lets
  exact .ite h2.corrected (.mk' h2.corrected)

theorem BusStill.readChecked {m a n : Nat} (h : BusStill y b) : BusStill y (b.readChecked m a n).1 := by
  unfold Bus.readChecked
  extract_lets
  split
  · exact h.unmapped
  · split
    · exact .correctWords (.countBytes (.ite h.rowDrain h))
    · exact .foldl (.correctWords (.countBytes (.ite h.rowDrain h))) fun _ _ h2 => h2.uncorrectable

theorem BusStill.load {m a n : Nat} (h : BusStill y b) : BusStill y (b.load m a n).1 := by
  unfold Bus.load
  split
  · exact h.readChecked
  · exact h.refuseRead

theorem BusStill.store {m a : Nat} {data : List Byte} (h : BusStill y b) : BusStill y (b.store m a data).1 :=
  h.only (Bus.store_only (.refl b))

theorem BusStill.setRing {r : Nat} {x : RingSt} (h : BusStill y b) : BusStill y (b.setRing r x) := h.upd rfl

theorem BusStill.setHost {hd : Nat} {x : HostSt} (h : BusStill y b) : BusStill y (b.setHost hd x) := h.upd rfl

theorem BusStill.msixWrite {hd i : Nat} {v : Word} (h : BusStill y b) : BusStill y (b.msixWrite hd i v) := by
  unfold Bus.msixWrite
  extract_lets
  exact .ite h.setHost.send h.setHost

theorem BusStill.fenceSignal {n v : Nat} (h : BusStill y b) : BusStill y (b.fenceSignal n v) := h.only (Bus.fenceSignal_only (.refl b))

theorem BusStill.stalled {r : Nat} (h : BusStill y b) : BusStill y (b.stalled r) := h.only (Bus.stalled_only (.refl b))

theorem BusStill.setPhase {r k : Nat} {ph : EPhase} (h : BusStill y b) : BusStill y (b.setPhase r k ph) :=
  h.only (Bus.setPhase_only (.refl b))

theorem BusStill.completeRaw {host r k status reason : Nat} (h : BusStill y b) : BusStill y (b.completeRaw host r k status reason).1 :=
  h.only (Bus.completeRaw_only (.refl b))

theorem BusStill.ringStop {host r cause : Nat} (h : BusStill y b) : BusStill y (b.ringStop host r cause) :=
  h.only (Bus.ringStop_only (.refl b))

theorem BusStill.ringFault {host r k cause : Nat} (h : BusStill y b) : BusStill y (b.ringFault host r k cause) :=
  h.only (Bus.ringFault_only (.refl b))

theorem BusStill.complete {host r k status reason : Nat} (h : BusStill y b) : BusStill y (b.complete host r k status reason) := by
  unfold Bus.complete
  exact .ite h.completeRaw h.completeRaw.ringFault

theorem BusStill.flush {n h : Nat} {p : Plan} (hb : BusStill y b) : BusStill y (Bus.flush n p b h) := hb.only (Bus.flush_only (.refl b))

theorem BusStill.flushAll {p : Plan} (h : BusStill y b) : BusStill y (Bus.flushAll p b) := .foldl h fun _ _ h2 => h2.flush

/-! ### Operations of the state -/

theorem Still.onBus {f : Bus → Bus} (h : Still z s) (hf : BusStill s.bus (f s.bus)) : Still z (s.onBus f) := h.updBus hf

theorem Still.setReg {r : FReg} {i j : Nat} {v : Word} (h : Still z s) : Still z (s.setReg r i j v) := h.upd rfl

theorem Still.setFld {r : FReg} {i j lo n v : Nat} (h : Still z s) : Still z (s.setFld r i j lo n v) := h.setReg

theorem Still.bump {r : FReg} {i j n : Nat} (h : Still z s) : Still z (s.bump r i j n) := h.setReg

theorem Still.setPair {lo hi : FReg} {i j v : Nat} (h : Still z s) : Still z (s.setPair lo hi i j v) := h.setReg.setReg

theorem Still.emit {typ inst sev : Nat} {p : Payload} (h : Still z s) : Still z (s.emit typ inst sev p) := .onBus h (.emit (.refl _))

theorem Still.emitAt {time : Word} {frame : Option Word} {typ inst sev : Nat} {p : Payload} (h : Still z s) :
    Still z (s.emitAt time frame typ inst sev p) :=
  .onBus h (.emitAt (.refl _))

theorem Still.send {o : Out} (h : Still z s) : Still z (s.send o) := .onBus h (.send (.refl _))

theorem Still.journal {kind cap inst : Nat} {body : List Byte} (h : Still z s) : Still z (s.journal kind cap inst body) :=
  .ite (.onBus h (.journal (.refl _))) h

theorem Still.setWdn {x : WdnSt} (h : Still z s) : Still z (s.setWdn x) := h.upd rfl

theorem Still.giveUp {cap inst kept given code : Nat} {tag : Option Word} (h : Still z s) :
    Still z (s.giveUp cap inst kept given code tag) := by
  unfold State.giveUp
  split
  · exact h.journal
  · exact .journal (.onBus h (.freeWord (.refl _)))

theorem Still.trigger {cause : Nat} {wait : Option (Nat × Nat)} (h : Still z s) : Still z (s.trigger cause wait) := by
  unfold State.trigger
  extract_lets
  exact h.upd rfl

theorem Still.fault {cap inst code : Nat} (h : Still z s) : Still z (s.fault cap inst code) := by
  unfold State.fault
  extract_lets _ u
  have hu : Still z u := .ite h.setFld.setReg h
  exact .ite (.trigger (.emit (.mk' hu.setFld.setFld))) (.emit (.mk' hu.setFld.setFld))

theorem Still.free (h : Still z s) : Still z s.free.2 := h.updBus (.freeWord (.refl _))

theorem Still.load {m a n : Nat} (h : Still z s) : Still z (s.load m a n).1 := .updBus h (.load (.refl _))

theorem Still.store {m a : Nat} {data : List Byte} (h : Still z s) : Still z (s.store m a data).1 := .updBus h (.store (.refl _))

theorem Still.setLink {p : Nat} {x : LinkSt} (h : Still z s) : Still z (s.setLink p x) := h.upd rfl

theorem Still.setLane {p : Nat} {x : LaneSt} (h : Still z s) : Still z (s.setLane p x) := h.upd rfl

theorem Still.setPan {p : Nat} {x : PanelSt} (h : Still z s) : Still z (s.setPan p x) := h.upd rfl

theorem Still.panShow {p : Nat} (h : Still z s) : Still z (s.panShow p) := h.panel (State.panShow_only (.refl s))

theorem Still.panPost {p st cause : Nat} {stamp : Option Word} (h : Still z s) : Still z (s.panPost p st cause stamp) :=
  h.panel (State.panPost_only (.refl s))

theorem Still.panRelease {p reason : Nat} (h : Still z s) : Still z (s.panRelease p reason) := h.panel (State.panRelease_only (.refl s))

theorem Still.storeRefused {kind : Nat} (h : Still z s) : Still z (s.storeRefused kind) := by
  unfold State.storeRefused
  extract_lets
  exact .ite (.emit (h.upd rfl)) (h.upd rfl)

/-! ### Access check units, rings and commands -/

theorem BusStill.accFlag {m i : Nat} (h : BusStill y b) : BusStill y (b.accFlag m i) := h.setFld

theorem BusStill.lockedWrite {m r : Nat} (h : BusStill y b) : BusStill y (b.lockedWrite m r) := h.accFlag.emit

theorem BusStill.regionUpdate {m r : Nat} {v : Word} (h : BusStill y b) : BusStill y (b.regionUpdate m r v) := by
  unfold Bus.regionUpdate
  extract_lets
  refine .ite h.lockedWrite (.ite h.accFlag (.ite h.accFlag ?_))
  extract_lets
  split
  · exact h.accFlag.emit
  · exact h.setPair.setPair.setReg.setFld.setAcc

theorem BusStill.regionHalf {m r q : Nat} {v : Word} (h : BusStill y b) : BusStill y (b.regionHalf m r q v) :=
  .ite h.lockedWrite h.setAcc

theorem BusStill.accSync {m token : Nat} (h : BusStill y b) : BusStill y (b.accSync m token) := h.setAcc.setFld

theorem Still.regWriteRec {port cap inst blk off : Nat} {v : Word} (h : Still z s) : Still z (s.regWriteRec port cap inst blk off v) :=
  .ite h h.journal

theorem Still.hostReach {port cap inst : Nat} {f : State → State} (h : Still z s) (hf : ∀ u, Still z u → Still z (f u)) :
    Still z (s.hostReach port cap inst f) :=
  .ite h (.ite (.onBus h (.bump (.refl _))) (.ite h (hf s h)))

theorem Still.hostWrite {port cap inst blk off : Nat} {v : Word} {f : State → State} (h : Still z s)
    (hf : ∀ u, Still z u → Still z (f u)) : Still z (s.hostWrite port cap inst blk off v f) :=
  .hostReach h fun _ h1 => hf _ h1.regWriteRec

theorem Still.notOwner {port : Nat} (h : Still z s) : Still z (s.notOwner port) := .onBus h (.bump (.refl _))

theorem Still.done {status : Nat} {reason : Nat} (h : Still z s) : Still z (Machine.done s status reason).1 := h

theorem Still.checked {cap : Nat} {objOk argsOk offOk : Bool} {e : FEntry} {f : State → State × Option (Nat × Nat)} (h : Still z s)
    (hf : ∀ u, Still z u → Still z (f u).1) : Still z (Machine.checked cap objOk argsOk offOk e s f).1 :=
  .iteFst h.done (.iteFst h.done (.iteFst h.done (hf s h)))

theorem Still.complete {r k status reason : Nat} (h : Still z s) : Still z (s.complete r k status reason) :=
  .onBus h (.complete (.refl _))

theorem Still.commandRec {r : Nat} {e : FEntry} (h : Still z s) : Still z (s.commandRec r e) := h.journal

theorem Still.begun {r : Nat} {e : FEntry} (h : Still z s) : Still z (s.begun r e) :=
  .onBus h.commandRec (.stalled (.setPhase (.refl _)))

theorem Still.perform {r : Nat} {e : FEntry} {p : Perf} (h : Still z s) (hp : ∀ host r e u, Still z u → Still z (p host r e u).1) :
    Still z (s.perform r e p) := by
  unfold State.perform
  extract_lets u
  have hu : Still z u := h.begun
  refine .ite hu.complete ?_
  split
  · exact .ofPair (hp _ _ _ _ hu) ‹_›
  · exact .complete (.ofPair (hp _ _ _ _ hu) ‹_›)

theorem Still.abortRunning {cap inst : Nat} (h : Still z s) : Still z (s.abortRunning cap inst) :=
  .forEach h fun _ _ h2 => .forEach h2 fun _ _ h5 => h5.complete

theorem Still.fetch {host r k : Nat} (h : Still z s) : Still z (s.fetch host r k) := by
  unfold State.fetch
  refine .ite h ?_
  split
  · exact .onBus (.ofPair h.load ‹_›) (.ringFault (.refl _))
  · exact .onBus (.ofPair h.load ‹_›) (.ringFault (.refl _))
  · extract_lets _ _ _ u
    have hu : Still z u := .onBus (.ofPair h.load ‹_›) (.stalled (.setRing (.refl _)))
    exact .ite (hu.perform fun _ _ _ _ h2 => h2.done) hu

theorem Still.fetchUpTo {n host r : Nat} (h : Still z s) : Still z (State.fetchUpTo n s host r) := by
  induction n generalizing s with
  | zero => exact h
  | succ n ih =>
    unfold State.fetchUpTo
    exact Still.ite h (ih (Still.fetch h))

theorem Still.doorbell {port r : Nat} {v : Word} (h : Still z s) : Still z (s.doorbell port r v) := by
  unfold State.doorbell
  refine .hostReach h fun _ h1 => ?_
  extract_lets t u _ w p
  have ht : Still z t := .ite h1.regWriteRec h1
  have hu : Still z u := .onBus ht (.setFld (.refl _))
  have hw : Still z w := .ite (.onBus hu (.ringStop (.refl _))) hu
  have hp : Still z p := .onBus ht (.setReg (.refl _))
  exact .ite ht.notOwner (.ite ht (.ite hw.emit hp.fetchUpTo))

theorem Still.consWrite {port r : Nat} {v : Word} (h : Still z s) : Still z (s.consWrite port r v) := by
  unfold State.consWrite
  refine .hostReach h fun _ h1 => ?_
  extract_lets t
  have ht : Still z t := .ite h1 h1.regWriteRec
  exact .ite ht.notOwner (.ite ht (.onBus (.onBus ht (.setReg (.refl _))) (.flushAll (.refl _))))

theorem Still.timeOut {r : Nat} {e : FEntry} (h : Still z s) : Still z (s.timeOut r e) := h.emit.complete

theorem Still.waitLimitWrite {port r : Nat} {v : Word} (h : Still z s) : Still z (s.waitLimitWrite port r v) := by
  unfold State.waitLimitWrite
  refine .hostWrite h fun _ h1 => ?_
  extract_lets
  exact .ite h1.notOwner (.ite (.onBus h1 (.bump (.refl _))) (.forEach (.onBus h1 (.setReg (.refl _))) fun _ _ h4 => h4.timeOut))

theorem Still.nop {host r : Nat} {e : FEntry} {u : State} (h : Still z u) : Still z (Machine.nop host r e u).1 :=
  .checked h fun _ h1 => h1.done

theorem Still.barrier {port : Nat} {v : Word} (h : Still z s) : Still z (s.barrier port v) := by
  unfold State.barrier
  refine .hostWrite h fun _ h1 => ?_
  extract_lets
  exact .onBus h1 (.setFld (.setHost (.refl _)))

theorem Still.fenceSignalWrite {port obj : Nat} {hi : Word} (h : Still z s) : Still z (s.fenceSignalWrite port obj hi) := by
  unfold State.fenceSignalWrite
  refine .hostWrite h fun _ h1 => ?_
  extract_lets
  exact .ite h1 (.ite h1.notOwner (.onBus h1 (.fenceSignal (.refl _))))

theorem Still.regionUpdate {port m r : Nat} {v : Word} (h : Still z s) : Still z (s.regionUpdate port m r v) :=
  .hostWrite h fun _ h1 => .ite h1 (.onBus h1 (.regionUpdate (.refl _)))

theorem Still.accSync {port m token : Nat} (h : Still z s) : Still z (s.accSync port m token) :=
  .hostWrite h fun _ h1 => .onBus h1 (.accSync (.refl _))

/-! ### Ports -/

theorem Still.sendMarker {p code : Nat} {lanes : List Nat} {block : List Byte} (h : Still z s) :
    Still z (s.sendMarker p code lanes block) := by
  unfold State.sendMarker
  extract_lets
  exact .ite h h.setLane.send

theorem Still.startIdle {p : Nat} (h : Still z s) : Still z (s.startIdle p) := by
  unfold State.startIdle
  extract_lets
  exact .setFld (.ite h.setLink.send h.setLink)

theorem Still.putPacket {p typ flags stream alive : Nat} {stamp : Word} {payload : List Byte} (h : Still z s) :
    Still z (s.putPacket p typ flags stream alive stamp payload) := by
  unfold State.putPacket
  extract_lets
  exact h.setLane.send

theorem Still.sendItem {p typ flags stream alive : Nat} {stamp : Word} {payload : List Byte} (h : Still z s) :
    Still z (s.sendItem p typ flags stream alive stamp payload) := by
  unfold State.sendItem
  extract_lets
  exact .ite h (.ite h.setLink (.ite h.putPacket.setLink (.ite (.forEach h.putPacket.setLink fun _ _ h2 => h2.putPacket) h.putPacket)))

theorem Still.frameCut {p : Nat} (h : Still z s) : Still z (s.frameCut p) := by
  unfold State.frameCut
  extract_lets
  exact .forEach h.setLink fun _ _ h2 => h2.sendItem

theorem Still.sendNew {p typ flags stream : Nat} {payload : List Byte} (h : Still z s) :
    Still z (s.sendNew p typ flags stream payload) := by
  unfold State.sendNew
  extract_lets
  exact .ite h h.setLink.sendItem

theorem Still.control {p code : Nat} {body : List Byte} (h : Still z s) : Still z (s.control p code body) := h.sendNew

theorem Still.sendEpoch {p : Nat} {active : Bool} (h : Still z s) : Still z (s.sendEpoch p active) := by
  unfold State.sendEpoch
  extract_lets
  exact h.control.setReg.setLink

theorem Still.sendHold {p : Nat} (h : Still z s) : Still z (s.sendHold p) := by
  unfold State.sendHold
  extract_lets
  exact .ite h (.ite h.setLink h.control.setLink)

theorem Still.safe {p reason : Nat} (h : Still z s) : Still z (s.safe p reason) := by
  unfold State.safe
  extract_lets
  exact .ite h.setLink.setFld.setFld (.ite h.setLink.setFld.control.control.control.startIdle.setLink.emit h.setLink.setFld)

theorem Still.safeWire {p reason : Nat} (h : Still z s) : Still z (s.safeWire p reason) := h.setFld.send.safe

theorem Still.sendCredit {p limit : Nat} {stop : Bool} (h : Still z s) : Still z (s.sendCredit p limit stop) := h.setReg.setFld.sendNew

theorem Still.holdCapWrite {host p : Nat} {v : Word} (h : Still z s) : Still z (s.holdCapWrite host p v) := by
  unfold State.holdCapWrite
  extract_lets
  exact .hostWrite h fun _ h1 => .ite h1.bump h1.setReg.sendHold

theorem Still.setPortState {p st : Nat} (h : Still z s) : Still z (s.setPortState p st) := h.setFld

theorem Still.sendBlock {p phase ask : Nat} (h : Still z s) : Still z (s.sendBlock p phase ask) := h.sendMarker

theorem Still.enterPhase {p ph : Nat} (h : Still z s) : Still z (s.enterPhase p ph) := by
  unfold State.enterPhase
  extract_lets
  exact h.setFld.setLane.sendBlock

theorem Still.startAttempt {p n : Nat} (h : Still z s) : Still z (s.startAttempt p n) := by
  unfold State.startAttempt
  extract_lets
  exact h.setFld.setLane.enterPhase

theorem Still.putFix {p : Nat} {v : Word} (h : Still z s) : Still z (s.putFix p v) := by
  unfold State.putFix
  refine .forEach h fun _ _ h2 => ?_
  extract_lets
  exact .ite (.setFld (.setFld (.ite h2.setFld h2))) (.ite h2.setFld h2)

theorem Still.trainOne {p : Nat} {short : Bool} (h : Still z s) : Still z (s.trainOne p short) := by
  unfold State.trainOne
  extract_lets fix _ _ _ v w
  have hv : Still z v := .ite h.setLane.setPortState h.setLane.setPortState.setFld
  clear_value fix v
  have hw : Still z w := by
    cases fix with
    | none => exact hv
    | some x => exact hv.putFix
  exact hw.startAttempt

theorem Still.startTraining {p : Nat} {short : Bool} (h : Still z s) : Still z (s.startTraining p short) := by
  unfold State.startTraining
  extract_lets
  split
  · exact h.trainOne
  · extract_lets
    exact .ite h.trainOne (.ite h.trainOne.bump.trainOne (.ite h.trainOne.trainOne h.trainOne))

theorem Still.retrain {host r : Nat} {e : FEntry} {u : State} (h : Still z u) : Still z (Machine.retrain host r e u).1 := by
  unfold Machine.retrain
  extract_lets
  refine .checked h fun _ h1 => ?_
  extract_lets
  split
  · exact h1.done
  · split
    · exact h1.done
    · exact .setLane (.startTraining (.ite h1.bump h1))

theorem Still.portExit {p : Nat} (h : Still z s) : Still z (s.portExit p) := .ite h.setLane.startTraining h.setLane

theorem Still.power {host r : Nat} {e : FEntry} {u : State} (h : Still z u) : Still z (Machine.power host r e u).1 := by
  unfold Machine.power
  extract_lets
  refine .checked h fun _ h1 => ?_
  extract_lets
  split
  · exact h1.done
  · split
    · exact h1.done
    · split
      · exact h1.done
      · split
        · split
          · exact h1.done
          · exact h1.portExit.setLane
        · split
          · exact h1.done
          · exact h1.setLane

theorem Still.laneTest {host r : Nat} {e : FEntry} {u : State} (h : Still z u) : Still z (Machine.laneTest host r e u).1 := by
  unfold Machine.laneTest
  extract_lets
  refine .checked h fun _ h1 => ?_
  extract_lets
  split
  · exact h1.done
  · split
    · exact h1.done
    · exact .setLane (.send (.ite h1.setPortState.setFld.sendMarker h1.setPortState.setFld))

theorem Still.inject {host r : Nat} {e : FEntry} {u : State} (h : Still z u) : Still z (Machine.inject host r e u).1 := by
  unfold Machine.inject
  extract_lets
  refine .checked h fun _ h1 => ?_
  extract_lets
  split
  · exact h1.done
  · split
    · exact h1.done
    · split
      · exact h1.done
      · exact h1.send.done

theorem Still.portOff {p : Nat} (h : Still z s) : Still z (s.portOff p) := h.setPortState.setFld.setLane.send

/-! ### The timing core -/

theorem Still.setTim {t : TimSt} (h : Still z s) : Still z (s.setTim t) := h.upd rfl

theorem Still.setRef {r : Nat} {x : RefSt} (h : Still z s) : Still z (s.setRef r x) := h.setTim

theorem Still.wrapBy {up : Bool} (h : Still z s) : Still z (s.wrapBy up) := by
  unfold State.wrapBy
  extract_lets
  exact h.setFld.emit

theorem Still.timingRec {what ref st v4 v5 : Nat} (h : Still z s) : Still z (s.timingRec what ref st v4 v5) := h.journal

theorem Still.setTimState {st : Nat} (h : Still z s) : Still z (s.setTimState st) := by
  unfold State.setTimState
  extract_lets
  exact h.setFld.timingRec.setTim.emit

theorem Still.takeD0 {r : Nat} (h : Still z s) : Still z (s.takeD0 r) := by
  unfold State.takeD0
  extract_lets
  exact h.setTim.setReg.setTim

theorem Still.selectRef {r cause : Nat} (h : Still z s) : Still z (s.selectRef r cause) := by
  unfold State.selectRef
  extract_lets
  exact h.setFld.takeD0.emit.setTimState

theorem Still.deselect (h : Still z s) : Still z s.deselect := by
  unfold State.deselect
  extract_lets
  exact .ite (.ite h.setFld.setTim.setReg.setTimState h.setFld.setTim.setTimState) h.setFld

theorem Still.reselect {cause : Nat} (h : Still z s) : Still z (s.reselect cause) := by
  unfold State.reselect
  extract_lets
  split
  · exact .ite h h.deselect
  · exact .ite h (.ite h h.selectRef)

theorem Still.setQual {r q cause : Nat} (h : Still z s) : Still z (s.setQual r q cause) := by
  unfold State.setQual
  extract_lets _ _ t _ u _ w
  have ht : Still z t := h.setFld.timingRec
  have hu : Still z u := .ite ht.emit (.ite ht.emit ht)
  have hw : Still z w := hu.setRef
  exact .ite h hw.reselect

theorem Still.refActive {r : Nat} (h : Still z s) : Still z (s.refActive r) := by
  unfold State.refActive
  extract_lets
  exact .ite h h.setFld.setFld.setQual

theorem Still.requalify {r : Nat} (h : Still z s) : Still z (s.requalify r) := by
  unfold State.requalify
  extract_lets
  exact .ite h.setQual.setFld (.ite h.setQual.setQual (.ite h.setQual.refActive h.setQual))

theorem Still.refCfgWrite {host r : Nat} {nom : Bool} {v : Word} (h : Still z s) : Still z (s.refCfgWrite host r nom v) := by
  unfold State.refCfgWrite
  extract_lets
  refine .hostWrite h fun _ h1 => ?_
  extract_lets
  exact .ite h1 (.ite (.ite h1.setReg.requalify h1.bump) (.ite h1.bump (.ite h1.setReg.requalify h1.setReg.reselect)))

theorem Still.timCtlWrite {host : Nat} {v : Word} (h : Still z s) : Still z (s.timCtlWrite host v) :=
  .hostWrite h fun _ h1 => .ite h1.bump h1.setReg.reselect

theorem Still.hostIncrWrite {host : Nat} {hi : Word} (h : Still z s) : Still z (s.hostIncrWrite host hi) := by
  unfold State.hostIncrWrite
  refine .hostWrite h fun _ h1 => ?_
  extract_lets _ _ _ _ _ _ _ t u
  have ht : Still z t := .setRef (.setReg (.setTim h1.setPair))
  have hu : Still z u := .ite ht.refActive ht
  exact .ite h1.bump (.ite hu.setTim hu)

theorem Still.record {c : Nat} {t : Word} {sub : Nat} (h : Still z s) : Still z (s.record c t sub) := by
  unfold State.record
  extract_lets
  exact .ite h.bump.setReg.setReg.setTim.emit h.bump.setReg.setReg.setTim

theorem Still.captureAt {input : Nat} {falling : Option Bool} {t : Word} (h : Still z s) : Still z (s.captureAt input falling t) := by
  unfold State.captureAt
  refine .forEach h fun _ _ h2 => ?_
  extract_lets
  exact .ite h2.record h2

theorem Still.drivePulse {p : Nat} {level : Bool} {t : Word} (h : Still z s) : Still z (s.drivePulse p level t) := h.send.captureAt

theorem Still.setGroup {g : Nat} {x : GroupSt} (h : Still z s) : Still z (s.setGroup g x) := h.setTim

theorem Still.setNext {g : Nat} {k : ℤ} (h : Still z s) : Still z (s.setNext g k) := h.setGroup.setReg

theorem Still.alignNotes {g : Nat} (h : Still z s) : Still z (s.alignNotes g) :=
  .forEach h fun _ _ h2 => .forEach h2 fun _ _ h5 => .ite h5.control h5

theorem Still.groupRate {host r : Nat} {e : FEntry} {u : State} (h : Still z u) : Still z (Machine.groupRate host r e u).1 := by
  unfold Machine.groupRate
  extract_lets
  refine .checked h fun _ h1 => ?_
  extract_lets
  split
  · exact h1.done
  · split
    · exact h1.done
    · exact h1.setGroup.done

theorem Still.setPulse {p : Nat} {x : PulseSt} (h : Still z s) : Still z (s.setPulse p x) := h.setTim

theorem Still.align {host r : Nat} {e : FEntry} {u : State} (h : Still z u) : Still z (Machine.align host r e u).1 := by
  unfold Machine.align
  extract_lets
  refine .checked h fun _ h1 => ?_
  extract_lets
  split
  · exact h1.done
  · extract_lets
    split
    · exact h1.setGroup.done
    · exact .done (.ite h1.setPulse h1.setReg.emit)

theorem Still.pulseCtlWrite {p : Nat} {v : Word} (h : Still z s) : Still z (s.pulseCtlWrite p v) := by
  unfold State.pulseCtlWrite
  extract_lets _ _ t u w
  have ht : Still z t := .ite h.setFld h
  have hw : Still z w := .ite ht.setFld.drivePulse ht.setFld
  exact .ite hw.setPulse (.ite ht (.ite ht.setFld.setPulse ht))

/-! ### Sources -/

theorem Still.setSrc {n : Nat} {x : SrcSt} (h : Still z s) : Still z (s.setSrc n x) := h.upd rfl

theorem Still.writeAll {m : Nat} {ws : List (Nat × List Byte)} (h : Still z s) : Still z (s.writeAll m ws).1 :=
  .foldlFst h fun _ _ h2 => .iteFst h2 h2.store

theorem Still.countBlocks {slotN solidN rawN : Nat} (h : Still z s) : Still z (s.countBlocks slotN solidN rawN) := h.bump.bump.bump

theorem Still.writeStore {m addr : Nat} {g : Geo} {effort : Nat} {pic : List (List Byte)} {checks : List Nat} (h : Still z s) :
    Still z (s.writeStore m addr g effort pic checks).1 := by
  unfold State.writeStore
  extract_lets
  exact .iteFst h.writeAll h.writeAll.countBlocks

theorem Still.writePicture {m addr : Nat} {g : Geo} {effort : Nat} {pic : List (List Byte)} (h : Still z s) :
    Still z (s.writePicture m addr g effort pic).1 :=
  h.writeStore

theorem Still.fetchBytes {m a n : Nat} (h : Still z s) : Still z (s.fetchBytes m a n).1 := h.load

theorem Still.badBlock {m addr code : Nat} (h : Still z s) : Still z (s.badBlock m addr code) := h.emit

theorem Still.readBlock {m addr : Nat} {g : Geo} {bx bY : Nat} (h : Still z s) : Still z (s.readBlock m addr g bx bY).1 := by
  unfold State.readBlock
  extract_lets
  refine .iteFst (.iteFst h.fetchBytes (.foldlFst h fun _ _ h2 => ?_)) ?_
  · extract_lets
    split
    · split
      · exact .ofPair h2.fetchBytes ‹_›
      · exact h2.fetchBytes
    · exact h2
  · extract_lets
    split
    · extract_lets
      refine .iteFst (.bump (.ofPair h.fetchBytes ‹_›)) ?_
      extract_lets
      split
      · split
        · exact .ofPair (.fetchBytes (.ofPair h.fetchBytes ‹_›)) ‹_›
        · exact .bump (.ofPair (.fetchBytes (.ofPair h.fetchBytes ‹_›)) ‹_›)
      · exact .fetchBytes (.ofPair h.fetchBytes ‹_›)
    · exact h.fetchBytes

theorem Still.fetchBlock {m addr : Nat} {g : Geo} {bx bY : Nat} (h : Still z s) : Still z (s.fetchBlock m addr g bx bY).1 := by
  unfold State.fetchBlock
  split
  · exact .badBlock (.ofPair h.readBlock ‹_›)
  · exact h.readBlock

theorem Still.fetchRows {m addr stride n len : Nat} (h : Still z s) : Still z (s.fetchRows m addr stride n len).1 := by
  unfold State.fetchRows
  refine .foldlFst h fun _ _ h2 => ?_
  extract_lets
  split
  · split <;> exact .ofPair h2.fetchBytes ‹_›
  · exact h2

theorem Still.setBufState {n b st : Nat} (h : Still z s) : Still z (s.setBufState n b st) := h.setFld.setFld.setFld

theorem Still.dropNewest {n : Nat} (h : Still z s) : Still z (s.dropNewest n) := by
  unfold State.dropNewest
  split
  · exact h
  · extract_lets
    exact .ite h.setFld.setFld.setBufState h.setFld.setFld

theorem Still.evalSource {n : Nat} (h : Still z s) : Still z (s.evalSource n) := by
  unfold State.evalSource
  extract_lets
  exact .ite (.ite h.dropNewest h) (.emit (.setFld (.ite h.dropNewest h)))

theorem Still.moveBuf {n b st : Nat} (h : Still z s) : Still z (s.moveBuf n b st) := h.setBufState.evalSource

theorem Still.poolNone {n k : Nat} (h : Still z s) : Still z (s.poolNone n k) := by
  unfold State.poolNone
  extract_lets
  exact .ite h.bump.setSrc.emit h.bump.setSrc

theorem Still.cull {n b reason alive : Nat} {cap : Word} (h : Still z s) : Still z (s.cull n b reason alive cap) := by
  unfold State.cull
  extract_lets
  exact .evalSource (.ite h.bump.setFld.setBufState.setSrc.setFld h.bump.setFld.setBufState.setSrc)

theorem Still.accept {n b : Nat} {p : Pict} (h : Still z s) : Still z (s.accept n b p) := by
  unfold State.accept
  extract_lets _ _ t _ _ v _ _ _ _ _ _ _ _ _ v7 w
  have ht : Still z t := .ite h h.bump.emit
  have hv : Still z v := .ite ht.setReg ht.setReg.dropNewest
  have hv7 : Still z v7 := hv.setBufState.setFld.setFld.setFld.setReg.setReg.setReg.setReg.setFld.setFld.setReg
  have hw : Still z w := .ite hv7.setFld hv7
  exact hw.setSrc.journal.evalSource

theorem Still.finish {n b : Nat} {p : Pict} (h : Still z s) : Still z (s.finish n b p).1 := .iteFst h.accept h.cull

theorem Still.holdBuf {n b : Nat} (h : Still z s) : Still z (s.holdBuf n b) := h.setBufState.setFld.evalSource

theorem Still.releaseBuf {n b : Nat} (h : Still z s) : Still z (s.releaseBuf n b) := by
  unfold State.releaseBuf
  extract_lets
  exact .ite h.setFld.moveBuf h.setFld.evalSource

theorem Still.setWb {n : Nat} {x : Option WbSt} (h : Still z s) : Still z (s.setWb n x) := h.upd rfl

theorem Still.signalsDue {n : Nat} (h : Still z s) : Still z (s.signalsDue n) := by
  unfold State.signalsDue
  extract_lets
  exact .ite h (.forEach h.setSrc fun _ _ h2 => .onBus h2 (.fenceSignal (.refl _)))

theorem Still.sourceOff {n : Nat} (h : Still z s) : Still z (s.sourceOff n) := by
  unfold State.sourceOff
  extract_lets
  refine .evalSource (.signalsDue (.setSrc (.setWb (.setFld (.forEach h fun _ _ h2 => ?_)))))
  extract_lets
  exact .ite h2.setFld h2.setBufState.setFld.setReg.setReg.setReg.setReg

theorem Still.abandon {n : Nat} (h : Still z s) : Still z (s.abandon n) := by
  unfold State.abandon
  split
  · exact h
  · exact h.setSrc.cull.signalsDue

theorem Still.engineFault {n : Nat} (h : Still z s) : Still z (s.engineFault n).1 := h.setSrc

theorem Still.submitEnd {e : FEntry} {check : Nat} {fromHost fault : Bool} (h : Still z s) :
    Still z (s.submitEnd e check fromHost fault).1 := by
  unfold State.submitEnd
  extract_lets
  split <;> exact .done (.ofPair h.finish ‹_›)

theorem Still.submitHere {e : FEntry} (h : Still z s) : Still z (s.submitHere e).1 := by
  unfold State.submitHere
  extract_lets
  refine .iteFst h.submitEnd ?_
  extract_lets
  split
  · extract_lets
    exact .submitEnd (.writeAll (.ofPair h.fetchRows ‹_›))
  · exact .submitEnd (.ofPair h.fetchRows ‹_›)

theorem Still.submitFrom {e : FEntry} (h : Still z s) : Still z (s.submitFrom e).1 := by
  unfold State.submitFrom
  extract_lets
  split
  · extract_lets
    exact .submitEnd (.engineFault (.writePicture (.ofPair h.fetchRows ‹_›)))
  · exact .done (.ofPair h.fetchRows ‹_›)
  · exact .done (.ofPair h.fetchRows ‹_›)

theorem Still.submit {host r : Nat} {e : FEntry} {u : State} (h : Still z u) : Still z (Machine.submit host r e u).1 := by
  unfold Machine.submit
  refine .checked h fun _ h1 => ?_
  extract_lets
  split
  · exact h1.done
  · split
    · exact h1.done
    · split
      · exact h1.poolNone.done
      · split
        · exact h1.submitHere
        · exact h1.submitFrom

theorem Still.compress {host r : Nat} {e : FEntry} {u : State} (h : Still z u) : Still z (Machine.compress host r e u).1 := by
  unfold Machine.compress
  extract_lets
  refine .checked h fun _ h1 => ?_
  extract_lets
  split
  · extract_lets
    refine .iteFst (.done (.bump (.ofPair h1.fetchRows ‹_›))) ?_
    extract_lets
    split
    · exact .done (.ofPair (.writePicture (.ofPair h1.fetchRows ‹_›)) ‹_›)
    · exact .done (.setFld (.ofPair (.writePicture (.ofPair h1.fetchRows ‹_›)) ‹_›))
  · exact .done (.ofPair h1.fetchRows ‹_›)
  · exact .done (.ofPair h1.fetchRows ‹_›)

theorem Still.expand {host addr : Nat} {g : Geo} {x y : Nat} {told : Bool} (h : Still z s) :
    Still z (s.expand host addr g x y told).1 :=
  .iteFst h.readBlock h.fetchBlock

theorem Still.decompress {host r : Nat} {e : FEntry} {u : State} (h : Still z u) : Still z (Machine.decompress host r e u).1 := by
  unfold Machine.decompress
  extract_lets
  refine .checked h fun _ h1 => ?_
  extract_lets acc
  have ha : Still z acc.1 := by
    refine .foldlFst h1 fun _ _ h2 => .iteFst h2 ?_
    split <;> exact .ofPair h2.expand ‹_›
  obtain ⟨v, bs, err, bad⟩ := acc
  have hv : Still z v := ha
  refine .iteFst hv.done ?_
  extract_lets
  split
  · exact .done (.ofPair hv.writeAll ‹_›)
  · refine .iteFst (.done (.ofPair hv.writeAll ‹_›)) ?_
    split
    · exact .iteFst (.done (.ofPair (.fetchBytes (.ofPair hv.writeAll ‹_›)) ‹_›))
        (.done (.ofPair (.fetchBytes (.ofPair hv.writeAll ‹_›)) ‹_›))
    · exact .done (.ofPair (.fetchBytes (.ofPair hv.writeAll ‹_›)) ‹_›)
    · exact .done (.ofPair (.fetchBytes (.ofPair hv.writeAll ‹_›)) ‹_›)

theorem Still.creditStop {p : Nat} (h : Still z s) : Still z (s.creditStop p) := by
  unfold State.creditStop
  extract_lets
  split
  · exact .ite h.sendCredit h.setFld
  · extract_lets
    exact .evalSource (.signalsDue (.abandon (.setSrc (.ite h.sendCredit h.setFld))))

/-! ### Decoding -/

theorem Still.setDec {n : Nat} {x : DecSt} (h : Still z s) : Still z (s.setDec n x) := h.upd rfl

theorem Still.setCore {c : Nat} {x : Option CoreSt} (h : Still z s) : Still z (s.setCore c x) := h.upd rfl

theorem Still.streamOff {n : Nat} (h : Still z s) : Still z (s.streamOff n) := by
  unfold State.streamOff
  extract_lets
  refine .evalSource (.setReg (.setReg (.setReg (.setDec (.forEach (.forEach h fun _ _ h2 => ?_) fun _ _ h2 => .ite h2.cull h2)))))
  extract_lets
  split
  · extract_lets
    exact .ite (.ite h2.setCore.complete h2.setCore.complete.cull) h2
  · exact h2

/-! ### Heads -/

theorem Still.setHead {hd : Nat} {x : HeadSt} (h : Still z s) : Still z (s.setHead hd x) := h.upd rfl

theorem Still.setLayer {hd l : Nat} {c : LayerCfg} (h : Still z s) : Still z (s.setLayer hd l c) := by
  unfold State.setLayer
  extract_lets
  exact h.setReg.setReg.setReg.setReg.setReg.setReg.setFld

theorem Still.layerSet {host r : Nat} {e : FEntry} {u : State} (h : Still z u) : Still z (Machine.layerSet host r e u).1 := by
  unfold Machine.layerSet
  extract_lets
  refine .checked h fun _ h1 => ?_
  extract_lets
  split
  · exact h1.done
  · exact h1.setHead.done

theorem Still.layerFence {host r : Nat} {e : FEntry} {u : State} (h : Still z u) : Still z (Machine.layerFence host r e u).1 := by
  unfold Machine.layerFence
  extract_lets
  exact .checked h fun _ h1 => h1.setHead.done

theorem Still.loadCoeff {host r : Nat} {e : FEntry} {u : State} (h : Still z u) : Still z (Machine.loadCoeff host r e u).1 := by
  unfold Machine.loadCoeff
  refine .checked h fun _ h1 => ?_
  extract_lets
  split
  · exact h1.bump.done
  · split
    · exact .done (.ofPair h1.load ‹_›)
    · exact .done (.ofPair h1.load ‹_›)
    · extract_lets
      split
      · exact .done (.ofPair h1.load ‹_›)
      · exact .done (.setHead (.ofPair h1.load ‹_›))

theorem Still.readCoeff {host r : Nat} {e : FEntry} {u : State} (h : Still z u) : Still z (Machine.readCoeff host r e u).1 := by
  unfold Machine.readCoeff
  refine .checked h fun _ h1 => ?_
  extract_lets
  split <;> exact .done (.ofPair h1.store ‹_›)

theorem Still.cursorLoad {host r : Nat} {e : FEntry} {u : State} (h : Still z u) : Still z (Machine.cursorLoad host r e u).1 := by
  unfold Machine.cursorLoad
  extract_lets
  refine .checked h fun _ h1 => ?_
  extract_lets
  split
  · extract_lets
    exact .done (.setHead (.ofPair h1.fetchRows ‹_›))
  · exact .done (.ofPair h1.fetchRows ‹_›)
  · exact .done (.ofPair h1.fetchRows ‹_›)

theorem Still.commit {host r : Nat} {e : FEntry} {u : State} (h : Still z u) : Still z (Machine.commit host r e u).1 := by
  unfold Machine.commit
  extract_lets
  refine .checked h fun _ h1 => ?_
  extract_lets
  split
  · exact h1.done
  · exact h1.setHead.setFld.done

theorem Still.cursorPosWrite {host hd : Nat} {v : Word} (h : Still z s) : Still z (s.cursorPosWrite host hd v) :=
  .hostWrite h fun _ h1 => h1.setReg.setHead

theorem Still.limitSet {host r : Nat} {e : FEntry} {u : State} (h : Still z u) : Still z (Machine.limitSet host r e u).1 := by
  unfold Machine.limitSet
  extract_lets
  refine .checked h fun _ h1 => ?_
  extract_lets
  exact .iteFst h1.done h1.setHead.done

theorem Still.policySet {host r : Nat} {e : FEntry} {u : State} (h : Still z u) : Still z (Machine.policySet host r e u).1 := by
  unfold Machine.policySet
  extract_lets
  exact .checked h fun _ h1 => h1.setHead.done

theorem Still.rearm {host r : Nat} {e : FEntry} {u : State} (h : Still z u) : Still z (Machine.rearm host r e u).1 := by
  unfold Machine.rearm
  extract_lets
  refine .checked h fun _ h1 => ?_
  extract_lets
  split
  · exact h1.done
  · extract_lets
    split
    · exact h1.done
    · split
      · exact h1.done
      · exact h1.setHead.setFld.emit.done

theorem Still.setMode {hd : Nat} {m : ModeSt} {half : Bool} (h : Still z s) : Still z (s.setMode hd m half) := by
  unfold State.setMode
  extract_lets
  exact h.setHead.setReg.setReg.setReg.setReg.setReg.setReg.setReg.setReg

theorem Still.modeCommit {host r : Nat} {e : FEntry} {u : State} (h : Still z u) : Still z (Machine.modeCommit host r e u).1 := by
  unfold Machine.modeCommit
  extract_lets
  split
  · exact h.done
  · extract_lets
    refine .checked h fun _ h1 => ?_
    extract_lets
    split
    · exact h1.done
    · split
      · exact h1.done
      · split
        · exact h1.done
        · split
          · split
            · exact h1.done
            · exact h1.setHead.setFld.done
          · split
            · exact h1.done
            · exact h1.setMode.done

theorem Still.lutLoad {host r : Nat} {e : FEntry} {u : State} (h : Still z u) : Still z (Machine.lutLoad host r e u).1 := by
  unfold Machine.lutLoad
  extract_lets
  refine .checked h fun _ h1 => ?_
  extract_lets
  split
  · exact .done (.ofPair h1.load ‹_›)
  · exact .done (.ofPair h1.load ‹_›)
  · extract_lets
    split
    · exact .done (.ofPair h1.load ‹_›)
    · extract_lets
      exact .done (.setHead (.ofPair h1.load ‹_›))

theorem Still.lutRead {host r : Nat} {e : FEntry} {u : State} (h : Still z u) : Still z (Machine.lutRead host r e u).1 := by
  unfold Machine.lutRead
  extract_lets
  refine .checked h fun _ h1 => ?_
  extract_lets
  split <;> exact .done (.ofPair h1.store ‹_›)

theorem Still.setRerun {r : RerunSt} (h : Still z s) : Still z (s.setRerun r) := h.upd rfl

theorem Still.rerunDiff {hd frame row n : Nat} (h : Still z s) : Still z (s.rerunDiff hd frame row n) := by
  unfold State.rerunDiff
  extract_lets
  split
  · exact h
  · extract_lets
    exact .ite (.emit (.setRerun (.onBus h (.bump (.refl _))))) (.setRerun (.onBus h (.bump (.refl _))))

theorem Still.rerunRows {hd frame first : Nat} {checks : List Nat} {own : List (Nat × Bool)} (h : Still z s) :
    Still z (s.rerunRows hd frame first checks own) := by
  unfold State.rerunRows
  extract_lets _ _ _ df u
  have hu : Still z u := .onBus h (.bump (.bump (.refl _)))
  cases df with
  | nil => exact hu
  | cons q qs => exact hu.rerunDiff

theorem Still.rerunRecorded {hd frame port first : Nat} {checks : List Nat} (h : Still z s) :
    Still z (s.rerunRecorded hd frame port first checks) := by
  unfold State.rerunRecorded
  split
  · exact h
  · split
    · exact h.rerunRows
    · exact h.setRerun

theorem Still.headEvent {hd typ sev : Nat} {p : Payload} (h : Still z s) : Still z (s.headEvent hd typ sev p) := h.emitAt

theorem Still.stopSending {hd : Nat} (h : Still z s) : Still z (s.stopSending hd) := by
  unfold State.stopSending
  extract_lets
  exact .forEach h.setHead fun _ _ h2 => h2.frameCut

theorem Still.setOutput {hd st cause : Nat} (h : Still z s) : Still z (s.setOutput hd st cause) := by
  unfold State.setOutput
  extract_lets _ t u v
  have ht : Still z t := .ite h.stopSending h
  have hv : Still z v := ht.setFld.setFld.setFld
  exact .ite hv.headEvent hv

theorem Still.portsSafe {e : HeadEnt} {reason : Nat} (h : Still z s) : Still z (s.portsSafe e reason) :=
  .forEach h fun _ _ h2 => .ite h2 (.ite h2.safeWire h2.safe)

theorem Still.headSafe {hd cause port : Nat} (h : Still z s) : Still z (s.headSafe hd cause port) := by
  unfold State.headSafe
  extract_lets
  split
  · exact h
  · extract_lets
    exact h.setOutput.portsSafe.headEvent

theorem Still.headFollows {p : Nat} (h : Still z s) : Still z (s.headFollows p) := by
  unfold State.headFollows
  split
  · exact h
  · extract_lets hd t repair was u out ready
    have hu : Still z u := h.setFld.setFld
    have hsafe (v : Word) : Still z ((u.giveUp 0x14 hd 1 4 0x1407 (some v)).headSafe hd 2 p) := hu.giveUp.headSafe
    refine .ite hu (.ite (.ite hu.setHead hu) (.ite hu.stopSending (.ite (.ite ?_ hu) (hsafe _))))
    split
    · exact hsafe _
    · exact hu.setHead

theorem Still.unshow {hd l : Nat} (h : Still z s) : Still z (s.unshow hd l) := by
  unfold State.unshow
  split
  · exact h
  · exact .setReg (.setFld (.ite h h.releaseBuf))

theorem Still.showBuf {hd l n b : Nat} (h : Still z s) : Still z (s.showBuf hd l n b) := .ite h h.holdBuf

theorem Still.flip {hd : Nat} {f : FlipSt} (h : Still z s) : Still z (s.flip hd f) := by
  unfold State.flip
  extract_lets
  split
  · exact h
  · extract_lets
    exact .setHead (.setFld (.setFld (.setReg (.ite h.showBuf h.showBuf.unshow))))

theorem Still.basicBanks {hd : Nat} (h : Still z s) : Still z (s.basicBanks hd) := by
  unfold State.basicBanks
  exact .ite h (.forEach h fun _ _ h2 => h2.setHead)

theorem Still.applyCommits {hd : Nat} {t : Word} (h : Still z s) : Still z (s.applyCommits hd t).1 := by
  unfold State.applyCommits
  extract_lets _ _ _ p _ u _ _ _ _ _ v w
  have hv : Still z v := .setHead (.foldl h fun _ _ h2 => h2.setLayer.setHead)
  have hw : Still z w := by
    unfold w
    split
    · exact hv.setReg
    · exact hv
  exact .iteFst h hw.setFld

theorem Still.applyFresh {hd : Nat} {t : Word} (h : Still z s) : Still z (s.applyFresh hd t) := by
  unfold State.applyFresh
  extract_lets
  refine .forEach (.setHead (.foldl h fun _ _ h2 => h2.setReg)) fun _ _ h2 => ?_
  extract_lets
  split <;> exact h2.setReg

theorem Still.applyLuts {hd : Nat} {t : Word} (h : Still z s) : Still z (s.applyLuts hd t) := by
  unfold State.applyLuts
  extract_lets _ _ _ u _ _ _ _ v
  have hu : Still z u := .foldl h.setHead fun _ _ h2 => h2.setHead.headEvent
  have hv : Still z v := hu.setHead
  exact .ite hv hv.setFld.headEvent

theorem Still.stripRec {hd strip action cause layers bitmap : Nat} (h : Still z s) :
    Still z (s.stripRec hd strip action cause layers bitmap) :=
  h.journal

theorem Still.showSheds {hd : Nat} (h : Still z s) : Still z (s.showSheds hd) := by
  unfold State.showSheds
  extract_lets
  exact .forEach h.setReg.setFld fun _ _ h2 => h2.setFld

theorem Still.shedNote {hd l strip cause : Nat} {shed : Bool} (h : Still z s) : Still z (s.shedNote hd l strip cause shed) := by
  unfold State.shedNote
  extract_lets
  exact .ite h.stripRec.bump.emit h.stripRec.emit

theorem Still.latchLayer {hd l : Nat} (h : Still z s) : Still z (s.latchLayer hd l).1 := by
  unfold State.latchLayer
  extract_lets _ _ _ _ _ _ _ _ _ _ t u _ v _ w _ x y
  have hu : Still z u := .ite h.setFld.emit h.setFld
  have hw : Still z w := .ite hu.setFld.setReg hu.setFld
  exact .ite hw.setFld.emit hw.setFld

theorem Still.wbDrop {n reason : Nat} (h : Still z s) : Still z (s.wbDrop n reason) := by
  unfold State.wbDrop
  split
  · exact h
  · exact h.setWb.cull.emit

theorem Still.setHalf {e : HeadEnt} {half : Bool} (h : Still z s) : Still z (s.setHalf e half) := by
  unfold State.setHalf
  extract_lets
  exact .setFld (.setFld (.ite h.headEvent h))

theorem Still.setFrame {hd : Nat} {f : FrameSt} (h : Still z s) : Still z (s.setFrame hd f) := h.setHead

theorem Still.putDoubt {hd tile reason : Nat} (h : Still z s) : Still z (s.putDoubt hd tile reason) := by
  unfold State.putDoubt
  split
  · exact h
  · extract_lets
    exact .ite h h.setFrame.bump.setHead

theorem Still.recRuns {n kind cap inst : Nat} {items : List (List Byte)} {hdr : Nat → Nat → List Byte} (h : Still z s) :
    Still z (s.recRuns n kind cap inst items hdr) :=
  .foldl h fun _ _ h2 => h2.journal

theorem Still.doubtRecs {hd : Nat} {num : Word} {ds : List (Nat × Nat)} (h : Still z s) : Still z (s.doubtRecs hd num ds) := h.recRuns

theorem Still.noteDoubts {hd : Nat} {ds : List (Nat × Nat)} (h : Still z s) : Still z (s.noteDoubts hd ds) := by
  unfold State.noteDoubts
  split
  · exact h
  · extract_lets
    exact .forEach h.doubtRecs fun _ _ h2 => h2.putDoubt

theorem Still.addDoubts {hd : Nat} {tiles : List Nat} {reason : Nat} (h : Still z s) : Still z (s.addDoubts hd tiles reason) :=
  .ite (.forEach h fun _ _ h2 => h2.rerunDiff) h.noteDoubts

theorem Still.addDoubt {hd tile reason : Nat} (h : Still z s) : Still z (s.addDoubt hd tile reason) := h.addDoubts

theorem Still.layerGone {hd l : Nat} (h : Still z s) : Still z (s.layerGone hd l) := by
  unfold State.layerGone
  extract_lets
  exact .ite h.setHead.emitAt h.setHead

theorem Still.headOff {hd : Nat} (h : Still z s) : Still z (s.headOff hd) := by
  unfold State.headOff
  split
  · exact h
  · extract_lets t u x y v w w' o o' p q
    have ht : Still z t := .forEach h fun _ _ h2 => h2.unshow
    have hu : Still z u := .forEach ht fun _ _ h2 => .setReg (.setReg (.setReg (.setReg (.setLayer (.ite h2 h2.layerGone)))))
    have hw : Still z w := hu.setHead.setReg.showSheds
    have ho : Still z o := .forEach hw.setFld fun _ _ h2 => h2.wbDrop
    exact ho.setOutput.setHalf.setFld.setFld.portsSafe

theorem Still.onFrame {hd : Nat} {g : FrameSt → FrameSt} (h : Still z s) : Still z (s.onFrame hd g) := h.setHead

theorem Still.setTile {hd i v : Nat} (h : Still z s) : Still z (s.setTile hd i v) := h.setHead

theorem Still.parityFound {hd i : Nat} (h : Still z s) : Still z (s.parityFound hd i) := by
  unfold State.parityFound
  extract_lets
  exact .ite h.setTile.emit.addDoubt h.setTile.emit.setHead

theorem Still.columnLeaves {hd : Nat} {q : ColRes} (h : Still z s) : Still z (s.columnLeaves hd q) := by
  unfold State.columnLeaves
  extract_lets
  split
  · exact h.onFrame
  · exact .ite h.onFrame.setTile h.onFrame

theorem Still.tileSnapshot {host hd : Nat} {v : Word} (h : Still z s) : Still z (s.tileSnapshot host hd v) := by
  unfold State.tileSnapshot
  extract_lets
  refine .hostWrite h fun _ h1 => ?_
  extract_lets
  exact .setReg (.setReg (.setReg (.ite h1.parityFound h1)))

/-! ### Checks -/

theorem Still.checkCmd {f : Nat → FEntry → Nat → List Byte → State → State × Option (Nat × Nat)} {host r : Nat} {e : FEntry}
    {u : State} (h : Still z u) (hf : ∀ host e a d t, Still z t → Still z (f host e a d t).1) :
    Still z (Machine.checkCmd f host r e u).1 := by
  unfold Machine.checkCmd
  extract_lets
  refine .checked h fun _ h1 => ?_
  split
  · exact .done (.ofPair h1.load ‹_›)
  · exact .done (.ofPair h1.load ‹_›)
  · exact hf _ _ _ _ _ (.setPair (.ofPair h1.load ‹_›))

theorem Still.checkAppend {host r : Nat} {e : FEntry} {u : State} (h : Still z u) : Still z (Machine.checkAppend host r e u).1 := by
  unfold Machine.checkAppend
  refine .checkCmd h fun _ _ _ _ _ h5 => ?_
  extract_lets
  split <;> exact .done (.ofPair h5.store ‹_›)

theorem Still.checkVerify {host r : Nat} {e : FEntry} {u : State} (h : Still z u) : Still z (Machine.checkVerify host r e u).1 := by
  unfold Machine.checkVerify
  refine .checkCmd h fun _ _ _ _ _ h5 => ?_
  extract_lets
  split
  · exact .done (.ofPair h5.load ‹_›)
  · exact .done (.ofPair h5.load ‹_›)
  · extract_lets
    split
    · exact .done (.bump (.ofPair h5.load ‹_›))
    · exact .done (.emit (.setFld (.bump (.ofPair h5.load ‹_›))))

/-! ### Encoder cores -/

theorem Still.setEnc {c : Nat} {x : EncSt} (h : Still z s) : Still z (s.setEnc c x) := h.upd rfl

theorem Still.showFloor {c : Nat} (h : Still z s) : Still z (s.showFloor c) := h.setReg

theorem Still.encRelease {j : EncJob} (h : Still z s) : Still z (s.encRelease j) := by
  unfold State.encRelease
  split
  · exact .ite h.releaseBuf h
  · exact h

theorem Still.encAbandon {c : Nat} (h : Still z s) : Still z (s.encAbandon c) := by
  unfold State.encAbandon
  split
  · exact h
  · exact h.encRelease.setEnc.setFld

theorem Still.encOff {c : Nat} (h : Still z s) : Still z (s.encOff c) := h.encAbandon.setEnc

theorem Still.encCuts {q : State} (h : Still z s) : Still z (s.encCuts q) := .forEach h fun _ _ h2 => .ite h2.setEnc h2

theorem Still.encCapWrite {host c : Nat} {sec : Bool} {v : Word} (h : Still z s) : Still z (s.encCapWrite host c sec v) := by
  unfold State.encCapWrite
  refine .hostWrite h fun _ h1 => ?_
  extract_lets
  exact .ite h1.setFld h1.setReg

theorem Still.select {host r : Nat} {e : FEntry} {u : State} (h : Still z u) : Still z (Machine.select host r e u).1 := by
  unfold Machine.select
  extract_lets
  exact .checked h fun _ h1 => h1.setEnc.done

theorem Still.requestIdr {host r : Nat} {e : FEntry} {u : State} (h : Still z u) : Still z (Machine.requestIdr host r e u).1 := by
  unfold Machine.requestIdr
  exact .checked h fun _ h1 => h1.setEnc.done

/-! ### Touch panels -/

theorem Still.panEnter {p : Nat} (h : Still z s) : Still z (s.panEnter p) := h.setPan.setReg

theorem Still.panOff {p : Nat} (h : Still z s) : Still z (s.panOff p) := by
  unfold State.panOff
  extract_lets
  exact .setReg (.setReg (.forEach (.setPan (.ite h.panRelease.panPost h)) fun _ _ h2 => h2.setReg))

theorem Still.keysLoad {host r : Nat} {e : FEntry} {u : State} (h : Still z u) : Still z (Machine.keysLoad host r e u).1 := by
  unfold Machine.keysLoad
  extract_lets
  refine .checked h fun _ h1 => ?_
  extract_lets
  split
  · exact h1.done
  · split
    · exact .done (.ofPair h1.load ‹_›)
    · exact .done (.ofPair h1.load ‹_›)
    · extract_lets
      split
      · exact .done (.ofPair h1.load ‹_›)
      · exact .done (.setPan (.ofPair h1.load ‹_›))

theorem Still.rebaseline {host r : Nat} {e : FEntry} {u : State} (h : Still z u) : Still z (Machine.rebaseline host r e u).1 := by
  unfold Machine.rebaseline
  extract_lets
  refine .checked h fun _ h1 => ?_
  extract_lets
  exact .iteFst h1.done h1.panRelease.setPan.panShow

theorem Still.selfTest {host r : Nat} {e : FEntry} {u : State} (h : Still z u) : Still z (Machine.selfTest host r e u).1 := by
  unfold Machine.selfTest
  extract_lets
  refine .checked h fun _ h1 => ?_
  extract_lets
  split
  · exact h1.done
  · exact h1.setPan

theorem Still.rawRead {host r : Nat} {e : FEntry} {u : State} (h : Still z u) : Still z (Machine.rawRead host r e u).1 := by
  unfold Machine.rawRead
  extract_lets
  refine .checked h fun _ h1 => ?_
  extract_lets
  split
  · exact h1.done
  · split <;> exact .done (.ofPair h1.store ‹_›)

/-! ### The journal -/

theorem Still.setJrn {j : JrnSt} (h : Still z s) : Still z (s.setJrn j) := h.upd rfl

theorem Still.freeze {host r : Nat} {e : FEntry} {u : State} (h : Still z u) : Still z (Machine.freeze host r e u).1 :=
  .checked h fun _ h1 => h1.trigger

theorem Still.release {host r : Nat} {e : FEntry} {u : State} (h : Still z u) : Still z (Machine.release host r e u).1 := by
  unfold Machine.release
  extract_lets
  refine .checked h fun _ h1 => ?_
  extract_lets
  split
  · exact h1.done
  · split
    · exact h1.done
    · exact .done (.onBus h1 (.setFld (.refl _)))

theorem Still.dump {host r : Nat} {e : FEntry} {u : State} (h : Still z u) : Still z (Machine.dump host r e u).1 := by
  unfold Machine.dump
  extract_lets
  refine .checked h fun _ h1 => ?_
  extract_lets
  split
  · exact h1.done
  · split
    · exact h1.done
    · split
      · exact h1.storeRefused.done
      · exact h1.setJrn

theorem Still.mark {host r : Nat} {e : FEntry} {u : State} (h : Still z u) : Still z (Machine.mark host r e u).1 :=
  .checked h fun _ h1 => h1.journal.done

/-! ### Functions, the tandem's roles and STEP -/

theorem Still.toStarting {cap i : Nat} (h : Still z s) : Still z (s.toStarting cap i) := by
  unfold State.toStarting
  extract_lets u
  have hu : Still z u := .onBus h (.enter (.refl _))
  have failed (r : Nat) : Still z (u.onBus fun b => b.startFailed cap i r) := .onBus hu (.startFailed (.refl _))
  refine .ite (failed _) (.ite (failed _) (.ite ?_ hu))
  split
  · exact failed _
  · exact hu.panEnter

theorem Still.putVal {i : Nat} {v : PlanVal} (h : Still z s) : Still z (s.putVal i v) := by
  unfold State.putVal
  split
  · exact .onBus h (.setReg (.refl _))
  · exact h.setReg

theorem Still.identity (h : Still z s) : Still z s.identity := by
  unfold State.identity
  extract_lets
  exact .setReg (.setReg (.setReg (.setReg (.onBus h (.foldl (.refl _) fun _ _ h2 => h2.setReg)))))

theorem Still.setTnd {x : TndSt} (h : Still z s) : Still z (s.setTnd x) := h.upd rfl

theorem Still.tndControl {p typ : Nat} {payload : List Byte} (h : Still z s) : Still z (s.tndControl p typ payload) := h.sendNew

theorem Still.syncReq (h : Still z s) : Still z s.syncReq := h.tndControl

theorem Still.setInSync {v : Bool} {reason : Nat} (h : Still z s) : Still z (s.setInSync v reason) := .ite h h.setFld.setFld.emit

theorem Still.setRole {r cause : Nat} (h : Still z s) : Still z (s.setRole r cause) := by
  unfold State.setRole
  extract_lets
  exact h.journal.setFld.setFld.setTnd.emit

theorem Still.askFull (h : Still z s) : Still z s.askFull := h.setTnd.syncReq

theorem Still.handoverFails (h : Still z s) : Still z s.handoverFails := by
  unfold State.handoverFails
  split
  · exact h.setTnd.complete
  · exact h

theorem Still.toFailed (h : Still z s) : Still z s.toFailed := by
  unfold State.toFailed
  extract_lets
  exact .ite h h.handoverFails.setRole.setTnd

theorem Still.handover {host r : Nat} {e : FEntry} {u : State} (h : Still z u) : Still z (Machine.handover host r e u).1 := by
  unfold Machine.handover
  refine .checked h fun _ h1 => ?_
  extract_lets
  split
  · exact h1.done
  · exact h1.setTnd.setRole

theorem Still.resync {host r : Nat} {e : FEntry} {u : State} (h : Still z u) : Still z (Machine.resync host r e u).1 := by
  unfold Machine.resync
  refine .checked h fun _ h1 => ?_
  extract_lets
  split
  · exact h1.done
  · exact h1.setInSync.askFull.done

theorem Still.portFollow {p old : Nat} (h : Still z s) : Still z (s.portFollow p old) := by
  unfold State.portFollow
  extract_lets u v
  have hv : Still z v := by
    unfold v
    split
    · exact h.headFollows.evalSource
    · exact h.headFollows
  exact .ite hv.startIdle.sendEpoch hv

theorem Still.withPorts {f : State → State} (h : Still z s) (hf : ∀ u, Still z u → Still z (f u)) : Still z (State.withPorts f s) :=
  .forEach (hf s h) fun _ _ h2 => h2.portFollow

theorem Still.portHarmless {p : Nat} (h : Still z s) : Still z (s.portHarmless p) := by
  unfold State.portHarmless
  split
  · exact .ite h h.safe
  · exact h.creditStop
  · exact h

theorem Still.abortAll {cap i : Nat} (h : Still z s) : Still z (s.abortAll cap i) :=
  .ite h.abortRunning.abortRunning.abortRunning h.abortRunning

theorem Still.offAction {cap i : Nat} (h : Still z s) : Still z (s.offAction cap i) := by
  unfold State.offAction
  split
  · exact h.sourceOff
  · exact h.streamOff
  · exact h.headOff
  · exact h.encOff
  · exact .withPorts h fun _ h1 => h1.portHarmless.portOff
  · exact h.panOff
  · exact h

theorem Still.leaveOne {cap i cause : Nat} (h : Still z s) : Still z (s.leaveOne cap i cause) := by
  unfold State.leaveOne
  extract_lets _ _ t u _ v
  have ht : Still z t := .onBus h (.toStopping (.refl _))
  have hu : Still z u := .ite (.onBus ht (.toStopping (.toStopping (.refl _)))) ht
  have hv : Still z v := .abortAll (.onBus h (.toStopping (.refl _)))
  split
  · exact .onBus h (.ringStop (.refl _))
  · exact .ite hu.abortAll.headOff hu
  · exact .ite hv.offAction hv

theorem Still.leave {cap i cause : Nat} (h : Still z s) : Still z (s.leave cap i cause) := by
  unfold State.leave
  extract_lets
  exact .encCuts (.ite h.leaveOne.leaveOne h.leaveOne)

theorem Still.stop {cap i cause : Nat} (h : Still z s) : Still z (s.stop cap i cause) := .ite h.leave h

theorem Still.enableRefused {cap i : Nat} (h : Still z s) : Still z (s.enableRefused cap i) := by
  unfold State.enableRefused
  split
  · exact .onBus h (.accFlag (.refl _))
  · exact .onBus h (.setFld (.refl _))
  · exact h

theorem Still.enable {cap i : Nat} (h : Still z s) : Still z (s.enable cap i) := by
  unfold State.enable
  refine .ite h ?_
  extract_lets
  split
  · exact .toStarting (.onBus h (.setFld (.refl _)))
  · exact .emit (.onBus h (.setFld (.setFld (.refl _))))
  · exact h

theorem Still.disable {cap i : Nat} (h : Still z s) : Still z (s.disable cap i) := by
  unfold State.disable
  refine .ite h.enableRefused (.ite h ?_)
  extract_lets
  split
  · exact h.leave
  · exact h.leave
  · exact .onBus h (.setFld (.setFld (.refl _)))
  · exact .ite (.onBus h (.setFld (.refl _))) h

theorem Still.basicValues {cap i : Nat} (h : Still z s) : Still z (s.basicValues cap i) := by
  unfold State.basicValues
  extract_lets
  refine .forEach (.forEach h fun _ _ h2 => .forEach h2 fun _ _ h5 => .forEach h5 fun _ _ h8 => ?_) fun _ _ h2 => h2.putVal
  extract_lets
  split
  · exact .onBus h8 (.setReg (.refl _))
  · exact h8.setReg

theorem Still.setLevel {cap i : Nat} {v : Bool} (h : Still z s) : Still z (s.setLevel cap i v) :=
  .ite (.basicValues (.onBus h (.setFld (.refl _)))) (.onBus h (.setFld (.refl _)))

theorem Still.fnCtlWrite {port cap i : Nat} {v : Word} (h : Still z s) : Still z (s.fnCtlWrite port cap i v) := by
  unfold State.fnCtlWrite
  refine .hostWrite h fun _ h1 => ?_
  extract_lets
  exact .ite h1.notOwner (.ite h1.setLevel.enable h1.setLevel.disable)

theorem Still.shiftReg {d : ℤ} {r : FReg} {i j : Nat} (h : Still z s) : Still z (s.shiftReg d r i j) := h.setReg

theorem Still.shiftGroups {d : ℤ} (h : Still z s) : Still z (s.shiftGroups d) := by
  unfold State.shiftGroups
  refine .forEach h fun _ _ h2 => ?_
  extract_lets
  exact .ite h2 h2.shiftReg.shiftReg.setGroup

theorem Still.shiftPulses {d : ℤ} (h : Still z s) : Still z (s.shiftPulses d) := by
  unfold State.shiftPulses
  refine .forEach h fun _ _ h2 => ?_
  extract_lets
  exact .setPulse (.ite h2 h2.shiftReg)

theorem Still.shiftCaps {d : ℤ} (h : Still z s) : Still z (s.shiftCaps d) := .forEach h fun _ _ h2 => .ite h2.shiftReg.setFld h2

theorem Still.shiftSources {d : ℤ} (h : Still z s) : Still z (s.shiftSources d) := by
  unfold State.shiftSources
  extract_lets
  refine .forEach (.forEach (.forEach h fun _ u h2 => ?_) fun _ _ h2 => h2.setDec) fun _ _ h2 => ?_
  · extract_lets _ t v _ w
    have hw : Still z w := .setSrc (.forEach (.ite h2.shiftReg h2) fun _ _ h5 => h5.shiftReg)
    split
    · exact hw.upd rfl
    · exact hw
  · split
    · exact h2.setCore
    · exact h2

theorem Still.shiftHeads {d : ℤ} (h : Still z s) : Still z (s.shiftHeads d) := by
  unfold State.shiftHeads
  extract_lets
  refine .forEach h fun _ _ h2 => ?_
  extract_lets
  exact .setHead (.ite (.forEach h2.shiftReg fun _ _ h5 => h5.shiftReg) h2)

theorem Still.shiftEncs {d : ℤ} (h : Still z s) : Still z (s.shiftEncs d) := by
  unfold State.shiftEncs
  refine .forEach h fun _ _ h2 => ?_
  extract_lets
  exact .ite h2 h2.setEnc

theorem Still.shiftPanels {d : ℤ} (h : Still z s) : Still z (s.shiftPanels d) := by
  unfold State.shiftPanels
  exact .forEach h fun _ _ h2 => h2.setPan

theorem Still.timeStep {d : ℤ} {tag : Nat} (h : Still z s) : Still z (s.timeStep d tag) := by
  unfold State.timeStep
  extract_lets _ t u v w x _ y _ y' a b
  have hu : Still z u := .onBus h.timingRec (.upd (.refl _) rfl)
  have hv : Still z v := .ite hu.wrapBy (.ite hu.wrapBy hu)
  have hw : Still z w := hv.shiftGroups.shiftPulses.shiftCaps
  have hx : Still z x := hw.shiftSources.shiftHeads.shiftEncs.shiftPanels
  have ha : Still z a := .forEach hx.setTnd.setTim fun _ _ h2 => h2.setLink
  exact .emit (.onBus ha (.foldl (.refl _) fun _ _ h2 => h2.setFld))

theorem Still.stepCmd {host r : Nat} {e : FEntry} {u : State} (h : Still z u) : Still z (Machine.stepCmd host r e u).1 := by
  unfold Machine.stepCmd
  extract_lets
  refine .checked h fun _ h1 => ?_
  extract_lets
  split
  · exact h1.done
  · split
    · exact h1.done
    · exact h1.timeStep.done

/-! ### The structure, the warden and resets -/

theorem Still.showSlots (h : Still z s) : Still z s.showSlots := h.setReg

theorem Still.putSlots {f : SlotRec → SlotRec} (h : Still z s) : Still z (s.putSlots f) := by
  unfold State.putSlots
  extract_lets
  exact .showSlots (.ite (h.upd rfl) h.setWdn.storeRefused)

theorem Still.setSlotState {k v : Nat} (h : Still z s) : Still z (s.setSlotState k v) := h.putSlots

theorem Still.structEnd {st reason : Nat} (h : Still z s) : Still z (s.structEnd st reason) := h.setFld.setFld.setWdn

theorem Still.structFail {reason slot rec : Nat} (h : Still z s) : Still z (s.structFail reason slot rec) := h.setReg

theorem Still.setZoneState {q v : Nat} (h : Still z s) : Still z (s.setZoneState q v) := h.setFld

theorem Still.zoneRec {q step result : Nat} (h : Still z s) : Still z (s.zoneRec q step result) := h.journal

theorem Still.zoneHalt {reason : Nat} (h : Still z s) : Still z (s.zoneHalt reason) := by
  unfold State.zoneHalt
  split
  · exact h
  · extract_lets
    exact h.zoneRec.setZoneState.setFld.structFail.structEnd.setWdn.emit

theorem Still.faultPin {was : State} (h : Still z s) : Still z (s.faultPin was) := .ite h h.send

theorem Still.thmLevel {l : Nat} (h : Still z s) : Still z (s.thmLevel l) := h.setFld.setWdn.faultPin

theorem Still.reloadEnds {reason : Nat} (h : Still z s) : Still z (s.reloadEnds reason) := by
  unfold State.reloadEnds
  extract_lets
  split
  · exact .ite h.zoneHalt.structFail.structEnd h.zoneHalt
  · exact h.zoneHalt

theorem Still.failSafeEnds (h : Still z s) : Still z s.failSafeEnds := by
  unfold State.failSafeEnds
  extract_lets _ u v
  have hv : Still z v := by
    unfold v
    split
    · exact .ite h.reloadEnds.structEnd h.reloadEnds
    · exact h.reloadEnds
  split
  · exact hv.setWdn.setReg
  · exact hv

theorem Still.failSafeStops (h : Still z s) : Still z s.failSafeStops := by
  unfold State.failSafeStops
  extract_lets
  exact .forEach h fun _ _ h2 => .forEach h2 fun _ _ h5 => .ite h5 h5.stop

theorem Still.pulsesLow (h : Still z s) : Still z s.pulsesLow := .forEach h fun _ _ h2 => .setPulse (.ite h2.drivePulse h2)

theorem Still.failSafeWires (h : Still z s) : Still z s.failSafeWires := by
  unfold State.failSafeWires
  extract_lets t u v w x _ y
  have ht : Still z t := by
    refine .forEach h fun _ _ h2 => ?_
    extract_lets
    exact .ite h2 (.setOutput (.ite h2 h2.giveUp))
  have hv : Still z v := .toFailed (.forEach ht fun _ _ h2 => .ite h2 h2.safeWire)
  have hy : Still z y := .setTim (.pulsesLow (.forEach hv fun _ _ h2 => h2.creditStop))
  exact .ite hy hy.deselect

theorem Still.failSafe {code : Nat} (h : Still z s) : Still z (s.failSafe code) := by
  unfold State.failSafe
  extract_lets t _ u v w x y
  have hw : Still z w := .ite h.setWdn.thmLevel.failSafeWires h.setWdn.thmLevel
  have hy : Still z y := hw.fault.emit.failSafeEnds
  exact .ite (.ite h.fault.reloadEnds h.fault) (.ite hy.failSafeStops hy)

theorem Still.dieOff {column : Nat} (h : Still z s) : Still z (s.dieOff column) := .send (.ite (.forEach h fun _ _ h2 => h2.send) h)

theorem Still.drawNonce (h : Still z s) : Still z s.drawNonce := .forEach h fun _ _ h2 => h2.free.setReg

theorem Still.bare (h : Still z s) : Still z s.bare := h.updBus ⟨rfl⟩

theorem Still.showLife (h : Still z s) : Still z s.showLife := by
  unfold State.showLife
  extract_lets
  split
  · exact h.setReg.setReg.setReg.setFld
  · exact h.setReg.setReg.setReg

theorem Still.resetTo {kind cause straps : Nat} (h : Still z s) : Still z (s.resetTo kind cause straps) := by
  unfold State.resetTo
  extract_lets t _ _ _ u _ v _ w x y b _
  have hu : Still z u := .ite (.mk' h.dieOff.bare) (.mk' h.dieOff.bare)
  have hx : Still z x := .ite hu.setReg.setWdn.setReg.setReg.setReg hu.setReg.setWdn
  have hb : Still z b := hx.setReg.drawNonce.setFld.identity.showSlots.showLife.faultPin
  exact .ite hb.setWdn.failSafe hb

theorem Still.writtenReset {kind cause : Nat} (h : Still z s) : Still z (s.writtenReset kind cause) := .ite h.toFailed.setTnd h.resetTo

theorem Still.thmCmd {port : Nat} {v : Word} (h : Still z s) : Still z (s.thmCmd port v) :=
  .ite (.onBus h (.bump (.refl _))) h.writtenReset

theorem Still.thmCmdWrite {port : Nat} {v : Word} (h : Still z s) : Still z (s.thmCmdWrite port v) := .hostWrite h fun _ h1 => h1.thmCmd

theorem Still.structTake {port op : Nat} (h : Still z s) : Still z (s.structTake port op) := h.setReg

theorem Still.staged (h : Still z s) : Still z s.staged.1 := by
  unfold State.staged
  extract_lets
  refine .iteFst h ?_
  extract_lets
  split <;> exact .ofPair h.load ‹_›

theorem Still.structFails {reason rec : Nat} (h : Still z s) : Still z (s.structFails reason rec) := h.structFail.structEnd

theorem Still.writeSlot {k : Nat} (h : Still z s) : Still z (s.writeSlot k) := by
  unfold State.writeSlot
  refine .ite h.structFails (.ite h.storeRefused.structFails ?_)
  extract_lets
  split
  · exact .structFails (.ofPair h.staged ‹_›)
  · extract_lets
    split
    · exact .structFails (.ofPair h.staged ‹_›)
    · exact .setWdn (.putSlots (.mk' (.ofPair h.staged ‹_›)))

theorem Still.setPreferred {k : Nat} (h : Still z s) : Still z (s.setPreferred k) := .ite h.structEnd h.putSlots.structEnd

theorem Still.confirmSlot (h : Still z s) : Still z s.confirmSlot := .ite h.structEnd h.setSlotState.setWdn.structEnd

theorem Still.raiseFloor (h : Still z s) : Still z s.raiseFloor := .ite h.structEnd (.structEnd (.identity (.upd h rfl)))

theorem Still.structRead {op arg : Nat} (h : Still z s) : Still z (s.structRead op arg) := by
  unfold State.structRead
  extract_lets
  split
  · refine .structFails (.iteFst ?_ h.staged)
    extract_lets
    split <;> exact .ofPair h.load ‹_›
  · refine .setWdn (.iteFst ?_ h.staged)
    extract_lets
    split <;> exact .ofPair h.load ‹_›

theorem Still.structCmd {port op arg : Nat} (h : Still z s) : Still z (s.structCmd port op arg) := by
  unfold State.structCmd
  extract_lets
  refine .ite h.setFld (.ite h.structTake.structEnd ?_)
  extract_lets
  split
  · exact h.structTake.writeSlot
  · exact h.structTake.setPreferred
  · exact h.structTake.confirmSlot
  · exact .ite h.structTake.structFails h.structTake.structRead
  · exact h.structTake.structRead
  · exact h.structTake.structRead
  · exact h.structTake.raiseFloor
  · exact .ite h.structTake.structFails h.structTake.structRead

theorem Still.structCmdWrite {port : Nat} {v : Word} (h : Still z s) : Still z (s.structCmdWrite port v) :=
  .hostWrite h fun _ h1 => h1.structCmd

theorem Still.debugEnds {st reason : Nat} (h : Still z s) : Still z (s.debugEnds st reason) := h.setReg

theorem Still.serviceStop {cap : Nat} (h : Still z s) : Still z (s.serviceStop cap) := by
  unfold State.serviceStop
  refine .forEach h fun _ _ h2 => ?_
  extract_lets
  split
  · exact .ite h2 h2.leave
  · exact .onBus h2 (.startFailed (.refl _))
  · exact h2

theorem Still.serviceProgress (h : Still z s) : Still z s.serviceProgress := by
  unfold State.serviceProgress
  extract_lets
  split
  · exact .ite h (.setWdn (.forEach h.toFailed fun _ _ h2 => h2.serviceStop))
  · exact .ite (.emit (.identity (.debugEnds (.setReg (.setWdn (.ite h.serviceStop h)))))) (.ite h.serviceStop h)
  · exact h

theorem Still.serviceBegin {d : List Byte} (h : Still z s) : Still z (s.serviceBegin d) := by
  unfold State.serviceBegin
  extract_lets t _ _ u v w x y _ a
  have hv : Still z v := .forEach h.debugEnds.journal.setWdn fun _ _ h2 => h2.creditStop
  have hx : Still z x := .forEach (.forEach hv fun _ _ h2 => h2.leave) fun _ _ h2 => h2.leave
  have ha : Still z a := hx.pulsesLow.setTim
  exact .serviceProgress (.ite ha ha.deselect)


theorem Still.enterService (h : Still z s) : Still z s.enterService := by
  unfold State.enterService
  with_reducible refine .ite (.emit (.bump (.debugEnds (.ite (.giveUp (.drawNonce ?_)) (.drawNonce ?_))))) (.serviceBegin (.drawNonce ?_))
  all_goals
    with_reducible refine .iteFst h ?_
    split <;> exact .ofPair h.load ‹_›

theorem Still.setField (h : Still z s) : Still z s.setField :=
  .ite h.debugEnds (.ite h.debugEnds (.emit (.identity (.debugEnds (.setReg (.upd h rfl))))))

theorem Still.debugCmd {port : Nat} {v : Word} (h : Still z s) : Still z (s.debugCmd port v) := by
  unfold State.debugCmd
  refine .hostWrite h fun _ h1 => .ite h1 ?_
  extract_lets
  split
  · exact h1.enterService
  · exact h1.setField
  · exact h1.notOwner

/-! ### Register writes -/

theorem Still.putAny {r : AnyReg} {i j : Nat} {v : Word} (h : Still z s) : Still z (s.putAny r i j v) := by
  unfold State.putAny
  split
  · exact .onBus h (.setReg (.refl _))
  · exact h.setReg

theorem Still.ignored {port cap i : Nat} (h : Still z s) : Still z (s.ignored port cap i) := by
  unfold State.ignored
  split
  · exact h.putAny
  · exact h.notOwner

theorem Still.ringCtlWrite {port r : Nat} {v : Word} (h : Still z s) : Still z (s.ringCtlWrite port r v) := by
  unfold State.ringCtlWrite
  extract_lets
  exact .ite h.ignored (.onBus (.ite (.onBus h (.setFld (.refl _))) h) (.flushAll (.setReg (.refl _))))

theorem Still.encCtlWrite {c : Nat} {v : Word} (h : Still z s) : Still z (s.encCtlWrite c v) := h.setReg

theorem Still.clkoutWrite {k : Nat} {v : Word} (h : Still z s) : Still z (s.clkoutWrite k v) := h.setReg

theorem Still.taken {r : AnyReg} {i : Nat} (h : Still z s) : Still z (s.taken r i) := by
  unfold State.taken
  split
  · exact .onBus h (.flushAll (.refl _))
  · exact .ite h.evalSource h
  · exact h.showFloor
  · exact h

theorem Still.takeValue {r : AnyReg} {i j : Nat} {v : Word} (h : Still z s) : Still z (s.takeValue r i j v) := by
  unfold State.takeValue
  extract_lets u
  have hu : Still z u := by
    unfold u
    split
    · split
      · exact .onBus h.putAny (.upd (.refl _) rfl)
      · exact h
    · exact h
  exact .ite (.onBus h (.upd (.refl _) rfl)) hu.putAny.taken

theorem Still.writeRw {port : Nat} {row : RegRow} {i j : Nat} {v : Word} (h : Still z s) : Still z (s.writeRw port row i j v) := by
  unfold State.writeRw
  split
  · exact h.ringCtlWrite
  · exact .onBus h (.regionHalf (.refl _))
  · exact .onBus h (.regionHalf (.refl _))
  · exact .onBus h (.regionHalf (.refl _))
  · exact .onBus h (.regionHalf (.refl _))
  · exact h.pulseCtlWrite
  · exact h.clkoutWrite
  · exact h.encCtlWrite
  · exact h.setReg
  · extract_lets
    exact .ite (.onBus h (.setFld (.refl _))) (.ite h.ignored (.ite h h.takeValue))

theorem Still.writeRow {port i : Nat} {row : RegRow} {j : Nat} {v : Word} (h : Still z s) : Still z (s.writeRow port i row j v) := by
  unfold State.writeRow
  extract_lets
  refine .ite h.notOwner (.ite (.ite h.ignored h) ?_)
  extract_lets
  split
  · exact h.writeRw
  · exact .ite h.takeValue h
  · exact h.putAny
  · exact h

theorem Still.windowWrite {port off : Nat} {v : Word} (h : Still z s) : Still z (s.windowWrite port off v) :=
  .ite (.onBus h (.msixWrite (.refl _))) h

theorem Still.regWrite {port cap i blk off : Nat} {v : Word} (h : Still z s) : Still z (s.regWrite port cap i blk off v) := by
  unfold State.regWrite
  refine .ite h.windowWrite (.ite (.ite h.fnCtlWrite h) ?_)
  extract_lets
  split
  · exact .hostReach h fun _ h1 => h1
  · split
    · exact h.doorbell
    · exact h.consWrite
    · exact h.waitLimitWrite
    · exact h.barrier
    · exact h.fenceSignalWrite
    · exact h.regionUpdate
    · exact h.accSync
    · exact h.timCtlWrite
    · exact h.refCfgWrite
    · exact h.refCfgWrite
    · exact h.hostIncrWrite
    · exact h.encCapWrite
    · exact h.encCapWrite
    · exact h.cursorPosWrite
    · exact h.tileSnapshot
    · exact h.holdCapWrite
    · exact h.thmCmdWrite
    · exact h.structCmdWrite
    · exact h.debugCmd
    · exact .ite (.hostWrite h fun _ h1 => h1.writeRow) (.hostReach h fun _ h1 => h1.writeRow)

/-! ### Re-run -/

theorem Still.rerunLoad {host r : Nat} {e : FEntry} {u : State} (h : Still z u) : Still z (Machine.rerunLoad host r e u).1 := by
  unfold Machine.rerunLoad
  extract_lets
  refine .checked h fun _ h1 => ?_
  extract_lets
  split
  · exact h1.done
  · split
    · exact h1.done
    · split
      · exact .done (.ofPair h1.load ‹_›)
      · exact .done (.ofPair h1.load ‹_›)
      · extract_lets
        split
        · exact .done (.ofPair h1.load ‹_›)
        · exact .done (.onBus (.setRerun (.ofPair h1.load ‹_›)) (.setReg (.setReg (.setReg (.setReg (.refl _))))))

theorem Still.rerunStops {cap : Nat} (h : Still z s) : Still z (s.rerunStops cap) := by
  unfold State.rerunStops
  refine .forEach h fun _ _ h2 => ?_
  extract_lets
  split
  · exact h2.leave
  · exact h2.leave
  · exact h2

theorem Still.rerunEnds (h : Still z s) : Still z s.rerunEnds := by
  unfold State.rerunEnds
  extract_lets
  exact .emit (.onBus (.mk' (.forEach h fun _ _ h2 => h2.rerunStops)) (.setReg (.refl _)))

theorem Still.rerunStop {host r : Nat} {e : FEntry} {u : State} (h : Still z u) : Still z (Machine.rerunStop host r e u).1 := by
  unfold Machine.rerunStop
  refine .checked h fun _ h1 => ?_
  extract_lets
  split
  · exact h1.done
  · exact h1.rerunEnds.done

theorem Still.performOf {op host r : Nat} {e : FEntry} {u : State} (h : Still z u) : Still z (Machine.performOf op host r e u).1 := by
  unfold Machine.performOf
  split
  · exact h.nop
  · exact h.compress
  · exact h.decompress
  · exact h.checkAppend
  · exact h.checkVerify
  · exact h.submit
  · exact h.layerSet
  · exact h.layerFence
  · exact h.loadCoeff
  · exact h.readCoeff
  · exact h.cursorLoad
  · exact h.commit
  · exact h.limitSet
  · exact h.policySet
  · exact h.rearm
  · exact h.modeCommit
  · exact h.lutLoad
  · exact h.lutRead
  · exact h.select
  · exact h.requestIdr
  · exact h.retrain
  · exact h.power
  · exact h.laneTest
  · exact h.inject
  · exact h.keysLoad
  · exact h.rebaseline
  · exact h.selfTest
  · exact h.rawRead
  · exact h.stepCmd
  · exact h.align
  · exact h.groupRate
  · exact h.freeze
  · exact h.release
  · exact h.dump
  · exact h.mark
  · exact h.rerunLoad
  · exact h.rerunStop
  · exact h.handover
  · exact h.resync
  · exact h.done

theorem Still.followMiss {hd l frame src alive : Nat} (h : Still z s) : Still z (s.followMiss hd l frame src alive) := by
  unfold State.followMiss
  extract_lets t u v
  have ht : Still z t := .ite (.onBus h (.journal (.refl _))) h
  have hu : Still z u := .ite ht.bump ht
  have hv : Still z v := by
    unfold v
    split
    · exact .ite hu.setRerun hu
    · exact hu
  exact .ite hv.setTnd.emit hv.setTnd

theorem Still.followFlip {hd frame : Nat} {q : Nat × Nat × Nat} (h : Still z s) : Still z (s.followFlip hd frame q) := by
  unfold State.followFlip
  extract_lets
  split
  · exact h.followMiss
  · extract_lets
    split
    · exact h.flip.setFld.setRerun
    · exact h.flip.setFld

theorem Still.relatch {hd : Nat} {c : LatchRec} {late : Bool} (h : Still z s) : Still z (s.relatch hd c late) := by
  unfold State.relatch
  extract_lets
  refine .setHead (.setFld (.forEach h fun _ _ h2 => ?_))
  extract_lets
  split
  · exact h2.latchLayer
  · exact h2.latchLayer.setHead

theorem Still.lateCommands {hd : Nat} {t : Word} (h : Still z s) : Still z (s.lateCommands hd t).1 :=
  h.applyCommits.basicBanks.applyFresh.applyLuts

theorem Still.followLatch {c : LatchRec} (h : Still z s) : Still z (s.followLatch c) := by
  unfold State.followLatch
  extract_lets
  exact .ite (.emitAt (.setReg (.setReg (.setTnd (.setHead (.relatch (.forEach h.lateCommands fun _ _ h2 => h2.followFlip))))))) (.setTnd
      (.setHead (.relatch (.forEach h.lateCommands fun _ _ h2 => h2.followFlip))))

theorem Still.tryLatch {hd : Nat} (h : Still z s) : Still z (s.tryLatch hd) := by
  unfold State.tryLatch
  extract_lets
  split
  · exact .ite h.setTnd.followLatch h.setTnd
  · exact h.setTnd

theorem Still.applyLatch {r : JRec} (h : Still z s) : Still z (s.applyLatch r) := by
  unfold State.applyLatch
  extract_lets
  exact .ite h h.setTnd.tryLatch

theorem Still.applyStrip {r : JRec} (h : Still z s) : Still z (s.applyStrip r) := by
  unfold State.applyStrip
  extract_lets
  split
  · exact .showSheds (.forEach h fun _ _ h2 => h2.setHead.shedNote)
  · exact .showSheds (.forEach h fun _ _ h2 => h2.setHead.shedNote)
  · exact .ite h h.onFrame
  · exact .ite h.bump h
  · exact .ite h (.forEach h.noteDoubts fun _ _ h2 => h2.columnLeaves)
  · exact h

theorem Still.applyDoubt {r : JRec} (h : Still z s) : Still z (s.applyDoubt r) := .ite h h.noteDoubts

theorem Still.applyRowchk {r : JRec} (h : Still z s) : Still z (s.applyRowchk r) := .ite h h.rerunRecorded

theorem Still.applyIngest {r : JRec} (h : Still z s) : Still z (s.applyIngest r) := by
  unfold State.applyIngest
  split
  · exact .ite h.setRerun h
  · exact h

theorem Still.backdate {hd : Nat} {t : Word} (h : Still z s) : Still z (s.backdate hd t) := by
  unfold State.backdate
  extract_lets
  exact h.setHead

theorem Still.applyCommand {r : JRec} (h : Still z s) : Still z (s.applyCommand r) := by
  unfold State.applyCommand
  extract_lets q k x data u
  have hu : Still z u := by
    unfold u
    split
    · exact h
    · exact .onBus h (.setRing (.refl _))
  split
  · exact hu
  · extract_lets v
    have hv : Still z v := .withPorts hu fun _ h1 => h1.perform fun _ _ _ _ h2 => h2.performOf
    exact .ite hu (.ite hv.backdate hv)

theorem Still.applyWrite {r : JRec} (h : Still z s) : Still z (s.applyWrite r) := by
  unfold State.applyWrite
  split
  · exact h.regWrite
  · exact h

theorem Still.applyTiming {r : JRec} (h : Still z s) : Still z (s.applyTiming r) := by
  unfold State.applyTiming
  extract_lets
  split
  · exact h.timeStep
  · exact .ite h h.setReg.setReg.setGroup.setNext.emit.alignNotes
  · exact h

theorem Still.applyRec {r : JRec} (h : Still z s) : Still z (s.applyRec r) := by
  unfold State.applyRec
  extract_lets _ u _ v
  have hu : Still z u := h.setTnd
  have hv : Still z v := by
    unfold v
    split
    · exact hu.applyLatch
    · exact hu.applyLatch
    · exact hu.applyStrip
    · exact hu.applyDoubt
    · exact hu.applyRowchk
    · exact hu.applyIngest
    · exact hu.applyCommand
    · exact hu.setTnd
    · exact hu.applyWrite
    · exact hu.applyTiming
    · exact .ite hu.setTnd hu
    · exact hu
  exact hv.setTnd

theorem Still.rerunFetch (h : Still z s) : Still z s.rerunFetch := by
  unfold State.rerunFetch
  split
  · exact h
  · extract_lets
    refine .ite h.setRerun ?_
    extract_lets
    split <;> exact .setRerun (.ofPair h.load ‹_›)

theorem Still.rerunApply {n : Nat} (h : Still z s) : Still z (State.rerunApply n s) := by
  induction n generalizing s with
  | zero => exact h
  | succ n ih =>
    unfold State.rerunApply
    refine Still.ite h ?_
    split
    · exact h
    · refine Still.ite h (ih (Still.applyRec ?_))
      split
      · exact Still.rerunFetch (Still.setRerun h)
      · exact h

end

end Sys2Proof.Machine

/-! SUPPORT. An idle step (spec/15 R472, log 1). -/

namespace Sys2Proof.Machine

section
variable {s : State}

/-! ### A tick -/

theorem State.tickOn_time64 :
    s.tickOn.bus.time.toNat * 2 ^ 32 + s.tickOn.bus.frac.toNat =
      (s.bus.time.toNat * 2 ^ 32 + s.bus.frac.toNat + s.incr) % 2 ^ 64 := by
  show (w32 (_ / 2 ^ 32)).toNat * 2 ^ 32 + (w32 _).toNat = _
  have hv := Nat.mod_lt (s.bus.time.toNat * 2 ^ 32 + s.bus.frac.toNat + s.incr) (show 0 < 2 ^ 64 by decide)
  generalize (s.bus.time.toNat * 2 ^ 32 + s.bus.frac.toNat + s.incr) % 2 ^ 64 = v at hv ⊢
  simp only [w32, BitVec.toNat_ofNat]
  omega

/-- Counting a wrap touches TIM_WRAP and the events that wait alone. -/
theorem State.countTick_bus : BusOnly s.tickOn.bus s.countTick.bus := by
  have h (wraps : Bool) : BusOnly s.tickOn.bus (if wraps then s.tickOn.wrapBy true else s.tickOn).bus := by
    cases wraps
    · exact .refl _
    · exact Bus.emit_only (.refl _)
  rw [State.countTick_eq]
  exact h _

theorem Bus.drainOne_only {b : Bus} : BusOnly b b.drainOne := by
  unfold Bus.drainOne
  split
  · exact .refl b
  next w _ => exact (Bus.retire_only (w := w) (.refl b)).upd rfl rfl rfl rfl rfl rfl rfl rfl rfl rfl

/-- The state after what every tick does while both dies run: TIME_NS has counted and the array has taken a write. -/
def State.ticked (s : State) : State := s.countTick.onBus Bus.drainOne

theorem State.ticked_bus : BusOnly s.tickOn.bus s.ticked.bus := State.countTick_bus.trans Bus.drainOne_only

theorem State.tickOn_regs : s.tickOn.bus.regs = s.bus.regs := by
  unfold State.tickOn
  rw [State.onBus_bus]

theorem State.tickOn_ticks : s.tickOn.bus.ticks = s.bus.ticks + 1 := rfl

theorem State.ticked_ticks : s.ticked.bus.ticks = s.bus.ticks + 1 :=
  State.ticked_bus.ticks.trans State.tickOn_ticks

theorem State.ticked_rerunning : s.ticked.rerunning = s.rerunning :=
  congrArg (fun v => bf v 0 2 == 2) ((State.ticked_bus.reg .rerunState 0 0 rfl).trans (Bus.reg_congr State.tickOn_regs ..))

/-! ### An idle step -/

theorem State.idle_live (hl : s.live) :
    s.idle = if s.rerunning then (State.rerunApply 64 s.ticked).settle else s.ticked.settle := by
  obtain ⟨hp, hf⟩ := hl
  unfold State.idle
  rw [hp, hf, ← State.ticked_rerunning]
  exact if_neg (by decide)

theorem State.idle_not_live (hl : ¬ s.live) : s.idle = s.onBus fun b => { b with ticks := b.ticks + 1 } := by
  unfold State.idle
  exact if_pos (by simpa [State.live, imp_iff_not_or] using hl)

theorem State.idle_ticks : s.idle.bus.ticks = s.bus.ticks + 1 := by
  by_cases hl : s.live
  · rw [State.idle_live hl]
    have hs (t : State) : t.settle.bus.ticks = t.bus.ticks := (State.settle_only (.refl t)).bus.ticks
    split
    · exact (hs _).trans ((Still.rerunApply (.refl s.ticked)).bus.ticks.trans State.ticked_ticks)
    · exact (hs _).trans State.ticked_ticks
  · rw [State.idle_not_live hl]
    rfl

theorem State.idle_time64 (hl : s.live) (hr : s.rerunning = false) :
    s.idle.bus.time.toNat * 2 ^ 32 + s.idle.bus.frac.toNat = (s.bus.time.toNat * 2 ^ 32 + s.bus.frac.toNat + s.incr) % 2 ^ 64 := by
  have h := State.ticked_bus.trans (State.settle_only (.refl s.ticked)).bus
  rw [State.idle_live hl, hr, if_neg (by decide), h.time, h.frac, State.tickOn_time64]

end

/-- Settles O2: an idle step is a tick (log 1). -/
theorem idleStepIsOneTick : Obligations.IdleStepIsOneTick := by
  intro s h
  exact ⟨s.idle, by unfold step; rw [h], (State.idle_keeps (.refl s)).queue.trans h, State.idle_ticks.symm, State.idle_time64⟩

end Sys2Proof.Machine
